-- ==== Sys2Proof/Word.lean ====
section
/-!
DEFINITION. The words the block works on: registers and most fields of its entries are 32 bits wide (R4), memory is bytes.
-/
namespace Sys2Proof

/-- A 32-bit register or entry word (R4). -/
abbrev Word := BitVec 32

/-- A byte of memory (R4). -/
abbrev Byte := BitVec 8

end Sys2Proof
end

