-- ==== Sys2Proof/Syntax.lean ====
section
/-!
DEFINITION. The commands: one constructor per row of spec/opcode_table.json, and the types of their operands.  Operands are
what the sender or the outside world chooses: an index, a value written, bytes received, a measured result.
-/
namespace Sys2Proof

/-- Bytes in order. -/
abbrev Bytes := List Byte

/-- Decoded pixels, each a list of components. -/
abbrev Pixels := List (List Nat)

/-- A USB4 link as it changes (R164, R166): its generation code, whether two lanes are bonded, its state, whether the PCIe
tunnel and the DP tunnels are up, whether the router is enumerated, whether bandwidth allocation mode is on, and the bandwidth granted
(HOST_BW_ALLOC). -/
structure LinkState where
  gen : Nat
  x2 : Bool
  state : Nat
  enumerated : Bool
  pcie : Bool
  dp0 : Bool
  dp1 : Bool
  bwMode : Bool
  bw : Nat
  deriving DecidableEq, Repr

/-- A sink's stream and timing as offered (Table 5.4, Table 5.6). -/
structure DpTiming where
  hact : Nat
  htot : Nat
  vact : Nat
  vtot : Nat
  khz : Nat
  fmt : Nat
  bpc : Nat
  dsc : Bool
  bpp16 : Nat
  slices : Nat
  lanes : Nat
  rate : Nat
  fec : Bool
  deriving DecidableEq, Repr

/-- The metadata of a DP frame: its VSC SDP (R234), that is ENC, narrow range and transfer function, and the bytes of its HDR static
metadata, passed to ingest (Table 5.4). -/
structure Vsc where
  enc : Nat
  narrow : Bool
  tf : Nat
  hdr : Bytes := []
  deriving DecidableEq, Repr

/-- What the host writes of the PCIe function's configuration space and of its MSI-X table (R167, R168): the payload and read-request codes,
bus mastering, MSI-X enable, the function mask, the masked vectors as a 64-bit mask, the bases of BAR0, BAR2 and BAR4, and by vector the
message address and data of the MSI-X table. -/
structure PcieCfg where
  payload : Nat
  readReq : Nat
  master : Bool
  msix : Bool
  funcMask : Bool
  vecMask : Nat
  bars : List Nat
  msgs : List (Nat × Nat × Word)
  deriving DecidableEq, Repr

/-- What the Identify data of the drive and of the namespace say (R220, R221): the status of the admin commands, 0 for success,
MDTS, and of the namespace's format the log2 of the block's bytes, the metadata bytes and the protection type. -/
structure NvmeIdent where
  status : Nat
  mdts : Nat
  lbads : Nat
  metadata : Nat
  protect : Nat
  deriving DecidableEq, Repr

/-- What a boot finds: the digest of the ROM; the certificate of the IDENTITY record and whether its key unwraps (R519); and the
nanoseconds from PORST_N release to STANDBY (R150). -/
structure BootFacts where
  rom : Bytes
  cert : Bytes
  unwrap : Bool
  ns : Nat
  deriving DecidableEq, Repr

/-- What the passes of a CALIBRATE measured (R438 to R443; log entry 18): the two passes' means in codes, by point and not by
order of measurement, and the further readings of the procedure.  PD: for each photodiode of the mask and each range, the offset, the 25 %
and the 75 % mean.  PI: 64 points; `extra` is the standard deviation of CPD's offset window in 1/256 codes.  SCAN: for each colour of
the mask, 64 points; `extra` is that deviation, the RMS ANGLE error in ns, then for each colour the filtered channel's full-code mean of
either pass.  DRAM: for each set point and lane, the passing read steps and the passing write steps as 128-bit masks. -/
structure CalData where
  pass1 : List Nat
  pass2 : List Nat
  extra : List Nat
  deriving DecidableEq, Repr

/-- A request on the USB 2.0 control endpoint (R176): its operation, tag, BAR0 offset, length and data. -/
structure UsbRequest where
  op : Nat
  tag : Nat
  offset : Nat
  len : Nat
  data : Bytes
  deriving DecidableEq, Repr

/-- The commands the block takes: one constructor per row of the table, with what the sender chooses as operands. -/
inductive Instr
  /-- FRAME_BOUNDARY (R48): Fabric time reaches the next computed frame boundary FB_k and the FSN steps by one. -/
  | frameBoundary
  /-- COMMIT_CUTOFF (R70): At the cutoff for FB_k the pending commits are latched and validated whole. -/
  | commitCutoff
  /-- PRELOAD_START (R272): At P_k the SEALED set of each port becomes SHOWING and the previous SHOWING set becomes
  FREE. -/
  | preloadStart
  /-- DARK_INTERVAL_START (R55): The dark interval begins and every string and beam is held at zero. -/
  | darkIntervalStart
  /-- SLOT_START (R303): At S_i the epoch goes to the laser drive, the shunts divert and the slot's RESET is sent. -/
  | slotStart (g : Nat) (ev : List (Nat × Nat × Nat))
  /-- KERF_END (R303): At E_i MAp_RDY_N is sampled; the shunts release and the dwell begins. -/
  | kerfEnd (g : Nat) (rdyLow : Bool) (seenHigh : Bool)
  /-- LAST_DWELL_END (R265): The last dwell of a frame ends and the group emits no light until the FB. -/
  | lastDwellEnd (g : Nat) (ev : List (Nat × Nat × Nat))
  /-- PLANE_LOAD_START (R280): The serialiser begins streaming the plane of a slot once the staging store allows it.
  -/
  | planeLoadStart (p : Nat)
  /-- PLANE_LOAD_END (R290): The last data block of a plane is sent and the tap CRC becomes final. -/
  | planeLoadEnd (p : Nat)
  /-- FIFO_UNDERRUN (R304): The port FIFO holds no word for the next data block, so the frame is aborted. -/
  | fifoUnderrun (p : Nat)
  /-- MEASURE_WINDOW_CLOSE (R418): The measurement window of a MEASURE slot closes and its mean is taken. -/
  | measureWindowClose (g : Nat) (i : Nat) (flat : Nat) (filt : Nat) (satA : Nat) (satB : Nat)
  /-- OFFSET_WINDOW_CLOSE (R419): The offset window closes and the ambient current and range offsets are updated. -/
  | offsetWindowClose (j : Nat) (r : Nat) (code : Nat) (sat : Nat)
  /-- LOOP_SAMPLE (R398): A wheel slot runs its loop: it latches measurements, computes the law and writes the
  actuator. -/
  | loopSample (slot : Nat) (y : Nat) (v : Nat)
  /-- STATE_SCRUB (R412): The reserved slots read and check four loop records per turn. -/
  | stateScrub (errs : List Nat)
  /-- WHEEL_FAULT (R413): SV finds a late turn or slots out of order and asserts ABORT for everything. -/
  | wheelFault (kind : Nat) (last : Nat)
  /-- THERM_CEILING_LOST (R403): No thermal ceiling has arrived for 5 ms, so the THERM candidate falls to 0 and a C3
  fault is recorded. -/
  | thermCeilingLost (g : Nat)
  /-- OVER_CURRENT_TRIP (R381): The sense current exceeds IMAX and the string is held off for the rest of the frame.
  -/
  | overCurrentTrip (n : Nat)
  /-- FAULT_INPUT (R381): LSn_FLT_N stays low for 100 ns and the member is latched off. -/
  | faultInput (n : Nat)
  /-- SPARE_TAKEOVER (R388): A spare replaces a latched-off ACTIVE member at a kerf, or the NO_SPARE policy applies.
  -/
  | spareTakeover (g : Nat)
  /-- COLD_SPARE_HOT (R364): A called COLD spare becomes HOT within 2 ms. -/
  | coldSpareHot (m : Nat)
  /-- PROBE_DUE (R384): A member becomes due for a probe when OPEN_SUSPECT or stale. -/
  | probeDue (m : Nat)
  /-- PROBE_RUN (R385): At the first opportunity the due members are driven at probe current for 20 µs and judged. -/
  | probeRun (g : Nat) (res : List (Nat × Nat))
  /-- PROBE_STARVED (R386): A probe has been due for 1 s without an opportunity, and a C1 fault is recorded. -/
  | probeStarved (m : Nat)
  /-- CHAIN_TABLE_LOAD (R375): 4 µs after the cutoff the chain shifts CONFIG, PROBE_I, TABLE and NOP segments for the
  frame. -/
  | chainTableLoad (c : Nat)
  /-- CHAIN_SHIFT_DONE (R374): A shift completes, UPDATE is strobed and the returned STATUS segments are checked. -/
  | chainShiftDone (c : Nat) (ret : List Nat)
  /-- CHAIN_ENUM (R378): CHAIN_CMD.ENUM enumerates the chain's slices and addresses them. -/
  | chainEnum (c : Nat) (n : Nat) (ids : List (Word × Word))
  /-- CHAIN_ENUM_RETRY (R380): A chain in BREAK runs ENUM every 100 ms. -/
  | chainEnumRetry (c : Nat) (n : Nat) (ids : List (Word × Word))
  /-- PAGE_COMMIT_REQ (R66): A write of COMMIT.COMMIT_REQ commits the page's shadows. -/
  | pageCommitReq (p : Nat) (abort : Bool)
  /-- PAGE_COMMIT_ABORT (R72): A write of COMMIT.COMMIT_ABORT withdraws a pending commit, or sets ABORT_LATE. -/
  | pageCommitAbort (p : Nat)
  /-- DEV_COMMIT_REQ (R98): A write of DEV_COMMIT.COMMIT_REQ commits the masked pages as one group. -/
  | devCommitReq (abort : Bool)
  /-- DEV_COMMIT_ABORT (R72): A write of DEV_COMMIT.COMMIT_ABORT withdraws the pending group commit. -/
  | devCommitAbort
  /-- REGISTER_WRITE (R666): A write to a register without behaviour of its own is applied, or ignored under range,
  lock or reserved rules. -/
  | registerWrite (a : Nat) (v : Word)
  /-- UNSUPPORTED_ACCESS (R82): A BAR0 access of bad size or alignment completes with Unsupported Request or is
  discarded. -/
  | unsupportedAccess (a : Nat) (size : Nat) (w : Option Bytes)
  /-- WINDOW_WRITE (R85): A BAR2 window write reaches CP7, CP10 or CP11, or is discarded with WR_DENIED. -/
  | windowWrite (off : Nat) (data : Bytes)
  /-- WINDOW_DATA_ACCESS (R667): An access to a window data register, with AUTO_INC set, steps the window index. -/
  | windowDataAccess (a : Nat) (w : Option Word)
  /-- TIME_FT_LO_READ (R38): A read of TIME_FT_LO latches TIME_FT_HI and TIME_FT_FRAC. -/
  | timeFtLoRead
  /-- TIME_CUTOFF_LO_READ (R53): A read of TIME_CUTOFF_LO latches TIME_CUTOFF_HI. -/
  | timeCutoffLoRead
  /-- TALLY_SNAP_LO_READ (R616): A read of TALLY_SNAP_LO latches TALLY_SNAP_HI of the same counter. -/
  | tallySnapLoRead (n : Nat)
  /-- PAGE_ENABLE_WRITE (R665): A write of PAGE_CTRL.ENABLE enables or disables the block, or is refused while lit. -/
  | pageEnableWrite (p : Nat) (en : Bool)
  /-- SOFT_RESET (R141): A write of PAGE_CTRL.SOFT_RESET resets the block's registers and operations, or is refused
  under R90. -/
  | softReset (p : Nat)
  /-- SOFT_RESET_DONE (R141): A block's soft reset completes within 100 µs. -/
  | softResetDone (p : Nat)
  /-- PAGE_FREEZE (R91): A write of PAGE_CTRL.FREEZE holds or releases the presented RO and CNT values. -/
  | pageFreeze (p : Nat) (on : Bool)
  /-- PAGE_LOCK_WRITE (R92): A write of PAGE_LOCK sets LOCK and STICKY, or is ignored while STICKY. -/
  | pageLockWrite (p : Nat) (v : Word)
  /-- INT_STATUS_CLEAR (R95): A W1C write to INT_STATUS clears bits and resends MSI-X if the condition stays true. -/
  | intStatusClear (p : Nat) (v : Word)
  /-- INT_FORCE (R94): A write of INT_FORCE sets the matching INT_STATUS bits. -/
  | intForce (p : Nat) (v : Word)
  /-- EVT_MOD_TIMEOUT (R96): RING_EVT_MOD.TIME elapses after the first unreported event, making vector 63 true. -/
  | evtModTimeout
  /-- RING_EVT_HEAD_WRITE (R106): The host writes RING_EVT_HEAD; the write is accepted or refused with HEAD_ERR, and
  vector 63 is re-evaluated. -/
  | ringEvtHeadWrite (v : Word)
  /-- RING_CMD_TAIL_WRITE (R106): The host writes RING_CMD_TAIL, making commands visible, or the write is refused with
  TAIL_ERR. -/
  | ringCmdTailWrite (v : Word)
  /-- CMD_EN_SET (R107): CMD_EN goes from 0 to 1, so RING_CMD_HEAD takes TAIL and the fetch stop clears. -/
  | cmdEnSet
  /-- CMD_EN_CLEAR (R108): CMD_EN goes from 1 to 0, so consumption stops after the entry being read. -/
  | cmdEnClear
  /-- EVT_EN_SET (R107): EVT_EN goes from 0 to 1, so RING_EVT_HEAD takes TAIL. -/
  | evtEnSet
  /-- EVT_EN_CLEAR (R116): EVT_EN goes to 0 and events stop being written. -/
  | evtEnClear
  /-- RING_CMD_RESYNC (R110): A write sets RING_CMD_SEQ_EXPECT, clears GAP_STOP and posts RESYNC. -/
  | ringCmdResync (v : Word)
  /-- CMD_FETCH (R109): The ring front end reads the entry at HEAD and passes it on, stops on a gap, or drops a
  duplicate. -/
  | cmdFetch (host : Bytes)
  /-- CMD_FETCH_FAULT (R111): An entry fetch ends in a host abort or timeout and consumption stops with FETCH_STOP. -/
  | cmdFetchFault (kind : Nat)
  /-- EVENT_WRITE (R115): An event is written to the ring, or lost for lack of two free entries, with OVERFLOW
  following. -/
  | eventWrite
  /-- EVENT_WRITE_FAULT (R668): An event entry write ends in an abort, timeout or translation fault, and the event is
  lost. -/
  | eventWriteFault
  /-- NOP (R113): The NOP command completes with OK. -/
  | nop (cseq : Word)
  /-- BAD_OPCODE (R113): A reserved opcode completes with BAD_OPCODE. -/
  | badOpcode (cseq : Word)
  /-- SNAPSHOT (R118): A SNAPSHOT command is accepted and waits for the next FB. -/
  | snapshot (cseq : Word)
  /-- SNAPSHOT_CAPTURE (R118): At the next FB the state of every block is captured and written as the dump. -/
  | snapshotCapture (xok : Bool)
  /-- STATE_SET_READY (R121): STATE_SET from STANDBY to READY brings up every enabled unit. -/
  | stateSetReady (cseq : Word)
  /-- BRINGUP_FAILED (R122): A unit fails bring-up or is not up at 400 ms; the device stays in STANDBY. -/
  | bringupFailed (hw : List (Nat × Nat))
  /-- STATE_SET_STANDBY (R121): STATE_SET from READY to STANDBY parks the arrays and puts the pairs into self-refresh.
  -/
  | stateSetStandby (cseq : Word)
  /-- STATE_SET_LIT (R121): STATE_SET to LIT starts the named groups through soft start. -/
  | stateSetLit (cseq : Word)
  /-- STATE_SET_EXTINGUISH (R121): STATE_SET from LIT ramps the named groups to zero. -/
  | stateSetExtinguish (cseq : Word)
  /-- FW_STAGE (R156): FW_STAGE writes an image into the non-running slot of its kind and verifies it. -/
  | fwStage (cseq : Word) (host : Option Bytes)
  /-- FW_ACTIVATE_HK (R159): FW_ACTIVATE of kind HK starts a housekeeping restart into the staged image on trial. -/
  | fwActivateHk (cseq : Word)
  /-- FW_ACTIVATE_SV (R162): FW_ACTIVATE of kind SV restarts the supervisor into the staged image in STANDBY. -/
  | fwActivateSv (cseq : Word)
  /-- FW_ACTIVATE_ROLLBACK (R153): FW_ACTIVATE of kind ROLLBACK writes the mirror and blows the fuse steps. -/
  | fwActivateRollback (cseq : Word)
  /-- FW_TRIAL_PASS (R160): The new image steps DEV_HEARTBEAT within 300 ms and the HK selector is rewritten. -/
  | fwTrialPass
  /-- FW_TRIAL_FAIL (R161): The trial window ends without a heartbeat and the cores restart into the previous image.
  -/
  | fwTrialFail
  /-- SV_SELFTEST_DONE (R162): The restarted supervisor completes self-test; the selector is rewritten or the previous
  image restarts. -/
  | svSelftestDone (ok : Bool)
  /-- HK_RESTART_REQUEST (R31): A write of PWR_HK_RESTART with its key starts a housekeeping restart with reason 2. -/
  | hkRestartRequest (v : Word)
  /-- HK_WATCHDOG_EXPIRY (R31): The housekeeping watchdog expires and a restart with reason 1 begins. -/
  | hkWatchdogExpiry
  /-- HK_RESTART_END (R32): A housekeeping core runs again and command consumption resumes at SEQ_EXPECT. -/
  | hkRestartEnd
  /-- MGMT_LOST (R36): No housekeeping core runs 1 s after a restart began, so a C2 fault is recorded. -/
  | mgmtLost
  /-- CALIBRATE_PD (R439): CALIBRATE with PROC PD measures the offset and gain of each photodiode range. -/
  | calibratePd (cseq : Word)
  /-- CALIBRATE_PI (R440): CALIBRATE with PROC PI sweeps a member's current in two passes to form its P–I record. -/
  | calibratePi (cseq : Word)
  /-- CALIBRATE_SCAN (R442): CALIBRATE with PROC SCAN measures the beam colours' P–I points in the turnarounds. -/
  | calibrateScan (cseq : Word)
  /-- CALIBRATE_DRAM (R443): CALIBRATE with PROC DRAM runs the compatibility sweep to form a delay record. -/
  | calibrateDram (cseq : Word)
  /-- CALIBRATION_RESULT (R438): A procedure's passes end, and it is judged and its result applied or refused. -/
  | calibrationResult (d : CalData)
  /-- PRECOND_LOST (R437): A precondition fails during a calibration run and the command ends with PRECOND_LOST. -/
  | precondLost
  /-- TRIM_ABORT (R438): A write of TRIM_CTRL.ABORT ends the running procedure with ABORTED. -/
  | trimAbort (v : Word)
  /-- TRIM_TIMEOUT (R438): A calibration runs longer than TRIM_TIMEOUT and completes with TIMEOUT. -/
  | trimTimeout
  /-- SEED_STORE (R514): SEED_STORE writes a host payload as a Seedbank record. -/
  | seedStore (cseq : Word) (host : Option Bytes)
  /-- SEED_LOAD (R515): SEED_LOAD returns a Seedbank record with its header into a buffer. -/
  | seedLoad (cseq : Word) (xok : Bool)
  /-- ATTEST (R526): ATTEST captures the log and M, signs the quote and writes it. -/
  | attest (cseq : Word) (sig : Option Bytes) (xok : Bool)
  /-- OWNER_KEY_INSTALL (R522): OWNER_KEY INSTALL adds an owner modulus and blows its hash. -/
  | ownerKeyInstall (cseq : Word) (host : Option Bytes)
  /-- OWNER_KEY_REVOKE (R522): OWNER_KEY REVOKE blows the revocation bit of a slot. -/
  | ownerKeyRevoke (cseq : Word) (host : Option Bytes)
  /-- OWNER_KEY_POLICY_ON (R522): OWNER_KEY POLICY_ON blows the owner policy fuse. -/
  | ownerKeyPolicyOn (cseq : Word) (host : Option Bytes)
  /-- OWNER_KEY_RESTORE (R522): OWNER_KEY RESTORE rewrites a fused owner modulus into OWNER_KEYS. -/
  | ownerKeyRestore (cseq : Word) (host : Option Bytes)
  /-- TIMECODE (R62): The TIMECODE command re-anchors the timecode mapping. -/
  | timecode (cseq : Word)
  /-- TC_FREEWHEEL_EXPIRY (R63): No timecode arrives for FREEWHEEL and TC_VALID is cleared. -/
  | tcFreewheelExpiry
  /-- FABRIC_SEND (R559): FABRIC_SEND sends a host message as consecutive fabric frames. -/
  | fabricSend (cseq : Word) (host : Option Bytes)
  /-- HOLD_CTRL_VERIFY (R605): HOLD_CTRL VERIFY reads container frames and checks their CRCs. -/
  | holdCtrlVerify (cseq : Word) (reads : List (Bytes × Bytes))
  /-- DRAM_SWEEP (R491): DRAM_SWEEP runs the eye sweep on an out-of-service pair and writes the result. -/
  | dramSweep (cseq : Word) (pass : List Nat) (xok : Bool)
  /-- SWEEP_ABORTED (R492): A set-point change falls due during a sweep; the sweep ends with SWEEP_ABORTED. -/
  | sweepAborted
  /-- FAULT_CLEAR (R636): FAULT_CLEAR closes fault records whose condition has ended, and may leave SAFE. -/
  | faultClear (cseq : Word)
  /-- TIME_FT_SET_HI_WRITE (R45): A write of TIME_FT_SET_HI stores the upper half of FT to set. -/
  | timeFtSetHiWrite (v : Word)
  /-- TIME_FT_SET_LO_WRITE (R45): A write of TIME_FT_SET_LO moves FT, or is refused with FT_SET_REFUSED. -/
  | timeFtSetLoWrite (v : Word)
  /-- TIME_CTRL_WRITE (R80): A write of TIME_CTRL sets the source and sync modes, or is refused with SRC_LOCKED while
  lit. -/
  | timeCtrlWrite (v : Word)
  /-- TIME_SOURCE_LOST (R40): The selected source gives no timestamp for its interval plus the timeout, so the next
  source is selected. -/
  | timeSourceLost
  /-- TIME_SOURCE_REQUALIFIED (R40): A higher-priority source has stayed qualified for TIME_SRC_QUALIFY and is
  selected again. -/
  | timeSourceRequalified
  /-- FSYNC_IN_EDGE (R39): An FSYNC_IN edge is timestamped and corrects FT in PPS or FRAME mode. -/
  | fsyncInEdge (after : Nat)
  /-- VDD_AON_VALID (R129): VDD_AON becomes valid and the device enters AON. -/
  | vddAonValid
  /-- VDD_AON_LOSS (R129): VDD_AON falls below 1.2 V, clearing the always-on domain and the Firebreak latch. -/
  | vddAonLoss
  /-- PORST_N_ASSERT (R136): PORST_N falls and light service ends at once. -/
  | porstNAssert
  /-- PORST_N_RELEASE (R144): PORST_N is released: BOOT_SRC is latched and the ROM boots. -/
  | porstNRelease (src : Nat)
  /-- BOOT_SOURCE_TIMEOUT (R144): A boot source yields no valid image within SRC_TIMEOUT and the next source is tried.
  -/
  | bootSourceTimeout (timeout : Bool)
  /-- BOOT_COMPLETE (R150): The boot chain finishes and the device enters STANDBY. -/
  | bootComplete (f : BootFacts)
  /-- RAIL_OUT_OF_TOLERANCE (R128): A rail is out of tolerance for 2 µs: lasers cut and the device held in reset. -/
  | railOutOfTolerance (rail : Nat)
  /-- RAILS_RESTORED (R128): Every rail has been within tolerance for 1 ms and the device boots with reason 0x12. -/
  | railsRestored (src : Nat)
  /-- PF_WARN (R130): PWR_FAIL_N is recognised as asserted; new Seedbank records are held. -/
  | pfWarn
  /-- PF_LASER_CUT (R133): PWR_FAIL_N is still asserted after LASER_DELAY, so the lasers are cut and the power-fail
  record is written. -/
  | pfLaserCut
  /-- PF_DEASSERT (R134): PWR_FAIL_N returns high, counting a ride-through or starting recovery. -/
  | pfDeassert
  /-- PF_RECOVERED (R134): PWR_FAIL_N has been high for RECOVER, so groups are relit at the next FB. -/
  | pfRecovered
  /-- WARM_RESET (R137): A write of PWR_RESET_CTRL with the key and WARM starts a warm reset. -/
  | warmReset (v : Word)
  /-- FABRIC_RESET_REQ (R139): A RESET_REQ for this node is honoured as a warm reset or refused. -/
  | fabricResetReq (p : Nat) (src : Nat) (d : Bytes)
  /-- USB4_LINK_CHANGE (R166): The USB4 link or PCIe tunnel goes up or down. -/
  | usb4LinkChange (l : LinkState)
  /-- UNSUPPORTED_OFFER (R165): A connection manager offers an unsupported feature and the controller refuses it. -/
  | unsupportedOffer (code : Nat) (a : Nat)
  /-- FUNCTION_LEVEL_RESET (R168): An FLR resets the PCIe function, aborts host-side Skidder channels and disables the
  rings. -/
  | functionLevelReset
  /-- DP_FRAME_START (R216): Start of active video on a DP sink opens the source's next surface. -/
  | dpFrameStart (a : Nat)
  /-- DP_FRAME_SEALED (R216): The last line of a DP frame is written and its surface is sealed. -/
  | dpFrameSealed (a : Nat) (pix : Pixels) (bad : List Nat) (vsc : Option Vsc)
  /-- DP_FRAME_ABANDONED (R217): A DP frame ends without its last line and is abandoned. -/
  | dpFrameAbandoned (a : Nat)
  /-- DP_TIMING_CHANGE (R172): A sink's timing, format or DSC parameters change and take effect at the next frame. -/
  | dpTimingChange (a : Nat) (t : DpTiming)
  /-- DSC_PPS_REFUSED (R173): A DSC parameter set outside the table makes the sink refuse the stream. -/
  | dscPpsRefused (a : Nat)
  /-- PANEL_REPLAY_ENTRY (R174): The source signals no update under Panel Replay; Frost hold follows at the next FB.
  -/
  | panelReplayEntry (a : Nat)
  /-- PANEL_REPLAY_UPDATE (R174): A frame update under Panel Replay thaws the controller after its seal. -/
  | panelReplayUpdate (a : Nat)
  /-- USB2_REQUEST (R176): A USB 2.0 bulk request for a BAR access or recovery chunk is served and answered. -/
  | usb2Request (r : UsbRequest)
  /-- USB2_SUMMARY_DELIVERY (R177): The interrupt endpoint delivers the summary registers after they change. -/
  | usb2SummaryDelivery
  /-- SKD_CH_TAIL_WRITE (R193): The host advances a channel's TAIL, submitting descriptors, or the write is refused
  with TAIL_ERR. -/
  | skdChTailWrite (c : Nat) (v : Word)
  /-- SKD_DESCRIPTOR_START (R185): A mover takes a channel's next descriptor and checks its DSEQ. -/
  | skdDescriptorStart (m : Nat) (host : Bytes)
  /-- SKD_PREEMPT (R179): A higher-priority channel gains work and the running channel is saved at the next 4 KiB
  point. -/
  | skdPreempt (m : Nat) (upto : Nat) (host : Bytes) (hostDesc : Bytes)
  /-- SKD_FAULT (R186): A beat faults; the channel stops, its context is saved and it enters FAULTED. -/
  | skdFault (m : Nat) (upto : Nat) (detail : Nat) (dst : Bool) (host : Bytes)
  /-- SKD_HOST_TIMEOUT (R186): A host request gets no completion within SKD_HOST_TMO and faults with HOST_TIMEOUT. -/
  | skdHostTimeout (m : Nat) (upto : Nat) (dst : Bool) (host : Bytes)
  /-- SKD_DESC_DONE (R184): A descriptor retires with its status and write-back. -/
  | skdDescDone (m : Nat) (host : Bytes) (others : Bool)
  /-- SKD_OP_RESUME (R187): SKD_OP RESUME retries the faulting beat with a fresh translation. -/
  | skdOpResume (c : Nat)
  /-- SKD_OP_SKIP (R187): SKD_OP SKIP retires the faulted descriptor as SKIPPED. -/
  | skdOpSkip (c : Nat)
  /-- SKD_OP_ABORT (R188): SKD_OP ABORT stops the channel and retires its descriptors as ABORTED. -/
  | skdOpAbort (c : Nat) (host : Bytes)
  /-- SKD_OP_RESYNC (R185): SKD_OP RESYNC sets the expected DSEQ from SKD_SEQ_LOAD. -/
  | skdOpResync (c : Nat)
  /-- SKD_CH_ENABLE (R188): A write of SKD_CH_CTRL EN from 0 to 1 sets HEAD to TAIL; from 1 to 0 it aborts the
  channel. -/
  | skdChEnable (c : Nat) (v : Word) (host : Bytes)
  /-- SKD_CTX_CAPTURE (R192): A write of SKD_CTX_SEL captures a channel's context or account coherently. -/
  | skdCtxCapture (v : Word)
  /-- DTU_WALK (R194): A TLB miss walks the four-level tables and installs a translation or faults. -/
  | dtuWalk (va : Nat) (write : Bool) (client : Nat)
  /-- DTU_INV_GO (R669): A write of DTU_INV_CTRL.GO starts an invalidation, or is refused while one is in progress. -/
  | dtuInvGo (v : Word)
  /-- DTU_INV_DONE (R196): An invalidation completes after the stale accesses finish and DONE is set. -/
  | dtuInvDone
  /-- DTU_PROBE (R194): A write of DTU_PROBE GO walks the tables for one address without faulting. -/
  | dtuProbe (v : Word)
  /-- SURF_DEFINE (R205): STORE_SURF_OP DEFINE walks the DTU and installs or refuses a surface record. -/
  | surfDefine (i : Nat)
  /-- SURF_OPEN (R206): STORE_SURF_OP OPEN opens a surface for writing and clears its ERR flag. -/
  | surfOpen (i : Nat)
  /-- SURF_CLOSE (R206): STORE_SURF_OP CLOSE returns a surface to CLOSED. -/
  | surfClose (i : Nat)
  /-- STORE_SURF_SEL_CAPTURE (R205): A write of STORE_SURF_SEL captures a surface record into the window. -/
  | storeSurfSelCapture (v : Word)
  /-- CMP_OVER (R204): A compressed frame would exceed its unit budget and is abandoned. -/
  | cmpOver (n : Nat)
  /-- CONTENT_UNIT (R219): A fabric content unit arrives and is reassembled in CP10 staging. -/
  | contentUnit (data : Bytes) (pix : Pixels)
  /-- PICTURE_LATE (R219): FB(TARGET_FSN − 1) passes before the picture is sealed, so it is abandoned. -/
  | pictureLate (f : Nat)
  /-- NVME_EN_SET (R223): NVME_EN goes from 0 to 1, bringing up the root port and checking the container. -/
  | nvmeEnSet (linkUp : Bool) (id : NvmeIdent)
  /-- NVME_READ_DONE (R222): An NVMe read completes, fails or times out and is retried once. -/
  | nvmeReadDone (status : Nat) (data : Bytes) (pix : Pixels)
  /-- HFC_PUSH (R226): A write of INGEST_HFC_PUSH queues an expected check value. -/
  | hfcPush (v : Word)
  /-- WARP_PLAN_GO (R241): A write of WARP_PLAN.GO runs the footprint planner over the shadow mesh. -/
  | warpPlanGo (v : Word)
  /-- WARP_PLAN_DONE (R241): The planner finishes and reports spill traffic and peak. -/
  | warpPlanDone
  /-- TABLE_SYNC_DONE (R246): The copy of the new active mesh or LUT image into the shadow completes. -/
  | tableSyncDone
  /-- PLANES_SEALED (R272): The last band of all planes is written and the set goes from WRITING to SEALED. -/
  | planesSealed
  /-- SEQ_CHECK_GO (R285): A write of SEQ_CHECK.GO validates every page's shadows without committing. -/
  | seqCheckGo (v : Word)
  /-- LSG_PI_CHECK_GO (R360): A write of LSG_PI_CHECK.GO checks the inactive P–I image. -/
  | lsgPiCheckGo
  /-- IDENT (R300): The array's IDENT message arrives and is accepted or refused. -/
  | ident (p : Nat) (d : Bytes)
  /-- LINK_STATUS (R304): A LINK_STATUS arrives; LOCKED ends training, anything else while running aborts with
  LINK_LOST. -/
  | linkStatus (p : Nat) (state : Nat) (lane : Nat) (skew : Nat) (order : Bool)
  /-- PLANE_ACK (R308): A PLANE_ACK arrives and DESC, TAP and ARR are compared. -/
  | planeAck (p : Nat) (slot : Nat) (plane : Nat) (status : Nat) (fsn : Word) (arrDiff : Word) (tapDiff : Word)
  /-- ARRAY_TEMP (R295): A TEMP message updates MA_ARRAY_TEMP. -/
  | arrayTemp (p : Nat) (temp : Nat)
  /-- ARRAY_STATUS (R297): A STATUS message arrives; severity STOP aborts the frame and enters ARRAY_FAULT. -/
  | arrayStatus (p : Nat) (code : Nat) (sev : Nat) (detail : Word)
  /-- ECHO_REPLY (R294): An ECHO message returns the token on the backchannel. -/
  | echoReply (p : Nat) (token : Bytes)
  /-- BACKCHANNEL_BAD_MESSAGE (R294): A backchannel message with a bad CRC, code or LEN is discarded and counted. -/
  | backchannelBadMessage (p : Nat)
  /-- ACK_MISSING (R296): A PLANE_ACK has not arrived 100 µs after the last data block. -/
  | ackMissing (p : Nat) (slot : Nat)
  /-- BC_LOST (R296): No valid ordered set has arrived for 1 ms and backchannel lock is lost. -/
  | bcLost (p : Nat)
  /-- BC_LOST_LONG (R296): The backchannel loss lasts 1 s, so the fault becomes C2. -/
  | bcLostLong (p : Nat)
  /-- MA_RDY_N_LOW (R298): The array drives MAp_RDY_N low after initialisation or parking, advancing bring-up. -/
  | maRdyNLow (p : Nat)
  /-- ARRAY_RESET (R299): MA_CTRL.ARRAY_RESET pulses MAp_RST_N and starts bring-up again. -/
  | arrayReset (p : Nat)
  /-- MA_RETRAIN (R313): MA_CTRL.RETRAIN starts lane training again. -/
  | maRetrain (p : Nat)
  /-- MA_IDENT_REQ (R295): MA_CTRL.IDENT_REQ sends IDENT_REQ to the array. -/
  | maIdentReq (p : Nat)
  /-- TRAINING_ATTEMPT_TIMEOUT (R313): A training attempt fails to lock in time; after 3 attempts the port enters
  LINK_FAIL. -/
  | trainingAttemptTimeout (p : Nat)
  /-- DARK_TRAINING_TIMEOUT (R312): A port is not LOCKED 10 ms after a dark transition and enters LINK_FAIL. -/
  | darkTrainingTimeout (p : Nat)
  /-- FAST_AXIS_ENABLE (R321): HSF EN takes effect and the open-loop resonance sweep starts. -/
  | fastAxisEnable
  /-- RESONANCE_FOUND (R321): The measured phase crosses HSF_DRV_PHASE and the FREQ loop is handed over. -/
  | resonanceFound (freq : Nat)
  /-- HANDOVER_TIMEOUT (R321): The hand-over stays outside tolerance for 10 ms, or the sweep ends, and the lock fails.
  -/
  | handoverTimeout
  /-- FAST_AXIS_LOCKED (R322): The lock criterion is met and PHASE_VALID becomes 1. -/
  | fastAxisLocked
  /-- LOCK_FAIL (R324): A second lock failure enters FAULT with a C2 fault. -/
  | lockFail
  /-- LOCK_LOSS (R325): A locked fast axis loses lock; the beam is cut and the state is REACQUIRE. -/
  | lockLoss (cause : Nat)
  /-- RELOCK_TIMEOUT (R325): Lock is not regained within HSF_RELOCK and start-up runs again. -/
  | relockTimeout
  /-- ZERO_CROSSING (R319): An HS_POS_X zero crossing corrects the angle-time increment. -/
  | zeroCrossing (before : Nat) (after : Nat)
  /-- DAC_SAMPLE (R329): Every 2 ns each beam colour takes the code of the pixel under its angle time. -/
  | dacSample
  /-- ZONE_BUCKET_BOUNDARY (R349): A 15.625 ms bucket boundary passes and blanked zones are re-evaluated. -/
  | zoneBucketBoundary
  /-- BEAM_CUT (R350): The beam-cut monitor meets a cause and drives the beam enables low. -/
  | beamCut (cause : Nat)
  /-- HIGHLINE_TARGET_CHANGE (R340): Highline's target changes and it starts a profile or a stop. -/
  | highlineTargetChange
  /-- HIGHLINE_ARRIVAL (R341): A profile ends at its row and the row is drawn on the next suitable line. -/
  | highlineArrival
  /-- ROW_DRAWN (R341): A row's line ends and Highline moves to the next row of the list. -/
  | rowDrawn
  /-- DRAWING_WINDOW_END (R342): The frame's drawing window ends and the rows not yet drawn are dropped. -/
  | drawingWindowEnd
  /-- ROW_TOLERANCE_EXIT (R344): The slow axis leaves the row tolerance during a line, blanking it and redrawing or
  dropping the row. -/
  | rowToleranceExit
  /-- TS_CONVERSION (R459): A ring-oscillator conversion updates the die temperature and its levels. -/
  | tsConversion (t : List Int)
  /-- NTC_CONVERSION (R452): An NTC conversion gives a heat-sink temperature. -/
  | ntcConversion (j : Nat) (c : Nat)
  /-- LASER_MODEL_UPDATE (R454): Every 1 ms each model group updates its three stages, levels and o_therm. -/
  | laserModelUpdate
  /-- FIREBREAK_DIE (R464): A pending die shutdown survives its dwell; the latch sets, lasers go off and core power is
  gated. -/
  | firebreakDie
  /-- FIREBREAK_LASER (R465): A pending laser-model shutdown survives its dwell; the latch sets and the laser drive is
  held off. -/
  | firebreakLaser (g : Nat)
  /-- DRAM_STEP_DOWN_REQUEST (R463): Die throttle lasts DELAY and one DRAM step down is requested. -/
  | dramStepDownRequest
  /-- DRAM_STEP_UP_REQUEST (R463): The die stays below warning for UP_HOLD and one DRAM step up is requested. -/
  | dramStepUpRequest
  /-- DRAM_FREQ_CHANGE_START (R484): A change of the set point in force begins at its FB or thermal request. -/
  | dramFreqChangeStart
  /-- PAIR_FREQ_CHANGE (R484): A pair finds its slack and switches set point, back in service within 4 µs. -/
  | pairFreqChange (q : Nat)
  /-- DRAM_FREQ_WAIT (R486): A pair has not changed 10 ms after the change began; at 100 ms a C1 fault is recorded. -/
  | dramFreqWait (q : Nat)
  /-- SLACK_SAMPLE (R480): Every 100 ns a pair's slack is sampled and its scheduling order may change. -/
  | slackSample (q : Nat) (v : Nat) (arr : List (Bool × Bool × Nat))
  /-- REFRESH_DUE (R482): A per-bank refresh falls due and is issued, postponed or forced. -/
  | refreshDue (ch : Nat) (idle : Bool)
  /-- REFRESH_RATE_POLL (R481): The refresh-rate mode register is read every MR_POLL. -/
  | refreshRatePoll (ch : Nat) (val : Nat) (above : Bool)
  /-- DRIFT_TRIM (R488): Each INTERVAL the DQS oscillator count trims the lane delays. -/
  | driftTrim (ch : Nat) (n : Nat)
  /-- DRAM_SCRUB_READ (R474): A scrub read checks a block when no other request of the pair is ready. -/
  | dramScrubRead (result : Nat)
  /-- DRAM_UE (R473): An uncorrectable DRAM read is reported and handled by client. -/
  | dramUe (addr : Nat) (client : Nat) (errs : List (Nat × Nat))
  /-- DRAM_CE (R473): A corrected DRAM error is counted and written back. -/
  | dramCe (addr : Nat) (errs : List (Nat × Nat))
  /-- SELF_REFRESH_ENTRY (R493): A pair enters self-refresh, including after IDLE_TIME without a request. -/
  | selfRefreshEntry (q : Nat)
  /-- SELF_REFRESH_EXIT (R494): A request or state change makes a pair leave self-refresh or abandon its entry. -/
  | selfRefreshExit (q : Nat) (held : Bool)
  /-- PAIR_OUT_OF_SERVICE (R489): A committed OOS takes a pair out of service, and clearing it returns the pair within
  20 ms. -/
  | pairOutOfService (q : Nat)
  /-- SEED_RECORD_WRITE (R504): The Seedbank writer writes a queued record word by word, ending with the commit word.
  -/
  | seedRecordWrite (n : Nat)
  /-- SEED_WRITE_DONE (R504): A record write commits or is abandoned. -/
  | seedWriteDone
  /-- SEED_CHK_ONLY (R506): A record matching only one CRC copy has the other copy rewritten. -/
  | seedChkOnly (ty : Nat) (slot : Nat)
  /-- RESERVED_SLOT_WRITE (R510): A shutdown-cause or power-fail copy is written to the reserved area. -/
  | reservedSlotWrite (n : Nat)
  /-- SEED_SCRUB_READ (R513): A Seedbank scrub read corrects a word or reports an uncorrectable one. -/
  | seedScrubRead (result : Nat)
  /-- SEED_SEL_CAPTURE (R507): A write of SEED_SEL captures the slot state of a record type. -/
  | seedSelCapture (v : Word)
  /-- JTAG_NEW_CHALLENGE (R527): NEW_CHALLENGE creates a 48-byte debug challenge valid for 60 s. -/
  | jtagNewChallenge (random : Bytes)
  /-- JTAG_RESPONSE (R528): A JTAG response is verified and unlocks debug access, or is refused. -/
  | jtagResponse (modulus : Bytes) (scope : Word) (sig : Bytes)
  /-- JTAG_CHALLENGE_EXPIRY (R527): A challenge passes 60 s and expires. -/
  | jtagChallengeExpiry
  /-- FABRIC_FRAME_RECEIVED (R539): A port receives a frame, checks its CRC, sequence and credit, then delivers,
  forwards or discards it. -/
  | fabricFrameReceived (p : Nat) (data : Bytes) (corr : Nat) (uncorr : Nat)
  /-- LINK_CTRL (R542): A LINK_CTRL updates credits and acknowledgements, and a NAK starts a replay. -/
  | linkCtrl (p : Nat) (d : Bytes)
  /-- LINK_CTRL_SEND (R542): The receiver sends LINK_CTRL on its 1 µs or 100 µs schedule. -/
  | linkCtrlSend (p : Nat)
  /-- RETRY_TIMEOUT (R547): Unacknowledged frames make no progress for TMO and are replayed; after MAX the port
  retrains. -/
  | retryTimeout (p : Nat)
  /-- FABRIC_LINK_UP (R544): A port aligns and its receivers send the credit audit. -/
  | fabricLinkUp (p : Nat) (nonce : Bytes)
  /-- CREDIT_AUDIT (R544): An AUDIT LINK_CTRL resets the sender's credit and the receiver's F and D. -/
  | creditAudit (p : Nat) (d : Bytes)
  /-- ALIGNMENT_TIMEOUT (R535): A port has not aligned within 500 ms, reports NO_LINK and tries again. -/
  | alignmentTimeout (p : Nat)
  /-- MODULE_INSERTED (R536): A QSFP28 module is inserted and its pages are read. -/
  | moduleInserted (p : Nat) (id : Nat) (temp : Nat)
  /-- MODULE_POLL (R536): Every 1 s the module flags and monitors are read, posting MODULE_ALARM on an alarm. -/
  | modulePoll (p : Nat) (flags : Word) (temp : Nat) (alarm : Bool) (los : Bool)
  /-- HELLO (R548): A HELLO from a neighbour is received and the two-way state is updated. -/
  | hello (p : Nat) (d : Bytes)
  /-- HELLO_SEND (R548): Every 10 ms each up port sends HELLO. -/
  | helloSend (p : Nat)
  /-- NEIGHBOUR_DOWN (R548): PCS link loss or 4 missed HELLOs drop the link. -/
  | neighbourDown (p : Nat) (loss : Bool)
  /-- LSA (R549): A received LSA is stored and relayed when newer. -/
  | lsa (p : Nat) (d : Bytes)
  /-- LSA_ORIGINATE (R549): The node originates its LSA at a change or at LSA_REFRESH. -/
  | lsaOriginate
  /-- LSA_AGE_OUT (R549): An LSA not refreshed for 4 × LSA_REFRESH is removed. -/
  | lsaAgeOut (uid : Nat)
  /-- ROOT_AND_ADDRESSES (R551): The root recomputes its address map and floods ASSIGN. -/
  | rootAndAddresses
  /-- ASSIGN (R551): ASSIGN parts are received, and a complete newer map is applied. -/
  | assign (p : Nat) (d : Bytes)
  /-- SPF_HOLD_EXPIRY (R552): SPF_HOLD after a database change, the route engine computes shortest paths. -/
  | spfHoldExpiry
  /-- ROUTE_SWAP (R552): A computation completes and the shadow routing table becomes active. -/
  | routeSwap (ms : Nat)
  /-- ALT_FAILOVER (R553): The NEXT port of an entry goes down and unicast frames leave by ALT. -/
  | altFailover (p : Nat)
  /-- SYNC (R562): A SYNC from the parent gives the offset to the TIME loop. -/
  | sync (p : Nat) (d : Bytes) (stamp : Nat)
  /-- SYNC_SEND (R561): Every 2^−SYNC_LOG2 s the node sends SYNC on each child port. -/
  | syncSend
  /-- PDELAY_EXCHANGE (R562): A port sends PDELAY_REQ, answers with PDELAY_RESP and updates the link delay. -/
  | pdelayExchange (p : Nat) (kind : Nat) (pseq : Nat) (t1 : Nat) (t2 : Nat) (t3 : Nat) (t4 : Nat)
  /-- ADMIT (R566): ADMIT messages are exchanged and the neighbour is admitted or refused. -/
  | admitStream (p : Nat) (d : Bytes) (serial : Option Nat) (rsa : Bool) (sig : Bytes)
  /-- ADMIT_RETRY (R566): A refused port retries admission every 10 s. -/
  | admitRetry (p : Nat) (nonce : Bytes)
  /-- BOOT_REQ (R567): A BOOT_REQ is answered with BOOT_DATA from the running image. -/
  | bootReq (p : Nat) (d : Bytes)
  /-- HOST_FRAME_RX (R560): A host-protocol frame for this node is written to the receive ring, or dropped when full.
  -/
  | hostFrameRx (frame : Bytes)
  /-- COLOUR_REPORT (R430): A consensus report is received and kept or discarded. -/
  | colourReport (d : Bytes)
  /-- COLOUR_DIGEST (R433): A consensus digest is received. -/
  | colourDigest (d : Bytes)
  /-- EPOCH_END (R428): A consensus epoch ends and the head's report is frozen. -/
  | epochEnd
  /-- REPORT_SEND (R428): At (a mod 97) ms after the epoch end the head sends its report. -/
  | reportSend
  /-- COLLECTION_CLOSE (R431): At 120 ms the head forms S_n, computes the target and sends its digest. -/
  | collectionClose
  /-- DIGEST_CLOSE (R433): At 230 ms the head compares digests and decides whether to apply the target. -/
  | digestClose
  /-- CUE_CONTEXT_WRITE (R573): A host write to a cue context changes its fields and state, or is refused. -/
  | cueContextWrite (i : Nat) (w : Nat) (v : Word)
  /-- CUE_OP_ARM (R575): CUE_OP ARM arms one context. -/
  | cueOpArm (v : Word)
  /-- CUE_OP_CANCEL (R575): CUE_OP CANCEL cancels one armed context. -/
  | cueOpCancel (v : Word)
  /-- CUE_OP_CANCEL_ALL (R575): CUE_OP CANCEL_ALL cancels every armed context. -/
  | cueOpCancelAll (v : Word)
  /-- CUE_ACTION_FETCH (R578): At FB_(e−2) the actions of the frame's commit-class cues are fetched and checked; `bad` names the
  contexts whose read finds an uncorrectable error (R589). -/
  | cueActionFetch (bad : List Nat)
  /-- CUE_FIRING (R578): 50 µs before the cutoff the cues' shadow writes are made and one group commit is written; `bad` as of
  CUE_ACTION_FETCH, where the fetch is still to be made. -/
  | cueFiring (bad : List Nat)
  /-- FINE_CUE_TICK (R582): A fine-time cue fires at its microsecond tick within the token limits; `bad` says that the read of its
  context finds an uncorrectable error (R589). -/
  | fineCueTick (bad : Bool)
  /-- CUE_FRAME (R590): A fabric CUE frame arms or cancels a cue. -/
  | cueFrame (src : Nat) (d : Bytes)
  /-- RING_RECORD (R596): A DSC picture of the watched source is recorded in a ring slot and completed at its seal. -/
  | ringRecord (coded : Bytes) (pps : Bytes) (done : Bool)
  /-- RING_PLAYER_DECODE (R598): The ring player decodes a recorded picture into the play set at its scheduled time.
  -/
  | ringPlayerDecode (pix : Pixels)
  /-- LIBRARY_READ (R599): In PLAY_LOCAL the reader fills source 6 with the container frame due. -/
  | libraryRead
  /-- FORCE_REJOIN (R601): HOLD_CMD.FORCE_REJOIN rejoins the watched source at the next PB. -/
  | forceRejoin
  /-- CLEAR_RING (R604): HOLD_CMD.CLEAR_RING empties every ring slot outside holdover. -/
  | clearRing
  /-- CHK_START (R609): CHK_CFG.START loads INIT, folds a BEFORE tag and opens the unit. -/
  | chkStart (u : Nat) (v : Word)
  /-- CHK_FEED (R609): A write of CHK_FEED appends 4 bytes to the message. -/
  | chkFeed (u : Nat) (v : Word)
  /-- CHK_MEM (R610): CHK_CFG.MEM starts appending a memory range read through the guest share. -/
  | chkMem (u : Nat) (v : Word)
  /-- CHK_MEM_DONE (R610): A unit's memory read ends or faults. -/
  | chkMemDone (u : Nat)
  /-- CHK_FINISH (R611): CHK_CFG.FINISH finalises the CRC, writes RESULT and compares. -/
  | chkFinish (u : Nat) (v : Word)
  /-- CHK_PARAMETER_WRITE (R613): A write of CHK_PSEL captures a parameter, and a write of CHK_PHI stores it. -/
  | chkParameterWrite (u : Nat) (phi : Bool) (v : Word)
  /-- TALLY_CLEAR (R617): TALLY_CTRL.CLEAR restarts every counter at the next FB. -/
  | tallyClear (v : Word)
  /-- TALLY_WRAP (R618): A counter wraps at 2^48 and TALLY_WRAP is posted. -/
  | tallyWrap (n : Nat)
  /-- GPIO_TALLY_IN (R621): A rising edge on a TALLY_IN pin is counted as a Tally event. -/
  | gpioTallyIn (levels : Word)
  /-- SAFETY_INPUT (R634): A filtered safety input changes; forbidding light enters SAFE with lasers at zero. -/
  | safetyInput (i : Nat) (permits : Bool)
  /-- SV_DEADMAN (R629): The dead-man line has not toggled for 10 µs, so the always-on domain asserts the path. -/
  | svDeadman
  /-- SV_LOCKSTEP (R630): The SV cores disagree; the path is asserted and SV restarts once. -/
  | svLockstep
  /-- REFCLK_FAILURE (R661): REFCLK stops or deviates for 2 µs and the supply monitor resets the device. -/
  | refclkFailure
  /-- REFCLK_RECOVERED (R661): REFCLK is within 1,000 ppm for 100 µs and the device boots with reason 0x12. -/
  | refclkRecovered (src : Nat)
  /-- XTAL25_FAULT (R662): The 25 MHz oscillator fails and the always-on domain holds everything else in reset. -/
  | xtal25Fault
  /-- BC_REGAINED (R296): Valid ordered sets arrive again on a port's backchannel, BC_LOCK returns to 1, BC_LOST is
  posted with 'regained' and the backchannel-loss record closes AUTO. -/
  | bcRegained (p : Nat)
  /-- MODULE_REMOVED (R536): A QSFP28 module is withdrawn (Wn_MODPRS_N goes high) and the port reports NO_MODULE. -/
  | moduleRemoved (p : Nat)
  /-- XTAL25_RECOVERED (R662): The 25 MHz oscillator runs again, ending the always-on domain's hold of everything else
  in reset. -/
  | xtal25Recovered (src : Nat)
  /-- PCIE_POWER_STATE_CHANGE (R168): The host moves the PCIe function between D0 and D3hot; in D3hot BAR accesses
  complete with Unsupported Request and HOST_STATUS.D3HOT is set. -/
  | pciePowerStateChange (d3 : Bool) (cfg : PcieCfg)
  deriving DecidableEq, Repr

end Sys2Proof
end

