-- ==== Sys2Proof/Decode.lean ====
section
/-!
DEFINITION. The table's rows give no bits: a command is no word, so no word spells one (log entry 1).
-/
namespace Sys2Proof

/-- The command that a word spells by the table's bits: none, since no row has bits (log entry 1). -/
def decodeTableWord (_nbits _w : Nat) : Option Instr := none

end Sys2Proof
end

