-- ==== Sys2Proof/Machine/Bits.lean ====
section
/-!
DEFINITION. Bit fields, byte order and fixed-point helpers, used by every family (R4: little-endian, bit 0 least significant).
-/
namespace Sys2Proof.Machine

/-- Bits `lo` to `lo + w - 1` of a natural number. -/
def natBits (v lo w : Nat) : Nat := v / 2 ^ lo % 2 ^ w

/-- Bit `i` of a natural number. -/
def natBit (v i : Nat) : Bool := v / 2 ^ i % 2 == 1

/-- The field [lo + w - 1 : lo] of a word. -/
def bits (v : Word) (lo w : Nat) : Nat := natBits v.toNat lo w

/-- Bit `i` of a word. -/
def bit (v : Word) (i : Nat) : Bool := natBit v.toNat i

/-- A word with the field [lo + w - 1 : lo] replaced by `x`. -/
def setBits (v : Word) (lo w x : Nat) : Word :=
  BitVec.ofNat 32 (v.toNat - natBits v.toNat lo w * 2 ^ lo + (x % 2 ^ w) * 2 ^ lo)

/-- A word with bit `i` set to `b`. -/
def setBit (v : Word) (i : Nat) (b : Bool) : Word := setBits v i 1 b.toNat

/-- A word from a natural number, modulo 2^32. -/
def w32 (n : Nat) : Word := BitVec.ofNat 32 n

/-- The value of `w` bits read as two's complement. -/
def sgn (w n : Nat) : Int := if n % 2 ^ w < 2 ^ (w - 1) then (n % 2 ^ w : Nat) else (n % 2 ^ w : Nat) - 2 ^ w

/-- An integer as `w` bits of two's complement. -/
def unsgn (w : Nat) (i : Int) : Nat := (i % (2 ^ w : Int)).toNat

/-- An integer held between two bounds. -/
def clampI (lo hi x : Int) : Int := if x < lo then lo else if hi < x then hi else x

/-- A number held at its upper bound: a saturating register field. -/
def satN (w n : Nat) : Nat := if n < 2 ^ w then n else 2 ^ w - 1

/-- Division rounded half away from zero (`d` positive). -/
def rdiv (x : Int) (d : Nat) : Int :=
  if 0 ≤ x then (2 * x + d) / (2 * d) else -((2 * (-x) + d) / (2 * d))

/-- The quotient rounded up. -/
def cdiv (a b : Nat) : Nat := if b = 0 then 0 else (a + b - 1) / b

/-- Serial-number comparison at 32 bits (R7, R8): is `a` newer than `b`? -/
def newer (a b : Word) : Bool := decide (1 ≤ (a - b).toNat) && decide ((a - b).toNat < 2 ^ 31)

/-- Serial-number comparison at 16 bits (R7). -/
def newer16 (a b : Nat) : Bool :=
  let d := (a + 65536 - b % 65536) % 65536
  decide (1 ≤ d) && decide (d < 32768)

/-- The little-endian number of a list of bytes (R4). -/
def leNat : List Byte → Nat
  | [] => 0
  | b :: bs => b.toNat + 256 * leNat bs

/-- `n` little-endian bytes of a number (R4). -/
def leBytes : Nat → Nat → List Byte
  | 0, _ => []
  | n + 1, v => BitVec.ofNat 8 v :: leBytes n (v / 256)

/-- Bytes `off` to `off + n - 1` of a block as a number. -/
def field (bs : List Byte) (off n : Nat) : Nat := leNat ((bs.drop off).take n)

/-- A list cut or filled with zero bytes to `n` bytes. -/
def padBytes (n : Nat) (bs : List Byte) : List Byte := (bs ++ List.replicate (n - bs.length) 0).take n

/-- The bytes of words, each little-endian (R4). -/
def wordBytes (ws : List Word) : List Byte := ws.flatMap fun w => leBytes 4 w.toNat

/-- `n` words of a block of bytes, each little-endian. -/
def bytesWords : Nat → List Byte → List Word
  | 0, _ => []
  | n + 1, bs => w32 (leNat (bs.take 4)) :: bytesWords n (bs.drop 4)

/-- A word from its four bytes, byte 0 first. -/
def pk (a b c d : Nat) : Word := w32 (a % 256 + 256 * (b % 256) + 65536 * (c % 256) + 16777216 * (d % 256))

/-- The low bit set of a mask as list of indices below `n`. -/
def maskBits (n m : Nat) : List Nat := (List.range n).filter fun i => natBit m i

/-- The mask whose bits are the listed indices. -/
def bitsMask (l : List Nat) : Nat := l.foldl (fun m i => if natBit m i then m else m + 2 ^ i) 0

/-- An element of a list replaced (the list unchanged where the index is beyond its end). -/
def setAt {α : Type} (l : List α) (i : Nat) (x : α) : List α := l.set i x

/-- An element of a list changed. -/
def modAt {α : Type} (l : List α) (i : Nat) (f : α → α) : List α :=
  match l[i]? with
  | some x => l.set i (f x)
  | none => l

end Sys2Proof.Machine
end

