-- ==== Sys2Proof/Machine/Crc.lean ====
section
/-!
DEFINITION. The CRC procedure of R607 and the fixed parameter sets of Table 19.2.
-/
namespace Sys2Proof.Machine

/-- A number of `w` bits reflected. -/
def reflect : Nat → Nat → Nat
  | 0, _ => 0
  | w + 1, v => (v % 2) * 2 ^ w + reflect w (v / 2)

/-- One bit of the register (R607). -/
def crcBit (w poly reg : Nat) : Nat :=
  if natBit reg (w - 1) then (2 * reg ^^^ poly) % 2 ^ w else 2 * reg % 2 ^ w

/-- One byte of the message. -/
def crcByte (w poly : Nat) (refin : Bool) (reg : Nat) (b : Byte) : Nat :=
  let v := if refin then reflect 8 b.toNat else b.toNat
  (List.range 8).foldl (fun r _ => crcBit w poly r) (reg ^^^ (v * 2 ^ (w - 8)))

/-- The bytes of a message, in order. -/
def crcFold (w poly : Nat) (refin : Bool) (reg : Nat) (bs : List Byte) : Nat := bs.foldl (crcByte w poly refin) reg

/-- The result from the register. -/
def crcEnd (w : Nat) (refout : Bool) (xorout reg : Nat) : Nat :=
  ((if refout then reflect w reg else reg) ^^^ xorout) % 2 ^ w

/-- CRC-32C (Table 19.2, first row). -/
def crc32c (bs : List Byte) : Nat := crcEnd 32 true 0xFFFFFFFF (crcFold 32 0x1EDC6F41 true 0xFFFFFFFF bs)

/-- CRC-32 (Table 19.2). -/
def crc32 (bs : List Byte) : Nat := crcEnd 32 true 0xFFFFFFFF (crcFold 32 0x04C11DB7 true 0xFFFFFFFF bs)

/-- CRC-16 of SML and the chains (Table 19.2). -/
def crc16 (bs : List Byte) : Nat := crcEnd 16 false 0 (crcFold 16 0x1021 false 0xFFFF bs)

end Sys2Proof.Machine
end

