-- ==== Sys2Proof/Config.lean ====
section
/-!
DEFINITION. What the spec leaves open and the model leaves free.  Each constant is opaque: no proof can see a value of it.
A step that needs an open value applies `freeNat` to the counter `State.free` and steps the counter, so that every use
is its own value (log entry 2).
-/
namespace Sys2Proof.Config

/-- The free values: the n-th value the spec leaves open in a run (log entry 2). -/
opaque freeNat : Nat → Nat

/-- Where a transfer function's result lies within the tolerance of R235, by function and exact value (log entry 27). -/
opaque transferError : Nat → Nat → Nat

/-- The factory calibration of a DRAM lane (R487), by pair, lane, set point and item: 0 read delay, 1 write delay, 2 N_ref, 3 K
(log entry 32). -/
opaque dramFactory : Nat → Nat → Nat → Nat → Nat

/-- The factory electronic offset of a photodiode's range, in codes (R419, log entry 36). -/
opaque pdOffset : Nat → Nat → Nat

/-- The factory gain of a photodiode's range, in 1/65536 pA per code (R420, log entry 36). -/
opaque pdGain : Nat → Nat → Nat

/-- A pair's factory table (R421): the ratio of point k in U1.15, and its wavelength in 1/64 nm (log entry 36). -/
opaque pairRho : Nat → Nat → Nat
opaque pairLambda : Nat → Nat → Nat

/-- The CIE 1931 2-degree spectral locus at a whole number of nm (R421): x and y in 2^-32 (log entry 36). -/
opaque locusX : Nat → Nat
opaque locusY : Nat → Nat

/-- A group's factory width correction (R421): dx and dy in 2^-32 (log entry 36). -/
opaque widthX : Nat → Int
opaque widthY : Nat → Int

/-- The factory responsivity of a photodiode at a wavelength in 1/64 nm (R422), in 2^-48 lm per pA (log entry 36). -/
opaque responsivity : Nat → Nat → Nat

/-- The factory centroid wavelength of a group, in 1/64 nm (R440, log entry 36). -/
opaque centroid : Nat → Nat

/-- What a read-only register presents at a local instant where the spec gives no value for it, by address and instant (log entry 41). -/
opaque openReg : Nat → Nat → Nat

/-- Falhane's PCI-SIG vendor ID, which Table 5.3 names without a number (log entry 201). -/
opaque vendorId : Nat

/-- Falhane's compressor (R203, log entry 21): the units it needs for a tile, by the tile's bytes, and the bytes of its coded form. -/
opaque tileUnits : List Nat → Nat
opaque tileCode : List Nat → Nat → Nat

/-- A byte of a decompressed tile that the controller's compressor did not make, by the bytes of its units and its offset (R203,
log entry 21). -/
opaque codedTile : List Nat → Nat → Nat

/-- What a writer leaves in the padding of a tile (R201), by instant and offset (log entry 21). -/
opaque padding : Nat → Nat → Nat

/-- A byte of the spill area as the warp writes it (R240), by instant and offset (log entry 209). -/
opaque spillByte : Nat → Nat → Nat

end Sys2Proof.Config
end

