-- ==== Sys2Proof/Machine/State.lean ====
section
/-!
DEFINITION. Everything the spec gives the block to hold: its registers (one sparse store, addressed as BAR0 is, with the
active copies at +0x800 and the table windows above), the engines' own state, its memories, its pins, and the queue of
commands that wait.  Plain data throughout.
-/
namespace Sys2Proof.Machine

/-- Table 4.1: the device states. -/
inductive DevState | off | aon | boot | standby | ready | lit | frostHold | safe | shutdownLatched
  deriving DecidableEq, Repr

/-- Table 2.1: the sources of fabric time. -/
inductive TimeSrc | wipex | fsync | refclk
  deriving DecidableEq, Repr

/-- TIME_SRC_STATUS.STATE (Table 2.11). -/
inductive LockState | acquiring | locked | holdover | slewing
  deriving DecidableEq, Repr

/-- An event as generated (Table 3.18), before it is written to the ring or lost; `held` is one that firmware generates once a housekeeping
core runs again (R117). -/
structure Event where
  ty : Nat
  page : Nat
  cls : Nat
  cmd : Bool
  fsn : Word
  ft : Nat
  data : List Word
  held : Bool
  deriving DecidableEq, Repr

/-- What the block sends out: a record of its outward actions, oldest last (the model's own; log entry 5).  A pulse goes to `high` or
low for its width in microseconds, none where the spec gives it no width (the slot strobe). -/
inductive Out
  | msix (vector : Nat)
  | hostWrite (addr : Nat) (data : List Byte)
  | hostPoison (addr : Nat) (data : List Byte)
  | usb (data : List Byte)
  | sml (port code : Nat) (args : List Nat)
  | chain (c code : Nat) (args : List Nat)
  | fabric (port cls : Nat) (blocks : List (Bool × List Byte))
  | module (port : Nat) (resetN lpMode : Bool)
  | moduleByte (port addr value : Nat)
  | nvmeAdmin (op : Nat) (args : List Nat)
  | nvme (nsid lba blocks : Nat)
  | hostData (addr : Nat) (data : List Byte)
  | unsupported (addr : Nat)
  | pulse (pin : Nat) (high : Bool) (us : Option Nat)
  | dpHpd (sink code : Nat)
  deriving DecidableEq, Repr

/-- Where a commit stands (R65, R70): waiting for its cutoff; latched for FB_k; its source side applied, waiting for FB_{k+1}. -/
inductive CommitStage | pending | latched | sourced
  deriving DecidableEq, Repr

/-- A commit (R66 to R77).  `skip` counts the boundaries a LATE commit still lets pass before its cutoff; `vals` are the
shadow values as the cutoff latched them (R71). -/
structure Commit where
  pages : Nat
  group : Bool
  page : Nat
  arrival : Nat
  skip : Nat
  late : Bool
  merged : Bool
  waitSeal : Bool
  cues : List Nat
  stage : CommitStage
  target : Word
  major : Bool
  vals : List (Nat × Word)
  ptab : List (Int × Nat) := []
  rowmap : List Nat := []
  deriving DecidableEq, Repr

/-- A dark transition in progress (R77): the groups held dark, their ports, the index of the first lit frame, and whether the frames
are a planned stop (R643). -/
structure Dark where
  groups : Nat
  ports : Nat
  litK : Nat
  planned : Bool
  deriving DecidableEq, Repr

/-- Fabric time, the boundary series and the sources (R38 to R63).  `frac` and the offset left to slew are in 2^-32 ns,
measured offsets and the step that is due in 1/256 ns; `fbNow` is the local instant of the last FB, from which slot times count
(R56); `fsyncGood` is the start of an unbroken run of good edges, and the `Had` flags say that a source has been selected before. -/
structure TimeState where
  run : Bool
  ft : Nat
  frac : Nat
  fsn : Word
  curK : Nat
  nextK : Nat
  num : Nat
  den : Nat
  epoch : Nat
  lastFb : Nat
  fbNow : Nat
  cutoffDone : Bool
  src : TimeSrc
  lock : LockState
  fsyncQual : Bool
  fabricQual : Bool
  fsyncLast : Option Nat
  fabricLast : Option Nat
  fsyncSince : Option Nat
  fabricSince : Option Nat
  fsyncGood : Option Nat
  fabricHad : Bool
  fsyncHad : Bool
  offsets : List Int
  slew : Int
  stepDue : Nat
  ftSetHi : Nat
  dark : List Dark
  resetMajor : Bool
  tcValid : Bool
  tcCount : Nat
  tcFt : Nat
  tcAt : Nat
  deriving DecidableEq, Repr

/-- The commits in being, oldest first (R69, R99), and the pages whose soft reset waits for a latched commit (R143). -/
structure CommitState where
  list : List Commit
  resetWait : List Nat
  deriving DecidableEq, Repr

/-- A command of the command ring that was accepted and has not completed (R112, R113; Table 3.15).  `prev` is the CSEQ
consumed before it; `stage` is the stage code of Table 3.21. -/
structure Cmd where
  cseq : Word
  opcode : Nat
  ack : Bool
  fence : Bool
  len : Nat
  tag : Word
  param : List Byte
  prev : Word
  stage : Nat
  claims : List (Nat × Word) := []
  acceptAt : Nat := 0
  deriving DecidableEq, Repr

/-- The command and event rings beyond their registers (R104 to R117, R668). -/
structure RingState where
  inflight : List Cmd
  lastCseq : Word
  evq : List Event
  lost : Nat
  firstLost : Word
  modCount : Nat
  modSince : Option Nat
  vec63 : Bool
  causePending : Bool
  snapWait : List Word
  snapDue : List Word
  reports : List (Nat × Nat × List Word × Nat × Word)
  deriving DecidableEq, Repr

/-- A STATE_SET in progress (R121, R124): the command's CSEQ, the target, the groups named, and the FBs
still to pass before the groups start. -/
structure StateSetOp where
  cseq : Word
  target : Nat
  mask : Nat
  wait : Nat
  since : Nat
  deriving DecidableEq, Repr

/-- Power, resets and the power-fail warning (ch. 4). -/
structure PowerState where
  state : DevState
  prev : DevState
  reason : Nat
  litMask : Nat
  stateSet : Option StateSetOp
  pfAsserted : Bool
  pfCut : Bool
  pfActed : Bool
  pfRecovering : Bool
  pfRideThrough : Nat
  pfRelight : Nat
  pfSince : Nat
  pfRecordDone : Bool
  pfRec : Nat × Nat × Word
  coreGated : Bool
  heldReset : Bool
  since : Nat
  hwBad : List (Nat × Nat)
  deriving DecidableEq, Repr

/-- What is known of an image in a slot (Table 4.8). -/
structure Image where
  version : Word
  rollback : Nat
  length : Nat
  svCompat : Word
  digest : List Byte
  valid : Bool
  deriving DecidableEq, Repr

/-- The two slots of an image kind, the one running, the one the selector names, a staged image and a trial (R148, R156 to R162). -/
structure ImageSlots where
  a : Option Image
  b : Option Image
  running : Nat
  selector : Nat
  staged : Bool
  trial : Bool
  deriving DecidableEq, Repr

/-- A housekeeping restart (R31 to R36); `tried` is the version of a trial that failed in it (R161). -/
structure HkRestart where
  reason : Nat
  since : Nat
  tried : Option Word
  deriving DecidableEq, Repr

/-- Boot, firmware and the measured boot (ch. 4); `hkSince` is when the housekeeping cores last began to run (the model's own). -/
structure BootState where
  src : Nat
  trying : Nat
  s1 : ImageSlots
  hk : ImageSlots
  sv : ImageSlots
  fwStage : Option Word
  hkRestart : Option HkRestart
  hkRunning : Nat
  hkSince : Nat
  svTrial : Bool
  mgmtLost : Bool
  m : List Byte
  mlog : List (Nat × Nat × List Byte)
  image : List (Nat × Byte)
  imageLen : Nat
  neighbour : Option Nat
  recovered : Option Image
  deriving DecidableEq, Repr

/-- How a fault record closes (R626). -/
inductive CloseWay | auto | fb | clear | power
  deriving DecidableEq, Repr

/-- A fault record that is not FREE (Table 20.2); `way` is the catalogue's way of closing and `opened` says that an FB has
not passed since it opened. -/
structure FaultRec where
  fid : Word
  cls : Nat
  clearable : Bool
  page : Nat
  code : Nat
  fsnOpen : Word
  ftOpen : Nat
  detail : Word
  recur : Nat
  isOpen : Bool
  close : Nat
  fsnClose : Word
  way : CloseWay
  deriving DecidableEq, Repr

/-- The record store, the supervisor and the safety path (ch. 20). -/
structure FaultState where
  recs : List (Nat × FaultRec)
  nextFid : Word
  svRunning : Bool
  svSelfTest : Bool
  svPassed : Bool
  deadman : Bool
  pathAsserted : Bool
  lockErr : Bool
  mismatches : Nat
  deadmanTrips : Nat
  seen : Nat
  permitSince : List (Option Nat)
  stallPbs : Nat
  showGroups : Nat
  exclGroups : Nat
  exclUntilLit : Nat
  showRem : Nat
  exclRem : Nat
  deriving DecidableEq, Repr

/-- The levels at the pins that the rules name.  The safety inputs are held as filtered levels (R633). -/
structure Pins where
  ilkInN : Bool
  laserEnN : Bool
  estopN : Bool
  pwrFailN : Bool
  porstN : Bool
  bootSrc : Nat
  gpioIn : Word
  modPrsN : List Bool
  maRdyN : List Bool
  maRstN : List Bool
  hlEn : Nat
  hsMidScale : Bool
  hsDrvX : Int
  hsDrvY : Int
  xtalOk : Bool
  refclkOk : Bool
  vddAon : Bool
  cueOut : Word
  deriving DecidableEq, Repr

/-- One Tally counter (R614 to R618). -/
structure TallyCnt where
  count : Nat
  snap : Nat
  wrapped : Bool
  snapWrap : Bool
  deriving DecidableEq, Repr

/-- The Tally block. -/
structure TallyState where
  cnt : List TallyCnt
  clearPending : Bool
  deriving DecidableEq, Repr

/-- One check-value unit (R607 to R613). -/
structure ChkUnit where
  poly : Nat
  init : Nat
  xorout : Nat
  expect : Nat
  result : Nat
  addr : Nat
  width : Nat
  refin : Bool
  refout : Bool
  runPoly : Nat
  runXor : Nat
  reg : Nat
  isOpen : Bool
  busy : Bool
  mtch : Bool
  mism : Bool
  fault : Bool
  seqErr : Bool
  ue : Bool
  kind : Nat
  detail : Nat
  memAddr : Nat
  memLen : Nat
  memSpace : Bool
  finishPend : Bool
  deriving DecidableEq, Repr

/-- A check-value unit at reset (Table 19.5). -/
def ChkUnit.reset : ChkUnit :=
  { poly := 0, init := 0, xorout := 0, expect := 0, result := 0, addr := 0, width := 32, refin := false, refout := false,
    runPoly := 0, runXor := 0, reg := 0, isOpen := false, busy := false, mtch := false, mism := false, fault := false,
    seqErr := false, ue := false, kind := 0, detail := 0, memAddr := 0, memLen := 0, memSpace := false,
    finishPend := false }

/-- What a sink takes of its stream at the start of a frame (R172): the format, the bits per component and the active width. -/
structure DpCap where
  fmt : Nat
  bpc : Nat
  hact : Nat
  deriving DecidableEq, Repr

/-- The configuration space and the MSI-X table after a reset of the function (Table 5.6; log entry 201): every code 0, MSI-X off, every
vector masked, no base and no message assigned. -/
def PcieCfg.reset : PcieCfg :=
  { payload := 0, readReq := 0, master := false, msix := false, funcMask := false, vecMask := 2 ^ 64 - 1, bars := [0, 0, 0], msgs := [] }

/-- The host link beyond its registers: Panel Replay (R174), the USB 2.0 interrupt endpoint with the microframe of its last
delivery (R177), the PCIe function's configuration and its pending vectors (R95, R167), HOST_DP_CFG as each sink's link training
took it and what its frame took (R169, R172), and whether the sinks are joined (R170). -/
structure HostState where
  pcie : PcieCfg
  pba : List Nat
  dpCfg : List Word
  dpCap : List DpCap
  joinOn : Bool
  usbAt : Option Nat
  prIn : List Bool
  prUpdate : List Bool
  prThaw : Option Nat
  prAt : Nat
  sum0 : Word
  sum1 : Word
  deriving DecidableEq, Repr

/-- SKD_CH_STATUS.STATE (Table 5.12). -/
inductive SkdSt | disabled | idle | queued | active | preempted | faulted | seqStop
  deriving DecidableEq, Repr

/-- A descriptor as fetched (Table 5.7): bytes 0 to 31. -/
structure SkdDesc where
  dseq : Word
  ctrl : Nat
  surf : Nat
  src : Nat
  dst : Nat
  length : Nat
  expect : Word
  deriving DecidableEq, Repr

/-- One Skidder channel: its ring, account and saved context (R178 to R193, Table 5.13); `stamps` orders its submitted
descriptors, from HEAD on, among those of every channel (R190). -/
structure SkdChan where
  stamps : List Nat
  head : Nat
  submitted : Word
  completed : Word
  st : SkdSt
  dseq : Word
  offset : Nat
  desc : Option SkdDesc
  kind : Nat
  detail : Nat
  dstSide : Bool
  fetch : Bool
  crc : Nat
  faultAddr : Nat
  deriving DecidableEq, Repr

/-- A channel at reset. -/
def SkdChan.reset : SkdChan :=
  { stamps := [], head := 0, submitted := 0, completed := 0, st := .disabled, dseq := 0, offset := 0, desc := none, kind := 0, detail := 0,
    dstSide := false, fetch := false, crc := 0, faultAddr := 0 }

/-- The Skidder: its channels, the channel each mover runs, the channel each mover served last (R178), and the stamp of the next descriptor
submitted (R190). -/
structure SkdState where
  stamp : Nat
  ch : List SkdChan
  run : List (Option Nat)
  last : List Nat
  deriving DecidableEq, Repr

/-- An installed translation (R194 to R196): virtual page, log2 of its size, physical page, R and W. -/
structure TlbEntry where
  va : Nat
  log : Nat
  pa : Nat
  r : Bool
  w : Bool
  deriving DecidableEq, Repr

/-- An invalidation in progress (R196, R669): everything, or a range; and when it began. -/
structure DtuInv where
  all : Bool
  start : Nat
  pages : Nat
  since : Nat
  deriving DecidableEq, Repr

/-- Device translation: the TLB and the invalidation in progress. -/
structure DtuState where
  tlb : List TlbEntry
  inv : Option DtuInv
  deriving DecidableEq, Repr

/-- Table 6.5 without HELD, which is a SEALED surface that a PB selected or a commit names (`surfHeld`). -/
inductive SurfSt | undefd | closed | opened | sealed
  deriving DecidableEq, Repr

/-- A surface record (Table 6.4), its seal stamp (R208), the 4 KiB pages captured for its tile area and its header table (R205,
R197), for a compressed surface being written, the pixels not yet compressed (R202), and a seal that waits: the stamp and DSEQ of
its descriptor (R190); whether a PB has passed it over since its seal (R214). -/
structure Surface where
  base : Nat
  width : Nat
  height : Nat
  format : Nat
  cmp : Bool
  enc : Nat
  hdrBase : Nat
  st : SurfSt
  err : Bool
  tag : Word
  sealFt : Nat
  source : Nat
  pages : List Nat
  hdrPages : List Nat
  image : List Byte
  sealPend : Option (Nat × Word)
  vsc : Option Vsc
  dropped : Bool
  deriving DecidableEq, Repr

/-- A surface record at reset. -/
def Surface.reset : Surface :=
  { base := 0, width := 0, height := 0, format := 0, cmp := false, enc := 0, hdrBase := 0, st := .undefd, err := false,
    tag := 0, sealFt := 0, source := 0, pages := [], hdrPages := [], image := [], sealPend := none, vsc := none,
    dropped := false }

/-- A picture of a fabric stream in CP10 staging (R218, R219): its header fields, the bytes arrived, by offset, and, as they stood
when it began, the stream's identifier, its set of surfaces, its DSC parameter set and HFC_EN and HFC_ENFORCE (R228). -/
structure Picture where
  stream : Nat
  set : List Nat
  pps : List Byte
  hfc : Nat
  kind : Nat
  format : Nat
  target : Word
  len : Nat
  width : Nat
  height : Nat
  crc : Word
  data : List (Nat × Byte)
  deriving DecidableEq, Repr

/-- An ingest source (R210 to R226): INGEST_SRC_STATUS.STATE, the surface being written, the newest sealed, the start of the
last frame accepted, the halves written of a joined frame, the target of the picture last discarded or abandoned (fabric), the queue of
expected check values, and HFC_EN and HFC_ENFORCE as the frame in hand took them (R228). -/
structure Source where
  hfcCfg : Nat
  st : Nat
  writing : Option Nat
  newest : Option Nat
  lastStart : Option Nat
  halves : Nat
  gone : Option Word
  hfc : List (Word × Word)
  hfcOvf : Bool
  pics : List Picture
  pps : List Byte
  deriving DecidableEq, Repr

/-- A source at reset. -/
def Source.reset : Source :=
  { hfcCfg := 0, st := 0, writing := none, newest := none, lastStart := none, halves := 0, gone := none, hfc := [], hfcOvf := false,
    pics := [], pps := [] }

/-- A Read of the reader (R220, R222): its first logical block, its blocks, and whether it has been issued once more. -/
structure NvmeRead where
  lba : Nat
  blocks : Nat
  tried : Bool
  deriving DecidableEq, Repr

/-- The NVMe reader (R220 to R224): INGEST_NVME_STATUS.STATE, the namespace, the bytes of its logical block and of its longest
Read, the container header, the frame being read with its target FSN; what the Reads in hand bring (1 the header, 2 an index unit,
3 a payload), the Reads still to complete, the bytes that have come, and the frame's index entry. -/
structure NvmeState where
  st : Nat
  nsid : Word
  block : Nat
  most : Nat
  header : List Byte
  frame : Option (Nat × Word)
  phase : Nat
  reads : List NvmeRead
  buf : List Byte
  entry : List Byte
  deriving DecidableEq, Repr

/-- The reader while it is off. -/
def NvmeState.reset : NvmeState :=
  { st := 0, nsid := 0, block := 512, most := 131072, header := [], frame := none, phase := 0, reads := [], buf := [], entry := [] }

/-- The pixel store and ingest; `codes` are the coded tiles the compressor has made, with the tile each stands for (R203; log entry 21). -/
structure StoreState where
  codes : List (List Nat × List Byte)
  surf : List Surface
  src : List Source
  nvme : NvmeState
  inUse : Option Nat
  lastLoad : Nat
  deriving DecidableEq, Repr

/-- A frame as the pipeline takes it at its PB (R255): the surface record, the frame in whose period it is made, the memory, the
coded tiles and the active copies as they stood, the tables, the matrices in force and the raster; the pages captured for its
maps, which it reads as the memory stood at the PB in the bands before `cut` and as it stood at its end, `later`, from there on
(R244; log entry 208).  Its pixels are a function of this. -/
structure PipeFrame where
  codes : List (List Nat × List Byte)
  blendPages : List Nat
  unifPages : List Nat
  spillPages : List Nat
  lbPages : List Nat
  later : List (Nat × Byte)
  cut : Nat
  surf : Nat
  rcd : Surface
  fsn : Word
  startFt : Nat
  dram : List (Nat × Byte)
  view : List (Nat × Word)
  mesh : List (Nat × Byte)
  lut : List (Nat × Byte)
  zone : List (Nat × Byte)
  dec : List Int
  hlm : List Int
  width : Nat
  height : Nat
  deriving DecidableEq, Repr

/-- A table with a shadow and an active image (R246): 4 KiB pages the host has written since the exchange, and whether the
copy is still running. -/
structure TableImage where
  shadow : List (Nat × Byte)
  active : List (Nat × Byte)
  written : List Nat
  sync : Bool
  bank : Nat
  deriving DecidableEq, Repr

/-- The pixel pipeline (ch. 7); `blendPages`, `unifPages` and `spillPages` are the pages captured for the maps and the spill area
(R197). -/
structure PipeState where
  blendPages : List Nat
  unifPages : List Nat
  spillPages : List Nat
  frame : Option PipeFrame
  half : Bool
  fallback : Bool
  dramFallback : Bool
  skip : Bool
  mesh : TableImage
  lut : TableImage
  zone : TableImage
  planBusy : Bool
  planValid : Bool
  planSince : Nat
  deriving DecidableEq, Repr

/-- The content of a written plane set (R267 to R270): the frame it was made from and how its codes become planes.  The bits
of its planes are a function of this. -/
structure SetContent where
  frame : PipeFrame
  base : Nat
  n : Nat
  dither : Nat
  tper : Nat
  seed : Nat
  prim : Nat
  fsn : Word
  deriving DecidableEq, Repr

/-- A plane set of a port (Table 8.3): 0 FREE, 1 WRITING, 2 SEALED, 3 SHOWING; `wait` counts the FBs at which it is not yet shown (R258). -/
structure PlaneSet where
  st : Nat
  wait : Nat
  across : Bool
  writing : Option SetContent
  content : Option SetContent
  sealFt : Nat
  deriving DecidableEq, Repr

/-- A plane set at reset. -/
def PlaneSet.reset : PlaneSet := { st := 0, wait := 0, across := false, writing := none, content := none, sealFt := 0 }

/-- What an array declared (Table 9.5, IDENT). -/
structure Ident where
  vendor : Nat
  model : Nat
  rev : Nat
  sd : Nat
  widths : Nat
  rates : Nat
  modes : Nat
  settle : Nat
  park : Nat
  words : List Word
  deriving DecidableEq, Repr

/-- A plane on its way (R280, R293): its slot, plane and FSN tag. -/
structure PlaneLoad where
  slot : Nat
  plane : Nat
  fsn : Word
  endFt : Nat
  deriving DecidableEq, Repr

/-- The data blocks of a load on a port's lanes (R290): the boundary of the first, how many, and the plane they carry. -/
structure LineRun where
  first : Nat
  blocks : Nat
  plane : Nat
  fsn : Word
  deriving DecidableEq, Repr

/-- What a port's lanes carry (R289 to R292).  `origin` is the local instant of block boundary 0 in 1/16 ns; `scr` are the scrambler
registers of the lanes as they stand at boundary `sent`; `side` are the messages placed, each with its first boundary; `pol` is
MA_LANE_POL as the last training took it. -/
structure Line where
  origin : Nat
  sent : Nat
  scr : List Nat
  side : List (Nat × Nat)
  run : Option LineRun
  training : Bool
  pol : Word
  deriving DecidableEq, Repr

/-- A mirror port and the sequencing of its light group (ch. 8, ch. 9).  `phase`: 0 between frames, 1 kerf, 2 dwell, 3 after the
last dwell; `kerfAt` is S_i of the kerf in hand.  `held` is why the group is held at zero in the lit frame: 0 not, 1 abort, 2
NO_SET, 3 NATIVE_MISMATCH, 4 dark transition.  `train` is why lanes train: 0 bring-up, 1 RETRAIN, 2 after a lost link, 3 dark
transition; `identReq` says that IDENT_REQ has been sent and its IDENT has not come; `cnt` counts the messages sent modulo 16
(R291); `darkSince` is the FB_n of the dark transition; `oldLine` is the line, and its rate, that a training still to begin takes
over from (R304, R312). -/
structure Port where
  st : Nat
  parked : Bool
  bcLock : Bool
  bcLostAt : Option Nat
  ident : Option Ident
  usable : Bool
  rate : Nat
  mode : Nat
  linkState : Nat
  lane : Nat
  skew : Nat
  fail : Bool
  attempt : Nat
  since : Nat
  sets : List PlaneSet
  sealSlack : Int
  sealTag : Word
  cal : Nat
  words : List Word
  nextCal : Nat
  nextWords : List Word
  tag : Word
  nextTag : Word
  slot : Nat
  phase : Nat
  kerfAt : Nat
  kerfEnd : Nat
  loadNext : Nat
  loading : Bool
  preload : Bool
  stage : List PlaneLoad
  acks : List PlaneLoad
  held : Nat
  heldNext : Nat
  restartK : Nat
  leaveK : Nat
  repeated : Bool
  chkLog : List (List Word)
  misFrame : Bool
  misRun : Nat
  mismOpen : Bool
  cnt : Nat
  tempAt : Nat
  modeSent : Bool
  train : Nat
  modePend : Bool
  cleanRun : Nat
  identReq : Bool
  darkSince : Nat
  line : Line
  oldLine : Option (Line × Nat)
  deriving DecidableEq, Repr

/-- A port at reset. -/
def Port.reset : Port where
  st := 0
  parked := false
  bcLock := false
  bcLostAt := none
  ident := none
  usable := false
  rate := 0
  mode := 0
  linkState := 0
  lane := 0
  skew := 0
  fail := false
  attempt := 0
  since := 0
  sets := List.replicate 3 PlaneSet.reset
  sealSlack := 0
  sealTag := 0
  cal := 0
  words := []
  nextCal := 0
  nextWords := []
  tag := 0
  nextTag := 0
  slot := 0
  phase := 0
  kerfAt := 0
  kerfEnd := 0
  loadNext := 0
  loading := false
  preload := false
  stage := []
  acks := []
  held := 0
  heldNext := 0
  restartK := 0
  leaveK := 0
  darkSince := 0
  repeated := false
  chkLog := []
  misFrame := false
  misRun := 0
  mismOpen := false
  cnt := 0
  tempAt := 0
  modeSent := false
  train := 0
  modePend := false
  cleanRun := 0
  identReq := false
  line := { origin := 0, sent := 0, scr := List.replicate 32 0, side := [], run := none, training := false, pol := 0 }
  oldLine := none


/-- A segment of a planned motion: its length in 2^-16 us and its jerk. -/
structure Seg where
  dur : Nat
  jerk : Int
  deriving DecidableEq, Repr

/-- A motion under R337 to R340: from a position, velocity and acceleration at a local instant, through segments of constant
jerk, to a target.  Positions are in 2^-96 of the unit of the axis, velocities and so on per 2^-16 us of it. -/
structure Motion where
  start : Nat
  pos : Int
  vel : Int
  acc : Int
  segs : List Seg
  target : Int
  deriving DecidableEq, Repr

/-- A motion at rest at a position. -/
def Motion.rest (p : Int) : Motion := { start := 0, pos := p, vel := 0, acc := 0, segs := [], target := p }

/-- A zone's energy (R349): its 16 buckets, newest first, and whether the beam is blanked there. -/
structure ZoneSum where
  buckets : List Nat
  blanked : Bool
  deriving DecidableEq, Repr

/-- The highlight scanner (ch. 10).  `st` is HSF_STATUS.STATE; `hst` HSS_STATUS.STATE; the phase table, row map and P-I points are
the active on-die copies (R334); a commit carries the shadow ones read at its cutoff.  `rows` are the rows still to draw, `list`
and `set` the frame's row list and highlight set, `lineAt` the instant from which the row's line may start, and `eta`,
`planDrawn`, `planDropped`, `planEnd` the plan of R345; `posX` are the HS_POS_X samples of the last period, newest first, taken up
to `posAt` (R318), and `posYAt` is that of HS_POS_Y; `lbPages` are the pages captured for the line buffers (R197).  `drvPhase` is
the phase of the drive sinusoid at `drvAt`, in 2^-32 of a period, and `slowPrev`, `slowOut`, `slowAt` the last two SLOW outputs
and the instant of the last (R317); `drawnEnd` is the end of the last row drawn, from the FB.  The beam-cut monitor (R350) counts
consecutive samples: Â too low, HS_POS_X or HS_POS_Y at an end of its range, HS_POS_Y off the set point; and consecutive lines
with the beam on: the window of the last, how many, and the least and greatest position; `cutDue` are the causes met that have not
cut yet. -/
structure ScanState where
  st : Nat
  phaseValid : Bool
  attempts : Nat
  enAt : Nat
  stAt : Nat
  freq : Nat
  base : Nat
  pinc : Nat
  amp : Nat
  drive : Nat
  ampRef : Nat
  ampFrom : Nat
  ampAt : Nat
  phaseErr : Int
  angleErr : Int
  angle : Nat
  angleAt : Nat
  lockTime : Nat
  sweepHz : Nat
  okRun : Nat
  okCross : Nat
  badRun : Nat
  lockLostAt : Nat
  trim : Bool
  ptab : List (Int × Nat)
  rowmap : List Nat
  rows : List Nat
  list : List Nat
  set : Nat
  lineAt : Nat
  eta : Nat
  planDrawn : Nat
  planDropped : Nat
  planEnd : Nat
  line : Bool
  redo : Bool
  dir : Bool
  motion : Motion
  want : Int
  hst : Nat
  posMeas : Nat
  trackErr : Nat
  windowEnd : Bool
  beamOn : Bool
  cut : Bool
  cutCause : Nat
  causePresent : Bool
  cutTimes : List Nat
  latched : Bool
  zones : List (Nat × ZoneSum)
  dac : List Nat
  blankFrame : Bool
  blankNext : Bool
  posX : List Nat
  posAt : Nat
  posYAt : Nat
  lbPages : List Nat
  drvPhase : Nat
  drvAt : Nat
  slowPrev : Int
  slowOut : Int
  slowAt : Nat
  drawnEnd : Nat
  ampLow : Nat
  endX : Nat
  endY : Nat
  trackBad : Nat
  litLine : Nat × Nat
  litRun : Nat
  litPos : Nat × Nat
  cutDue : Nat
  deriving DecidableEq, Repr

/-- The scanner at reset. -/
def ScanState.reset : ScanState where
  st := 0
  phaseValid := false
  attempts := 0
  enAt := 0
  stAt := 0
  freq := 0
  base := 0
  pinc := 0
  amp := 0
  drive := 0
  ampRef := 0
  ampFrom := 0
  ampAt := 0
  phaseErr := 0
  angleErr := 0
  angle := 0
  angleAt := 0
  lockTime := 0
  sweepHz := 0
  okRun := 0
  okCross := 0
  badRun := 0
  lockLostAt := 0
  trim := false
  ptab := []
  rowmap := []
  rows := []
  list := []
  set := 0
  lineAt := 0
  eta := 0
  planDrawn := 0
  planDropped := 0
  planEnd := 0
  line := false
  redo := false
  dir := false
  motion := Motion.rest 0
  want := 0
  hst := 0
  posMeas := 0
  trackErr := 0
  windowEnd := false
  beamOn := false
  cut := false
  cutCause := 0
  causePresent := false
  cutTimes := []
  latched := false
  zones := []
  dac := [0, 0, 0]
  blankFrame := false
  blankNext := false
  posX := []
  posAt := 0
  posYAt := 0
  lbPages := []
  drvPhase := 0
  drvAt := 0
  slowPrev := 0
  slowOut := 0
  slowAt := 0
  drawnEnd := 0
  ampLow := 0
  endX := 0
  endY := 0
  trackBad := 0
  litLine := (0, 0)
  litRun := 0
  litPos := (0, 0)
  cutDue := 0


/-- A laser member: a string, or a slice channel (R354, Table 11.10).  `st` is the STATE code; `acting` says that it drives as
ACTIVE, by its role or by a takeover; `away` that FAULT_CLEAR has returned it and its group has not started since (R638), or that
a PI procedure holds it; `called` that a COLD spare has been called, HOT from `hotAt` on at the latest, and `hotSince` is the
instant from which a spare may take over. -/
structure Member where
  st : Nat
  cause : Nat
  contra : Nat
  suspect : Bool
  probeDue : Bool
  dueAt : Nat
  starved : Bool
  qualAt : Nat
  faultAt : Nat
  cur : Nat
  volt : Nat
  sampled : Bool
  low : Nat
  lowV : Nat
  highV : Nat
  trips : List Nat
  heldFrame : Bool
  acting : Bool
  hotAt : Option Nat
  called : Bool
  hotSince : Nat
  away : Bool
  win : Nat
  ref : Nat
  mode : Nat
  h : Int
  hCount : Nat
  handover : Bool
  used : Nat
  buck : Nat
  flags : Nat
  therm : Nat
  prep : Nat
  pSum : Nat
  pCnt : Nat
  deriving DecidableEq, Repr

/-- A member at reset. -/
def Member.reset : Member where
  st := 0
  cause := 0
  contra := 0
  suspect := false
  probeDue := false
  dueAt := 0
  starved := false
  qualAt := 0
  faultAt := 0
  cur := 0
  volt := 0
  sampled := false
  low := 0
  lowV := 0
  highV := 0
  trips := []
  heldFrame := false
  acting := false
  hotAt := none
  called := false
  hotSince := 0
  away := false
  win := 0
  ref := 0
  mode := 0
  h := 0
  hCount := 65535
  handover := false
  used := 0
  buck := 0
  flags := 0
  therm := 0
  prep := 0
  pSum := 0
  pCnt := 0

/-- A light group (R354, R367 to R369).  `waiting` are latched-off members that no spare has replaced yet;
`calBack` is a member a PI procedure gives back at the next kerf, with the spare that covered it (R440). -/
structure Group where
  lit : Bool
  startAt : Nat
  starting : Bool
  stopping : Bool
  softAt : Option Nat
  softTarget : Nat
  level : Nat
  motion : Motion
  moving : Bool
  stopAt : Nat
  short : Bool
  waiting : List Nat
  epoch : Nat
  calBack : Option (Nat × Nat)
  want : Nat
  deriving DecidableEq, Repr

/-- A group at reset. -/
def Group.reset : Group where
  lit := false
  startAt := 0
  starting := false
  stopping := false
  softAt := none
  softTarget := 0
  level := 0
  motion := Motion.rest 0
  moving := false
  stopAt := 0
  short := false
  waiting := []
  epoch := 0
  calBack := none
  want := 0

/-- A daisy chain (R370 to R380).  `bank` holds each slice's active table, `shadow` its shadow table, `bad` the slices whose
shadow bank is invalid, with the entries written since; `want` the tables of the load in hand; `fsma` the full-scale currents
declared; `loadRuns` is RUNS of the load in hand, `cfgRuns` the one the slices took with CONFIG, and `runs` the one in force from
the last FRAME; `conf` and `probeI` are each slice's CONFIG payload and probe codes (R374); `clkOff` says that CLK stands still
after a ZERO until the next FB. -/
structure Chain where
  st : Nat
  slices : Nat
  shifts : Nat
  tc : Nat
  suspects : Nat
  fails : List (Nat × Nat)
  bank : List (Nat × List Nat)
  shadow : List (Nat × List Nat)
  bad : List (Nat × List Nat)
  queue : List (Nat × Nat)
  want : List (Nat × List Nat)
  fsma : List (Nat × Nat)
  runs : Nat
  loadRuns : Nat
  cfgRuns : Nat
  conf : List (Nat × Nat)
  probeI : List (Nat × List Nat)
  zero : Bool
  clkOff : Bool
  breakAt : Nat
  deriving DecidableEq, Repr

/-- A chain at reset. -/
def Chain.reset : Chain where
  st := 0
  slices := 0
  shifts := 0
  tc := 0
  suspects := 0
  fails := []
  bank := []
  shadow := []
  bad := []
  queue := []
  want := []
  fsma := []
  runs := 0
  loadRuns := 0
  cfgRuns := 0
  conf := []
  probeI := []
  zero := false
  clkOff := false
  breakAt := 0

/-- Strings, light groups and chains (ch. 11); `piPages` are the pages captured for the two P-I images (R197, R358). -/
structure LaserState where
  str : List Member
  slc : List (Nat × Member)
  grp : List Group
  chn : List Chain
  piImage : Nat
  piValid : Bool
  piFail : Nat
  piPages : List Nat
  deriving DecidableEq, Repr

/-- The live state of a loop record (Table 12.3, R398): integrator (S17.30), output and error (S1.30). -/
structure LoopRec where
  i : Int
  u : Int
  err : Int
  sat : Nat
  satPosted : Bool
  bad : Bool
  holding : Bool
  x0 : Int
  deriving DecidableEq, Repr

/-- A loop record at reset. -/
def LoopRec.reset : LoopRec := { i := 0, u := 0, err := 0, sat := 0, satPosted := false, bad := false, holding := false, x0 := 0 }

/-- The Coppice engine (ch. 12); `halted` says that the engine stands still until the next FB (R413), `sampled` is the local
instant of the last sample taken, and `resume` says that a wheel fault has been cleared and ends at the next FB (R638). -/
structure CpeState where
  recs : List LoopRec
  wheelFault : Bool
  halted : Bool
  lastFault : Nat
  h : Int
  hCount : Nat
  scrub : Nat
  turnAt : Nat
  sampled : Nat
  resume : Bool
  deriving DecidableEq, Repr


/-- A ring-oscillator sensor (R450): its last reading in 1/16 degC, the conversions in a row that differ from the median, and
the plausible ones in a row while invalid. -/
structure Sensor where
  temp : Int
  valid : Bool
  odd : Nat
  good : Nat
  deriving DecidableEq, Repr

/-- A heat-sink input (R452), with its readings of the last 10 s (Table 13.8). -/
structure NtcIn where
  code : Nat
  temp : Int
  valid : Bool
  hist : List (Nat × Int)
  deriving DecidableEq, Repr

/-- A class's levels (R459 to R461): the counts towards entering and leaving a level, whether warning and throttle are in
force, the values of a pending shutdown and the instant of the first, since when the throttle has been in force, the entries of the last
60 s, and the chatter hold. -/
structure Levels where
  warn : Bool
  throttle : Bool
  warnIn : Nat
  warnOut : Nat
  thrIn : Nat
  thrOut : Nat
  pending : Bool
  sdRun : Nat
  sdAt : Nat
  since : Nat
  entries : List Nat
  hold : Bool
  deriving DecidableEq, Repr

/-- A class at reset. -/
def Levels.reset : Levels :=
  { warn := false, throttle := false, warnIn := 0, warnOut := 0, thrIn := 0, thrOut := 0, pending := false, sdRun := 0,
    sdAt := 0, since := 0, entries := [], hold := false }

/-- A laser model group (R454, R457): stage temperatures in 1/256 degC, t_mg in 1/16 degC, the ceiling, its levels, and when the
last ceiling arrived.  `lost` says that no ceiling has arrived for 5 ms (R403). -/
structure ModelGroup where
  x : List Int
  tmg : Int
  o : Nat
  lvl : Levels
  last : Option Nat
  lost : Bool
  deriving DecidableEq, Repr

/-- Thermal management (ch. 14).  `steps` counts the DRAM step-downs in force that thermal management asked for. -/
structure ThermState where
  ts : List Sensor
  ntc : List NtcIn
  die : Int
  hottest : Nat
  lvl : Levels
  low : Bool
  mg : List ModelGroup
  thrSince : Option Nat
  coolSince : Option Nat
  steps : Nat
  deriving DecidableEq, Repr

/-- A request that waits at a channel pair (R476 to R479): the local instant it came, its block and its bursts; `capped` says that the
guest cap has held it back. -/
structure DramReq where
  since : Nat
  write : Bool
  guest : Bool
  addr : Nat
  bursts : Nat
  capped : Bool
  deriving DecidableEq, Repr

/-- A DRAM channel pair (ch. 15).  `st` is DMCP_STATUS.STATE, `sp` the set point the pair runs at; slack is in 10 ns units,
0xFFFFFF for unbounded; `owed` holds, per channel, the refreshes owed (negative: run ahead); `rd` and `wr` the lane delays; `reqs`
are the requests that wait, oldest first, `rows` the open row of each bank, `slot` the command slots so far, `guestAt` the guest bursts of
the last 1,000 of them, `used` those of the frame; `sampAt` is the instant of the last slack sample, `lastReq` that of the last request. -/
structure Pair where
  st : Nat
  sp : Nat
  rdfirst : Bool
  okSince : Option Nat
  slack : Nat
  slackMin : Nat
  slackRep : Nat
  rdIn : Nat
  rdRep : Nat
  owed : List Int
  rd : List Int
  wr : List Int
  held : Bool
  guest : Nat
  reqs : List DramReq
  rows : List (Nat × Nat)
  drain : Bool
  slot : Nat
  guestAt : List (Nat × Nat)
  used : Nat
  sampAt : Nat
  lastReq : Nat
  deriving DecidableEq, Repr

/-- A pair at reset. -/
def Pair.reset : Pair where
  st := 0
  sp := 1
  rdfirst := false
  okSince := none
  slack := 0xFFFFFF
  slackMin := 0xFFFFFF
  slackRep := 0xFFFFFF
  rdIn := 0
  rdRep := 0
  owed := [0, 0]
  rd := [0, 0, 0, 0]
  wr := [0, 0, 0, 0]
  held := false
  guest := 0
  reqs := []
  rows := []
  drain := false
  slot := 0
  guestAt := []
  used := 0
  sampAt := 0
  lastReq := 0

/-- A change of the set point in force (R484): its cause (0 commit, 1 thermal down, 2 thermal up), when it began, the pairs
still to change, and the pairs whose wait has been reported at 10 ms and at 100 ms. -/
structure FreqChange where
  target : Nat
  prev : Nat
  cause : Nat
  since : Nat
  left : Nat
  waited : Nat
  late : Nat
  deriving DecidableEq, Repr

/-- A compatibility sweep in progress (R490): of the command, or of a CALIBRATE. -/
structure Sweep where
  cseq : Word
  pair : Nat
  sp : Nat
  space : Bool
  addr : Nat
  calib : Bool
  deriving DecidableEq, Repr

/-- The DRAM controller: thermal cap, the change due or in progress, the sweep, poisoned blocks by number, the channels that
report a refresh rate above range, the reported rates, the scrub position, accepted delays by pair, set point, lane and
direction, lanes held at their drift limit, and the spill traffic of the mesh in force in KiB per frame. -/
structure DramCtl where
  pairs : List Pair
  cap : Nat
  due : Option Nat
  fbDue : Option Nat
  change : Option FreqChange
  sweep : Option Sweep
  poison : List Nat
  hot : List Nat
  rate : List Nat
  scrubPair : Nat
  scrubBlk : Nat
  scrubAt : Nat
  delays : List (Nat × Nat)
  trimHeld : List Nat
  warpSpill : Nat
  hlZero : List Nat
  deriving DecidableEq, Repr


/-- Who asked for a Seedbank write. -/
inductive SeedWhy | none | store | calib | stage | hkSel | svSel | rollback | ownerKeys | report
  deriving DecidableEq, Repr

/-- A request to the Seedbank writer (R508): a record of a type, a CHK_ONLY rewrite, a reserved copy or a report word.  `kind`
is 0 record, 1 rewrite in the slot (0 A, 1 B) that `addr` names, 2 reserved copy, 3 report word; `cseq` is the command that waits for it. -/
structure SeedReq where
  kind : Nat
  ty : Nat
  signed : Bool
  data : List Byte
  addr : Nat
  cseq : Option Word
  why : SeedWhy
  deriving DecidableEq, Repr

/-- What a slot holds (R505, R506): `st` 0 INVALID, 1 VALID, 2 CHK_ONLY; the reason where it is invalid (Table 16.11); the copy
of the CRC that does not match (1, 2). -/
structure SlotInfo where
  st : Nat
  seq : Word
  len : Nat
  signed : Bool
  reason : Nat
  copy : Nat
  payload : List Byte
  deriving DecidableEq, Repr

/-- The record in progress (R504): its slot, its SEQ, where it stands, its bytes and how many words are written; `old` is the
slot as it stood before. -/
structure SeedWrite where
  req : SeedReq
  slot : Nat
  seq : Word
  addr : Nat
  bytes : List Byte
  done : Nat
  old : SlotInfo
  deriving DecidableEq, Repr

/-- A copy or a report word being written to the reserved area (R510, R512): its address, its bytes, and the words written. -/
structure CopyWrite where
  addr : Nat
  bytes : List Byte
  done : Nat
  deriving DecidableEq, Repr

/-- The Seedbank and the fuses (ch. 16).  `mram` is the array by byte offset; `bad` the words with an uncorrectable error;
`otp` the fuses by byte; `fuses` the fuse bits waiting for PWR_FAIL_N, with the commands
that wait for them (R516). -/
structure SeedState where
  mram : List (Nat × Byte)
  bad : List Nat
  queue : List SeedReq
  wr : Option SeedWrite
  copyWr : Option CopyWrite
  scrub : Nat
  scrubAt : Nat
  chkOnly : Bool
  otp : List (Nat × Byte)
  fuses : List Nat
  fuseCmd : List Word
  deriving DecidableEq, Repr

/-- An attestation in progress (R526): the command, its buffer, and what was captured at acceptance: bytes 0 to 255 of the quote
and the log entries. -/
structure Attest where
  cseq : Word
  dev : Bool
  addr : Nat
  quote : List Byte
  log : List Byte
  count : Nat
  deriving DecidableEq, Repr

/-- A request that waits for the RSA engine behind a signing in progress (R27, Table 1.5): an attestation, captured at its acceptance; the
PROOF for a port's CHALLENGE with its signature; a peer's PROOF with what the engine finds of it. -/
inductive RsaReq
  | sign (a : Attest)
  | prove (p : Nat) (sig : List Byte)
  | verify (p : Nat) (ok : Bool)
  deriving DecidableEq, Repr

/-- An OWNER_KEY that waits for its OWNER_KEYS record (R522). -/
structure OwnerOp where
  cseq : Word
  op : Nat
  slot : Nat
  auth : Nat
  modulus : List Byte
  deriving DecidableEq, Repr

/-- The trust engine (ch. 16): the debug challenge and its result, the certificate, the attestation being signed, the requests
that wait for the RSA engine in their order of arrival, with their instants, and the waits that ended, each with its end and its
length (TRUST_RSA_WAIT). -/
structure TrustState where
  identity : Bool
  cert : List Byte
  challenge : List Byte
  chalValid : Bool
  chalAt : Nat
  chalCount : Nat
  jtagResult : Nat
  unlocked : Bool
  unlockedBoot : Bool
  scope : Word
  attest : Option Attest
  rsaWait : List (Nat × RsaReq)
  rsaWaits : List (Nat × Nat)
  own : Option OwnerOp
  deriving DecidableEq, Repr


/-- A calibration run (R435 to R446): the command, its parameters, the phase of TRIM_STATUS, the spare that covers the member
(PI), when it began, whether the inactive P-I image was written, whether no spare is left (Table 13.10), and the points of a PI sweep
that have been driven (R440). -/
structure CalRun where
  cseq : Word
  proc : Nat
  flags : Nat
  target : Nat
  cpd : Nat
  top : Nat
  phase : Nat
  spare : Option Nat
  since : Nat
  piWritten : Bool
  lost : Bool
  points : Nat
  deriving DecidableEq, Repr


/-- The credit account of one class on one link (R542, R543), in cells: SENT and the FREED_TOTAL last received, on the sending
side; F, D, the occupied cells and the total reported, on the receiving side. -/
structure FabCls where
  sent : Nat
  base : Nat
  f : Nat
  d : Nat
  occ : Nat
  freed : Nat
  deriving DecidableEq, Repr

/-- A frame to send: its class, its bytes up to the padding, the stored frame it is a copy of, and the FABRIC_SEND it ends. -/
structure FabTx where
  cls : Nat
  bytes : List Byte
  hold : Option Nat
  cseq : Option Word
  deriving DecidableEq, Repr

/-- A stored frame that is being forwarded: its port, class and cells, and the copies still to send. -/
structure FabHold where
  id : Nat
  port : Nat
  cls : Nat
  cells : Nat
  left : Nat
  deriving DecidableEq, Repr

/-- A fabric port (Table 17.11). -/
structure FabPort where
  st : Nat
  since : Nat
  cls : List FabCls
  nextSeq : Nat
  expSeq : Nat
  nakSent : Bool
  lastDisc : Option Nat
  txq : List FabTx
  replay : List (Nat × FabTx)
  replays : Nat
  progressAt : Nat
  lastCtrl : Nat
  ackDue : Bool
  audited : Bool
  ctrlBytes : Nat
  allBytes : Nat
  uid : Nat
  addr : Nat
  nport : Nat
  heard : Option Nat
  lastHello : Nat
  lastPdelay : Nat
  polled : Nat
  twoWay : Bool
  alt : Bool
  delays : List Int
  delay : Int
  modId : Nat
  modTemp : Nat
  modAlarm : Bool
  nonce : List Byte
  peerNonce : List Byte
  cert : Option Nat
  admitAt : Nat
  admitted : Bool
  deriving DecidableEq, Repr

/-- A link-state record (Table 17.5): links are neighbour UID, local port and cost; `adm` says that it came over an admitted link (R566). -/
structure Lsa where
  uid : Nat
  seq : Word
  elig : Bool
  named : Nat
  links : List (Nat × Nat × Nat)
  groups : List Nat
  stored : Nat
  adm : Bool := false
  deriving DecidableEq, Repr

/-- A routing entry (Table 17.12). -/
structure Route where
  next : Nat
  alt : Nat
  assigned : Bool
  hops : Nat
  cost : Nat
  uid : Nat
  deriving DecidableEq, Repr

/-- What one computation gives (R552, R556): the table by address, the parent port, the child ports, and the groups joined
beyond each tree port. -/
structure RouteTable where
  entries : List (Nat × Route)
  reach : Nat
  parent : Option Nat
  children : List Nat
  beyond : List (Nat × List Nat)
  deriving DecidableEq, Repr

/-- The Wipex fabric (ch. 17). -/
structure FabState where
  ports : List FabPort
  holds : List FabHold
  nextHold : Nat
  lsas : List Lsa
  ownSeq : Word
  lsaDue : Bool
  lastLsa : Nat
  map : List (Nat × Nat)
  mapSeq : Word
  mapRoot : Nat
  mapAt : Nat
  absent : List (Nat × Nat)
  partRoot : Nat
  partSeq : Word
  parts : List (Nat × List (Nat × Nat))
  root : Option Nat
  addr : Nat
  changeAt : Option Nat
  convStart : Option Nat
  computing : Option Nat
  shadow : Option RouteTable
  table : RouteTable
  lastMs : Nat
  converge : Nat
  flows : List (Nat × Nat × Word)
  fseqOut : List (Nat × Word)
  sends : List (Word × Nat)
  steps : Nat
  accErr : Nat
  rootSrc : Nat
  sseq : Nat
  pseq : Nat
  syncAt : Option Nat
  lastSync : Nat
  deriving DecidableEq, Repr

/-- A fabric port at reset. -/
def FabPort.reset : FabPort :=
  { st := 0, since := 0, cls := List.replicate 4 { sent := 0, base := 0, f := 0, d := 0, occ := 0, freed := 0 }, nextSeq := 0,
    expSeq := 0, nakSent := false, lastDisc := none, txq := [], replay := [], replays := 0, progressAt := 0, lastCtrl := 0,
    ackDue := false, audited := false, ctrlBytes := 0, allBytes := 0, uid := 0, addr := 0, nport := 0, heard := none,
    lastHello := 0, lastPdelay := 0, polled := 0, twoWay := false, alt := false, delays := [], delay := 0, modId := 0, modTemp := 0, modAlarm := false,
    nonce := [], peerNonce := [], cert := none, admitAt := 0, admitted := false }

/-- The fabric at reset. -/
def FabState.reset : FabState :=
  { ports := List.replicate 4 FabPort.reset, holds := [], nextHold := 0, lsas := [], ownSeq := 0, lsaDue := false, lastLsa := 0,
    map := [], mapSeq := 0, mapRoot := 0, mapAt := 0, absent := [], partRoot := 0, partSeq := 0, parts := [],
    root := none, addr := 0, changeAt := none, convStart := none, computing := none, shadow := none,
    table := { entries := [], reach := 0, parent := none, children := [], beyond := [] }, lastMs := 0, converge := 0, flows := [],
    fseqOut := [], sends := [], steps := 0, accErr := 0, rootSrc := 0, sseq := 0, pseq := 0, syncAt := none, lastSync := 0 }

/-- A cue context (Table 18.1). -/
structure CueCtx where
  trigger : Nat
  action : Nat
  st : Nat
  base : Nat
  skip : Bool
  fine : Bool
  evt : Bool
  result : Nat
  prio : Nat
  seq : Nat
  deriving DecidableEq, Repr

/-- A cue context at reset. -/
def CueCtx.reset : CueCtx :=
  { trigger := 0, action := 0, st := 0, base := 0, skip := false, fine := false, evt := false, result := 0, prio := 0, seq := 0 }

/-- A commit-class cue whose action has been fetched (R578): RESULT so far, and the action with its body. -/
structure CueFetched where
  idx : Nat
  res : Nat
  ty : Nat
  body : List Byte
  deriving DecidableEq, Repr

/-- A fired SCENE LIGHT or EXTINGUISH, carried out at FB_e (R587): the cue, the boundaries still to fall up to FB_e, the groups, and
whether they light. -/
structure CueScene where
  idx : Nat
  k : Nat
  mask : Nat
  light : Bool
  since : Nat
  deriving DecidableEq, Repr

/-- The Almanac (R572 to R590): `fetchK` is the index of the effect FB of the fetched cues, `firedK` that of the cues fired last;
tokens of R582 with the FT of the last refill, and the FT of the last fine-time tick that fired. -/
structure CueState where
  ctx : List (Nat × CueCtx)
  fetched : List CueFetched
  fetchK : Nat
  firedK : Nat
  scenes : List CueScene
  tokens : Nat
  tokenAt : Nat
  lastTick : Option Nat
  load : Nat
  loadMax : Nat
  deriving DecidableEq, Repr

/-- A complete slot of the holdover ring (Table 18.9). -/
structure RingSlot where
  tag : Word
  sealFt : Nat
  len : Nat
  w : Nat
  deriving DecidableEq, Repr

/-- The ring player (R598): the PB of R592, and the pass and picture next in turn. -/
structure Player where
  q : Nat
  pass : Nat
  j : Nat
  deriving DecidableEq, Repr

/-- Holdover (R591 to R605).  `mark` is the newest seal of the watched source as the last PB saw it; `thawPorts` are the ports
that still show the set held before the last Thaw (R314); `frostDue` and `thawDue` are changes of FROST_HOLD the next FB makes. -/
structure HoldState where
  watched : Option Nat
  mark : Option (Nat × Nat)
  stall : Nat
  resume : Nat
  inForce : Bool
  policy : Nat
  fallback : Bool
  waiting : Bool
  force : Bool
  w : Nat
  slots : List (Nat × RingSlot)
  player : Option Player
  stopped : Bool
  lib : Bool
  libMiss : Nat
  anchor : Nat
  mapped : Bool
  pos : Nat
  held : Nat
  frostDue : Option Nat
  dueAt : Nat
  thawDue : Bool
  thawPorts : Nat
  ringPages : List Nat
  deriving DecidableEq, Repr

/-- A photodiode (R416 to R420): the electronic offsets in codes and gain corrections in 1/65536 by range, where a procedure has
measured them (none: the factory's); the ambient current in pA; the mean of the last valid window; and the FT of its last
saturated sample. -/
structure PdState where
  off : List (Option Nat)
  corr : List Nat
  amb : Nat
  last : Nat
  satAt : Option Nat
  deriving DecidableEq, Repr

/-- A mirror group's estimate (R421 to R423): x and y in 2^-32, Y in 2^-20 lm, the wavelength in 1/64 nm, frames since the last
valid window, and the frame's valid windows (length, x, y, Y, wavelength). -/
structure Est where
  x : Int
  y : Int
  flux : Int
  lam : Nat
  since : Nat
  valid : Bool
  hold : Bool
  win : List (Nat × Nat × Nat × Nat × Nat)
  deriving DecidableEq, Repr

/-- A colour target (R432): primaries and white in U0.16, the peak in 1/16 lm. -/
structure ColTarget where
  prim : List (Nat × Nat)
  white : Nat × Nat
  peak : Nat
  deriving DecidableEq, Repr

/-- A report as the consensus uses it (Table 13.3). -/
structure ColReport where
  uid : Nat
  epoch : Word
  prim : List (Nat × Nat)
  peak : Nat
  bytes : List Byte
  deriving DecidableEq, Repr

/-- The target agreed on, waiting for its FB. -/
structure ColPending where
  at_ : Nat
  target : ColTarget
  epoch : Word
  members : Nat
  excluded : Nat
  deriving DecidableEq, Repr

/-- Colour constancy and consensus (ch. 13).  `d` and `hm` are the matrices in force, in S3.28; `fresh` lets the next PB load D_new
unclamped; `hl` is the last accepted scanner calibration (x, y, flux);
`pdDue` are photodiode corrections that apply at the next FB (photodiode, range, offset, gain). -/
structure ColourState where
  pd : List PdState
  est : List Est
  d : List Int
  hm : List Int
  hmDue : Bool
  fresh : Bool
  wasEn : Bool
  stepped : Bool
  target : Option ColTarget
  consensus : Bool
  epoch : Word
  pend : Option ColPending
  own : Option ColReport
  reports : List ColReport
  told : List (Nat × Word)
  digests : List (Nat × Word × List Byte)
  setEpoch : Word
  setTarget : Option ColTarget
  setDigest : List Byte
  refUid : Option Nat
  members : Nat
  excluded : Nat
  matched : Bool
  hl : List (Nat × Nat × Nat)
  pdDue : List (Nat × Nat × Nat × Nat)
  deriving DecidableEq, Repr

/-- A photodiode at reset. -/
def PdState.reset : PdState :=
  { off := [none, none, none, none], corr := [65536, 65536, 65536, 65536], amb := 0, last := 0, satAt := none }

/-- An estimate at reset. -/
def Est.reset : Est := { x := 0, y := 0, flux := 0, lam := 0, since := 65535, valid := false, hold := false, win := [] }

/-- The identity of D and Hm (R424, R425). -/
def unitMatrix : List Int := [268435456, 0, 0, 0, 268435456, 0, 0, 0, 268435456, 0, 0, 0]

/-- Colour at reset. -/
def ColourState.reset : ColourState :=
  { pd := List.replicate 8 PdState.reset, est := List.replicate 4 Est.reset, d := unitMatrix, hm := unitMatrix, hmDue := false,
    fresh := false, wasEn := false, stepped := false, target := none, consensus := false, epoch := 0, pend := none, own := none,
    reports := [], told := [], digests := [], setEpoch := 0, setTarget := none, setDigest := [], refUid := none,
    members := 0, excluded := 0, matched := false, hl := [(0, 0, 0), (0, 0, 0), (0, 0, 0)],
    pdDue := [] }

/-- The state of the block.  `regs` holds the registers and table windows that differ from their reset values; `frozen`
the values a frozen page presents (R91); `now` is the local 1 GHz time in ns; `free` counts the free values used (the
model's own, log entry 2); `out` records outward actions (the model's own, log entry 5). -/
structure Block where
  regs : List (Nat × Word)
  frozen : List (Nat × List (Nat × Word))
  now : Nat
  free : Nat
  out : List Out
  tm : TimeState
  cm : CommitState
  rg : RingState
  pw : PowerState
  bt : BootState
  fl : FaultState
  pins : Pins
  ty : TallyState
  chk : List ChkUnit
  hs : HostState
  sk : SkdState
  dt : DtuState
  dram : List (Nat × Byte)
  sf : StoreState
  pp : PipeState
  ma : List Port
  sc : ScanState
  ls : LaserState
  cp : CpeState
  th : ThermState
  dc : DramCtl
  se : SeedState
  tr : TrustState
  ca : Option CalRun
  fb : FabState
  cu : CueState
  ho : HoldState
  co : ColourState
  deriving DecidableEq, Repr

/-- The machine: the block, and the queue of the commands that wait, first in, first out.  A command's effect is a function of
the block alone, so no command can touch the queue. -/
structure State extends Block where
  pending : List Instr
  deriving DecidableEq, Repr

/-- Why a step can stop.  No rule of the spec stops the block, so no meaning of the model raises one of these on a command's
own effect; see NOTES.md, Stops. -/
inductive Fault
  /-- A memory access at an address the spec says does not exist, where no rule gives the access an outcome (safe). -/
  | noSuchAddress (addr : Nat)
  deriving DecidableEq, Repr

/-- Why a command can be turned away without a meaning. -/
inductive Refusal
  /-- Raised by the arm of a command that has no meaning yet (safe). -/
  | notModelled (mnemonic : String)
  deriving DecidableEq, Repr

/-- The block right after reset: PORST_N has just been released at first power-on, the device state is BOOT (the reset value
of PWR_STATE) and every register holds its reset value. -/
def Block.reset : Block where
  regs := []
  frozen := []
  now := 0
  free := 0
  out := []
  tm := { run := false, ft := 0, frac := 0, fsn := 0, curK := 0, nextK := 0, num := 25000000, den := 3, epoch := 0,
          lastFb := 0, fbNow := 0, cutoffDone := false, src := .wipex, lock := .holdover, fsyncQual := false, fabricQual := false,
          fsyncLast := none, fabricLast := none, fsyncSince := none, fabricSince := none,
          fsyncGood := none, fabricHad := false, fsyncHad := false, offsets := [], slew := 0,
          stepDue := 0, ftSetHi := 0, dark := [], resetMajor := false,
          tcValid := false, tcCount := 0, tcFt := 0, tcAt := 0 }
  cm := { list := [], resetWait := [] }
  rg := { inflight := [], lastCseq := 0xFFFFFFFF, evq := [], lost := 0, firstLost := 0, modCount := 0, modSince := none,
          vec63 := false, causePending := true, snapWait := [], snapDue := [], reports := [] }
  pw := { state := .boot, prev := .aon, reason := 0, litMask := 0, stateSet := none, pfAsserted := false, pfCut := false, pfActed := false,
          pfRecovering := false, pfRideThrough := 0, pfRelight := 0, pfSince := 0, pfRecordDone := false, pfRec := (0, 0, 0),
          coreGated := false, heldReset := false, since := 0, hwBad := [] }
  bt := { src := 0, trying := 0,
          s1 := { a := none, b := none, running := 0, selector := 0, staged := false, trial := false },
          hk := { a := none, b := none, running := 0, selector := 0, staged := false, trial := false },
          sv := { a := none, b := none, running := 0, selector := 0, staged := false, trial := false },
          fwStage := none, hkRestart := none, hkRunning := 0, hkSince := 0, svTrial := false, mgmtLost := false,
          m := List.replicate 64 0, mlog := [], image := [], imageLen := 0, neighbour := none, recovered := none }
  fl := { recs := [], nextFid := 0, svRunning := false, svSelfTest := false, svPassed := false, deadman := false,
          pathAsserted := false, lockErr := false, mismatches := 0, deadmanTrips := 0, seen := 0,
          permitSince := [none, none, none], stallPbs := 0, showGroups := 0, exclGroups := 0,
          exclUntilLit := 0, showRem := 0, exclRem := 0 }
  pins := { ilkInN := true, laserEnN := true, estopN := false, pwrFailN := true, porstN := true, bootSrc := 0,
            gpioIn := 0, modPrsN := [true, true, true, true], maRdyN := [true, true, true, true],
            maRstN := [false, false, false, false], hlEn := 0, hsMidScale := false, hsDrvX := 0, hsDrvY := 0, xtalOk := true, refclkOk := true,
            vddAon := true, cueOut := 0 }
  ty := { cnt := List.replicate 64 { count := 0, snap := 0, wrapped := false, snapWrap := false }, clearPending := false }
  chk := List.replicate 8 ChkUnit.reset
  hs := { pcie := PcieCfg.reset, pba := [], dpCfg := [0x334, 0x334], dpCap := List.replicate 2 { fmt := 0, bpc := 0, hact := 0 },
          joinOn := false, usbAt := none, prIn := [false, false], prUpdate := [false, false], prThaw := none, prAt := 0, sum0 := 0, sum1 := 0 }
  sk := { stamp := 0, ch := List.replicate 16 SkdChan.reset, run := [none, none, none, none], last := [15, 15, 15, 15] }
  dt := { tlb := [], inv := none }
  dram := []
  sf := { surf := List.replicate 64 Surface.reset, src := List.replicate 8 Source.reset,
          nvme := NvmeState.reset, codes := [], inUse := none, lastLoad := 0 }
  pp := { blendPages := [], unifPages := [], spillPages := [], frame := none, half := false, fallback := false, dramFallback := false, skip := false,
          mesh := { shadow := [], active := [], written := [], sync := false, bank := 0 },
          lut := { shadow := [], active := [], written := [], sync := false, bank := 0 },
          zone := { shadow := [], active := [], written := [], sync := false, bank := 0 },
          planBusy := false, planValid := false, planSince := 0 }
  ma := List.replicate 4 Port.reset
  sc := ScanState.reset
  ls := { str := List.replicate 48 Member.reset, slc := [], grp := List.replicate 5 Group.reset,
          chn := List.replicate 4 Chain.reset, piImage := 0, piValid := false, piFail := 0, piPages := [] }
  cp := { recs := List.replicate 112 LoopRec.reset,
          wheelFault := false, halted := false, lastFault := 0, h := 0, hCount := 65535, scrub := 0, turnAt := 0, sampled := 0, resume := false }
  th := { ts := List.replicate 16 { temp := 0, valid := false, odd := 0, good := 0 },
          ntc := List.replicate 8 { code := 0, temp := 0, valid := false, hist := [] }, die := 0, hottest := 0, lvl := Levels.reset,
          low := false,
          mg := List.replicate 12 { x := [0, 0, 0], tmg := 0, o := 0x8000, lvl := Levels.reset, last := none, lost := false },
          thrSince := none, coolSince := none, steps := 0 }
  dc := { pairs := List.replicate 12 Pair.reset, cap := 0, due := none, fbDue := none, change := none, sweep := none,
          poison := [], hot := [], rate := List.replicate 24 0, scrubPair := 0, scrubBlk := 0, scrubAt := 0, delays := [], trimHeld := [],
          warpSpill := 0, hlZero := [] }
  se := { mram := [], bad := [], queue := [], wr := none, copyWr := none, scrub := 0, scrubAt := 0, chkOnly := false, otp := [], fuses := [],
          fuseCmd := [] }
  tr := { identity := false, cert := [], challenge := [], chalValid := false, chalAt := 0, chalCount := 0, jtagResult := 0,
          unlocked := false, unlockedBoot := false, scope := 0, attest := none, rsaWait := [], rsaWaits := [], own := none }
  ca := none
  fb := FabState.reset
  cu := { ctx := [], fetched := [], fetchK := 0, firedK := 0, scenes := [], tokens := 64, tokenAt := 0, lastTick := none, load := 0, loadMax := 0 }
  ho := { watched := none, mark := none, stall := 0, resume := 0, inForce := false, policy := 0, fallback := false, waiting := false,
          force := false, w := 0, slots := [], player := none, stopped := false, lib := false, libMiss := 0, anchor := 0,
          mapped := false, pos := 0, held := 0, frostDue := none, dueAt := 0, thawDue := false, thawPorts := 0, ringPages := [] }
  co := ColourState.reset

/-- The machine right after reset: no command waits. -/
def State.reset : State := { toBlock := Block.reset, pending := [] }

end Sys2Proof.Machine
end

