-- ==== Sys2Proof/Machine/RegTable.lean ====
section
/-!
DEFINITION. The register map of the block, row by row from the register tables of spec/ (Tables 2.9, 3.3, 3.9, 3.12,
3.14, 4.13, 4.14, 5.6, 5.12, 5.15, 6.11, 6.12, 7.6, 7.7, 7.8, 8.9, 8.10, 9.12, 10.10-10.12, 11.9-11.11, 12.7, 13.11,
13.12, 14.6, 15.5, 15.6, 16.9, 16.10, 17.10, 17.11, 17.13, 18.12, 18.13, 19.5, 19.8, 20.10).  `R.<NAME>` is a
register's address: page index x 0x1000 plus the offset in the page (R81).  A row gives the access code (Table 0.5),
the bits a host write reaches, the W1C bits, the value at reset, and the legal values of the fields (R666).
Reset values the tables do not state ("Fused", "AON", a dash) are those of log entry 9 (DESIGN CHOICE).
-/
namespace Sys2Proof.Machine

/-- Table 0.5: the access codes (R6). -/
inductive Acc | rw | ro | w1c | w1s | wo | sh | cnt
  deriving DecidableEq, Repr

/-- The legal values of the field at bits `lo` to `lo + w - 1` (R666): the union of the ranges; where `en` names a bit of
the same register, only while that bit is set. -/
structure Legal where
  lo : Nat
  w : Nat
  ranges : List (Nat × Nat)
  en : Option Nat
  deriving DecidableEq, Repr

/-- One row of a register table: `count` registers from `off`, `stride` bytes apart. -/
structure RegRow where
  off : Nat
  count : Nat
  stride : Nat
  acc : Acc
  mask : Nat
  w1c : Nat
  reset : Nat
  legal : List Legal
  deriving DecidableEq, Repr

namespace R

abbrev TIME_CTRL : Nat := 0x7040
abbrev TIME_SRC_STATUS : Nat := 0x7044
abbrev TIME_FT_LO : Nat := 0x7048
abbrev TIME_FT_HI : Nat := 0x704C
abbrev TIME_FT_FRAC : Nat := 0x7050
abbrev TIME_OFFSET : Nat := 0x7054
abbrev TIME_FREQ_TRIM : Nat := 0x7058
abbrev TIME_SLEW_MAX : Nat := 0x705C
abbrev TIME_STEP_THRESH : Nat := 0x7060
abbrev TIME_SRC_TIMEOUT : Nat := 0x7064
abbrev TIME_SRC_QUALIFY : Nat := 0x7068
abbrev TIME_FT_SET_LO : Nat := 0x706C
abbrev TIME_FT_SET_HI : Nat := 0x7070
abbrev TIME_PERIOD_NUM_LO : Nat := 0x7074
abbrev TIME_PERIOD_NUM_HI : Nat := 0x7078
abbrev TIME_PERIOD_DEN : Nat := 0x707C
abbrev TIME_EPOCH_OFFSET_LO : Nat := 0x7080
abbrev TIME_EPOCH_OFFSET_HI : Nat := 0x7084
abbrev TIME_FB_CTRL : Nat := 0x7088
abbrev TIME_FSN_LOAD : Nat := 0x708C
abbrev TIME_DARK_LEN : Nat := 0x7090
abbrev TIME_COMMIT_GUARD : Nat := 0x7094
abbrev TIME_PRELOAD : Nat := 0x7098
abbrev TIME_FSN : Nat := 0x709C
abbrev TIME_FB_K_LO : Nat := 0x70A0
abbrev TIME_FB_K_HI : Nat := 0x70A4
abbrev TIME_NEXT_FB_LO : Nat := 0x70A8
abbrev TIME_NEXT_FB_HI : Nat := 0x70AC
abbrev TIME_CUTOFF_LO : Nat := 0x70B0
abbrev TIME_LAST_COMMIT_FT_LO : Nat := 0x70B4
abbrev TIME_LAST_COMMIT_FT_HI : Nat := 0x70B8
abbrev TIME_LAST_COMMIT_INFO : Nat := 0x70BC
abbrev TIME_TC_CFG : Nat := 0x70C0
abbrev TIME_TC_NOW : Nat := 0x70C4
abbrev TIME_CUTOFF_HI : Nat := 0x70C8
abbrev PAGE_ID (p : Nat) : Nat := 0x1000 * p + 0
abbrev PAGE_CTRL (p : Nat) : Nat := 0x1000 * p + 4
abbrev PAGE_STATUS (p : Nat) : Nat := 0x1000 * p + 8
abbrev INT_STATUS (p : Nat) : Nat := 0x1000 * p + 0xC
abbrev INT_ENABLE (p : Nat) : Nat := 0x1000 * p + 0x10
abbrev INT_FORCE (p : Nat) : Nat := 0x1000 * p + 0x14
abbrev COMMIT (p : Nat) : Nat := 0x1000 * p + 0x18
abbrev COMMIT_STATUS (p : Nat) : Nat := 0x1000 * p + 0x1C
abbrev ERR_CAUSE (p : Nat) : Nat := 0x1000 * p + 0x20
abbrev ERR_INFO (p : Nat) : Nat := 0x1000 * p + 0x24
abbrev APPLIED_SEQ (p : Nat) : Nat := 0x1000 * p + 0x28
abbrev PAGE_LOCK (p : Nat) : Nat := 0x1000 * p + 0x2C
abbrev DEV_ID : Nat := 0x40
abbrev DEV_CAPS : Nat := 0x44
abbrev DEV_UID_LO : Nat := 0x48
abbrev DEV_UID_HI : Nat := 0x4C
abbrev DEV_FW_VERSION : Nat := 0x50
abbrev DEV_HK_STATUS : Nat := 0x54
abbrev DEV_HK_RESTARTS : Nat := 0x58
abbrev DEV_HEARTBEAT : Nat := 0x5C
abbrev DEV_COMMIT : Nat := 0x60
abbrev DEV_COMMIT_MASK0 : Nat := 0x64
abbrev DEV_COMMIT_MASK1 : Nat := 0x68
abbrev DEV_COMMIT_STATUS : Nat := 0x6C
abbrev DEV_APPLIED_SEQ : Nat := 0x70
abbrev DEV_ERR_CAUSE : Nat := 0x74
abbrev DEV_INT_SUMMARY0 : Nat := 0x78
abbrev DEV_INT_SUMMARY1 : Nat := 0x7C
abbrev DEV_IRQN_MASK0 : Nat := 0x80
abbrev DEV_IRQN_MASK1 : Nat := 0x84
abbrev DEV_WIN_BASE_LO : Nat := 0x88
abbrev DEV_WIN_BASE_HI : Nat := 0x8C
abbrev DEV_WIN_CTRL : Nat := 0x90
abbrev DEV_SCRATCH0 : Nat := 0x94
abbrev DEV_SCRATCH1 : Nat := 0x98
abbrev PIN_OWN (i : Nat) : Nat := 0x2C040 + 4 * i
abbrev PIN_DENY_INFO : Nat := 0x2C080
abbrev PIN_GPIO_MUX (i : Nat) : Nat := 0x2C084 + 4 * i
abbrev PIN_GPIO_DIR : Nat := 0x2C094
abbrev PIN_GPIO_OUT : Nat := 0x2C098
abbrev PIN_GPIO_IN : Nat := 0x2C09C
abbrev RING_CTRL : Nat := 0x4040
abbrev RING_STATUS : Nat := 0x4044
abbrev RING_CMD_BASE_LO : Nat := 0x4048
abbrev RING_CMD_BASE_HI : Nat := 0x404C
abbrev RING_CMD_SIZE : Nat := 0x4050
abbrev RING_CMD_TAIL : Nat := 0x4054
abbrev RING_CMD_HEAD : Nat := 0x4058
abbrev RING_CMD_SEQ_EXPECT : Nat := 0x405C
abbrev RING_CMD_SEQ_DONE : Nat := 0x4060
abbrev RING_CMD_RESYNC : Nat := 0x4064
abbrev RING_CMD_INFLIGHT : Nat := 0x4068
abbrev RING_EVT_BASE_LO : Nat := 0x406C
abbrev RING_EVT_BASE_HI : Nat := 0x4070
abbrev RING_EVT_SIZE : Nat := 0x4074
abbrev RING_EVT_HEAD : Nat := 0x4078
abbrev RING_EVT_TAIL : Nat := 0x407C
abbrev RING_EVT_SEQ_NEXT : Nat := 0x4080
abbrev RING_EVT_LOST : Nat := 0x4084
abbrev RING_EVT_MOD : Nat := 0x4088
abbrev RING_DUP_COUNT : Nat := 0x408C
abbrev PWR_STATE : Nat := 0x1040
abbrev PWR_RESET_CAUSE : Nat := 0x1044
abbrev PWR_RESET_CTRL : Nat := 0x1048
abbrev PWR_FABRIC_RESET : Nat := 0x104C
abbrev PWR_PF_CFG : Nat := 0x1050
abbrev PWR_PF_STATUS : Nat := 0x1054
abbrev PWR_PF_COUNT : Nat := 0x1058
abbrev PWR_RAIL_STATUS : Nat := 0x105C
abbrev PWR_RAIL_FAULT : Nat := 0x1060
abbrev PWR_HK_WDT : Nat := 0x1064
abbrev PWR_HK_RESTART : Nat := 0x1068
abbrev PWR_TRANS_TIME : Nat := 0x106C
abbrev PWR_UPTIME_LO : Nat := 0x1070
abbrev PWR_UPTIME_HI : Nat := 0x1074
abbrev PWR_AON_SCRATCH : Nat := 0x1078
abbrev PWR_FIREBREAK : Nat := 0x107C
abbrev PWR_BOOT_CFG : Nat := 0x1080
abbrev PWR_STRAPS : Nat := 0x1084
abbrev BOOT_STATUS : Nat := 0x2040
abbrev BOOT_FAIL_INFO : Nat := 0x2044
abbrev BOOT_S1_SLOT : Nat := 0x2048
abbrev BOOT_S1_VERSION_A : Nat := 0x204C
abbrev BOOT_S1_VERSION_B : Nat := 0x2050
abbrev BOOT_HK_SLOT : Nat := 0x2054
abbrev BOOT_HK_VERSION_A : Nat := 0x2058
abbrev BOOT_HK_VERSION_B : Nat := 0x205C
abbrev BOOT_SV_SLOT : Nat := 0x2060
abbrev BOOT_SV_VERSION_A : Nat := 0x2064
abbrev BOOT_SV_VERSION_B : Nat := 0x2068
abbrev BOOT_ROLLBACK : Nat := 0x206C
abbrev BOOT_OTP_POLICY : Nat := 0x2070
abbrev BOOT_MLOG_COUNT : Nat := 0x2074
abbrev BOOT_MLOG_ADDR_LO : Nat := 0x2078
abbrev BOOT_MLOG_ADDR_HI : Nat := 0x207C
abbrev BOOT_TIME : Nat := 0x2080
abbrev HOST_CTRL : Nat := 0x3040
abbrev HOST_STATUS : Nat := 0x3044
abbrev HOST_LINK_STATUS : Nat := 0x3048
abbrev HOST_LINK_CFG : Nat := 0x304C
abbrev HOST_LINK_ERR : Nat := 0x3050
abbrev HOST_BW_ALLOC : Nat := 0x3054
abbrev HOST_PCIE_STATUS : Nat := 0x3058
abbrev HOST_PCIE_ERR : Nat := 0x305C
abbrev HOST_UNSUP_LAST : Nat := 0x3060
abbrev HOST_UNSUP_COUNT : Nat := 0x3064
abbrev HOST_DP_CFG (i : Nat) : Nat := 0x3080 + 0x20 * i
abbrev HOST_DP_STATUS (i : Nat) : Nat := 0x3084 + 0x20 * i
abbrev HOST_DP_HACT (i : Nat) : Nat := 0x3088 + 0x20 * i
abbrev HOST_DP_VACT (i : Nat) : Nat := 0x308C + 0x20 * i
abbrev HOST_DP_PIXCLK (i : Nat) : Nat := 0x3090 + 0x20 * i
abbrev HOST_DP_FMT (i : Nat) : Nat := 0x3094 + 0x20 * i
abbrev HOST_DP_DSC (i : Nat) : Nat := 0x3098 + 0x20 * i
abbrev HOST_DP_ERR (i : Nat) : Nat := 0x309C + 0x20 * i
abbrev HOST_JOIN_CFG : Nat := 0x30C0
abbrev HOST_PR_STATUS : Nat := 0x30C4
abbrev HOST_USB2_STATUS : Nat := 0x30C8
abbrev HOST_USB2_ERR : Nat := 0x30CC
abbrev SKD_CTRL : Nat := 0x5040
abbrev SKD_STATUS : Nat := 0x5044
abbrev SKD_OP : Nat := 0x5048
abbrev SKD_SEQ_LOAD : Nat := 0x504C
abbrev SKD_MOVER_DED : Nat := 0x5050
abbrev SKD_MOVER_STATUS : Nat := 0x5054
abbrev SKD_CTX_SEL : Nat := 0x5058
abbrev SKD_CTX_DATA (i : Nat) : Nat := 0x505C + 4 * i
abbrev SKD_HOST_TMO : Nat := 0x507C
abbrev SKD_CH_CTRL (i : Nat) : Nat := 0x5100 + 0x10 * i
abbrev SKD_CH_RING (i : Nat) : Nat := 0x5104 + 0x10 * i
abbrev SKD_CH_TAIL (i : Nat) : Nat := 0x5108 + 0x10 * i
abbrev SKD_CH_STATUS (i : Nat) : Nat := 0x510C + 0x10 * i
abbrev DTU_CTRL : Nat := 0x6040
abbrev DTU_STATUS : Nat := 0x6044
abbrev DTU_ROOT_LO : Nat := 0x6048
abbrev DTU_ROOT_HI : Nat := 0x604C
abbrev DTU_INV_CTRL : Nat := 0x6050
abbrev DTU_INV_ADDR_LO : Nat := 0x6054
abbrev DTU_INV_ADDR_HI : Nat := 0x6058
abbrev DTU_INV_LEN : Nat := 0x605C
abbrev DTU_INV_STATUS : Nat := 0x6060
abbrev DTU_FAULT_ADDR_LO : Nat := 0x6064
abbrev DTU_FAULT_ADDR_HI : Nat := 0x6068
abbrev DTU_FAULT_INFO : Nat := 0x606C
abbrev DTU_PROBE_ADDR_LO : Nat := 0x6070
abbrev DTU_PROBE_ADDR_HI : Nat := 0x6074
abbrev DTU_PROBE_RES_LO : Nat := 0x6078
abbrev DTU_PROBE_RES_HI : Nat := 0x607C
abbrev DTU_TLB_HITS : Nat := 0x6080
abbrev DTU_TLB_MISSES : Nat := 0x6084
abbrev DTU_WALKS : Nat := 0x6088
abbrev DTU_CONT_COUNT : Nat := 0x608C
abbrev STORE_FRAME_CFG : Nat := 0x8040
abbrev STORE_FRAME_SURF : Nat := 0x8044
abbrev STORE_CMP_CHARGE : Nat := 0x8048
abbrev STORE_SURF_SEL : Nat := 0x804C
abbrev STORE_SURF_REC (i : Nat) : Nat := 0x8050 + 4 * i
abbrev STORE_SURF_OP : Nat := 0x806C
abbrev STORE_SURF_OP_RES : Nat := 0x8070
abbrev STORE_LOAD : Nat := 0x8074
abbrev STORE_SHOWN : Nat := 0x8078
abbrev STORE_SURF_STATE (i : Nat) : Nat := if i < 6 then 0x807C + 4 * i else 0x80AC + 4 * (i - 6)
abbrev STORE_DROP : Nat := 0x8094
abbrev STORE_REPEAT : Nat := 0x8098
abbrev STORE_SEALS : Nat := 0x809C
abbrev STORE_UNSEALED : Nat := 0x80A0
abbrev STORE_CMP_OVER : Nat := 0x80A4
abbrev STORE_BAD_TILE : Nat := 0x80A8
abbrev INGEST_CTRL : Nat := 0x9040
abbrev INGEST_STATUS : Nat := 0x9044
abbrev INGEST_SRC_CFG (i : Nat) : Nat := 0x9048 + 0x10 * i
abbrev INGEST_SRC_SET (i : Nat) : Nat := 0x904C + 0x10 * i
abbrev INGEST_SRC_STATUS (i : Nat) : Nat := 0x9050 + 0x10 * i
abbrev INGEST_SRC_LOST (i : Nat) : Nat := 0x9054 + 0x10 * i
abbrev INGEST_FAB_STREAM (i : Nat) : Nat := 0x90C8 + 4 * i
abbrev INGEST_NVME_NSID : Nat := 0x90D8
abbrev INGEST_NVME_LBA_LO : Nat := 0x90DC
abbrev INGEST_NVME_LBA_HI : Nat := 0x90E0
abbrev INGEST_NVME_STATUS : Nat := 0x90E4
abbrev INGEST_NVME_ERR : Nat := 0x90E8
abbrev INGEST_HFC_TAG : Nat := 0x90EC
abbrev INGEST_HFC_SRC : Nat := 0x90F0
abbrev INGEST_HFC_PUSH : Nat := 0x90F4
abbrev INGEST_HFC_MISMATCH : Nat := 0x90F8
abbrev INGEST_HFC_QSTAT : Nat := 0x90FC
abbrev WARP_CFG : Nat := 0xA040
abbrev WARP_OUT_SIZE : Nat := 0xA044
abbrev WARP_MESH_DIM : Nat := 0xA048
abbrev WARP_BLEND_CFG : Nat := 0xA04C
abbrev WARP_BLEND_LR : Nat := 0xA050
abbrev WARP_BLEND_TB : Nat := 0xA054
abbrev WARP_BLEND_ADDR_LO : Nat := 0xA058
abbrev WARP_BLEND_ADDR_HI : Nat := 0xA05C
abbrev WARP_SPILL_ADDR_LO : Nat := 0xA060
abbrev WARP_SPILL_ADDR_HI : Nat := 0xA064
abbrev WARP_SPILL_SIZE : Nat := 0xA068
abbrev WARP_PLAN : Nat := 0xA06C
abbrev WARP_PLAN_STATUS : Nat := 0xA070
abbrev WARP_PLAN_SPILL : Nat := 0xA074
abbrev WARP_PLAN_PEAK : Nat := 0xA078
abbrev WARP_STATUS : Nat := 0xA07C
abbrev WARP_SPILL_LOAD : Nat := 0xA080
abbrev WARP_SRC_READS : Nat := 0xA084
abbrev WARP_CACHE_SPILLS : Nat := 0xA088
abbrev WARP_MASKED : Nat := 0xA08C
abbrev COLOR_IN_CFG : Nat := 0xB040
abbrev COLOR_GAMMA : Nat := 0xB044
abbrev COLOR_SDR_GAIN : Nat := 0xB048
abbrev COLOR_LIN_GAIN : Nat := 0xB04C
abbrev COLOR_BASE_NITS : Nat := 0xB050
abbrev COLOR_HLG_PEAK : Nat := 0xB054
abbrev COLOR_GAMUT (i : Nat) : Nat := 0xB058 + 4 * i
abbrev COLOR_UNIF_CFG : Nat := 0xB07C
abbrev COLOR_UNIF_ADDR_LO : Nat := 0xB080
abbrev COLOR_UNIF_ADDR_HI : Nat := 0xB084
abbrev COLOR_LUT_CFG : Nat := 0xB088
abbrev COLOR_DEC_CFG : Nat := 0xB08C
abbrev COLOR_DEC_M (i : Nat) : Nat := 0xB090 + 4 * i
abbrev COLOR_HL_M (i : Nat) : Nat := 0xB0C0 + 4 * i
abbrev COLOR_PIPE_STATUS : Nat := 0xB0E4
abbrev COLOR_PIPE_TIME : Nat := 0xB0E8
abbrev COLOR_GAMUT_CLIP : Nat := 0xB0EC
abbrev COLOR_PIPE_SAT : Nat := 0xB0F0
abbrev HSB_SPLIT_CFG : Nat := 0x14040
abbrev HSB_SPLIT_THRESH : Nat := 0x14044
abbrev HSB_SPLIT_GMAX : Nat := 0x14048
abbrev HSB_HL_FULL : Nat := 0x1404C
abbrev HSB_HL_GRID : Nat := 0x14050
abbrev HSB_SPLIT_ROWS : Nat := 0x14054
abbrev HSB_SPLIT_LIMIT : Nat := 0x14058
abbrev HSB_SPLIT_STAT : Nat := 0x1405C
abbrev HSB_SPLIT_CELLS : Nat := 0x14060
abbrev HSB_BEAM_CFG : Nat := 0x14064
abbrev HSB_LB_BASE_LO : Nat := 0x14068
abbrev HSB_LB_BASE_HI : Nat := 0x1406C
abbrev HSB_PTAB_ADDR_LO : Nat := 0x14070
abbrev HSB_PTAB_ADDR_HI : Nat := 0x14074
abbrev HSB_BIDIR_TRIM : Nat := 0x14078
abbrev HSB_DAC_LEAD : Nat := 0x1407C
abbrev HSB_ZONE_W : Nat := 0x14080
abbrev HSB_PI_SEL : Nat := 0x14084
abbrev HSB_PI_DATA : Nat := 0x14088
abbrev HSB_STATUS : Nat := 0x1408C
abbrev HSB_CUT_FSN : Nat := 0x14090
abbrev HSB_ZONE_SEL : Nat := 0x14094
abbrev HSB_ZONE_STAT : Nat := 0x14098
abbrev HSB_CUTS : Nat := 0x1409C
abbrev HSB_ZONE_LIMITS : Nat := 0x140A0
abbrev BUCK_CFG : Nat := 0xC040
abbrev BUCK_STATUS : Nat := 0xC044
abbrev BUCK_DESC_SEL : Nat := 0xC048
abbrev BUCK_DESC_DATA (i : Nat) : Nat := 0xC04C + 4 * i
abbrev BUCK_SEALS : Nat := 0xC05C
abbrev BUCK_SUPERSEDED : Nat := 0xC060
abbrev BUCK_OVERRUN : Nat := 0xC064
abbrev BUCK_PORT_CFG (i : Nat) : Nat := 0xC080 + 0x20 * i
abbrev BUCK_DECK_BASE_LO (i : Nat) : Nat := 0xC084 + 0x20 * i
abbrev BUCK_DECK_BASE_HI (i : Nat) : Nat := 0xC088 + 0x20 * i
abbrev BUCK_SET_BYTES (i : Nat) : Nat := 0xC08C + 0x20 * i
abbrev BUCK_SET_STATE (i : Nat) : Nat := 0xC090 + 0x20 * i
abbrev BUCK_SHOW_FSN (i : Nat) : Nat := 0xC094 + 0x20 * i
abbrev BUCK_SEAL_FSN (i : Nat) : Nat := 0xC098 + 0x20 * i
abbrev BUCK_SEAL_SLACK (i : Nat) : Nat := 0xC09C + 0x20 * i
abbrev SEQ_CTRL : Nat := 0xD040
abbrev SEQ_STATUS : Nat := 0xD044
abbrev SEQ_KERF : Nat := 0xD048
abbrev SEQ_PHASE_STEP : Nat := 0xD04C
abbrev SEQ_PROBE_CFG : Nat := 0xD050
abbrev SEQ_LIN_TOL : Nat := 0xD054
abbrev SEQ_CAL_ADDR : Nat := 0xD058
abbrev SEQ_CAL_DATA : Nat := 0xD05C
abbrev SEQ_CHECK : Nat := 0xD060
abbrev SEQ_CHECK_RES : Nat := 0xD064
abbrev SEQ_VAL_TIME : Nat := 0xD068
abbrev SEQ_LG_CFG (i : Nat) : Nat := 0xD080 + 0x20 * i
abbrev SEQ_LG_STATUS (i : Nat) : Nat := 0xD084 + 0x20 * i
abbrev SEQ_LOAD_NS (i : Nat) : Nat := 0xD088 + 0x20 * i
abbrev SEQ_STAGE_DEPTH (i : Nat) : Nat := 0xD08C + 0x20 * i
abbrev SEQ_LIN_ERR (i : Nat) : Nat := 0xD090 + 0x20 * i
abbrev SEQ_LOAD_MARGIN (i : Nat) : Nat := 0xD094 + 0x20 * i
abbrev SEQ_END_MARGIN (i : Nat) : Nat := 0xD098 + 0x20 * i
abbrev SEQ_RUNS (i : Nat) : Nat := 0xD09C + 0x20 * i
abbrev SEQ_CAL_SWITCHES (i : Nat) : Nat := 0xD100 + 4 * i
abbrev SEQ_NATIVE_MISMATCH (i : Nat) : Nat := 0xD110 + 4 * i
abbrev MA_CFG (p : Nat) : Nat := 0xE040 + 0x1000 * p
abbrev MA_GEOM (p : Nat) : Nat := 0xE044 + 0x1000 * p
abbrev MA_STATUS (p : Nat) : Nat := 0xE048 + 0x1000 * p
abbrev MA_LINK_STATUS (p : Nat) : Nat := 0xE04C + 0x1000 * p
abbrev MA_LANE_POL (p : Nat) : Nat := 0xE050 + 0x1000 * p
abbrev MA_CTRL (p : Nat) : Nat := 0xE054 + 0x1000 * p
abbrev MA_IDENT0 (p : Nat) : Nat := 0xE058 + 0x1000 * p
abbrev MA_IDENT1 (p : Nat) : Nat := 0xE05C + 0x1000 * p
abbrev MA_IDENT2 (p : Nat) : Nat := 0xE060 + 0x1000 * p
abbrev MA_MODE (p i : Nat) : Nat := 0xE064 + 0x1000 * p + 4 * i
abbrev MA_ARRAY_TEMP (p : Nat) : Nat := 0xE074 + 0x1000 * p
abbrev MA_ARRAY_STATUS (p : Nat) : Nat := 0xE078 + 0x1000 * p
abbrev MA_FIFO_LEVEL (p : Nat) : Nat := 0xE07C + 0x1000 * p
abbrev MA_CHK_CFG (p : Nat) : Nat := 0xE080 + 0x1000 * p
abbrev MA_CHK_SEL (p : Nat) : Nat := 0xE084 + 0x1000 * p
abbrev MA_CHK_DATA (p i : Nat) : Nat := 0xE088 + 0x1000 * p + 4 * i
abbrev MA_ABORT_INFO (p : Nat) : Nat := 0xE09C + 0x1000 * p
abbrev MA_ABORT_FSN (p : Nat) : Nat := 0xE0A0 + 0x1000 * p
abbrev MA_REPEATS (p : Nat) : Nat := 0xE0A4 + 0x1000 * p
abbrev MA_ABORTS (p : Nat) : Nat := 0xE0A8 + 0x1000 * p
abbrev MA_CHK_MISMATCH (p : Nat) : Nat := 0xE0AC + 0x1000 * p
abbrev MA_ACK_MISSING (p : Nat) : Nat := 0xE0B0 + 0x1000 * p
abbrev MA_RDY_MISS (p : Nat) : Nat := 0xE0B4 + 0x1000 * p
abbrev MA_BC_ERR (p : Nat) : Nat := 0xE0B8 + 0x1000 * p
abbrev HSF_CFG : Nat := 0x12040
abbrev HSF_STATUS : Nat := 0x12044
abbrev HSF_SWEEP_START : Nat := 0x12048
abbrev HSF_SWEEP_END : Nat := 0x1204C
abbrev HSF_SWEEP_CFG : Nat := 0x12050
abbrev HSF_DRV_PHASE : Nat := 0x12054
abbrev HSF_AMP_SET : Nat := 0x12058
abbrev HSF_AMP_RAMP : Nat := 0x1205C
abbrev HSF_LOCK_CFG : Nat := 0x12060
abbrev HSF_SENSE_DELAY : Nat := 0x12064
abbrev HSF_PHASE_TRIM : Nat := 0x12068
abbrev HSF_RELOCK : Nat := 0x1206C
abbrev HSF_FREQ : Nat := 0x12070
abbrev HSF_PINC : Nat := 0x12074
abbrev HSF_AMP : Nat := 0x12078
abbrev HSF_PHASE_ERR : Nat := 0x1207C
abbrev HSF_ANGLE : Nat := 0x12080
abbrev HSF_LOCK_TIME : Nat := 0x12084
abbrev HSF_SWEEP_RESULT : Nat := 0x12088
abbrev HSF_LINES : Nat := 0x1208C
abbrev HSF_LOCK_LOSS : Nat := 0x12090
abbrev HSS_CFG : Nat := 0x13040
abbrev HSS_STATUS : Nat := 0x13044
abbrev HSS_ROWMAP_ADDR_LO : Nat := 0x13048
abbrev HSS_ROWMAP_ADDR_HI : Nat := 0x1304C
abbrev HSS_JMAX : Nat := 0x13050
abbrev HSS_AMAX : Nat := 0x13054
abbrev HSS_VMAX : Nat := 0x13058
abbrev HSS_ROW_TOL : Nat := 0x1305C
abbrev HSS_STALL_CFG : Nat := 0x13060
abbrev HSS_PARK_POS : Nat := 0x13064
abbrev HSS_POS_CMD : Nat := 0x13068
abbrev HSS_POS_MEAS : Nat := 0x1306C
abbrev HSS_VEL : Nat := 0x13070
abbrev HSS_ACC : Nat := 0x13074
abbrev HSS_TARGET : Nat := 0x13078
abbrev HSS_ETA : Nat := 0x1307C
abbrev HSS_FRAME_ETA : Nat := 0x13080
abbrev HSS_PLAN : Nat := 0x13084
abbrev HSS_TRACK_ERR : Nat := 0x13088
abbrev HSS_ROWS_DRAWN : Nat := 0x1308C
abbrev HSS_ROW_UNREACHED : Nat := 0x13090
abbrev HSS_ROW_SETTLE : Nat := 0x13094
abbrev HSS_SETPOINT_RATE : Nat := 0x13098
abbrev LSG_CFG : Nat := 0x15040
abbrev LSG_STATUS : Nat := 0x15044
abbrev LSG_PI_BASE_LO : Nat := 0x15048
abbrev LSG_PI_BASE_HI : Nat := 0x1504C
abbrev LSG_PI_CHECK : Nat := 0x15050
abbrev LSG_DIM_LIM : Nat := 0x15054
abbrev LSG_SOFT_START : Nat := 0x15058
abbrev LSG_TAKEOVER : Nat := 0x1505C
abbrev LSG_DIAG_CFG : Nat := 0x15060
abbrev LSG_DIM (i : Nat) : Nat := 0x15064 + 4 * i
abbrev LSG_GROUP_SEL : Nat := 0x15078
abbrev LSG_GROUP_STAT : Nat := 0x1507C
abbrev LS_STR_CFG (n : Nat) : Nat := 0x16040 + 0x1000 * (n / 24) + 0x20 * (n % 24)
abbrev LS_STR_LIMIT (n : Nat) : Nat := 0x16044 + 0x1000 * (n / 24) + 0x20 * (n % 24)
abbrev LS_STR_MODEL (n : Nat) : Nat := 0x16048 + 0x1000 * (n / 24) + 0x20 * (n % 24)
abbrev LS_STR_STATUS (n : Nat) : Nat := 0x1604C + 0x1000 * (n / 24) + 0x20 * (n % 24)
abbrev LS_STR_MEAS (n : Nat) : Nat := 0x16050 + 0x1000 * (n / 24) + 0x20 * (n % 24)
abbrev LS_WINNER (n : Nat) : Nat := 0x16054 + 0x1000 * (n / 24) + 0x20 * (n % 24)
abbrev CHAIN_CFG : Nat := 0x18040
abbrev CHAIN_STATUS : Nat := 0x18044
abbrev CHAIN_SLICES (i : Nat) : Nat := 0x18048 + 4 * i
abbrev CHAIN_MEM_SEL : Nat := 0x18058
abbrev CHAIN_MEM_DATA : Nat := 0x1805C
abbrev CHAIN_MEM_STAT : Nat := 0x18060
abbrev CHAIN_SLICE_CFG : Nat := 0x18064
abbrev CHAIN_CMD : Nat := 0x18068
abbrev CHAIN_CRC_ERR (i : Nat) : Nat := 0x1806C + 4 * i
abbrev CHAIN_BREAKS (i : Nat) : Nat := 0x1807C + 4 * i
abbrev CHAIN_TIME_MARGIN : Nat := 0x1808C
abbrev CHAIN_STALE (i : Nat) : Nat := 0x18090 + 4 * i
abbrev CPE_STATUS : Nat := 0x19040
abbrev CPE_AUX_EN : Nat := 0x19044
abbrev CPE_LOOP_SEL : Nat := 0x19048
abbrev CPE_LOOP_DATA : Nat := 0x1904C
abbrev CPE_HANDOVER_STR : Nat := 0x19050
abbrev CPE_HANDOVER_HS : Nat := 0x19054
abbrev CPE_SAT_LIMIT : Nat := 0x19058
abbrev CPE_THERM_SLEW : Nat := 0x1905C
abbrev CPE_EYE_CAP (i : Nat) : Nat := 0x19060 + 4 * i
abbrev CPE_SUPPLY_MAP (i : Nat) : Nat := 0x19074 + 4 * i
abbrev CPE_SUPPLY_LIM (i : Nat) : Nat := 0x19080 + 4 * i
abbrev CPE_OPT_STATUS (i : Nat) : Nat := 0x19090 + 4 * i
abbrev CPE_SUPPLY_STATUS (i : Nat) : Nat := 0x190A0 + 4 * i
abbrev CPE_HANDOVER_STAT : Nat := 0x190B0
abbrev CPE_TURNS : Nat := 0x190B4
abbrev CPE_SKIPS : Nat := 0x190B8
abbrev CPE_MEAS_INVALID : Nat := 0x190BC
abbrev CPE_ECC_CORR : Nat := 0x190C0
abbrev CPE_ECC_UNCORR : Nat := 0x190C4
abbrev OPT_CTRL : Nat := 0x1A040
abbrev OPT_STATUS : Nat := 0x1A044
abbrev OPT_PD_CFG (i : Nat) : Nat := 0x1A048 + 4 * i
abbrev OPT_PAIR (i : Nat) : Nat := 0x1A068 + 4 * i
abbrev OPT_AMB_LIM : Nat := 0x1A078
abbrev OPT_AVG : Nat := 0x1A07C
abbrev OPT_MAT_STEP : Nat := 0x1A080
abbrev OPT_CONS_CFG : Nat := 0x1A084
abbrev OPT_CONS_WHITE : Nat := 0x1A088
abbrev OPT_CONS_NOM (i : Nat) : Nat := 0x1A08C + 4 * i
abbrev OPT_EST_SEL : Nat := 0x1A098
abbrev OPT_EST_XY : Nat := 0x1A09C
abbrev OPT_EST_LAMBDA : Nat := 0x1A0A0
abbrev OPT_EST_FLUX : Nat := 0x1A0A4
abbrev OPT_TARGET_SEL : Nat := 0x1A0A8
abbrev OPT_TARGET_XY : Nat := 0x1A0AC
abbrev OPT_TARGET_PEAK : Nat := 0x1A0B0
abbrev OPT_CONS_STATUS : Nat := 0x1A0B4
abbrev OPT_CONS_EPOCH : Nat := 0x1A0B8
abbrev OPT_MAT_SEL : Nat := 0x1A0BC
abbrev OPT_MAT_DATA : Nat := 0x1A0C0
abbrev OPT_PD_SEL : Nat := 0x1A0C4
abbrev OPT_PD_LAST : Nat := 0x1A0C8
abbrev OPT_CONS_LATE : Nat := 0x1A0CC
abbrev OPT_CONS_MISMATCH : Nat := 0x1A0D0
abbrev OPT_PD_SAT : Nat := 0x1A0D4
abbrev TRIM_CTRL : Nat := 0x1B040
abbrev TRIM_STATUS : Nat := 0x1B044
abbrev TRIM_RESULT : Nat := 0x1B048
abbrev TRIM_QUALITY : Nat := 0x1B04C
abbrev TRIM_QUALITY2 : Nat := 0x1B050
abbrev TRIM_AGREE : Nat := 0x1B054
abbrev TRIM_QLIM : Nat := 0x1B058
abbrev TRIM_TIMEOUT : Nat := 0x1B05C
abbrev TRIM_UNIT (i : Nat) : Nat := 0x1B060 + 4 * i
abbrev TRIM_HL_SEL : Nat := 0x1B070
abbrev TRIM_HL_XY : Nat := 0x1B074
abbrev TRIM_HL_FLUX : Nat := 0x1B078
abbrev TRIM_RUNS : Nat := 0x1B07C
abbrev TRIM_REFUSED : Nat := 0x1B080
abbrev THERM_CTRL : Nat := 0x1C040
abbrev THERM_STATUS : Nat := 0x1C044
abbrev THERM_DIE_TEMP : Nat := 0x1C048
abbrev THERM_DIE_THR : Nat := 0x1C04C
abbrev THERM_LASER_THR : Nat := 0x1C050
abbrev THERM_LASER_THROT : Nat := 0x1C054
abbrev THERM_TS_VALID : Nat := 0x1C058
abbrev THERM_NTC_VALID : Nat := 0x1C05C
abbrev THERM_LASER_STATE : Nat := 0x1C060
abbrev THERM_LASER_HOLD : Nat := 0x1C064
abbrev THERM_DRAM_CFG : Nat := 0x1C068
abbrev THERM_DIE_THROTTLES : Nat := 0x1C06C
abbrev THERM_LASER_THROTTLES : Nat := 0x1C070
abbrev THERM_SENSOR_FAULTS : Nat := 0x1C074
abbrev THERM_LAST_SD (i : Nat) : Nat := 0x1C078 + 4 * i
abbrev THERM_NTC_LUT_SEL : Nat := 0x1C088
abbrev THERM_NTC_LUT_DATA : Nat := 0x1C08C
abbrev THERM_MG_SEL : Nat := 0x1C090
abbrev THERM_MG_DATA : Nat := 0x1C094
abbrev THERM_STR_MG (i : Nat) : Nat := 0x1C098 + 4 * i
abbrev THERM_SLICE_SEL : Nat := 0x1C0B0
abbrev THERM_SLICE_MG : Nat := 0x1C0B4
abbrev THERM_TS (i : Nat) : Nat := 0x1C0C0 + 4 * i
abbrev THERM_NTC (i : Nat) : Nat := 0x1C100 + 4 * i
abbrev DMC_FREQ_CFG : Nat := 0x1D040
abbrev DMC_FREQ_STATUS : Nat := 0x1D044
abbrev DMC_SCHED_CFG : Nat := 0x1D048
abbrev DMC_WQ_MARK : Nat := 0x1D04C
abbrev DMC_SLACK_CFG : Nat := 0x1D050
abbrev DMC_SCHED_DWELL : Nat := 0x1D054
abbrev DMC_FREQ_SLACK : Nat := 0x1D058
abbrev DMC_REF_CFG : Nat := 0x1D05C
abbrev DMC_TRIM_CFG : Nat := 0x1D060
abbrev DMC_SCRUB_CFG : Nat := 0x1D064
abbrev DMC_GR_SEL : Nat := 0x1D068
abbrev DMC_GR_BASE : Nat := 0x1D06C
abbrev DMC_GR_CFG : Nat := 0x1D070
abbrev DMC_GR_STATUS : Nat := 0x1D074
abbrev DMC_SWEEP_STATUS : Nat := 0x1D078
abbrev DMC_ECC_CE : Nat := 0x1D07C
abbrev DMC_ECC_UE : Nat := 0x1D080
abbrev DMC_UE_ADDR_LO : Nat := 0x1D084
abbrev DMC_UE_ADDR_HI : Nat := 0x1D088
abbrev DMC_FREQ_CHANGES : Nat := 0x1D08C
abbrev DMC_SCRUB_PROGRESS : Nat := 0x1D090
abbrev DMCP_CFG (i : Nat) : Nat := 0x1E040 + 0x20 * i
abbrev DMCP_STATUS (i : Nat) : Nat := 0x1E044 + 0x20 * i
abbrev DMCP_LOAD (i : Nat) : Nat := 0x1E048 + 0x20 * i
abbrev DMCP_SLACK (i : Nat) : Nat := 0x1E04C + 0x20 * i
abbrev DMCP_TRIM (i : Nat) : Nat := 0x1E050 + 0x20 * i
abbrev DMCP_ECC_CE (i : Nat) : Nat := 0x1E054 + 0x20 * i
abbrev DMCP_ECC_UE (i : Nat) : Nat := 0x1E058 + 0x20 * i
abbrev DMCP_SR_ENTRIES (i : Nat) : Nat := 0x1E05C + 0x20 * i
abbrev SEED_CTRL : Nat := 0x1F040
abbrev SEED_STATUS : Nat := 0x1F044
abbrev SEED_WR_PROGRESS : Nat := 0x1F048
abbrev SEED_SEL : Nat := 0x1F04C
abbrev SEED_SLOT_A : Nat := 0x1F050
abbrev SEED_SEQ_A : Nat := 0x1F054
abbrev SEED_SLOT_B : Nat := 0x1F058
abbrev SEED_SEQ_B : Nat := 0x1F05C
abbrev SEED_WRITES : Nat := 0x1F060
abbrev SEED_ABANDONED : Nat := 0x1F064
abbrev SEED_CHK_ONLY : Nat := 0x1F068
abbrev SEED_ECC_CORR : Nat := 0x1F06C
abbrev SEED_ECC_UNCORR : Nat := 0x1F070
abbrev SEED_LAST_PF (i : Nat) : Nat := 0x1F074 + 4 * i
abbrev SEED_SCRUB_PROGRESS : Nat := 0x1F080
abbrev TRUST_STATUS : Nat := 0x20040
abbrev TRUST_M_SEL : Nat := 0x20044
abbrev TRUST_M_DATA : Nat := 0x20048
abbrev TRUST_JTAG_CTRL : Nat := 0x2004C
abbrev TRUST_JTAG_SEL : Nat := 0x20050
abbrev TRUST_JTAG_DATA : Nat := 0x20054
abbrev TRUST_JTAG_STATUS : Nat := 0x20058
abbrev TRUST_SIGNS : Nat := 0x2005C
abbrev TRUST_VERIFIES : Nat := 0x20060
abbrev TRUST_VERIFY_FAILS : Nat := 0x20064
abbrev TRUST_RSA_WAIT : Nat := 0x20068
abbrev TRUST_CERT_LEN : Nat := 0x2006C
abbrev WPX_CFG : Nat := 0x21040
abbrev WPX_STATUS : Nat := 0x21044
abbrev WPX_ADDR : Nat := 0x21048
abbrev WPX_ROOT_UID_LO : Nat := 0x2104C
abbrev WPX_ROOT_UID_HI : Nat := 0x21050
abbrev WPX_NAMED_ROOT_LO : Nat := 0x21054
abbrev WPX_NAMED_ROOT_HI : Nat := 0x21058
abbrev WPX_ADMIT_CFG : Nat := 0x2105C
abbrev WPX_ALLOW_ADDR_LO : Nat := 0x21060
abbrev WPX_ALLOW_ADDR_HI : Nat := 0x21064
abbrev WPX_ALLOW_COUNT : Nat := 0x21068
abbrev WPX_TIME_CFG : Nat := 0x2106C
abbrev WPX_TIME_STATUS : Nat := 0x21070
abbrev WPX_ROUTE_CFG : Nat := 0x21074
abbrev WPX_GROUP_JOIN (i : Nat) : Nat := 0x21078 + 4 * i
abbrev WPX_NODES : Nat := 0x21098
abbrev WPX_RX_BASE_LO : Nat := 0x2109C
abbrev WPX_RX_BASE_HI : Nat := 0x210A0
abbrev WPX_RX_HEAD : Nat := 0x210A4
abbrev WPX_RX_TAIL : Nat := 0x210A8
abbrev WPX_LSA_SEQ : Nat := 0x210AC
abbrev WPX_MAP_SEQ : Nat := 0x210B0
abbrev WPX_CONVERGE_TIME : Nat := 0x210B4
abbrev WPX_RX_DROPS : Nat := 0x210B8
abbrev WPX_TREE_DROPS : Nat := 0x210BC
abbrev WPX_HOP_DROPS : Nat := 0x210C0
abbrev WPXP_CFG (p : Nat) : Nat := 0x22040 + 0x1000 * p
abbrev WPXP_STATUS (p : Nat) : Nat := 0x22044 + 0x1000 * p
abbrev WPXP_NBR_UID_LO (p : Nat) : Nat := 0x22048 + 0x1000 * p
abbrev WPXP_NBR_UID_HI (p : Nat) : Nat := 0x2204C + 0x1000 * p
abbrev WPXP_NBR_ADDR (p : Nat) : Nat := 0x22050 + 0x1000 * p
abbrev WPXP_ASYM (p : Nat) : Nat := 0x22054 + 0x1000 * p
abbrev WPXP_DELAY (p : Nat) : Nat := 0x22058 + 0x1000 * p
abbrev WPXP_FIXED_DELAY (p : Nat) : Nat := 0x2205C + 0x1000 * p
abbrev WPXP_RETRY_CFG (p : Nat) : Nat := 0x22060 + 0x1000 * p
abbrev WPXP_CTRL_SHARE (p : Nat) : Nat := 0x22064 + 0x1000 * p
abbrev WPXP_CREDIT_SEL (p : Nat) : Nat := 0x22068 + 0x1000 * p
abbrev WPXP_CREDIT_TX (p : Nat) : Nat := 0x2206C + 0x1000 * p
abbrev WPXP_CREDIT_RX (p : Nat) : Nat := 0x22070 + 0x1000 * p
abbrev WPXP_CREDIT_HOLD (p : Nat) : Nat := 0x22074 + 0x1000 * p
abbrev WPXP_LSEQ (p : Nat) : Nat := 0x22078 + 0x1000 * p
abbrev WPXP_REPLAY (p : Nat) : Nat := 0x2207C + 0x1000 * p
abbrev WPXP_MODULE (p : Nat) : Nat := 0x22080 + 0x1000 * p
abbrev WPXP_FEC_CORR (p : Nat) : Nat := 0x22084 + 0x1000 * p
abbrev WPXP_FEC_UNCORR (p : Nat) : Nat := 0x22088 + 0x1000 * p
abbrev WPXP_CRC_ERR (p : Nat) : Nat := 0x2208C + 0x1000 * p
abbrev WPXP_RETRIES (p : Nat) : Nat := 0x22090 + 0x1000 * p
abbrev WPXP_RETRAINS (p : Nat) : Nat := 0x22094 + 0x1000 * p
abbrev WPXP_CREDIT_DRIFT (p : Nat) : Nat := 0x22098 + 0x1000 * p
abbrev ROUTE_STATUS : Nat := 0x26040
abbrev ROUTE_LAST_TIME : Nat := 0x26044
abbrev ROUTE_REACH : Nat := 0x26048
abbrev ROUTE_PROBE : Nat := 0x2604C
abbrev ROUTE_PROBE_RES : Nat := 0x26050
abbrev ROUTE_SWAPS : Nat := 0x26054
abbrev ROUTE_ALT_USED : Nat := 0x26058
abbrev ROUTE_UNREACH : Nat := 0x2605C
abbrev ROUTE_LSA_IN : Nat := 0x26060
abbrev ROUTE_LSA_OUT : Nat := 0x26064
abbrev CUE_CFG : Nat := 0x27040
abbrev CUE_STATUS : Nat := 0x27044
abbrev CUE_ACT_BASE_LO : Nat := 0x27048
abbrev CUE_ACT_BASE_HI : Nat := 0x2704C
abbrev CUE_FAB_FIRST : Nat := 0x27050
abbrev CUE_FAB_LAST : Nat := 0x27054
abbrev CUE_FINE_TOL : Nat := 0x27058
abbrev CUE_OP : Nat := 0x2705C
abbrev CUE_ARMED : Nat := 0x27060
abbrev CUE_NEXT_LO : Nat := 0x27064
abbrev CUE_NEXT_HI : Nat := 0x27068
abbrev CUE_NEXT_IDX : Nat := 0x2706C
abbrev CUE_FB_LOAD : Nat := 0x27070
abbrev CUE_FINE_TOKENS : Nat := 0x27074
abbrev CUE_FIRED : Nat := 0x27078
abbrev CUE_LATE : Nat := 0x2707C
abbrev CUE_MISSED : Nat := 0x27080
abbrev CUE_FAB_RX : Nat := 0x27084
abbrev CUE_WRITE_REFUSED : Nat := 0x27088
abbrev HOLD_CFG : Nat := 0x28040
abbrev HOLD_STATUS : Nat := 0x28044
abbrev HOLD_RING_BASE_LO : Nat := 0x28048
abbrev HOLD_RING_BASE_HI : Nat := 0x2804C
abbrev HOLD_RING_SIZE : Nat := 0x28050
abbrev HOLD_SLOT_SIZE : Nat := 0x28054
abbrev HOLD_PLAY_SET : Nat := 0x28058
abbrev HOLD_RING_STATUS : Nat := 0x2805C
abbrev HOLD_REC_INDEX : Nat := 0x28060
abbrev HOLD_PLAY_POS : Nat := 0x28064
abbrev HOLD_CMD : Nat := 0x28068
abbrev HOLDOVER_ENTRIES : Nat := 0x2806C
abbrev HOLD_FRAMES : Nat := 0x28070
abbrev HOLD_REC_DROP : Nat := 0x28074
abbrev HOLD_PLAY_ERR : Nat := 0x28078
abbrev HOLD_ANCHOR_LO : Nat := 0x2807C
abbrev HOLD_ANCHOR_HI : Nat := 0x28080
abbrev CHK_CFG (i : Nat) : Nat := 0x29040 + 0x20 * i
abbrev CHK_PSEL (i : Nat) : Nat := 0x29044 + 0x20 * i
abbrev CHK_PLO (i : Nat) : Nat := 0x29048 + 0x20 * i
abbrev CHK_PHI (i : Nat) : Nat := 0x2904C + 0x20 * i
abbrev CHK_TAG (i : Nat) : Nat := 0x29050 + 0x20 * i
abbrev CHK_LEN (i : Nat) : Nat := 0x29054 + 0x20 * i
abbrev CHK_FEED (i : Nat) : Nat := 0x29058 + 0x20 * i
abbrev CHK_STATUS (i : Nat) : Nat := 0x2905C + 0x20 * i
abbrev TALLY_SNAP_LO (i : Nat) : Nat := 0x2A040 + 8 * i
abbrev TALLY_SNAP_HI (i : Nat) : Nat := 0x2A044 + 8 * i
abbrev TALLY_CTRL : Nat := 0x2A240
abbrev TALLY_STATUS : Nat := 0x2A244
abbrev TALLY_SNAP_FSN : Nat := 0x2A248
abbrev TALLY_SNAP_FT_LO : Nat := 0x2A24C
abbrev TALLY_SNAP_FT_HI : Nat := 0x2A250
abbrev TALLY_SEL : Nat := 0x2A254
abbrev TALLY_CFG : Nat := 0x2A258
abbrev FAULT_STATUS : Nat := 0x2B040
abbrev FAULT_INPUTS : Nat := 0x2B044
abbrev FAULT_SAFE_CAUSE : Nat := 0x2B048
abbrev FAULT_REC_SEL : Nat := 0x2B04C
abbrev FAULT_REC_DATA (i : Nat) : Nat := 0x2B050 + 4 * i
abbrev FAULT_OPEN_COUNT : Nat := 0x2B070
abbrev FAULT_NEXT_FID : Nat := 0x2B074
abbrev FAULT_C0_COUNT : Nat := 0x2B078
abbrev FAULT_REC_LOST : Nat := 0x2B07C
abbrev FAULT_SV_STATUS : Nat := 0x2B080
abbrev FAULT_AVAIL_CFG : Nat := 0x2B084
abbrev FAULT_SHOW_TIME : Nat := 0x2B088
abbrev FAULT_LOST_TIME : Nat := 0x2B08C
abbrev FAULT_LOST_FRAMES : Nat := 0x2B090
abbrev FAULT_EXCL_TIME : Nat := 0x2B094
abbrev FAULT_CONSERVE : Nat := 0x2B098

end R

/-- Table 3.3, the page head (R88). -/
def headRows : List RegRow :=
  [⟨0, 1, 4, .ro, 0, 0, 0, []⟩,
   ⟨4, 1, 4, .rw, 5, 0, 1, []⟩,
   ⟨8, 1, 4, .ro, 0, 0, 1, []⟩,
   ⟨0xC, 1, 4, .w1c, 0, 0xFFFFFFFF, 0, []⟩,
   ⟨0x10, 1, 4, .rw, 0xFFFFFFFF, 0, 0, []⟩,
   ⟨0x14, 1, 4, .wo, 0, 0, 0, []⟩,
   ⟨0x18, 1, 4, .w1s, 0, 0, 0, []⟩,
   ⟨0x1C, 1, 4, .ro, 0, 0, 0, []⟩,
   ⟨0x20, 1, 4, .w1c, 0, 0xFFFF003F, 0, []⟩,
   ⟨0x24, 1, 4, .ro, 0, 0, 0, []⟩,
   ⟨0x28, 1, 4, .ro, 0, 0, 0, []⟩,
   ⟨0x2C, 1, 4, .rw, 3, 0, 0, []⟩]

/-- Table 2.9: page 0x07. -/
def table07 : List RegRow :=
  [⟨0x40, 1, 4, .rw, 0xFFFF, 0, 0xA00, [⟨2, 2, [(0, 2)], none⟩, ⟨4, 2, [(0, 2)], none⟩, ⟨8, 8, [(1, 255)], none⟩]⟩,
   ⟨0x44, 1, 4, .ro, 0, 0, 8, []⟩,
   ⟨0x48, 1, 4, .ro, 0, 0, 0, []⟩,
   ⟨0x4C, 1, 4, .ro, 0, 0, 0, []⟩,
   ⟨0x50, 1, 4, .ro, 0, 0, 0, []⟩,
   ⟨0x54, 1, 4, .ro, 0, 0, 0, []⟩,
   ⟨0x58, 1, 4, .ro, 0, 0, 0, []⟩,
   ⟨0x5C, 1, 4, .rw, 0xFF, 0, 0x32, [⟨0, 8, [(1, 200)], none⟩]⟩,
   ⟨0x60, 1, 4, .rw, 0xFFFFFFFF, 0, 0x186A0, []⟩,
   ⟨0x64, 1, 4, .rw, 0xFFFF, 0, 0xA, [⟨0, 16, [(1, 1000)], none⟩]⟩,
   ⟨0x68, 1, 4, .rw, 0xFFFF, 0, 0x3E8, [⟨0, 16, [(100, 60000)], none⟩]⟩,
   ⟨0x6C, 1, 4, .wo, 0, 0, 0, []⟩,
   ⟨0x70, 1, 4, .wo, 0, 0, 0, []⟩,
   ⟨0x74, 1, 4, .sh, 0xFFFFFFFF, 0, 0x17D7840, []⟩,
   ⟨0x78, 1, 4, .sh, 0xFFFFFFFF, 0, 0, []⟩,
   ⟨0x7C, 1, 4, .sh, 0xFFFFFFFF, 0, 3, []⟩,
   ⟨0x80, 1, 4, .sh, 0xFFFFFFFF, 0, 0, []⟩,
   ⟨0x84, 1, 4, .sh, 0xFFFFFFFF, 0, 0, []⟩,
   ⟨0x88, 1, 4, .sh, 1, 0, 0, []⟩,
   ⟨0x8C, 1, 4, .sh, 0xFFFFFFFF, 0, 0, []⟩,
   ⟨0x90, 1, 4, .sh, 0xFFFFFF, 0, 0, []⟩,
   ⟨0x94, 1, 4, .sh, 0x3FFFF, 0, 0x4E20, [⟨0, 18, [(5000, 200000)], none⟩]⟩,
   ⟨0x98, 1, 4, .ro, 0, 0, 0, []⟩,
   ⟨0x9C, 1, 4, .ro, 0, 0, 0, []⟩,
   ⟨0xA0, 1, 4, .ro, 0, 0, 0, []⟩,
   ⟨0xA4, 1, 4, .ro, 0, 0, 0, []⟩,
   ⟨0xA8, 1, 4, .ro, 0, 0, 0, []⟩,
   ⟨0xAC, 1, 4, .ro, 0, 0, 0, []⟩,
   ⟨0xB0, 1, 4, .ro, 0, 0, 0, []⟩,
   ⟨0xB4, 1, 4, .ro, 0, 0, 0, []⟩] ++
  [⟨0xB8, 1, 4, .ro, 0, 0, 0, []⟩,
   ⟨0xBC, 1, 4, .ro, 0, 0, 0, []⟩,
   ⟨0xC0, 1, 4, .rw, 0xFF0F, 0, 0x1400, [⟨2, 2, [(0, 2)], none⟩, ⟨8, 8, [(1, 255)], none⟩]⟩,
   ⟨0xC4, 1, 4, .ro, 0, 0, 0, []⟩,
   ⟨0xC8, 1, 4, .ro, 0, 0, 0, []⟩]

/-- Table 3.9: page 0x00. -/
def table00 : List RegRow :=
  [⟨0x40, 1, 4, .ro, 0, 0, 0x18640, []⟩,
   ⟨0x44, 1, 4, .ro, 0, 0, 0x7F, []⟩,
   ⟨0x48, 1, 4, .ro, 0, 0, 0, []⟩,
   ⟨0x4C, 1, 4, .ro, 0, 0, 0, []⟩,
   ⟨0x50, 1, 4, .ro, 0, 0, 0, []⟩,
   ⟨0x54, 1, 4, .ro, 0, 0, 0, []⟩,
   ⟨0x58, 1, 4, .cnt, 0, 0, 0, []⟩,
   ⟨0x5C, 1, 4, .cnt, 0, 0, 0, []⟩,
   ⟨0x60, 1, 4, .w1s, 0, 0, 0, []⟩,
   ⟨0x64, 1, 4, .rw, 0xFFFFFFFF, 0, 0, []⟩,
   ⟨0x68, 1, 4, .rw, 0xFFFFFFFF, 0, 0, []⟩,
   ⟨0x6C, 1, 4, .ro, 0, 0, 0, []⟩,
   ⟨0x70, 1, 4, .ro, 0, 0, 0, []⟩,
   ⟨0x74, 1, 4, .w1c, 0, 0x80000000, 0, []⟩,
   ⟨0x78, 1, 4, .ro, 0, 0, 0, []⟩,
   ⟨0x7C, 1, 4, .ro, 0, 0, 0, []⟩,
   ⟨0x80, 1, 4, .rw, 0xFFFFFFFF, 0, 0, []⟩,
   ⟨0x84, 1, 4, .rw, 0xFFFFFFFF, 0, 0, []⟩,
   ⟨0x88, 1, 4, .rw, 0xFE000000, 0, 0, []⟩,
   ⟨0x8C, 1, 4, .rw, 0xFFFF, 0, 0, []⟩,
   ⟨0x90, 1, 4, .rw, 5, 2, 0, []⟩,
   ⟨0x94, 1, 4, .rw, 0xFFFFFFFF, 0, 0, []⟩,
   ⟨0x98, 1, 4, .rw, 0xFFFFFFFF, 0, 0, []⟩]

/-- Table 3.12: page 0x2C. -/
def table2C : List RegRow :=
  [⟨0x40, 16, 4, .ro, 0, 0, 0, []⟩,
   ⟨0x80, 1, 4, .ro, 0, 0, 0, []⟩,
   ⟨0x84, 4, 4, .rw, 0xFFFFFFFF, 0, 0, []⟩,
   ⟨0x94, 1, 4, .rw, 0xFFFFFFFF, 0, 0, []⟩,
   ⟨0x98, 1, 4, .rw, 0xFFFFFFFF, 0, 0, []⟩,
   ⟨0x9C, 1, 4, .ro, 0, 0, 0, []⟩]

/-- Table 3.14: page 0x04. -/
def table04 : List RegRow :=
  [⟨0x40, 1, 4, .rw, 0xF, 0, 0, []⟩,
   ⟨0x44, 1, 4, .ro, 0, 0x38, 0, []⟩,
   ⟨0x48, 1, 4, .rw, 0xFFFFF000, 0, 0, []⟩,
   ⟨0x4C, 1, 4, .rw, 0xFFFFFFFF, 0, 0, []⟩,
   ⟨0x50, 1, 4, .rw, 0x1F, 0, 4, [⟨0, 5, [(4, 16)], none⟩]⟩,
   ⟨0x54, 1, 4, .rw, 0xFFFFFFFF, 0, 0, []⟩,
   ⟨0x58, 1, 4, .ro, 0, 0, 0, []⟩,
   ⟨0x5C, 1, 4, .ro, 0, 0, 0, []⟩,
   ⟨0x60, 1, 4, .ro, 0, 0, 0xFFFFFFFF, []⟩,
   ⟨0x64, 1, 4, .wo, 0, 0, 0, []⟩,
   ⟨0x68, 1, 4, .ro, 0, 0, 0, []⟩,
   ⟨0x6C, 1, 4, .rw, 0xFFFFF000, 0, 0, []⟩,
   ⟨0x70, 1, 4, .rw, 0xFFFFFFFF, 0, 0, []⟩,
   ⟨0x74, 1, 4, .rw, 0x1F, 0, 4, [⟨0, 5, [(4, 16)], none⟩]⟩,
   ⟨0x78, 1, 4, .rw, 0xFFFFFFFF, 0, 0, []⟩,
   ⟨0x7C, 1, 4, .ro, 0, 0, 0, []⟩,
   ⟨0x80, 1, 4, .ro, 0, 0, 0, []⟩,
   ⟨0x84, 1, 4, .cnt, 0, 0, 0, []⟩,
   ⟨0x88, 1, 4, .rw, 0xFFFFFFFF, 0, 1, []⟩,
   ⟨0x8C, 1, 4, .cnt, 0, 0, 0, []⟩]

/-- Table 4.13: page 0x01. -/
def table01 : List RegRow :=
  [⟨0x40, 1, 4, .ro, 0, 0, 0x12, []⟩,
   ⟨0x44, 1, 4, .w1c, 0, 0xFF, 1, []⟩,
   ⟨0x48, 1, 4, .wo, 0, 0, 0, []⟩,
   ⟨0x4C, 1, 4, .rw, 1, 0, 0, []⟩,
   ⟨0x50, 1, 4, .rw, 0x3FF00FF, 0, 0xA0064, [⟨0, 8, [(0, 150)], none⟩, ⟨16, 10, [(1, 1000)], none⟩]⟩,
   ⟨0x54, 1, 4, .ro, 0, 0, 0, []⟩,
   ⟨0x58, 1, 4, .cnt, 0, 0, 0, []⟩,
   ⟨0x5C, 1, 4, .ro, 0, 0, 0xFFF, []⟩,
   ⟨0x60, 1, 4, .w1c, 0, 0xFFF, 0, []⟩,
   ⟨0x64, 1, 4, .rw, 0xFFFF, 0, 0x64, [⟨0, 16, [(10, 10000)], none⟩]⟩,
   ⟨0x68, 1, 4, .wo, 0, 0, 0, []⟩,
   ⟨0x6C, 1, 4, .ro, 0, 0, 0, []⟩,
   ⟨0x70, 1, 4, .cnt, 0, 0, 0, []⟩,
   ⟨0x74, 1, 4, .cnt, 0, 0, 0, []⟩,
   ⟨0x78, 1, 4, .rw, 0xFFFFFFFF, 0, 0, []⟩,
   ⟨0x7C, 1, 4, .ro, 0, 0, 0, []⟩,
   ⟨0x80, 1, 4, .rw, 0xFF, 0, 0xA, [⟨0, 8, [(1, 255)], none⟩]⟩,
   ⟨0x84, 1, 4, .ro, 0, 0, 0, []⟩]

/-- Table 4.14: page 0x02. -/
def table02 : List RegRow :=
  [⟨0x40, 1, 4, .ro, 0, 0, 0, []⟩,
   ⟨0x44, 1, 4, .ro, 0, 0, 0, []⟩,
   ⟨0x48, 1, 4, .ro, 0, 0, 0, []⟩,
   ⟨0x4C, 1, 4, .ro, 0, 0, 0, []⟩,
   ⟨0x50, 1, 4, .ro, 0, 0, 0, []⟩,
   ⟨0x54, 1, 4, .ro, 0, 0, 0, []⟩,
   ⟨0x58, 1, 4, .ro, 0, 0, 0, []⟩,
   ⟨0x5C, 1, 4, .ro, 0, 0, 0, []⟩,
   ⟨0x60, 1, 4, .ro, 0, 0, 0, []⟩,
   ⟨0x64, 1, 4, .ro, 0, 0, 0, []⟩,
   ⟨0x68, 1, 4, .ro, 0, 0, 0, []⟩,
   ⟨0x6C, 1, 4, .ro, 0, 0, 0, []⟩,
   ⟨0x70, 1, 4, .ro, 0, 0, 0, []⟩,
   ⟨0x74, 1, 4, .ro, 0, 0, 0, []⟩,
   ⟨0x78, 1, 4, .ro, 0, 0, 0, []⟩,
   ⟨0x7C, 1, 4, .ro, 0, 0, 0, []⟩,
   ⟨0x80, 1, 4, .ro, 0, 0, 0, []⟩]

/-- Table 5.6: page 0x03. -/
def table03 : List RegRow :=
  [⟨0x40, 1, 4, .rw, 0xF, 0, 7, []⟩,
   ⟨0x44, 1, 4, .ro, 0, 0, 0, []⟩,
   ⟨0x48, 1, 4, .ro, 0, 0, 0, []⟩,
   ⟨0x4C, 1, 4, .rw, 3, 0, 3, []⟩,
   ⟨0x50, 1, 4, .cnt, 0, 0, 0, []⟩,
   ⟨0x54, 1, 4, .ro, 0, 0, 0, []⟩,
   ⟨0x58, 1, 4, .ro, 0, 0, 0, []⟩,
   ⟨0x5C, 1, 4, .cnt, 0, 0, 0, []⟩,
   ⟨0x60, 1, 4, .ro, 0, 0, 0, []⟩,
   ⟨0x64, 1, 4, .cnt, 0, 0, 0, []⟩,
   ⟨0x80, 2, 0x20, .rw, 0x3FF, 0, 0x334, [⟨0, 4, [(1, 2), (4, 4)], none⟩, ⟨4, 4, [(0, 3)], none⟩]⟩,
   ⟨0x84, 2, 0x20, .ro, 0, 0, 0, []⟩,
   ⟨0x88, 2, 0x20, .ro, 0, 0, 0, []⟩,
   ⟨0x8C, 2, 0x20, .ro, 0, 0, 0, []⟩,
   ⟨0x90, 2, 0x20, .ro, 0, 0, 0, []⟩,
   ⟨0x94, 2, 0x20, .ro, 0, 0, 0, []⟩,
   ⟨0x98, 2, 0x20, .ro, 0, 0, 0, []⟩,
   ⟨0x9C, 2, 0x20, .cnt, 0, 0, 0, []⟩,
   ⟨0xC0, 1, 4, .rw, 1, 0, 0, []⟩,
   ⟨0xC4, 1, 4, .ro, 0, 0, 0, []⟩,
   ⟨0xC8, 1, 4, .ro, 0, 0, 0, []⟩,
   ⟨0xCC, 1, 4, .cnt, 0, 0, 0, []⟩]

/-- Table 5.12: page 0x05. -/
def table05 : List RegRow :=
  [⟨0x40, 1, 4, .rw, 1, 0, 0, []⟩,
   ⟨0x44, 1, 4, .ro, 0, 3, 0, []⟩,
   ⟨0x48, 1, 4, .wo, 0, 0, 0, []⟩,
   ⟨0x4C, 1, 4, .rw, 0xFFFFFFFF, 0, 0, []⟩,
   ⟨0x50, 1, 4, .sh, 0xF1F1, 0, 0, []⟩,
   ⟨0x54, 1, 4, .ro, 0, 0, 0, []⟩,
   ⟨0x58, 1, 4, .rw, 0x1F, 0, 0, []⟩,
   ⟨0x5C, 8, 4, .ro, 0, 0, 0, []⟩,
   ⟨0x7C, 1, 4, .rw, 0x3FF, 0, 0x32, [⟨0, 10, [(1, 1000)], none⟩]⟩,
   ⟨0x100, 16, 0x10, .rw, 0x3FF, 0, 0, [⟨6, 4, [(4, 12)], none⟩]⟩,
   ⟨0x104, 16, 0x10, .rw, 0xFFFFFFFF, 0, 0, []⟩,
   ⟨0x108, 16, 0x10, .rw, 0xFFFF, 0, 0, []⟩,
   ⟨0x10C, 16, 0x10, .ro, 0, 0, 0, []⟩]

/-- Table 5.15: page 0x06. -/
def table06 : List RegRow :=
  [⟨0x40, 1, 4, .rw, 1, 0, 0, []⟩,
   ⟨0x44, 1, 4, .ro, 0, 0, 0, []⟩,
   ⟨0x48, 1, 4, .rw, 0xFFFFF000, 0, 0, []⟩,
   ⟨0x4C, 1, 4, .rw, 0xFFFF, 0, 0, []⟩,
   ⟨0x50, 1, 4, .wo, 0, 0, 0, []⟩,
   ⟨0x54, 1, 4, .rw, 0xFFFFF000, 0, 0, []⟩,
   ⟨0x58, 1, 4, .rw, 0xFFFF, 0, 0, []⟩,
   ⟨0x5C, 1, 4, .rw, 0xFFFFFFFF, 0, 0, []⟩,
   ⟨0x60, 1, 4, .ro, 0, 0, 0, []⟩,
   ⟨0x64, 1, 4, .ro, 0, 0, 0, []⟩,
   ⟨0x68, 1, 4, .ro, 0, 0, 0, []⟩,
   ⟨0x6C, 1, 4, .ro, 0, 0, 0, []⟩,
   ⟨0x70, 1, 4, .rw, 0xFFFFFFFF, 0, 0, []⟩,
   ⟨0x74, 1, 4, .rw, 0xFFFF, 0, 0, []⟩,
   ⟨0x78, 1, 4, .ro, 0, 0, 0, []⟩,
   ⟨0x7C, 1, 4, .ro, 0, 0, 0, []⟩,
   ⟨0x80, 1, 4, .cnt, 0, 0, 0, []⟩,
   ⟨0x84, 1, 4, .cnt, 0, 0, 0, []⟩,
   ⟨0x88, 1, 4, .cnt, 0, 0, 0, []⟩,
   ⟨0x8C, 1, 4, .cnt, 0, 0, 0, []⟩]

/-- Table 6.11: page 0x08. -/
def table08 : List RegRow :=
  [⟨0x40, 1, 4, .sh, 0x73, 0, 0, [⟨0, 2, [(0, 2)], none⟩]⟩,
   ⟨0x44, 1, 4, .sh, 0x3F, 0, 0, []⟩,
   ⟨0x48, 1, 4, .sh, 0x1F, 0, 0x10, [⟨0, 5, [(4, 16)], none⟩]⟩,
   ⟨0x4C, 1, 4, .rw, 0x3F, 0, 0, []⟩,
   ⟨0x50, 1, 4, .rw, 0xFFFFF000, 0, 0, []⟩,
   ⟨0x54, 1, 4, .rw, 0xFFFF, 0, 0, []⟩,
   ⟨0x58, 1, 4, .rw, 0xFFFFFFFF, 0, 0, [⟨0, 16, [(16, 8192)], none⟩, ⟨16, 16, [(16, 4320)], none⟩]⟩,
   ⟨0x5C, 1, 4, .rw, 0x7F, 0, 0, [⟨0, 4, [(1, 6)], none⟩, ⟨5, 2, [(0, 2)], none⟩]⟩,
   ⟨0x60, 1, 4, .rw, 0xFFFFF000, 0, 0, []⟩,
   ⟨0x64, 1, 4, .rw, 0xFFFF, 0, 0, []⟩,
   ⟨0x68, 1, 4, .ro, 0, 0, 0, []⟩,
   ⟨0x6C, 1, 4, .wo, 0, 0, 0, []⟩,
   ⟨0x70, 1, 4, .ro, 0, 0, 0, []⟩,
   ⟨0x74, 1, 4, .ro, 0, 0, 0, []⟩,
   ⟨0x78, 1, 4, .ro, 0, 0, 0x3F, []⟩,
   ⟨0x7C, 6, 4, .ro, 0, 0, 0, []⟩,
   ⟨0x94, 1, 4, .cnt, 0, 0, 0, []⟩,
   ⟨0x98, 1, 4, .cnt, 0, 0, 0, []⟩,
   ⟨0x9C, 1, 4, .cnt, 0, 0, 0, []⟩,
   ⟨0xA0, 1, 4, .cnt, 0, 0, 0, []⟩,
   ⟨0xA4, 1, 4, .cnt, 0, 0, 0, []⟩,
   ⟨0xA8, 1, 4, .cnt, 0, 0, 0, []⟩,
   ⟨0xAC, 2, 4, .ro, 0, 0, 0, []⟩]

/-- Table 6.12: page 0x09. -/
def table09 : List RegRow :=
  [⟨0x40, 1, 4, .rw, 1, 0, 0, []⟩,
   ⟨0x44, 1, 4, .ro, 0, 0, 0, []⟩,
   ⟨0x48, 8, 0x10, .sh, 0x1FF01FF, 0, 0, [⟨16, 9, [(1, 480)], some 0⟩]⟩,
   ⟨0x4C, 8, 0x10, .sh, 0x3F3F3F3F, 0, 0, []⟩,
   ⟨0x50, 8, 0x10, .ro, 0, 0, 0xFFF0, []⟩,
   ⟨0x54, 8, 0x10, .cnt, 0, 0, 0, []⟩,
   ⟨0xC8, 4, 4, .sh, 0xFFFFFFF, 0, 0, []⟩,
   ⟨0xD8, 1, 4, .rw, 0xFFFFFFFF, 0, 1, []⟩,
   ⟨0xDC, 1, 4, .rw, 0xFFFFFFFF, 0, 0, []⟩,
   ⟨0xE0, 1, 4, .rw, 0xFFFFFFFF, 0, 0, []⟩,
   ⟨0xE4, 1, 4, .ro, 0, 0, 0, []⟩,
   ⟨0xE8, 1, 4, .cnt, 0, 0, 0, []⟩,
   ⟨0xEC, 1, 4, .rw, 0xFFFFFFFF, 0, 0, []⟩,
   ⟨0xF0, 1, 4, .rw, 7, 0, 0, []⟩,
   ⟨0xF4, 1, 4, .wo, 0, 0, 0, []⟩,
   ⟨0xF8, 1, 4, .cnt, 0, 0, 0, []⟩,
   ⟨0xFC, 1, 4, .ro, 0, 0x100, 0, []⟩]

/-- Table 7.6: page 0x0A. -/
def table0A : List RegRow :=
  [⟨0x40, 1, 4, .sh, 0xFF7, 0, 0x222, [⟨4, 4, [(0, 4)], none⟩, ⟨8, 4, [(0, 4)], none⟩]⟩,
   ⟨0x44, 1, 4, .ro, 0, 0, 0, []⟩,
   ⟨0x48, 1, 4, .ro, 0, 0, 0, []⟩,
   ⟨0x4C, 1, 4, .sh, 0x7F01, 0, 0x1000, [⟨8, 7, [(16, 64)], none⟩]⟩,
   ⟨0x50, 1, 4, .sh, 0xFFFFFFFF, 0, 0, []⟩,
   ⟨0x54, 1, 4, .sh, 0xFFFFFFFF, 0, 0, []⟩,
   ⟨0x58, 1, 4, .sh, 0xFFFFF000, 0, 0, []⟩,
   ⟨0x5C, 1, 4, .sh, 0xFFFF, 0, 0, []⟩,
   ⟨0x60, 1, 4, .sh, 0xFFFFF000, 0, 0, []⟩,
   ⟨0x64, 1, 4, .sh, 0xFFFF, 0, 0, []⟩,
   ⟨0x68, 1, 4, .sh, 0x1FF, 0, 0, [⟨0, 9, [(0, 256)], none⟩]⟩,
   ⟨0x6C, 1, 4, .wo, 0, 0, 0, []⟩,
   ⟨0x70, 1, 4, .ro, 0, 0, 0, []⟩,
   ⟨0x74, 1, 4, .ro, 0, 0, 0, []⟩,
   ⟨0x78, 1, 4, .ro, 0, 0, 0, []⟩,
   ⟨0x7C, 1, 4, .ro, 0, 0, 0, []⟩,
   ⟨0x80, 1, 4, .ro, 0, 0, 0, []⟩,
   ⟨0x84, 1, 4, .cnt, 0, 0, 0, []⟩,
   ⟨0x88, 1, 4, .cnt, 0, 0, 0, []⟩,
   ⟨0x8C, 1, 4, .cnt, 0, 0, 0, []⟩]

/-- Table 7.7: page 0x0B. -/
def table0B : List RegRow :=
  [⟨0x40, 1, 4, .sh, 0xF, 0, 2, []⟩,
   ⟨0x44, 1, 4, .sh, 0x1FF, 0, 0xF0, [⟨0, 9, [(100, 300)], none⟩]⟩,
   ⟨0x48, 1, 4, .sh, 0xFFFFFF, 0, 0x40000, []⟩,
   ⟨0x4C, 1, 4, .sh, 0xFFFFFF, 0, 0x40000, []⟩,
   ⟨0x50, 1, 4, .sh, 0x3FFF, 0, 0x1F4, [⟨0, 14, [(48, 10000)], none⟩]⟩,
   ⟨0x54, 1, 4, .sh, 0xFFF, 0, 0x3E8, [⟨0, 12, [(400, 4000)], none⟩]⟩,
   ⟨0x58, 1, 4, .sh, 0xFFFFFFFF, 0, 0x1000000, []⟩,
   ⟨0x5C, 1, 4, .sh, 0xFFFFFFFF, 0, 0, []⟩,
   ⟨0x60, 1, 4, .sh, 0xFFFFFFFF, 0, 0, []⟩,
   ⟨0x64, 1, 4, .sh, 0xFFFFFFFF, 0, 0, []⟩,
   ⟨0x68, 1, 4, .sh, 0xFFFFFFFF, 0, 0x1000000, []⟩,
   ⟨0x6C, 1, 4, .sh, 0xFFFFFFFF, 0, 0, []⟩,
   ⟨0x70, 1, 4, .sh, 0xFFFFFFFF, 0, 0, []⟩,
   ⟨0x74, 1, 4, .sh, 0xFFFFFFFF, 0, 0, []⟩,
   ⟨0x78, 1, 4, .sh, 0xFFFFFFFF, 0, 0x1000000, []⟩,
   ⟨0x7C, 1, 4, .sh, 1, 0, 0, []⟩,
   ⟨0x80, 1, 4, .sh, 0xFFFFF000, 0, 0, []⟩,
   ⟨0x84, 1, 4, .sh, 0xFFFF, 0, 0, []⟩,
   ⟨0x88, 1, 4, .sh, 1, 0, 0, []⟩,
   ⟨0x8C, 1, 4, .sh, 0x11, 0, 0, []⟩,
   ⟨0x90, 1, 4, .sh, 0xFFFFFFFF, 0, 0x10000000, []⟩,
   ⟨0x94, 1, 4, .sh, 0xFFFFFFFF, 0, 0, []⟩,
   ⟨0x98, 1, 4, .sh, 0xFFFFFFFF, 0, 0, []⟩,
   ⟨0x9C, 1, 4, .sh, 0xFFFFFFFF, 0, 0, []⟩,
   ⟨0xA0, 1, 4, .sh, 0xFFFFFFFF, 0, 0x10000000, []⟩,
   ⟨0xA4, 1, 4, .sh, 0xFFFFFFFF, 0, 0, []⟩,
   ⟨0xA8, 1, 4, .sh, 0xFFFFFFFF, 0, 0, []⟩,
   ⟨0xAC, 1, 4, .sh, 0xFFFFFFFF, 0, 0, []⟩,
   ⟨0xB0, 1, 4, .sh, 0xFFFFFFFF, 0, 0x10000000, []⟩,
   ⟨0xB4, 1, 4, .sh, 0xFFFFFFFF, 0, 0, []⟩] ++
  [⟨0xB8, 1, 4, .sh, 0xFFFFFFFF, 0, 0, []⟩,
   ⟨0xBC, 1, 4, .sh, 0xFFFFFFFF, 0, 0, []⟩,
   ⟨0xC0, 1, 4, .sh, 0xFFFFFFFF, 0, 0x10000000, []⟩,
   ⟨0xC4, 1, 4, .sh, 0xFFFFFFFF, 0, 0, []⟩,
   ⟨0xC8, 1, 4, .sh, 0xFFFFFFFF, 0, 0, []⟩,
   ⟨0xCC, 1, 4, .sh, 0xFFFFFFFF, 0, 0, []⟩,
   ⟨0xD0, 1, 4, .sh, 0xFFFFFFFF, 0, 0x10000000, []⟩,
   ⟨0xD4, 1, 4, .sh, 0xFFFFFFFF, 0, 0, []⟩,
   ⟨0xD8, 1, 4, .sh, 0xFFFFFFFF, 0, 0, []⟩,
   ⟨0xDC, 1, 4, .sh, 0xFFFFFFFF, 0, 0, []⟩,
   ⟨0xE0, 1, 4, .sh, 0xFFFFFFFF, 0, 0x10000000, []⟩,
   ⟨0xE4, 1, 4, .ro, 0, 0, 0, []⟩,
   ⟨0xE8, 1, 4, .ro, 0, 0, 0, []⟩,
   ⟨0xEC, 1, 4, .cnt, 0, 0, 0, []⟩,
   ⟨0xF0, 1, 4, .cnt, 0, 0, 0, []⟩]

/-- Table 10.12 and Table 7.8: page 0x14. -/
def table14 : List RegRow :=
  [⟨0x40, 1, 4, .sh, 1, 0, 0, []⟩,
   ⟨0x44, 1, 4, .sh, 0xFFFF, 0, 0x8000, [⟨0, 16, [(16384, 32768)], none⟩]⟩,
   ⟨0x48, 1, 4, .sh, 0xFFFF, 0, 0xA000, [⟨0, 16, [(2048, 40960)], none⟩]⟩,
   ⟨0x4C, 1, 4, .sh, 0xFFFF, 0, 0xA000, [⟨0, 16, [(2048, 65535)], none⟩]⟩,
   ⟨0x50, 1, 4, .sh, 0xFFF0FFF, 0, 0x4380800, [⟨0, 12, [(64, 2048)], none⟩, ⟨16, 12, [(16, 2160)], none⟩]⟩,
   ⟨0x54, 1, 4, .sh, 0xFFF0FFF, 0, 0x4370000, []⟩,
   ⟨0x58, 1, 4, .sh, 0x1F07FF, 0, 0x140438, [⟨0, 11, [(1, 1080)], none⟩, ⟨16, 5, [(1, 20)], none⟩]⟩,
   ⟨0x5C, 1, 4, .ro, 0, 0, 0, []⟩,
   ⟨0x60, 1, 4, .ro, 0, 0, 0, []⟩,
   ⟨0x64, 1, 4, .sh, 0xF07, 0, 0x300, [⟨8, 4, [(1, 15)], none⟩]⟩,
   ⟨0x68, 1, 4, .sh, 0xFFE00000, 0, 0, []⟩,
   ⟨0x6C, 1, 4, .sh, 0xFFFF, 0, 0, []⟩,
   ⟨0x70, 1, 4, .sh, 0xFFFFF000, 0, 0, []⟩,
   ⟨0x74, 1, 4, .sh, 0xFFFF, 0, 0, []⟩,
   ⟨0x78, 1, 4, .sh, 0xFFFFFFFF, 0, 0, []⟩,
   ⟨0x7C, 1, 4, .sh, 0x3FF, 0, 0, [⟨0, 10, [(0, 1000)], none⟩]⟩,
   ⟨0x80, 1, 4, .sh, 0xFFFFFF, 0, 0x808080, []⟩,
   ⟨0x84, 1, 4, .rw, 0x800000FF, 0, 0, [⟨0, 2, [(0, 2)], none⟩]⟩,
   ⟨0x88, 1, 4, .sh, 0xFFFFFFF, 0, 0, []⟩,
   ⟨0x8C, 1, 4, .ro, 0, 0, 0, []⟩,
   ⟨0x90, 1, 4, .ro, 0, 0, 0, []⟩,
   ⟨0x94, 1, 4, .rw, 0xFFF, 0, 0, []⟩,
   ⟨0x98, 1, 4, .ro, 0, 0, 0, []⟩,
   ⟨0x9C, 1, 4, .cnt, 0, 0, 0, []⟩,
   ⟨0xA0, 1, 4, .cnt, 0, 0, 0, []⟩]

/-- Table 8.9: page 0x0C. -/
def table0C : List RegRow :=
  [⟨0x40, 1, 4, .sh, 1, 0, 0, []⟩,
   ⟨0x44, 1, 4, .ro, 0, 0, 0, []⟩,
   ⟨0x48, 1, 4, .rw, 0xFF, 0, 0, [⟨2, 2, [(0, 2)], none⟩]⟩,
   ⟨0x4C, 4, 4, .ro, 0, 0, 0, []⟩,
   ⟨0x5C, 1, 4, .cnt, 0, 0, 0, []⟩,
   ⟨0x60, 1, 4, .cnt, 0, 0, 0, []⟩,
   ⟨0x64, 1, 4, .cnt, 0, 0, 0, []⟩,
   ⟨0x80, 4, 0x20, .sh, 0xFDFF7, 0, 0x14E0, [⟨4, 5, [(10, 16)], none⟩, ⟨9, 2, [(0, 2)], none⟩, ⟨11, 2, [(0, 2)], none⟩]⟩,
   ⟨0x84, 4, 0x20, .sh, 0xFFE00000, 0, 0, []⟩,
   ⟨0x88, 4, 0x20, .sh, 0xFFFF, 0, 0, []⟩,
   ⟨0x8C, 4, 0x20, .ro, 0, 0, 0, []⟩,
   ⟨0x90, 4, 0x20, .ro, 0, 0, 0x3F00, []⟩,
   ⟨0x94, 4, 0x20, .ro, 0, 0, 0, []⟩,
   ⟨0x98, 4, 0x20, .ro, 0, 0, 0, []⟩,
   ⟨0x9C, 4, 0x20, .ro, 0, 0, 0, []⟩]

/-- Table 8.10: page 0x0D. -/
def table0D : List RegRow :=
  [⟨0x40, 1, 4, .sh, 0xF, 0, 0, []⟩,
   ⟨0x44, 1, 4, .ro, 0, 0, 0, []⟩,
   ⟨0x48, 1, 4, .sh, 0x1FFF1FFF, 0, 0x1400140, [⟨0, 13, [(160, 5120)], none⟩, ⟨16, 13, [(160, 5120)], none⟩]⟩,
   ⟨0x4C, 1, 4, .sh, 0x3FF, 0, 0x10, [⟨0, 10, [(1, 1000)], none⟩]⟩,
   ⟨0x50, 1, 4, .sh, 0xF0FFF, 0, 0xF09C4, [⟨0, 12, [(2000, 4000)], none⟩]⟩,
   ⟨0x54, 1, 4, .sh, 0xFFF, 0, 0x80, []⟩,
   ⟨0x58, 1, 4, .rw, 0x80000FFF, 0, 0, [⟨0, 8, [(0, 131)], none⟩]⟩,
   ⟨0x5C, 1, 4, .sh, 0xFFFFFFFF, 0, 0, []⟩,
   ⟨0x60, 1, 4, .wo, 0, 0, 0, []⟩,
   ⟨0x64, 1, 4, .ro, 0, 0, 0, []⟩,
   ⟨0x68, 1, 4, .ro, 0, 0, 0, []⟩,
   ⟨0x80, 4, 0x20, .sh, 0xF3, 0, 0, []⟩,
   ⟨0x84, 4, 0x20, .ro, 0, 0, 0, []⟩,
   ⟨0x88, 4, 0x20, .ro, 0, 0, 0, []⟩,
   ⟨0x8C, 4, 0x20, .ro, 0, 0, 0, []⟩,
   ⟨0x90, 4, 0x20, .ro, 0, 0, 0, []⟩,
   ⟨0x94, 4, 0x20, .ro, 0, 0, 0, []⟩,
   ⟨0x98, 4, 0x20, .ro, 0, 0, 0, []⟩,
   ⟨0x9C, 4, 0x20, .ro, 0, 0, 0, []⟩,
   ⟨0x100, 4, 4, .cnt, 0, 0, 0, []⟩,
   ⟨0x110, 4, 4, .cnt, 0, 0, 0, []⟩]

/-- Table 9.12: page 0x0E. -/
def table0E : List RegRow :=
  [⟨0x40, 1, 4, .sh, 0x77F, 0, 0x44, [⟨1, 2, [(0, 2)], none⟩]⟩,
   ⟨0x44, 1, 4, .ro, 0, 0, 0, []⟩,
   ⟨0x48, 1, 4, .ro, 0, 0, 0, []⟩,
   ⟨0x4C, 1, 4, .ro, 0, 0, 0, []⟩,
   ⟨0x50, 1, 4, .rw, 0xFFFFFFFF, 0, 0, []⟩,
   ⟨0x54, 1, 4, .w1s, 0, 0, 0, []⟩,
   ⟨0x58, 1, 4, .ro, 0, 0, 0, []⟩,
   ⟨0x5C, 1, 4, .ro, 0, 0, 0, []⟩,
   ⟨0x60, 1, 4, .ro, 0, 0, 0, []⟩,
   ⟨0x64, 4, 4, .ro, 0, 0, 0, []⟩,
   ⟨0x74, 1, 4, .ro, 0, 0, 0, []⟩,
   ⟨0x78, 1, 4, .ro, 0, 0, 0, []⟩,
   ⟨0x7C, 1, 4, .ro, 0, 0, 0, []⟩,
   ⟨0x80, 1, 4, .rw, 0xFF01, 0, 0x1001, [⟨8, 8, [(1, 255)], none⟩]⟩,
   ⟨0x84, 1, 4, .rw, 0x1F, 0, 0, []⟩,
   ⟨0x88, 5, 4, .ro, 0, 0, 0, []⟩,
   ⟨0x9C, 1, 4, .ro, 0, 0, 0, []⟩,
   ⟨0xA0, 1, 4, .ro, 0, 0, 0, []⟩,
   ⟨0xA4, 1, 4, .cnt, 0, 0, 0, []⟩,
   ⟨0xA8, 1, 4, .cnt, 0, 0, 0, []⟩,
   ⟨0xAC, 1, 4, .cnt, 0, 0, 0, []⟩,
   ⟨0xB0, 1, 4, .cnt, 0, 0, 0, []⟩,
   ⟨0xB4, 1, 4, .cnt, 0, 0, 0, []⟩,
   ⟨0xB8, 1, 4, .cnt, 0, 0, 0, []⟩]

/-- Table 10.10: page 0x12. -/
def table12 : List RegRow :=
  [⟨0x40, 1, 4, .sh, 3, 0, 0, []⟩,
   ⟨0x44, 1, 4, .ro, 0, 0, 0, []⟩,
   ⟨0x48, 1, 4, .sh, 0xFFFF, 0, 0x6590, []⟩,
   ⟨0x4C, 1, 4, .sh, 0xFFFF, 0, 0x55F0, []⟩,
   ⟨0x50, 1, 4, .sh, 0xFFF0FFF, 0, 0x2000320, [⟨0, 12, [(100, 1200)], none⟩]⟩,
   ⟨0x54, 1, 4, .sh, 0xFFFF, 0, 0x4000, []⟩,
   ⟨0x58, 1, 4, .sh, 0xFFFF, 0, 0, []⟩,
   ⟨0x5C, 1, 4, .sh, 0xFFFF, 0, 0x4B, [⟨0, 16, [(1, 65535)], none⟩]⟩,
   ⟨0x60, 1, 4, .sh, 0xFFFF, 0, 0xA40, []⟩,
   ⟨0x64, 1, 4, .sh, 0xFFF, 0, 0, []⟩,
   ⟨0x68, 1, 4, .sh, 0xFFFFFFFF, 0, 0, []⟩,
   ⟨0x6C, 1, 4, .sh, 0xFFFF, 0, 0x64, [⟨0, 16, [(10, 1000)], none⟩]⟩,
   ⟨0x70, 1, 4, .ro, 0, 0, 0, []⟩,
   ⟨0x74, 1, 4, .ro, 0, 0, 0, []⟩,
   ⟨0x78, 1, 4, .ro, 0, 0, 0, []⟩,
   ⟨0x7C, 1, 4, .ro, 0, 0, 0, []⟩,
   ⟨0x80, 1, 4, .ro, 0, 0, 0, []⟩,
   ⟨0x84, 1, 4, .ro, 0, 0, 0, []⟩,
   ⟨0x88, 1, 4, .ro, 0, 0, 0, []⟩,
   ⟨0x8C, 1, 4, .cnt, 0, 0, 0, []⟩,
   ⟨0x90, 1, 4, .cnt, 0, 0, 0, []⟩]

/-- Table 10.11: page 0x13. -/
def table13 : List RegRow :=
  [⟨0x40, 1, 4, .sh, 3, 0, 0, []⟩,
   ⟨0x44, 1, 4, .ro, 0, 0, 0, []⟩,
   ⟨0x48, 1, 4, .sh, 0xFFFFF000, 0, 0, []⟩,
   ⟨0x4C, 1, 4, .sh, 0xFFFF, 0, 0, []⟩,
   ⟨0x50, 1, 4, .sh, 0xFFFF, 0, 0x80, []⟩,
   ⟨0x54, 1, 4, .sh, 0xFFFF, 0, 0x280, []⟩,
   ⟨0x58, 1, 4, .sh, 0xFFFF, 0, 0xF00, []⟩,
   ⟨0x5C, 1, 4, .sh, 0xFFFF, 0, 0x20, []⟩,
   ⟨0x60, 1, 4, .sh, 0xFFFFF, 0, 0x20140, [⟨16, 4, [(1, 8)], none⟩]⟩,
   ⟨0x64, 1, 4, .sh, 0xFFFF, 0, 0x8000, []⟩,
   ⟨0x68, 1, 4, .ro, 0, 0, 0, []⟩,
   ⟨0x6C, 1, 4, .ro, 0, 0, 0, []⟩,
   ⟨0x70, 1, 4, .ro, 0, 0, 0, []⟩,
   ⟨0x74, 1, 4, .ro, 0, 0, 0, []⟩,
   ⟨0x78, 1, 4, .ro, 0, 0, 0, []⟩,
   ⟨0x7C, 1, 4, .ro, 0, 0, 0, []⟩,
   ⟨0x80, 1, 4, .ro, 0, 0, 0, []⟩,
   ⟨0x84, 1, 4, .ro, 0, 0, 0, []⟩,
   ⟨0x88, 1, 4, .ro, 0, 0, 0, []⟩,
   ⟨0x8C, 1, 4, .cnt, 0, 0, 0, []⟩,
   ⟨0x90, 1, 4, .cnt, 0, 0, 0, []⟩,
   ⟨0x94, 1, 4, .cnt, 0, 0, 0, []⟩,
   ⟨0x98, 1, 4, .cnt, 0, 0, 0, []⟩]

/-- Table 11.9: page 0x15. -/
def table15 : List RegRow :=
  [⟨0x40, 1, 4, .sh, 0x11F, 0, 0, []⟩,
   ⟨0x44, 1, 4, .ro, 0, 0, 0, []⟩,
   ⟨0x48, 1, 4, .sh, 0xFFE00000, 0, 0, []⟩,
   ⟨0x4C, 1, 4, .sh, 0xFFFF, 0, 0, []⟩,
   ⟨0x50, 1, 4, .rw, 0, 0, 0, []⟩,
   ⟨0x54, 1, 4, .sh, 0xFFFFFF, 0, 0x406450, []⟩,
   ⟨0x58, 1, 4, .sh, 0x3FF, 0, 0x32, [⟨0, 10, [(1, 1000)], none⟩]⟩,
   ⟨0x5C, 1, 4, .sh, 7, 0, 1, []⟩,
   ⟨0x60, 1, 4, .sh, 0xFF0F, 0, 0x6408, [⟨0, 4, [(2, 15)], none⟩, ⟨8, 8, [(20, 250)], none⟩]⟩,
   ⟨0x64, 5, 4, .sh, 0xFFFF, 0, 0x8000, []⟩,
   ⟨0x78, 1, 4, .rw, 7, 0, 0, [⟨0, 3, [(0, 4)], none⟩]⟩,
   ⟨0x7C, 1, 4, .ro, 0, 0, 0, []⟩]

/-- Table 11.10: page 0x16. -/
def table16 : List RegRow :=
  [⟨0x40, 24, 0x20, .sh, 0x3FFFF, 0, 0, [⟨1, 3, [(0, 4)], none⟩, ⟨6, 2, [(0, 2)], none⟩, ⟨8, 2, [(0, 2)], none⟩, ⟨12, 6, [(1, 63)], some 0⟩]⟩,
   ⟨0x44, 24, 0x20, .sh, 0xFFFFFFF, 0, 0x7FFF, []⟩,
   ⟨0x48, 24, 0x20, .sh, 0xFFF0FFF, 0, 0xFFF0614, [⟨0, 8, [(1, 255)], none⟩, ⟨8, 4, [(1, 8)], none⟩]⟩,
   ⟨0x4C, 24, 0x20, .ro, 0, 0, 0, []⟩,
   ⟨0x50, 24, 0x20, .ro, 0, 0, 0, []⟩,
   ⟨0x54, 24, 0x20, .ro, 0, 0, 0, []⟩]

/-- Table 11.11: page 0x18. -/
def table18 : List RegRow :=
  [⟨0x40, 1, 4, .sh, 0xFFFFFFFF, 0, 0, [⟨4, 7, [(1, 64)], some 0⟩, ⟨11, 7, [(1, 64)], some 1⟩, ⟨18, 7, [(1, 64)], some 2⟩, ⟨25, 7,
      [(1, 64)], some 3⟩]⟩,
   ⟨0x44, 1, 4, .ro, 0, 0, 0, []⟩,
   ⟨0x48, 4, 4, .ro, 0, 0, 0, []⟩,
   ⟨0x58, 1, 4, .rw, 0x800007FF, 0, 0, []⟩,
   ⟨0x5C, 1, 4, .sh, 0x3F, 0, 0, []⟩,
   ⟨0x60, 1, 4, .ro, 0, 0, 0, []⟩,
   ⟨0x64, 1, 4, .sh, 0xFFFFFFFF, 0, 0x60007FFF, [⟨28, 4, [(1, 8)], none⟩]⟩,
   ⟨0x68, 1, 4, .w1s, 0, 0, 0, []⟩,
   ⟨0x6C, 4, 4, .cnt, 0, 0, 0, []⟩,
   ⟨0x7C, 4, 4, .cnt, 0, 0, 0, []⟩,
   ⟨0x8C, 1, 4, .ro, 0, 0, 0, []⟩,
   ⟨0x90, 4, 4, .cnt, 0, 0, 0, []⟩]

/-- Table 12.7: page 0x19. -/
def table19 : List RegRow :=
  [⟨0x40, 1, 4, .ro, 0, 0, 0, []⟩,
   ⟨0x44, 1, 4, .sh, 0xFF, 0, 0, []⟩,
   ⟨0x48, 1, 4, .rw, 0x800003FF, 0, 0, [⟨0, 7, [(0, 111)], none⟩]⟩,
   ⟨0x4C, 1, 4, .sh, 0xFFFFFFFF, 0, 0, []⟩,
   ⟨0x50, 1, 4, .sh, 0xFFFFFFFF, 0, 0x40148, []⟩,
   ⟨0x54, 1, 4, .sh, 0xFFFFFFFF, 0, 0xA01F4, []⟩,
   ⟨0x58, 1, 4, .sh, 0xFFFF, 0, 0x400, [⟨0, 16, [(16, 65535)], none⟩]⟩,
   ⟨0x5C, 1, 4, .sh, 0xFFFF, 0, 0x10, [⟨0, 16, [(1, 32768)], none⟩]⟩,
   ⟨0x60, 5, 4, .sh, 0xFFFF, 0, 0, []⟩,
   ⟨0x74, 3, 4, .sh, 0xFFFFFFFF, 0, 0, []⟩,
   ⟨0x80, 4, 4, .sh, 0x1FFFFF, 0, 0x1FFFFF, []⟩,
   ⟨0x90, 4, 4, .ro, 0, 0, 0, []⟩,
   ⟨0xA0, 4, 4, .ro, 0, 0, 0, []⟩,
   ⟨0xB0, 1, 4, .ro, 0, 0, 0, []⟩,
   ⟨0xB4, 1, 4, .cnt, 0, 0, 0, []⟩,
   ⟨0xB8, 1, 4, .cnt, 0, 0, 0, []⟩,
   ⟨0xBC, 1, 4, .cnt, 0, 0, 0, []⟩,
   ⟨0xC0, 1, 4, .cnt, 0, 0, 0, []⟩,
   ⟨0xC4, 1, 4, .cnt, 0, 0, 0, []⟩]

/-- Table 13.11: page 0x1A. -/
def table1A : List RegRow :=
  [⟨0x40, 1, 4, .sh, 3, 0, 0, []⟩,
   ⟨0x44, 1, 4, .ro, 0, 0, 0, []⟩,
   ⟨0x48, 8, 4, .sh, 0x1FF, 0, 0, []⟩,
   ⟨0x68, 4, 4, .sh, 0x777, 0, 0x700, [⟨8, 3, [(0, 4), (7, 7)], none⟩]⟩,
   ⟨0x78, 1, 4, .sh, 0xFFFF, 0, 0x3E8, []⟩,
   ⟨0x7C, 1, 4, .sh, 0xFFFF000F, 0, 0xF00004, [⟨0, 4, [(0, 10)], none⟩, ⟨16, 16, [(1, 65535)], none⟩]⟩,
   ⟨0x80, 1, 4, .sh, 0xFFFF, 0, 0x40, []⟩,
   ⟨0x84, 1, 4, .sh, 0xFFFFFFFF, 0, 0x640000, [⟨16, 16, [(50, 6000)], none⟩]⟩,
   ⟨0x88, 1, 4, .sh, 0xFFFFFFFF, 0, 0x5439500D, []⟩,
   ⟨0x8C, 1, 4, .sh, 0xFFFFFFFF, 0, 0x4AC0B540, []⟩,
   ⟨0x90, 1, 4, .sh, 0xFFFFFFFF, 0, 0xCC082B85, []⟩,
   ⟨0x94, 1, 4, .sh, 0xFFFFFFFF, 0, 0xBC72189, []⟩,
   ⟨0x98, 1, 4, .rw, 3, 0, 0, []⟩,
   ⟨0x9C, 1, 4, .ro, 0, 0, 0, []⟩,
   ⟨0xA0, 1, 4, .ro, 0, 0, 0, []⟩,
   ⟨0xA4, 1, 4, .ro, 0, 0, 0, []⟩,
   ⟨0xA8, 1, 4, .rw, 3, 0, 0, []⟩,
   ⟨0xAC, 1, 4, .ro, 0, 0, 0, []⟩,
   ⟨0xB0, 1, 4, .ro, 0, 0, 0, []⟩,
   ⟨0xB4, 1, 4, .ro, 0, 0, 0, []⟩,
   ⟨0xB8, 1, 4, .ro, 0, 0, 0, []⟩,
   ⟨0xBC, 1, 4, .rw, 0x1F, 0, 0, [⟨0, 4, [(0, 11)], none⟩]⟩,
   ⟨0xC0, 1, 4, .ro, 0, 0, 0, []⟩,
   ⟨0xC4, 1, 4, .rw, 7, 0, 0, []⟩,
   ⟨0xC8, 1, 4, .ro, 0, 0, 0, []⟩,
   ⟨0xCC, 1, 4, .cnt, 0, 0, 0, []⟩,
   ⟨0xD0, 1, 4, .cnt, 0, 0, 0, []⟩,
   ⟨0xD4, 1, 4, .cnt, 0, 0, 0, []⟩]

/-- Table 13.12: page 0x1B. -/
def table1B : List RegRow :=
  [⟨0x40, 1, 4, .wo, 0, 0, 0, []⟩,
   ⟨0x44, 1, 4, .ro, 0, 0, 0, []⟩,
   ⟨0x48, 1, 4, .ro, 0, 0, 0, []⟩,
   ⟨0x4C, 1, 4, .ro, 0, 0, 0, []⟩,
   ⟨0x50, 1, 4, .ro, 0, 0, 0, []⟩,
   ⟨0x54, 1, 4, .sh, 0xFFFF, 0, 0x28F, []⟩,
   ⟨0x58, 1, 4, .sh, 0xFFFF, 0, 0x148, [⟨0, 16, [(0, 328)], none⟩]⟩,
   ⟨0x5C, 1, 4, .sh, 0xFFFF, 0, 0xA, [⟨0, 16, [(1, 600)], none⟩]⟩,
   ⟨0x60, 4, 4, .sh, 0xFFFFFFFF, 0, 0, []⟩,
   ⟨0x70, 1, 4, .rw, 3, 0, 0, [⟨0, 2, [(0, 2)], none⟩]⟩,
   ⟨0x74, 1, 4, .ro, 0, 0, 0, []⟩,
   ⟨0x78, 1, 4, .ro, 0, 0, 0, []⟩,
   ⟨0x7C, 1, 4, .cnt, 0, 0, 0, []⟩,
   ⟨0x80, 1, 4, .cnt, 0, 0, 0, []⟩]

/-- Table 14.6: page 0x1C. -/
def table1C : List RegRow :=
  [⟨0x40, 1, 4, .sh, 0x31, 0, 0x30, []⟩,
   ⟨0x44, 1, 4, .ro, 0, 0, 0, []⟩,
   ⟨0x48, 1, 4, .ro, 0, 0, 0, []⟩,
   ⟨0x4C, 1, 4, .sh, 0xFFFFFFF, 0, 0x5827A73, []⟩,
   ⟨0x50, 1, 4, .sh, 0xFFFFFFF, 0, 0x24B413C, []⟩,
   ⟨0x54, 1, 4, .sh, 0xFFFFFFFF, 0, 0x20000080, []⟩,
   ⟨0x58, 1, 4, .ro, 0, 0, 0, []⟩,
   ⟨0x5C, 1, 4, .ro, 0, 0, 0, []⟩,
   ⟨0x60, 1, 4, .ro, 0, 0, 0, []⟩,
   ⟨0x64, 1, 4, .ro, 0, 0, 0, []⟩,
   ⟨0x68, 1, 4, .sh, 0xFFFFFFFF, 0, 0x3C03E8, [⟨0, 16, [(100, 60000)], none⟩, ⟨16, 16, [(10, 3600)], none⟩]⟩,
   ⟨0x6C, 1, 4, .cnt, 0, 0, 0, []⟩,
   ⟨0x70, 1, 4, .cnt, 0, 0, 0, []⟩,
   ⟨0x74, 1, 4, .cnt, 0, 0, 0, []⟩,
   ⟨0x78, 4, 4, .ro, 0, 0, 0, []⟩,
   ⟨0x88, 1, 4, .rw, 0x8000003F, 0, 0, [⟨0, 6, [(0, 32)], none⟩]⟩,
   ⟨0x8C, 1, 4, .sh, 0xFFFF, 0, 0, []⟩,
   ⟨0x90, 1, 4, .rw, 0x8000007F, 0, 0, [⟨0, 4, [(0, 11)], none⟩]⟩,
   ⟨0x94, 1, 4, .sh, 0xFFFFFFFF, 0, 0, []⟩,
   ⟨0x98, 6, 4, .sh, 0xFFFFFFFF, 0, 0xFFFFFFFF, [⟨0, 4, [(0, 11), (15, 15)], none⟩, ⟨4, 4, [(0, 11), (15, 15)], none⟩, ⟨8, 4, [(0, 11), (15, 15)], none⟩, ⟨12, 4, [(0, 11), (15, 15)], none⟩, ⟨16, 4, [(0, 11), (15, 15)], none⟩, ⟨20, 4, [(0, 11), (15, 15)], none⟩, ⟨24, 4, [(0, 11), (15, 15)], none⟩, ⟨28, 4, [(0, 11), (15, 15)], none⟩]⟩,
   ⟨0xB0, 1, 4, .rw, 0x800000FF, 0, 0, []⟩,
   ⟨0xB4, 1, 4, .sh, 0xF, 0, 0xF, [⟨0, 4, [(0, 11), (15, 15)], none⟩]⟩,
   ⟨0xC0, 16, 4, .ro, 0, 0, 0, []⟩,
   ⟨0x100, 8, 4, .ro, 0, 0, 0, []⟩]

/-- Table 15.5: page 0x1D. -/
def table1D : List RegRow :=
  [⟨0x40, 1, 4, .sh, 3, 0, 1, []⟩,
   ⟨0x44, 1, 4, .ro, 0, 0, 5, []⟩,
   ⟨0x48, 1, 4, .sh, 0x3FFF, 0, 0xC8, [⟨0, 12, [(20, 4000)], none⟩, ⟨12, 2, [(0, 2)], none⟩]⟩,
   ⟨0x4C, 1, 4, .sh, 0x3F3F, 0, 0x1030, [⟨0, 6, [(16, 63)], none⟩]⟩,
   ⟨0x50, 1, 4, .sh, 0xFFFFFFFF, 0, 0x258012C, []⟩,
   ⟨0x54, 1, 4, .sh, 0xFFFF, 0, 0x64, [⟨0, 16, [(10, 10000)], none⟩]⟩,
   ⟨0x58, 1, 4, .sh, 0xFFFF, 0, 0x258, [⟨0, 16, [(500, 900)], none⟩]⟩,
   ⟨0x5C, 1, 4, .sh, 0xFF0F0F, 0, 0x100808, [⟨0, 4, [(0, 8)], none⟩, ⟨8, 4, [(0, 8)], none⟩, ⟨16, 8, [(1, 64)], none⟩]⟩,
   ⟨0x60, 1, 4, .sh, 0xFFFFFFFF, 0, 0x10020064, [⟨0, 16, [(10, 10000)], none⟩, ⟨16, 8, [(1, 8)], none⟩, ⟨24, 8, [(4, 32)], none⟩]⟩,
   ⟨0x64, 1, 4, .sh, 0xFF01, 0, 0x1801, [⟨8, 8, [(1, 168)], none⟩]⟩,
   ⟨0x68, 1, 4, .rw, 7, 0, 0, []⟩,
   ⟨0x6C, 1, 4, .sh, 0x7FFFFFF, 0, 0, []⟩,
   ⟨0x70, 1, 4, .sh, 0xFFFFFF01, 0, 0, [⟨16, 16, [(1, 1920)], some 0⟩]⟩,
   ⟨0x74, 1, 4, .ro, 0, 0, 0, []⟩,
   ⟨0x78, 1, 4, .ro, 0, 0, 0, []⟩,
   ⟨0x7C, 1, 4, .cnt, 0, 0, 0, []⟩,
   ⟨0x80, 1, 4, .cnt, 0, 0, 0, []⟩,
   ⟨0x84, 1, 4, .ro, 0, 0, 0, []⟩,
   ⟨0x88, 1, 4, .ro, 0, 0, 0, []⟩,
   ⟨0x8C, 1, 4, .cnt, 0, 0, 0, []⟩,
   ⟨0x90, 1, 4, .ro, 0, 0, 0, []⟩]

/-- Table 15.6: page 0x1E. -/
def table1E : List RegRow :=
  [⟨0x40, 12, 0x20, .sh, 0xFF07, 0, 0x1001, [⟨8, 8, [(1, 255)], none⟩]⟩,
   ⟨0x44, 12, 0x20, .ro, 0, 0, 0, []⟩,
   ⟨0x48, 12, 0x20, .ro, 0, 0, 0, []⟩,
   ⟨0x4C, 12, 0x20, .ro, 0, 0, 0xFFFFFF, []⟩,
   ⟨0x50, 12, 0x20, .ro, 0, 0, 0, []⟩,
   ⟨0x54, 12, 0x20, .cnt, 0, 0, 0, []⟩,
   ⟨0x58, 12, 0x20, .cnt, 0, 0, 0, []⟩,
   ⟨0x5C, 12, 0x20, .cnt, 0, 0, 0, []⟩]

/-- Table 16.9: page 0x1F. -/
def table1F : List RegRow :=
  [⟨0x40, 1, 4, .rw, 1, 0, 1, []⟩,
   ⟨0x44, 1, 4, .ro, 0, 0, 0, []⟩,
   ⟨0x48, 1, 4, .ro, 0, 0, 0, []⟩,
   ⟨0x4C, 1, 4, .rw, 0xFFFF, 0, 0, []⟩,
   ⟨0x50, 1, 4, .ro, 0, 0, 0, []⟩,
   ⟨0x54, 1, 4, .ro, 0, 0, 0, []⟩,
   ⟨0x58, 1, 4, .ro, 0, 0, 0, []⟩,
   ⟨0x5C, 1, 4, .ro, 0, 0, 0, []⟩,
   ⟨0x60, 1, 4, .cnt, 0, 0, 0, []⟩,
   ⟨0x64, 1, 4, .cnt, 0, 0, 0, []⟩,
   ⟨0x68, 1, 4, .cnt, 0, 0, 0, []⟩,
   ⟨0x6C, 1, 4, .cnt, 0, 0, 0, []⟩,
   ⟨0x70, 1, 4, .cnt, 0, 0, 0, []⟩,
   ⟨0x74, 3, 4, .ro, 0, 0, 0, []⟩,
   ⟨0x80, 1, 4, .ro, 0, 0, 0, []⟩]

/-- Table 16.10: page 0x20. -/
def table20 : List RegRow :=
  [⟨0x40, 1, 4, .ro, 0, 0, 0, []⟩,
   ⟨0x44, 1, 4, .rw, 0xF, 0, 0, []⟩,
   ⟨0x48, 1, 4, .ro, 0, 0, 0, []⟩,
   ⟨0x4C, 1, 4, .wo, 0, 0, 0, []⟩,
   ⟨0x50, 1, 4, .rw, 0xF, 0, 0, [⟨0, 4, [(0, 11)], none⟩]⟩,
   ⟨0x54, 1, 4, .ro, 0, 0, 0, []⟩,
   ⟨0x58, 1, 4, .ro, 0, 0, 0, []⟩,
   ⟨0x5C, 1, 4, .cnt, 0, 0, 0, []⟩,
   ⟨0x60, 1, 4, .cnt, 0, 0, 0, []⟩,
   ⟨0x64, 1, 4, .cnt, 0, 0, 0, []⟩,
   ⟨0x68, 1, 4, .ro, 0, 0, 0, []⟩,
   ⟨0x6C, 1, 4, .ro, 0, 0, 0, []⟩]

/-- Table 17.10: page 0x21. -/
def table21 : List RegRow :=
  [⟨0x40, 1, 4, .sh, 0xF, 0, 2, []⟩,
   ⟨0x44, 1, 4, .ro, 0, 0, 0, []⟩,
   ⟨0x48, 1, 4, .ro, 0, 0, 0, []⟩,
   ⟨0x4C, 1, 4, .ro, 0, 0, 0, []⟩,
   ⟨0x50, 1, 4, .ro, 0, 0, 0, []⟩,
   ⟨0x54, 1, 4, .sh, 0xFFFFFFFF, 0, 0, []⟩,
   ⟨0x58, 1, 4, .sh, 0xFFFFFFFF, 0, 0, []⟩,
   ⟨0x5C, 1, 4, .sh, 3, 0, 0, []⟩,
   ⟨0x60, 1, 4, .sh, 0xFFFFF000, 0, 0, []⟩,
   ⟨0x64, 1, 4, .sh, 0xFFFF, 0, 0, []⟩,
   ⟨0x68, 1, 4, .sh, 0x3FFF, 0, 0, []⟩,
   ⟨0x6C, 1, 4, .sh, 0xFF, 0, 0x37, [⟨0, 4, [(4, 10)], none⟩, ⟨4, 4, [(1, 6)], none⟩]⟩,
   ⟨0x70, 1, 4, .ro, 0, 0, 0, []⟩,
   ⟨0x74, 1, 4, .sh, 0xFFFFFF, 0, 0x1E3C32, [⟨0, 8, [(10, 200)], none⟩, ⟨8, 8, [(10, 255)], none⟩, ⟨16, 8, [(5, 255)], none⟩]⟩,
   ⟨0x78, 8, 4, .sh, 0x8FFF8FFF, 0, 0, []⟩,
   ⟨0x98, 1, 4, .ro, 0, 0, 0, []⟩,
   ⟨0x9C, 1, 4, .sh, 0xFFFFF000, 0, 0, []⟩,
   ⟨0xA0, 1, 4, .sh, 0xFFFFF, 0, 0x40000, [⟨16, 4, [(4, 10)], none⟩]⟩,
   ⟨0xA4, 1, 4, .rw, 0xFFFFFFFF, 0, 0, []⟩,
   ⟨0xA8, 1, 4, .ro, 0, 0, 0, []⟩,
   ⟨0xAC, 1, 4, .ro, 0, 0, 0, []⟩,
   ⟨0xB0, 1, 4, .ro, 0, 0, 0, []⟩,
   ⟨0xB4, 1, 4, .ro, 0, 0, 0, []⟩,
   ⟨0xB8, 1, 4, .cnt, 0, 0, 0, []⟩,
   ⟨0xBC, 1, 4, .cnt, 0, 0, 0, []⟩,
   ⟨0xC0, 1, 4, .cnt, 0, 0, 0, []⟩]

/-- Table 17.11: page 0x22. -/
def table22 : List RegRow :=
  [⟨0x40, 1, 4, .sh, 0xFFFF0003, 0, 0xA0000, [⟨16, 16, [(1, 65535)], none⟩]⟩,
   ⟨0x44, 1, 4, .ro, 0, 0, 0, []⟩,
   ⟨0x48, 1, 4, .ro, 0, 0, 0, []⟩,
   ⟨0x4C, 1, 4, .ro, 0, 0, 0, []⟩,
   ⟨0x50, 1, 4, .ro, 0, 0, 0, []⟩,
   ⟨0x54, 1, 4, .sh, 0xFFFFFFFF, 0, 0, []⟩,
   ⟨0x58, 1, 4, .ro, 0, 0, 0, []⟩,
   ⟨0x5C, 1, 4, .ro, 0, 0, 0, []⟩,
   ⟨0x60, 1, 4, .sh, 0xFFFFF, 0, 0x407D0, [⟨0, 16, [(200, 10000)], none⟩, ⟨16, 4, [(1, 15)], none⟩]⟩,
   ⟨0x64, 1, 4, .sh, 0xFF, 0, 0xA, [⟨0, 8, [(1, 50)], none⟩]⟩,
   ⟨0x68, 1, 4, .rw, 3, 0, 0, []⟩,
   ⟨0x6C, 1, 4, .ro, 0, 0, 0, []⟩,
   ⟨0x70, 1, 4, .ro, 0, 0, 0, []⟩,
   ⟨0x74, 1, 4, .ro, 0, 0, 0, []⟩,
   ⟨0x78, 1, 4, .ro, 0, 0, 0, []⟩,
   ⟨0x7C, 1, 4, .ro, 0, 0, 0, []⟩,
   ⟨0x80, 1, 4, .ro, 0, 0, 0, []⟩,
   ⟨0x84, 1, 4, .cnt, 0, 0, 0, []⟩,
   ⟨0x88, 1, 4, .cnt, 0, 0, 0, []⟩,
   ⟨0x8C, 1, 4, .cnt, 0, 0, 0, []⟩,
   ⟨0x90, 1, 4, .cnt, 0, 0, 0, []⟩,
   ⟨0x94, 1, 4, .cnt, 0, 0, 0, []⟩,
   ⟨0x98, 1, 4, .cnt, 0, 0, 0, []⟩]

/-- Table 17.13: page 0x26. -/
def table26 : List RegRow :=
  [⟨0x40, 1, 4, .ro, 0, 0, 0, []⟩,
   ⟨0x44, 1, 4, .ro, 0, 0, 0, []⟩,
   ⟨0x48, 1, 4, .ro, 0, 0, 0, []⟩,
   ⟨0x4C, 1, 4, .rw, 0x80003FFF, 0, 0, []⟩,
   ⟨0x50, 1, 4, .ro, 0, 0, 0, []⟩,
   ⟨0x54, 1, 4, .cnt, 0, 0, 0, []⟩,
   ⟨0x58, 1, 4, .cnt, 0, 0, 0, []⟩,
   ⟨0x5C, 1, 4, .cnt, 0, 0, 0, []⟩,
   ⟨0x60, 1, 4, .cnt, 0, 0, 0, []⟩,
   ⟨0x64, 1, 4, .cnt, 0, 0, 0, []⟩]

/-- Table 18.12: page 0x27. -/
def table27 : List RegRow :=
  [⟨0x40, 1, 4, .sh, 3, 0, 0, []⟩,
   ⟨0x44, 1, 4, .ro, 0, 0, 0, []⟩,
   ⟨0x48, 1, 4, .sh, 0xFFFFF000, 0, 0, []⟩,
   ⟨0x4C, 1, 4, .sh, 0xFFFF, 0, 0, []⟩,
   ⟨0x50, 1, 4, .sh, 0x3FFFF, 0, 0, []⟩,
   ⟨0x54, 1, 4, .sh, 0x3FFFF, 0, 0, []⟩,
   ⟨0x58, 1, 4, .sh, 0xFFFF, 0, 0x3E8, [⟨0, 16, [(1, 65535)], none⟩]⟩,
   ⟨0x5C, 1, 4, .wo, 0, 0, 0, []⟩,
   ⟨0x60, 1, 4, .ro, 0, 0, 0, []⟩,
   ⟨0x64, 1, 4, .ro, 0, 0, 0, []⟩,
   ⟨0x68, 1, 4, .ro, 0, 0, 0, []⟩,
   ⟨0x6C, 1, 4, .ro, 0, 0, 0, []⟩,
   ⟨0x70, 1, 4, .ro, 0, 0, 0, []⟩,
   ⟨0x74, 1, 4, .ro, 0, 0, 0x40, []⟩,
   ⟨0x78, 1, 4, .cnt, 0, 0, 0, []⟩,
   ⟨0x7C, 1, 4, .cnt, 0, 0, 0, []⟩,
   ⟨0x80, 1, 4, .cnt, 0, 0, 0, []⟩,
   ⟨0x84, 1, 4, .cnt, 0, 0, 0, []⟩,
   ⟨0x88, 1, 4, .cnt, 0, 0, 0, []⟩]

/-- Table 18.13: page 0x28. -/
def table28 : List RegRow :=
  [⟨0x40, 1, 4, .sh, 0xFF7FFF, 0, 0x2128, [⟨4, 4, [(1, 15)], none⟩, ⟨8, 4, [(1, 15)], none⟩, ⟨12, 2, [(1, 3)], none⟩]⟩,
   ⟨0x44, 1, 4, .ro, 0, 0, 0, []⟩,
   ⟨0x48, 1, 4, .sh, 0xFFE00000, 0, 0, []⟩,
   ⟨0x4C, 1, 4, .sh, 0xFFFF, 0, 0, []⟩,
   ⟨0x50, 1, 4, .sh, 0x7FF, 0, 0, [⟨0, 11, [(0, 1920)], none⟩]⟩,
   ⟨0x54, 1, 4, .sh, 0x7FF, 0, 1, [⟨0, 11, [(1, 1920)], none⟩]⟩,
   ⟨0x58, 1, 4, .sh, 0x3F3F3F, 0, 0, []⟩,
   ⟨0x5C, 1, 4, .ro, 0, 0, 0, []⟩,
   ⟨0x60, 1, 4, .ro, 0, 0, 0, []⟩,
   ⟨0x64, 1, 4, .ro, 0, 0, 0, []⟩,
   ⟨0x68, 1, 4, .wo, 0, 0, 0, []⟩,
   ⟨0x6C, 1, 4, .cnt, 0, 0, 0, []⟩,
   ⟨0x70, 1, 4, .cnt, 0, 0, 0, []⟩,
   ⟨0x74, 1, 4, .cnt, 0, 0, 0, []⟩,
   ⟨0x78, 1, 4, .cnt, 0, 0, 0, []⟩,
   ⟨0x7C, 1, 4, .ro, 0, 0, 0, []⟩,
   ⟨0x80, 1, 4, .ro, 0, 0, 0, []⟩]

/-- Table 19.5: page 0x29. -/
def table29 : List RegRow :=
  [⟨0x40, 8, 0x20, .rw, 0x3FFF, 0, 0x20, [⟨0, 7, [(8, 64)], none⟩, ⟨9, 2, [(0, 2)], none⟩]⟩,
   ⟨0x44, 8, 0x20, .rw, 7, 0, 0, [⟨0, 3, [(0, 5)], none⟩]⟩,
   ⟨0x48, 8, 0x20, .rw, 0xFFFFFFFF, 0, 0, []⟩,
   ⟨0x4C, 8, 0x20, .rw, 0xFFFFFFFF, 0, 0, []⟩,
   ⟨0x50, 8, 0x20, .rw, 0xFFFFFFFF, 0, 0, []⟩,
   ⟨0x54, 8, 0x20, .rw, 0xFFFFFFFF, 0, 0, [⟨0, 32, [(1, 4294967295)], none⟩]⟩,
   ⟨0x58, 8, 0x20, .wo, 0, 0, 0, []⟩,
   ⟨0x5C, 8, 0x20, .ro, 0, 0, 0, []⟩]

/-- Table 19.8: page 0x2A. -/
def table2A : List RegRow :=
  [⟨0x40, 64, 8, .ro, 0, 0, 0, []⟩,
   ⟨0x44, 64, 8, .ro, 0, 0, 0, []⟩,
   ⟨0x240, 1, 4, .w1s, 0, 0, 0, []⟩,
   ⟨0x244, 1, 4, .ro, 0, 0, 0, []⟩,
   ⟨0x248, 1, 4, .ro, 0, 0, 0, []⟩,
   ⟨0x24C, 1, 4, .ro, 0, 0, 0, []⟩,
   ⟨0x250, 1, 4, .ro, 0, 0, 0, []⟩,
   ⟨0x254, 1, 4, .rw, 0x3F, 0, 0, []⟩,
   ⟨0x258, 1, 4, .sh, 0x7FFFF, 0, 0, []⟩]

/-- Table 20.10: page 0x2B. -/
def table2B : List RegRow :=
  [⟨0x40, 1, 4, .ro, 0, 0, 0, []⟩,
   ⟨0x44, 1, 4, .ro, 0, 0, 0, []⟩,
   ⟨0x48, 1, 4, .ro, 0, 0, 0, []⟩,
   ⟨0x4C, 1, 4, .rw, 0xFF, 0, 0, []⟩,
   ⟨0x50, 8, 4, .ro, 0, 0, 0, []⟩,
   ⟨0x70, 1, 4, .ro, 0, 0, 0, []⟩,
   ⟨0x74, 1, 4, .ro, 0, 0, 0, []⟩,
   ⟨0x78, 1, 4, .cnt, 0, 0, 0, []⟩,
   ⟨0x7C, 1, 4, .cnt, 0, 0, 0, []⟩,
   ⟨0x80, 1, 4, .ro, 0, 0, 0, []⟩,
   ⟨0x84, 1, 4, .sh, 1, 0, 1, []⟩,
   ⟨0x88, 1, 4, .cnt, 0, 0, 0, []⟩,
   ⟨0x8C, 1, 4, .cnt, 0, 0, 0, []⟩,
   ⟨0x90, 1, 4, .cnt, 0, 0, 0, []⟩,
   ⟨0x94, 1, 4, .cnt, 0, 0, 0, []⟩,
   ⟨0x98, 1, 4, .ro, 0, 0, 0, []⟩]

/-- The rows of page `p` (Table 3.2, R87): MA0-MA3, LS0-LS1 and WPXP0-WPXP3 share a table. -/
def pageRows (p : Nat) : List RegRow :=
  match p with
  | 0x00 => table00
  | 0x01 => table01
  | 0x02 => table02
  | 0x03 => table03
  | 0x04 => table04
  | 0x05 => table05
  | 0x06 => table06
  | 0x07 => table07
  | 0x08 => table08
  | 0x09 => table09
  | 0x0A => table0A
  | 0x0B => table0B
  | 0x0C => table0C
  | 0x0D => table0D
  | 0x0E => table0E
  | 0x0F => table0E
  | 0x10 => table0E
  | 0x11 => table0E
  | 0x12 => table12
  | 0x13 => table13
  | 0x14 => table14
  | 0x15 => table15
  | 0x16 => table16
  | 0x17 => table16
  | 0x18 => table18
  | 0x19 => table19
  | 0x1A => table1A
  | 0x1B => table1B
  | 0x1C => table1C
  | 0x1D => table1D
  | 0x1E => table1E
  | 0x1F => table1F
  | 0x20 => table20
  | 0x21 => table21
  | 0x22 => table22
  | 0x23 => table22
  | 0x24 => table22
  | 0x25 => table22
  | 0x26 => table26
  | 0x27 => table27
  | 0x28 => table28
  | 0x29 => table29
  | 0x2A => table2A
  | 0x2B => table2B
  | 0x2C => table2C
  | _ => []

/-- Does the row hold the offset? -/
def RegRow.has (r : RegRow) (off : Nat) : Bool :=
  decide (r.off ≤ off) && decide ((off - r.off) % r.stride = 0) && decide ((off - r.off) / r.stride < r.count)

/-- The row of an address below the active copies (offsets 0x000 to 0x7FF), where there is one. -/
def rowAt (a : Nat) : Option RegRow :=
  if a % 0x1000 < 0x40 then (if a / 0x1000 ≤ 0x2C then headRows.find? (·.has (a % 0x1000)) else none)
  else (pageRows (a / 0x1000)).find? (·.has (a % 0x1000))

/-- An SH register (Table 0.5): its active copy stands at the offset plus 0x800 (R89). -/
def isSH (a : Nat) : Bool :=
  match rowAt a with
  | some r => r.acc == .sh
  | none => false

end Sys2Proof.Machine
end

