-- ==== Sys2Proof/Machine/Sparse.lean ====
section
/-!
DEFINITION. Sparse stores in one canonical form: keys strictly rising, and no entry equal to what an unlisted key reads as.
`dflt` says what an unlisted key reads as.  Equal contents are therefore equal lists.
-/
namespace Sys2Proof.Machine

/-- What a key reads as. -/
def sget {α : Type} (dflt : Nat → α) : List (Nat × α) → Nat → α
  | [], k => dflt k
  | (j, v) :: m, k => if k = j then v else sget dflt m k

/-- The store without a key. -/
def sdel {α : Type} : List (Nat × α) → Nat → List (Nat × α)
  | [], _ => []
  | (j, u) :: m, k => if k = j then sdel m k else (j, u) :: sdel m k

/-- The store with a key's entry put in, in rising order. -/
def sput {α : Type} : List (Nat × α) → Nat → α → List (Nat × α)
  | [], k, v => [(k, v)]
  | (j, u) :: m, k, v => if k = j then (k, v) :: m else if k < j then (k, v) :: (j, u) :: m else (j, u) :: sput m k v

/-- The store with a key's value replaced; a value equal to the default removes the entry. -/
def sset {α : Type} [DecidableEq α] (dflt : Nat → α) (m : List (Nat × α)) (k : Nat) (v : α) : List (Nat × α) :=
  if v = dflt k then sdel m k else sput m k v

/-- The canonical form: keys strictly rising, from a bound on, and no entry equal to the default. -/
def swfFrom {α : Type} [DecidableEq α] (dflt : Nat → α) : Nat → List (Nat × α) → Bool
  | _, [] => true
  | b, (j, v) :: m => decide (b ≤ j) && decide (v ≠ dflt j) && swfFrom dflt (j + 1) m

/-- The canonical form. -/
def swf {α : Type} [DecidableEq α] (dflt : Nat → α) (m : List (Nat × α)) : Bool := swfFrom dflt 0 m

/-- Several writes, in order. -/
def ssets {α : Type} [DecidableEq α] (dflt : Nat → α) (m : List (Nat × α)) (ws : List (Nat × α)) : List (Nat × α) :=
  ws.foldl (fun m w => sset dflt m w.1 w.2) m

/-- A table by key: what a key holds, where it holds something. -/
def aget? {α : Type} : List (Nat × α) → Nat → Option α
  | [], _ => none
  | (j, v) :: m, k => if k = j then some v else aget? m k

/-- A table with a key's entry put in (keys kept in rising order). -/
def aput {α : Type} : List (Nat × α) → Nat → α → List (Nat × α)
  | [], k, v => [(k, v)]
  | (j, u) :: m, k, v =>
    if k = j then (k, v) :: m
    else if k < j then (k, v) :: (j, u) :: m
    else (j, u) :: aput m k v

/-- A table without a key. -/
def adel {α : Type} : List (Nat × α) → Nat → List (Nat × α)
  | [], _ => []
  | (j, u) :: m, k => if k = j then m else (j, u) :: adel m k

end Sys2Proof.Machine
end

