-- ==== Sys2Proof/Machine/Ops.lean ====
section
/-!
DEFINITION. The operations every family shares: the register store and its active copies, the posting of events and their
Tally counts, interrupt vectors, device-state changes, fault records with their class effects, commits as they arrive, and
the life of a ring command.
-/
namespace Sys2Proof.Machine

/-- The outcome of a meaning: the block never stops on a command's own effect. -/
abbrev Res := Host.Outcome State Fault Refusal

/-- A command's effect on the block, the queue as it stands. -/
def State.does (s : State) (f : Block → Block) : Res := .next { s with toBlock := f s.toBlock }

/-! ## The register store -/

/-- Where the table windows stand in the register store: page `p`, word `i`. -/
def win (p i : Nat) : Nat := 0x1000000 + 0x100000 * p + 4 * i

/-- The key of the active copy of a register or window word: offset + 0x800 (R89), or the active bank of a window. -/
def actOf (a : Nat) : Nat := if a < 0x1000000 then a + 0x800 else a + 0x10000000

/-- The page a key belongs to. -/
def pageOf (a : Nat) : Nat := if a < 0x1000000 then a / 0x1000 else (a % 0x10000000 - 0x1000000) / 0x100000

/-- What a window word holds at reset: 0, but for THERM_SLICE_MG, whose reset value is 0xF (Table 14.6). -/
def winDflt (a : Nat) : Word := if win 0x1C 0x400 ≤ a ∧ a < win 0x1C 0x500 then 0xF else 0

/-- PAGE_ID (Table 3.3): 0xA800 plus the block's first page, revision 0x01, instance. -/
def pageId (p : Nat) : Word :=
  let first := if 0x0E ≤ p ∧ p ≤ 0x11 then 0x0E else if p = 0x17 then 0x16 else if 0x22 ≤ p ∧ p ≤ 0x25 then 0x22 else p
  w32 ((0xA800 + first) * 65536 + 0x100 + (p - first))

/-- The reset value of a register below the active copies. -/
def rowReset (a : Nat) : Word :=
  if a % 0x1000 = 0 ∧ a / 0x1000 ≤ 0x2C then pageId (a / 0x1000)
  else match rowAt a with
    | some r => w32 r.reset
    | none => 0

/-- What an unlisted key of the register store reads as: its reset value. -/
def regDflt (a : Nat) : Word :=
  if 0x10000000 ≤ a then winDflt (a - 0x10000000)
  else if 0x1000000 ≤ a then winDflt a
  else if a % 0x1000 < 0x800 then rowReset a
  else if isSH (a - 0x800) then rowReset (a - 0x800) else 0

/-- The value a register holds. -/
def Block.reg (s : Block) (a : Nat) : Word := sget regDflt s.regs a

/-- The EN fields of the SH registers, by page: every field whose name is EN or ends in _EN (R665; log entry 239). -/
def enFields : List (Nat × Nat) :=
  ((List.range 8).map fun n => (R.INGEST_SRC_CFG n, 0x41)) ++
  [(R.WARP_CFG, 1), (R.WARP_BLEND_CFG, 1), (R.COLOR_UNIF_CFG, 1), (R.COLOR_LUT_CFG, 1), (R.HSB_SPLIT_CFG, 1), (R.HSB_BEAM_CFG, 5),
   (R.BUCK_CFG, 1)] ++
  ((List.range 4).map fun p => (R.BUCK_PORT_CFG p, 1)) ++ ((List.range 4).map fun g => (R.SEQ_LG_CFG g, 0xF0)) ++
  ((List.range 4).map fun p => (R.MA_CFG p, 1)) ++
  [(R.HSF_CFG, 1), (R.HSS_CFG, 3), (R.LSG_CFG, 0x1F)] ++ ((List.range 48).map fun n => (R.LS_STR_CFG n, 1)) ++
  [(R.CHAIN_CFG, 0xF), (R.CPE_AUX_EN, 0xFF), (R.OPT_CTRL, 3)] ++ ((List.range 8).map fun j => (R.OPT_PD_CFG j, 1)) ++
  [(R.THERM_CTRL, 1), (R.DMC_SCRUB_CFG, 1)] ++ ((List.range 12).map fun q => (R.DMCP_CFG q, 5)) ++ [(R.WPX_CFG, 1)] ++
  ((List.range 4).map fun p => (R.WPXP_CFG p, 1)) ++ [(R.CUE_CFG, 1), (R.HOLD_CFG, 4), (R.FAULT_AVAIL_CFG, 1)]

/-- The EN bits of an SH register; the entries of the CHAIN member table have EN in bit 0, as have the guest regions' DMC_GR_CFG and
word 0 of a model group. -/
def enMask (a : Nat) : Nat :=
  if win 0x18 0 ≤ a ∧ a < win 0x18 2048 then 1
  else if win 0x1D 0 ≤ a ∧ a < win 0x1D 16 then (if a % 8 = 4 then 1 else 0)
  else if win 0x1C 0 ≤ a ∧ a < win 0x1C 96 then (if a % 32 = 0 then 1 else 0)
  else match enFields.find? fun e => e.1 == a with
    | some e => e.2
    | none => 0

/-- An SH value as its block acts on it: with PAGE_CTRL.ENABLE 0, every EN field is 0 (R665). -/
def Block.enApply (s : Block) (a : Nat) (v : Word) : Word :=
  if bit (s.reg (R.PAGE_CTRL (pageOf a))) 0 then v else v &&& ~~~(w32 (enMask a))

/-- The active copy of an SH register as its block acts on it (R89, R665). -/
def Block.act (s : Block) (a : Nat) : Word := s.enApply a (s.reg (actOf a))

/-- A field of a register. -/
def Block.fld (s : Block) (a lo w : Nat) : Nat := bits (s.reg a) lo w

/-- A field of the active copy. -/
def Block.afld (s : Block) (a lo w : Nat) : Nat := bits (s.act a) lo w

/-- A bit of the active copy. -/
def Block.abit (s : Block) (a i : Nat) : Bool := bit (s.act a) i

/-- A register takes a value. -/
def Block.setReg (s : Block) (a : Nat) (v : Word) : Block := { s with regs := sset regDflt s.regs a v }

/-- Several registers take values, in order. -/
def Block.setRegs (s : Block) (l : List (Nat × Word)) : Block := { s with regs := ssets regDflt s.regs l }

/-- A field of a register takes a value. -/
def Block.setFld (s : Block) (a lo w x : Nat) : Block := s.setReg a (setBits (s.reg a) lo w x)

/-- A CNT register counts, wrapping at its width (Table 0.5). -/
def Block.bump (s : Block) (a : Nat) (n : Nat := 1) : Block := s.setReg a (s.reg a + w32 n)

/-- A saturating field counts. -/
def Block.bumpSat (s : Block) (a lo w : Nat) : Block := s.setFld a lo w (satN w (s.fld a lo w + 1))

/-- A free value and the state after its use (log entry 2). -/
def Block.takeFree (s : Block) : Nat × Block := (Config.freeNat s.free, { s with free := s.free + 1 })

/-- A free value no greater than a bound. -/
def Block.takeBelow (s : Block) (n : Nat) : Nat × Block := (Config.freeNat s.free % (n + 1), { s with free := s.free + 1 })

/-- Free bytes (log entry 2). -/
def Block.takeBytes (s : Block) (n : Nat) : List Byte × Block :=
  ((List.range n).map fun i => BitVec.ofNat 8 (Config.freeNat (s.free + i)), { s with free := s.free + n })

/-- An outward action. -/
def Block.emit (s : Block) (o : Out) : Block := { s with out := s.out ++ [o] }

/-! ## Shadows and active copies -/

/-- A key of a shadow copy. -/
def isShadowKey (a : Nat) : Bool := if a < 0x1000000 then isSH a else decide (a < 0x10000000)

/-- A key of an active copy. -/
def isActiveKey (a : Nat) : Bool :=
  if a < 0x1000000 then decide (0x800 ≤ a % 0x1000) && isSH (a - 0x800) else decide (0x10000000 ≤ a)

/-- The shadow behind an active copy. -/
def shadowOf (a : Nat) : Nat := if a < 0x1000000 then a - 0x800 else a - 0x10000000

/-- Table 2.3: the source-side pages STORE, WARP, COLOR, BUCK and the split fields of HSB (Table 7.8). -/
def sourceSide (a : Nat) : Bool :=
  let p := pageOf a
  p == 0x08 || p == 0x0A || p == 0x0B || p == 0x0C ||
    (p == 0x14 && decide (a < 0x1000000) && decide (a % 0x1000 < 0x60))

/-- The pages that hold SH registers (R88). -/
def shPages : List Nat :=
  [0x05, 0x07, 0x08, 0x09, 0x0A, 0x0B, 0x0C, 0x0D, 0x0E, 0x0F, 0x10, 0x11, 0x12, 0x13, 0x14, 0x15, 0x16, 0x17, 0x18, 0x19,
   0x1A, 0x1B, 0x1C, 0x1D, 0x1E, 0x21, 0x22, 0x23, 0x24, 0x25, 0x27, 0x28, 0x2A, 0x2B]

/-- The shadow values of the masked pages, as a cutoff latches them (R71): those that differ from their reset values. -/
def Block.shadowVals (s : Block) (pages : Nat) : List (Nat × Word) :=
  s.regs.filter fun e => isShadowKey e.1 && natBit pages (pageOf e.1)

/-- The active copies of the masked pages on one side take the latched values (R64): every SH register of those pages. -/
def Block.applyVals (s : Block) (side : Nat → Bool) (pages : Nat) (vals : List (Nat × Word)) : Block :=
  let kept := s.regs.filter fun e => !(isActiveKey e.1 && natBit pages (pageOf (shadowOf e.1)) && side (shadowOf e.1))
  { s with regs := ssets regDflt kept ((vals.filter fun e => side e.1).map fun e => (actOf e.1, e.2)) }

/-- What the active copy of a key would be were the latched values applied: the view a validation takes (R70). -/
def Block.wouldBe (s : Block) (pages : Nat) (vals : List (Nat × Word)) (a : Nat) : Word :=
  if natBit pages (pageOf a) then s.enApply a (sget regDflt vals a) else s.act a

/-! ## Events, Tally and interrupts -/

/-- One Tally counter's configuration in force (Table 19.6). -/
def Block.tallyCfg (s : Block) (n : Nat) : Word := s.act (win 0x2A n)

/-- An occurrence of an event counted by every Tally counter that names it (R614, R615). -/
def Block.tally (s : Block) (ty inst : Nat) : Block :=
  { s with ty := { s.ty with cnt := s.ty.cnt.mapIdx fun n c =>
      let g := s.tallyCfg n
      let mode := bits g 17 2
      if (mode == 1 || mode == 3) && bits g 0 10 == ty && (bit g 16 || bits g 10 6 == inst) then
        { c with count := c.count + 1 } else c } }

/-- The instance an event carries where its chapter names none: PAGE_ID[7:0] of the source page (R615). -/
def pageInst (p : Nat) : Nat := (pageId p).toNat % 256

/-- Does a housekeeping core run? -/
def Block.hkUp (s : Block) : Bool := s.bt.hkRestart.isNone && s.bt.hkRunning != 0

/-- The events that firmware generates (R117), as the chapters say: R449, R469, R532, R571, R606, R647; CMD_COMPLETE and the events of the
firmware commands of ch. 4 too (log entry 184). -/
def firmwareEvent (ty : Nat) : Bool :=
  [0x009, 0x015, 0x016, 0x017, 0x138, 0x139, 0x13A, 0x144, 0x185, 0x190, 0x191, 0x192, 0x193, 0x1C5, 0x1C9, 0x1F3, 0x210, 0x211].contains ty

/-- Does an event wait until a housekeeping core runs: firmware generates it, and none runs now (R117)? -/
def Block.heldEvent (s : Block) (ty : Nat) : Bool := firmwareEvent ty && !s.hkUp

/-- An event is generated: counted in Tally, and offered to the ring while EVT_EN is 1 (R114, R116, R615). -/
def Block.postI (s : Block) (page ty cls inst : Nat) (cmd : Bool) (data : List Word) : Block :=
  let s := s.tally ty inst
  if bit (s.reg R.RING_CTRL) 1 then
    { s with rg := { s.rg with evq := s.rg.evq ++
      [{ ty := ty, page := page, cls := cls, cmd := cmd, fsn := s.tm.fsn, ft := s.tm.ft, data := data, held := s.heldEvent ty }] } }
  else s

/-- An event with the instance of its page and no fault class. -/
def Block.post (s : Block) (page ty : Nat) (data : List Word) : Block := s.postI page ty 0 (pageInst page) false data

/-- A Tally-only event (R615). -/
def Block.postTally (s : Block) (ty inst : Nat) : Block := s.tally ty inst

/-- The condition of vector p (R94). -/
def Block.vec (s : Block) (p : Nat) : Bool := (s.reg (R.INT_STATUS p) &&& s.reg (R.INT_ENABLE p)) != 0

/-- May a vector send its message (R95)?  MSI-X is enabled and neither the function nor the vector is masked. -/
def Block.vecOpen (s : Block) (v : Nat) : Bool := s.hs.pcie.msix && !s.hs.pcie.funcMask && !natBit s.hs.pcie.vecMask v

/-- A vector's message (R95): sent, or, while MSI-X is enabled and the vector masked, its pending bit is set. -/
def Block.message (s : Block) (v : Nat) : Block :=
  if s.vecOpen v then s.emit (.msix v)
  else if s.hs.pcie.msix then { s with hs := { s.hs with pba := if s.hs.pba.contains v then s.hs.pba else s.hs.pba ++ [v] } }
  else s

/-- Is the PCIe tunnel up (R166)? -/
def Block.tunnelUp (s : Block) : Bool := bit (s.reg R.HOST_LINK_STATUS) 8

/-- A vector's condition is false: its pending bit is clear, as the MSI-X capability has it (R95). -/
def Block.unpend (s : Block) (v : Nat) : Block := { s with hs := { s.hs with pba := s.hs.pba.filter (· != v) } }

/-- A change of a page's interrupt registers, with the MSI-X message of a condition that becomes true (R95). -/
def Block.withInt (s : Block) (p : Nat) (f : Block → Block) : Block :=
  let t := f s
  if t.vec p then (if s.vec p then t else t.message p) else t.unpend p

/-- INT_STATUS bits are set (R94, R95). -/
def Block.setInt (s : Block) (p : Nat) (m : Word) : Block :=
  s.withInt p fun s => s.setReg (R.INT_STATUS p) (s.reg (R.INT_STATUS p) ||| m)

/-- ERR_CAUSE bit `i` of a page is set (Table 3.6). -/
def Block.errCause (s : Block) (p i : Nat) : Block := s.setReg (R.ERR_CAUSE p) (setBit (s.reg (R.ERR_CAUSE p)) i true)

/-! ## Commands in flight (R112, R113) -/

/-- A command in flight. -/
def Block.cmd (s : Block) (cseq : Word) : Option Cmd := s.rg.inflight.find? fun c => c.cseq == cseq

/-- The value PIN_OWN has for a resource that a command of CALIBRATION holds (Table 3.11). -/
def Cmd.ownWord (c : Cmd) : Word := w32 (0x32 + 0x3F00 + 65536 * (c.cseq.toNat % 65536))

/-- A command gives back one resource it claimed (R102): to the owner that held it before; where another command in flight claimed it from
this one, that command takes this one's place before it. -/
def Block.giveBackClaim (s : Block) (c : Cmd) (n : Nat) (old : Word) : Block :=
  if s.rg.inflight.any fun d => d.claims.contains (n, c.ownWord) then
    { s with rg := { s.rg with inflight := s.rg.inflight.map fun d =>
      { d with claims := d.claims.map fun e => if e = (n, c.ownWord) then (n, old) else e } } }
  else s.setReg (R.PIN_OWN n) old

/-- A command gives back the resources it claimed, in the order of the list (R102). -/
def Block.giveBackAll (s : Block) (c : Cmd) (l : List (Nat × Word)) : Block := l.foldl (fun s e => s.giveBackClaim c e.1 e.2) s

/-- CMD_COMPLETE of a command (Table 3.19); `res` replaces TAG for SNAPSHOT. -/
def Block.postComplete (s : Block) (c : Cmd) (status : Nat) (res : Option Word) : Block :=
  s.postI 0x04 0x009 0 (pageInst 0x04) true [c.cseq, w32 (c.opcode + 65536 * status), res.getD c.tag]

/-- A command completes (R113): one CMD_COMPLETE for each command passed on, the oldest of a CSEQ first.  What the command claimed it gives
back (R102). -/
def Block.complete (s : Block) (cseq : Word) (status : Nat) (res : Option Word := none) : Block :=
  match s.cmd cseq with
  | none => s
  | some c =>
    let s : Block := { s with rg := { s.rg with inflight := s.rg.inflight.eraseP fun d => d.cseq == cseq } }
    (s.giveBackAll c c.claims).postComplete c status res

/-! ## Device state -/

/-- The code of a device state (Table 4.1). -/
def DevState.code : DevState → Nat
  | .off => 0 | .aon => 1 | .boot => 2 | .standby => 3 | .ready => 4 | .lit => 5 | .frostHold => 6 | .safe => 7
  | .shutdownLatched => 8

/-- The states in which light may be on. -/
def DevState.lightOn : DevState → Bool
  | .lit => true | .frostHold => true | _ => false

/-- The states in which the sequencer, ports and loops run: READY and later (Table 0.2). -/
def DevState.running : DevState → Bool
  | .ready => true | .lit => true | .frostHold => true | .safe => true | _ => false

/-- The microseconds since a local instant. -/
def Block.usSince (s : Block) (t : Nat) : Nat := (s.now - t) / 1000

/-- A transition of the device state, its reason (Table 4.2) and its duration in us, with STATE_CHANGE (R119, R120). -/
def Block.goto (s : Block) (dst : DevState) (reason : Nat) (us : Nat := 0) : Block :=
  let old := s.pw.state
  let s := { s with pw := { s.pw with state := dst, prev := old, reason := reason,
                                      litMask := if dst.lightOn then s.pw.litMask else 0 } }
  (s.setReg R.PWR_TRANS_TIME (w32 (satN 32 us))).post 0x01 0x010
    [w32 (dst.code + 256 * old.code + 65536 * reason), w32 s.pw.litMask]

/-- SAFE_OUT (R631): high outside READY, LIT and FROST_HOLD, and while the path is asserted. -/
def Block.safeOut (s : Block) : Bool :=
  match s.pw.state with
  | .ready | .lit | .frostHold => s.fl.pathAsserted
  | _ => true

/-! ## Fault records (R622 to R627) -/

/-- The open record of a page, code and detail (R625). -/
def Block.openRec (s : Block) (page code : Nat) (detail : Word) : Option (Nat × FaultRec) :=
  s.fl.recs.find? fun e => e.2.isOpen && e.2.page == page && e.2.code == code && e.2.detail == detail

/-- The oldest of a list of records by FID (R7): the place it holds. -/
def oldestRec : List (Nat × FaultRec) → Option (Nat × FaultRec)
  | [] => none
  | e :: l => some (l.foldl (fun a b => if newer a.2.fid b.2.fid then b else a) e)

/-- The place a new record of a class takes (R627): a FREE place, else the oldest CLOSED record's, else, for C2 and higher,
the oldest OPEN record's of a lower class. -/
def Block.recPlace (s : Block) (cls : Nat) : Option Nat :=
  match (List.range 256).find? fun i => (aget? s.fl.recs i).isNone with
  | some i => some i
  | none =>
    match oldestRec (s.fl.recs.filter fun e => !e.2.isOpen) with
    | some e => some e.1
    | none => if cls ≤ 1 then none else (oldestRec (s.fl.recs.filter fun e => e.2.isOpen && decide (e.2.cls < cls))).map (·.1)

/-- FAULT_OPEN (Table 20.11). -/
def Block.postOpen (s : Block) (r : FaultRec) : Block :=
  s.postI 0x2B 0x200 (r.cls + 1) 0 false
    [r.fid, w32 (r.cls + (if r.clearable then 8 else 0) + 256 * r.page + 65536 * r.code), r.detail]

/-- A record opens, recurs or rises in class (R623 to R627).  Only classes C1 to C4 leave a record. -/
def Block.record (s : Block) (page code cls : Nat) (detail : Word) (way : CloseWay) : Block :=
  match s.openRec page code detail with
  | some (i, r) =>
    let r' := { r with recur := satN 16 (r.recur + 1) }
    if r.cls < cls then
      let r'' := { r' with cls := cls, way := way, clearable := way == .clear }
      (({ s with fl := { s.fl with recs := aput s.fl.recs i r'' } } : Block).postTally 0x209 0).postOpen r''
    else ({ s with fl := { s.fl with recs := aput s.fl.recs i r' } } : Block).postTally 0x209 0
  | none =>
    match s.recPlace cls with
    | none => (s.bump R.FAULT_REC_LOST).postTally 0x207 0
    | some i =>
      let s := match aget? s.fl.recs i with
        | some q => if q.isOpen then (s.bump R.FAULT_REC_LOST).postTally 0x207 0 else s
        | none => s
      let r : FaultRec := { fid := s.fl.nextFid, cls := cls, clearable := way == .clear, page := page, code := code,
                            fsnOpen := s.tm.fsn, ftOpen := s.tm.ft, detail := detail, recur := 0, isOpen := true,
                            close := 0, fsnClose := 0, way := way }
      ({ s with fl := { s.fl with recs := aput s.fl.recs i r, nextFid := s.fl.nextFid + 1 } } : Block).postOpen r

/-- The record at a place closes (R626), with FAULT_CLOSE. -/
def Block.closeAt (s : Block) (i how : Nat) : Block :=
  match aget? s.fl.recs i with
  | some r =>
    if r.isOpen then
      let s := { s with fl := { s.fl with recs := aput s.fl.recs i { r with isOpen := false, close := how, fsnClose := s.tm.fsn } } }
      s.post 0x2B 0x201 [r.fid, w32 how, w32 r.recur]
    else s
  | none => s

/-- Every open record that meets a test closes, in FID order of their places. -/
def Block.closeWhere (s : Block) (how : Nat) (p : FaultRec → Bool) : Block :=
  (s.fl.recs.filter fun e => e.2.isOpen && p e.2).foldl (fun s e => s.closeAt e.1 how) s

/-- An AUTO record closes because its condition has ended (R626). -/
def Block.autoClose (s : Block) (page code : Nat) (detail : Word → Bool) : Block :=
  s.closeWhere 0 fun r => r.way == .auto && r.page == page && r.code == code && detail r.detail

/-- A record of class `c` or higher is open. -/
def Block.anyOpen (s : Block) (c : Nat) : Bool := s.fl.recs.any fun e => e.2.isOpen && decide (c ≤ e.2.cls)

end Sys2Proof.Machine
end

