-- ==== Sys2Proof/Machine/Line.lean ====
section
/-!
DEFINITION. The lanes of a mirror port (R288 to R292): block times, the scrambler, sideband messages and where they stand between
the block boundaries.
-/
namespace Sys2Proof.Machine

/-- The lanes of a port (Table 9.1). -/
def portLanes (p : Nat) : Nat := if p = 3 then 16 else 32

/-- A block time of a lane-rate code in 1/16 ns (Table 9.2). -/
def blockTime (rate : Nat) : Nat := match rate with | 0 => 330 | 1 => 220 | _ => 165

/-- The blocks of a sideband message: 128 bits, one bit per lane and block. -/
def msgBlocks (p : Nat) : Nat := 128 / portLanes p

/-! ## The scrambler x^58 + x^39 + 1 of Clause 49

A lane's register holds its last 58 scrambled bits, the oldest in bit 0. -/

/-- One bit through the scrambler: the bit sent, and the register after it. -/
def scrambleBit (reg : Nat) (b : Bool) : Bool × Nat :=
  let o := b != (natBit reg 0 != natBit reg 19)
  (o, reg / 2 + (if o then 2 ^ 57 else 0))

/-- A 64-bit payload through the scrambler, least significant bit first. -/
def scramble (reg word : Nat) : Nat × Nat :=
  (List.range 64).foldl (fun a i =>
    let r := scrambleBit a.2 (natBit word i)
    (a.1 + (if r.1 then 2 ^ i else 0), r.2)) (0, reg)

/-- A polynomial over two elements, times x, modulo x^58 + x^19 + 1: the recurrence the scrambled bits meet while the payload is
zero. -/
def polyX (a : Nat) : Nat := if natBit a 57 then (2 * a) % 2 ^ 58 ^^^ (2 ^ 19 + 1) else 2 * a

/-- The product of two such polynomials. -/
def polyMul (a b : Nat) : Nat :=
  (List.range 58).foldr (fun i acc => let acc := polyX acc; if natBit b i then acc ^^^ a else acc) 0

/-- x^n. -/
def polyPow (n : Nat) : Nat :=
  (List.range 96).foldr (fun i acc => let sq := polyMul acc acc; if natBit n i then polyX sq else sq) 1

/-- The register after blocks with a zero payload (R290). -/
def idleBlocks (reg n : Nat) : Nat :=
  let c := polyPow (64 * n)
  let ext := (List.range 58).foldl (fun a i => if natBit a i != natBit a (i + 19) then a + 2 ^ (58 + i) else a) reg
  bitsMask ((List.range 58).filter fun k => (List.range 58).foldl (fun odd i => odd != (natBit c i && natBit ext (k + i))) false)

/-! ## Sideband messages (R291, Tables 9.3 and 9.4) -/

/-- The body of a message, in place: the arguments are those of `Out.sml`. -/
def smlBody (code : Nat) (a : List Nat) : Nat :=
  let x := fun i => a.getD i 0
  match code with
  | 1 => x 0 * 2 ^ 16 + x 1 * 2 ^ 22 + x 2 * 2 ^ 32 + x 4 * 2 ^ 64 + x 3 * 2 ^ 72
  | 2 => x 0 * 2 ^ 16 + x 1 * 2 ^ 22 + x 3 * 2 ^ 27 + x 2 * 2 ^ 32 + x 4 * 2 ^ 64
  | 4 => x 0 * 2 ^ 16 + x 1 * 2 ^ 32
  | 5 | 7 => x 0 * 2 ^ 16
  | _ => 0

/-- The 128 bits of a message. -/
def smlBits (code cnt : Nat) (a : List Nat) : Nat :=
  let m := 0xD5 + code * 256 + cnt % 16 * 4096 + smlBody code a
  m + crc16 (leBytes 14 m) * 2 ^ 112

/-- The first place for a message of m blocks at or after a boundary that meets none of the places taken (R292). -/
def placeAfter (m : Nat) (busy : List Nat) : Nat → Nat :=
  fun c => (List.range (busy.length + 1)).foldl (fun c _ =>
    match busy.find? fun b => decide (b < c + m) && decide (c < b + m) with | some b => b + m | none => c) c

/-- The last place for a message of m blocks that ends by a boundary and meets none of the places taken (R292). -/
def placeBefore (m : Nat) (busy : List Nat) : Nat → Nat :=
  fun e => (List.range (busy.length + 1)).foldl (fun c _ =>
    match busy.find? fun b => decide (b < c + m) && decide (c < b + m) with | some b => b - m | none => c) (e - m)

/-- A mirror port. -/
def Block.port (s : Block) (p : Nat) : Port := s.ma.getD p Port.reset

/-- A mirror port changes. -/
def Block.modPort (s : Block) (p : Nat) (f : Port → Port) : Block := { s with ma := modAt s.ma p f }

/-- The first block boundary of a port at or after a local instant. -/
def Port.boundary (q : Port) (t : Nat) : Nat := cdiv (16 * t - q.line.origin) (blockTime q.rate)

/-- A message begins at a boundary (R292); messages long past are dropped. -/
def Block.smlAt (s : Block) (p first code : Nat) (args : List Nat) : Block :=
  (s.modPort p fun q =>
    { q with cnt := (q.cnt + 1) % 16,
             line := { q.line with side := q.line.side.filter (fun x => decide (q.boundary s.now ≤ x.1 + 64)) ++
                                     [(first, smlBits code q.cnt args)] } }).emit (.sml p code args)

/-- The places taken on a port's sideband, with those its coming RESETs claim. -/
def Port.busy (q : Port) (due : List Nat) : List Nat := q.line.side.map (·.1) ++ due

/-- A message is sent at the first free place (R292). -/
def Block.sml (s : Block) (p code : Nat) (args : List Nat) (due : List Nat := []) : Block :=
  let q := s.port p
  s.smlAt p (placeAfter (msgBlocks p) (q.busy due) (q.boundary s.now)) code args

/-- A lane's register at a boundary, from where it stands, with the payloads of the load in hand (R290). -/
def Line.regAt (l : Line) (lane : Nat) (word : Nat → Nat) (k : Nat) : Nat :=
  let reg := l.scr.getD lane 0
  match l.run with
  | none => idleBlocks reg (k - l.sent)
  | some r =>
    let a := max l.sent r.first
    let b := min k (r.first + r.blocks)
    if a < b then
      let reg := (List.range (b - a)).foldl (fun g i => (scramble g (word (a + i - r.first))).2) (idleBlocks reg (a - l.sent))
      idleBlocks reg (k - b)
    else idleBlocks reg (k - l.sent)

/-- The sideband bit of a lane at a boundary: of the training frame, of a message, or zero (R291, R300). -/
def Line.sideBit (l : Line) (p lane rate k : Nat) : Bool :=
  if l.training then
    let j := k % 64
    if j < 8 then true else if j < 16 then natBit lane (j - 8) else if j < 18 then natBit rate (j - 16) else false
  else
    match l.side.find? fun x => decide (x.1 ≤ k) && decide (k < x.1 + msgBlocks p) with
    | some x => natBit x.2 ((k - x.1) * portLanes p + lane)
    | none => false

/-- A 66-bit block (R289), in the order it is sent: bit 0 first.  The header is 0b01 or 0b10 by the sideband bit and is not
scrambled; an inverted lane carries the complement. -/
def block66 (side : Bool) (payload : Nat) (inverted : Bool) : Nat :=
  let v := (if side then 2 else 1) + 4 * payload
  if inverted then 2 ^ 66 - 1 - v else v

end Sys2Proof.Machine
end

