-- ==== Sys2Proof/Machine/Safe.lean ====
section
/-!
DEFINITION. What a fault does beyond its event (R622, R634): the record, the count of corrected faults, and the change of
device state that its class alone decides.
-/
namespace Sys2Proof.Machine

/-- A port takes a state, with PORT_STATE (Table 9.15). -/
def Block.portGoto (s : Block) (p st : Nat) : Block :=
  let old := (s.port p).st
  if old = st then s
  else (s.modPort p fun q => { q with st := st, since := s.now }).postI (0x0E + p) 0x090 0 p false [pk p st old 0]

/-- A pulse on every GPIO pin with a function (Table 3.13). -/
def Block.gpioPulse (s : Block) (f : Nat) (us : Option Nat) : Block :=
  (List.range 32).foldl (fun s i => if s.fld (R.PIN_GPIO_MUX (i / 8)) (4 * (i % 8)) 4 = f then s.emit (.pulse i true us) else s) s

/-- PARK is sent on a port (R311): the frames in hand are over; MAp_RDY_N falls once the array has parked. -/
def Block.parkPort (s : Block) (p : Nat) : Block :=
  let q := s.port p
  if q.st = 4 ∨ q.st = 5 ∨ q.st = 6 then
    ((s.modPort p fun q =>
      { q with parked := false, words := [], nextWords := [], phase := 0, loading := false, preload := false, stage := [],
               line := { q.line with run := none } }).sml p 3 []).postTally 0x09A p
  else s

/-- The beam enables fall (R14, R329). -/
def Block.beamLow (s : Block) : Block :=
  { s with sc := { s.sc with beamOn := false, dac := [0, 0, 0] }, pins := { s.pins with hlEn := 0 } }

/-- The chains that run receive ZERO and stay at zero until the next FRAME (R372). -/
def Block.chainsZero (s : Block) : Block :=
  (List.range 4).foldl (fun s c =>
    match s.ls.chn[c]? with
    | some k => if k.st = 2 ∨ k.st = 3 then
        ({ s with ls := { s.ls with chn := modAt s.ls.chn c fun k => { k with zero := true, clkOff := true,
                                                                              queue := [] } } } : Block).emit (.chain c 12 [])
        else s
    | none => s) s

/-- The hardwired path acts (R14, R402, R634): the shunts divert (`pathCut`), the chains receive ZERO, the beam enables fall and
every member's light is off. -/
def Block.lightOut (s : Block) : Block := s.beamLow.chainsZero

/-- Every group goes dark (R634): no group is lit any more. -/
def Block.groupsOut (s : Block) : Block :=
  { s with ls := { s.ls with grp := s.ls.grp.map fun k =>
      { k with lit := false, starting := false, stopping := false, softAt := none, level := 0, motion := Motion.rest 0, moving := false } } }

/-- The arrays park, and the ports that ran are READY (R311). -/
def Block.parkAll (s : Block) : Block :=
  (List.range 4).foldl (fun s p =>
    let s := s.parkPort p
    if (s.port p).st = 5 ∨ (s.port p).st = 6 then s.portGoto p 4 else s) s

/-- What entry to SAFE does to the outputs (R311, R346, R634). -/
def Block.safeOutputs (s : Block) : Block := s.lightOut.groupsOut.parkAll

/-- A request to LIT is cut short before its groups have completed their soft start (R121): INTERRUPTED. -/
def Block.interrupt (s : Block) : Block :=
  match s.pw.stateSet with
  | some o => if o.target = 5 then ({ s with pw := { s.pw with stateSet := none } } : Block).complete o.cseq 0x8002 else s
  | none => s

/-- Entry to SAFE (R622, R634, R635): from READY, LIT and FROST_HOLD; elsewhere no state changes. -/
def Block.enterSafe (s : Block) (reason : Nat) (fid : Word) : Block :=
  match s.pw.state with
  | .ready | .lit | .frostHold =>
    let s := ((s.goto .safe reason).safeOutputs.interrupt).setReg R.FAULT_SAFE_CAUSE (w32 (reason + 256 * (fid.toNat % 16777216)))
    s.postI 0x2B 0x202 0 0 false [w32 reason, fid]
  | _ => s

/-- A fault of a class is detected (R622 to R627): C0 is counted, C1 to C4 leave a record, and C3 enters SAFE. -/
def Block.raise (s : Block) (page code cls : Nat) (detail : Word) (way : CloseWay) (reason : Nat := 7) : Block :=
  if cls = 0 then s.bump R.FAULT_C0_COUNT
  else
    let fid := match s.openRec page code detail with
      | some e => e.2.fid
      | none => s.fl.nextFid
    let s := s.record page code cls detail way
    if cls = 3 then s.enterSafe reason fid else s

/-- A fault with its event: the event carries the class, and its first word is the record's DETAIL (R641). -/
def Block.faultEv (s : Block) (page ty cls : Nat) (data : List Word) (way : CloseWay) (inst : Nat) : Block :=
  (s.postI page ty (cls + 1) inst false data).raise page ty cls (data.headD 0) way

end Sys2Proof.Machine
end

