-- ==== Sys2Proof/Machine/Regwrite.lean ====
section
/-!
DEFINITION. A write of the host to one register (Table 0.5, R92, R666): when it is served, the lock, the legal values, the bits it
reaches.
-/
namespace Sys2Proof.Machine

/-! ## When the host's writes are served -/

/-- The register pages are served from STANDBY on (Table 0.2), and not in D3hot (R168). -/
def Block.hostOk (s : Block) : Bool :=
  !bit (s.reg R.HOST_STATUS) 2 &&
  match s.pw.state with
  | .off | .aon | .boot => false
  | .shutdownLatched => !s.pw.coreGated && !s.pw.heldReset
  | _ => !s.pw.heldReset

/-- A write to an RW register with an effect of its own: ignored while its page is locked (R92). -/
def Block.onWrite (s : Block) (page : Nat) (f : Block → Block) : Block :=
  if !s.hostOk then s else if bit (s.reg (R.PAGE_LOCK page)) 0 then s.errCause page 2 else f s

/-- A write to a register that R92 does not name (WO, W1S, W1C). -/
def Block.onStrobe (s : Block) (f : Block → Block) : Block := if s.hostOk then f s else s

/-- The mover of a Skidder channel, SKD_CH_CTRL.MOVER (Table 5.12). -/
def Block.skdMover (s : Block) (c : Nat) : Nat := s.fld (R.SKD_CH_CTRL c) 3 2

/-! ## One register -/

/-- Does a value keep every field of a row within its legal values (R666)? -/
def RegRow.legalVal (r : RegRow) (v : Word) : Bool :=
  r.legal.all fun l =>
    (match l.en with
     | some b => !bit v b
     | none => false) || l.ranges.any fun g => decide (g.1 ≤ bits v l.lo l.w) && decide (bits v l.lo l.w ≤ g.2)

/-- A value with the bits a write reaches taken from it, the others kept. -/
def RegRow.merge (r : RegRow) (old v : Word) : Word := (old &&& ~~~(w32 r.mask)) ||| (v &&& w32 r.mask)

/-- An RW register takes a value, by the host or by the Almanac (R92, R666), with what the value then does. -/
def Block.rwTake (s : Block) (a : Nat) (v : Word) (f : Block → Word → Block) : Block :=
  match rowAt a with
  | none => s
  | some r =>
    if bit (s.reg (R.PAGE_LOCK (pageOf a))) 0 then s.errCause (pageOf a) 2
    else
      let w := r.merge (s.reg a) v
      if r.legalVal w then f s w else s.errCause (pageOf a) 5

/-- A write of the host to an RW register. -/
def Block.rwWrite (s : Block) (a : Nat) (v : Word) (f : Block → Word → Block) : Block := if s.hostOk then s.rwTake a v f else s

/-- A shadow at `key` takes a value (R92): its range is checked when a commit is validated (R666); `a` is the register that gives it. -/
def Block.shTake (s : Block) (a key : Nat) (v : Word) : Block :=
  match rowAt a with
  | none => s
  | some r => if bit (s.reg (R.PAGE_LOCK (pageOf a))) 0 then s.errCause (pageOf a) 2 else s.setReg key (r.merge (s.reg key) v)

end Sys2Proof.Machine
end

