-- ==== Sys2Proof/Machine/Frame.lean ====
section
/-!
DEFINITION. The instants of a frame (R46 to R59) and the geometry and load time of the ports they depend on.  Functions that a
validation needs take the register view `v` they read: the active copies, or the values a commit would bring.
-/
namespace Sys2Proof.Machine

/-! ## Ports -/

/-- A light group. -/
def Block.grp (s : Block) (g : Nat) : Group := s.ls.grp.getD g Group.reset

/-- A light group changes. -/
def Block.modGrp (s : Block) (g : Nat) (f : Group → Group) : Block := { s with ls := { s.ls with grp := modAt s.ls.grp g f } }

/-- MA_CFG fields in a view. -/
def maEn (v : Nat → Word) (p : Nat) : Bool := bit (v (R.MA_CFG p)) 0
def maRate (v : Nat → Word) (p : Nat) : Nat := bits (v (R.MA_CFG p)) 1 2
def maMode (v : Nat → Word) (p : Nat) : Nat := bits (v (R.MA_CFG p)) 3 2
def maClone (v : Nat → Word) (p : Nat) : Bool := bit (v (R.MA_CFG p)) 8
def maSrc (v : Nat → Word) (p : Nat) : Nat := bits (v (R.MA_CFG p)) 9 2

/-- A lane rate code in units of 0.1 Gbit/s (R288). -/
def rate10 (c : Nat) : Nat := match c with | 0 => 32 | 1 => 48 | _ => 64

/-- A mode word's geometry (MA_MODE): W and H. -/
def modeGeom (w : Word) : Nat × Nat := (bits w 0 7 * 128, bits w 7 9 * 16)

/-- The geometry of the selected mode of a port (R301), where its array has identified. -/
def Block.geom (s : Block) (v : Nat → Word) (p : Nat) : Option (Nat × Nat) :=
  match (s.port p).ident with
  | none => none
  | some i => some (modeGeom (i.words.getD (maMode v p) 0))

/-- The full-plane load time of a port in ns (R280), 0 without an identified array. -/
def Block.loadNs (s : Block) (v : Nat → Word) (p : Nat) : Nat :=
  match s.geom v p with
  | none => 0
  | some (w, h) => cdiv (w * h * 660) (64 * portLanes p * rate10 (maRate v p))

/-- The staging depth of a port's array (R280). -/
def Block.stageDepth (s : Block) (p : Nat) : Nat := match (s.port p).ident with | none => 0 | some i => i.sd

/-- The dark interval in ns. -/
def darkNs (v : Nat → Word) : Nat := bits (v R.TIME_DARK_LEN) 0 24 * 10

/-- t_pre (R52): the dark interval, or the longest first-slot load of an enabled port.  The load time is that of a full plane, also where
slot 0 is a ZERO or ONE plane (log entry 235). -/
def Block.tPre (s : Block) (v : Nat → Word) : Nat :=
  (List.range 4).foldl (fun m p => if maEn v p then max m (s.loadNs v p) else m) (darkNs v)

/-! ## Boundaries -/

/-- FB_k (R46). -/
def Block.fbAt (s : Block) (k : Nat) : Nat := s.tm.epoch + k * s.tm.num / s.tm.den

/-- The next frame boundary. -/
def Block.nextFb (s : Block) : Nat := s.fbAt s.tm.nextK

/-- The preload start of the next boundary (R272). -/
def Block.nextPreload (s : Block) : Nat := s.nextFb - s.tPre s.act

/-- The cutoff of the next boundary (R53). -/
def Block.nextCutoff (s : Block) : Nat := s.nextPreload - s.afld R.TIME_COMMIT_GUARD 0 18

/-- The start of the dark interval of the frame (R54). -/
def Block.nextDark (s : Block) : Nat := s.nextFb - darkNs s.act

/-- Is the device in the dark interval of a frame? -/
def Block.inDarkNow (s : Block) : Bool := s.tm.run && decide (darkNs s.act ≠ 0) && decide (s.nextDark ≤ s.tm.ft)

/-- The conditions of Table 19.7 for an instance. -/
def Block.cond (s : Block) (src inst : Nat) : Bool :=
  match src with
  | 0x001 => true
  | 0x002 => s.pw.state.lightOn
  | 0x003 => s.pw.state == .frostHold
  | 0x004 => s.pw.state == .safe
  | 0x005 => decide (inst < 5) && (s.grp inst).lit
  | 0x006 => decide (inst < 4) && (s.port inst).phase == 1
  | 0x007 => s.inDarkNow
  | 0x008 => s.cm.list.any fun c => c.stage == .pending
  | 0x009 => s.ho.inForce
  | 0x00A => s.pp.fallback
  | 0x00B => s.th.lvl.throttle
  | 0x00C => (s.th.mg[inst]?.map fun m => m.lvl.throttle).getD false
  | 0x00D => (s.dc.pairs[inst]?.map fun q => q.rdfirst).getD false
  | 0x00E => (s.dc.pairs[inst]?.map fun q => q.st == 4).getD false
  | 0x00F => s.sc.st == 5
  | 0x010 => s.sc.beamOn
  | 0x011 => s.bt.hkRestart.isSome
  | 0x012 => decide (inst < 4) && (s.port inst).st == 5
  | 0x013 => (s.fb.ports[inst]?.map fun p => p.st == 6).getD false
  | 0x014 => decide (inst < 32) && bit s.pins.gpioIn inst
  | _ => false

/-- CYCLES counters of Tally count the local nanoseconds for which their condition holds (R614): of `ns` that have just passed, from
the FT `old`; all of them, or those in the dark interval. -/
def Block.countCycles (s : Block) (ns old : Nat) : Block :=
  let dark := if s.inDarkNow then min ns (s.tm.ft - max old s.nextDark) else 0
  let cnt := s.ty.cnt.mapIdx fun n c =>
    let g := s.tallyCfg n
    let holds := if bit g 16 then (List.range 64).any (s.cond (bits g 0 10)) else s.cond (bits g 0 10) (bits g 10 6)
    if bits g 17 2 == 2 && holds then { c with count := c.count + if bits g 0 10 = 7 then dark else ns } else c
  { s with ty := { s.ty with cnt := cnt } }

/-- The slew rate in 2^-32 ns for each local ns (R43). -/
def Block.slewRate (s : Block) : Nat := max 1 (s.fld R.TIME_SLEW_MAX 0 8) * 2 ^ 32 / 1000000

/-- TIME_FREQ_TRIM, in 2^-32. -/
def Block.trim (s : Block) : Int := sgn 32 (s.reg R.TIME_FREQ_TRIM).toNat

/-- FT after local time has passed (R38, R41, R43): the trim applies, and an offset left to slew is removed at the slew rate. -/
def Block.ftAfter (s : Block) (ns : Nat) : Nat × Nat × Int :=
  let m : Int := (min s.tm.slew.natAbs (ns * s.slewRate) : Nat)
  let c := if s.tm.slew < 0 then -m else m
  let d := ((ns * 2 ^ 32 + s.tm.frac : Nat) : Int) + (ns : Int) * s.trim + c
  (s.tm.ft + d.toNat / 2 ^ 32, d.toNat % 2 ^ 32, s.tm.slew - c)

/-- A pulse of FSYNC_OUT, of the width of TIME_CTRL (Table 2.10). -/
def Block.fsyncPulse (s : Block) : Out := .pulse 32 true (some (s.fld R.TIME_CTRL 8 8))

/-- FSYNC_OUT pulses at each whole second of FT while its mode says so (Table 2.10); its pin is number 32 in the record. -/
def Block.secPulse (s : Block) (old : Nat) : Block :=
  if s.fld R.TIME_CTRL 4 2 = 1 ∧ old / 1000000000 ≠ s.tm.ft / 1000000000 then s.emit s.fsyncPulse else s

/-- Local time passes, and with it fabric time while TIME runs (R38). -/
def Block.advance (s : Block) (ns : Nat) : Block :=
  if ns = 0 then s
  else
    let f := if s.tm.run then s.ftAfter ns else (s.tm.ft, s.tm.frac, s.tm.slew)
    let old := s.tm.ft
    let s : Block := { s with now := s.now + ns, tm := { s.tm with ft := f.1, frac := f.2.1, slew := f.2.2 } }
    (s.countCycles ns old).secPulse old

/-- The local time until FT has grown by `d` ns, in whole nanoseconds. -/
def Block.localFor (s : Block) (d : Nat) : Nat :=
  let need := d * 2 ^ 32 - s.tm.frac
  let base := ((2 ^ 32 : Int) + s.trim).toNat
  let r := ((base : Int) + (if s.tm.slew < 0 then -(s.slewRate : Int) else s.slewRate)).toNat
  let t := s.tm.slew.natAbs / s.slewRate
  if s.tm.slew = 0 ∨ t = 0 then cdiv need base
  else if need ≤ t * r then cdiv need r else t + cdiv (need - t * r) base

/-- Fabric time reaches an instant, unless it has passed it. -/
def Block.advanceTo (s : Block) (ft : Nat) : Block :=
  if s.tm.run ∧ s.tm.ft < ft then
    let s := s.advance (s.localFor (ft - s.tm.ft))
    { s with tm := { s.tm with ft := ft, frac := 0 } }
  else s

/-- Local time reaches an instant, unless it has passed it. -/
def Block.toLocal (s : Block) (t : Nat) : Block := s.advance (t - s.now)

/-- An instant of the frame in hand, counted from its FB on the local time base (R56). -/
def Block.toSlot (s : Block) (off : Int) : Block := s.toLocal ((s.tm.fbNow : Int) + off).toNat

/-- The next instant at which a wheel slot samples (R58, R393): the first one on the grid that starts at the FB, not before now and
after the last sample taken. -/
def Block.sampleAt (s : Block) (slot : Nat) : Nat :=
  let t := max s.now (s.cp.sampled + 1)
  let base := s.tm.fbNow + 16 * slot
  if t ≤ base then base else base + (t - base + 1023) / 1024 * 1024

/-- Is a wheel slot that begins at a local instant over before the next FB cuts its turn short (R57)? -/
def Block.beforeFb (s : Block) (t : Nat) : Bool := !s.tm.run || decide (t + 16 ≤ s.now + s.localFor (s.nextFb - s.tm.ft))

/-- The groups that the dark transitions in progress hold at zero (R77). -/
def Block.darkGroups (s : Block) : Nat := s.tm.dark.foldl (fun m d => m ||| d.groups) 0

/-- Does a dark transition hold a light group at zero? -/
def Block.isDark (s : Block) (g : Nat) : Bool := s.tm.dark.any fun d => natBit d.groups g

/-! ## Commits and the boundary to come (R48, R49, R64, R77, R259) -/

/-- Does the pipeline process frames in this device state (Table 0.2, R256)? -/
def Block.pipeRuns (s : Block) : Bool := s.pw.state.running && s.pw.state != .frostHold

/-- Does no frame begin at the PB that falls next, for the fallback (R258, R259)? -/
def Block.pbSkipped (s : Block) : Bool := s.pp.fallback && s.pp.skip && s.pipeRuns

/-- Does a commit hold a source-side register? -/
def sourcePages (m : Nat) : Bool := [0x08, 0x0A, 0x0B, 0x0C, 0x14].any (natBit m)

/-- Does a commit apply at the FB that falls: its display side, after its source side, or the whole of a major one? -/
def Commit.display (c : Commit) : Bool := c.stage == .sourced || (c.stage == .latched && c.major && c.skip == 0)

/-- Does the source side of a minor commit apply at the PB that falls? -/
def Commit.source (c : Commit) : Bool := c.stage == .latched && !c.major && c.skip == 0

/-- Is a commit held for a PB at which no frame begins (R259)?  A major commit with a source-side page is held whole, where R77 speaks of
the FB that latched it (log entry 235). -/
def Block.holds (s : Block) (c : Commit) : Bool := s.pbSkipped && c.stage == .latched && c.skip == 0 && sourcePages c.pages

/-- The FSN that the next boundary takes (R48, R49). -/
def Block.fsnNext (s : Block) : Word :=
  match s.cm.list.reverse.find? fun c => c.display && !s.holds c && natBit c.pages 7 && bit (sget regDflt c.vals R.TIME_FB_CTRL) 0 with
  | some c => sget regDflt c.vals R.TIME_FSN_LOAD
  | none => s.tm.fsn + 1

/-- The values in force from the next FB (R64, R77): the display side of a commit whose source side has applied, and every part of a latched
major commit. -/
def Block.coming (s : Block) (a : Nat) : Word :=
  match s.cm.list.reverse.find? fun c => c.display && !s.holds c && natBit c.pages (pageOf a) && (c.major || !sourceSide a) with
  | some c => s.enApply a (sget regDflt c.vals a)
  | none => s.act a

/-- The FSN at the next boundary, where no load is due. -/
def Block.nextFsn (s : Block) : Word := s.tm.fsn + 1

end Sys2Proof.Machine
end

