-- ==== Sys2Proof/Machine/Ecc.lean ====
section
/-!
DEFINITION. Where a block of DRAM and its check bytes stand in the stacks (R471), and the Reed-Solomon code of the inline ECC (R472).
-/
namespace Sys2Proof.Machine

/-! ## Places (R471) -/

/-- A place in the stacks: channel 0 to 23, bank, row, and the byte within the 2 KiB row. -/
structure DramPlace where
  channel : Nat
  bank : Nat
  row : Nat
  col : Nat
  deriving DecidableEq, Repr

/-- The block of a device physical address within its pair, and where it stands: channel, bank, row and data slot (R471). -/
def blockPlace (pa : Nat) : DramPlace × Nat :=
  let b := pa % 0x100000000 / 64
  let j := b / 2
  let g := j / 30
  let c := j % 30
  ({ channel := 2 * (pa / 0x100000000) + b % 2, bank := (g % 16) ^^^ (g / 16 % 16), row := g / 16, col := 64 * c }, c)

/-- The place of the first of the four check bytes of an address's block: byte 1,920 + 4c of the row that holds the block. -/
def checkPlace (pa : Nat) : DramPlace := { (blockPlace pa).1 with col := 1920 + 4 * (blockPlace pa).2 }

/-- The device physical address of the block in a data slot: `blockPlace` read backwards. -/
def placeBlock (p : DramPlace) : Nat :=
  let g := 16 * p.row + (p.bank ^^^ (p.row % 16))
  p.channel / 2 * 0x100000000 + 64 * (2 * (30 * g + p.col / 64) + p.channel % 2)

/-! ## The field (R472): GF(2^8) with x^8 + x^4 + x^3 + x^2 + 1 -/

/-- The product with α. -/
def gfShift (a : Nat) : Nat := if 128 ≤ a then (2 * a) ^^^ 0x11D else 2 * a

/-- The product of a with the lowest `n` bits of b. -/
def gfMulBits : Nat → Nat → Nat → Nat
  | 0, _, _ => 0
  | n + 1, a, b => (if b % 2 = 1 then a else 0) ^^^ gfMulBits n (gfShift a) (b / 2)

/-- The product in the field. -/
def gfMul (a b : Nat) : Nat := gfMulBits 8 a b

/-- The powers of α. -/
def gfAlpha : Nat → Nat
  | 0 => 1
  | n + 1 => gfShift (gfAlpha n)

/-! ## The code (R472): generator roots α^0 to α^3 -/

/-- The coefficients of the generator below its leading one, from x^3 down. -/
def rsGen : List Nat :=
  ((List.range 4).foldl (fun p i => List.zipWith (fun a b => a ^^^ b) (p ++ [0]) (0 :: p.map (gfMul (gfAlpha i)))) [1]).tail

/-- The remainder register takes a data byte. -/
def rsFeed (st : List Nat) (d : Nat) : List Nat :=
  let f := d ^^^ st.headD 0
  List.zipWith (fun a g => a ^^^ gfMul f g) (st.tail ++ [0]) rsGen

/-- The four check bytes of a block's 64 data bytes; byte 0 is the coefficient of the highest power (log entry 180). -/
def rsCheck (data : List Byte) : List Byte := (data.foldl (fun st b => rsFeed st b.toNat) [0, 0, 0, 0]).map (BitVec.ofNat 8)

/-- The value of a word of 68 bytes at a power of α. -/
def rsEval (j : Nat) (word : List Nat) : Nat := word.foldl (fun a c => gfMul (gfAlpha j) a ^^^ c) 0

/-- What the decoder says of a word read. -/
inductive EccVerdict | good | corrected | uncorrectable
  deriving DecidableEq, Repr

/-- The verdict by syndromes: an error confined to one of the 68 bytes is corrected, any other that shows is uncorrectable. -/
def rsVerdict (word : List Nat) : EccVerdict :=
  let s (j : Nat) : Nat := rsEval j word
  if (List.range 4).all fun j => s j == 0 then .good
  else if s 0 != 0 && (List.range 68).any fun p =>
      let x := gfAlpha p
      gfMul x (s 0) == s 1 && gfMul x (s 1) == s 2 && gfMul x (s 2) == s 3 then .corrected
  else .uncorrectable

/-- The error pattern of a block read: by place (0 to 63 the data bytes, 64 to 67 the check bytes), the bits that differ.  The code is
linear, so the verdict on what is read is the verdict on the pattern. -/
def errWord (errs : List (Nat × Nat)) : List Nat :=
  (List.range 68).map fun i => (errs.filter fun e => e.1 == i).foldl (fun a e => a ^^^ (e.2 % 256)) 0

/-- The verdict on an error pattern (R472). -/
def eccVerdict (errs : List (Nat × Nat)) : EccVerdict := rsVerdict (errWord errs)

end Sys2Proof.Machine
end

