-- ==== Sys2Proof/Machine/Sched.lean ====
section
/-!
DEFINITION. The requests that wait at a channel pair and the order in which it issues them (R21, R23, R476, R478, R479): the two queues of
64 entries, the open rows, ROWHIT and RDFIRST order, and the guest's share of the command slots.  A request stands here from its arrival to
its issue; what it does to memory it does when its command says (log entry 181).
-/
namespace Sys2Proof.Machine

/-- A channel pair. -/
def Block.pair (s : Block) (q : Nat) : Pair := s.dc.pairs.getD q Pair.reset

/-- A channel pair changes. -/
def Block.modPair (s : Block) (q : Nat) (f : Pair → Pair) : Block := { s with dc := { s.dc with pairs := modAt s.dc.pairs q f } }

/-- MT/s of a set point (R483). -/
def mtps (sp : Nat) : Nat := match sp with | 0 => 9600 | 1 => 8533 | 2 => 6400 | _ => 3200

/-- The command slots of a pair in 100 ns (R476): two channels, each a burst of 32 bytes in 16 transfers (log entry 182). -/
def sampleSlots (sp : Nat) : Nat := mtps sp / 80

/-! ## Arrival -/

/-- The requests of an access to `n` bytes: one for each block, of two bursts; a write of part of a block is a read and a write
(R472). -/
def requestsOf (now pa n : Nat) (write guest : Bool) : List DramReq :=
  (List.range (if n = 0 then 0 else cdiv (pa % 64 + n) 64)).map fun i =>
    let b := pa / 64 * 64 + 64 * i
    { since := now, write := write, guest := guest, addr := b, capped := false,
      bursts := if write && !(decide (pa ≤ b) && decide (b + 64 ≤ pa + n)) then 4 else 2 }

/-- An access arrives at its pair. -/
def Block.dramReq (s : Block) (pa n : Nat) (write guest : Bool) : Block :=
  s.modPair (pa / 0x100000000) fun x => { x with reqs := x.reqs ++ requestsOf s.now pa n write guest, lastReq := s.now }

/-! ## Order -/

/-- The requests in the read queue and in the write queue, 64 entries each, oldest first. -/
def queued : Nat → Nat → List DramReq → List DramReq
  | _, _, [] => []
  | r, w, x :: l =>
    if x.write then (if w = 0 then queued r w l else x :: queued r (w - 1) l)
    else (if r = 0 then queued r w l else x :: queued (r - 1) w l)

/-- The bank a request goes to, of the pair's two channels. -/
def DramReq.bankKey (r : DramReq) : Nat := let p := (blockPlace r.addr).1; p.channel % 2 * 16 + p.bank

/-- The row a request goes to. -/
def DramReq.row (r : DramReq) : Nat := (blockPlace r.addr).1.row

/-- Does a request hit an open row? -/
def Pair.hits (x : Pair) (r : DramReq) : Bool := aget? x.rows r.bankKey == some r.row

/-- ROWHIT order (R478): the oldest request beyond the age cap, else the oldest that hits an open row, else the oldest. -/
def Pair.rowhit (x : Pair) (now age : Nat) (l : List DramReq) : Option DramReq :=
  (l.find? fun r => decide (age < now - r.since)).or ((l.find? x.hits).or l.head?)

/-- RDFIRST order (R479): a read, in ROWHIT order among reads; a write where no read is ready, while the write queue drains from HI to LO,
or where a write is older than eight age caps. -/
def Pair.rdfirstPick (x : Pair) (now age : Nat) (l : List DramReq) : Option DramReq :=
  let rd := l.filter fun r => !r.write
  let wr := l.filter (·.write)
  if rd.isEmpty || x.drain || wr.any fun r => decide (8 * age < now - r.since) then
    (x.rowhit now (8 * age) wr).or (x.rowhit now age rd)
  else x.rowhit now age rd

/-- The guest bursts of the last 1,000 command slots. -/
def Pair.guestBursts (x : Pair) : Nat := ((x.guestAt.filter fun e => decide (x.slot < e.1 + 1000)).map (·.2)).sum

/-- May a guest request be issued (R476)?  Fewer than 100 guest bursts have been issued in the last 1,000 slots. -/
def Pair.guestMay (x : Pair) : Bool := decide (x.guestBursts < 100)

/-- The requests among which a pair chooses: its owner's; where no owner request is ready, its guests' within their share (R476). -/
def Pair.ready (x : Pair) : List DramReq :=
  let l := queued 64 64 x.reqs
  let own := l.filter fun r => !r.guest
  if !own.isEmpty then own else if x.guestMay then l else []

/-- The write queue's drain mark (R479): set at HI, clear at LO. -/
def Pair.mark (x : Pair) (hi lo : Nat) : Pair :=
  let n := ((queued 64 64 x.reqs).filter (·.write)).length
  { x with drain := if hi ≤ n then true else if n ≤ lo then false else x.drain }

/-- A request is issued: its row is open, its bursts have taken their slots. -/
def Pair.issue (x : Pair) (r : DramReq) : Pair :=
  { x with reqs := x.reqs.erase r, rows := aput x.rows r.bankKey r.row, slot := x.slot + r.bursts,
           guestAt := if r.guest then x.guestAt ++ [(x.slot, r.bursts)] else x.guestAt,
           used := if r.guest then x.used + r.bursts else x.used }

/-- A pair issues requests up to a slot, at most `n` of them. -/
def Pair.issueTo (x : Pair) (now age hi lo upto : Nat) : Nat → Pair
  | 0 => x
  | n + 1 =>
    let x := x.mark hi lo
    if upto ≤ x.slot then x
    else match (if x.rdfirst then x.rdfirstPick now age x.ready else x.rowhit now age x.ready) with
      | none => x
      | some r => (x.issue r).issueTo now age hi lo upto n

/-- The guest requests that the cap, and nothing else, holds back now and has not held back before (R476). -/
def Pair.cappedNow (x : Pair) : List DramReq :=
  let l := queued 64 64 x.reqs
  if l.any (fun r => !r.guest) || x.guestMay then [] else l.filter fun r => !r.capped

/-- 100 ns of a pair's scheduling: requests are issued in the order in force, and GUEST_CAP counts those the cap holds back. -/
def Block.schedule (s : Block) (q : Nat) : Block :=
  let x := s.pair q
  if x.st ≠ 2 then s
  else
    let n := sampleSlots x.sp
    let y := x.issueTo s.now (10 * s.afld R.DMC_SCHED_CFG 0 12) (s.afld R.DMC_WQ_MARK 0 6) (s.afld R.DMC_WQ_MARK 8 6) (x.slot + n) n
    let y := { y with slot := max y.slot (x.slot + n) }
    let c := y.cappedNow
    let y := { y with guestAt := y.guestAt.filter fun e => decide (y.slot < e.1 + 1000),
                      reqs := y.reqs.map fun r => if c.contains r then { r with capped := true } else r }
    c.foldl (fun s _ => s.postTally 0x15E q) (s.modPair q fun _ => y)

/-- The share of the last frame's command slots that guests used, in thousandths (Table 15.6). -/
def guestShare (num den sp used : Nat) : Nat := min 1023 (used * 8000 * den * 1000 / (max 1 num * mtps sp))

end Sys2Proof.Machine
end

