-- ==== Sys2Proof/Machine/Memory.lean ====
section
/-!
DEFINITION. The in-package DRAM as memory (R470), device translation (R194 to R197, R669) and the access one client makes to
device memory.  What a byte of DRAM that nothing has written reads as is 0 (log entry 3).
-/
namespace Sys2Proof.Machine

/-- What an unlisted byte of DRAM reads as (log entry 3). -/
def memDflt (_ : Nat) : Byte := 0

/-- The canonical form of the DRAM. -/
abbrev Memory.wf (m : List (Nat × Byte)) : Bool := swf memDflt m

/-- Does DRAM stand at a device physical address?  Pair q holds q x 2^32 to q x 2^32 + 0xEFFF_FFFF (R470). -/
def inDram (pa : Nat) : Bool := decide (pa / 0x100000000 < 12) && decide (pa % 0x100000000 < 0xF0000000)

/-- The channel pair of a device physical address. -/
def pairOf (pa : Nat) : Nat := pa / 0x100000000

/-- A byte of DRAM. -/
def Block.memB (s : Block) (pa : Nat) : Byte := sget memDflt s.dram pa

/-- A byte of DRAM is written. -/
def Block.setMemB (s : Block) (pa : Nat) (b : Byte) : Block := { s with dram := sset memDflt s.dram pa b }

/-- `n` bytes of DRAM from an address on. -/
def Block.memBytes (s : Block) (pa : Nat) : Nat → List Byte
  | 0 => []
  | n + 1 => s.memB pa :: s.memBytes (pa + 1) n

/-- A write with `left` bytes to come from an address on clears the poison of a block it writes whole (R473). -/
def Block.freshBlock (s : Block) (pa left : Nat) : Block :=
  if pa % 64 = 0 ∧ 64 ≤ left then { s with dc := { s.dc with poison := s.dc.poison.filter fun b => b != pa / 64 } } else s

/-- Bytes are written to DRAM from an address on. -/
def Block.setMem (s : Block) (pa : Nat) : List Byte → Block
  | [] => s
  | b :: bs => ((s.setMemB pa b).freshBlock pa (bs.length + 1)).setMem (pa + 1) bs

/-- A little-endian number of `n` bytes in DRAM (R4). -/
def Block.memNat (s : Block) (pa n : Nat) : Nat := leNat (s.memBytes pa n)

/-- A fault of a device access: kind, detail (Table 5.9) and the level a walk reached. -/
structure AccFault where
  kind : Nat
  detail : Nat
  level : Nat
  deriving DecidableEq, Repr

/-- Is the address in CP11? -/
def inCP11 (pa : Nat) : Bool := inDram pa && pairOf pa == 11

/-- A translation as the tables give it: physical page, log2 of the page size, R, W, CONT of the entry used. -/
structure Leaf where
  pa : Nat
  log : Nat
  r : Bool
  w : Bool
  cont : Bool
  deriving DecidableEq, Repr

/-- One walk (R194): `lvl` levels are left, `lvl = 0` being the fourth.  An entry in an uncorrectable block counts as not valid
(R473).  Tables lie in CP11; a first-level leaf and a leaf not aligned to its page size are malformed. -/
def Block.walkFrom (s : Block) (va : Nat) : Nat → Nat → Except AccFault Leaf
  | lvl, table =>
    let level := 3 - lvl
    if !inCP11 table then .error ⟨1, 2, level⟩ else
    let at8 := table + 8 * (va / 2 ^ (12 + 9 * lvl) % 512)
    let e := s.memNat at8 8
    let pa := natBits e 12 36 * 4096
    if !natBit e 0 || s.dc.poison.contains (at8 / 64) then .error ⟨1, 1, level⟩ else
    let leaf : Leaf := { pa := pa, log := 12 + 9 * lvl, r := natBit e 2, w := natBit e 3, cont := natBit e 4 && lvl == 0 }
    match lvl with
    | 0 => .ok leaf
    | n + 1 =>
      if natBit e 1 then
        if n + 1 = 3 then .error ⟨1, 0xE, 0⟩
        else if pa % 2 ^ (12 + 9 * (n + 1)) ≠ 0 then .error ⟨1, 0xE, level⟩
        else .ok leaf
      else s.walkFrom va n pa

/-- The root table's physical address. -/
def Block.dtuRoot (s : Block) : Nat := s.fld R.DTU_ROOT_HI 0 16 * 0x100000000 + s.fld R.DTU_ROOT_LO 12 20 * 4096

/-- The translation the tables give an address (R194): nothing above bit 47, and nothing while DTU_CTRL.EN is 0. -/
def Block.walk (s : Block) (va : Nat) : Except AccFault Leaf :=
  if 2 ^ 48 ≤ va then .error ⟨1, 0xD, 0⟩
  else if !bit (s.reg R.DTU_CTRL) 0 then .error ⟨1, 1, 0⟩
  else s.walkFrom va 3 s.dtuRoot

/-- The fourth-level table an address's walk ends in, where it does. -/
def Block.lastTable (s : Block) (va : Nat) : Nat → Nat → Option Nat
  | 0, table => some table
  | n + 1, table =>
    if !inCP11 table then none else
    let e := s.memNat (table + 8 * (va / 2 ^ (12 + 9 * (n + 1)) % 512)) 8
    if !natBit e 0 || natBit e 1 then none else s.lastTable va n (natBits e 12 36 * 4096)

/-- Do the 16 entries around an address form a 64 KiB page (R195)?  All CONT, identical flags, contiguous PAs from a 64 KiB
boundary on. -/
def Block.contGroup (s : Block) (va : Nat) : Option Nat :=
  match s.lastTable va 3 s.dtuRoot with
  | none => none
  | some t =>
    let g := va / 65536 * 16 % 512
    let es := (List.range 16).map fun i => s.memNat (t + 8 * (g + i)) 8
    let e0 := es.headD 0
    let pa0 := natBits e0 12 36 * 4096
    if pa0 % 65536 = 0 ∧ (es.mapIdx fun i e => natBit e 4 && natBits e 0 12 == natBits e0 0 12 && natBits e 12 36 * 4096 == pa0 + 4096 * i).all id
    then some pa0 else none

/-- The installed translation that serves an address. -/
def Block.tlbHit (s : Block) (va : Nat) : Option TlbEntry := s.dt.tlb.find? fun t => t.va == va / 2 ^ t.log * 2 ^ t.log

/-- A translation is installed (R196): the TLB has 2,048 entries; the one that makes way is open (a free value). -/
def Block.installTlb (s : Block) (t : TlbEntry) : Block :=
  if s.dt.tlb.length < 2048 then { s with dt := { s.dt with tlb := t :: s.dt.tlb } }
  else
    let (n, s) := s.takeBelow (s.dt.tlb.length - 1)
    { s with dt := { s.dt with tlb := t :: s.dt.tlb.eraseIdx n } }

/-- The DTU's fault registers (Table 5.15). -/
def Block.dtuFault (s : Block) (va : Nat) (f : AccFault) (write : Bool) (client : Nat) : Block :=
  s.setRegs [(R.DTU_FAULT_ADDR_LO, w32 va), (R.DTU_FAULT_ADDR_HI, w32 (va / 0x100000000 % 65536)),
    (R.DTU_FAULT_INFO, w32 (f.kind + 16 * f.detail + 4096 * f.level + 16384 * write.toNat + 65536 * client))]

/-- The level at which a leaf of a page size stands (R194). -/
def leafLevel (log : Nat) : Nat := if log = 30 then 1 else if log = 21 then 2 else 3

/-- The permission and the place of an access through a translation. -/
def leafAccess (va pa log : Nat) (r w write : Bool) : Except AccFault Nat :=
  if (if write then w else r) then
    (if inDram (pa + va % 2 ^ log) then .ok (pa + va % 2 ^ log) else .error ⟨1, 3, leafLevel log⟩)
  else .error ⟨2, 6, leafLevel log⟩

/-- A translation by the DTU for a client (R194 to R196): a hit, or a walk that installs or faults.  A CONT entry that is
not part of a whole 64 KiB page installs 4 KiB and is reported (R195). -/
def Block.translate (s : Block) (va : Nat) (write : Bool) (client : Nat) : Block × Except AccFault Nat :=
  if 2 ^ 48 ≤ va then (s.dtuFault va ⟨1, 0xD, 0⟩ write client, .error ⟨1, 0xD, 0⟩) else
  if !bit (s.reg R.DTU_CTRL) 0 then (s.dtuFault va ⟨1, 1, 0⟩ write client, .error ⟨1, 1, 0⟩) else
  match s.tlbHit va with
  | some t =>
    let s := s.bump R.DTU_TLB_HITS
    match leafAccess va t.pa t.log t.r t.w write with
    | .ok pa => (s, .ok pa)
    | .error f => (s.dtuFault va f write client, .error f)
  | none =>
    let s := s.bump R.DTU_TLB_MISSES
    match s.walk va with
    | .error f => (s.dtuFault va f write client, .error f)
    | .ok l =>
      let s := s.bump R.DTU_WALKS
      match leafAccess va l.pa l.log l.r l.w write with
      | .error f => (s.dtuFault va f write client, .error f)
      | .ok pa =>
        if l.cont then
          match s.contGroup va with
          | some p => (s.installTlb { va := va / 65536 * 65536, log := 16, pa := p, r := l.r, w := l.w }, .ok pa)
          | none =>
            let s := s.installTlb { va := va / 4096 * 4096, log := 12, pa := l.pa, r := l.r, w := l.w }
            let g := va / 65536 * 65536
            ((s.bump R.DTU_CONT_COUNT).post 0x06 0x039 [w32 g, w32 (g / 0x100000000)], .ok pa)
        else (s.installTlb { va := va / 2 ^ l.log * 2 ^ l.log, log := l.log, pa := l.pa, r := l.r, w := l.w }, .ok pa)

/-- Is the page of a physical address in the tile area or the header table of a SEALED or HELD surface (R207)? -/
def Block.inSealed (s : Block) (pa : Nat) : Bool :=
  s.sf.surf.any fun u => u.st == .sealed && (u.pages.contains (pa / 4096) || u.hdrPages.contains (pa / 4096))

/-- May a transfer write at a physical address (R12, R18, R181)?  The fault where it may not: CP0 to CP6 are the Log deck's, and a sealed
surface takes no write. -/
def Block.writeBar (s : Block) (pa : Nat) : Option AccFault :=
  if pairOf pa ≤ 6 then some ⟨2, 5, 3⟩ else if s.inSealed pa then some ⟨2, 4, 3⟩ else none

/-- An access to `n` bytes of device memory, translated: it arrives at its pair, as the owner's in CP11 and as a guest's elsewhere (R181,
R476; log entry 183), unless it may not write there. -/
def Block.access (s : Block) (client va n : Nat) (write : Bool) : Block × Except AccFault Nat :=
  match s.translate va write client with
  | (s, .error f) => (s, .error f)
  | (s, .ok pa) =>
    match if write then s.writeBar pa else none with
    | some f => (s, .error f)
    | none => (s.dramReq pa n write (pairOf pa != 11), .ok pa)

/-- The place of a byte within its beat of 64 bytes: a new beat is a new access; `left` bytes are still to go. -/
def Block.beat (s : Block) (client va left : Nat) (write : Bool) (cur : Option Nat) : Block × Except AccFault Nat :=
  match cur with
  | some pa => if va % 64 = 0 then s.access client va (min left 64) write else (s, .ok pa)
  | none => s.access client va (min left (64 - va % 64)) write

/-- `n` bytes read at device virtual addresses, beat by beat; a fault gives the bytes before it and where it stood. -/
def Block.readVirt (s : Block) (client : Nat) : Nat → Nat → Option Nat → List Byte → Block × List Byte × Option (AccFault × Nat)
  | _, 0, _, acc => (s, acc, none)
  | va, n + 1, cur, acc =>
    match s.beat client va (n + 1) false cur with
    | (s, .ok pa) => s.readVirt client (va + 1) n (some (pa + 1)) (acc ++ [s.memB pa])
    | (s, .error f) => (s, acc, some (f, va))

/-! ## Captured translations (R197) -/

/-- The physical pages of `n` pages from a device virtual address on, as the tables give them: `none` where one is missing. -/
def Block.walkPages (s : Block) (va : Nat) : Nat → Option (List Nat)
  | 0 => some []
  | n + 1 =>
    match s.walk va, s.walkPages (va + 4096) n with
    | .ok l, some ps => some ((l.pa + va % 2 ^ l.log) / 4096 :: ps)
    | _, _ => none

/-- The pages of `n` bytes from a device virtual address on, where they are mapped wholly to a pair. -/
def Block.pairPages (s : Block) (va n q : Nat) : Option (List Nat) :=
  (s.walkPages (va / 4096 * 4096) (cdiv (va % 4096 + n) 4096)).filter fun l => l.all fun p => inDram (p * 4096) && pairOf (p * 4096) == q

/-- Are `n` bytes from a device virtual address on mapped wholly to a pair? -/
def Block.mappedTo (s : Block) (va n q : Nat) : Bool := (s.pairPages va n q).isSome

/-- A client's pages as a commit captures them: none unless the whole lies in the client's pair (R18, R197). -/
def Block.capture (s : Block) (va n q : Nat) : List Nat := (s.pairPages va n q).getD []

/-- The place of a byte of a captured region. -/
def capAt (ps : List Nat) (off : Nat) : Option Nat := ps[off / 4096]?.map fun p => p * 4096 + off % 4096

/-- Bytes are written in a captured region, where it is mapped. -/
def Block.setCap (s : Block) (ps : List Nat) (off : Nat) : List Byte → Block
  | [] => s
  | b :: bs => (match capAt ps off with | some pa => (s.setMemB pa b).freshBlock pa (bs.length + 1) | none => s).setCap ps (off + 1) bs

/-- A number in a captured region, 0 where it is not mapped. -/
def Block.capNat (s : Block) (ps : List Nat) (off n : Nat) : Nat :=
  leNat ((List.range n).map fun i => match capAt ps (off + i) with
    | some pa => if s.dc.hlZero.contains (pa / 64) then 0 else s.memB pa
    | none => 0)

/-- The base of the P-I images (R358). -/
def Block.piBase (s : Block) : Nat :=
  s.afld R.LSG_PI_BASE_HI 0 16 * 0x100000000 + s.afld R.LSG_PI_BASE_LO 21 11 * 2097152

/-- The pages of the two P-I images as a commit of LSG captures them: none unless all 2 MiB lie in CP11 and may be read and written
(R18, R197; log entry 238). -/
def Block.piCapture (s : Block) : List Nat :=
  if (List.range 512).all fun i => match s.walk (s.piBase + 4096 * i) with | .ok l => l.r && l.w | .error _ => false
  then s.capture s.piBase 2097152 11 else []

/-- The offset of an image in the captured pages (R358). -/
def piOff (image : Nat) : Nat := image * 0x100000

/-- Does a page of DRAM hold a part of the inactive P-I image? -/
def Block.piHolds (s : Block) (pg : Nat) : Bool := ((s.ls.piPages.drop (256 * (1 - s.ls.piImage))).take 256).contains pg

/-- A write of `n` bytes of DRAM clears VALID where it reaches the inactive P-I image (R360, R444). -/
def Block.piTouch (s : Block) (pa n : Nat) : Block :=
  if (s.ls.piValid || s.ca.isSome) && decide (0 < n) && (s.piHolds (pa / 4096) || s.piHolds ((pa + n - 1) / 4096)) then
    { s with ls := { s.ls with piValid := false }, ca := s.ca.map fun r => { r with piWritten := true } }
  else s

/-- Bytes written at device virtual addresses; a fault gives where it stood, and the bytes before it have taken effect. -/
def Block.writeVirt (s : Block) (client : Nat) : Nat → Option Nat → List Byte → Block × Option (AccFault × Nat)
  | _, _, [] => (s, none)
  | va, cur, b :: bs =>
    match s.beat client va (bs.length + 1) true cur with
    | (s, .ok pa) => (((s.setMemB pa b).freshBlock pa (bs.length + 1)).piTouch pa 1).writeVirt client (va + 1) (some (pa + 1)) bs
    | (s, .error f) => (s, some (f, va))

end Sys2Proof.Machine
end

