-- ==== Sys2Proof/Machine/Surface.lean ====
section
/-!
DEFINITION. Surfaces in the pixel store (R199 to R208): formats, tiles, records and their states; the DEFINE, OPEN and CLOSE
operations and the capture of a record.
-/
namespace Sys2Proof.Machine

/-- Table 6.1: stored bits per pixel; 0 for a reserved code. -/
def fmtBpp (f : Nat) : Nat :=
  match f with
  | 1 => 16 | 2 => 24 | 3 => 32 | 4 => 32 | 5 => 32 | 6 => 48 | _ => 0

/-- Tile bytes (Table 6.1): 64 x 32 pixels. -/
def tileBytes (f : Nat) : Nat := 256 * fmtBpp f

/-- Bits of a component's field in a format. -/
def fmtField (f : Nat) : Nat :=
  match f with
  | 1 => 8 | 2 => 8 | 3 => 8 | 4 => 10 | 5 => 16 | 6 => 16 | _ => 0

/-- The tiles of a surface (R201). -/
def Surface.tiles (u : Surface) : Nat := cdiv u.width 64 * cdiv u.height 32

/-- R200: a component of `b` bits in a field of `c` bits; the bits below repeat it from its most significant bit downwards. -/
def expand (b c v : Nat) : Nat :=
  if b = 0 then 0
  else if c ≤ b then v % 2 ^ b
  else bitsMask ((List.range c).filter fun i => natBit v (b - 1 - (c - 1 - i) % b))

/-- The stored bytes of a pixel from its components, already in the format's field width (Table 6.1): R, G, B, or Y and the
chroma that belongs to the pixel. -/
def packPixel (f : Nat) (cs : List Nat) : List Byte :=
  let c (i : Nat) := cs.getD i 0
  match f with
  | 1 => leBytes 2 (c 0 + 256 * c 1)
  | 2 => leBytes 3 (c 0 + 256 * c 1 + 65536 * c 2)
  | 3 => leBytes 4 (c 0 + 256 * c 1 + 65536 * c 2)
  | 4 => leBytes 4 (c 0 + 1024 * c 1 + 1048576 * c 2)
  | 5 => leBytes 4 (c 0 + 65536 * c 1)
  | 6 => leBytes 6 (c 0 + 65536 * c 1 + 4294967296 * c 2)
  | _ => []

/-- The components of a stored pixel. -/
def unpackPixel (f : Nat) (bs : List Byte) : List Nat :=
  let v := leNat bs
  match f with
  | 1 => [natBits v 0 8, natBits v 8 8]
  | 2 => [natBits v 0 8, natBits v 8 8, natBits v 16 8]
  | 3 => [natBits v 0 8, natBits v 8 8, natBits v 16 8]
  | 4 => [natBits v 0 10, natBits v 10 10, natBits v 20 10]
  | 5 => [natBits v 0 16, natBits v 16 16]
  | 6 => [natBits v 0 16, natBits v 16 16, natBits v 32 16]
  | _ => []

/-- The byte offset of a pixel from BASE (R201). -/
def Surface.pixOff (u : Surface) (x y : Nat) : Nat :=
  (y / 32 * cdiv u.width 64 + x / 64) * tileBytes u.format + (y % 32 * 64 + x % 64) * (fmtBpp u.format / 8)

/-- The physical address of an offset in the tile area, through the captured translations (R197). -/
def Surface.phys (u : Surface) (off : Nat) : Nat := u.pages.getD (off / 4096) 0 * 4096 + off % 4096

/-- A surface record. -/
def Block.surf (s : Block) (i : Nat) : Surface := s.sf.surf.getD i Surface.reset

/-- A surface record changes. -/
def Block.modSurf (s : Block) (i : Nat) (f : Surface → Surface) : Block := { s with sf := { s.sf with surf := modAt s.sf.surf i f } }

/-- Bytes are written into the tile area of a surface: into the compressed surface's image, or to memory.  A writer writes
nowhere beyond the tile area (log entry 163). -/
def Block.surfWrite (s : Block) (i off : Nat) : List Byte → Block
  | [] => s
  | b :: bs =>
    let u := s.surf i
    let s := if u.tiles * tileBytes u.format ≤ off then s
             else if u.cmp then s.modSurf i fun u => { u with image := padBytes (max u.image.length (off + 1)) u.image |>.set off b }
             else (s.setMemB (u.phys off) b).freshBlock (u.phys off) (bs.length + 1)
    s.surfWrite i (off + 1) bs

/-- The header entry of a compressed surface's tile (Table 6.3), through the captured translations (R197). -/
def Block.tileHdr (s : Block) (u : Surface) (t : Nat) : Nat := s.memNat (u.hdrPages.getD (4 * t / 4096) 0 * 4096 + 4 * t % 4096) 4

/-- A tile the pipeline reads as zeros (R203): reserved bits set, or UNITS out of range. -/
def badTile (f h : Nat) : Bool :=
  h / 256 != 0 || natBits h 0 6 == 0 || decide (tileBytes f / 256 < natBits h 0 6)

/-- The tile that the bytes of its units stand for: as the compressor made them, else Falhane's own form. -/
def Block.decodeTile (s : Block) (coded : List Nat) (off : Nat) : Byte :=
  match s.sf.codes.find? fun e => e.1 == coded with
  | some e => e.2.getD off 0
  | none => BitVec.ofNat 8 (Config.codedTile coded off)

/-- The stored components of a pixel of a record, as the pipeline reads them (R202, R203). -/
def Block.recPix (s : Block) (u : Surface) (x y : Nat) : List Nat :=
  let n := fmtBpp u.format / 8
  if !u.cmp then unpackPixel u.format ((List.range n).map fun j => s.memB (u.phys (u.pixOff x y + j)))
  else if u.image ≠ [] then unpackPixel u.format ((u.image.drop (u.pixOff x y)).take n)
  else
    let t := y / 32 * cdiv u.width 64 + x / 64
    let h := s.tileHdr u t
    let tb := tileBytes u.format
    if badTile u.format h then List.replicate 3 0
    else if natBit h 7 then unpackPixel u.format ((List.range n).map fun j => s.memB (u.phys (t * tb + j)))
    else if natBit h 6 then unpackPixel u.format ((List.range n).map fun j => s.memB (u.phys (u.pixOff x y + j)))
    else
      let coded := (List.range (256 * natBits h 0 6)).map fun j => (s.memB (u.phys (t * tb + j))).toNat
      unpackPixel u.format ((List.range n).map fun j => s.decodeTile coded (u.pixOff x y - t * tb + j))

/-- The stored components of a pixel of a surface. -/
def Block.surfPix (s : Block) (i x y : Nat) : List Nat := s.recPix (s.surf i) x y

/-! ## The compressor (R202 to R204) -/

/-- The bytes of a tile of the pixels not yet compressed; the padding beyond the width or height is left open (R201). -/
def Block.tileImage (s : Block) (u : Surface) (t : Nat) : List Byte :=
  let n := max 1 (fmtBpp u.format / 8)
  let cols := max 1 (cdiv u.width 64)
  (List.range (tileBytes u.format)).map fun j =>
    if t % cols * 64 + j / n % 64 < u.width ∧ t / cols * 32 + j / n / 64 < u.height then u.image.getD (t * tileBytes u.format + j) 0
    else BitVec.ofNat 8 (Config.padding s.now (t * tileBytes u.format + j))

/-- Does every pixel of `n` bytes of a tile equal the first? -/
def solidTile (n : Nat) (tile : List Byte) : Bool := (tile.mapIdx fun j b => b == tile.getD (j % n) 0).all id

/-- The header entry and the data a compressor makes of a tile (Table 6.3): SOLID where it may and finds it so, RAW whenever the
coded form would need as many units as the raw tile or more, else coded. -/
def tileForm (f : Nat) (tile : List Byte) : Nat × List Byte :=
  let code := tile.map BitVec.toNat
  let raw := tileBytes f / 256
  let u := Config.tileUnits code % (raw + 1)
  if u = 0 ∧ solidTile (fmtBpp f / 8) tile = true then (1 + 128, tile.take (fmtBpp f / 8))
  else if u = 0 ∨ raw ≤ u then (raw + 64, tile)
  else (u, (List.range (256 * u)).map fun k => BitVec.ofNat 8 (Config.tileCode code k))

/-- Bytes are written at an offset of an area whose pages were captured. -/
def Block.setPaged (s : Block) (pages : List Nat) (off : Nat) : List Byte → Block
  | [] => s
  | b :: bs =>
    let pa := pages.getD (off / 4096) 0 * 4096 + off % 4096
    ((s.setMemB pa b).freshBlock pa (bs.length + 1)).setPaged pages (off + 1) bs

/-- A compressed tile is written, with its header entry. -/
def Block.putTile (s : Block) (u : Surface) (t : Nat) (tile : List Byte) (h : Nat × List Byte) : Block :=
  let s := (s.setPaged u.pages (t * tileBytes u.format) h.2).setPaged u.hdrPages (4 * t) (leBytes 4 h.1)
  if natBits h.1 6 2 = 0 then { s with sf := { s.sf with codes := (h.2.map BitVec.toNat, tile) :: s.sf.codes } } else s

/-- The tiles of a frame are compressed and written in order; false where one would take the frame beyond its budget, and the
writer stops (R204). -/
def Block.putTiles (s : Block) (i budget : Nat) : List Nat → Nat → Block × Bool
  | [], _ => (s, true)
  | t :: l, total =>
    let tile := s.tileImage (s.surf i) t
    let h := tileForm (s.surf i).format tile
    if budget < total + natBits h.1 0 6 then (s, false)
    else (s.putTile (s.surf i) t tile h).putTiles i budget l (total + natBits h.1 0 6)

/-- The units that the header table of a compressed surface names. -/
def Block.unitsOf (s : Block) (u : Surface) : Nat :=
  if u.cmp then ((List.range u.tiles).map fun t => natBits (s.tileHdr u t) 0 6).sum else 0

/-- A surface is named by a latched or active commit (Table 6.5): SELECT FIXED and STORE_FRAME_SURF. -/
def Block.surfNamed (s : Block) (i : Nat) : Bool :=
  (s.afld R.STORE_FRAME_CFG 0 2 == 0 && s.afld R.STORE_FRAME_SURF 0 6 == i) ||
    s.cm.list.any fun c => c.stage != .pending && natBit c.pages 0x08 &&
      bits (sget regDflt c.vals R.STORE_FRAME_CFG) 0 2 == 0 && bits (sget regDflt c.vals R.STORE_FRAME_SURF) 0 6 == i

/-- HELD (Table 6.5): a sealed surface that a PB selected, or that a latched or active commit names. -/
def Block.surfHeld (s : Block) (i : Nat) : Bool :=
  (s.surf i).st == .sealed && (s.sf.inUse == some i || s.surfNamed i)

/-- The code of a surface's state (Table 6.5). -/
def Block.surfCode (s : Block) (i : Nat) : Nat :=
  match (s.surf i).st with
  | .undefd => 0 | .closed => 1 | .opened => 2
  | .sealed => if s.surfHeld i then 4 else 3

/-- The set of an ingest source (Table 6.12): three surfaces, or four with SET4. -/
def Block.srcSet (s : Block) (n : Nat) : List Nat :=
  let v := s.act (R.INGEST_SRC_SET n)
  let l := [bits v 0 6, bits v 8 6, bits v 16 6]
  if s.abit (R.INGEST_SRC_CFG n) 8 then l ++ [bits v 24 6] else l

/-- Is the source enabled? -/
def Block.srcOn (s : Block) (n : Nat) : Bool := s.abit (R.INGEST_SRC_CFG n) 0 && bit (s.reg (R.PAGE_CTRL 0x09)) 0

/-- A surface in the set of an enabled source other than source 7 (R206). -/
def Block.inSourceSet (s : Block) (i : Nat) : Bool :=
  (List.range 7).any fun n => s.srcOn n && (s.srcSet n).contains i

/-- The outcome of a surface operation is reported, and a refusal posted (STORE_SURF_OP_RES, Table 6.13). -/
def Block.surfOpRes (s : Block) (i op reason : Nat) : Block :=
  if reason = 0 then s.setReg R.STORE_SURF_OP_RES 1
  else (s.setReg R.STORE_SURF_OP_RES (w32 (3 + 16 * reason))).post 0x08 0x047 [w32 (i + 256 * op + 65536 * reason)]

/-- The record a DEFINE forms from the window (Table 6.4). -/
def Block.windowSurf (s : Block) : Surface :=
  let w (j : Nat) := s.reg (R.STORE_SURF_REC j)
  { Surface.reset with
    base := (w 0).toNat + bits (w 1) 0 16 * 0x100000000
    width := bits (w 2) 0 16, height := bits (w 2) 16 16
    format := bits (w 3) 0 4, cmp := bit (w 3) 4, enc := bits (w 3) 5 2
    hdrBase := (w 4).toNat + bits (w 5) 0 16 * 0x100000000, st := .closed }

/-- A field out of range (Table 6.4, Table 6.1; R199: the YC422 formats need an even width). -/
def Surface.badField (u : Surface) : Bool :=
  !(decide (16 ≤ u.width) && decide (u.width ≤ 8192) && decide (16 ≤ u.height) && decide (u.height ≤ 4320)) ||
    fmtBpp u.format == 0 || u.enc == 3 || ((u.format == 1 || u.format == 5) && u.width % 2 == 1)

/-- The pages of a record's tile area, and of its header table where CMP is 1. -/
def Block.surfPages (s : Block) (u : Surface) : Option (List Nat × List Nat) :=
  match s.walkPages u.base (cdiv (u.tiles * tileBytes u.format) 4096),
        s.walkPages u.hdrBase (if u.cmp then cdiv (4 * u.tiles) 4096 else 0) with
  | some a, some b => some (a, b)
  | _, _ => none

/-- Does a page lie in CP8 or CP9? -/
def inCP89 (page : Nat) : Bool := inDram (page * 4096) && (pairOf (page * 4096) == 8 || pairOf (page * 4096) == 9)

/-- Why a DEFINE is refused (R205, R206): the reason of STORE_SURF_OP_RES, 0 for none. -/
def Block.defineReason (s : Block) (i : Nat) : Nat :=
  let u := s.windowSurf
  if s.surfHeld i || !((s.surf i).st == .undefd || (s.surf i).st == .closed) then 1
  else if s.inSourceSet i then 6
  else if u.base % 4096 ≠ 0 || (u.cmp && u.hdrBase % 4096 != 0) then 4
  else if u.badField then 5
  else match s.surfPages u with
    | none => 2
    | some (a, b) => if a.all inCP89 && b.all inCP89 then 0 else 3

/-- DEFINE (R205). -/
def Block.surfDefine (s : Block) (i : Nat) : Block :=
  let r := s.defineReason i
  let s := if r = 0 then
      s.modSurf i fun _ => match s.surfPages s.windowSurf with
        | some (a, b) => { s.windowSurf with pages := a, hdrPages := b }
        | none => s.windowSurf
    else s
  s.surfOpRes i 1 r

/-- Why an OPEN or a CLOSE is refused (R206). -/
def Block.openReason (s : Block) (i : Nat) (ok : SurfSt → Bool) : Nat :=
  if s.surfHeld i || !ok (s.surf i).st then 1 else if s.inSourceSet i then 6 else 0

/-- A record open for writing: its ERR flag clear and its history begun anew (R206). -/
def Surface.opened (u : Surface) : Surface := { u with st := .opened, err := false, sealPend := none, image := [], vsc := none }

/-- OPEN (R206). -/
def Block.surfOpen (s : Block) (i : Nat) : Block :=
  let r := s.openReason i fun t => t == .closed || t == .sealed
  let s := if r = 0 then s.modSurf i Surface.opened else s
  s.surfOpRes i 2 r

/-- CLOSE (R206). -/
def Block.surfClose (s : Block) (i : Nat) : Block :=
  let r := s.openReason i fun t => t == .opened || t == .sealed
  let s := if r = 0 then s.modSurf i fun u => { u with st := .closed, sealPend := none } else s
  s.surfOpRes i 3 r

/-- The unit budget of a compressed frame (R204). -/
def Block.unitBudget (s : Block) (u : Surface) : Nat := s.afld R.STORE_CMP_CHARGE 0 5 * u.tiles * tileBytes u.format / 4096

/-- The writer of a compressed surface compresses its frame (R202 to R204); false where the frame breaks its budget. -/
def Block.compress (s : Block) (i : Nat) : Block × Bool :=
  if (s.surf i).cmp then s.putTiles i (s.unitBudget (s.surf i)) (List.range (s.surf i).tiles) 0 else (s, true)

/-- A surface is sealed (R208): stamped and tagged; the event says what units the header table names (R202). -/
def Block.sealSurf (s : Block) (i source : Nat) (tag : Word) : Block :=
  let s := s.modSurf i fun u =>
    { u with st := .sealed, tag := tag, sealFt := s.tm.ft, source := source, sealPend := none, image := [], dropped := false }
  (s.bump R.STORE_SEALS).post 0x08 0x040 [w32 (i + 256 * source), tag, w32 (s.unitsOf (s.surf i))]

/-- The capture of a record into the window (R205). -/
def Block.surfCapture (s : Block) (i : Nat) : Block :=
  let u := s.surf i
  s.setRegs [(R.STORE_SURF_REC 0, w32 u.base), (R.STORE_SURF_REC 1, w32 (u.base / 0x100000000)),
    (R.STORE_SURF_REC 2, w32 (u.width + 65536 * u.height)),
    (R.STORE_SURF_REC 3, w32 (u.format + 16 * u.cmp.toNat + 32 * u.enc)),
    (R.STORE_SURF_REC 4, w32 u.hdrBase), (R.STORE_SURF_REC 5, w32 (u.hdrBase / 0x100000000)),
    (R.STORE_SURF_REC 6, w32 (s.surfCode i + 16 * u.err.toNat + 256 * (u.tag.toNat % 16777216)))]

end Sys2Proof.Machine
end

