-- ==== Sys2Proof/Machine/Pixel.lean ====
section
/-!
DEFINITION. The arithmetic of the pixel pipeline (R230 to R253): from a stored pixel to optical codes and highlight cells.
Linear values are integers in units of 2^-25 (S6.25).  A frame's pixels are functions of its `PipeFrame`.
-/
namespace Sys2Proof.Machine

/-! ## Exponentials in fixed point, 64 fraction bits -/

def fpOne : Nat := 18446744073709551616

def fpLn2 : Nat := 12786308645202655659

/-- z + z^3/3 + ... for |z| < 1/3, in 64 fraction bits. -/
def atanhSum (z z2 : Int) : Nat → Nat → Int
  | 0, _ => 0
  | n + 1, k => z / k + atanhSum (z * z2 / fpOne) z2 n (k + 2)

/-- The natural logarithm of a positive number in 64 fraction bits. -/
def fpLn (x : Nat) : Int :=
  let e : Int := (Nat.log2 x : Int) - 64
  let m : Int := if 0 ≤ e then x / 2 ^ e.toNat else x * 2 ^ (-e).toNat
  let z := (m - fpOne) * fpOne / (m + fpOne)
  e * fpLn2 + 2 * atanhSum z (z * z / fpOne) 24 1

/-- 1 + r + r^2/2 + ... for 0 <= r < ln 2, in 64 fraction bits. -/
def expSum (r t : Int) : Nat → Nat → Int
  | 0, _ => 0
  | n + 1, k => t + expSum r (t * r / fpOne / k) n (k + 1)

/-- The exponential of a number in 64 fraction bits. -/
def fpExp (y : Int) : Nat :=
  let k := y / (fpLn2 : Int)
  let v := expSum (y - k * fpLn2) fpOne 24 1
  (if 0 ≤ k then v * 2 ^ k.toNat else v / 2 ^ (-k).toNat).toNat

/-- x^(num/den) for x in 64 fraction bits. -/
def fpPow (x num den : Nat) : Nat := if x = 0 then 0 else fpExp (fpLn x * num / den)

/-- The PQ EOTF of BT.2100 over a signal in 64 fraction bits: cd/m2 in 64 fraction bits. -/
def pqEotf (e : Nat) : Nat :=
  let p := fpPow e 32 2523
  let n := p * 128 - 107 * fpOne
  let d := 2413 * fpOne - 2392 * p
  if d = 0 then 10000 * fpOne else 10000 * fpPow (n * fpOne / d) 8192 1305

/-- The PQ inverse EOTF: cd/m2 in 64 fraction bits to a signal in 64 fraction bits. -/
def pqInv (l : Nat) : Nat :=
  let p := fpPow (l / 10000) 1305 8192
  fpPow ((107 * fpOne + 2413 * p) * fpOne / (128 * fpOne + 2392 * p)) 2523 32

/-- The HLG inverse OETF of BT.2100, in 64 fraction bits. -/
def hlgInv (e : Nat) : Nat :=
  if 2 * e ≤ fpOne then e * e / (3 * fpOne)
  else (fpExp (((e : Int) * 100000000 - 55991073 * fpOne) / 17883277) + fpOne * 28466892 / 100000000) / 12

/-! ## Rounding and saturation (R231) -/

/-- A product of two linear values rounded to S6.25; `f` is the fraction bits of the factors beyond 25. -/
def prodQ (a b : Int) (f : Nat) : Int := rdiv (a * b) (2 ^ f)

/-- A sum held in S6.25. -/
def satQ (x : Int) : Int := clampI (-2147483648) 2147483647 x

/-- Did a sum saturate? -/
def satCount (x : Int) : Nat := if satQ x = x then 0 else 1

/-- A pixel in the pipeline: its channels, and the saturations counted on the way. -/
structure Px where
  v : List Int
  sats : Nat
  deriving DecidableEq, Repr

/-- Sums of a pixel, saturated and counted. -/
def Px.ofSums (l : List Int) (n : Nat) : Px := { v := l.map satQ, sats := n + (l.map satCount).sum }

def Px.c (p : Px) (i : Nat) : Int := p.v.getD i 0

/-- A matrix row applied to three channels, its coefficients with `f` fraction bits. -/
def rowSum (m : List Int) (r f : Nat) (v : Nat → Int) : Int :=
  ((List.range 3).map fun c => prodQ (m.getD (3 * r + c) 0) (v c) f).sum

/-! ## What a frame reads -/

/-- A register of the active copies the frame was begun with (R255). -/
def PipeFrame.act (f : PipeFrame) (a : Nat) : Word := ({ Block.reset with regs := f.view } : Block).act a

def PipeFrame.fld (f : PipeFrame) (a lo w : Nat) : Nat := bits (f.act a) lo w

/-- The memory and registers the frame reads, over any state. -/
def PipeFrame.mem (f : PipeFrame) : Block :=
  { Block.reset with dram := f.dram, regs := f.view, sf := { Block.reset.sf with codes := f.codes } }

/-- A byte of a table image. -/
def tableByte (t : List (Nat × Byte)) (i : Nat) : Byte := sget (fun _ => 0) t i

/-- A little-endian number in a table image. -/
def tableNat (t : List (Nat × Byte)) (off n : Nat) : Nat := leNat ((List.range n).map fun i => tableByte t (off + i))

/-- A number of `n` bytes at an offset of a map through the pages captured for it (R197), read while output row `y` is made:
nothing guards a map, so a write within the frame shows from the band on in which it falls (R244; log entry 208). -/
def PipeFrame.mapNat (f : PipeFrame) (pages : List Nat) (off n y : Nat) : Nat :=
  match pages[off / 4096]? with
  | some p => ({ Block.reset with dram := if y / 32 < f.cut then f.dram else f.later } : Block).memNat (p * 4096 + off % 4096) n
  | none => 0

/-! ## Stages 1 to 4 -/

/-- Does the surface hold interleaved chroma? -/
def is422 (f : Nat) : Bool := f == 1 || f == 5

/-- ENC, range and transfer function in force for the surface (R234). -/
def PipeFrame.enc (f : PipeFrame) : Nat × Bool × Nat :=
  let dflt := (f.rcd.enc, natBit (f.fld R.COLOR_IN_CFG 0 32) 2, f.fld R.COLOR_IN_CFG 0 2)
  match f.rcd.vsc with
  | some v => if natBit (f.fld R.COLOR_IN_CFG 0 32) 3 then (v.enc, v.narrow, v.tf) else dflt
  | none => dflt

/-- Stage 1 (R232): the components of a source pixel at 16 bits: Y, Cb, Cr or R, G, B. -/
def PipeFrame.unpack (f : PipeFrame) (x y : Nat) : List Nat :=
  let u := f.rcd
  let w := fmtField u.format
  let at16 (x : Nat) (i : Nat) := expand w 16 ((f.mem.recPix u x y).getD i 0)
  if is422 u.format then
    let e := x / 2 * 2
    let cb (k : Nat) := at16 k 1
    let cr (k : Nat) := at16 (k + 1) 1
    if x % 2 = 0 then [at16 x 0, cb e, cr e]
    else if e + 2 < u.width then [at16 x 0, (cb e + cb (e + 2) + 1) / 2, (cr e + cr (e + 2) + 1) / 2]
    else [at16 x 0, cb e, cr e]
  else if f.enc.1 = 0 then [at16 x 0, at16 x 1, at16 x 2]
  else [at16 x 1, at16 x 2, at16 x 0]

/-- A fraction held between 0 and 1, in 64 fraction bits. -/
def unit64 (n : Int) (d : Nat) : Nat := (clampI 0 fpOne (n * fpOne / d)).toNat

/-- Stage 2 (R233): R', G', B' between 0 and 1, in 64 fraction bits. -/
def PipeFrame.rgb (f : PipeFrame) (x y : Nat) : List Nat :=
  let (enc, narrow, _) := f.enc
  let c := f.unpack x y
  let c0 : Int := c.getD 0 0
  let c1 : Int := c.getD 1 0
  let c2 : Int := c.getD 2 0
  if enc = 0 then
    if narrow then [c0, c1, c2].map fun v => unit64 (v - 4096) 56064 else [c0, c1, c2].map fun v => unit64 v 65535
  else
    let kr : Int := if enc = 1 then 2126 else 2627
    let kb : Int := if enc = 1 then 722 else 593
    let yn := if narrow then (c0 - 4096) * 65535 * 57344 else c0 * 56064 * 57344
    let cn (v : Int) := if narrow then (v - 32768) * 65535 * 56064 else (v - 32768) * 56064 * 57344
    let d : Nat := 65535 * 56064 * 57344
    let r := yn * 10000 + 2 * (10000 - kr) * cn c2
    let b := yn * 10000 + 2 * (10000 - kb) * cn c1
    let g := yn * 100000000 - kr * r - kb * b
    [unit64 r (d * 10000), unit64 g (d * 10000 * (10000 - kr - kb).toNat), unit64 b (d * 10000)]

/-- The exact value of Table 7.2 to 64 fraction bits; for HLG, from all three components. -/
def PipeFrame.linear (f : PipeFrame) (tf : Nat) (es : List Nat) (i : Nat) : Nat :=
  let e := es.getD i 0
  let nits := max 1 (f.fld R.COLOR_BASE_NITS 0 14)
  match tf with
  | 0 => e * f.fld R.COLOR_LIN_GAIN 0 24 / 262144
  | 1 => fpPow e (f.fld R.COLOR_GAMMA 0 9) 100 * f.fld R.COLOR_SDR_GAIN 0 24 / 262144
  | 2 => pqEotf e / nits
  | _ =>
    let lw := max 1 (f.fld R.COLOR_HLG_PEAK 0 12)
    let s (j : Nat) := hlgInv (es.getD j 0)
    let ys := (2627 * s 0 + 6780 * s 1 + 593 * s 2) / 10000
    let log10 : Int := fpLn (lw * fpOne / 1000) * fpOne / 42475197918399869020
    let g1 : Int := fpOne / 5 + log10 * 42 / 100
    let ym := if ys = 0 then 0 else fpExp (fpLn ys * g1 / fpOne)
    lw * ym * s i / (fpOne * nits)

/-- Stage 3 (R235): the value is one of S6.25 within 0.01 % or 2^-25 of the exact one, whichever is larger; which of them is a free
value of the function and the exact value (log entry 27). -/
def PipeFrame.lin (f : PipeFrame) (es : List Nat) (i : Nat) : Int :=
  let (_, _, tf) := f.enc
  let exact := f.linear tf es i
  let tol : Int := max (2 ^ 39) (exact / 10000)
  let lo := -((tol - exact) / 2 ^ 39)
  let hi := (exact + tol) / 2 ^ 39
  lo + (Config.transferError (tf % 4) exact : Int) % (hi - lo + 1)

/-- Stage 4 (R236): a source pixel in the working space. -/
def PipeFrame.source (f : PipeFrame) (x y : Nat) : Px :=
  let es := f.rgb x y
  let p := Px.ofSums [f.lin es 0, f.lin es 1, f.lin es 2] 0
  let g := (List.range 9).map fun i => (f.act (R.COLOR_GAMUT i)).toInt
  Px.ofSums ((List.range 3).map fun r => rowSum g r 24 p.c) p.sats

/-! ## Stage 5: warp -/

/-- Node spacing codes (Table 7.6). -/
def warpStep (c : Nat) : Nat := 2 ^ (3 + min c 4)

def PipeFrame.sx (f : PipeFrame) : Nat := warpStep (f.fld R.WARP_CFG 4 4)
def PipeFrame.sy (f : PipeFrame) : Nat := warpStep (f.fld R.WARP_CFG 8 4)
def PipeFrame.mw (f : PipeFrame) : Nat := cdiv f.width f.sx + 1

/-- A coordinate of a mesh node for a sample set, in 1/256 pixel (Table 7.3). -/
def PipeFrame.node (f : PipeFrame) (i j set : Nat) (isY : Bool) : Int :=
  let o := 32 * (j * f.mw + i)
  sgn 32 (tableNat f.mesh (o + (if isY then 4 else 0)) 4) +
    4 * sgn 16 (tableNat f.mesh (o + 8 + 4 * set + (if isY then 2 else 0)) 2)

/-- VALID of a mesh node. -/
def PipeFrame.nodeValid (f : PipeFrame) (i j : Nat) : Bool := bit (w32 (tableNat f.mesh (32 * (j * f.mw + i) + 24) 1)) 0

/-- Bilinear interpolation over a cell of a by b steps, rounded to nearest. -/
def bilin (a b : Nat) (fx fy : Nat) (v00 v10 v01 v11 : Int) : Int :=
  rdiv ((a - fx : Int) * (b - fy) * v00 + fx * (b - fy : Int) * v10 + (a - fx : Int) * fy * v01 + fx * fy * v11) (a * b)

/-- The source position of an output pixel for a sample set, in 1/256 pixel (R238). -/
def PipeFrame.pos (f : PipeFrame) (x y set : Nat) (isY : Bool) : Int :=
  if !natBit (f.fld R.WARP_CFG 0 32) 0 then 256 * (if isY then y else x)
  else
    let i := x / f.sx
    let j := y / f.sy
    bilin f.sx f.sy (x % f.sx) (y % f.sy) (f.node i j set isY) (f.node (i + 1) j set isY) (f.node i (j + 1) set isY)
      (f.node (i + 1) (j + 1) set isY)

/-- Is an output pixel masked (R239, Table 7.3)? -/
def PipeFrame.masked (f : PipeFrame) (x y : Nat) : Bool :=
  natBit (f.fld R.WARP_CFG 0 32) 0 &&
    !(f.nodeValid (x / f.sx) (y / f.sy) && f.nodeValid (x / f.sx + 1) (y / f.sy) && f.nodeValid (x / f.sx) (y / f.sy + 1) &&
      f.nodeValid (x / f.sx + 1) (y / f.sy + 1))

/-- A tap at an integer source position (R239). -/
def PipeFrame.tap (f : PipeFrame) (x y : Int) (c : Nat) : Int :=
  let w : Int := f.rcd.width
  let h : Int := f.rcd.height
  if (0 ≤ x ∧ x < w) ∧ (0 ≤ y ∧ y < h) then (f.source x.toNat y.toNat).c c
  else if natBit (f.fld R.WARP_CFG 0 32) 2 then (f.source (clampI 0 (w - 1) x).toNat (clampI 0 (h - 1) y).toNat).c c
  else 0

/-- Catmull-Rom weights (a = -0.5) in S1.14 at a fraction of 1/64 pixel. -/
def crWeights (t : Nat) : List Int :=
  let u : Int := t
  let n : Int := 64
  let k (v : Int) := rdiv (v * 8192) (64 * 64 * 64)
  [k (-(u * u * u) + 2 * n * u * u - n * n * u), k (3 * u * u * u - 5 * n * u * u + 2 * n * n * n),
   k (-3 * u * u * u + 4 * n * u * u + n * n * u), k (u * u * u - n * u * u)]

/-- The sum of a channel's filter at a source position in 1/256 pixel (R238), and the saturations of the sums it is made of: the
separable filter saturates each row's sum (R231). -/
def PipeFrame.filter (f : PipeFrame) (px py : Int) (c : Nat) : Int × Nat :=
  if natBit (f.fld R.WARP_CFG 0 32) 1 then
    let qx := rdiv px 4
    let qy := rdiv py 4
    let wx := crWeights (qx % 64).toNat
    let wy := crWeights (qy % 64).toNat
    let rows := (List.range 4).map fun (j : Nat) =>
      ((List.range 4).map fun (i : Nat) => prodQ (wx.getD i 0) (f.tap (qx / 64 - 1 + i) (qy / 64 - 1 + j) c) 14).sum
    ((rows.mapIdx fun j r => prodQ (wy.getD j 0) (satQ r) 14).sum, (rows.map satCount).sum)
  else
    let fx := px % 256
    let fy := py % 256
    (((List.range 4).map fun (k : Nat) =>
      let i : Nat := k % 2
      let j : Nat := k / 2
      prodQ ((if i = 0 then 256 - fx else fx) * (if j = 0 then 256 - fy else fy)) (f.tap (px / 256 + i) (py / 256 + j) c) 16).sum, 0)

/-- Stage 5: the three channels of an output pixel for sample sets 0 to 2, or all three at set 3. -/
def PipeFrame.warp (f : PipeFrame) (x y : Nat) (set3 : Bool) : Px :=
  if f.masked x y then { v := [0, 0, 0], sats := 0 }
  else
    let l := (List.range 3).map fun c =>
      let k := if set3 then 3 else c
      f.filter (f.pos x y k false) (f.pos x y k true) c
    Px.ofSums (l.map (·.1)) (l.map (·.2)).sum

/-! ### The tile cache (R240, R241) -/

/-- The tiles the on-die cache of 8 MiB holds: 64 x 32 pixels of three linear values of 32 bits (log entry 209). -/
def cacheTiles : Nat := 8388608 / (64 * 32 * 12)

/-- The bytes of a tile of linear values. -/
def linTile : Nat := 64 * 32 * 12

/-- The cache as a frame goes through the tiles it uses, in order: the tiles in it, those in the spill area, and the tiles read
from the pixel store, written to the spill area, and the most the area has held. -/
structure CacheRun where
  cache : List Nat
  spilled : List Nat
  reads : Nat
  writes : Nat
  peak : Nat
  deriving DecidableEq, Repr

/-- The tile whose next use lies furthest ahead; one that is not used again lies beyond all others. -/
def furthest (cache rest : List Nat) : Option Nat :=
  (cache.foldl (fun (b : Option (Nat × Nat)) t =>
    let d := (rest.idxOf t)
    match b with
    | some q => if q.2 < d then some (t, d) else b
    | none => some (t, d)) none).map (·.1)

/-- A tile is used (R240, R241): from the cache, the spill area or the pixel store; a tile that makes way and is needed again goes
to the spill area. -/
def CacheRun.use (r : CacheRun) (t : Nat) (rest : List Nat) : CacheRun :=
  if r.cache.contains t then r
  else
    let back := r.spilled.contains t
    let r := { r with spilled := r.spilled.erase t, reads := r.reads + (if back then 0 else 1) }
    let r := if r.cache.length < cacheTiles then r else match furthest r.cache rest with
      | some v =>
        if rest.contains v then
          { r with cache := r.cache.erase v, spilled := v :: r.spilled, writes := r.writes + 1, peak := max r.peak (r.spilled.length + 1) }
        else { r with cache := r.cache.erase v }
      | none => r
    { r with cache := t :: r.cache }

/-- The run over a list of uses. -/
def CacheRun.go (r : CacheRun) : List Nat → CacheRun
  | [] => r
  | t :: l => (r.use t l).go l

/-- A list without repeats, in rising order. -/
def sortedSet (l : List Nat) : List Nat :=
  l.foldl (fun a x => if a.contains x then a else a.takeWhile (fun y => decide (y < x)) ++ [x] ++ a.dropWhile fun y => decide (y < x)) []

/-- The source tile of a tap, where it reads one (R239). -/
def PipeFrame.tapTile (f : PipeFrame) (x y : Int) : List Nat :=
  let w : Int := f.rcd.width
  let h : Int := f.rcd.height
  if (0 ≤ x ∧ x < w ∧ 0 ≤ y ∧ y < h) ∨ natBit (f.fld R.WARP_CFG 0 32) 2 = true then
    [(clampI 0 (h - 1) y).toNat / 32 * cdiv f.rcd.width 64 + (clampI 0 (w - 1) x).toNat / 64]
  else []

/-- The source tiles that every tap of an output pixel's filter touches, for the sample sets in use. -/
def PipeFrame.pixTiles (f : PipeFrame) (sets x y : Nat) : List Nat :=
  if f.masked x y then []
  else (List.range sets).flatMap fun k =>
    let px := f.pos x y k false
    let py := f.pos x y k true
    let cubic := natBit (f.fld R.WARP_CFG 0 32) 1
    let (n, ox, oy) := if cubic then (4, rdiv px 4 / 64 - 1, rdiv py 4 / 64 - 1) else (2, px / 256, py / 256)
    (List.range n).flatMap fun (j : Nat) => (List.range n).flatMap fun (i : Nat) => f.tapTile (ox + i) (oy + j)

/-- The tiles a frame uses, band of 32 output lines after band, each band's in order. -/
def PipeFrame.uses (f : PipeFrame) : List Nat :=
  let sets := if natBit (f.fld R.COLOR_DEC_CFG 0 32) 4 then 4 else 3
  (List.range (cdiv f.height 32)).flatMap fun b =>
    (List.range (min 32 (f.height - 32 * b))).foldl (fun a dy =>
      sortedSet (a ++ (List.range f.width).foldl (fun a x => sortedSet (a ++ f.pixTiles sets x (32 * b + dy))) [])) []

/-- The cache over a frame. -/
def PipeFrame.cacheRun (f : PipeFrame) : CacheRun :=
  ({ cache := [], spilled := [], reads := 0, writes := 0, peak := 0 } : CacheRun).go f.uses

/-! ## Stages 6 to 8 -/

/-- The gain of an edge at distance d (R243), in 64 fraction bits. -/
def PipeFrame.edgeGain (f : PipeFrame) (w d : Nat) : Nat :=
  let p := f.fld R.WARP_BLEND_CFG 8 7
  if w = 0 || 2 * w ≤ 2 * d + 1 then fpOne
  else
    let t2 := (2 * d + 1) * fpOne / w
    if t2 < fpOne then fpPow t2 p 16 / 2 else fpOne - fpPow (2 * fpOne - t2) p 16 / 2

/-- An entry of a map of one value every 32 pixels, beginning `off` bytes into its pages, read while output row `at_` is made. -/
def PipeFrame.mapAt (f : PipeFrame) (pages : List Nat) (off unit x y at_ : Nat) : Nat :=
  f.mapNat pages (off + unit * (y * (cdiv f.width 32 + 1) + x)) unit at_

/-- A field of a map at a pixel, interpolated bilinearly; 10 more fraction bits than the entries. -/
def PipeFrame.mapVal (f : PipeFrame) (pages : List Nat) (off unit lo w x y : Nat) : Int :=
  let e (i j : Nat) : Int := natBits (f.mapAt pages off unit (x / 32 + i) (y / 32 + j) y) lo w
  let fx : Int := (x % 32 : Nat)
  let fy : Int := (y % 32 : Nat)
  (32 - fx) * (32 - fy) * e 0 0 + fx * (32 - fy) * e 1 0 + (32 - fx) * fy * e 0 1 + fx * fy * e 1 1

/-- Stage 6 (R243, R244): edge blend and the blend map. -/
def PipeFrame.blend (f : PipeFrame) (x y : Nat) (p : Px) : Px :=
  let g := [f.edgeGain (f.fld R.WARP_BLEND_LR 0 16) x, f.edgeGain (f.fld R.WARP_BLEND_LR 16 16) (f.width - 1 - x),
    f.edgeGain (f.fld R.WARP_BLEND_TB 0 16) y, f.edgeGain (f.fld R.WARP_BLEND_TB 16 16) (f.height - 1 - y)].foldl
      (fun a b => a * b / fpOne) fpOne
  let mapOn := natBit (f.fld R.WARP_BLEND_CFG 0 32) 0
  let m : Int := if mapOn then f.mapVal f.blendPages 0 4 0 16 x y else 16777216
  let l : Int := if mapOn then rdiv (f.mapVal f.blendPages 0 4 16 16 x y) 32 else 0
  Px.ofSums (p.v.map fun v => rdiv (v * g * m) (fpOne * 16777216) + l) p.sats

/-- Stage 7 (R244): uniformity; sample set 3 takes plane 3 in all its channels. -/
def PipeFrame.unif (f : PipeFrame) (x y : Nat) (set3 : Bool) (p : Px) : Px :=
  if !natBit (f.fld R.COLOR_UNIF_CFG 0 32) 0 then p
  else
    let plane := 2 * (cdiv f.width 32 + 1) * (cdiv f.height 32 + 1)
    Px.ofSums (p.v.mapIdx fun c v =>
      rdiv (v * f.mapVal f.unifPages ((if set3 then 3 else c) * plane) 2 0 16 x y) (32768 * 1024)) p.sats

/-- A code of the 3D LUT (R245). -/
def PipeFrame.lutAt (f : PipeFrame) (r g b c : Nat) : Nat := tableNat f.lut (8 * (r + 33 * g + 1089 * b) + 2 * c) 2

/-- Stage 8 (R245): the creative LUT, tetrahedral between nodes at k / 32 in the shaped domain. -/
def PipeFrame.creative (f : PipeFrame) (p : Px) : Px :=
  if !natBit (f.fld R.COLOR_LUT_CFG 0 32) 0 then p
  else
    let nits := max 1 (f.fld R.COLOR_BASE_NITS 0 14)
    let shape (v : Int) : Nat := min fpOne (pqInv (min ((max v 0).toNat * nits * 2 ^ 39) (10000 * fpOne)))
    let s := p.v.map shape
    let k (c : Nat) := min 31 (s.getD c 0 * 32 / fpOne)
    let fr (c : Nat) : Int := (s.getD c 0 * 32 : Int) - k c * fpOne
    let order := ([0, 1, 2].map fun c => (fr c, c)).foldl (fun l e =>
      (l.filter fun q => e.1 < q.1 || (e.1 == q.1 && q.2 < e.2)) ++ [e] ++
        (l.filter fun q => !(e.1 < q.1 || (e.1 == q.1 && q.2 < e.2)))) []
    let up (used : List Nat) (c : Nat) := k c + (if used.contains c then 1 else 0)
    let code (used : List Nat) (c : Nat) : Int := f.lutAt (up used 0) (up used 1) (up used 2) c
    let i0 := (order.getD 0 (0, 0)).2
    let i1 := (order.getD 1 (0, 0)).2
    let i2 := (order.getD 2 (0, 0)).2
    let out (c : Nat) : Int :=
      let v := code [] c * (fpOne - fr i0) + code [i0] c * (fr i0 - fr i1) + code [i0, i1] c * (fr i1 - fr i2) +
        code [i0, i1, i2] c * fr i2
      rdiv (pqEotf (v / 65535).toNat) (nits * 2 ^ 39)
    Px.ofSums [out 0, out 1, out 2] p.sats

/-- Stages 5 to 8 for an output pixel. -/
def PipeFrame.v8 (f : PipeFrame) (x y : Nat) (set3 : Bool) : Px :=
  let p := f.warp x y set3
  if f.masked x y then p else f.creative (f.unif x y set3 (f.blend x y p))

/-! ## Stage 9: base and highlight -/

/-- What the split makes of a pixel (R248): base, highlight, and whether the peak cap acted. -/
structure Split where
  base : List Int
  hl : List Int
  clip : Bool
  deriving DecidableEq, Repr

/-- The quotient a / b, not above 1, as a 32-bit fraction rounded to nearest. -/
def quot32 (a b : Int) : Int := clampI 0 4294967296 (rdiv (a * 4294967296) b.toNat)

/-- R248. -/
def PipeFrame.split (f : PipeFrame) (v : List Int) : Split :=
  let t : Int := f.fld R.HSB_SPLIT_THRESH 0 16 * 1024
  let gmax : Int := f.fld R.HSB_SPLIT_GMAX 0 16 * 16384
  let m0 := v.foldl max (v.headD 0)
  let clip := decide (gmax < m0)
  let v := if clip then v.map fun x => prodQ x (quot32 gmax m0) 32 else v
  let m := if clip then gmax else m0
  if m ≤ t then { base := v, hl := [0, 0, 0], clip := clip }
  else
    let base := v.map fun x => prodQ x (quot32 t m) 32
    if natBit (f.fld R.HSB_SPLIT_CFG 0 32) 0 then
      { base := base, hl := (List.range 3).map fun c => max (v.getD c 0 - base.getD c 0) 0, clip := clip }
    else { base := base, hl := [0, 0, 0], clip := clip }

/-- The base of an output pixel. -/
def PipeFrame.base (f : PipeFrame) (x y : Nat) (set3 : Bool) : List Int := (f.split (f.v8 x y set3).v).base

def PipeFrame.hlW (f : PipeFrame) : Nat := max 1 (f.fld R.HSB_HL_GRID 0 12)
def PipeFrame.hlH (f : PipeFrame) : Nat := max 1 (f.fld R.HSB_HL_GRID 16 12)

/-- The zone of a cell (R249). -/
def PipeFrame.zoneOf (f : PipeFrame) (i r : Nat) : Nat := 64 * (64 * r / f.hlH) + 64 * i / f.hlW

/-- FLAGS of a zone in a mask (Table 10.7). -/
def zoneFlags (z : List (Nat × Byte)) (n : Nat) : Nat := tableNat z (16 * n + 4) 1

/-- A cell's highlight before the zones and rows drop it: the mean of its pixels (R249). -/
def PipeFrame.cellMean (f : PipeFrame) (i r : Nat) : List Int :=
  let kx := f.width / f.hlW
  let ky := f.height / f.hlH
  let px := (List.range ky).flatMap fun dy => (List.range kx).map fun dx => (f.split (f.v8 (i * kx + dx) (r * ky + dy) false).v).hl
  (List.range 3).map fun c => rdiv ((px.map fun h => h.getD c 0).sum) (max 1 (kx * ky))

/-- Is a cell dropped by its zone, or by lying outside the rows (R249)? -/
def PipeFrame.zoneDrop (f : PipeFrame) (i r : Nat) : Bool := natBit (zoneFlags f.zone (f.zoneOf i r)) 0
def PipeFrame.rowOut (f : PipeFrame) (r : Nat) : Bool :=
  decide (r < f.fld R.HSB_SPLIT_ROWS 0 12) || decide (f.fld R.HSB_SPLIT_ROWS 16 12 < r)

/-- A cell after R249. -/
def PipeFrame.cell (f : PipeFrame) (i r : Nat) : List Int := if f.zoneDrop i r || f.rowOut r then [0, 0, 0] else f.cellMean i r

/-- The energy and the number of non-zero cells of a row (R250). -/
def PipeFrame.rowSums (f : PipeFrame) (r : Nat) : Int × Nat :=
  (List.range f.hlW).foldl (fun a i =>
    let c := f.cell i r
    (a.1 + c.sum, a.2 + (if c == [0, 0, 0] then 0 else 1))) (0, 0)

/-- A row into a list kept by energy descending, then by row index ascending. -/
def rowInsert (e : Int × Nat × Nat) : List (Int × Nat × Nat) → List (Int × Nat × Nat)
  | [] => [e]
  | q :: l => if q.1 < e.1 then e :: q :: l else q :: rowInsert e l

/-- What the split selects (R250): the rows, the rows dropped, the cells. -/
structure RowPlan where
  rows : List Nat
  dropped : Nat
  cells : Nat
  deriving DecidableEq, Repr

/-- R250.  Without the split's EN there is no highlight output. -/
def PipeFrame.rowPlan (f : PipeFrame) : RowPlan :=
  if !natBit (f.fld R.HSB_SPLIT_CFG 0 32) 0 then { rows := [], dropped := 0, cells := 0 }
  else
    let all := (List.range f.hlH).foldl (fun l r =>
      let (e, n) := f.rowSums r
      if 0 < e then rowInsert (e, r, n) l else l) []
    let amax := f.hlW * f.hlH * f.fld R.HSB_SPLIT_LIMIT 16 5 / 1000
    let p := all.foldl (fun (p : RowPlan) e =>
      if p.rows.length = f.fld R.HSB_SPLIT_LIMIT 0 11 || amax < p.cells + e.2.2 then { p with dropped := p.dropped + 1 }
      else { p with rows := e.2.1 :: p.rows, cells := p.cells + e.2.2 }) { rows := [], dropped := 0, cells := 0 }
    { p with rows := (List.range f.hlH).filter fun r => p.rows.contains r }

/-! ## Stages 10 and 11 -/

/-- An optical code from a primary (R253), and whether the clamp acted. -/
def codeOf (x : Int) (num den : Nat) : Nat × Bool :=
  let c := rdiv (x * num) den
  ((clampI 0 65535 c).toNat, decide (clampI 0 65535 c ≠ c))

/-- The sum of a base primary at an output pixel (R252). -/
def PipeFrame.baseOut (f : PipeFrame) (p x y : Nat) : Int :=
  let b := f.base x y (p == 3)
  rowSum f.dec p 28 fun c => b.getD c 0

/-- The base code of a primary at an output pixel (R253). -/
def PipeFrame.baseCode (f : PipeFrame) (p x y : Nat) : Nat × Bool := codeOf (satQ (f.baseOut p x y)) 65535 33554432

/-- A cell once the rows to be drawn, `rows`, are selected: those of every other row are zero (R250). -/
def PipeFrame.drawn (f : PipeFrame) (rows : List Nat) (i r : Nat) : List Int := if rows.contains r then f.cell i r else [0, 0, 0]

/-- The sum of a highlight colour at a cell (R252). -/
def PipeFrame.hlOut (f : PipeFrame) (rows : List Nat) (q i r : Nat) : Int :=
  let c := f.drawn rows i r
  rowSum f.hlm q 28 fun j => c.getD j 0

/-- The highlight code of a colour at a cell (R253). -/
def PipeFrame.hlCode (f : PipeFrame) (rows : List Nat) (q i r : Nat) : Nat × Bool :=
  codeOf (satQ (f.hlOut rows q i r)) (65535 * 2048) (33554432 * max 1 (f.fld R.HSB_HL_FULL 0 16))

/-- The pixel counts of a frame: masked pixels, saturations, clamps of the base, peak caps, cells dropped by zones. -/
structure PipeCounts where
  masked : Nat
  sats : Nat
  clips : Nat
  caps : Nat
  zones : Nat
  deriving DecidableEq, Repr

/-- The counts of one output pixel: every stage's saturations on its own channels (R231, R239, R248, R253). -/
def PipeFrame.pixCounts (f : PipeFrame) (prims : Nat) (a : PipeCounts) (x y : Nat) : PipeCounts :=
  let p := f.v8 x y false
  let s := f.split p.v
  let more := if prims = 4 then (f.v8 x y true).sats else 0
  { a with masked := a.masked + (f.masked x y).toNat,
           sats := a.sats + p.sats + more + ((List.range prims).map fun q => satCount (f.baseOut q x y)).sum,
           clips := a.clips + ((List.range prims).filter fun q => (f.baseCode q x y).2).length,
           caps := a.caps + s.clip.toNat }

/-- The counts of a frame; HL_ZONE_DROP counts every cell of a no-beam zone (R249). -/
def PipeFrame.counts (f : PipeFrame) : PipeCounts :=
  let prims := if natBit (f.fld R.COLOR_DEC_CFG 0 32) 4 then 4 else 3
  let a := (List.range f.height).foldl (fun a y => (List.range f.width).foldl (fun a x => f.pixCounts prims a x y) a)
    { masked := 0, sats := 0, clips := 0, caps := 0, zones := 0 }
  if !natBit (f.fld R.HSB_SPLIT_CFG 0 32) 0 then a
  else
    let rows := f.rowPlan.rows
    (List.range f.hlH).foldl (fun a r => (List.range f.hlW).foldl (fun a i =>
      { a with zones := a.zones + (f.zoneDrop i r).toNat,
               sats := a.sats + ((List.range 3).map fun q => satCount (f.hlOut rows q i r)).sum,
               clips := a.clips + ((List.range 3).filter fun q => (f.hlCode rows q i r).2).length }) a) a

/-- The saturations of stages 3 and 4 over the pixels of the source tiles that are fetched, each once (R231, R240). -/
def PipeFrame.sourceSats (f : PipeFrame) : Nat :=
  let cols := max 1 (cdiv f.rcd.width 64)
  (sortedSet f.uses).foldl (fun a t => (List.range 32).foldl (fun a dy => (List.range 64).foldl (fun a dx =>
    let x := t % cols * 64 + dx
    let y := t / cols * 32 + dy
    if x < f.rcd.width ∧ y < f.rcd.height then a + (f.source x y).sats else a) a) a) 0

end Sys2Proof.Machine
end

