-- ==== Sys2Proof/Machine/Deck.lean ====
section
/-!
DEFINITION. Plane sets in the Log deck (R263 to R275): from optical codes to planes, the bits and check values of a plane, the
deck as memory, and the transitions of the sets.
-/
namespace Sys2Proof.Machine

/-- Table 8.1: the threshold matrix M. -/
def ditherM : List Nat :=
  [0, 32, 8, 40, 2, 34, 10, 42, 48, 16, 56, 24, 50, 18, 58, 26] ++
  [12, 44, 4, 36, 14, 46, 6, 38, 60, 28, 52, 20, 62, 30, 54, 22] ++
  [3, 35, 11, 43, 1, 33, 9, 41, 51, 19, 59, 27, 49, 17, 57, 25] ++
  [15, 47, 7, 39, 13, 45, 5, 37, 63, 31, 55, 23, 61, 29, 53, 21]

/-- The native code of an optical code (R267). -/
def native (n dither tper seed : Nat) (fsn : Word) (c x y : Nat) : Nat :=
  let d := 16 - n
  if d = 0 then c
  else if dither = 0 then min ((c + 2 ^ (d - 1)) / 2 ^ d) (2 ^ n - 1)
  else
    let q := c / 2 ^ d
    let r6 := c % 2 ^ d * 2 ^ (6 - d)
    let k := if dither = 2 then fsn.toNat % 2 ^ tper * (64 / 2 ^ tper) else 0
    let t := (ditherM.getD (y % 8 * 8 + x % 8) 0 + k + seed) % 64
    if t < r6 then min (q + 1) (2 ^ n - 1) else q

/-- The bit of plane b at a pixel of a set. -/
def SetContent.bitAt (c : SetContent) (b x y : Nat) : Bool :=
  natBit (native c.n c.dither c.tper c.seed c.fsn (c.frame.baseCode c.prim x y).1 x y) b

/-- The bytes of a plane, W x H / 8 (R268). -/
def SetContent.planeBytes (c : SetContent) : Nat := c.frame.width * c.frame.height / 8

/-- A byte of a plane (R269). -/
def SetContent.byteAt (c : SetContent) (b off : Nat) : Byte :=
  let row := max 1 (c.frame.width / 8)
  BitVec.ofNat 8 (bitsMask ((List.range 8).filter fun i => c.bitAt b (off % row * 8 + i) (off / row)))

/-- The check value of a plane (R270). -/
def SetContent.crc (c : SetContent) (b : Nat) : Word :=
  w32 (crc32 (leBytes 4 c.fsn.toNat ++ leBytes 4 b ++ (List.range c.planeBytes).map (c.byteAt b)))

/-- SET_BYTES for a geometry (R268). -/
def setBytes (w h : Nat) : Nat := cdiv (16 * (w * h / 8)) 2097152 * 2097152

/-- The deck base of a port in a view. -/
def deckBase (v : Nat → Word) (p : Nat) : Nat :=
  bits (v (R.BUCK_DECK_BASE_HI p)) 0 16 * 0x100000000 + bits (v (R.BUCK_DECK_BASE_LO p)) 21 11 * 2097152

/-- The channel pairs of a port's deck (Table 1.3). -/
def inDeckPairs (p pa : Nat) : Bool :=
  inDram pa && (if p = 3 then pairOf pa == 6 else pairOf pa / 2 == p)

/-- The set content that covers a byte of the Log deck. -/
def Block.deckAt (s : Block) (pa : Nat) : Option SetContent :=
  (s.ma.flatMap fun q => q.sets.filterMap fun t => t.content).find? fun c =>
    decide (c.base ≤ pa) && decide (pa < c.base + c.n * c.planeBytes)

/-- A byte of device memory as its clients read it: planes in the Log deck, DRAM elsewhere. -/
def Block.devByte (s : Block) (pa : Nat) : Byte :=
  match (if pairOf pa ≤ 6 then s.deckAt pa else none) with
  | some c => c.byteAt ((pa - c.base) / max 1 c.planeBytes) ((pa - c.base) % max 1 c.planeBytes)
  | none => s.memB pa

/-- Bytes of device memory as its clients read them. -/
def Block.devBytes (s : Block) (pa n : Nat) : List Byte := (List.range n).map fun i => s.devByte (pa + i)

/-! ## Set states (R271 to R273, Table 8.3) -/

/-- BUCK_PORT_CFG fields. -/
def buckEn (v : Nat → Word) (p : Nat) : Bool := bit (v (R.BUCK_PORT_CFG p)) 0
def buckNative (v : Nat → Word) (p : Nat) : Nat := bits (v (R.BUCK_PORT_CFG p)) 4 5
def buckPrim (v : Nat → Word) (p : Nat) : Nat := bits (v (R.BUCK_PORT_CFG p)) 1 2

/-- The place of the set of a port in a state. -/
def Port.setIn (q : Port) (st : Nat) : Option Nat := (List.range 3).find? fun i => match q.sets[i]? with | some t => t.st == st | none => false

/-- A set of a port changes. -/
def Port.modSet (q : Port) (i : Nat) (f : PlaneSet → PlaneSet) : Port := { q with sets := modAt q.sets i f }

/-- The port's sets as Table 20.6 counts them. -/
def Port.setCount (q : Port) : Nat := (q.sets.filter fun t => decide (t.st ≤ 3)).length

/-- The lead port (R332): the lowest-numbered port whose Bucking is enabled. -/
def leadPort (v : Nat → Word) : Option Nat := (List.range 4).find? (buckEn v)

/-- The output raster (R237): the geometry of the ports the pipeline feeds. -/
def Block.raster (s : Block) (v : Nat → Word) : Nat × Nat :=
  match (List.range 4).find? fun p => buckEn v p && (s.geom v p).isSome with
  | some p => (s.geom v p).getD (0, 0)
  | none => (0, 0)

/-- A frame begins (Table 8.3): one FREE set of every enabled port becomes WRITING for the frame of that FSN, which is not shown at the
first `wait` FBs (R258). -/
def Block.beginSets (s : Block) (f : PipeFrame) (fsn : Word) (wait : Nat) : Block :=
  (List.range 4).foldl (fun s p =>
    if !buckEn s.act p then s else
    match (s.port p).setIn 0, s.geom s.act p with
    | some i, some (w, h) =>
      let g := R.BUCK_PORT_CFG p
      let c : SetContent :=
        { frame := { f with width := w, height := h }, base := deckBase s.act p + i * setBytes w h,
          n := buckNative s.act p, dither := s.afld g 9 2, tper := s.afld g 11 2, seed := s.afld g 14 6,
          prim := buckPrim s.act p, fsn := fsn }
      s.modPort p fun q => q.modSet i fun t => { t with st := 1, across := false, writing := some c, wait := wait }
    | _, _ => s) s

/-- A set is superseded before it was shown (Table 8.3). -/
def Block.supersede (s : Block) (p i : Nat) : Block :=
  let tag := match (s.port p).sets[i]? with
    | some t => match t.content with | some c => c.fsn | none => 0
    | none => 0
  let s := s.modPort p fun q => q.modSet i fun t => { t with st := 0 }
  (s.bump R.BUCK_SUPERSEDED).post 0x0C 0x061 [w32 (p + 256 * i), tag]

/-- The last band of a port's planes is written (Table 8.3, R273). -/
def Block.sealSet (s : Block) (p : Nat) : Block :=
  match (s.port p).setIn 1 with
  | none => s
  | some i =>
    match ((s.port p).sets.getD i PlaneSet.reset).writing with
    | none => s
    | some c =>
      let s := match (s.port p).setIn 2 with
        | some j => s.supersede p j
        | none => s
      let now : Nat := s.tm.ft
      let due : Int := (s.fbAt ((s.tm.curK : Int) + (c.fsn - s.tm.fsn).toInt).toNat : Nat) - (s.tPre s.act : Int)
      let slack : Int := (due - now) / 10
      let s := s.modPort p fun q =>
        { (q.modSet i fun t => { t with st := 2, across := false, writing := none, content := some c, sealFt := now }) with
          sealSlack := slack, sealTag := c.fsn }
      (s.bump R.BUCK_SEALS).post 0x0C 0x060 [w32 (p + 256 * i + 65536 * c.n), c.fsn, w32 (unsgn 32 slack)]

/-- The place of the SEALED set that may be shown from the next FB. -/
def Port.ready (q : Port) : Option Nat := (List.range 3).find? fun i => match q.sets[i]? with | some t => t.st == 2 && t.wait == 0 | none => false

/-- An FB has fallen: the sets of frames begun in the fallback come nearer to being shown (R258). -/
def Port.tickSets (q : Port) : Port := { q with sets := q.sets.map fun t => { t with wait := t.wait - 1 } }

/-- The sets of a port at a preload start (Table 8.3): true when a SEALED set became SHOWING. -/
def Port.take (q : Port) : Port × Bool :=
  match q.ready with
  | none => (q, false)
  | some i =>
    let q := match q.setIn 3 with
      | some j => q.modSet j fun t => { t with st := 0 }
      | none => q
    (q.modSet i fun t => { t with st := 3 }, true)

/-- The content of the SHOWING set. -/
def Port.showing (q : Port) : Option SetContent :=
  match q.setIn 3 with
  | none => none
  | some i => match q.sets[i]? with | some t => t.content | none => none

/-- Every set of a port becomes FREE (Table 8.3). -/
def Port.freeSets (q : Port) : Port := { q with sets := q.sets.map fun t => { t with st := 0, across := false, writing := none } }

/-- The captured descriptor of a plane (Table 8.2). -/
def Block.descCapture (s : Block) (v : Word) : Block :=
  let p := bits v 0 2
  let b := bits v 4 4
  let ws := match (s.port p).sets[bits v 2 2]? with
    | none => [0, 0, 0, 0]
    | some t =>
      match t.content with
      | none => [0, 0, 0, 0]
      | some c =>
        if c.n ≤ b then [0, 0, 0, 0]
        else
          let a := c.base + b * c.planeBytes
          [w32 a, w32 (a / 0x100000000 % 65536 + 65536 * b + 16777216 * (if t.st = 1 then 0 else 1)), c.fsn, c.crc b]
  (s.setReg R.BUCK_DESC_SEL (w32 (bits v 0 8))).setRegs (ws.mapIdx fun j w => (R.BUCK_DESC_DATA j, w))

end Sys2Proof.Machine
end

