-- ==== Sys2Proof/Machine/Calendar.lean ====
section
/-!
DEFINITION. Plane calendars (R276 to R286): the 132 words, the schedule of a frame and the validation procedure of R283.
-/
namespace Sys2Proof.Machine

/-- A slot of a calendar (Table 8.5). -/
structure Slot where
  dwell : Nat
  plane : Nat
  epoch : Nat
  measure : Bool
  split : Nat
  phased : Bool
  reserved : Bool
  deriving DecidableEq, Repr

/-- The key of a word of a calendar in the register store. -/
def calKey (g cal word : Nat) : Nat := win 0x0D ((g * 4 + cal) * 132 + word)

/-- The words of a calendar in a view. -/
def calWords (v : Nat → Word) (g cal : Nat) : List Word := (List.range 132).map fun i => v (calKey g cal i)

/-- A slot from its two words. -/
def slotOf (a b : Word) : Slot :=
  { dwell := bits a 0 24, plane := bits a 24 5, epoch := bits a 29 2, measure := bit a 31, split := bits b 0 3,
    phased := bit b 3, reserved := bits b 4 28 != 0 }

/-- SLOTS of a calendar (Table 8.4). -/
def calCount (ws : List Word) : Nat := bits (ws.getD 0 0) 0 7

/-- The slots of a calendar. -/
def calSlots (ws : List Word) : List Slot :=
  (List.range (min 64 (calCount ws))).map fun i => slotOf (ws.getD (4 + 2 * i) 0) (ws.getD (5 + 2 * i) 0)

/-- An amplitude code of a calendar. -/
def calAmp (ws : List Word) (e : Nat) : Nat := bits (ws.getD (1 + e / 2) 0) (e % 2 * 16) 16

/-- Is the slot a changeover slot (R277)? -/
def chgAt (sl : List Slot) (i : Nat) : Bool :=
  i == 0 || (match sl[i]?, sl[i - 1]? with
    | some a, some b => a.epoch != b.epoch
    | _, _ => false)

/-- What the schedule of a frame depends on (R283), all in ns. -/
structure CalCfg where
  k : Nat
  kx : Nat
  step : Nat
  load : Nat
  sd : Nat
  tpre : Nat
  dark : Nat
  pval : Nat
  ext : Nat
  deriving DecidableEq, Repr

/-- floor(NUM / DEN). -/
def pMin (v : Nat → Word) : Nat :=
  ((v R.TIME_PERIOD_NUM_HI).toNat * 0x100000000 + (v R.TIME_PERIOD_NUM_LO).toNat) / max 1 (v R.TIME_PERIOD_DEN).toNat

/-- R283: pval. -/
def Block.pVal (s : Block) (v : Nat → Word) : Nat :=
  pMin v - cdiv (pMin v * s.fld R.TIME_SLEW_MAX 0 8) 1000000

/-- The probe extension of a group (R281). -/
def probeExt (v : Nat → Word) (g : Nat) : Nat :=
  let c := v R.SEQ_PROBE_CFG
  if bit c (16 + g) && decide (darkNs v < bits c 0 12 * 10) then bits c 0 12 * 10 else 0

def Block.calCfg (s : Block) (v : Nat → Word) (g : Nat) : CalCfg :=
  { k := bits (v R.SEQ_KERF) 0 13 * 10, kx := bits (v R.SEQ_KERF) 16 13 * 10, step := bits (v R.SEQ_PHASE_STEP) 0 10 * 10,
    load := s.loadNs v g, sd := s.stageDepth g, tpre := s.tPre v, dark := darkNs v, pval := s.pVal v, ext := probeExt v g }

/-- S and E of every slot, and the end of the last dwell (R277, step 5). -/
def slotTimes (c : CalCfg) (sl : List Slot) : List (Nat × Nat) × Nat :=
  let r := (List.range sl.length).foldl (fun (a : List (Nat × Nat) × Nat) i =>
    match sl[i]? with
    | none => a
    | some x =>
      let kn := (if chgAt sl i then c.kx else c.k) + (if i = 0 then c.ext else 0)
      let kn := if x.phased then max kn (15 * c.step + 1600) else kn
      let e := 1024 * cdiv (a.2 + kn) 1024
      (a.1 ++ [(a.2, e)], e + x.dwell * 10)) ([], 0)
  r

/-- The load start and end of every slot in ns, and when it is due in sixteenths of a ns (R279, R280, step 6), relative to the FB. -/
def loadTimes (c : CalCfg) (sl : List Slot) (t : List (Nat × Nat)) : List (Int × Int × Int) :=
  (List.range sl.length).foldl (fun (a : List (Int × Int × Int)) i =>
    match sl[i]? with
    | none => a
    | some x =>
      let li : Int := if 16 ≤ x.plane then 0 else c.load
      let prev : Int := if i = 0 then -(c.tpre : Int) else (a.getD (i - 1) (0, 0, 0)).2.1
      let st : Int := if c.sd ≤ i then max prev ((t.getD (i - c.sd) (0, 0)).1 : Int) else prev
      let due : Int := 16 * (t.getD i (0, 0)).1 + (if x.phased then 15 * min (16 * c.step) c.load else 0 : Nat)
      a ++ [(st, st + li, due)]) []

/-- A calendar cause with its detail (Table 8.6, R284). -/
structure CalFail where
  cause : Nat
  detail : Nat
  deriving DecidableEq, Repr

/-- DETAIL without its preceding calendar. -/
def calDetail (g cal slot : Nat) : Nat := slot + 64 * cal + 256 * g

/-- The first of the options that holds something. -/
def firstSome {α : Type} : List (Option α) → Option α
  | [] => none
  | some x :: _ => some x
  | none :: l => firstSome l

/-- The first index of a list that meets a test. -/
def firstIdx {α : Type} (l : List α) (p : Nat → α → Bool) : Option Nat :=
  ((l.mapIdx fun i x => (i, x)).find? fun e => p e.1 e.2).map (·.1)

/-- Step 1: the SPLIT values of the native planes run 0, 1, 2, .. in order. -/
def splitOk (sl : List Slot) (i : Nat) (x : Slot) : Bool :=
  decide (16 ≤ x.plane) || ((sl.take i).filter fun y => y.plane == x.plane).length == x.split

/-- Step 1 of R283, with the header checks of R284. -/
def calStep1 (g cal n : Nat) (ws : List Word) : Option CalFail :=
  let sl := calSlots ws
  let at0 (cause i : Nat) : CalFail := ⟨cause, calDetail g cal i⟩
  if calCount ws = 0 || 64 < calCount ws then some ⟨0x20, calDetail g cal 0 + 1024⟩
  else if bits (ws.getD 0 0) 7 25 ≠ 0 || ws.getD 3 0 != 0 || (List.range 4).any (fun e => decide (0x8000 < calAmp ws e)) then
    some ⟨0x21, calDetail g cal 0 + 1024⟩
  else firstSome
    [(firstIdx sl fun _ x => decide (17 < x.plane) || x.reserved).map (at0 0x21),
     (firstIdx sl fun _ x => decide (n ≤ x.plane) && decide (x.plane ≤ 15)).map (at0 0x22),
     (firstIdx sl fun _ x => decide (x.dwell < 100)).map (at0 0x25),
     ((List.range n).find? fun b => !(sl.any fun x => x.plane == b)).map (at0 0x23),
     (firstIdx sl fun i x => !splitOk sl i x).map (at0 0x24)]

/-- Steps 2 and 3 of R283; `slices` says that the group has slice channels. -/
def calStep23 (g cal : Nat) (ws : List Word) (slices : Bool) : Option CalFail :=
  let sl := calSlots ws
  let at0 (cause i : Nat) : CalFail := ⟨cause, calDetail g cal i⟩
  let chg := (List.range sl.length).filter (chgAt sl)
  let meas := (List.range sl.length).filter fun i => match sl[i]? with | some x => x.measure | none => false
  firstSome
    [(firstIdx sl fun _ x => x.plane != 16 && decide (calAmp ws x.epoch < 0x0200)).map (at0 0x26),
     (firstIdx sl fun i x => chgAt sl i && x.phased).map (at0 0x27),
     if slices && decide (15 < chg.length) then some (at0 0x28 (chg.getD 15 0)) else none,
     if 8 < meas.length then some (at0 0x29 (meas.getD 8 0)) else none,
     (firstIdx sl fun _ x => x.measure && (x.plane == 16 || decide (x.dwell < 500))).map (at0 0x2A)]

/-- The linearity figure (step 4). -/
def calLin (n : Nat) (ws : List Word) : Nat :=
  let sl := calSlots ws
  let w (b : Nat) : Nat := ((sl.filter fun x => x.plane == b).map fun x => x.dwell * calAmp ws x.epoch).sum
  let tot := ((List.range n).map w).sum
  if tot = 0 then 0
  else ((List.range n).map fun b => (rdiv (256 * ((w b * (2 ^ n - 1) : Nat) - (2 ^ b * tot : Nat) : Int)) tot).natAbs).sum

/-- Steps 4 to 6 of R283; `loads` says that the array's declarations are known (R672). -/
def calStep456 (g cal n : Nat) (ws : List Word) (c : CalCfg) (tol : Nat) (loads : Bool) : Option CalFail :=
  let sl := calSlots ws
  let at0 (cause i : Nat) : CalFail := ⟨cause, calDetail g cal i⟩
  let (t, fin) := slotTimes c sl
  let lt := loadTimes c sl t
  let last := sl.length - 1
  firstSome
    [if tol < calLin n ws then some (at0 0x2B 0) else none,
     if c.pval - c.dark < fin then some (at0 0x2C last) else none,
     if loads then (firstIdx lt fun _ x => decide (x.2.2 < 16 * x.2.1)).map (at0 0x2D) else none,
     if loads && decide (((c.pval : Int) - c.tpre) < (lt.getD last (0, 0, 0)).2.1) then some (at0 0x2D last) else none]

/-- Step 7 for a pair of calendars: the first slot of the follower whose load would overrun the staging store. -/
def calStep7 (c : CalCfg) (before after : List Slot) : Option Nat :=
  let tp := (slotTimes c before).1
  let lc := loadTimes c after (slotTimes c after).1
  (List.range (min c.sd after.length)).find? fun j =>
    decide (c.sd ≤ before.length + j) &&
      decide ((lc.getD j (0, 0, 0)).1 < ((tp.getD (before.length + j - c.sd) (0, 0)).1 : Int) - c.pval)

/-- SEQ_LG_CFG fields. -/
def calActive (v : Nat → Word) (g : Nat) : Nat := bits (v (R.SEQ_LG_CFG g)) 0 2
def calEn (v : Nat → Word) (g cal : Nat) : Bool := bit (v (R.SEQ_LG_CFG g)) (4 + cal)

/-- Is a group validated: its port is enabled and no clone (R282, R309)? -/
def seqGroup (v : Nat → Word) (g : Nat) : Bool := maEn v g && !maClone v g

/-- The key of a member entry (CHAIN page): chain, slice, channel. -/
def memKey (c s k : Nat) : Nat := win 0x18 (c * 512 + s * 8 + k)

/-- Has a group slice channels in a view? -/
def hasSlices (v : Nat → Word) (g : Nat) : Bool :=
  (List.range 2048).any fun i =>
    let e := v (win 0x18 i)
    bit (v R.CHAIN_CFG) (i / 512) && bit e 0 && bits e 1 3 == g

/-- The first failure of a group's calendars by R283, in the order calendars, steps; pairs last.  A minor commit that changes ACTIVE has the
transition from the calendar in use checked as well (R282). -/
def Block.calGroup (s : Block) (v : Nat → Word) (minor : Bool) (g : Nat) : Option CalFail :=
  let n := buckNative v g
  let c := s.calCfg v g
  let loads := (s.port g).ident.isSome
  let cals := (List.range 4).filter (calEn v g)
  let tol := bits (v R.SEQ_LIN_TOL) 0 12
  let each := cals.map fun k =>
    let ws := calWords v g k
    firstSome [calStep1 g k n ws, calStep23 g k ws (hasSlices v g), calStep456 g k n ws c tol loads]
  let inUse := calActive s.act g
  let moved := minor && calActive v g != inUse
  let pair (p k : Nat) (before : List Slot) : Option CalFail :=
    (calStep7 c before (calSlots (calWords v g k))).map fun j => ⟨0x2E, calDetail g k j + 4096 * p⟩
  let pairs := cals.flatMap fun p => cals.map fun k => pair p k (calSlots (calWords v g p))
  firstSome (each ++ (if loads then pairs ++ [if moved then pair inUse (calActive v g) (calSlots (calWords s.act g inUse)) else none] else []))

/-- Calendar validation (R282 to R284): groups in order; an ACTIVE that is not enabled is DEPENDENCY.  The result names the
cause and the detail. -/
def Block.calCheck (s : Block) (v : Nat → Word) (minor : Bool) : Option CalFail :=
  firstSome ((List.range 4).map fun g =>
    if !seqGroup v g then none
    else if !calEn v g (calActive v g) then some ⟨0x06, g⟩
    else s.calGroup v minor g)

/-- The calendar a group follows: its own, or its source port's (R309). -/
def seqSource (v : Nat → Word) (g : Nat) : Nat := if maClone v g then maSrc v g else g

/-- The words of the calendar in force for a group in a view. -/
def activeCal (v : Nat → Word) (g : Nat) : List Word := calWords v (seqSource v g) (calActive v (seqSource v g))

/-! ## Reports (R286) -/

/-- The words of the calendar in use of a group: of an enabled port, that which ACTIVE names; of any other, none. -/
def Block.calInUse (s : Block) (g : Nat) : List Word := if maEn s.act g then activeCal s.act g else []

/-- SEQ_LIN_ERR of a group. -/
def Block.linErr (s : Block) (g : Nat) : Nat := calLin (buckNative s.act (seqSource s.act g)) (s.calInUse g)

/-- SEQ_LOAD_MARGIN of a group: the smallest margin in ns, rounded down, with its slot; 0 where no calendar is in use. -/
def Block.loadMargin (s : Block) (g : Nat) : Int × Nat :=
  let sl := calSlots (s.calInUse g)
  let c := s.calCfg s.act g
  let m := (loadTimes c sl (slotTimes c sl).1).mapIdx fun i x => ((x.2.2 - 16 * x.2.1) / 16, i)
  m.foldl (fun b e => if e.1 < b.1 then e else b) (m.headD (0, 0))

/-- SEQ_END_MARGIN of a group, in ns; 0 where no calendar is in use. -/
def Block.endMargin (s : Block) (g : Nat) : Nat :=
  let sl := calSlots (s.calInUse g)
  let c := s.calCfg s.act g
  if sl.isEmpty then 0 else c.pval - c.dark - (slotTimes c sl).2

/-- The number of native planes a calendar names (R275). -/
def calNative (ws : List Word) : Nat := ((calSlots ws).filter fun x => decide (x.plane < 16)).foldl (fun m x => max m (x.plane + 1)) 0

/-- The instants of a slot of the lit frame: S_i and E_i, from its FB. -/
def Block.slotAt (s : Block) (g i : Nat) : Nat × Nat :=
  (slotTimes (s.calCfg s.act g) (calSlots (s.port g).words)).1.getD i (0, 0)

/-- The clones of a port. -/
def clonesOf (v : Nat → Word) (p : Nat) : List Nat := (List.range 4).filter fun q => q != p && maEn v q && maClone v q && maSrc v q == p

/-- PRIMARIES as a number. -/
def primaries (v : Nat → Word) : Nat := if bit (v R.COLOR_DEC_CFG) 4 then 4 else 3

/-! ## What a commit changes (R76, R77) -/

/-- Does a register differ between two views? -/
def differs (old new : Nat → Word) (a : Nat) : Bool := old a != new a

/-- A change of the frame period or of the number of primaries: every group is affected. -/
def majorAll (old new : Nat → Word) : Bool :=
  [R.TIME_PERIOD_NUM_LO, R.TIME_PERIOD_NUM_HI, R.TIME_PERIOD_DEN, R.TIME_EPOCH_OFFSET_LO, R.TIME_EPOCH_OFFSET_HI].any (differs old new) ||
    primaries old != primaries new

/-- A change of MA_CFG.EN, RATE, MODE, CLONE or CLONE_SRC. -/
def majorCfg (old new : Nat → Word) (p : Nat) : Bool := ((old (R.MA_CFG p) ^^^ new (R.MA_CFG p)) &&& 0x71F) != 0

/-- A change of BLOCK_MODE in a slot that an enabled calendar of the port has before and after. -/
def majorMode (old new : Nat → Word) (p : Nat) : Bool :=
  (List.range 4).any fun k =>
    calEn old p k && calEn new p k &&
      ((calSlots (calWords old p k)).zip (calSlots (calWords new p k))).any fun e => e.1.phased != e.2.phased

/-- The affected ports of a change: those it names, and those that clone them. -/
def majorPorts (old new : Nat → Word) : List Nat :=
  if majorAll old new then List.range 4
  else
    let l := (List.range 4).filter fun p => majorCfg old new p || majorMode old new p
    (List.range 4).filter fun p => l.contains p || l.any fun q => (clonesOf old q).contains p || (clonesOf new q).contains p

/-- The affected light groups.  Where the commit moves the lead port, the lead port it brings decides on LG_HL (log entry 175). -/
def majorGroups (old new : Nat → Word) : Nat :=
  let l := majorPorts old new
  let hl := match leadPort new with | some p => l.contains p | none => false
  if majorAll old new then 31 else bitsMask l + (if hl then 16 else 0)

/-- Is a change major (R76)? -/
def isMajor (old new : Nat → Word) : Bool := majorAll old new || majorPorts old new != []

end Sys2Proof.Machine
end

