-- ==== Sys2Proof/Machine/Motion.lean ====
section
/-!
DEFINITION. Planned motions (R337 to R340), used by Highline and by the master dimmer.  A motion counts time in ticks, 2^k to
the unit of time of its limits, and holds positions in 2^-(3k + 48) of the unit of its axis.
-/
namespace Sys2Proof.Machine

/-- The limits of an axis, in sixteenths: jerk, acceleration, velocity. -/
structure Limits where
  j : Nat
  a : Nat
  v : Nat
  deriving DecidableEq, Repr

/-- The least number whose square is at least n. -/
def sqrtUp (n : Nat) : Nat := if n.sqrt * n.sqrt = n then n.sqrt else n.sqrt + 1

/-- Bits of a cube root, from bit b down. -/
def cbrtBits (n r : Nat) : Nat → Nat
  | 0 => if (r + 1) ^ 3 ≤ n then r + 1 else r
  | b + 1 => cbrtBits n (if (r + 2 ^ (b + 1)) ^ 3 ≤ n then r + 2 ^ (b + 1) else r) b

/-- The least number whose cube is at least n. -/
def cbrtUp (n : Nat) : Nat :=
  let r := cbrtBits n 0 (n.log2 / 3 + 1)
  if r ^ 3 = n then r else r + 1

/-- The position scale. -/
def posScale (k : Nat) : Nat := 2 ^ (3 * k + 48)

/-- The times tj, ta, tv of a move over a distance in 2^-16 of the unit (R337), rounded up to ticks (R338). -/
def moveTimes (k : Nat) (l : Limits) (d : Nat) : Nat × Nat × Nat :=
  let j := max 1 l.j
  let a := max 1 l.a
  let v := max 1 l.v
  let tj := min (cdiv (a * 2 ^ k) j) (sqrtUp (cdiv (v * 4 ^ k) j))
  if d * 16 * 2 ^ (3 * k) ≤ 2 * j * tj ^ 3 * 65536 then
    (cbrtUp (cdiv (d * 16 * 2 ^ (3 * k)) (2 * j * 65536)), 0, 0)
  else if a * a ≤ v * j then
    let tva := cdiv (v * 2 ^ k) a
    if d * 16 * 2 ^ k ≤ v * (tj + tva) * 65536 then
      (tj, cdiv (sqrtUp (tj * tj + cdiv (4 * d * 16 * 4 ^ k) (a * 65536)) - 3 * tj) 2, 0)
    else (tj, tva - tj, cdiv (d * 16 * 2 ^ k - v * (tj + tva) * 65536) (v * 65536))
  else (tj, 0, cdiv (d * 16 * 2 ^ (3 * k) - 2 * j * tj ^ 3 * 65536) (v * 65536 * 4 ^ k))

/-- The seven segments of a move, with the one factor that makes it end at the target (R337, R338). -/
def moveSegs (k : Nat) (l : Limits) (dist : Int) : List Seg :=
  let d := dist.natAbs / 2 ^ (3 * k + 32)
  let (tj, ta, tv) := moveTimes k l (max 1 d)
  let j : Int := dist / (tj * (tj + ta) * (2 * tj + ta + tv) : Nat)
  [⟨tj, j⟩, ⟨ta, 0⟩, ⟨tj, -j⟩, ⟨tv, 0⟩, ⟨tj, -j⟩, ⟨ta, 0⟩, ⟨tj, j⟩]

/-- Position, velocity and acceleration after a time in a segment. -/
def segStep (p v a j : Int) (t : Nat) : Int × Int × Int :=
  (p + v * t + a * t * t / 2 + j * t * t * t / 6, v + a * t + j * t * t / 2, a + j * t)

/-- Where a motion is after a number of ticks, and whether its segments have ended. -/
def runSegs (p v a : Int) : List Seg → Nat → (Int × Int × Int) × Bool
  | [], _ => ((p, v, a), true)
  | g :: l, t =>
    if t < g.dur then (segStep p v a g.jerk t, false)
    else
      let (p', v', a') := segStep p v a g.jerk g.dur
      runSegs p' v' a' l (t - g.dur)

/-- Ticks from the start of a motion to a local instant; `unit` is the unit of time in ns. -/
def Motion.ticks (k unit : Nat) (m : Motion) (now : Nat) : Nat := (now - m.start) * 2 ^ k / unit

/-- The whole length of a motion in ticks. -/
def Motion.length (m : Motion) : Nat := (m.segs.map fun g => g.dur).sum

/-- A motion at a local instant: position, velocity, acceleration, and whether it has ended. -/
def Motion.at (k unit : Nat) (m : Motion) (now : Nat) : (Int × Int × Int) × Bool := runSegs m.pos m.vel m.acc m.segs (m.ticks k unit now)

/-- The instant a motion ends, in ns. -/
def Motion.ends (k unit : Nat) (m : Motion) : Nat := m.start + cdiv (m.length * unit) (2 ^ k)

/-- A move from rest (R337); it ends exactly at its target. -/
def Motion.move (k : Nat) (l : Limits) (now : Nat) (pos target : Int) : Motion :=
  if pos = target then { Motion.rest pos with start := now }
  else { start := now, pos := pos, vel := 0, acc := 0, segs := moveSegs k l (target - pos), target := target }

/-- The segments that bring a moving axis to rest (R340); signs are mirrored for a negative velocity.  `again` bounds the
number of overshoots. -/
def stopSegs (k : Nat) (l : Limits) : Nat → Int → Int → List Seg
  | 0, _, _ => []
  | again + 1, v, a =>
    if v < 0 || (v == 0 && decide (a < 0)) then (stopSegs k l again (-v) (-a)).map fun g => ⟨g.dur, -g.jerk⟩
    else if v = 0 ∧ a = 0 then []
    else
      let js : Int := max 1 l.j * 2 ^ 44
      let as : Int := max 1 l.a * 2 ^ (k + 44)
      let ap : Int := (js * v + a * a / 2).toNat.sqrt
      if a + ap < 0 then
        let t := cdiv a.natAbs js.toNat
        let (_, v', _) := segStep 0 v a js t
        ⟨t, js⟩ :: stopSegs k l again v' 0
      else if ap ≤ as then [⟨cdiv (a + ap).toNat js.toNat, -js⟩, ⟨cdiv ap.toNat js.toNat, js⟩]
      else
        let th := (v + (a * a - 2 * as * as) / (2 * js)) / as
        [⟨cdiv (a + as).toNat js.toNat, -js⟩, ⟨th.toNat, 0⟩, ⟨cdiv as.toNat js.toNat, js⟩]

/-- A stop of a motion in progress (R340); where it ends is its target. -/
def Motion.stop (k unit : Nat) (l : Limits) (now : Nat) (m : Motion) : Motion :=
  let ((p, v, a), _) := m.at k unit now
  let segs := stopSegs k l 4 v a
  let ((e, _, _), _) := runSegs p v a segs ((segs.map fun g => g.dur).sum)
  { start := now, pos := p, vel := v, acc := a, segs := segs, target := e }

/-- The set point at an instant: the target itself once the motion has ended. -/
def Motion.setPoint (k unit : Nat) (m : Motion) (now : Nat) : Int :=
  match m.at k unit now with
  | (_, true) => m.target
  | ((p, _, _), false) => p

end Sys2Proof.Machine
end

