-- ==== Sys2Proof/Machine/Laser.lean ====
section
/-!
DEFINITION. Laser members (R354 to R369, R381 to R391): their configuration, P-I records, targets, faults, probes, takeovers,
and the levels of the light groups.  A member number is a string, 0 to 47, or 64 + 512c + 8s + k for a slice channel.
-/
namespace Sys2Proof.Machine

/-! ## Configuration -/

/-- A member's configuration (Tables 11.10 and 11.11). -/
structure MemCfg where
  en : Bool
  group : Nat
  spare : Bool
  hot : Bool
  mode : Nat
  fsw : Nat
  pd : Nat
  nl : Nat
  deriving DecidableEq, Repr

/-- A member's configuration in a view. -/
def memCfg (v : Nat → Word) (m : Nat) : MemCfg :=
  if m < 64 then
    let w := v (R.LS_STR_CFG m)
    { en := bit w 0, group := bits w 1 3, spare := bit w 4, hot := bit w 5, mode := bits w 6 2, fsw := bits w 8 2,
      pd := bits w 10 2, nl := bits w 12 6 }
  else
    let w := v (win 0x18 (m - 64))
    { en := bit w 0 && bit (v R.CHAIN_CFG) ((m - 64) / 512), group := bits w 1 3, spare := bit w 4, hot := bit w 5, mode := 1,
      fsw := 0, pd := 0, nl := 0 }

/-- The slice channels whose entry in a register list is not at its reset value. -/
def slcKeys (regs : List (Nat × Word)) : List Nat :=
  (regs.filter fun e => decide (actOf (win 0x18 0) ≤ e.1) && decide (e.1 < actOf (win 0x18 2048))).map
    fun e => 64 + (e.1 - actOf (win 0x18 0)) / 4

/-- The enabled members, in number order. -/
def Block.members (s : Block) : List Nat :=
  ((List.range 48) ++ slcKeys s.regs).filter fun m => (memCfg s.act m).en

/-- The enabled members of a group. -/
def Block.membersOf (s : Block) (g : Nat) : List Nat := s.members.filter fun m => (memCfg s.act m).group == g

/-- NACTIVE (R355): the ACTIVE members of a group in the committed configuration. -/
def Block.nActive (s : Block) (g : Nat) : Nat := ((s.membersOf g).filter fun m => !(memCfg s.act m).spare).length

/-- A member. -/
def Block.member (s : Block) (m : Nat) : Member :=
  if m < 64 then s.ls.str.getD m Member.reset else (aget? s.ls.slc m).getD Member.reset

/-- A member changes. -/
def Block.modMember (s : Block) (m : Nat) (f : Member → Member) : Block :=
  if m < 64 then { s with ls := { s.ls with str := modAt s.ls.str m f } }
  else { s with ls := { s.ls with slc := aput s.ls.slc m (f (s.member m)) } }

/-- Every listed member changes. -/
def Block.modMembers (s : Block) (l : List Nat) (f : Member → Member) : Block := l.foldl (fun s m => s.modMember m f) s

/-- The page a member's events come from. -/
def memPage (m : Nat) : Nat := if m < 24 then 0x16 else if m < 64 then 0x17 else 0x18

/-! ## P-I records (R358 to R360) -/

/-- The 64 points (o, current) of a member's record in an image. -/
def Block.piPoints (s : Block) (image m : Nat) : List (Nat × Nat) :=
  match capAt s.ls.piPages (piOff image + 256 * m) with
  | none => []
  | some pa => (List.range 64).map fun i =>
      let w := s.memNat (pa + 4 * i) 4
      (natBits w 0 16, natBits w 16 16)

/-- R359 over points: the current code of an optical fraction `num` / 2^76. -/
def piConv (pts : List (Nat × Nat)) (num : Nat) : Nat :=
  let at0 (i : Nat) : Nat × Nat := pts.getD i (0, 0)
  let o (i : Nat) : Nat := (at0 i).1 * 2 ^ 61
  if num = 0 then 0
  else match (List.range pts.length).find? fun i => decide (num < o i) with
    | none => (at0 (pts.length - 1)).2
    | some 0 => (at0 0).2
    | some (i + 1) =>
      let d : Int := ((at0 (i + 1)).2 : Int) - (at0 i).2
      ((at0 i).2 + rdiv (d * ((num : Int) - o i)) (o (i + 1) - o i)).toNat

/-- The optical fraction, in 30 fraction bits, that gives a current code: the inverse of R359. -/
def piInv (pts : List (Nat × Nat)) (c : Nat) : Nat :=
  let at0 (i : Nat) : Nat × Nat := pts.getD i (0, 0)
  match (List.range pts.length).find? fun i => decide (c < (at0 i).2) with
  | none => (at0 (pts.length - 1)).1 * 32768
  | some 0 => 0
  | some (i + 1) => (at0 i).1 * 32768 + ((at0 (i + 1)).1 - (at0 i).1) * 32768 * (c - (at0 i).2) / ((at0 (i + 1)).2 - (at0 i).2)

/-- A member's active record. -/
def Block.pi (s : Block) (m : Nat) : List (Nat × Nat) := s.piPoints s.ls.piImage m

/-- R359 for a member and a U1.15 fraction. -/
def Block.piCode (s : Block) (m o : Nat) : Nat := piConv (s.pi m) (o * 2 ^ 61)

/-- Is a record well formed (R358)? -/
def piOk (pts : List (Nat × Nat)) : Bool :=
  pts.length == 64 && (pts.getD 0 (1, 0)).1 == 0 &&
    (List.range 63).all fun i =>
      decide ((pts.getD i (0, 0)).1 < (pts.getD (i + 1) (0, 0)).1) && decide ((pts.getD i (0, 0)).2 ≤ (pts.getD (i + 1) (0, 0)).2)

/-- LSG_PI_CHECK_GO (R360): the records of every enabled member in the inactive image. -/
def Block.piCheck (s : Block) : Block :=
  let bad := s.members.find? fun m => !piOk (s.piPoints (1 - s.ls.piImage) m)
  { s with ls := { s.ls with piValid := bad.isNone, piFail := bad.getD 0 } }

def execLsgPiCheckGo (s : State) : Res := s.does fun s => s.onWrite 0x15 Block.piCheck

/-! ## Where a group stands in its frame -/

/-- The slot in force of a mirror light group. -/
def Block.slotNow (s : Block) (g : Nat) : Option Slot := (calSlots (s.port g).words)[(s.port g).slot]?

/-- The amplitude code in force of a group: that of its slot's epoch, 0 in a ZERO slot; full scale for LG_HL (R357). -/
def Block.ampNow (s : Block) (g : Nat) : Nat :=
  if g = 4 then 0x8000
  else match s.slotNow g with
    | some x => if x.plane = 16 then 0 else calAmp (s.port g).words x.epoch
    | none => 0

/-- The dimmer level in force of a group for its members (R355, R357). -/
def Block.levelNow (s : Block) (g : Nat) : Nat := if g = 4 then 0x8000 else (s.grp g).level

/-- Is the group in a dwell that releases its shunts, outside the dark interval (R55, R265, R365)? -/
def Block.inDwell (s : Block) (g : Nat) : Bool :=
  !s.inDarkNow && (g == 4 || (s.port g).phase == 2 && decide (s.ampNow g ≠ 0))

/-- Is the hardwired safety path asserted, the power-fail cut or the Firebreak latch in force (R402)? -/
def Block.pathCut (s : Block) : Bool := s.safeOut || s.pw.pfCut || bit (s.reg R.PWR_FIREBREAK) 0

/-- Is a group held at zero by its port: an abort, a frame without a set, a mismatch, a dark transition (R402)? -/
def Block.portHold (s : Block) (g : Nat) : Bool :=
  g != 4 && ((s.port g).held != 0 || (s.port g).words.isEmpty) || s.isDark g

/-- The live state of a loop record. -/
def Block.loopRec (s : Block) (i : Nat) : LoopRec := s.cp.recs.getD i LoopRec.reset

/-- The ABORT sources of a member (R402, R411). -/
def Block.abortOf (s : Block) (m : Nat) : Bool :=
  let g := (memCfg s.act m).group
  s.pathCut || s.portHold g || (s.member m).heldFrame || s.cp.wheelFault ||
    (decide (m < 48) && ((s.loopRec m).bad || (s.loopRec (64 + m)).bad))

/-- Is a member lit: ACTIVE, by role or by takeover, in a lit group? -/
def Block.litMember (s : Block) (m : Nat) : Bool :=
  let g := (memCfg s.act m).group
  (s.member m).acting && ((s.member m).st == 1 || (s.member m).st == 5) && (s.grp g).lit

/-- The strings that drive light now divert their current (R400). -/
def Block.diverted (s : Block) (m : Nat) : Bool :=
  let g := (memCfg s.act m).group
  s.abortOf m || !s.inDwell g

/-! ## Roles -/

/-- Is a member a spare now: by its role, or as FAULT_CLEAR has returned it (R638)? -/
def Block.spareNow (s : Block) (m : Nat) : Bool := (memCfg s.act m).spare || ((s.member m).away && (s.member m).st != 5)

/-- Can a member be lit as its chain stands: a string, or a slice channel of a chain that runs (R378)? -/
def Block.chainRuns (s : Block) (m : Nat) : Bool :=
  m < 64 || (match s.ls.chn[(m - 64) / 512]? with | some k => k.st == 2 || k.st == 3 | none => false)

/-- The spares of a group that are held HOT (R364): the lowest-numbered HOT_COUNT that have HOT set or were called and are HOT; and while a
takeover waits, every called one that is HOT (R388). -/
def Block.hotSpares (s : Block) (g : Nat) : List Nat :=
  let l := (s.membersOf g).filter fun m => s.spareNow m && !(s.member m).acting && (s.member m).st != 4 && s.chainRuns m
  let called (m : Nat) : Bool := (s.member m).called && (s.member m).hotAt.isNone
  ((l.filter fun m => (memCfg s.act m).hot || called m).take (s.afld R.LSG_TAKEOVER 0 2)) ++
    (if (s.grp g).waiting.isEmpty && s.ca.isNone then [] else l.filter called)

/-- The HOT spare of a group that takes over next (R388): the lowest-numbered, so strings come before slice channels. -/
def Block.nextSpare (s : Block) (g : Nat) : Option Nat := (s.membersOf g).find? fun m => s.spareNow m && (s.member m).st == 3 && s.chainRuns m

/-- The CONFIG of a chain is shifted at once, ahead of every queued shift. -/
def Block.configFirst (s : Block) (m : Nat) : Block :=
  if m < 64 then s
  else { s with ls := { s.ls with chn := modAt s.ls.chn ((m - 64) / 512) fun k =>
    { k with queue := if k.queue.head? = some (2, 0) then k.queue else (2, 0) :: k.queue } } }

/-- A slice channel that is to take over gets an immediate CONFIG shift, ahead of every queued one (R388). -/
def Block.callSlice (s : Block) (m : Nat) : Block :=
  if m < 64 || (s.member m).prep != 0 then s
  else
    (s.modMember m fun q => { q with prep := 1 }).configFirst m

/-- The states of the members as their configuration, their group and the device state give them. -/
def Block.refreshMembers (s : Block) : Block :=
  let en := s.members
  let all := (List.range 48) ++ (s.ls.slc.map (·.1)) ++ (en.filter fun m => 64 ≤ m)
  let s := all.foldl (fun s m =>
    if en.contains m then s.modMember m fun q => { q with acting := q.acting || (!(memCfg s.act m).spare && q.st != 4 && !q.away) }
    else s.modMember m fun q => { q with st := 0, acting := false, hotAt := none, called := false, suspect := false, probeDue := false,
                                         away := false }) s
  let hots := (List.range 5).flatMap s.hotSpares
  en.foldl (fun s m =>
    s.modMember m fun q =>
      if q.st = 4 || q.away && q.st = 5 then q
      else if !s.pw.state.running then { q with st := 0 }
      else if q.acting then { q with st := if (s.grp (memCfg s.act m).group).lit then (if q.heldFrame then 5 else 1) else 0 }
      else { q with st := if q.heldFrame then 5 else if hots.contains m then 3 else 2 }) s

/-! ## Faults and takeovers (R381 to R391) -/

/-- A member joins those of its group that wait for a takeover: after those that failed before the dwell in hand, and among those of the
dwell by its number (R391). -/
def Block.insertWaiting (s : Block) (g m : Nat) (l : List Nat) : List Nat :=
  let before (x : Nat) : Bool := decide (x < m) || decide ((s.member x).faultAt < (s.port g).kerfEnd)
  l.takeWhile before ++ [m] ++ l.dropWhile before

/-- A member is latched off with a cause (R381, R390): the gate is off, or the slice's EN bit is cleared at the next update.  The
latching off of a SPARE posts TAKEOVER as well; no rule says which member its new one is (log entry 250). -/
def Block.latchMember (s : Block) (m cause : Nat) : Block :=
  let q := s.member m
  if q.st = 4 then s
  else
    let g := (memCfg s.act m).group
    let spare := s.spareNow m && !q.acting
    let s := s.modMember m fun q =>
      { q with st := 4, cause := cause, acting := false, suspect := false, probeDue := false, heldFrame := false, faultAt := s.now, prep := 0,
               buck := 0, hotAt := none, called := false }
    let s := if cause = 7 then s else s.configFirst m
    let s := if q.acting then
        let s := s.modGrp g fun k => { k with waiting := s.insertWaiting g m k.waiting }
        match s.nextSpare g with | some x => s.callSlice x | none => s
      else s
    let s := s.faultEv (memPage m) 0x100 2 [w32 (m + 65536 * cause + 16777216 * g), s.tm.fsn, w32 (s.port g).slot] .clear (pageInst (memPage m))
    if spare then
      let (x, s) := s.takeBelow 65535
      s.post 0x15 0x103 [w32 (m + 65536 * x), s.tm.fsn, w32 (g + 256 * (s.port g).slot)]
    else s

/-- A string held off after an over-current trip returns: ACTIVE, or HOT where it is a spare (R381). -/
def Member.relit (q : Member) : Member := if q.heldFrame then { q with heldFrame := false, st := if q.acting then 1 else 3 } else q

/-- OVER_CURRENT_TRIP (R381): of a string whose buck runs, lit or HOT. -/
def Block.ocTrip (s : Block) (n : Nat) : Block :=
  if n < 48 && (s.litMember n || (s.member n).st == 3) then
    let trips := s.now :: (s.member n).trips.filter fun t => s.now < t + 1000000000
    let s := (s.modMember n fun q => { q with trips := trips, heldFrame := true, st := 5 }).postTally 0x107 (pageInst (memPage n))
    if 3 ≤ trips.length then s.latchMember n 3 else s
  else s

def execOverCurrentTrip (n : Nat) (s : State) : Res := s.does fun s => s.ocTrip n

/-- FAULT_INPUT (R381). -/
def execFaultInput (n : Nat) (s : State) : Res :=
  s.does fun s => if n < 48 && (memCfg s.act n).en then s.latchMember n 5 else s

/-- A COLD spare of a group is called (R364, R388): it becomes HOT within 2 ms. -/
def Block.callCold (s : Block) (g : Nat) : Block :=
  match (s.membersOf g).find? fun m => s.spareNow m && (s.member m).st == 2 && (s.member m).hotAt.isNone && s.chainRuns m with
  | some m => s.modMember m fun q => { q with hotAt := some (s.now + 2000000), called := true }
  | none => s

/-- Is a group at a takeover kerf? -/
def Block.atKerf (s : Block) (g : Nat) : Bool := (s.grp g).lit && (g == 4 || (s.port g).phase == 1)

/-- S_i of the kerf a group is at: LG_HL has no kerfs, and takes over at any instant (R357). -/
def Block.kerfFrom (s : Block) (g : Nat) : Nat := if g = 4 then s.now else (s.port g).kerfAt

/-- A spare becomes ACTIVE (R388). -/
def Block.spareActs (s : Block) (m : Nat) : Block :=
  s.modMember m fun q =>
    { q with st := 1, acting := true, h := 0, mode := (memCfg s.act m).mode, handover := false, hotAt := none, called := false,
             away := false, prep := 0 }

/-- A member that a PI procedure covered is ACTIVE again, and its spare a spare again (R440). -/
def Block.giveBack (s : Block) (g : Nat) : Block :=
  match (s.grp g).calBack with
  | none => s
  | some (m, x) =>
    let s := s.modGrp g fun k => { k with calBack := none }
    if (s.member m).st = 4 then s
    else
      let s := s.modMember m fun q => { q with st := 1, acting := true, away := false, h := 0, handover := false }
      s.modMember x fun q => if q.st = 4 then q else { q with st := 3, acting := false }

/-- A PI procedure's takeovers at a kerf (R440, Table 13.10): the spare takes its member's place, or gives it back. -/
def Block.calTakeover (s : Block) (g : Nat) : Block :=
  if !s.atKerf g then s
  else if (s.grp g).calBack.isSome then s.giveBack g
  else match s.ca with
    | some r =>
      if r.proc = 2 ∧ r.phase = 2 ∧ (memCfg s.act r.target).group = g then
        match (s.membersOf g).find? fun m => s.spareNow m && (s.member m).st == 3 && m != r.target && s.chainRuns m with
        | some x =>
          if 64 ≤ x && (s.member x).prep != 2 then s.callSlice x else
          let s := (s.spareActs x).modMember r.target fun q => { q with st := 5, acting := false, away := true }
          { s with ca := some { r with phase := 3, spare := some x } }
        | none => if (s.membersOf g).any fun m => (s.member m).hotAt.isSome then s else s.callCold g
      else s
    | none => s

/-- The spare of a PI procedure is replaced, or there is none left and the member returns (Table 13.10). -/
def Block.calSpare (s : Block) (f : Nat) (new : Option Nat) : Block :=
  match s.ca with
  | some r =>
    if r.spare = some f then
      let s : Block := { s with ca := some { r with spare := new, lost := r.lost || new.isNone } }
      if new.isNone then s.modMember r.target fun q => if q.st = 4 then q else { q with st := 1, acting := true, away := false } else s
    else s
  | none => s

/-- SPARE_TAKEOVER (R388, R390): at the first S_i at least 1.024 us after the fault and after the spare is HOT, the first member
waiting is replaced by the lowest HOT spare; with none, a COLD spare is called; with neither, the NO_SPARE policy applies, unless
the member was itself the spare of a PI procedure, which gives its member back. -/
def Block.takeover (s : Block) (g : Nat) : Block :=
  let k := s.grp g
  match k.waiting with
  | [] => s.calTakeover g
  | f :: rest =>
    match s.nextSpare g with
    | some m =>
      if 64 ≤ m && (s.member m).prep != 2 then s.callSlice m
      else if s.atKerf g && decide ((s.member f).faultAt + 1024 ≤ s.kerfFrom g) && decide ((s.member m).hotSince ≤ s.kerfFrom g) then
        let s := (s.spareActs m).calSpare f (some m)
        let s := s.modGrp g fun k => { k with waiting := rest }
        let s := s.post 0x15 0x103 [w32 (f + 65536 * m), s.tm.fsn, w32 (g + 256 * (s.port g).slot)]
        let hot := (s.membersOf g).filter fun x => s.spareNow x && ((s.member x).st == 3 || (s.member x).hotAt.isSome)
        if hot.length < s.afld R.LSG_TAKEOVER 0 2 then s.callCold g else s
      else s
    | none =>
      if (s.membersOf g).any fun m => s.spareNow m && (s.member m).st == 2 && s.chainRuns m then
        if (s.membersOf g).any fun m => (s.member m).hotAt.isSome then s else s.callCold g
      else if (match s.ca with | some r => r.spare == some f | none => false) then
        if s.atKerf g then (s.calSpare f none).modGrp g fun k => { k with waiting := rest } else s
      else
        let stop := s.abit R.LSG_TAKEOVER 2
        let s := s.modGrp g fun k => { k with waiting := rest, short := if stop then k.short else true }
        s.faultEv 0x15 0x104 (if stop then 3 else 2) [w32 (f + 65536 * g + 16777216 * stop.toNat), s.tm.fsn] .clear (pageInst 0x15)

def execSpareTakeover (g : Nat) (s : State) : Res := s.does fun s => if g < 5 then s.takeover g else s

/-! ## Evidence and probes (R383 to R387) -/

/-- A member has a qualifying measurement (R382, R383). -/
def Member.qualify (q : Member) (now : Nat) : Member := { q with qualAt := now }

/-- Is a probe due for a member (R384): a suspect, or one without a qualifying measurement for STALE of its group's light? -/
def Block.probeNeeded (s : Block) (m : Nat) : Bool :=
  let q := s.member m
  (s.grp (memCfg s.act m).group).lit && (memCfg s.act m).en && q.st != 4 &&
    (q.suspect || decide (s.afld R.LSG_DIAG_CFG 8 8 * 1000000 ≤ s.now - max q.qualAt (s.grp (memCfg s.act m).group).startAt))

/-- PROBE_DUE (R384). -/
def execProbeDue (m : Nat) (s : State) : Res :=
  s.does fun s =>
    if s.probeNeeded m && !(s.member m).probeDue then
    s.modMember m fun q => { q with probeDue := true, dueAt := s.now, starved := false } else s

/-- The probe current of a member (R385): PROBE_FRAC / 16 of its threshold. -/
def Block.probeCode (s : Block) (m : Nat) : Nat :=
  let frac := if m < 64 then s.afld (R.LS_STR_MODEL m) 8 4 else s.afld R.CHAIN_SLICE_CFG 28 4
  ((s.pi m).getD 0 (0, 0)).2 * min 8 frac / 16

/-- A probe of a member ends with a current (R385). -/
def Block.probeEnd (s : Block) (m cur : Nat) : Block :=
  let q := s.member m
  if !q.probeDue then s
  else
    let isOpen := decide (4 * cur < s.probeCode m)
    let s := s.modMember m fun k =>
      { (k.qualify s.now) with probeDue := false, contra := 0, suspect := false, starved := false, ref := 0, cur := if m < 64 then cur else k.cur }
    let s := if q.suspect && !isOpen then s.postTally 0x108 (pageInst (memPage m)) else s
    let s := s.post (memPage m) 0x102 [w32 (m + 65536 * isOpen.toNat), s.tm.fsn, w32 cur]
    let s := s.autoClose (memPage m) 0x102 fun d => d == w32 (m + 131072)
    if isOpen then s.latchMember m 1 else s

/-- Is there an opportunity for a probe of a group (R385)? -/
def Block.probeTime (s : Block) (g : Nat) : Bool :=
  (decide (22000 ≤ darkNs s.act) && s.inDarkNow) ||
    (g != 4 && decide (probeExt s.act g ≠ 0) && (s.port g).phase == 1 && (s.port g).slot == 0)

/-- PROBE_STARVED (R386). -/
def execProbeStarved (m : Nat) (s : State) : Res :=
  s.does fun s =>
    if (s.member m).probeDue && decide ((s.member m).dueAt + 1000000000 ≤ s.now) && !(s.member m).starved then
    (s.modMember m fun q => { q with starved := true }).faultEv (memPage m) 0x102 1 [w32 (m + 131072), s.tm.fsn, 0] .auto (pageInst (memPage m))
    else s

/-! ## Buck targets (R361) and levels (R367 to R369) -/

/-- The largest epoch code the slots of a calendar name. -/
def maxAmp (ws : List Word) : Nat := (calSlots ws).foldl (fun a x => if x.plane = 16 then a else max a (calAmp ws x.epoch)) 0

/-- The buck target of a string for a calendar and a level (R361). -/
def Block.buckTarget (s : Block) (n : Nat) (ws : List Word) (level : Nat) : Nat :=
  let g := (memCfg s.act n).group
  let amp := if g = 4 then 0x8000 else maxAmp ws
  let lv := if g = 4 then 0x8000 else level
  let c := piConv (s.pi n) (amp * lv * 2 ^ 46)
  (c * 17 + 8) / 16

/-- A called COLD spare is HOT: its buck runs at its target (R364). -/
def Block.spareHot (s : Block) (m : Nat) : Block :=
  let g := (memCfg s.act m).group
  let b := if m < 48 ∧ (s.grp g).lit = true then s.buckTarget m (s.port g).words (s.levelNow g) else 0
  s.modMember m fun q => { q with st := 3, hotAt := none, hotSince := s.now, buck := b }

/-- COLD_SPARE_HOT (R364). -/
def execColdSpareHot (m : Nat) (s : State) : Res :=
  s.does fun s => if (s.member m).hotAt.isSome && (s.member m).st == 2 then s.spareHot m else s

/-- The strings whose bucks run: lit members, HOT spares, and COLD spares whose probe is due (R361, R364, R384). -/
def Block.buckStrings (s : Block) : List Nat :=
  (List.range 48).filter fun n => (memCfg s.act n).en &&
    ((s.litMember n) || ((s.member n).st == 3 || (s.member n).st == 2 && (s.member n).probeDue) && (s.grp (memCfg s.act n).group).lit)

/-- At an FB the target takes its value for the frame (R361). -/
def Block.setBucks (s : Block) : Block :=
  (List.range 48).foldl (fun s n =>
    let g := (memCfg s.act n).group
    let on := s.buckStrings.contains n
    s.modMember n fun q => { q with buck := if on then s.buckTarget n (s.port g).words (s.levelNow g) else 0 }) s

/-- The dimmer's limits, in sixteenths of level units per second and its powers (R367). -/
def dimLimits (v : Nat → Word) : Limits :=
  let w := v R.LSG_DIM_LIM
  { v := bits w 0 8 * 131072, a := bits w 8 8 * 2097152, j := bits w 16 8 * 131072000 }

/-- A level in the motion's positions. -/
def dimPos (l : Nat) : Int := (l : Int) * posScale 32

/-- The level of a motion at an instant, rounded to nearest. -/
def dimLevel (m : Motion) (now : Nat) : Nat := (rdiv (m.setPoint 32 1000000000 now) (posScale 32)).toNat

/-- A stop that has ended goes on to the target then in force, from the instant it ended (R340, R367). -/
def Group.resume (k : Group) (l : Limits) (now : Nat) : Group :=
  if k.moving && (k.motion.at 32 1000000000 now).2 then
    { k with motion := Motion.move 32 l (k.motion.ends 32 1000000000) k.motion.target (dimPos k.want), moving := false }
  else k

/-- The level a group will have at a local instant, its target unchanged (R367, R368). -/
def Block.levelAt (s : Block) (g now : Nat) : Nat :=
  let k := s.grp g
  match k.softAt with
  | some t0 => min k.softTarget ((2 * k.softTarget * (now - t0) + s.afld R.LSG_SOFT_START 0 10 * 1000000) /
      (2 * max 1 (s.afld R.LSG_SOFT_START 0 10 * 1000000)))
  | none => dimLevel (k.resume (dimLimits s.act) now).motion now

/-- The device as the commits that apply at the next FB will leave its light (R361, R366): the values in force, the P-I images and the
members' roles. -/
def Block.comingBlock (s : Block) : Block :=
  let due := s.cm.list.filter fun c => c.display && !s.holds c
  let s := due.foldl (fun s c => s.applyVals (fun a => c.major || !sourceSide a) c.pages c.vals) s
  let has (p : Nat) : Bool := due.any fun c => natBit c.pages p
  let s : Block := if has 0x15 then { s with ls := { s.ls with piPages := s.piCapture,
                                                               piImage := if s.abit R.LSG_CFG 8 then 1 - s.ls.piImage else s.ls.piImage } } else s
  if [0x15, 0x16, 0x17, 0x18].any has then s.refreshMembers else s

/-- The groups, as a mask, that a dark transition holds at zero in the frame that comes (R77). -/
def Block.darkNext (s : Block) : Nat :=
  let held := (s.tm.dark.filter fun d => decide (s.tm.nextK < d.litK)).foldl (fun m d => m ||| d.groups) 0
  if s.tm.resetMajor || s.tm.stepDue != 0 then 31
  else if s.cm.list.any fun c => c.display && c.major && !s.holds c then held ||| majorGroups s.act s.comingBlock.act
  else held

/-- The level of a group in the frame that comes: its light returns from a dark transition at level 0 (R79). -/
def Block.levelComing (s : Block) (g fb : Nat) : Nat := if s.isDark g then 0 else s.levelAt g fb

/-- At a cutoff the target grows, where the frame that comes needs more (R361). -/
def Block.raiseBucks (s : Block) : Block :=
  let fb := s.now + s.localFor (s.nextFb - s.tm.ft)
  let dark := s.darkNext
  let t := s.comingBlock
  (t.buckStrings.filter fun n => (t.member n).st != 2 && !natBit dark (memCfg t.act n).group).foldl (fun s n =>
    let g := (memCfg t.act n).group
    let b := t.buckTarget n (activeCal t.act g) (t.levelComing g fb)
    s.modMember n fun q => { q with buck := max q.buck b }) s

/-- The motion of a group at an FB: towards its target, stopping first where it moves elsewhere (R367, R340).  The result says whether
the target has moved during a move. -/
def Group.steer (k : Group) (l : Limits) (now want : Nat) : Group × Bool :=
  let k := k.resume l now
  let ended := (k.motion.at 32 1000000000 now).2
  let moved := !ended && k.want != want
  let k := { k with want := want }
  if k.motion.target = dimPos want && !k.moving then (k, moved)
  else if ended then ({ k with motion := Motion.move 32 l now k.motion.target (dimPos want), moving := false }, moved)
  else if k.moving then (k, moved)
  else ({ k with motion := k.motion.stop 32 1000000000 l now, moving := true }, moved)

/-- The level of a group for the frame that begins (R367 to R369). -/
def Block.levelFb (s : Block) (g : Nat) : Block :=
  let k := s.grp g
  if !k.lit || s.isDark g && !k.stopping then s
  else
    let want := s.afld (R.LSG_DIM g) 0 16
    let ss := s.afld R.LSG_SOFT_START 0 10 * 1000000
    match k.softAt with
    | some t0 =>
      if want = k.softTarget && !k.stopping then
        let t := s.now - t0
        let lv := if ss ≤ t then want else (2 * want * t + ss) / (2 * max 1 ss)
        if ss ≤ t then
          (s.modGrp g fun k => { k with level := lv, softAt := none, starting := false, want := want,
                                        motion := { Motion.rest (dimPos want) with start := s.now } }).post
            0x15 0x105 [w32 g, s.tm.fsn]
        else s.modGrp g fun k => { k with level := lv }
      else
        let t := s.now - t0
        let m : Motion := { start := s.now, pos := dimPos k.softTarget * t / max 1 ss, vel := dimPos k.softTarget * 1000000000 / (max 1 ss * 2 ^ 32),
                            acc := 0, segs := [⟨1, 0⟩], target := dimPos k.softTarget }
        let k' : Group := { k with softAt := none, starting := false, want := if k.stopping then 0 else want,
                                   motion := m.stop 32 1000000000 (dimLimits s.act) s.now, moving := true }
        (s.postTally 0x106 (pageInst 0x15)).modGrp g fun _ => { k' with level := dimLevel k'.motion s.now }
    | none =>
      let (k', moved) := k.steer (dimLimits s.act) s.now (if k.stopping then 0 else want)
      let s := if moved then s.postTally 0x106 (pageInst 0x15) else s
      s.modGrp g fun _ => { k' with level := dimLevel k'.motion s.now }

/-- A group starts (R121, R368): lit, at level 0, from this FB. -/
def Block.startGroup (s : Block) (g : Nat) : Block :=
  s.modGrp g fun k =>
    { k with lit := true, startAt := s.now, starting := true, stopping := false, softAt := some s.now,
             softTarget := s.afld (R.LSG_DIM g) 0 16, level := 0,
             motion := { Motion.rest 0 with start := s.now }, moving := false }

/-- A group is held at zero (R369). -/
def Block.darkenGroup (s : Block) (g : Nat) : Block :=
  s.modGrp g fun k =>
    { k with lit := false, starting := false, stopping := false, softAt := none, level := 0, motion := Motion.rest 0, moving := false }

end Sys2Proof.Machine
end

