-- ==== Sys2Proof/Machine/Scanner.lean ====
section
/-!
DEFINITION. The highlight scanner (R317 to R353): fast axis, angle time, Highline, the beam, zones and beam cuts.
-/
namespace Sys2Proof.Machine

/-- The scanner changes. -/
def Block.modSc (s : Block) (f : ScanState → ScanState) : Block := { s with sc := f s.sc }

/-! ## The fast axis (R318 to R326) -/

/-! ## The drives (R317, Table 10.3) -/

/-- The sine of a phase in 2^-32 of a turn, in 30 fraction bits. -/
def sin30 (ph : Nat) : Int :=
  let q := ph / 1073741824 % 4
  let x := ph % 1073741824
  let x := if q % 2 = 0 then x else 1073741824 - x
  let th : Int := (x * 1686629713 / 1073741824 : Nat)
  let t := th * th / 1073741824
  let term (d : Nat) (y : Int) : Int := 1073741824 - t * y / (1073741824 * d : Nat)
  let y := th * term 6 (term 20 (term 42 (term 72 (term 110 1073741824)))) / 1073741824
  if q < 2 then y else -y

/-- The ends of the sweep in mHz, and its time in ns. -/
def Block.sweepSpan (s : Block) : Nat × Nat × Nat :=
  (s.afld R.HSF_SWEEP_START 0 16 * 1000, s.afld R.HSF_SWEEP_END 0 16 * 1000, s.afld R.HSF_SWEEP_CFG 0 12 * 1000000)

/-- The frequency in mHz of the open-loop drive, so long after the sweep began: it moves evenly from SWEEP_START to SWEEP_END in SWEEP_TIME
(Table 10.3; log entry 249). -/
def Block.sweptFreq (s : Block) (d : Nat) : Nat :=
  let (a, b, t) := s.sweepSpan
  ((a : Int) + ((b : Int) - a) * (min d t : Nat) / max 1 t).toNat

/-- The drive frequency in use. -/
def Block.driveFreq (s : Block) : Nat := if s.sc.st = 1 then s.sweptFreq (s.now - s.sc.enAt) else s.sc.freq

/-- The phase of the drive sinusoid at a local instant, in 2^-32 of a turn. -/
def Block.drivePhase (s : Block) (t : Nat) : Nat :=
  let c := s.sc
  let turns : Int :=
    if c.st = 1 then
      let (a, b, n) := s.sweepSpan
      let d := min (t - c.enAt) n
      2 * a * d + ((b : Int) - a) * d * d / max 1 n
    else (2 * c.freq * (t - c.drvAt) : Nat)
  (c.drvPhase + (turns * 4294967296 / 2000000000000).toNat) % 4294967296

/-- The phase reached is kept before the drive frequency changes. -/
def Block.driveMark (s : Block) : Block :=
  let p := s.drivePhase s.now
  s.modSc fun c => { c with drvPhase := p, drvAt := s.now }

/-- HS_DRV_X and HS_DRV_Y (R317), signed 16-bit samples of the 100 ns grid: a sinusoid at the FREQ frequency and the AMP amplitude, and the
straight line between the last two SLOW outputs; both at mid-scale, which is 0, during an emergency stop. -/
def Block.driveHs (s : Block) : Block :=
  let t := s.now / 100 * 100
  let c := s.sc
  let x := if 1 ≤ c.st ∧ c.st ≤ 6 then clampI (-32768) 32767 ((c.drive : Int) * sin30 (s.drivePhase t) / 2147483648) else 0
  let y := clampI (-32768) 32767 ((c.slowPrev + (c.slowOut - c.slowPrev) * (min 1024 (t - c.slowAt) : Nat) / 1024) / 32768)
  { s with pins := { s.pins with hsDrvX := if s.pins.hsMidScale then 0 else x, hsDrvY := if s.pins.hsMidScale then 0 else y } }

/-- The fast axis takes a state, with HS_STATE. -/
def Block.hsfGoto (s : Block) (st : Nat) : Block :=
  if s.sc.st = st then s
  else (s.modSc fun c => { c with st := st, stAt := s.now }).post 0x12 0x0C0 [w32 (st + 256 * s.sc.st), w32 s.driveFreq]

/-- The sequence of Table 10.3 begins. -/
def Block.sweep (s : Block) : Block :=
  (s.modSc fun c =>
    { c with enAt := s.now, freq := s.afld R.HSF_SWEEP_START 0 16 * 1000, drive := s.afld R.HSF_SWEEP_CFG 16 12 * 16, phaseValid := false,
             okRun := 0, okCross := 0, badRun := 0, ampRef := 0, attempts := c.attempts + 1, drvPhase := 0, drvAt := s.now }).hsfGoto 1

/-- Is the fast axis enabled and the device in a state that runs it? -/
def Block.hsfOn (s : Block) : Bool := s.abit R.HSF_CFG 0 && s.pw.state.running && !s.pins.hsMidScale

/-- Start-up of the fast axis (R321, Table 10.3). -/
def Block.fastAxisStart (s : Block) : Block := if s.hsfOn && s.sc.st == 0 then (s.modSc fun c => { c with attempts := 0 }).sweep else s

/-- FAST_AXIS_ENABLE (R321). -/
def execFastAxisEnable (s : State) : Res := s.does Block.fastAxisStart

/-- The local instant at which the sweep drives a frequency (in mHz) of its span. -/
def Block.sweepReaches (s : Block) (freq : Nat) : Nat :=
  let (a, b, t) := s.sweepSpan
  s.sc.enAt + (if a = b then 0 else cdiv (((freq : Int) - a).natAbs * t) ((b : Int) - a).natAbs)

/-- Resonance (R321): the FREQ integrator is preloaded with the swept frequency then in use. -/
def Block.resonance (s : Block) : Block :=
  let f := s.driveFreq
  let s := s.driveMark
  (({ s with cp := { s.cp with h := 0, hCount := 0, recs := modAt s.cp.recs 48 fun r => { r with i := 0, u := 0, x0 := 1 } } } : Block).modSc
    fun c => { c with freq := f, base := f, sweepHz := (f + 500) / 1000 }).hsfGoto 2

/-- RESONANCE_FOUND (R321): the measured phase crosses HSF_DRV_PHASE as the sweep drives a frequency (in mHz): the instant is the one at
which it drives it, or now where it has driven it already.  A frequency that the sweep does not drive is none. -/
def execResonanceFound (freq : Nat) (s : State) : Res :=
  s.does fun s =>
    let (a, b, t) := s.sweepSpan
    if s.sc.st = 1 ∧ min a b ≤ freq ∧ freq ≤ max a b ∧ s.now < s.sc.enAt + t then (s.toLocal (s.sweepReaches freq)).resonance else s

/-- A lock failure at a stage (R321, R324): once more, then FAULT. -/
def Block.lockFail (s : Block) (stage : Nat) : Block :=
  if s.sc.attempts < 2 then s.sweep
  else ((s.modSc fun c => { c with phaseValid := false }).hsfGoto 7).faultEv 0x12 0x0C6 2 [w32 stage] .clear (pageInst 0x12)

/-- HANDOVER_TIMEOUT (R321): 10 ms outside the tolerance after the hand-over, or a sweep that ends. -/
def execHandoverTimeout (s : State) : Res :=
  s.does fun s =>
    if s.sc.st = 1 ∧ s.sc.enAt + s.afld R.HSF_SWEEP_CFG 0 12 * 1000000 ≤ s.now then s.lockFail 0
    else if s.sc.st = 2 ∧ s.sc.stAt + 10000000 ≤ s.now ∧ s.afld R.CPE_HANDOVER_HS 0 16 * 10 < s.cp.h.natAbs then s.lockFail 1
    else s

/-- LOCK_FAIL (R324): the criterion is not met in the time of Table 10.3. -/
def execLockFail (s : State) : Res :=
  s.does fun s => if (s.sc.st = 3 ∨ s.sc.st = 4) ∧ s.sc.enAt + 1500000000 ≤ s.now then s.lockFail 2 else s

/-- Is the lock criterion met (R322)? -/
def Block.lockMet (s : Block) : Bool := decide (1024 ≤ s.sc.okRun) && decide (64 ≤ s.sc.okCross)

/-- FAST_AXIS_LOCKED (R322): from start-up, after a loss of lock, or at new values (R326). -/
def Block.locked (s : Block) : Block :=
  if !s.lockMet then s
  else if s.sc.st = 4 ∨ s.sc.st = 6 then
    let s := (s.modSc fun c =>
      { c with phaseValid := true, attempts := 0, trim := false, lockTime := (s.now - c.enAt) / 1000000, badRun := 0 }).hsfGoto 5
    let s := s.post 0x12 0x0C1 [w32 (satN 16 s.sc.lockTime), w32 s.sc.sweepHz]
    (s.setReg R.HSF_LINES 0).autoClose 0x12 0x0C2 fun _ => true
  else if s.sc.st = 5 && s.sc.trim then s.modSc fun c => { c with trim := false }
  else s

def execFastAxisLocked (s : State) : Res := s.does fun s => s.locked

/-! ## The beam (R329, R330, R344, R350, R351) -/

/-- The beam enables fall and every DAC code is 0. -/
def Block.beamOff (s : Block) : Block :=
  { s with sc := { s.sc with beamOn := false, dac := [0, 0, 0] }, pins := { s.pins with hlEn := 0 } }

/-- HSS_TARGET: the list entry and the row. -/
def Block.hssTarget (s : Block) : Word :=
  let r := s.sc.rows.headD 0
  w32 ((s.sc.list.findIdx? (· == r)).getD 0 % 2048 + 65536 * (r % 4096))

/-- A cut is recorded (R351). -/
def Block.recordCut (s : Block) (cause : Nat) : Block :=
  let times := s.now :: s.sc.cutTimes.filter fun t => s.now < t + 10000000000
  let s := (s.beamOff.modSc fun c => { c with cut := true, cutCause := cause, causePresent := false, cutTimes := times }).bump R.HSB_CUTS
  let s := s.setReg R.HSB_CUT_FSN s.tm.fsn
  let s := s.faultEv 0x14 0x0C3 1 [w32 (cause + 256 * satN 8 times.length), s.tm.fsn, s.hssTarget] .fb (pageInst 0x14)
  if s.afld R.HSB_BEAM_CFG 8 4 < times.length && !s.sc.latched then
    (s.modSc fun c => { c with latched := true }).faultEv 0x14 0x0C5 2 [w32 cause, s.tm.fsn] .clear (pageInst 0x14)
  else s

/-- A beam cut (R350, R351); a cause met again while the beam is cut is present. -/
def Block.beamCut (s : Block) (cause : Nat) : Block :=
  if s.sc.cut then s.modSc fun c => { c with causePresent := true } else s.recordCut cause

/-- A cause of Table 10.8 that the monitor has met cuts the beam. -/
def Block.cutMet (s : Block) (cause : Nat) : Block :=
  if natBit s.sc.cutDue cause then (s.modSc fun c => { c with cutDue := c.cutDue - 2 ^ cause }).beamCut cause else s

/-- BEAM_CUT (R350): the monitor has met a cause of Table 10.8 on the samples and cuts the beam within 500 ns; a cause that no
command cuts in that time cuts at the next sample. -/
def execBeamCut (cause : Nat) (s : State) : Res := s.does fun s => s.cutMet cause

/-- The causes met that have not cut yet. -/
def Block.cutsMet (s : Block) : Block := [1, 2, 3, 5].foldl Block.cutMet s

/-- A loss of lock with its cause (R325); its cut is recorded also where the beam is cut already. -/
def Block.lockLoss (s : Block) (cause : Nat) : Block :=
  let s := (s.modSc fun c => { c with phaseValid := false, lockLostAt := s.now, okRun := 0, okCross := 0 }).hsfGoto 6
  let s := (s.bump R.HSF_LOCK_LOSS).faultEv 0x12 0x0C2 1 [w32 cause, s.tm.fsn] .auto (pageInst 0x12)
  s.recordCut 4

/-- LOCK_LOSS (R325): a phase error beyond 4 TOL for 16 samples, a crossing beyond 8 ANGLE_TOL, or a cut of cause AMP_LOW. -/
def execLockLoss (cause : Nat) (s : State) : Res :=
  s.does fun s =>
    if s.sc.st = 5 ∧ ((cause = 0 ∧ 16 ≤ s.sc.badRun) ∨ (cause = 1 ∧ s.afld R.HSF_LOCK_CFG 8 8 * 8 < s.sc.angleErr.natAbs) ∨
      (cause = 2 ∧ s.sc.cut = true ∧ s.sc.cutCause = 1)) then s.lockLoss cause else s

/-- RELOCK_TIMEOUT (R325): start-up again, and the fault becomes C2. -/
def execRelockTimeout (s : State) : Res :=
  s.does fun s =>
    if s.sc.st = 6 ∧ s.sc.lockLostAt + s.afld R.HSF_RELOCK 0 16 * 1000000 ≤ s.now then
    let d := match s.fl.recs.find? fun e => e.2.isOpen && e.2.page == 0x12 && e.2.code == 0x0C2 with
      | some e => e.2.detail
      | none => 0
    ((s.raise 0x12 0x0C2 2 d .auto).modSc fun c => { c with attempts := 0 }).sweep
    else s

/-- Angle time at a local instant (R319). -/
def ScanState.angleAtTime (c : ScanState) (t : Nat) : Nat :=
  (((c.angle : Int) + c.pinc * ((t : Int) - c.angleAt) / 65536) % 4294967296).toNat

/-- HS_POS_X samples in a period of the fast axis, at 10 MS/s (Table 10.1). -/
def ScanState.period (c : ScanState) : Nat := max 1 (min 600 ((10000000000 + c.freq / 2) / max 1 c.freq))

/-- The samples of the last period up to and with the i-th newest: their sum and their number (R318). -/
def ScanState.lastPeriod (c : ScanState) (i : Nat) : Int × Nat :=
  let l := (c.posX.drop i).take c.period
  ((l.sum : Int), l.length)

/-- The amplitude estimate of R318 at the newest sample that has both neighbours, in sensor LSB to nearest: x in 2^-16 LSB, and the
central difference over omega = 2 pi f, with f in mHz and the samples 100 ns apart. -/
def ScanState.ampEstimate (c : ScanState) : Option Nat :=
  match c.posX with
  | x0 :: x1 :: x2 :: _ =>
    let m := c.lastPeriod 1
    let x := rdiv (((x1 : Int) * m.2 - m.1) * 65536) (max 1 m.2)
    let v := rdiv (((x0 : Int) - x2) * 65536 * 5000000000 * 1000000000) (2 * 3141592653 * max 1 c.freq)
    some ((2 * (x * x + v * v).toNat.sqrt + 65536) / 131072)
  | _ => none

/-- The crossing error of R319 in ns, of two neighbouring HS_POS_X samples, the later one now: none where x does not cross zero
between them.  The crossing is interpolated to 1 ns and moved earlier by SENSE_DELAY; angle time there is held against
PHASE_TRIM, or 2^31 + PHASE_TRIM where x falls. -/
def Block.crossErr (s : Block) (a b : Nat) : Option Int :=
  let c := s.sc
  let m : Int × Nat := if c.posX.isEmpty then ((a : Int) + b, 2) else c.lastPeriod 0
  let xa : Int := a * m.2 - m.1
  let xb : Int := b * m.2 - m.1
  let rise := decide (xa < 0) && decide (0 ≤ xb)
  if rise || decide (0 ≤ xa) && decide (xb < 0) then
    let t : Int := (s.now : Int) - 100 + rdiv (100 * xa.natAbs) (xb - xa).natAbs - s.afld R.HSF_SENSE_DELAY 0 12
    let at_ : Int := c.angle + c.pinc * (t - c.angleAt) / 65536
    let want : Int := (s.act R.HSF_PHASE_TRIM).toNat + (if rise then 0 else 2147483648)
    some (rdiv (sgn 32 ((at_ - want) % 4294967296).toNat * 65536) (max 1 c.pinc))
  else none

/-- ZERO_CROSSING (R319): the two HS_POS_X samples around a crossing give its error. -/
def Block.crossing (s : Block) (a b : Nat) : Block :=
  match s.crossErr a b with
  | none => s
  | some err =>
    let tol := s.afld R.HSF_LOCK_CFG 8 8
    let s := s.modSc fun c =>
      { c with angle := c.angleAtTime s.now, angleAt := s.now, angleErr := err,
               okCross := if err.natAbs ≤ tol then c.okCross + 1 else 0 }
    if s.sc.st = 5 then s.bump R.HSF_LINES else s

def execZeroCrossing (before after : Nat) (s : State) : Res := s.does fun s => s.crossing before after

/-! ## Highline (R336 to R346) -/

/-- Highline's limits, in sixteenths. -/
def hssLimits (v : Nat → Word) : Limits := { j := bits (v R.HSS_JMAX) 0 16, a := bits (v R.HSS_AMAX) 0 16, v := bits (v R.HSS_VMAX) 0 16 }

/-- A Q16.16 position in the motion's positions. -/
def hssPos (q : Nat) : Int := (q : Int) * 2 ^ 80

/-- The position of a row (R336). -/
def Block.rowPos (s : Block) (r : Nat) : Nat := s.sc.rowmap.getD r 0

/-- Is Highline to be parked (R346, and R411 for its own record)? -/
def Block.hssParked (s : Block) : Bool :=
  s.pw.state == .ready || s.pw.state == .safe || !s.abit R.HSS_CFG 1 || s.tm.dark != [] || (s.loopRec 51).bad

/-- The rows of a set's list in the visiting order of a frame (R341). -/
def rowOrder (rows : List Nat) (down : Bool) : List Nat := if down then rows.reverse else rows

/-- The row list of the highlight set that shows (R332, R341). -/
def Block.hlRows (s : Block) : List Nat :=
  match leadPort s.act with
  | none => []
  | some p => match (s.port p).showing with
    | none => []
    | some c => c.frame.rowPlan.rows

/-- Where Highline wants to be: parked; at the row in hand; at the first row of the next frame from its preload start on
(R343); else where it holds. -/
def Block.hssWant (s : Block) : Int :=
  if s.hssParked then hssPos (s.afld R.HSS_PARK_POS 0 16 * 65536)
  else match s.sc.rows with
    | r :: _ => hssPos (s.rowPos r)
    | [] =>
      if (List.range 4).any fun p => (s.port p).preload then
        match rowOrder s.hlRows (!s.sc.dir) with
        | r :: _ => hssPos (s.rowPos r)
        | [] => s.sc.want
      else s.sc.want

/-- Angle time as nanoseconds, rounded up. -/
def ScanState.angleNs (c : ScanState) (d : Nat) : Nat := cdiv (d * 65536) (max 1 c.pinc)

/-- The ends of the phase table's span, and BIDIR_TRIM (R327, R328). -/
def Block.ptabSpan (s : Block) : Int × Int × Int :=
  ((s.sc.ptab.getD 0 (0, 0)).1, (s.sc.ptab.getD (s.sc.ptab.length - 1) (0, 0)).1, sgn 32 (s.act R.HSB_BIDIR_TRIM).toNat)

/-- The active window of the first line, of either direction, that starts at or after a local instant (R320, R328). -/
def Block.lineFrom (s : Block) (t : Nat) : Nat × Nat :=
  let (p0, p1, trim) := s.ptabSpan
  let a : Int := s.sc.angleAtTime t
  let b := t + s.sc.angleNs (min ((p0 - a) % 4294967296).toNat ((2147483648 - p1 + trim - a) % 4294967296).toNat)
  (b, b + s.sc.angleNs (p1 - p0).toNat)

/-- The active window that a local instant lies in, where it lies in one. -/
def Block.lineNow (s : Block) (t : Nat) : Option (Nat × Nat) :=
  let (p0, p1, trim) := s.ptabSpan
  let a : Int := s.sc.angleAtTime t
  let n := (p1 - p0).toNat
  let f := ((a - p0) % 4294967296).toNat
  let r := ((a - (2147483648 - p1 + trim)) % 4294967296).toNat
  let win (d : Nat) := (t - d * 65536 / max 1 s.sc.pinc, t + s.sc.angleNs (n - d))
  if f < n then some (win f) else if r < n then some (win r) else none

/-- The local instant at which the drawing window ends (R341). -/
def Block.windowEnds (s : Block) : Nat := s.now + (s.nextDark - s.tm.ft)

/-- Where the set point will rest for the target in force, and from when on: after a stop, the profile that follows it (R340). -/
def Block.hssArrival (s : Block) : Int × Nat :=
  let m := s.sc.motion
  if s.sc.hst = 4 then
    let n := Motion.move 16 (hssLimits s.act) (m.ends 16 1000) m.target s.sc.want
    (n.target, n.ends 16 1000)
  else if s.sc.hst = 3 then (m.target, m.ends 16 1000)
  else (m.target, max s.now s.sc.lineAt)

/-- The rows that Highline expects to draw in a window from a position and an instant on, those it expects to drop, and the end of the last
drawn (R341, R345). -/
def Block.planRows (s : Block) (fb ends last : Nat) : Int → Nat → List Nat → Nat × Nat × Nat
  | _, _, [] => (0, 0, last)
  | pos, t, r :: l =>
    let m := Motion.move 16 (hssLimits s.act) t pos (hssPos (s.rowPos r))
    let (_, e) := s.lineFrom (max fb (m.ends 16 1000))
    if ends < e then (0, l.length + 1, last)
    else
      let (n, d, z) := s.planRows fb ends e m.target e l
      (n + 1, d, z)

/-- What the plan is made for (R345): the rows to draw, the FB and the end of the drawing window they belong to, and the end of the last row
drawn, from that FB.  With no row left, from the preload start on, it is the next frame's (R343). -/
def Block.planFor (s : Block) : List Nat × Nat × Nat × Nat :=
  if s.sc.rows.isEmpty && (List.range 4).any fun p => (s.port p).preload then
    let fb := s.now + s.localFor (s.nextFb - s.tm.ft)
    (rowOrder s.hlRows (!s.sc.dir), fb, fb + (s.fbAt (s.tm.nextK + 1) - s.nextFb - darkNs s.act), 0)
  else (s.sc.rows, s.tm.fbNow, s.windowEnds, s.sc.drawnEnd)

/-- The plan at a target change or a redraw (R345), the end measured from the frame's FB. -/
def Block.replan (s : Block) : Block :=
  let (pos, t) := s.hssArrival
  let (rows, fb, ends, last) := s.planFor
  let (n, d, e) := s.planRows fb ends (fb + last) pos t rows
  s.modSc fun c => { c with eta := t - s.now, planDrawn := n, planDropped := d, planEnd := e - fb }

/-- The axis rests at the row in hand from an instant on; the row is drawn on the first line that starts then or later (R341). -/
def Block.beginRow (s : Block) (t : Nat) : Block := s.modSc fun c => { c with hst := 5, line := true, redo := false, lineAt := t }

/-- Highline checks its target (R340): a profile from rest, or a stop; where it already rests at a row of the frame, the row is
drawn. -/
def Block.retarget (s : Block) : Block :=
  let want := s.hssWant
  if !s.abit R.HSS_CFG 0 || !s.pw.state.running then s
  else if s.sc.want = want && s.sc.hst != 0 then
    if s.sc.hst = 2 && !s.sc.rows.isEmpty && !s.hssParked then (s.beginRow s.now).replan else s
  else
    let ended := (s.sc.motion.at 16 1000 s.now).2
    let s := s.modSc fun c => { c with want := want, line := false }
    (if ended && s.sc.hst != 4 then
      s.modSc fun c => { c with motion := Motion.move 16 (hssLimits s.act) s.now c.motion.target want, hst := 3 }
    else
      let s := if s.sc.hst = 4 then s else
        s.modSc fun c => { c with motion := c.motion.stop 16 1000 (hssLimits s.act) s.now, hst := 4 }
      (s.bump R.HSS_SETPOINT_RATE).postTally 0x0CA (pageInst 0x13)).replan

/-- HIGHLINE_TARGET_CHANGE (R340). -/
def execHighlineTargetChange (s : State) : Res := s.does fun s => s.retarget

/-- HIGHLINE_ARRIVAL (R340, R341): a stop ends and the profile to the target then in force starts; a profile ends at its row,
which is drawn on the next suitable line, or where Highline parks or holds. -/
def Block.arrive (s : Block) : Block :=
  if s.sc.hst = 3 ∨ s.sc.hst = 4 then
    let t := s.sc.motion.ends 16 1000
    let s := s.advance (t - s.now)
    if s.sc.hst = 4 then
      s.modSc fun c => { c with motion := Motion.move 16 (hssLimits s.act) t c.motion.target c.want, hst := 3 }
    else
      let s := s.modSc fun c => { c with motion := { Motion.rest c.motion.target with start := t }, line := false }
      if s.hssParked then s.modSc fun c => { c with hst := 1 }
      else if s.sc.rows.isEmpty then s.modSc fun c => { c with hst := 2 }
      else s.beginRow t
  else s

def execHighlineArrival (s : State) : Res := s.does fun s => s.arrive

/-- The row in hand is done with; Highline moves to the next row of the list (R341, R343). -/
def Block.nextRow (s : Block) : Block :=
  (s.modSc fun c => { c with rows := c.rows.tail, line := false, redo := false, hst := 2 }).retarget

/-- ROW_DRAWN (R341): the line of the row in hand ends.  It is the first one that starts once the axis is there; one that does not lie
within the drawing window draws nothing. -/
def Block.rowDrawn (s : Block) : Block :=
  let (_, e) := s.lineFrom s.sc.lineAt
  if s.sc.hst ≠ 5 || !s.sc.line || decide (s.windowEnds < e) then s
  else
    let s := ((s.toLocal e).beamOff.bump R.HSS_ROWS_DRAWN).postTally 0x0CC (pageInst 0x13)
    (s.modSc fun c => { c with drawnEnd := e - s.tm.fbNow }).nextRow

def execRowDrawn (s : State) : Res := s.does Block.rowDrawn

/-- ROW_TOLERANCE_EXIT (R344): the line is blanked; the row is drawn again once, then dropped. -/
def execRowToleranceExit (s : State) : Res :=
  s.does fun s =>
    if s.sc.hst = 5 ∧ s.sc.line = true then
    if s.sc.redo then ((s.beamOff.bump R.HSS_ROW_SETTLE).postTally 0x0C9 (pageInst 0x13)).nextRow
    else (s.beamOff.modSc fun c => { c with redo := true, lineAt := s.now }).replan
    else s

/-- DRAWING_WINDOW_END (R342): the rows not yet drawn are dropped. -/
def Block.windowEnd (s : Block) : Block :=
  let n := s.sc.rows.length
  let s := (List.range n).foldl (fun s _ => s.postTally 0x0C8 (pageInst 0x13)) (s.bump R.HSS_ROW_UNREACHED n)
  s.beamOff.modSc fun c => { c with rows := [], line := false, redo := false, hst := if c.hst = 5 then 2 else c.hst, windowEnd := true }

def execDrawingWindowEnd (s : State) : Res :=
  s.does fun s => if s.sc.windowEnd then s else (s.advanceTo s.nextDark).windowEnd.retarget

/-- The frame's rows at an FB at which a highlight set is shown (R341), and where the axis goes.  DIR toggles at each such FB; the beam is
blanked in a frame that a port aborted before it was lit (R352). -/
def Block.rowsFb (s : Block) (shown : Bool) : Block :=
  let s := if s.sc.windowEnd then s else s.windowEnd
  let s := s.modSc fun c =>
    { c with windowEnd := false, blankFrame := c.blankNext, blankNext := false, drawnEnd := 0, dir := if shown then !c.dir else c.dir }
  if shown && s.abit R.HSS_CFG 0 && !s.hssParked then
    let set := match leadPort s.act with | some p => ((s.port p).setIn 3).getD 3 | none => 3
    (s.modSc fun c => { c with list := s.hlRows, set := set, rows := rowOrder s.hlRows c.dir }).retarget.replan
  else s.retarget

/-! ## The beam sample (R327 to R330, R347 to R349) -/

/-- The pixel whose span holds an angle time, on a forward or a reverse line (R320, R328). -/
def Block.pixelAt (s : Block) (a : Nat) : Option Nat :=
  let t := s.sc.ptab
  let n := t.length - 1
  let ph (i : Nat) : Int := (t.getD i (0, 0)).1
  let fwd : Int := sgn 32 a
  let rev : Int := 2147483648 - ((a : Int) - sgn 32 (s.act R.HSB_BIDIR_TRIM).toNat) % 4294967296
  if -1073741824 ≤ fwd ∧ fwd < 1073741824 then (List.range n).find? fun i => decide (ph i ≤ fwd) && decide (fwd < ph (i + 1))
  else (List.range n).find? fun i => decide (ph i < rev) && decide (rev ≤ ph (i + 1))

/-- ROW_MAX, RL and SB of Table 10.5. -/
def hlRowMax (v : Nat → Word) : Nat := bits (v R.HSB_SPLIT_LIMIT) 0 11
def hlGridW (v : Nat → Word) : Nat := max 1 (bits (v R.HSB_HL_GRID) 0 12)
def hlGridH (v : Nat → Word) : Nat := max 1 (bits (v R.HSB_HL_GRID) 16 12)
def hlRL (v : Nat → Word) : Nat := cdiv (hlRowMax v * 8) 4096 * 4096
def hlSB (v : Nat → Word) : Nat := cdiv (hlRL v + hlRowMax v * hlGridW v * 8) 2097152 * 2097152

/-- LB_BASE. -/
def lbBase (v : Nat → Word) : Nat := bits (v R.HSB_LB_BASE_HI) 0 16 * 0x100000000 + bits (v R.HSB_LB_BASE_LO) 21 11 * 2097152

/-- A number in device virtual memory, 0 where it is not mapped. -/
def Block.virtNat (s : Block) (va n : Nat) : Nat :=
  leNat ((List.range n).map fun i => match s.walk (va + i) with
    | .ok l =>
      let pa := l.pa + (va + i) % 2 ^ l.log
      if s.dc.hlZero.contains (pa / 64) then 0 else s.memB pa
    | .error _ => 0)

/-- The highlight set of a sealed frame is written to the line buffers (R251, R331). -/
def Block.writeHl (s : Block) (f : PipeFrame) (set : Nat) : Block :=
  let ps := f.lbPages
  let b := set * hlSB f.act
  let w := hlGridW f.act
  let rows := f.rowPlan.rows
  let s := (rows.mapIdx fun j r => (j, r)).foldl (fun s e =>
    let lit := (List.range w).filter fun i => f.cell i e.2 != [0, 0, 0]
    s.setCap ps (b + 8 * e.1) (leBytes 2 e.2 ++ leBytes 2 (lit.headD 0) ++ leBytes 2 (lit.getLastD 0) ++ [0, 0])) s
  (rows.mapIdx fun j r => (j, r)).foldl (fun s e =>
    s.setCap ps (b + hlRL f.act + e.1 * w * 8) ((List.range w).flatMap fun i =>
      ((List.range 3).flatMap fun q => leBytes 2 (f.hlCode rows q i e.2).1) ++ [0, 0])) s

/-- The DAC code of a colour for an amplitude in 65,536ths (R329): its P-I points, strictly rising in amplitude. -/
def Block.beamPi (s : Block) (q a : Nat) : Nat :=
  let pt (i : Nat) : Nat × Nat := let w := s.act (win 0x14 (q * 64 + i)); (bits w 0 16 * 2, bits w 16 12)
  let n := 1 + ((List.range 63).takeWhile fun i => decide ((pt i).1 < (pt (i + 1)).1)).length
  if a < (pt 0).1 then 0
  else match (List.range n).find? fun i => decide (a < (pt i).1) with
    | none => (pt (n - 1)).2
    | some i =>
      let p := pt (i - 1)
      let r := pt i
      (p.2 + rdiv (((r.2 : Int) - p.2) * (a - p.1 : Nat)) (r.1 - p.1)).toNat

/-- A zone's sum. -/
def Block.zoneSum (s : Block) (z : Nat) : ZoneSum := (aget? s.sc.zones z).getD { buckets := [], blanked := false }

/-- A zone's limit in 2^-15 full-scale ns, where it has one (R349). -/
def Block.zoneLimit (s : Block) (z : Nat) : Option Nat :=
  if natBit (zoneFlags s.pp.zone.active z) 1 && s.abit R.HSB_BEAM_CFG 2 then some (tableNat s.pp.zone.active (16 * z) 4 * 1000 * 32768) else none

/-- A zone whose last 16 buckets have reached its limit is blanked, and counted (R349). -/
def Block.zoneCheck (s : Block) (z : Nat) : Block :=
  let q := s.zoneSum z
  if (match s.zoneLimit z with | some l => decide (l ≤ q.buckets.sum) | none => false) && !q.blanked then
    ((s.modSc fun c => { c with zones := aput c.zones z { q with blanked := true } }).bump R.HSB_ZONE_LIMITS).postTally 0x0CB (pageInst 0x14)
  else s

/-- Energy is added to a zone's current bucket (R349). -/
def Block.zoneAdd (s : Block) (z e : Nat) : Block :=
  if e = 0 then s
  else
    let q := s.zoneSum z
    let b := match q.buckets with | [] => [e] | x :: l => min (2 ^ 48 - 1) (x + e) :: l
    (s.modSc fun c => { c with zones := aput c.zones z { q with buckets := b } }).zoneCheck z

/-- ZONE_BUCKET_BOUNDARY (R349): a multiple of 15.625 ms of FT. -/
def Block.bucketBoundary (s : Block) : Block :=
  let s := s.advanceTo ((s.tm.ft / 15625000 + 1) * 15625000)
  s.modSc fun c => { c with zones := c.zones.map fun e =>
    let b := (0 :: e.2.buckets).take 16
    (e.1, { buckets := b, blanked := e.2.blanked && (match s.zoneLimit e.1 with | some l => decide (l ≤ b.sum) | none => false) }) }

def execZoneBucketBoundary (s : State) : Res := s.does fun s => s.bucketBoundary

/-- Is the beam permitted: LG_HL lit, enabled, LOCKED, neither cut, latched nor blanked (R326, R329, R330, R350, R352)? -/
def Block.beamAllowed (s : Block) : Bool :=
  (s.grp 4).lit && s.abit R.HSB_BEAM_CFG 0 && s.sc.st == 5 && s.sc.phaseValid && !s.sc.cut && !s.sc.latched && !s.sc.blankFrame &&
    s.sc.cutDue == 0 && !s.sc.trim && !s.pathCut && !s.inDarkNow &&
    !(s.abit R.HSB_BEAM_CFG 1 && (List.range 4).any fun g => (s.grp g).lit && (s.port g).phase == 2 &&
      (match s.slotNow g with | some x => x.measure | none => false))

/-- Does a local instant lie in the line the row in hand is drawn on: one that starts once the axis is there, and ends within the
drawing window (R341)? -/
def Block.onLine (s : Block) (t : Nat) : Bool :=
  match s.lineNow t with
  | some (b, e) => s.sc.hst == 5 && s.sc.line && decide (s.sc.lineAt ≤ b) && decide (e ≤ s.windowEnds)
  | none => false

/-- The beam is on in a line: the monitor counts the consecutive lines at positions within HSS_ROW_TOL of one another (STALL, Table 10.8).
Lines are consecutive where their windows begin less than one and a half lines apart. -/
def Block.litIn (s : Block) (w : Nat × Nat) : Block :=
  let c := s.sc
  if c.litRun ≠ 0 && decide (w.1 < c.litLine.2) then s
  else
    let lo := min c.litPos.1 c.posMeas
    let hi := max c.litPos.2 c.posMeas
    let follows := decide (c.litRun ≠ 0) && decide (2 * (w.1 - c.litLine.1) < 3 * c.angleNs 2147483648) &&
      decide ((hi - lo) * 16 ≤ s.afld R.HSS_ROW_TOL 0 16)
    let run := if follows then c.litRun + 1 else 1
    s.modSc fun c =>
      { c with litLine := w, litRun := run, litPos := if follows then (lo, hi) else (c.posMeas, c.posMeas),
               cutDue := if run = s.afld R.HSS_STALL_CFG 16 4 + 1 then c.cutDue ||| 8 else c.cutDue }

/-- DAC_SAMPLE (R329, R344, R348, R349). -/
def Block.dacSample (s : Block) : Block :=
  let c := s.sc
  let tol := s.afld R.HSS_ROW_TOL 0 16
  let row := c.rows.headD 0
  let off := ((c.posMeas : Int) * 65536 - s.rowPos row).natAbs
  let t := s.now + s.afld R.HSB_DAC_LEAD 0 10
  match (if s.beamAllowed && s.onLine t && decide (off * 16 ≤ tol * 65536) then s.pixelAt (c.angleAtTime t) else none) with
  | none => s.beamOff
  | some i =>
    let j := (c.list.findIdx? (· == row)).getD 0
    let cell := c.set * hlSB s.act + hlRL s.act + (j * hlGridW s.act + i) * 8
    let gain := (c.ptab.getD i (0, 0)).2
    let a := (List.range 3).map fun q => s.capNat c.lbPages (cell + 2 * q) 2 * gain * (s.grp 4).level / 2 ^ 30
    let z := 64 * (64 * row / hlGridH s.act) + 64 * i / hlGridW s.act
    let s := s.zoneCheck z
    let blank := natBit (zoneFlags s.pp.zone.active z) 0 || (s.zoneSum z).blanked
    if blank then { s.modSc (fun c => { c with dac := [0, 0, 0] }) with pins := { s.pins with hlEn := 0 } }
    else
      let s : Block := { s.modSc (fun c => { c with dac := a.mapIdx fun q x => s.beamPi q x,
                                                    beamOn := true }) with pins := { s.pins with hlEn := 7 } }
      let e := (a.mapIdx fun q x => s.afld R.HSB_ZONE_W (8 * q) 8 * x).sum / 128
      let s := match s.lineNow t with | some w => s.litIn w | none => s
      s.zoneAdd z e

def execDacSample (s : State) : Res := s.does fun s => s.dacSample

/-- Does the cause of the last cut still hold: Â too low, or a sensor at an end of its range? -/
def ScanState.causeHolds (c : ScanState) : Bool :=
  (c.cutCause == 1 && decide (20 < c.ampLow)) || (c.cutCause == 5 && (decide (2 ≤ c.endX) || decide (2 ≤ c.endY)))

/-- Drawing resumes at an FB (R351). -/
def Block.beamResume (s : Block) : Block :=
  if !s.sc.cut || s.sc.latched then s
  else if s.sc.causePresent || s.sc.causeHolds then s.modSc fun c => { c with causePresent := false }
  else if s.sc.st = 5 && (s.grp 4).lit then
    (s.modSc fun c => { c with cut := false }).post 0x14 0x0C4 [0, s.tm.fsn]
  else s

end Sys2Proof.Machine
end

