-- ==== Sys2Proof/Machine/Coppice.lean ====
section
/-!
DEFINITION. The Coppice engine (R393 to R415): the law, the candidates, tracking and hand-over, and the loops of the wheel slots.
Signals are S1.30; S1.15 bounds are 16-bit numbers with 15 fraction bits (log entry 30).
-/
namespace Sys2Proof.Machine

/-- 1.0. -/
def q30 : Int := 1073741824

/-- An active word of a loop record (Table 12.3). -/
def Block.recWord (s : Block) (r w : Nat) : Word := s.act (win 0x19 (r * 8 + w))

/-- What a law takes beside its record: r, y, x_ff, a further feed-forward, and the signal that replaces u in the
back-calculation (R406). -/
structure LawIn where
  r : Int
  y : Int
  x : Int
  extra : Int
  sel : Option Int
  deriving DecidableEq, Repr

/-- R398: the error, u before its bounds, and the record after a sample. -/
def lawStep (w : Nat → Word) (inp : LawIn) (l : LoopRec) : LoopRec × Bool :=
  let k (n : Nat) : Int := sgn 32 (w n).toNat
  let e := satQ (if bit (w 3) 16 then inp.y - inp.r else inp.r - inp.y)
  let raw := satQ (prodQ (k 2) inp.x 24 + prodQ (k 0) e 24 + l.i + inp.extra)
  let u := clampI (sgn 16 (bits (w 4) 0 16) * 32768) (sgn 16 (bits (w 4) 16 16) * 32768) raw
  let ds : Int := (bits (w 5) 16 16 * 16384 : Nat)
  let u := if ds = 0 then u else clampI (l.u - ds) (l.u + ds) u
  let back := inp.sel.getD u
  let i := clampI (-(2 ^ 47)) (2 ^ 47 - 1) (l.i + prodQ (k 1) e 24 + prodQ ((bits (w 3) 0 16 : Nat) : Int) (satQ (back - raw)) 15)
  ({ l with i := i, u := u, err := e, holding := false }, decide (u ≠ raw))

/-- The shunt law in OPEN mode (R398). -/
def openStep (w : Nat → Word) (inp : LawIn) (l : LoopRec) : LoopRec × Bool :=
  let raw := satQ (prodQ (sgn 32 (w 2).toNat) inp.x 24)
  let u := clampI (sgn 16 (bits (w 4) 0 16) * 32768) (sgn 16 (bits (w 4) 16 16) * 32768) raw
  let e := satQ (if bit (w 3) 16 then inp.y - inp.r else inp.r - inp.y)
  ({ l with u := u, err := e, holding := false }, decide (u ≠ raw))

/-- A loop record changes. -/
def Block.modRec (s : Block) (r : Nat) (f : LoopRec → LoopRec) : Block := { s with cp := { s.cp with recs := modAt s.cp.recs r f } }

/-- Has either record of a record's loop posted SAT_PERSIST in this frame (R410)? -/
def Block.satTold (s : Block) (r : Nat) : Bool := (s.loopRec r).satPosted || (s.loopRec (if r < 64 then r + 64 else r - 64)).satPosted

/-- A sample of a record: its law, and the count of saturation (R410). -/
def Block.runLaw (s : Block) (slot r : Nat) (law : LoopRec → LoopRec × Bool) : Block :=
  let (l, sat) := law (s.loopRec r)
  let n := if sat then satN 16 (l.sat + 1) else 0
  let s := s.modRec r fun _ => { l with sat := n }
  let s := if sat then s.postTally 0x124 slot else s
  if sat && s.afld R.CPE_SAT_LIMIT 0 16 ≤ n && !s.satTold r then
    let hi := decide (sgn 16 (bits (s.recWord r 4) 16 16) * 32768 ≤ l.u)
    (s.modRec r fun l => { l with satPosted := true }).faultEv 0x19 0x122 1 [pk slot r hi.toNat 0, s.tm.fsn] .fb slot
  else s

/-- A record holds at a sample (R400). -/
def Block.holdRec (s : Block) (r : Nat) : Block := s.modRec r fun l => { l with holding := true }

/-- A measurement at either end of its range is counted (R400). -/
def Block.measInvalid (s : Block) (r : Nat) : Block := (s.bump R.CPE_MEAS_INVALID).holdRec r

/-! ## The candidates (R401 to R405) -/

/-- The optical loop's gain for a string, in 30 fraction bits: 1.0 outside OPTICAL mode. -/
def Block.gainOf (s : Block) (n : Nat) : Nat :=
  if (s.member n).mode = 2 then ((s.loopRec (52 + (memCfg s.act n).pd)).u).toNat else 2 ^ 30

/-- A x D x g x (1 + h), in 76 fraction bits. -/
def Block.modeNum (s : Block) (n : Nat) (h : Int) : Nat :=
  let g := (memCfg s.act n).group
  s.ampNow g * s.levelNow g * s.gainOf n * (65536 + h).toNat

/-- The model group of a member (Table 14.6), 15 for none. -/
def Block.modelGroup (s : Block) (m : Nat) : Nat :=
  if m < 64 then s.afld (R.THERM_STR_MG (m / 8)) (4 * (m % 8)) 4
  else bits (s.act (win 0x1C (0x400 + (m - 64) / 8))) 0 4

/-- The ceiling a member's model group sends it, as a code (R401, R403), 0 once none has arrived for 5 ms; no group, no ceiling. -/
def Block.thermTarget (s : Block) (m : Nat) : Nat :=
  match s.th.mg[s.modelGroup m]? with
  | some g => if g.lost then 0 else s.piCode m g.o
  | none => 0x8000

/-- A value moved towards another by at most a step. -/
def moveTo (x t step : Nat) : Nat := if x < t then min t (x + step) else max t (x - step)

/-- The supply domain of a string. -/
def Block.supplyDomain (s : Block) (n : Nat) : Nat := s.afld (R.CPE_SUPPLY_MAP (n / 16)) (2 * (n % 16)) 2

/-- The ceiling of a string's supply domain (R401). -/
def Block.supplyCand (s : Block) (n : Nat) : Nat :=
  let d := s.supplyDomain n
  if s.abit R.CPE_AUX_EN (4 + d) then ((s.loopRec (56 + d)).u / 32768).toNat else 0x8000

/-- The EYE candidate of a member (R404). -/
def Block.eyeCand (s : Block) (m : Nat) : Nat := s.piCode m (s.afld (R.CPE_EYE_CAP (memCfg s.act m).group) 0 16)

/-- The smallest candidate; ties go to the first listed (R401). -/
def smallest : List (Nat × Nat) → Nat × Nat
  | [] => (0, 0x8000)
  | c :: l => l.foldl (fun a b => if b.2 < a.2 then b else a) c

/-- The MODE candidate of a string; a string whose optical loop has an uncorrectable record keeps its last reference (R411). -/
def Block.modeCand (s : Block) (n modeNum : Nat) : Nat :=
  if (s.member n).mode = 2 ∧ (s.loopRec (52 + (memCfg s.act n).pd)).bad = true then (s.member n).ref else piConv (s.pi n) modeNum

/-- The five candidates of a string: the winner's code and the reference. -/
def Block.minSelect (s : Block) (n modeNum therm : Nat) : Nat × Nat :=
  smallest [(4, if s.abortOf n then 0 else 0x8000), (1, s.eyeCand n), (3, s.supplyCand n), (2, therm), (0, s.modeCand n modeNum)]

/-- Tally of the limits that win a sample (R401). -/
def Block.tallyWin (s : Block) (win inst : Nat) : Block :=
  match win with
  | 1 => s.postTally 0x125 inst
  | 2 => s.postTally 0x126 inst
  | 3 => s.postTally 0x127 inst
  | 4 => s.postTally 0x128 inst
  | _ => s

/-! ## A string's slot -/

/-- OVER_VOLTAGE (R381): LSn_VS at or above VOVP for two consecutive samples, of a lit string or a spare. -/
def Block.overVoltage (s : Block) (n : Nat) : Block :=
  let s := s.modMember n fun k => { k with highV := if s.afld (R.LS_STR_MODEL n) 16 12 ≤ k.volt then k.highV + 1 else 0 }
  if 2 ≤ (s.member n).highV && (memCfg s.act n).en && (s.member n).st != 0 then s.latchMember n 4 else s

/-- The faults a lit string's sample shows (R382). -/
def Block.sampleFaults (s : Block) (n : Nat) : Block :=
  let q := s.member n
  let g := (memCfg s.act n).group
  let released := !s.diverted n
  let late := decide (g = 4) || decide ((s.port g).kerfEnd + 1500 ≤ s.now)
  let lowV := released && decide (2048 ≤ q.cur) &&
    decide (q.volt * 16 < (memCfg s.act n).nl * s.afld (R.LS_STR_LIMIT n) 16 12)
  let low := released && late && decide (4 * q.cur < q.ref)
  let s := s.modMember n fun k =>
    { k with lowV := if lowV then k.lowV + 1 else 0,
             low := if low then k.low + 1 else if released && late then 0 else k.low,
             qualAt := if released && late then s.now else k.qualAt, sampled := k.sampled || (released && late) }
  let q := s.member n
  if 2 ≤ q.low then s.latchMember n 1
  else if 4 ≤ q.lowV then s.latchMember n 2
  else s

/-- The hand-over at a string's first sample in its new mode (R407, R408). -/
def Block.handOver (s : Block) (n : Nat) (inp : LawIn) : Block :=
  let q := s.member n
  let now := s.modeNum n 0
  let h0 : Int := if now = 0 then 0 else rdiv (((q.used : Int) - now) * 65536) now
  let tol := s.afld R.CPE_HANDOVER_STR 0 16
  let big := decide (tol < h0.natAbs)
  let s := s.modMember n fun k => { k with h := if big then h0 else 0, hCount := 0, handover := false }
  let s := if big then s.postTally 0x123 n else s
  s.modRec n fun l =>
    if l.x0 = 1 then
      let w := s.recWord n
      let e := satQ (if bit (w 3) 16 then inp.y - inp.r else inp.r - inp.y)
      { l with x0 := 0, i := l.u - prodQ (sgn 32 (w 2).toNat) inp.x 24 - prodQ (sgn 32 (w 0).toNat) e 24 }
    else l

/-- A change of a string's mode at the hand-over kerf (R363, R407): the optical loop takes the gain in use. -/
def Block.modeKerf (s : Block) (n : Nat) : Block :=
  let c := memCfg s.act n
  let q := s.member n
  if q.mode = c.mode then s
  else
    let g := c.group
    let used := s.modeNum n q.h
    let ad := s.ampNow g * s.levelNow g
    let gain : Int := if ad = 0 then 0 else (piInv (s.pi n) q.ref * 2 ^ 30 / ad : Nat)
    let first := !(List.range n).any fun m =>
      (s.member m).handover && (s.member m).mode == 2 && (memCfg s.act m).mode == 2 && (memCfg s.act m).pd == c.pd
    let s := if c.mode = 2 && first then s.modRec (52 + c.pd) fun l => { l with i := gain, u := gain, x0 := 1 } else s
    let s := if q.mode = 0 then s.modRec n fun l => { l with x0 := 1 } else s
    s.modMember n fun k => { k with mode := c.mode, handover := true, used := if k.used = 0 then used else k.used }

/-- The buck target of a string as a signal (R361, R396): it saturates at the end of S1.30. -/
def Block.buckSignal (s : Block) (n : Nat) : Int := satQ ((s.member n).buck * 32768 : Nat)

/-- The buck law of a string (R398), which runs in every mode and never holds (R400); `y` is the sensed current as a signal. -/
def Block.buckLaw (s : Block) (n : Nat) (y : Int) (v : Nat) : Block :=
  let drive := (s.loopRec n).u
  let aux0 : Int := (bits (s.recWord n 5) 0 16 : Nat)
  let aux : Int := (bits (s.recWord (64 + n) 5) 0 16 : Nat)
  let b := s.buckSignal n
  s.runLaw n (64 + n) (lawStep (s.recWord (64 + n))
    { r := b, y := satQ (y + prodQ aux0 drive 15), x := b, extra := prodQ aux ((v * 262144 : Nat) : Int) 15, sel := none })

/-- The sum of the eight current conversions of a loop sample, 16 bits each (R362). -/
def convSum (y : Nat) : Nat := ((List.range 8).map fun i => y / 65536 ^ i % 65536).sum

/-- The gate of a string's buck at a local instant (R362): k = FSW + 2 cycles in each wheel turn, phase-locked to it and on from
the start of each cycle for the duty of the buck law; off in a COLD or latched string (R364, R381; log entry 250). -/
def Block.gateAt (s : Block) (n t : Nat) : Bool :=
  let k := (memCfg s.act n).fsw + 2
  let pos := (t - s.tm.fbNow) % 1024 * k % 1024
  (s.member n).buck != 0 && decide (((pos * 1048576 : Nat) : Int) < (s.loopRec (64 + n)).u)

/-- A string's slot (R362, R382, R398, R401): the current, the mean of eight conversions, and the voltage measured, the
candidates, the shunt law, the buck law. -/
def Block.stringSample (s : Block) (n ys v : Nat) : Block :=
  let sum := convSum ys
  let y := (sum + 4) / 8
  let sig : Int := satQ (sum * 4096 : Nat)
  let s := (s.modMember n fun q => { q with cur := y, volt := v, pSum := q.pSum + y * v, pCnt := q.pCnt + 1 }).overVoltage n
  if !s.litMember n then
    let therm := moveTo (s.member n).therm (s.thermTarget n) (s.afld R.CPE_THERM_SLEW 0 16)
    let s := s.modMember n fun q => { q with win := 0, ref := 0, therm := therm }
    (s.holdRec n).buckLaw n sig v
  else
    let s := s.sampleFaults n
    let q := s.member n
    let slew := s.afld R.CPE_THERM_SLEW 0 16
    let therm := moveTo q.therm (s.thermTarget n) slew
    let step := s.afld R.CPE_HANDOVER_STR 16 16
    let h : Int := if q.hCount = 0 ∨ q.handover then q.h else if 0 < q.h then max 0 (q.h - step) else min 0 (q.h + step)
    let div := s.diverted n
    let inp0 (r : Nat) : LawIn :=
      { r := satQ (r * 32768 : Nat), y := sig, x := satQ (s.buckSignal n - (r * 32768 : Nat)), extra := 0, sel := none }
    let s := if q.handover && !div then s.handOver n (inp0 (piConv (s.pi n) (s.modeNum n 0))) else s.modMember n fun k => { k with h := h }
    let q := s.member n
    let num := s.modeNum n q.h
    let (win, r) := s.minSelect n num therm
    let s := (s.modMember n fun k =>
      { k with win := win, ref := r, therm := therm, used := if num = 0 then k.used else num, hCount := satN 16 (k.hCount + 1) }).tallyWin win n
    let inp := inp0 r
    let ends := decide (sum = 0) || decide (8 * 32766 ≤ sum)
    let s := if div then s.holdRec n
      else if ends then s.measInvalid n
      else if q.mode = 0 then s.runLaw n n (openStep (s.recWord n) inp)
      else s.runLaw n n (lawStep (s.recWord n) inp)
    s.buckLaw n sig v

/-- 1 - e^(-t/T) from a table to 1/1,024, in 1,024ths (R383). -/
def expRise (t tau10 : Nat) : Nat := 1024 - min 1024 ((fpExp (-((t * fpOne / (max 1 tau10 * 10) : Nat) : Int)) * 1024 + fpOne / 2) / fpOne)

/-- The last current conversion of a dwell without samples is judged (R383), against the reference the string has at the dwell's
end. -/
def Block.evidence (s : Block) (e : Nat × Nat × Nat) : Block :=
  let n := e.1
  let q := s.member n
  if decide (48 ≤ n) || q.sampled || !s.litMember n then s
  else
    let ref := (s.minSelect n (s.modeNum n q.h) q.therm).2
    let iexp := ref * expRise e.2.2 (s.afld (R.LS_STR_MODEL n) 0 8) / 1024
    if iexp < 2048 then s
    else if 2 * e.2.1 < iexp then
      let c := satN 4 (q.contra + 1)
      let s := s.modMember n fun q => { q with contra := c }
      if s.afld R.LSG_DIAG_CFG 0 4 ≤ c && !q.suspect then
        (s.modMember n fun q => { q with suspect := true }).post (memPage n) 0x101
          [w32 (n + 65536 * (memCfg s.act n).group), s.tm.fsn]
      else s
    else s.modMember n fun q => { q.qualify s.now with contra := 0 }

/-! ## Optical and supply loops (R399, R406) -/

/-- The strings an optical loop serves. -/
def Block.served (s : Block) (j : Nat) : List Nat :=
  (List.range 48).filter fun n => s.litMember n && (s.member n).mode == 2 && (memCfg s.act n).pd == j

/-- g_sel (R406): the gain that the least-limited string applies. -/
def Block.gSel (s : Block) (j ad : Nat) : Int :=
  (s.served j).foldl (fun m n => max m ((piInv (s.pi n) (s.member n).ref * 2 ^ 30 / max 1 ad : Nat) : Int)) 0

/-- An optical loop's slot: the newest conversion of its photodiode; it holds where that is saturated (R400, R418). -/
def Block.opticalSample (s : Block) (j y : Nat) : Block :=
  let r := 52 + j
  match s.served j with
  | [] => s.holdRec r
  | n :: _ =>
    let g := (memCfg s.act n).group
    let a := s.ampNow g
    let ad := a * s.levelNow g
    let ref := bits (s.recWord r 5) 0 16
    let late := decide (g = 4) || decide ((s.port g).kerfEnd + 1500 ≤ s.now)
    if !s.inDwell g || !late || decide (a < 0x0400) || !s.abit (R.OPT_PD_CFG j) 0 || (s.loopRec r).bad then s.holdRec r
    else if y = 0 ∨ 65535 ≤ y then s.measInvalid r
    else if 0xFF00 ≤ y then s.holdRec r
    else
      let inp : LawIn :=
        { r := q30, y := satQ ((y * 2 ^ 60 / max 1 (ref * ad) : Nat) : Int), x := 0, extra := 0, sel := some (s.gSel j ad) }
      let s := s.modRec r fun l =>
        if l.x0 = 1 then
          let w := s.recWord r
          { l with x0 := 0, i := l.u - prodQ (sgn 32 (w 0).toNat) (satQ (if bit (w 3) 16 then inp.y - inp.r else inp.r - inp.y)) 24 }
        else l
      s.runLaw r r (lawStep (s.recWord r) inp)

/-- A supply loop's slot: the sum of the sensed currents of its domain's enabled strings. -/
def Block.supplySample (s : Block) (d : Nat) : Block :=
  let r := 56 + d
  if (s.loopRec r).bad then s.holdRec r
  else
    let sum := (((List.range 48).filter fun n => (memCfg s.act n).en && s.supplyDomain n == d).map fun n => (s.member n).cur).sum
    let inp : LawIn :=
      { r := (s.afld (R.CPE_SUPPLY_LIM d) 0 21 * 512 : Nat), y := satQ ((sum * 512 : Nat) : Int), x := 0, extra := 0, sel := none }
    s.runLaw r r (lawStep (s.recWord r) inp)

/-! ## The scanner's slots (R317 to R322) -/

/-- The FREQ slot: the measured phase, in S1.30 of a period. -/
def Block.freqSample (s : Block) (y : Int) : Block :=
  let st := s.sc.st
  if !(2 ≤ st ∧ st ≤ 6) || (s.loopRec 48).bad then s.holdRec 48
  else
    let r : Int := (s.afld R.HSF_DRV_PHASE 0 16 * 16384 : Nat)
    let s := s.runLaw 48 48 (lawStep (s.recWord 48) { r := r, y := y, x := r, extra := 0, sel := none })
    let u := (s.loopRec 48).u
    let cand : Int := s.sc.base + u * 4096000 / q30
    let slew := s.afld R.CPE_HANDOVER_HS 16 16
    let tol := s.afld R.CPE_HANDOVER_HS 0 16 * 10
    let first := (s.loopRec 48).x0 == 1
    let h0 : Int := (s.sc.freq : Int) - cand
    let h : Int := if first then (if h0.natAbs ≤ tol then 0 else h0)
      else if 0 < s.cp.h then max 0 (s.cp.h - slew) else min 0 (s.cp.h + slew)
    let s := if first && decide (tol < h0.natAbs) then s.postTally 0x123 48 else s
    let s : Block := { (s.modRec 48 fun l => { l with x0 := 0 }) with
      cp := { (s.modRec 48 fun l => { l with x0 := 0 }).cp with h := h, hCount := if first then 0 else satN 16 (s.cp.hCount + 1) } }
    let s := s.driveMark
    let perr : Int := (r - y) / 16384
    let lock := s.afld R.HSF_LOCK_CFG 0 8
    let ampOk := decide ((((s.sc.amp : Int) - s.afld R.HSF_AMP_SET 0 16).natAbs) * 50 ≤ s.afld R.HSF_AMP_SET 0 16)
    let s := s.modSc fun c =>
      { c with freq := (cand + h).toNat, phaseErr := perr, okRun := if decide (perr.natAbs ≤ lock) && ampOk then c.okRun + 1 else 0,
               badRun := if 4 * lock < perr.natAbs then c.badRun + 1 else 0 }
    if st = 2 && h == 0 then (s.modSc fun c => { c with ampFrom := 0, ampAt := s.now }).hsfGoto 3 else s

/-- The ramping reference of the AMP loop (Table 10.2, R326): from where the ramp began towards AMP_SET. -/
def Block.ampTarget (s : Block) : Nat :=
  moveTo s.sc.ampFrom (s.afld R.HSF_AMP_SET 0 16) (s.afld R.HSF_AMP_RAMP 0 16 * (s.now - s.sc.ampAt) / 1000000)

/-- A monitor's count of consecutive samples; at the sample that meets its condition, its cause is due (R350). -/
def ScanState.met (c : ScanState) (cause count at_ : Nat) : ScanState := if count = at_ then { c with cutDue := c.cutDue ||| 2 ^ cause } else c

/-- Is a sensor code at either end of its range? -/
def atEnd (x : Nat) : Bool := x == 0 || decide (65535 ≤ x)

/-- An HS_POS_X sample: the estimate follows it (R318), and the monitor's counts for AMP_LOW, more than 20 samples below 90 % of the AMP
reference, and for SENSOR. -/
def ScanState.oneX (c : ScanState) (x : Nat) : ScanState :=
  let c := { c with posX := (x :: c.posX).take 601 }
  let c := match c.ampEstimate with | some a => { c with amp := satN 16 a } | none => c
  let c := { c with ampLow := if 10 * c.amp < 9 * c.ampRef then c.ampLow + 1 else 0, endX := if atEnd x then c.endX + 1 else 0 }
  (c.met 1 c.ampLow 21).met 5 c.endX 2

/-- The HS_POS_X samples since the last turn, 16 bits each, the newest lowest: one for each instant of the 100 ns grid of the local
time base. -/
def ScanState.takeX (c : ScanState) (now y : Nat) : ScanState :=
  let n := min 600 (now / 100 - c.posAt / 100)
  { (List.range n).reverse.foldl (fun c i => c.oneX (y / 65536 ^ i % 65536)) c with posAt := now }

/-- The HS_POS_Y samples since the last turn, laid out as those of HS_POS_X, with the monitor's counts for TRACK, more than 20 samples
further from the set point than TOL while an HL_EN is high, and for SENSOR. -/
def Block.takeY (s : Block) (y : Nat) : Block :=
  let n := min 600 (s.now / 100 - s.sc.posYAt / 100)
  let tol := s.afld R.HSS_STALL_CFG 0 16
  s.modSc fun c => { (List.range n).reverse.foldl (fun c i =>
    let p := y / 65536 ^ i % 65536
    let off := ((p : Int) * 65536 - c.motion.setPoint 16 1000 ((s.now / 100 - i) * 100) / 2 ^ 80).natAbs
    let c := { c with trackBad := if decide (tol * 65536 < off * 16) && s.pins.hlEn != 0 then c.trackBad + 1 else 0,
                      endY := if atEnd p then c.endY + 1 else 0 }
    (c.met 2 c.trackBad 21).met 5 c.endY 2) c with posYAt := s.now, posMeas := y % 65536 }

/-- The AMP slot: the amplitude estimate of R318, in sensor LSB, against the ramping reference of Table 10.2. -/
def Block.ampSample (s : Block) (y : Nat) : Block :=
  let st := s.sc.st
  let s := s.modSc fun c => c.takeX s.now y
  if !(3 ≤ st ∧ st ≤ 6) || (s.loopRec 49).bad then s.holdRec 49
  else
    let set := s.afld R.HSF_AMP_SET 0 16
    let ref := s.ampTarget
    let s := s.modSc fun c => { c with ampRef := ref }
    let r : Int := (ref * 16384 : Nat)
    let end_ := match s.sc.posX with | x :: _ => atEnd x | [] => false
    let s := if end_ then s.measInvalid 49
      else s.runLaw 49 49 (lawStep (s.recWord 49) { r := r, y := (s.sc.amp * 16384 : Nat), x := r, extra := 0, sel := none })
    let s := s.modSc fun c => { c with drive := ((s.loopRec 49).u * 65536 / q30).toNat }
    if st = 3 && ref == set then s.hsfGoto 4 else s

/-- The ANGLE slot: the error of the last crossing (R319), 1.0 = 1,024 ns. -/
def Block.angleSample (s : Block) : Block :=
  let y := satQ (s.sc.angleErr * 1048576)
  if !(2 ≤ s.sc.st ∧ s.sc.st ≤ 6) || (s.loopRec 50).bad then s.holdRec 50
  else
    let s := s.runLaw 50 50 (lawStep (s.recWord 50) { r := 0, y := y, x := 0, extra := 0, sel := none })
    let nominal : Int := ((s.sc.freq * 2 ^ 48 / 1000000000000 : Nat) : Int)
    let pinc := nominal + nominal * (s.loopRec 50).u / (256 * q30)
    s.modSc fun c => { c with angle := c.angleAtTime s.now, angleAt := s.now, pinc := pinc.toNat }

/-- The SLOW slot: HS_POS_Y, against Highline's set point. -/
def Block.slowSample (s : Block) (ys : Nat) : Block :=
  let y := ys % 65536
  let set := s.sc.motion.setPoint 16 1000 s.now / 2 ^ 80
  let err := ((y : Int) * 65536 - set).natAbs / 65536
  let s := (s.takeY ys).modSc fun c => { c with trackErr := max c.trackErr (satN 16 err) }
  let s := if (s.loopRec 51).bad then s.holdRec 51
    else if atEnd y then s.measInvalid 51
    else
      let acc := (s.sc.motion.at 16 1000 s.now).1.2.2
      let x := satQ (acc / 2 ^ 40)
      s.runLaw 51 51 (lawStep (s.recWord 51) { r := satQ (set / 4), y := (y * 16384 : Nat), x := x, extra := 0, sel := none })
  s.modSc fun c => { c with slowPrev := c.slowOut, slowOut := (s.loopRec 51).u, slowAt := s.now }

/-- Is the loop of a slot enabled (R394)? -/
def Block.slotEnabled (s : Block) (slot : Nat) : Bool :=
  if slot < 48 then (memCfg s.act slot).en
  else if slot < 51 then s.abit R.HSF_CFG 0
  else if slot = 51 then s.abit R.HSS_CFG 0
  else slot < 60 && s.abit R.CPE_AUX_EN (slot - 52)

/-- LOOP_SAMPLE (R393 to R401): a wheel slot runs its loop on its measurements.  `y` is the eight current conversions, as U1.15
codes of 16 bits each, the newest lowest (R362); the HS_POS_X or HS_POS_Y samples since the last turn, laid out alike; or the
photodiode code; for the FREQ slot it is S1.30; `v` is the string's voltage code.  The scanner's drives follow its slots (R317).
-/
def Block.loopSample (s : Block) (slot y v : Nat) : Block :=
  let t := s.sampleAt slot
  if !s.pw.state.running || s.cp.halted || !s.slotEnabled slot || !s.beforeFb t then s
  else
  let s : Block := { s.toLocal t with cp := { s.cp with sampled := t } }
  let s := s.cutsMet
  if slot < 48 then s.stringSample slot y v
  else if slot = 48 then (s.freqSample (sgn 32 y)).driveHs
  else if slot = 49 then (s.ampSample y).driveHs
  else if slot = 50 then s.angleSample.driveHs
  else if slot = 51 then (s.slowSample y).driveHs
  else if slot < 56 then s.opticalSample (slot - 52) y
  else s.supplySample (slot - 56)

def execLoopSample (slot y v : Nat) (s : State) : Res := s.does fun s => s.loopSample slot y v

/-! ## Scrub and faults (R411 to R413) -/

/-- The records the scrub visits (R412). -/
def scrubRec (n : Nat) : Nat := let k := n % 108; if k < 60 then k else k + 4

/-- An uncorrectable error in a record (R411). -/
def Block.loopFault (s : Block) (r : Nat) : Block :=
  let slot := r % 64
  let s := (s.bump R.CPE_ECC_UNCORR).modRec r fun l => { l with bad := true }
  let s : Block := { s with cp := { s.cp with lastFault := slot } }
  let s := s.faultEv 0x19 0x120 1 [pk slot r 0 0, s.tm.fsn] .fb (pageInst 0x19)
  if 48 ≤ r && r ≤ 50 then (if s.sc.st = 5 then s.lockLoss (if r = 48 then 0 else if r = 49 then 2 else 1) else s)
  else if r = 51 then (s.beamCut 2).retarget
  else s

/-- STATE_SCRUB (R412): four records are read and checked; `errs` says of each whether it is sound (0), corrected (1) or
uncorrectable (2). -/
def Block.stateScrub (s : Block) (errs : List Nat) : Block :=
  let n := s.cp.scrub
  let s := (List.range 4).foldl (fun s i =>
    match errs.getD i 0 with
    | 1 => (s.bump R.CPE_ECC_CORR).raise 0x19 0x120 0 0 .fb
    | 2 => s.loopFault (scrubRec (n + i))
    | _ => s) s
  { s with cp := { s.cp with scrub := (n + 4) % 108 } }

def execStateScrub (errs : List Nat) (s : State) : Res := s.does fun s => s.stateScrub errs

/-- The records reloaded at an FB (R411): words 0 to 5 from the active copy, the integrator cleared. -/
def Block.reloadRecs (s : Block) : Block :=
  { s with cp := { s.cp with recs := s.cp.recs.map fun l =>
      if l.bad then { l with bad := false, i := 0, sat := 0, satPosted := false } else { l with satPosted := false } } }

/-- WHEEL_FAULT (R413): kind 0 for a late turn, 1 for slots out of order. -/
def Block.wheelFault (s : Block) (kind last : Nat) : Block :=
  let s : Block := { s with cp := { s.cp with wheelFault := true, halted := true } }
  s.lightOut.faultEv 0x19 0x121 3 [pk kind last 0 0, s.tm.fsn] .clear (pageInst 0x19)

def execWheelFault (kind last : Nat) (s : State) : Res := s.does fun s => if s.fl.svRunning && kind < 2 then s.wheelFault kind last else s

/-- THERM_CEILING_LOST (R403): no ceiling for a model group for 5 ms. -/
def Block.ceilingLost (s : Block) (g : Nat) : Block :=
  match s.th.mg[g]? with
  | none => s
  | some q =>
    match q.last with
    | none => s
    | some t =>
      if t + 5000000 ≤ s.now then
        let s : Block := { s with th := { s.th with mg := modAt s.th.mg g fun q => { q with last := none, lost := true } } }
        (s.postI 0x2B 0x20D 4 (pageInst 0x2B) false [w32 g, s.tm.fsn]).raise 0x19 0x20D 3 (w32 g) .clear
      else s

def execThermCeilingLost (g : Nat) (s : State) : Res := s.does fun s => s.ceilingLost g

end Sys2Proof.Machine
end

