-- ==== Sys2Proof/Machine/Chain.lean ====
section
/-!
DEFINITION. The SSL-8 daisy chains (R366, R370 to R380): segments, table loads, shifts and their status, strobes, enumeration and
breaks.
-/
namespace Sys2Proof.Machine

/-- A chain. -/
def Block.chn (s : Block) (c : Nat) : Chain := s.ls.chn.getD c Chain.reset

/-- A chain changes. -/
def Block.modChn (s : Block) (c : Nat) (f : Chain → Chain) : Block := { s with ls := { s.ls with chn := modAt s.ls.chn c f } }

/-- A chain takes a state, with CHAIN_STATE (Table 11.12). -/
def Block.chnGoto (s : Block) (c st : Nat) : Block :=
  let old := (s.chn c).st
  if old = st then s
  else
    let s := s.modChn c fun k => { k with st := st }
    s.post 0x18 0x110 [pk c st old (s.chn c).slices]

/-- The member number of a slice channel. -/
def slcMember (c sl k : Nat) : Nat := 64 + 512 * c + 8 * sl + k

/-- The enabled members on a chain. -/
def Block.chnMembers (s : Block) (c : Nat) : List Nat := s.members.filter fun m => decide (64 ≤ m) && (m - 64) / 512 == c

/-- Does a chain feed a group? -/
def Block.feeds (s : Block) (c g : Nat) : Bool := (s.chnMembers c).any fun m => (memCfg s.act m).group == g

/-- Does a chain feed a lit group? -/
def Block.feedsLit (s : Block) (c : Nat) : Bool := (s.chnMembers c).any fun m => (s.grp (memCfg s.act m).group).lit

/-! ## Segments (R370) -/

/-- A segment of 160 bits with its CRC. -/
def segment (ty addr entry payload : Nat) : Nat :=
  let hi := ((ty * 64 + addr % 64) * 16 + entry % 16) * 4
  let body := hi * 2 ^ 128 + payload % 2 ^ 128
  body * 65536 + crc16 ((List.range 18).map fun j => BitVec.ofNat 8 (natBits body (136 - 8 * j) 8))

/-- Is a returned segment a STATUS with a valid CRC and the expected ADDR (R379)? -/
def statusOk (seg addr : Nat) : Bool :=
  natBits seg 156 4 == 8 && natBits seg 150 6 == addr &&
    natBits seg 0 16 == crc16 ((List.range 18).map fun j => BitVec.ofNat 8 (natBits seg (152 - 8 * j) 8))

/-- Eight 16-bit codes as a payload. -/
def codes8 (l : List Nat) : Nat := (List.range 8).foldl (fun a k => a + l.getD k 0 % 65536 * 2 ^ (16 * k)) 0

/-! ## Tables (R366, R375, R405) -/

/-- The amplitude codes of a calendar's epoch runs, in order. -/
def epochRuns (ws : List Word) : List Nat :=
  let sl := calSlots ws
  ((List.range sl.length).filter (chgAt sl)).map fun i => match sl[i]? with | some x => calAmp ws x.epoch | none => 0

/-- RUNS of a chain for the frame: the most runs of the calendars of the groups it feeds, and one for LG_HL, which has no calendar and whose
members are driven at one amplitude throughout (R357; log entry 250). -/
def Block.chnRuns (s : Block) (c : Nat) : Nat :=
  (List.range 4).foldl (fun m g => if s.feeds c g then max m (min 15 (epochRuns (activeCal s.act g)).length) else m) (s.feeds c 4).toNat

/-- A table code of a slice channel: the smallest of MODE, EYE and THERM (R405), with the winner.  A spare's entries hold its codes as
well; its HOT bit keeps it diverting until it takes over (Table 11.2, R389; log entry 250). -/
def Block.entryCode (s : Block) (m amp level : Nat) : Nat × Nat :=
  let c := smallest [(1, s.eyeCand m), (2, s.thermTarget m), (0, piConv (s.pi m) (amp * level * 2 ^ 46))]
  if !(memCfg s.act m).en || !(s.grp (memCfg s.act m).group).lit then (0, 0)
  else if (s.member m).acting then c
  else if (s.member m).st = 3 ∨ (s.member m).st = 2 then (0, c.2)
  else (0, 0)

/-- The table of a slice for a frame from an FB on: entries 1 to RUNS, eight channels each, with the winners.  The groups of the mask `dark`
are at zero in that frame (R77). -/
def Block.sliceTable (s : Block) (c sl runs fb dark : Nat) : List (Nat × Nat) :=
  (List.range runs).flatMap fun e => (List.range 8).map fun k =>
    let m := slcMember c sl k
    let g := (memCfg s.act m).group
    if natBit dark g then (0, 0)
    else s.entryCode m (if g = 4 then 0x8000 else (epochRuns (activeCal s.act g)).getD e 0) (if g = 4 then 0x8000 else s.levelComing g fb)

/-- What an entry of a table holds. -/
def entryOf (t : List Nat) (e : Nat) : List Nat := (t.drop (8 * (e - 1))).take 8

/-- Is a probe due on a chain's members? -/
def Block.chnProbe (s : Block) (c : Nat) : Bool := (s.chnMembers c).any fun m => (s.member m).probeDue

/-- CHAIN_TABLE_LOAD (R375): CONFIG, PROBE_I where a probe is due, the tables that differ, and a NOP, for the frame that comes as
the commits due at its FB will leave it (R366). -/
def Block.tableLoad (s : Block) (c : Nat) : Block :=
  let k := s.chn c
  if !(k.st == 2 || k.st == 3) || k.clkOff || !s.pw.state.running then s
  else
    let s := s.advanceTo (s.nextCutoff + 4000)
    let dark := s.darkNext
    let t := s.comingBlock
    let runs := t.chnRuns c
    let fb := s.now + s.localFor (s.nextFb - s.tm.ft)
    let tabs := (List.range k.slices).map fun sl => (sl, t.sliceTable c sl runs fb dark)
    let s := (tabs.flatMap fun t => t.2.map (·.1)).foldl (fun s w => s.tallyWin w 63) s
    let want := tabs.map fun t => (t.1, t.2.map (·.2))
    let old (sl : Nat) : List Nat := (aget? (s.chn c).bank sl).getD []
    let diff := (List.range runs).filter fun e => want.any fun t => entryOf t.2 (e + 1) != entryOf (old t.1) (e + 1)
    let probe := s.chnProbe c
    let q := (2, 0) :: ((if probe then [(4, 0)] else []) ++ diff.map (fun e => (3, e + 1)) ++ [(0, 0)])
    s.modChn c fun k =>
      { k with queue := q, want := want, loadRuns := runs, shifts := q.length,
               tc := (runs + probe.toNat + 2) * (k.slices * 400 + 400) / 10 }

def execChainTableLoad (c : Nat) (s : State) : Res := s.does fun s => if c < 4 then s.tableLoad c else s

/-- The payload of a slice's segment in a shift. -/
def Block.shiftPayload (s : Block) (c sl ty e : Nat) : Nat :=
  let ms := (List.range 8).map fun k => slcMember c sl k
  let mask (p : Nat → Bool) : Nat := bitsMask ((List.range 8).filter fun k => p (slcMember c sl k))
  match ty with
  | 2 =>
    mask (fun m => (memCfg s.act m).en && (s.member m).st != 4) + 256 * mask (fun m => ((s.member m).st == 3 ||
        (s.member m).st == 2) && (s.member m).prep == 0) +
      65536 * mask (fun m => (s.member m).probeDue) + 2 ^ 24 * (s.chn c).loadRuns + 2 ^ 32 * s.afld R.CHAIN_SLICE_CFG 0 16 +
      2 ^ 48 * s.afld R.CHAIN_SLICE_CFG 16 12
  | 3 => codes8 (entryOf ((aget? (s.chn c).want sl).getD []) e)
  | 4 => codes8 (ms.map s.probeCode)
  | _ => 0

/-- The segments of a shift, the furthest slice first. -/
def Block.shiftSegs (s : Block) (c ty e : Nat) : List Nat :=
  ((List.range (s.chn c).slices).map fun sl => segment ty sl e (s.shiftPayload c sl ty e)).reverse

/-- A strobe on a chain (Table 11.3). -/
def Block.strobe (s : Block) (c width : Nat) : Block := s.emit (.chain c width [])

/-- The strobes of a lit group's chains (R372); a group held at zero strobes none (R402). -/
def Block.strobes (s : Block) (g width : Nat) : Block :=
  if !(s.grp g).lit || s.portHold g then s
  else (List.range 4).foldl (fun s c =>
    if ((s.chn c).st == 2 || (s.chn c).st == 3) && !(s.chn c).zero && s.feeds c g then s.strobe c width else s) s

/-- ZERO on chains (R372, R402): held until the next FRAME; CLK stops until the next FB. -/
def Block.zeroChains (s : Block) (p : Nat → Bool) : Block :=
  (List.range 4).foldl (fun s c => if p c then (s.strobe c 12).modChn c fun k => { k with zero := true, clkOff := true } else s) s

/-- The members of a group that a probe drives: every due one; a COLD spare's buck must run, from an FB on (R384), and a slice
channel must have its PROBE bit set (R374). -/
def Block.probed (s : Block) (g : Nat) : List Nat :=
  (s.membersOf g).filter fun m => (s.member m).probeDue &&
    (if m < 64 then (s.member m).st != 2 || (s.member m).buck != 0
     else natBit ((aget? (s.chn ((m - 64) / 512)).conf ((m - 64) % 512 / 8)).getD 0) (16 + m % 8))

/-- PROBE_RUN (R372, R385, R387): every due member of a lit group is driven at its probe current for 20 us, in the dark interval from
FB - 21 us or in the kerf extension from FB + 0.5 us, and judged by the current that flows at the end, as `res` lists it, none where it does
not; an abort or SAFE discards the results. -/
def Block.probeRun (s : Block) (g : Nat) (res : List (Nat × Nat)) : Block :=
  if s.pathCut || s.portHold g || !s.probeTime g || !(s.grp g).lit then s
  else
    let dark := decide (22000 ≤ darkNs s.act) && s.inDarkNow
    let at_ (s : Block) (d e : Nat) : Block := if dark then s.advanceTo (s.nextFb - d) else s.toSlot e
    let s := at_ s 21000 500
    let ms := s.probed g
    let s := ms.foldl (fun s m => s.modMember m fun q => { q with ref := s.probeCode m }) (s.strobes g 14)
    let s := (at_ s 1000 20500).strobes g 2
    ms.foldl (fun s m => s.probeEnd m ((aget? res m).getD 0)) s

def execProbeRun (g : Nat) (res : List (Nat × Nat)) (s : State) : Res := s.does fun s => if g < 5 then s.probeRun g res else s

/-- A BREAK (R379). -/
def Block.chnBreak (s : Block) (c : Nat) : Block :=
  let s := (s.zeroChains fun d => d == c).chnGoto c 4
  let s := (s.bump (R.CHAIN_BREAKS c)).post 0x18 0x112 [w32 c, s.tm.fsn]
  let s := s.modChn c fun k => { k with breakAt := s.now, suspects := 0, fails := [], queue := [] }
  (s.chnMembers c).foldl (fun s m => s.latchMember m 7) s

/-- A TABLE entry reaches a slice's shadow bank (R374, R376). -/
def Chain.writeEntry (k : Chain) (sl e : Nat) (codes : List Nat) : Chain :=
  let t := (aget? k.shadow sl).getD []
  let t' := (t ++ List.replicate (8 * 15 - t.length) 0).mapIdx fun i x => if 8 * (e - 1) ≤ i ∧ i < 8 * e then codes.getD (i - 8 * (e - 1)) 0 else x
  let bad := match aget? k.bad sl with
    | none => k.bad
    | some l => if (List.range k.runs).all fun r => r + 1 == e || l.contains (r + 1) then adel k.bad sl else aput k.bad sl (e :: l)
  { k with shadow := aput k.shadow sl t', bad := bad }

/-- A slice's status as returned (Table 11.2, R381). -/
def Block.sliceStatus (s : Block) (c sl seg : Nat) : Block :=
  (List.range 8).foldl (fun s k =>
    let m := slcMember c sl k
    let f := natBits seg (16 + 16 * k) 16
    if !(memCfg s.act m).en then s
    else
      let s := s.modMember m fun q => { q with cur := natBits f 0 10, flags := natBits f 10 5,
                                               qualAt := if natBits f 0 10 = 0 then q.qualAt else s.now }
      if natBit f 10 then s.latchMember m 1
      else if natBit f 11 then s.latchMember m 2
      else if natBit f 12 || natBit f 13 then s.latchMember m 6
      else s) s

/-- UPDATE at the slices of a chain (R374): CONFIG is taken, its RUNS for the next FRAME; TABLE writes its entry into the shadow
bank; PROBE_I stores the probe codes. -/
def Block.sliceUpdate (s : Block) (c ty e : Nat) : Block :=
  let sls := List.range (s.chn c).slices
  match ty with
  | 2 =>
    let conf := sls.map fun sl => (sl, s.shiftPayload c sl 2 0)
    (s.chnMembers c).foldl (fun s m => s.modMember m fun q => if q.prep = 1 then { q with prep := 2, hotSince := s.now } else q)
      (s.modChn c fun k => { k with conf := conf, cfgRuns := k.loadRuns })
  | 3 => sls.foldl (fun s sl => s.modChn c fun k => k.writeEntry sl e (entryOf ((aget? k.want sl).getD []) e)) s
  | 4 =>
    let codes := sls.map fun sl => (sl, (List.range 8).map fun k => s.probeCode (slcMember c sl k))
    s.modChn c fun k => { k with probeI := codes }
  | _ => s

/-- CHAIN_SHIFT_DONE (R374, R375, R379): the shift at the head of the queue (a NOP where none waits) completes, UPDATE is strobed,
and the returned segments, one per slice, are checked. -/
def Block.shiftDone (s : Block) (c : Nat) (ret : List Nat) : Block :=
  let k := s.chn c
  if !(k.st == 2 || k.st == 3) || k.clkOff then s
  else
    let (ty, e) := k.queue.headD (0, 0)
    let s := ((s.emit (.chain c 0 (s.shiftSegs c ty e))).strobe c 10).modChn c fun k => { k with queue := k.queue.tail }
    let s := s.sliceUpdate c ty e
    let oks := (List.range k.slices).filter fun sl => statusOk (ret.getD sl 0) sl
    let errs := oks.filter fun sl => natBit (ret.getD sl 0) 144
    let nbad := (k.slices - oks.length) + errs.length
    let s := (List.range nbad).foldl (fun s _ => (s.bump (R.CHAIN_CRC_ERR c)).postTally 0x111 (pageInst 0x18)) s
    let fails := (List.range k.slices).map fun sl => (sl, if oks.contains sl then 0 else (aget? k.fails sl).getD 0 + 1)
    let s := s.modChn c fun k => { k with fails := fails.filter fun f => f.2 != 0 }
    let lost := fails.any fun f => decide (8 ≤ f.2)
    if oks.isEmpty && decide (0 < k.slices) then
      if lost || decide (1 ≤ k.suspects) then s.chnBreak c else (s.modChn c fun k => { k with suspects := 1 }).chnGoto c 3
    else
      let s := (s.modChn c fun k => { k with suspects := 0 }).chnGoto c 2
      if lost then s.chnBreak c
      else
        let again := decide (s.now + (k.queue.tail.length + k.loadRuns + 1) * (k.slices * 400 + 400) + 2000 ≤ s.now + s.localFor (s.nextFb - s.tm.ft))
        let s := if errs.isEmpty then s
          else s.modChn c fun k =>
            { k with bad := errs.foldl (fun b sl => aput b sl []) k.bad,
                     queue := if again then k.queue ++ (List.range k.loadRuns).map (fun e => (3, e + 1)) ++ [(0, 0)] else k.queue }
        oks.foldl (fun s sl => s.sliceStatus c sl (ret.getD sl 0)) s

def execChainShiftDone (c : Nat) (ret : List Nat) (s : State) : Res := s.does fun s => if c < 4 then s.shiftDone c ret else s

/-- FRAME at an FB (R372, R376): the banks of a chain's slices swap, and RUNS of the last CONFIG applies; a slice with an invalid
shadow stays at zero for the frame.  A chain one of whose lit groups is held at zero for the frame, or all of whose lit groups a
dark transition holds, receives ZERO instead and stays at zero, as under the hardwired path (R77, R402); where a dark transition
holds only some of them, those have codes of 0.  A chain that feeds LG_HL alone dwells from the FB on (R357; log entry 250). -/
def Block.chainFrame (s : Block) (c : Nat) : Block :=
  let s := s.modChn c fun k => { k with clkOff := false }
  let k := s.chn c
  let gs := (List.range 5).filter fun g => (s.grp g).lit && s.feeds c g
  if !(k.st == 2 || k.st == 3) || gs.isEmpty then s
  else if s.pathCut || s.cp.wheelFault || gs.all s.isDark || gs.any (fun g => s.portHold g && !s.isDark g) then
    if k.zero then s else (s.strobe c 12).modChn c fun k => { k with zero := true }
  else
    let stale := k.bad.map (·.1)
    let s := s.modChn c fun k =>
      { k with zero := false, runs := k.cfgRuns, bank := k.shadow.map fun t => if stale.contains t.1 then (t.1, (aget? k.bank t.1).getD []) else t }
    let s := stale.foldl (fun s sl =>
      (s.bump (R.CHAIN_STALE c)).faultEv 0x18 0x113 1 [w32 (c + 256 * sl), s.tm.fsn] .fb (pageInst 0x18)) s
    let s := (s.strobe c 8).strobe c 4
    if gs.all (· == 4) then s.strobe c 6 else s

/-- The configured slices of a chain. -/
def chnConfigured (v : Nat → Word) (c : Nat) : Nat := bits (v R.CHAIN_CFG) (4 + 7 * c) 7

/-- What an enumeration sends (R378): ZERO, zeros through 64 slices, a CONFIG with ADDR 0x3F and zeros after it, ADDRESS for the n
slices found, UPDATE, and a NOP that brings their IDENT segments back. -/
def Block.enumSends (s : Block) (c n : Nat) : Block :=
  let sends (s : Block) (l : List Nat) : Block := s.emit (.chain c 0 l)
  let s := sends (s.strobe c 12) (List.replicate 64 0)
  let s := sends s (segment 2 0x3F 0 0 :: List.replicate n 0)
  let s := (sends s ((List.range n).map fun sl => segment 1 sl 0 0).reverse).strobe c 10
  sends s (((List.range n).map fun sl => segment 0 sl 0 0).reverse)

/-- An enumeration of a chain (R378): the slices found, and their IDENT words. -/
def Block.enumerate (s : Block) (c n : Nat) (ids : List (Word × Word)) : Block :=
  let s := ((s.enumSends c n).chnGoto c 1).modChn c fun k =>
    { k with slices := n, queue := [], suspects := 0, fails := [], bank := [], shadow := [], zero := true, clkOff := false,
             bad := (List.range n).map fun sl => (sl, []), fsma := (ids.mapIdx fun i w => (i, bits w.2 16 16)), conf := [], probeI := [] }
  let s := (ids.mapIdx fun i w => (i, w)).foldl (fun s e => s.post 0x18 0x114 [w32 (c + 256 * e.1), e.2.1, e.2.2]) s
  s.chnGoto c (if n = chnConfigured s.act c then 2 else 5)

/-- May ENUM run on a chain: enabled, and not while it feeds a lit group outside BREAK (R378)? -/
def Block.enumAllowed (s : Block) (c : Nat) : Bool :=
  c < 4 && s.abit R.CHAIN_CFG c && s.pw.state != .boot && ((s.chn c).st == 4 || !s.feedsLit c)

/-- T_c of a chain (R377) in a view, in ns. -/
def Block.chainTime (s : Block) (v : Nat → Word) (c : Nat) : Nat :=
  let gs := (List.range 4).filter fun g => (List.range 512).any fun i =>
    bit (v (win 0x18 (512 * c + i))) 0 && bits (v (win 0x18 (512 * c + i))) 1 3 == g
  let r := gs.foldl (fun m g => (List.range 4).foldl (fun m k =>
      if calEn v (seqSource v g) k then max m (epochRuns (calWords v (seqSource v g) k)).length else m) m) 0
  let p := if gs.any (fun g => bit (v R.SEQ_PROBE_CFG) (16 + g)) || decide (22000 ≤ darkNs v) then 1 else 0
  (r + p + 2) * ((s.chn c).slices * 400 + 400)

/-- The margin a chain time has (R377). -/
def Block.chainMargin (s : Block) (v : Nat → Word) (c : Nat) : Int :=
  ((s.tPre v + bits (v R.TIME_COMMIT_GUARD) 0 18 : Nat) : Int) - 6000 - s.chainTime v c

end Sys2Proof.Machine
end

