-- ==== Sys2Proof/Machine/Mirror.lean ====
section
/-!
DEFINITION. Mirror ports and the sequencer (R265, R272 to R281, R288 to R316): bring-up, preload, slots, loads, aborts,
read-back, the backchannel, parking and dark transitions.
-/
namespace Sys2Proof.Machine

/-- The page of a port. -/
def maPage (p : Nat) : Nat := 0x0E + p

/-- An event of a port (Table 9.15). -/
def Block.maEvt (s : Block) (p ty : Nat) (data : List Word) : Block := s.postI (maPage p) ty 0 p false data

/-- A fault of a port, with its event. -/
def Block.maFault (s : Block) (p ty cls : Nat) (data : List Word) (way : CloseWay) : Block := s.faultEv (maPage p) ty cls data way p

/-- A port without a frame in hand. -/
def Port.drop (q : Port) : Port :=
  { q with words := [], nextWords := [], phase := 0, slot := 0, loading := false, preload := false, loadNext := 0, stage := [],
           held := 0, heldNext := 0, line := { q.line with run := none } }

/-! ## The lanes (R288 to R292, R309) -/

/-- The set a port shows under a tag: a clone shows its source's (R309). -/
def Block.shown (s : Block) (p : Nat) (fsn : Word) : Option SetContent :=
  (s.port (seqSource s.act p)).sets.findSome? fun t => match t.content with | some c => if c.fsn = fsn then some c else none | none => none

/-- A 64-bit word of a plane (R290): bytes 8w to 8w + 7, little-endian. -/
def SetContent.word (c : SetContent) (plane w : Nat) : Nat := leNat ((List.range 8).map fun i => c.byteAt plane (8 * w + i))

/-- The payload a lane carries in data block j of the load on a port's lanes (R290). -/
def Block.payload (s : Block) (p lane j : Nat) : Nat :=
  match (s.port p).line.run with
  | none => 0
  | some r => match s.shown p r.fsn with | some c => c.word r.plane (j * portLanes p + lane) | none => 0

/-- The 66-bit block that a lane of a port carries at a block boundary (R289 to R291). -/
def Block.laneBlock (s : Block) (p lane k : Nat) : Nat :=
  let q := s.port p
  let w := match q.line.run with
    | some r => if r.first ≤ k ∧ k < r.first + r.blocks then s.payload p lane (k - r.first) else 0
    | none => 0
  block66 (q.line.sideBit p lane q.rate k) (scramble (q.line.regAt lane (s.payload p lane) k) w).1 (bit q.line.pol lane)

/-- What the lanes of a port carry now: one 66-bit block per lane; nothing while the port is OFF.  A training that waits for messages to end
leaves the line as it was until then. -/
def Block.lanesNow (s : Block) (p : Nat) : List Nat :=
  let t := match (s.port p).oldLine with
    | some (l, rate) => if 16 * s.now < (s.port p).line.origin then s.modPort p fun q => { q with line := l, rate := rate } else s
    | none => s
  let q := t.port p
  if q.st = 0 then []
  else (List.range (portLanes p)).map fun lane => t.laneBlock p lane ((16 * s.now - q.line.origin) / blockTime q.rate)

/-- The scrambler registers of a port are brought to a boundary; a load in hand ends there. -/
def Block.lineTo (s : Block) (p k : Nat) : Block :=
  s.modPort p fun q =>
    { q with line := { q.line with scr := (List.range (portLanes p)).map fun lane => q.line.regAt lane (s.payload p lane) k,
                                   sent := max q.line.sent k, run := none } }

/-- The load on a port's lanes ends now (R304). -/
def Block.cutLoad (s : Block) (p : Nat) : Block := s.lineTo p ((s.port p).boundary s.now)

/-- The boundaries at which the RESETs to come begin, as far as the frames in hand say (R292): of the next slot of the lit frame, and
of slot 0 of the frame preloaded. -/
def Block.dueResets (s : Block) (p : Nat) : List Nat :=
  let q := s.port p
  let at_ := fun t : Nat => q.boundary t - msgBlocks p
  let i := if q.phase = 0 then 0 else q.slot + 1
  let lit := if q.words.isEmpty || q.phase == 3 || !(q.held == 0 || q.held == 3) || decide ((calSlots q.words).length ≤ i) then []
    else [at_ (s.tm.fbNow + (s.slotAt p i).1)]
  let nxt := if !q.preload || q.nextWords.isEmpty || !(q.heldNext == 0 || q.heldNext == 3) then []
    else [at_ (s.now + s.localFor (s.nextFb - s.tm.ft) + ((slotTimes (s.calCfg s.act p) (calSlots q.nextWords)).1.getD 0 (0, 0)).1)]
  lit ++ nxt

/-- A message is sent at the first place that leaves the RESETs to come theirs. -/
def Block.smlFree (s : Block) (p code : Nat) (args : List Nat) : Block := s.sml p code args (s.dueResets p)

/-- MODE follows 64 idle blocks after LOCKED (Table 9.6). -/
def Block.smlMode (s : Block) (p : Nat) : Block :=
  let q := s.port p
  s.smlAt p (placeAfter (msgBlocks p) (q.busy []) (q.boundary s.now + 64)) 5 [maMode s.act p]

/-- RESET (R292): its last block is the first boundary at or after now. -/
def Block.smlReset (s : Block) (p : Nat) (args : List Nat) : Block :=
  s.smlAt p ((s.port p).boundary s.now - msgBlocks p) 2 args

/-- A plane's PLANE_HEAD and its data (R290, R292): the data begin at the first boundary at or after now, START blocks after the
message, which gives way to a RESET.  A clone's lanes carry them as well (R309). -/
def Block.smlPlane (s : Block) (p slot plane : Nat) (tag : Word) (blocks : Nat) : Block :=
  let q := s.port p
  let m := msgBlocks p
  let first := placeBefore m (q.busy (s.dueResets p)) (q.boundary s.now)
  let run : Option LineRun := if blocks = 0 then none else some { first := max (q.boundary s.now) (first + m), blocks := blocks,
                                                                  plane := plane, fsn := tag }
  (s.smlAt p first 1 [slot, plane, tag.toNat, blocks, if blocks = 0 then 0 else q.boundary s.now - (first + m)]).modPort p fun q =>
    { q with line := { q.line with run := run } }

/-- The boundary at which the messages placed on a port's sideband are over, not before now. -/
def Port.sideEnd (q : Port) (p now : Nat) : Nat := q.line.side.foldl (fun m x => max m (x.1 + msgBlocks p)) (q.boundary now)

/-- Training begins on a port's lanes (R300), once the messages already placed, a FRAME_ABORT or a PARK, are over (R304, R312): boundaries
count from there, and MA_LANE_POL is taken. -/
def Block.lineTrain (s : Block) (p : Nat) : Block :=
  let s := s.cutLoad p
  let q := s.port p
  let e := q.sideEnd p s.now
  let at_ := q.line.origin + e * blockTime q.rate
  let pol := s.reg (R.MA_LANE_POL p)
  if e ≤ q.boundary s.now ∨ q.line.training = true then
    s.modPort p fun q =>
      { q with oldLine := none, line := { q.line with origin := 16 * s.now, sent := 0, side := [], run := none, training := true, pol := pol } }
  else
    (s.lineTo p e).modPort p fun q =>
      { q with oldLine := some (q.line, q.rate), line := { q.line with origin := at_, sent := 0, side := [], run := none,
                                                                       training := true, pol := pol } }

/-- A port's lanes begin to send: the registers' first contents are free. -/
def Block.lineStart (s : Block) (p : Nat) : Block :=
  let (regs, s) := (List.range (portLanes p)).foldl (fun (a : List Nat × Block) _ =>
    let (x, s) := a.2.takeBelow (2 ^ 58 - 1); (a.1 ++ [x], s)) ([], s)
  s.modPort p fun q =>
    { q with line := { q.line with origin := 16 * s.now, sent := 0, scr := regs, side := [], run := none, training := false } }

/-! ## Bring-up (Table 9.6, R298 to R300, R313) -/

/-- A port's bring-up begins: MAp_RST_N is released (R299). -/
def Block.startPort (s : Block) (p : Nat) : Block :=
  let s := s.modPort p fun q =>
    { q.drop with parked := false, usable := false, linkState := 0, attempt := 0, train := 0, modeSent := false, modePend := false,
                  bcLock := false, bcLostAt := none, identReq := false, acks := [], rate := maRate s.act p, oldLine := none }
  let s : Block := { s with pins := { s.pins with maRstN := setAt s.pins.maRstN p true } }
  (s.lineStart p).portGoto p 1

/-- A port is off: EN is 0 and MAp_RST_N is held low (R299). -/
def Block.stopPort (s : Block) (p : Nat) : Block :=
  let s := s.modPort p fun q =>
    { q.drop with parked := false, usable := false, linkState := 0, bcLock := false, bcLostAt := none, identReq := false, acks := [], rate := 0,
                  oldLine := none }
  let s : Block := { s with pins := { s.pins with maRstN := setAt s.pins.maRstN p false } }
  s.portGoto p 0

/-- FRAME_ABORT and PARK go to the array of a port that can show frames (R312). -/
def Block.abortPark (s : Block) (p : Nat) : Block :=
  let q := s.port p
  if !(q.st == 4 || q.st == 5 || q.st == 6) then s
  else ((s.cutLoad p).sml p 4 [0, (if q.preload then q.nextTag else s.tm.fsn).toNat]).parkPort p

/-- A port follows its EN and the device state.  The array of a port whose EN is cleared is parked first (R77). -/
def Block.portEn (s : Block) (p : Nat) : Block :=
  let en := maEn s.act p
  if !en then (if (s.port p).st = 0 then s else (s.abortPark p).stopPort p)
  else if s.pw.state.running && (s.port p).st == 0 then s.startPort p
  else s

/-- Training begins or begins again on a port (R313). -/
def Block.trainPort (s : Block) (p why : Nat) : Block :=
  (s.lineTrain p).modPort p fun q => { q with train := why, attempt := 1, linkState := 0, since := s.now, rate := maRate s.act p, modeSent := false }

/-- IDENT as received (Table 9.5). -/
def parseIdent (d : List Byte) : Ident :=
  { vendor := field d 0 2, model := field d 2 2, rev := field d 4 1, sd := field d 5 1, widths := field d 7 1, rates := field d 8 1,
    modes := field d 9 1, settle := field d 10 2, park := field d 12 2, words := bytesWords 4 (d.drop 14) }

/-- The modes an array declares, as the registers hold them: 0 for an undeclared one. -/
def Ident.modeWords (i : Ident) : List Word := i.words.mapIdx fun m w => if m < i.modes then w else 0

/-- R300. -/
def identOk (p : Nat) (d : List Byte) : Bool :=
  let i := parseIdent d
  d.length == 32 && decide (1 ≤ i.modes) && decide (i.modes ≤ 4) && field d 6 1 == 16 && decide (1 ≤ i.sd) && decide (i.sd ≤ 15) &&
    natBit i.widths (if p = 3 then 0 else 1) &&
    (i.words.take i.modes).all fun w =>
      let g := modeGeom w
      decide (128 ≤ g.1) && decide (g.1 ≤ 8192) && decide (16 ≤ g.2) && decide (g.2 ≤ 4320)

/-- MA_IDENT0. -/
def Ident.word0 (i : Ident) : Word := w32 (i.vendor + 65536 * i.model)

/-- IDENT (R294, R300): one of a wrong LEN is discarded and counted; accepted, the array's declarations are known and training begins;
refused, in any state of a port whose array is up, ARRAY_FAULT, and the light of its group ends with the frames in hand. -/
def Block.ident (s : Block) (p : Nat) (d : List Byte) : Block :=
  let st := (s.port p).st
  if d.length ≠ 32 then s.bump (R.MA_BC_ERR p)
  else if st = 0 ∨ st = 1 ∨ st = 8 then s
  else
  let s := s.modPort p fun q => { q with identReq := false }
  if identOk p d then
    let i := parseIdent d
    let s := s.modPort p fun q => { q with ident := some { i with words := i.modeWords }, bcLock := true }
    let s := s.maEvt p 0x091 [w32 p, i.word0]
    if st = 2 then (s.trainPort p 0).portGoto p 3 else s
  else
    let s := if st = 5 then s.zeroChains fun c => ((s.chn c).st == 2 || (s.chn c).st == 3) && s.feeds c p else s
    ((s.modPort p fun q => { q.drop with usable := false }).portGoto p 8).maFault p 0x091 2 [w32 (p + 256), (parseIdent d).word0] .clear

def execIdent (p : Nat) (d : Bytes) (s : State) : Res := s.does fun s => if p < 4 then s.ident p d else s

/-- LINK_FAIL (R312, R313), with its cause and attempts. -/
def Block.linkFail (s : Block) (p cause : Nat) : Block :=
  let n := (s.port p).attempt
  let s := (s.modPort p fun q => { q.drop with usable := false }).portGoto p 7
  (s.postI 0x2B 0x20F 4 p false [pk p cause n 0, s.tm.fsn]).raise (maPage p) 0x20F 3 (pk p cause n 0) .clear

/-- The first boundary whose preload start is still to come (R306). -/
def Block.firstPreload (s : Block) : Nat := if s.tm.ft < s.nextPreload then s.tm.nextK else s.tm.nextK + 1

/-- A port is LOCKED (Table 9.6, R312, R313, R315). -/
def Block.lockPort (s : Block) (p skew : Nat) : Block :=
  let q := s.port p
  let s := s.modPort p fun q => { q with linkState := 2, skew := skew, fail := false, line := { q.line with training := false } }
  match q.train with
  | 0 => (s.modPort p fun q => { q with modeSent := true }).smlMode p
  | 1 => (s.maEvt p 0x099 [pk p q.attempt 0 skew]).portGoto p 4
  | 2 => (s.maEvt p 0x099 [pk p q.attempt 0 skew]).modPort p fun q => { q with restartK := s.firstPreload, train := 0 }
  | _ =>
    let s := s.maEvt p 0x099 [pk p q.attempt 0 skew]
    if q.modePend then (s.modPort p fun q => { q with modePend := false, modeSent := true, parked := false, train := 0 }).smlMode p
    else s.modPort p fun q => { q with train := 0 }

/-! ## Aborts (R304 to R306, R310) -/

/-- One port's abort: the group is held at zero, now or, where the failed load is of a frame not yet lit, from that frame's FB;
the registers and MA_ABORT. -/
def Block.abortOne (s : Block) (p cause slot plane : Nat) (tag : Word) (lit cloneOnly : Bool) : Block :=
  let (lvl, s) := if cause = 1 then (0, s) else s.takeBelow 4096
  let info := w32 (cause + 16 * slot + 1024 * plane + (if cloneOnly then 32768 else 0) + 65536 * lvl)
  let s := s.modPort p fun q =>
    { q with held := if lit then 1 else q.held, heldNext := if lit then q.heldNext else 1, phase := if lit then 3 else q.phase }
  let s := (s.setRegs [(R.MA_ABORT_INFO p, info), (R.MA_ABORT_FSN p, tag)]).bump (R.MA_ABORTS p)
  let s := s.maFault p 0x093 1 [pk p cause slot plane, tag, info] .fb
  let s := if lit then (s.zeroChains fun c => ((s.chn c).st == 2 || (s.chn c).st == 3) && s.feeds c p).beamLow else s
  s.modSc fun c => if lit then { c with blankFrame := true } else { c with blankNext := true }

/-- FRAME_ABORT (R304): the load or the frame in hand of a port fails; its clones abort with it (R310).  A failed load (causes 1
and 2) may be of a frame not yet lit (R305); the other causes arise in the lit frame, where there is one.  A lit frame that aborts
after the preload start of the next has that one skipped as well (R306), and what the array holds of it is discarded by a
FRAME_ABORT of its own (log entry 246).  The PLANE_ACKs of planes sent whole stay due (R296, R308). -/
def Block.abortPort (s : Block) (p cause slot : Nat) : Block :=
  let q := s.port p
  if maClone s.act p then
    let plane := match s.slotNow p with | some x => x.plane | none => 0
    let lit := !(q.words.isEmpty && q.preload)
    s.abortOne p cause slot plane (if lit then q.tag else q.nextTag) lit true
  else
    let none_ := q.words.isEmpty || cause > 2 && q.held == 1
    let next := q.preload && (none_ || decide (cause ≤ 2) && q.loading)
    let skip := q.preload && !next
    let tag := if next then q.nextTag else q.tag
    let ws := if next then q.nextWords else q.words
    let plane := match (calSlots ws)[slot]? with | some x => x.plane | none => 0
    let k := s.firstPreload
    let gone := skip && q.nextTag != tag && (q.loading || q.stage.any fun l => l.fsn == q.nextTag)
    let s := (p :: clonesOf s.act p).foldl (fun s r => s.abortOne r cause slot plane tag (!next) false) s
    let s := (p :: clonesOf s.act p).foldl (fun s r =>
      let s := (s.cutLoad r).smlFree r 4 [slot, tag.toNat]
      let s := if gone then s.smlFree r 4 [q.loadNext, q.nextTag.toNat] else s
      s.modPort r fun t =>
        { t with stage := t.stage.filter fun l => l.fsn != tag && !(skip && l.fsn == q.nextTag), preload := false }) s
    s.modPort p fun t =>
      { t with loading := false, loadNext := if q.preload then (calSlots t.words).length else t.loadNext, restartK := max t.restartK k }

/-- FIFO_UNDERRUN (R304, Table 9.9). -/
def execFifoUnderrun (p : Nat) (s : State) : Res :=
  s.does fun s => if p < 4 ∧ (s.port p).loading = true then s.abortPort p 1 (s.port p).loadNext else s

/-- LINK_STATUS (R304, R312, R313). -/
def Block.linkStatus (s : Block) (p state lane skew : Nat) (_order : Bool) : Block :=
  let q := s.port p
  let s := s.modPort p fun q => { q with lane := lane, skew := skew }
  if q.st = 0 ∨ q.st = 1 ∨ q.st = 2 ∨ q.st = 7 ∨ q.st = 8 then s
  else if state = 2 then (if q.linkState = 2 then s else s.lockPort p skew)
  else if q.linkState = 2 && (q.st == 4 || q.st == 5 || q.st == 6) then
    let s := if q.st = 5 then s.abortPort p 5 q.slot else s
    if q.st = 6 then (s.modPort p fun q => { q with linkState := state }).trainPort p 3
    else (s.modPort p fun q => { q with linkState := state, preload := false, restartK := 2 ^ 64 }).trainPort p 2
  else s.modPort p fun q => { q with linkState := state }

def execLinkStatus (p state lane skew : Nat) (order : Bool) (s : State) : Res :=
  s.does fun s => if p < 4 ∧ state < 3 then s.linkStatus p state lane skew order else s

/-- TRAINING_ATTEMPT_TIMEOUT (Table 9.6, R313): another attempt, or LINK_FAIL after the third; in a dark transition attempts go on
until 10 ms after FB_n (R312). -/
def Block.trainTimeout (s : Block) (p : Nat) : Block :=
  let q := s.port p
  if q.attempt = 0 ∨ q.linkState = 2 ∨ s.now < q.since + 1000000 then s
  else
    let s := if q.train = 0 then s else s.maEvt p 0x099 [pk p q.attempt 1 q.skew]
    if q.attempt < 3 ∨ q.train = 3 then s.modPort p fun q => { q with attempt := q.attempt + 1, since := s.now }
    else (s.modPort p fun q => { q with fail := true }).linkFail p 1

def execTrainingAttemptTimeout (p : Nat) (s : State) : Res := s.does fun s => if p < 4 then s.trainTimeout p else s

/-- DARK_TRAINING_TIMEOUT (R312). -/
def execDarkTrainingTimeout (p : Nat) (s : State) : Res :=
  s.does fun s =>
    if p < 4 ∧ (s.port p).st = 6 ∧ (s.port p).linkState ≠ 2 ∧ (s.port p).darkSince + 10000000 ≤ s.now then
      (s.modPort p fun q => { q with fail := true }).linkFail p 0
    else s

/-- MA_CTRL is refused in RUNNING and DARK (R315). -/
def Block.maCtrl (s : Block) (p : Nat) (f : Block → Block) : Block :=
  if !s.hostOk then s else if (s.port p).st = 5 ∨ (s.port p).st = 6 then s.errCause (maPage p) 3 else f s

/-- ARRAY_RESET (R299): MAp_RST_N is low for 10 us, then bring-up starts again. -/
def Block.arrayReset (s : Block) (p : Nat) : Block :=
  s.maCtrl p fun s => if maEn s.act p then ((s.stopPort p).advance 10000).startPort p else s

def execArrayReset (p : Nat) (s : State) : Res := s.does fun s => if p < 4 then s.arrayReset p else s

/-- MA_RETRAIN (R313). -/
def Block.maRetrain (s : Block) (p : Nat) : Block :=
  s.maCtrl p fun s => if (s.port p).st = 4 then (s.trainPort p 1).portGoto p 3 else s

def execMaRetrain (p : Nat) (s : State) : Res := s.does fun s => if p < 4 then s.maRetrain p else s

/-- MA_IDENT_REQ (R295): IDENT_REQ is sent to the array; the bit reads 1 until IDENT comes. -/
def Block.maIdentReq (s : Block) (p : Nat) : Block :=
  s.maCtrl p fun s =>
    if (s.port p).st = 0 ∨ (s.port p).st = 1 then s else (s.modPort p fun q => { q with identReq := true }).smlFree p 6 []

def execMaIdentReq (p : Nat) (s : State) : Res := s.does fun s => if p < 4 then s.maIdentReq p else s

/-! ## Preload (R272, R273, R275, R307, R312) -/

/-- Does the sequencer run a port: enabled, usable, RUN, in a state in which it walks calendars (Table 0.2)? -/
def Block.seqRuns (s : Block) (p : Nat) : Bool :=
  maEn s.act p && (s.port p).usable && s.afld R.SEQ_CTRL 0 4 / 2 ^ p % 2 == 1 &&
    (s.pw.state == .ready || s.pw.state == .lit || s.pw.state == .frostHold)

/-- The port is in service for a frame that starts at FB_k: LOCKED, restarted (R306), and out of DARK (R312). -/
def Block.portServes (s : Block) (p k : Nat) : Bool :=
  let q := s.port p
  q.linkState == 2 && decide (q.restartK ≤ k) && (q.st == 4 || q.st == 5 || q.st == 6 && q.parked &&
    s.tm.dark.all fun d => !natBit d.ports p || decide (d.litK ≤ k))

/-- The sets of a port at a preload start (Table 8.3, R272), whether or not the port runs: a SEALED set becomes SHOWING, and a SHOWING set
without one is repeated. -/
def Block.takeSets (s : Block) (p : Nat) : Block :=
  s.modPort p fun q => let (t, fresh) := q.take; { t with repeated := !fresh && (t.setIn 3).isSome }

/-- A port in DARK that is LOCKED and parked leaves it at FB_k (R312). -/
def Block.leaveDark (s : Block) (p k : Nat) : Block :=
  if (s.port p).st = 6 ∧ s.portServes p k = true then s.modPort p fun q => { q with leaveK := k } else s

/-- A port's preload start for FB_k (R272, R275, R307): its next frame is in hand. -/
def Block.preloadPort (s : Block) (p k : Nat) : Block :=
  let s := s.leaveDark p k
  if !s.seqRuns p then (if (s.port p).st = 5 then s.portGoto p 4 else s)
  else if !s.portServes p k then s.modPort p fun q => { q with preload := false, nextWords := [], heldNext := 1 }
  else
    let s := if (s.port p).st = 6 then s else s.portGoto p 5
    let g := seqSource s.coming p
    let cal := calActive s.coming g
    let ws := calWords s.coming g cal
    match (s.port p).showing with
    | none => s.modPort p fun q => { q with preload := true, nextWords := [], heldNext := 2, loadNext := 0, nextCal := cal }
    | some c =>
      let fresh := !(s.port p).repeated
      let quiet := s.pw.state == .frostHold || s.pp.fallback || natBit s.ho.thawPorts p
      let s : Block := if fresh then { s with ho := { s.ho with thawPorts := s.ho.thawPorts - (s.ho.thawPorts &&& 2 ^ p) } } else s
      let s := if fresh || quiet then s
        else (s.bump (R.MA_REPEATS p)).maEvt p 0x092 [w32 p, s.fsnNext, c.fsn]
      let mis := c.n != calNative ws
      let s := s.modPort p fun q =>
        { q with preload := true, loadNext := 0, nextCal := cal, nextWords := ws, nextTag := c.fsn, heldNext := if mis then 3 else 0 }
      if mis then (s.bump (R.SEQ_NATIVE_MISMATCH p)).postI 0x0D 0x081 0 p false [pk p c.n (calNative ws) 0, s.fsnNext] else s

/-- A clone's preload (R309): it shows its source's stream. -/
def Block.preloadClone (s : Block) (p k : Nat) : Block :=
  let r := maSrc s.act p
  let s := s.leaveDark p k
  if !s.seqRuns p then (if (s.port p).st = 5 then s.portGoto p 4 else s)
  else if !s.portServes p k then s.modPort p fun q => { q with preload := false, nextWords := [], heldNext := 1 }
  else
    let s := if (s.port p).st = 6 then s else s.portGoto p 5
    let q := s.port r
    s.modPort p fun t => { t with preload := q.preload, nextCal := q.nextCal, nextWords := q.nextWords, nextTag := q.nextTag, heldNext := q.heldNext }

/-- PRELOAD_START (R272, R306, R307). -/
def Block.preload (s : Block) : Block :=
  let s := s.advanceTo s.nextPreload
  let k := s.tm.nextK
  let s := (List.range 4).foldl Block.takeSets s
  let ports := (List.range 4).filter (maEn s.act)
  let s := (ports.filter fun p => !maClone s.act p).foldl (fun s p => s.preloadPort p k) s
  let s := (ports.filter fun p => maClone s.act p).foldl (fun s p => s.preloadClone p k) s
  if s.sc.rows.isEmpty && s.sc.hst == 2 then s.retarget else s

def execPreloadStart (s : State) : Res := s.does fun s => if s.tm.run then s.preload else s

/-- A port's part of an FB: the frame in hand becomes the lit one.  A frame before the one at which an aborted port restarts is
skipped (R306, R313).  The result says whether the frame is dark (R306, R307, R312). -/
def Block.portFb (s : Block) (p k : Nat) : Block × Bool :=
  let s := if (s.port p).st = 6 && (s.port p).leaveK == k then s.portGoto p (if (s.port p).preload then 5 else 4) else s
  let q := s.port p
  if q.st = 6 then (s.modPort p fun q => { q with held := 4, words := [] }, true)
  else if q.st ≠ 5 then (s.modPort p fun q => { q with held := 0, words := [] }, false)
  else
    let serve := q.preload && decide (q.restartK ≤ k)
    let dark := !serve || q.heldNext == 2
    let s := if serve && q.nextCal != q.cal then
        (s.bump (R.SEQ_CAL_SWITCHES p)).postI 0x0D 0x080 0 p false [pk p q.cal q.nextCal 0, s.tm.fsn]
      else s
    let limit := s.fld (R.MA_CHK_CFG p) 8 8
    let run := if q.misFrame then q.misRun + 1 else 0
    let clean := if q.misFrame then 0 else q.cleanRun + 1
    let s := s.modPort p fun q =>
      { q with cal := if serve then q.nextCal else q.cal, words := if serve then q.nextWords else [], tag := q.nextTag, phase := 0, slot := 0,
               held := if serve then q.heldNext else 1, heldNext := 0, preload := false, misFrame := false, misRun := run, cleanRun := clean }
    let det := pk p (bits ((q.chkLog.headD []).getD 1 0) 0 6) (bits ((q.chkLog.headD []).getD 1 0) 6 5) 0
    let s := if decide (0 < limit) && run == limit then (s.modPort p fun q => { q with mismOpen := true }).raise (maPage p) 0x094 2 det .auto else s
    let s := if q.mismOpen && clean == limit then (s.modPort p fun q => { q with mismOpen := false }).autoClose (maPage p) 0x094 fun _ => true else s
    (s, dark)

/-! ## Loads (R279, R280, R290, R292) -/

/-- The frame whose loads are in hand: its slots and its tag. -/
def Block.loadFrame (s : Block) (p : Nat) : List Slot × Word :=
  let q := s.port p
  if q.preload then (calSlots q.nextWords, q.nextTag) else (calSlots q.words, q.tag)

/-- Does a port stream (R272, R304, R309)?  One that leaves DARK preloads slot 0 before its FB (R312). -/
def Block.streams (s : Block) (p : Nat) : Bool :=
  let q := s.port p
  (q.st == 5 || q.st == 6 && q.preload && q.leaveK == s.tm.nextK) && !maClone s.act p && (if q.preload then q.heldNext == 0 ||
      q.heldNext == 3 else q.held == 0 || q.held == 3)

/-- Do the lanes of a port carry planes: its own stream, or its source's (R309)? -/
def Block.carries (s : Block) (p : Nat) : Bool :=
  if maClone s.act p then (s.port p).st == 5 && (s.port p).linkState == 2 && s.streams (maSrc s.act p) else s.streams p

/-- When a slot's load starts, from the FB of its frame (R283 step 6). -/
def Block.loadStartAt (s : Block) (p i : Nat) : Int :=
  let sl := (s.loadFrame p).1
  let c := s.calCfg s.act p
  ((loadTimes c sl (slotTimes c sl).1).getD i (0, 0, 0)).1

/-- An instant of the frame whose loads are in hand: before its FB it counts back from the FB to come (R272), after it on the local time
base (R56). -/
def Block.toLoad (s : Block) (p : Nat) (off : Int) : Block :=
  if (s.port p).preload then s.advanceTo ((s.nextFb : Int) + off).toNat else s.toSlot off

/-- A plane is sent whole: it takes a place in the staging store of the array and of the clones' arrays, and its PLANE_ACK is due. -/
def Block.staged (s : Block) (p : Nat) (l : PlaneLoad) : Block :=
  ((p :: clonesOf s.act p).foldl (fun s r => s.modPort r fun q => { q with stage := q.stage ++ [l], acks := q.acks ++ [l] }) s).modPort p
    fun q => { q with loading := false, loadNext := q.loadNext + 1 }

/-- PLANE_LOAD_START (R280, R290): the next plane's PLANE_HEAD is sent and its data stream, once the staging store has a place.
ZERO and ONE take a place and carry no data. -/
def Block.loadStart (s : Block) (p : Nat) : Block :=
  let q := s.port p
  let (sl, tag) := s.loadFrame p
  match sl[q.loadNext]? with
  | none => s
  | some x =>
    if !s.streams p || q.loading || decide (s.stageDepth p ≤ q.stage.length) then s
    else
      let s := s.toLoad p (s.loadStartAt p q.loadNext)
      let d := match s.geom s.act p with | some (w, h) => w * h / (64 * portLanes p) | none => 0
      let s := (p :: clonesOf s.act p).foldl (fun s r => s.smlPlane r q.loadNext x.plane tag (if 16 ≤ x.plane then 0 else d)) s
      if 16 ≤ x.plane then s.staged p { slot := q.loadNext, plane := x.plane, fsn := tag, endFt := s.tm.ft }
      else s.modPort p fun q => { q with loading := true }

def execPlaneLoadStart (p : Nat) (s : State) : Res := s.does fun s => if p < 4 then s.loadStart p else s

/-- PLANE_LOAD_END (R290, R308): the last data block is sent, and the tap's CRC is final. -/
def Block.loadEnd (s : Block) (p : Nat) : Block :=
  let q := s.port p
  if !q.loading then s
  else
    let (sl, tag) := s.loadFrame p
    let s := s.toLoad p (s.loadStartAt p q.loadNext + s.loadNs s.act p)
    let plane := match sl[q.loadNext]? with | some x => x.plane | none => 0
    let s := (p :: clonesOf s.act p).foldl (fun s r =>
      match (s.port r).line.run with | some x => s.lineTo r (x.first + x.blocks) | none => s) s
    s.staged p { slot := q.loadNext, plane := plane, fsn := tag, endFt := s.tm.ft }

def execPlaneLoadEnd (p : Nat) (s : State) : Res := s.does fun s => if p < 4 then s.loadEnd p else s

/-! ## Slots (R303) -/

/-- The slot that begins next in the lit frame. -/
def Port.nextSlot (q : Port) : Nat := if q.phase = 0 then 0 else q.slot + 1

/-- The lit strings of a group. -/
def Block.litStrings (s : Block) (g : Nat) : List Nat := (List.range 48).filter fun n => (memCfg s.act n).group == g && s.litMember n

/-- The ports whose lanes carry a port's sideband messages: itself, and its clones that are LOCKED (R309). -/
def Block.forked (s : Block) (p : Nat) : List Nat := p :: (clonesOf s.act p).filter fun r => (s.port r).st != 0 && (s.port r).linkState == 2

/-- The RESET of a slot goes out on a port's lanes: the array latches its oldest staged plane and leaves parking (R292, R293). -/
def Block.resetOn (args : List Nat) (s : Block) (r : Nat) : Block :=
  (s.modPort r fun q => { q with stage := q.stage.tail, parked := false }).smlReset r args

/-- SLOT_START (R303): the epoch goes to the laser drive, the shunts divert, the RESET latches the oldest staged plane.  A clone's
lanes carry the RESETs of its source, also where the clone's own group is held (R309, R310). -/
def Block.slotStart (s : Block) (g : Nat) (ev : List (Nat × Nat × Nat)) : Block :=
  let q := s.port g
  let i := q.nextSlot
  match (calSlots q.words)[i]? with
  | none => s
  | some x =>
    if q.st ≠ 5 || !(q.held == 0 || q.held == 3) || !(q.phase == 0 || q.phase == 2) then s
    else
      let s := s.toSlot (s.slotAt g i).1
      let s := ev.foldl Block.evidence s
      let chg := decide (0 < i) && chgAt (calSlots q.words) i
      let s := s.modPort g fun q => { q with slot := i, phase := 1, kerfAt := s.now }
      let args := [i, x.plane, q.tag.toNat, x.phased.toNat, if x.phased then (s.calCfg s.act g).step / 10 else 0]
      let s := if maClone s.act g then s else (s.forked g).foldl (Block.resetOn args) s
      let s := s.modMembers (s.litStrings g) fun m => { m with sampled := false, low := 0, lowV := 0 }
      let s := if i = 0 then
          let s := s.modMembers (s.membersOf g) Member.relit
          (s.litStrings g).foldl Block.modeKerf s
        else s
      let s := s.postTally 0x083 g
      let s := if chg then s.postTally 0x082 g else s
      let s := if 0 < i then s.strobes g (if chg then 4 else 2) else s
      if g = 0 then s.gpioPulse 6 none else s

def execSlotStart (g : Nat) (ev : List (Nat × Nat × Nat)) (s : State) : Res := s.does fun s => if g < 4 then s.slotStart g ev else s

/-- KERF_END (R303): MAp_RDY_N as sampled (`rdyLow`), and whether it was seen high since the RESET (`seenHigh`). -/
def Block.kerfEnd (s : Block) (g : Nat) (rdyLow seenHigh : Bool) : Block :=
  let q := s.port g
  if q.st ≠ 5 || q.phase ≠ 1 then s
  else
    let s := s.toSlot (s.slotAt g q.slot).2
    let s : Block := { s with pins := { s.pins with maRdyN := setAt s.pins.maRdyN g (!rdyLow) } }
    let s := if seenHigh then s else (s.bump (R.MA_RDY_MISS g)).maFault g 0x096 1 [pk g q.slot 1 0, q.tag] .fb
    let s := if rdyLow then s else (s.bump (R.MA_RDY_MISS g)).maEvt g 0x096 [pk g q.slot 0 0, q.tag]
    if !rdyLow && s.abit (R.MA_CFG g) 6 then s.abortPort g 3 q.slot
    else
      let s := s.modPort g fun q => { q with phase := 2, kerfEnd := s.now }
      if s.ampNow g = 0 then s else s.strobes g 6

def execKerfEnd (g : Nat) (rdyLow seenHigh : Bool) (s : State) : Res := s.does fun s => if g < 4 then s.kerfEnd g rdyLow seenHigh else s

/-- LAST_DWELL_END (R265): the group emits no light until the FB. -/
def Block.lastDwellEnd (s : Block) (g : Nat) (ev : List (Nat × Nat × Nat)) : Block :=
  let q := s.port g
  if q.st ≠ 5 || q.phase ≠ 2 || q.slot + 1 ≠ (calSlots q.words).length then s
  else
    let c := s.calCfg s.act g
    let s := s.toSlot (slotTimes c (calSlots q.words)).2
    ((ev.foldl Block.evidence s).modPort g fun q => { q with phase := 3 }).strobes g 2

def execLastDwellEnd (g : Nat) (ev : List (Nat × Nat × Nat)) (s : State) : Res := s.does fun s => if g < 4 then s.lastDwellEnd g ev else s

/-- DARK_INTERVAL_START (R54, R55, R311): strings and beam at zero; PARK where PARK_DARK asks for it, on the clones' lanes as well
(R309). -/
def Block.darkStart (s : Block) : Block :=
  if darkNs s.act = 0 || !s.tm.run then s
  else
    let s := (s.advanceTo s.nextDark).beamLow
    (List.range 4).foldl (fun s p =>
      let park := match (s.port p).ident with | some i => i.park * 1000 | none => 0
      if (s.port p).st = 5 && !maClone s.act p && s.abit (R.MA_CFG p) 5 && decide (park ≤ darkNs s.act) then
        (s.forked p).foldl (fun s r => (s.smlFree r 3 []).postTally 0x09A r) s
      else s) s

def execDarkIntervalStart (s : State) : Res := s.does fun s => s.darkStart

/-! ## Read-back and the backchannel (R294 to R297, R308) -/

/-- PLANE_ACK (R308): ARR and TAP are given by their difference from DESC. -/
def Block.planeAck (s : Block) (p slot plane : Nat) (fsn arrDiff tapDiff : Word) : Block :=
  let q := s.port p
  match q.acks.find? fun l => l.slot == slot && l.plane == plane && l.fsn == fsn with
  | none => s
  | some l =>
    let s := s.modPort p fun q => { q with acks := q.acks.erase l }
    match s.shown p fsn with
    | none => s
    | some c =>
      if !bit (s.reg (R.MA_CHK_CFG p)) 0 || decide (16 ≤ plane) || (arrDiff == 0 && tapDiff == 0) then s
      else
        let desc := c.crc plane
        let flags := 2048 * (tapDiff != 0).toNat + 4096 * (arrDiff != 0).toNat + 8192 * (arrDiff != tapDiff).toNat
        let s := s.modPort p fun q =>
          { q with misFrame := true, chkLog := ([fsn, w32 (slot + 64 * plane + flags), desc, desc ^^^ tapDiff,
                     desc ^^^ arrDiff] :: q.chkLog).take 32 }
        (s.bump (R.MA_CHK_MISMATCH p)).maFault p 0x094 1 [pk p slot plane 0, desc, desc ^^^ arrDiff] .fb

def execPlaneAck (p slot plane _status : Nat) (fsn arrDiff tapDiff : Word) (s : State) : Res :=
  s.does fun s => if p < 4 then s.planeAck p slot plane fsn arrDiff tapDiff else s

/-- ACK_MISSING (R296): 100 us after the last data block. -/
def Block.ackMissing (s : Block) (p slot : Nat) : Block :=
  match (s.port p).acks.find? fun l => l.slot == slot && decide (l.endFt + 100000 ≤ s.tm.ft) with
  | none => s
  | some l => ((s.modPort p fun q => { q with acks := q.acks.erase l }).bump (R.MA_ACK_MISSING p)).maEvt p 0x095 [w32 (p + 256 * slot), l.fsn]

def execAckMissing (p slot : Nat) (s : State) : Res := s.does fun s => if p < 4 then s.ackMissing p slot else s

/-- ARRAY_TEMP (R295). -/
def execArrayTemp (p temp : Nat) (s : State) : Res :=
  s.does fun s => if p < 4 then (s.setReg (R.MA_ARRAY_TEMP p) (w32 (temp % 65536))).modPort p fun q => { q with tempAt := s.now } else s

/-- ARRAY_STATUS (R297): severity STOP aborts a running frame and enters ARRAY_FAULT. -/
def Block.arrayStatus (s : Block) (p code sev : Nat) (detail : Word) : Block :=
  if (s.port p).st = 0 then s
  else
  let s := s.setReg (R.MA_ARRAY_STATUS p) (w32 (code % 65536 + 65536 * (sev % 4)))
  let data := [w32 (p + 256 * sev + 65536 * code), detail]
  if sev = 2 then
    let s := if (s.port p).st = 5 then s.abortPort p 4 (s.port p).slot else s
    ((s.modPort p fun q => { q.drop with usable := false }).portGoto p 8).maFault p 0x097 3 data .clear
  else s.maEvt p 0x097 data

def execArrayStatus (p code sev : Nat) (detail : Word) (s : State) : Res :=
  s.does fun s => if p < 4 ∧ code < 65536 ∧ sev < 3 then s.arrayStatus p code sev detail else s

/-- ECHO_REPLY (R294): the token comes back; no rule gives it a further effect. -/
def execEchoReply (_p : Nat) (_token : Bytes) (s : State) : Res := s.does fun s => s

/-- BACKCHANNEL_BAD_MESSAGE (R294). -/
def execBackchannelBadMessage (p : Nat) (s : State) : Res := s.does fun s => if p < 4 then s.bump (R.MA_BC_ERR p) else s

/-- BC_LOST (R296). -/
def execBcLost (p : Nat) (s : State) : Res :=
  s.does fun s =>
    if p < 4 ∧ (s.port p).bcLock = true then
    (s.modPort p fun q => { q with bcLock := false, bcLostAt := some s.now }).maFault p 0x098 1 [w32 p] .auto else s

/-- BC_LOST_LONG (R296): the loss lasts 1 s. -/
def execBcLostLong (p : Nat) (s : State) : Res :=
  s.does fun s =>
    match (s.port p).bcLostAt with
    | some t => if p < 4 ∧ t + 1000000000 ≤ s.now then s.raise (maPage p) 0x098 2 (w32 p) .auto else s
    | none => s

/-- BC_REGAINED (R296): lock returns, the event says so, and the record closes. -/
def execBcRegained (p : Nat) (s : State) : Res :=
  s.does fun s =>
    if p < 4 ∧ (s.port p).bcLostAt.isSome = true then
    ((s.modPort p fun q => { q with bcLock := true, bcLostAt := none }).maEvt p 0x098 [w32 (p + 256)]).autoClose (maPage p) 0x098
      fun d => d == w32 p else s

/-! ## Dark transitions (R312) -/

/-- A port at FB_n of a dark transition, also one that is still DARK from the transition before: FRAME_ABORT and PARK on lanes
that are LOCKED, DARK; it trains where the rate changes, and takes the new mode. -/
def Block.darkPort (s : Block) (p : Nat) (oldRate oldMode : Nat) : Block :=
  let q := s.port p
  if !(q.st == 4 || q.st == 5 || q.st == 6) then s
  else
    let s := (if q.linkState = 2 then s.abortPark p else s.modPort p Port.drop).portGoto p 6
    let s := s.modPort p fun q => { q with held := 4, leaveK := 0, restartK := 0, darkSince := s.now }
    let rate := maRate s.act p != oldRate
    let mode := maMode s.act p != oldMode
    if rate then (s.modPort p fun q => { q with modePend := mode || q.modePend }).trainPort p 3
    else if q.linkState ≠ 2 then s.modPort p fun q => { q with modePend := mode || q.modePend, train := 3 }
    else if !mode then s
    else (s.modPort p fun q => { q with modeSent := true, parked := false }).smlFree p 5 [maMode s.act p]

end Sys2Proof.Machine
end

