-- ==== Sys2Proof/Machine/Thermal.lean ====
section
/-!
DEFINITION. Thermal management (R450 to R462): sensors, the laser thermal model, levels with dwell and hysteresis.  Temperatures
are in 1/16 degC.
-/
namespace Sys2Proof.Machine

/-- Numbers in rising order. -/
def insertI (x : Int) : List Int → List Int
  | [] => [x]
  | y :: l => if x ≤ y then x :: y :: l else y :: insertI x l

/-- The median of a list; the mean of the middle two where their number is even (log entry 31). -/
def medianI (l : List Int) : Int :=
  let t := l.foldl (fun a x => insertI x a) []
  let n := t.length
  if n % 2 = 1 then t.getD (n / 2) 0 else (t.getD (n / 2 - 1) 0 + t.getD (n / 2) 0) / 2

/-! ## Levels (R459 to R461) -/

/-- The thresholds of a class, in 1/16 degC. -/
structure Thresh where
  warn : Int
  throttle : Int
  shutdown : Int
  hyst : Int
  deriving DecidableEq, Repr

/-- Thresholds from a register of the layout of THERM_DIE_THR. -/
def threshOf (w : Word) : Thresh :=
  { warn := (bits w 0 8 * 16 : Nat), throttle := (bits w 8 8 * 16 : Nat), shutdown := (bits w 16 8 * 16 : Nat), hyst := (bits w 24 4 * 16 : Nat) }

/-- The code of a level: 0 normal, 1 warning, 2 throttle, 3 shutdown pending. -/
def Levels.code (q : Levels) : Nat := if q.pending then 3 else if q.throttle then 2 else if q.warn then 1 else 0

/-- A count that a condition steps and its absence restarts. -/
def runCount (n : Nat) (c : Bool) : Nat := if c then n + 1 else 0

/-- One value of a class (R459 to R461): `dwell` values make a dwell; `held` holds the class in throttle (R451, R455). -/
def Levels.step (q : Levels) (t : Thresh) (v : Int) (dwell now : Nat) (held : Bool) : Levels :=
  let entries := q.entries.filter fun e => now < e + 60000000000
  let hold := q.hold && !entries.isEmpty
  let wi := runCount q.warnIn (decide (t.warn ≤ v))
  let wo := runCount q.warnOut (decide (v < t.warn - t.hyst))
  let ti := runCount q.thrIn (decide (t.throttle ≤ v))
  let tOut := runCount q.thrOut (decide (v < t.throttle - t.hyst))
  let warn := if q.warn then decide (wo < dwell) else decide (dwell ≤ wi)
  let enter := !q.throttle && (decide (dwell ≤ ti) || held)
  let leave := q.throttle && decide (dwell ≤ tOut) && !held && (!hold || decide (q.since + 10000000000 ≤ now))
  let entries := if enter then now :: entries else entries
  let pending := if q.pending then decide (t.shutdown - t.hyst ≤ v) else decide (t.shutdown ≤ v)
  { warn := warn, throttle := (q.throttle || enter) && !leave, warnIn := wi, warnOut := wo, thrIn := ti, thrOut := tOut,
    pending := pending, sdRun := if pending then q.sdRun + 1 else 0, sdAt := if q.pending then q.sdAt else now, since := if enter then now else q.since,
    entries := entries, hold := hold || decide (8 < entries.length) }

/-- The events of a change of a class (Table 14.7): class 0 die, 1 laser model; `idx` the sensor or the group. -/
def Block.levelEvents (s : Block) (cl idx : Nat) (old new : Levels) (v : Int) : Block :=
  let data := [pk cl idx new.code old.code, w32 (unsgn 32 v), s.tm.fsn]
  let s := if old.code = new.code then s
    else if new.code = 2 then s.faultEv 0x1C 0x140 2 data .auto (pageInst 0x1C)
    else s.post 0x1C 0x140 data
  let s := if old.pending && !new.pending then s.postTally 0x145 (pageInst 0x1C) else s
  let s := if old.throttle && !new.throttle then s.autoClose 0x1C 0x140 fun d => bits d 0 8 == cl && (cl == 0 || bits d 8 8 == idx) else s
  let s := if !old.throttle && new.throttle then s.bump (if cl = 0 then R.THERM_DIE_THROTTLES else R.THERM_LASER_THROTTLES) else s
  if old.hold = new.hold then s else s.post 0x1C 0x141 [pk cl (if cl = 0 then 0 else idx) (if new.hold then 0 else 1) 0, s.tm.fsn]

/-! ## The die (R450, R451) -/

/-- Is a sensor read for the first time? -/
def Sensor.fresh (q : Sensor) : Bool := !q.valid && q.good == 0 && q.odd == 0

/-- One reading of a sensor, with the median of the other valid ones (R450). -/
def Sensor.read (q : Sensor) (t : Int) (med : Option Int) : Sensor :=
  let inRange := decide (-880 ≤ t) && decide (t ≤ 2400)
  let far := match med with | some m => decide (240 < (t - m).natAbs) | none => false
  let odd := if far then q.odd + 1 else 0
  let bad := !inRange || decide (10 ≤ odd)
  if q.valid || q.fresh then
    { temp := t, valid := !bad, odd := odd, good := if bad then 1 else 0 }
  else
    let good := if inRange && !far then q.good + 1 else 1
    { temp := t, valid := decide (101 ≤ good), odd := odd, good := good }

/-- Do the sensors convert: has the core supply and clock, as from BOOT on (R453)? -/
def Block.sensing (s : Block) : Bool := !(s.pw.state == .off || s.pw.state == .aon || s.pw.coreGated)

/-- TS_CONVERSION (R450, R451, R459, R460): the sixteen sensors convert; `t` are their readings. -/
def Block.tsConversion (s : Block) (t : List Int) : Block :=
  if !s.sensing then s
  else
  let old := s.th.ts
  let new := old.mapIdx fun i q =>
    let others := (old.mapIdx fun j r => (j, r)).filterMap fun e => if e.1 ≠ i ∧ e.2.valid = true then some (t.getD e.1 0) else none
    q.read (t.getD i 0) (if others.isEmpty then none else some (medianI others))
  let s : Block := { s with th := { s.th with ts := new } }
  let s := (List.range 16).foldl (fun s i =>
    match old[i]?, new[i]? with
    | some a, some b =>
      let lost := !b.valid && (a.valid || a.fresh)
      if lost then
        (s.bump R.THERM_SENSOR_FAULTS).faultEv 0x1C 0x142 1 [pk 0 i 0 0, w32 (unsgn 32 b.temp)] .auto (pageInst 0x1C)
      else if !a.valid && b.valid && !a.fresh then
        (s.post 0x1C 0x142 [pk 0 i 1 0, w32 (unsgn 32 b.temp)]).autoClose 0x1C 0x142 fun d => d == pk 0 i 0 0
      else s
    | _, _ => s) s
  let valid := (new.mapIdx fun i q => (i, q)).filter fun e => e.2.valid
  let low := decide (valid.length < 8)
  let hot := valid.foldl (fun (b : Option (Nat × Int)) e => match b with
    | some x => if x.2 < e.2.temp then some (e.1, e.2.temp) else b
    | none => some (e.1, e.2.temp)) none
  let (h, v) := hot.getD (s.th.hottest, s.th.die)
  let s := if low && !s.th.low then
      (s.postI 0x2B 0x20E 3 (pageInst 0x2B) false [w32 valid.length, s.tm.fsn]).raise 0x1C 0x20E 2 (w32 valid.length) .auto
    else if !low && s.th.low then s.autoClose 0x1C 0x20E fun _ => true else s
  let armed := s.pw.state != .boot
  let thr := threshOf (s.act R.THERM_DIE_THR)
  let lv := s.th.lvl.step thr v 100 s.now (low && armed)
  let lv := if armed then lv else { lv with warn := false, throttle := false, warnIn := 0, thrIn := 0, entries := [] }
  let oldLv := s.th.lvl
  let s : Block := { s with
    th := { s.th with die := v, hottest := h, lvl := lv, low := low,
                      thrSince := if lv.throttle then some (s.th.thrSince.getD s.now) else none,
                      coolSince := if v < thr.warn then some (s.th.coolSince.getD s.now) else none } }
  s.levelEvents 0 h oldLv lv v

def execTsConversion (t : List Int) (s : State) : Res := s.does fun s => s.tsConversion t

/-! ## The heat-sink inputs (R452) -/

/-- A point of the NTC table. -/
def Block.ntcPoint (s : Block) (k : Nat) : Int := sgn 16 (bits (s.act (win 0x1C (0x100 + k))) 0 16)

/-- The temperature of a code (R452). -/
def Block.ntcTemp (s : Block) (c : Nat) : Int :=
  if 4096 ≤ c then s.ntcPoint 32
  else s.ntcPoint (c / 128) + rdiv ((s.ntcPoint (c / 128 + 1) - s.ntcPoint (c / 128)) * (c % 128 : Nat)) 128

/-- NTC_CONVERSION (R452). -/
def Block.ntcConversion (s : Block) (j c : Nat) : Block :=
  match s.th.ntc[j]? with
  | none => s
  | some q =>
    if !s.sensing then s
    else
    let ok := decide (16 ≤ c) && decide (c ≤ 4080)
    let t := s.ntcTemp c
    let hist := (s.now, t) :: q.hist.filter fun e => s.now < e.1 + 10000000000
    let s : Block := { s with th := { s.th with ntc := setAt s.th.ntc j { code := c, temp := t, valid := ok, hist := hist } } }
    let was := q.valid || q.hist.isEmpty
    if !ok && was then
      (s.bump R.THERM_SENSOR_FAULTS).faultEv 0x1C 0x142 2 [pk 1 j 0 0, w32 (unsgn 32 t)] .auto (pageInst 0x1C)
    else if ok && !q.valid && !q.hist.isEmpty then
      (s.post 0x1C 0x142 [pk 1 j 1 0, w32 (unsgn 32 t)]).autoClose 0x1C 0x142 fun d => d == pk 1 j 0 0
    else s

def execNtcConversion (j c : Nat) (s : State) : Res := s.does fun s => s.ntcConversion j c

/-! ## The laser thermal model (R454 to R457) -/

/-- A word of a model group's configuration. -/
def Block.mgWord (s : Block) (g w : Nat) : Word := s.act (win 0x1C (g * 8 + w))

/-- The mean driven code of a slice channel over the last frame (R454), in 2^-16 codes; one of LG_HL is driven throughout (R357). -/
def Block.meanSlice (s : Block) (m : Nat) : Nat :=
  let c := (m - 64) / 512
  let sl := (m - 64) % 512 / 8
  let g := (memCfg s.act m).group
  let ws := (s.port g).words
  let slots := calSlots ws
  let run (i : Nat) : Nat := ((List.range (i + 1)).filter (chgAt slots)).length
  let code (r : Nat) : Nat := (entryOf ((aget? (s.chn c).bank sl).getD []) r).getD (m % 8) 0
  let t := (slots.mapIdx fun i x => if x.plane = 16 then 0 else x.dwell * 10 * code (run i)).sum
  if g = 4 then code 1 * 65536
  else t * 65536 / max 1 (s.tm.num / max 1 s.tm.den)

/-- The mean of I x V of a string over the samples its loop took since the last update; 0 where it took none (log entry 215). -/
def Member.meanPower (q : Member) : Nat := q.pSum / max 1 q.pCnt

/-- The power of a group, in U16.16 watts (R454). -/
def Block.groupPower (s : Block) (g : Nat) : Nat :=
  let ps := bits (s.mgWord g 4) 0 16
  let str := ((List.range 48).filter fun n => s.modelGroup n == g).map fun n => (s.member n).meanPower
  let slc := (s.members.filter fun m => decide (64 ≤ m) && s.modelGroup m == g).map fun m =>
    s.meanSlice m * ((aget? (s.chn ((m - 64) / 512)).fsma ((m - 64) % 512 / 8)).getD 0)
  (rdiv ((str.sum * ps * 4096 : Nat) : Int) (32768 * 4095)).toNat +
    (rdiv ((slc.sum * bits (s.mgWord g 5) 0 16 : Nat) : Int) (32768 * 1000 * 256)).toNat

/-- a_k of a stage, to 2^-16. -/
def stageGain (tau : Nat) : Int := 65536 - rdiv (fpExp (-((fpOne / max 1 tau : Nat) : Int))) (fpOne / 65536)

/-- The NTC a group's model takes: its own, else the highest valid one (R455). -/
def Block.groupNtc (s : Block) (g : Nat) : Option Int :=
  let own := s.th.ntc[bits (s.mgWord g 0) 1 3]?
  match own with
  | some q => if q.valid then some q.temp
    else ((s.th.ntc.filter fun r => r.valid).map fun r => r.temp).foldl (fun b t => some (match b with | some x => max x t | none => t)) none
  | none => none

/-- One model group's update (R454 to R457).  Where no NTC is valid, t_mg keeps its last value (log entry 252). -/
def Block.modelUpdate (s : Block) (g : Nat) : Block :=
  match s.th.mg[g]? with
  | none => s
  | some q =>
    if !bit (s.mgWord g 0) 0 then s
    else
      let p : Int := s.groupPower g
      let x := (List.range 3).map fun k =>
        let w := s.mgWord g (k + 1)
        let x := q.x.getD k 0
        x + prodQ (prodQ (bits w 0 16 : Nat) p 16 - x) (stageGain (bits w 16 16)) 16
      let ntc := s.groupNtc g
      let t := ntc.getD q.tmg + (if ntc.isSome then rdiv x.sum 16 else 0)
      let thr := threshOf (s.act R.THERM_LASER_THR)
      let lv := q.lvl.step thr t 50 s.now ntc.isNone
      let step := s.afld R.THERM_LASER_THROT 0 16
      let o := if !lv.throttle then min 0x8000 (q.o + step)
        else if thr.throttle ≤ t then max (min q.o (s.afld R.THERM_LASER_THROT 16 16)) (q.o - step) else q.o
      let s : Block := { s with th := { s.th with mg := setAt s.th.mg g { x := x, tmg := t, o := o, lvl := lv, last := some s.now, lost := false } } }
      s.levelEvents 1 g q.lvl lv t

/-- LASER_MODEL_UPDATE (R454, R457): every 1 ms; the class is armed from STANDBY on (R453).  The strings' powers are taken anew. -/
def execLaserModelUpdate (s : State) : Res :=
  s.does fun s =>
    match s.pw.state with
    | .off | .aon | .boot => s
    | _ => ((List.range 12).foldl Block.modelUpdate s).modMembers (List.range 48) fun q => { q with pSum := 0, pCnt := 0 }

/-- A class as a commit of THERM applies (R462): every entering and leaving count restarts; a pending shutdown stays as its value says. -/
def Levels.restart (q : Levels) (t : Thresh) (v : Int) : Levels :=
  let p := q.pending && decide (t.shutdown - t.hyst ≤ v)
  { q with warnIn := 0, warnOut := 0, thrIn := 0, thrOut := 0, pending := p, sdRun := if p then q.sdRun else 0 }

/-- A commit that changes thresholds applies (R462); a shutdown that is pending no more is reported like any other. -/
def Block.thermApplied (s : Block) : Block :=
  let d := s.th.lvl.restart (threshOf (s.act R.THERM_DIE_THR)) s.th.die
  let t := ({ s with th := { s.th with lvl := d } } : Block).levelEvents 0 s.th.hottest s.th.lvl d s.th.die
  (List.range 12).foldl (fun (t : Block) g =>
    match t.th.mg[g]? with
    | some q =>
      let l := q.lvl.restart (threshOf (t.act R.THERM_LASER_THR)) q.tmg
      ({ t with th := { t.th with mg := setAt t.th.mg g { q with lvl := l } } } : Block).levelEvents 1 g q.lvl l q.tmg
    | none => t) t

end Sys2Proof.Machine
end

