-- ==== Sys2Proof/Machine/Ring.lean ====
section
/-!
DEFINITION. The command and event rings (R104 to R117, R668): the front end, the life of a command, and the event writer.
-/
namespace Sys2Proof.Machine

/-! ## The life of a command (R112, R113) -/

/-- The command that may start now: passed on with that opcode, waiting, a housekeeping core running, and, with FENCE, every
earlier command complete (R113). -/
def Block.startable (s : Block) (cseq : Word) (opcode : Nat) : Option Cmd :=
  match s.cmd cseq with
  | some c =>
    if c.opcode = opcode ∧ c.stage = 0 ∧ s.hkUp ∧ (c.fence = false ∨ s.rg.inflight.head?.map (·.cseq) = some cseq) then some c else none
  | none => none

/-- The oldest command of a CSEQ takes a stage. -/
def stageFirst (cseq : Word) (st : Nat) : List Cmd → List Cmd
  | [] => []
  | c :: l => if c.cseq == cseq then { c with stage := st } :: l else c :: stageFirst cseq st l

/-- The stage of a command in flight (Table 3.21). -/
def Block.setStage (s : Block) (cseq : Word) (st : Nat) : Block :=
  { s with rg := { s.rg with inflight := stageFirst cseq st s.rg.inflight } }

/-- RING_CMD_SEQ_DONE: the newest CSEQ that has completed together with every command consumed before it. -/
def Block.seqDone (s : Block) : Word :=
  match s.rg.inflight with
  | c :: _ => c.prev
  | [] => s.rg.lastCseq

/-- A parameter field of a command: bytes `off` to `off + n - 1` of its 64-byte entry (Table 3.15). -/
def Cmd.par (c : Cmd) (off n : Nat) : Nat := field c.param (off - 16) n

/-! ## The front end (R105 to R111) -/

/-- The entries of the command ring and of the event ring. -/
def Block.cmdEntries (s : Block) : Nat := 2 ^ s.fld R.RING_CMD_SIZE 0 5
def Block.evtEntries (s : Block) : Nat := 2 ^ s.fld R.RING_EVT_SIZE 0 5

/-- R105: the commands not yet consumed. -/
def Block.outstanding (s : Block) : Nat := (s.reg R.RING_CMD_TAIL - s.reg R.RING_CMD_HEAD).toNat

/-- R106: the free entries of the event ring. -/
def Block.evtUsed (s : Block) : Nat := (s.reg R.RING_EVT_TAIL - s.reg R.RING_EVT_HEAD).toNat
def Block.evtFree (s : Block) : Nat := s.evtEntries - s.evtUsed

/-- A write of RING_CMD_TAIL (R106). -/
def Block.cmdTail (s : Block) (v : Word) : Block :=
  if s.cmdEntries < (v - s.reg R.RING_CMD_HEAD).toNat then s.setFld R.RING_STATUS 3 1 1 else s.setReg R.RING_CMD_TAIL v

def execRingCmdTailWrite (v : Word) (s : State) : Res := s.does fun s => s.onWrite 0x04 fun s => s.cmdTail v

/-- May the front end read an entry (R109, R111, R112, R32)? -/
def Block.fetching (s : Block) : Bool :=
  s.hostOk && bit (s.reg R.RING_CTRL) 0 && s.outstanding != 0 && s.fld R.RING_STATUS 0 2 == 0 && s.hkUp &&
    decide (s.rg.inflight.length < 64)

/-- A fetch that fails (R111). -/
def Block.fetchFault (s : Block) (kind : Nat) : Block :=
  (s.setFld R.RING_STATUS 1 1 1).post 0x04 0x00E [s.reg R.RING_CMD_HEAD, w32 kind]

/-- An event of the RING page whose DATA begins with a CSEQ (Tables 3.18, 3.19). -/
def Block.postCseq (s : Block) (ty : Nat) (data : List Word) : Block := s.postI 0x04 ty 0 (pageInst 0x04) true data

/-- An entry is compared and passed on, stopped at, or dropped (R109, R113).  One whose PARAM_LEN exceeds 48 is never in flight: it
completes here with BAD_PARAM. -/
def Block.take (s : Block) (e : List Byte) : Block :=
  let cseq := w32 (field e 0 4)
  let exp := s.reg R.RING_CMD_SEQ_EXPECT
  let head := s.reg R.RING_CMD_HEAD
  if cseq = exp then
    let c : Cmd := { cseq := cseq, opcode := field e 4 2, ack := natBit (field e 6 2) 0, fence := natBit (field e 6 2) 1,
                     len := field e 8 4, tag := w32 (field e 12 4), param := (e.drop 16).take 48, prev := s.rg.lastCseq,
                         stage := 0, acceptAt := s.now }
    let s := s.setRegs [(R.RING_CMD_SEQ_EXPECT, exp + 1), (R.RING_CMD_HEAD, head + 1)]
    let s : Block := { s with rg := { s.rg with inflight := if 48 < c.len then s.rg.inflight else s.rg.inflight ++ [c], lastCseq := cseq } }
    let s := if c.ack then s.postI 0x04 0x008 0 (pageInst 0x04) true [cseq, w32 c.opcode, c.tag] else s
    if 48 < c.len then s.postComplete c 2 none else s
  else if newer cseq exp then (s.setFld R.RING_STATUS 0 1 1).postCseq 0x00A [exp, cseq, head]
  else ((s.setReg R.RING_CMD_HEAD (head + 1)).bump R.RING_DUP_COUNT).postCseq 0x00B [exp, cseq, head]

/-- The address of an entry of a ring (R105): its base, its index and the entry size. -/
def Block.ringAddr (s : Block) (lo hi idx entries size : Nat) : Nat :=
  (s.reg hi).toNat * 0x100000000 + s.fld lo 12 20 * 4096 + idx % entries * size

/-- The next command entry: the bytes the host returns, or those at the device virtual address.  With the tunnel down a host
request fails with HOST_ABORT (R166). -/
def Block.cmdEntry (s : Block) (host : Bytes) : Block × Option (List Byte) × Nat :=
  if bit (s.reg R.RING_CTRL) 2 then
    match s.readVirt 0x10 (s.ringAddr R.RING_CMD_BASE_LO R.RING_CMD_BASE_HI (s.reg R.RING_CMD_HEAD).toNat s.cmdEntries 64) 64 none [] with
    | (s, bs, none) => (s, some bs, 0)
    | (s, _, some (f, _)) => (s, none, f.kind)
  else if s.tunnelUp then (s, some (padBytes 64 host), 0) else (s, none, 4)

/-- CMD_FETCH_FAULT (R111): a host abort (kind 4) or a timeout (kind 5). -/
def execCmdFetchFault (kind : Nat) (s : State) : Res := s.does fun s => if s.fetching then s.fetchFault kind else s

/-- RING_CMD_RESYNC (R110). -/
def Block.ringResync (s : Block) (v : Word) : Block :=
  ((s.setReg R.RING_CMD_SEQ_EXPECT v).setFld R.RING_STATUS 0 1 0).postCseq 0x00D [s.reg R.RING_CMD_SEQ_EXPECT, v]

def execRingCmdResync (v : Word) (s : State) : Res := s.does fun s => s.onStrobe fun s => s.ringResync v

/-- RESET_CAUSE is the first event after EVT_EN is first set following a reset (R163); the records of an earlier shutdown or power
failure not yet reported follow it, and then their report words (R466, R511, R512). -/
def Block.postCause (s : Block) : Block :=
  if s.rg.causePending then
    let l := s.rg.reports
    let s := ({ s with rg := { s.rg with causePending := false,
                                         reports := [] } } : Block).post 0x01 0x011 [s.reg R.PWR_RESET_CAUSE, s.reg R.BOOT_STATUS]
    l.foldl (fun s (page, ty, data, kind, seq) =>
      let r : SeedReq := { kind := 3, ty := kind, signed := false, data := leBytes 4 seq.toNat, addr := 0, cseq := none, why := .report }
      let s := s.postI page ty (if ty = 0x144 then 5 else 0) (pageInst page) false data
      { s with se := { s.se with queue := s.se.queue ++ [r] } }) s
  else s

/-- RING_CTRL takes a value (R107, R108, R111, R116). -/
def Block.ringCtrl (s : Block) (v : Word) : Block :=
  let old := s.reg R.RING_CTRL
  let s := s.setReg R.RING_CTRL (w32 (bits v 0 4))
  let s := if !bit old 0 && bit v 0 then (s.setReg R.RING_CMD_HEAD (s.reg R.RING_CMD_TAIL)).setFld R.RING_STATUS 1 1 0 else s
  if !bit old 1 && bit v 1 then (s.setReg R.RING_EVT_HEAD (s.reg R.RING_EVT_TAIL)).postCause
  else if bit old 1 && !bit v 1 then { s with rg := { s.rg with evq := [] } }
  else s

def execCmdEnSet (s : State) : Res := s.does fun s => s.onWrite 0x04 fun s => s.ringCtrl (setBit (s.reg R.RING_CTRL) 0 true)
def execCmdEnClear (s : State) : Res := s.does fun s => s.onWrite 0x04 fun s => s.ringCtrl (setBit (s.reg R.RING_CTRL) 0 false)
def execEvtEnSet (s : State) : Res := s.does fun s => s.onWrite 0x04 fun s => s.ringCtrl (setBit (s.reg R.RING_CTRL) 1 true)
def execEvtEnClear (s : State) : Res := s.does fun s => s.onWrite 0x04 fun s => s.ringCtrl (setBit (s.reg R.RING_CTRL) 1 false)

/-! ## The event writer (R114, R115, R668) and vector 63 (R96) -/

/-- The condition of vector 63 becomes true (R95, R96). -/
def Block.raise63 (s : Block) : Block :=
  if s.rg.vec63 then s else ({ s with rg := { s.rg with vec63 := true } } : Block).message 63

/-- Does the count of entries reach COUNT (R96)? -/
def Block.modCheck (s : Block) : Block :=
  if max 1 (s.fld R.RING_EVT_MOD 0 16) ≤ s.rg.modCount then s.raise63 else s

/-- An entry has been written: the indices step and the moderation counts it. -/
def Block.evtStepped (s : Block) : Block :=
  let s := s.setRegs [(R.RING_EVT_TAIL, s.reg R.RING_EVT_TAIL + 1), (R.RING_EVT_SEQ_NEXT, s.reg R.RING_EVT_SEQ_NEXT + 1)]
  let s : Block := { s with rg := { s.rg with modCount := s.rg.modCount + 1, modSince := some (s.rg.modSince.getD s.now) } }
  s.modCheck

/-- The bytes of an event entry (Table 3.18). -/
def eventBytes (eseq : Word) (e : Event) : List Byte :=
  leBytes 4 eseq.toNat ++ leBytes 2 (e.ty % 1024 + 1024 * e.page) ++ leBytes 2 (e.cls % 8 + 8 * e.cmd.toNat) ++
    leBytes 4 e.fsn.toNat ++ leBytes 8 e.ft ++ padBytes 12 (wordBytes e.data)

/-- An entry is written at TAIL: true where its write took place. -/
def Block.putEvent (s : Block) (e : Event) : Block × Bool :=
  let a := s.ringAddr R.RING_EVT_BASE_LO R.RING_EVT_BASE_HI (s.reg R.RING_EVT_TAIL).toNat s.evtEntries 32
  let bs := eventBytes (s.reg R.RING_EVT_SEQ_NEXT) e
  if bit (s.reg R.RING_CTRL) 3 then
    match s.writeVirt 0x10 a none bs with
    | (s, none) => (s.evtStepped, true)
    | (s, some _) => (s, false)
  else if s.tunnelUp then ((s.emit (.hostWrite a bs)).evtStepped, true) else (s, false)

/-- OVERFLOW (Table 3.19). -/
def Block.overflowEvent (s : Block) : Event :=
  { ty := 0x00C, page := 0x04, cls := 0, cmd := false, fsn := s.tm.fsn, ft := s.tm.ft,
    data := [s.rg.firstLost, w32 s.rg.lost, 0], held := false }

/-- An event is lost: it consumes its ESEQ and the counts grow (R115). -/
def Block.loseEvent (s : Block) : Block :=
  let e := s.reg R.RING_EVT_SEQ_NEXT
  let s := (s.setReg R.RING_EVT_SEQ_NEXT (e + 1)).bump R.RING_EVT_LOST
  { s with rg := { s.rg with firstLost := if s.rg.lost = 0 then e else s.rg.firstLost, lost := s.rg.lost + 1 } }

/-- A pending OVERFLOW is written where an entry is free and EVT_EN is 1 (R115, R116); where its write fails it stays pending
(R668). -/
def Block.putOverflow (s : Block) : Block :=
  if s.rg.lost = 0 || s.evtFree = 0 || !bit (s.reg R.RING_CTRL) 1 then s
  else match s.putEvent s.overflowEvent with
    | (t, true) => { t with rg := { t.rg with lost := 0 } }
    | (t, false) => t.setFld R.RING_STATUS 5 1 1

/-- The event to write next and those behind it: the oldest, but an event that firmware had still to generate as a restart began waits until
a housekeeping core runs (R117). -/
def Block.nextEvent (s : Block) : Option (Event × List Event) :=
  (s.rg.evq.find? fun e => s.hkUp || !e.held).map fun e => (e, s.rg.evq.erase e)

/-- EVENT_WRITE (R115, R117): a pending OVERFLOW comes first; then the next event is written, or lost for want of two entries. -/
def Block.eventWrite (s : Block) : Block :=
  let s := s.putOverflow
  match s.nextEvent with
  | none => s
  | some (e, l) =>
    let s : Block := { s with rg := { s.rg with evq := l } }
    if s.evtFree < 2 then s.loseEvent.putOverflow
    else match s.putEvent e with
      | (t, true) => t
      | (t, false) => (t.loseEvent.setFld R.RING_STATUS 5 1 1).putOverflow

def execEventWrite (s : State) : Res := s.does fun s => if s.hostOk && bit (s.reg R.RING_CTRL) 1 then s.eventWrite else s

/-- EVENT_WRITE_FAULT (R668): the entry write ends in an abort or a timeout.  A pending OVERFLOW that fails stays pending, and the
event behind it is lost too: its count goes on growing. -/
def Block.eventWriteFault (s : Block) : Block :=
  match s.nextEvent with
    | none => if s.rg.lost ≠ 0 ∧ s.evtFree ≠ 0 then s.setFld R.RING_STATUS 5 1 1 else s
    | some (_, l) => ({ s with rg := { s.rg with evq := l } } : Block).loseEvent.setFld R.RING_STATUS 5 1 1

def execEventWriteFault (s : State) : Res := s.does fun s => if s.hostOk && bit (s.reg R.RING_CTRL) 1 then s.eventWriteFault else s

/-- EVT_MOD_TIMEOUT (R96): TIME µs after the first entry. -/
def execEvtModTimeout (s : State) : Res :=
  s.does fun s =>
    match s.rg.modSince with
    | some t =>
      let us := s.fld R.RING_EVT_MOD 16 16
      if us = 0 || s.rg.vec63 then s else (s.advance (t + us * 1000 - s.now)).raise63
    | none => s

/-- A write of RING_EVT_HEAD (R96, R106). -/
def Block.evtHead (s : Block) (v : Word) : Block :=
  if s.evtEntries < (s.reg R.RING_EVT_TAIL - v).toNat then s.setFld R.RING_STATUS 4 1 1
  else
    let s := s.setReg R.RING_EVT_HEAD v
    let n := s.evtUsed
    let s : Block := { s with rg := { s.rg with vec63 := false, modCount := n, modSince := if n = 0 then none else some s.now } }
    (if n = 0 then s.unpend 63 else (s.unpend 63).modCheck).putOverflow

def execRingEvtHeadWrite (v : Word) (s : State) : Res := s.does fun s => s.onWrite 0x04 fun s => s.evtHead v

/-! ## Commands without a chapter of their own -/

/-- NOP (R113). -/
def execNop (cseq : Word) (s : State) : Res :=
  s.does fun s =>
    match s.startable cseq 1 with
    | some _ => s.complete cseq 0
    | none => s

/-- BAD_OPCODE (R113): a reserved opcode. -/
def execBadOpcode (cseq : Word) (s : State) : Res :=
  s.does fun s =>
    match s.cmd cseq with
    | some c => if (c.opcode = 0 ∨ 0x10 ≤ c.opcode) ∧ c.stage = 0 ∧ s.hkUp ∧ (c.fence = false ∨ s.rg.inflight.head?.map (·.cseq) = some cseq)
      then s.complete cseq 1 else s
    | none => s

/-- SNAPSHOT (R118): it waits for the next FB; a short buffer is BAD_PARAM. -/
def execSnapshot (cseq : Word) (s : State) : Res :=
  s.does fun s =>
    match s.startable cseq 2 with
    | some c =>
      if c.par 28 4 < 262144 then s.complete cseq 2
      else ({ s with rg := { s.rg with snapWait := s.rg.snapWait ++ [cseq] } } : Block).setStage cseq 2
    | none => s

end Sys2Proof.Machine
end

