-- ==== Sys2Proof/Machine/Budget.lean ====
section
/-!
DEFINITION. The planned load of the channel pairs (R18 to R24, R209, R333, R597) and guest regions (R475).  A load is kept in
units of bit/s / (100 x NUM), NUM / DEN ns being the frame period, so that no term is rounded.  Functions take the register
view `v` a validation or a report is for.
-/
namespace Sys2Proof.Machine

/-- The frame period of a view: NUM and DEN of NUM / DEN ns (R46). -/
def periodOf (v : Nat → Word) : Nat × Nat :=
  ((v R.TIME_PERIOD_NUM_HI).toNat * 0x100000000 + (v R.TIME_PERIOD_NUM_LO).toNat, (v R.TIME_PERIOD_DEN).toNat)

/-- The raw rate of a pair, two channels of 16 bits, in Mbit/s. -/
def rawRate (sp : Nat) : Nat := 32 * mtps sp

/-- A term of so many bits per frame, at a factor in hundredths. -/
def perFrame (v : Nat → Word) (bits factor : Nat) : Nat := bits * factor * 1000000000 * (periodOf v).2

/-- A term of so many bits per second, at a factor in hundredths. -/
def perSecond (v : Nat → Word) (bits factor : Nat) : Nat := bits * factor * (periodOf v).1

/-! ## The clients -/

/-- A port's deck: every slot load is a read, every plane a write (R19). -/
def Block.deckLoad (s : Block) (v : Nat → Word) (p : Nat) : Nat :=
  match s.geom v p with
  | some (w, h) =>
    if buckEn v p && maEn v p then
      let loads := ((calSlots (activeCal v p)).filter fun x => decide (x.plane < 16)).length
      perFrame v (w * h) (100 * loads + 115 * buckNative v p)
    else 0
  | none => 0

/-- The highlight lines (R333), whether or not the split or the beam is on. -/
def hlLoad (v : Nat → Word) : Nat := perFrame v (bits (v R.HSB_SPLIT_LIMIT) 0 11 * bits (v R.HSB_HL_GRID) 0 12 * 64) 215

/-- The charged size of a surface in bits, times 16 (R209). -/
def chargedBits (v : Nat → Word) (w h f : Nat) (cmp : Bool) : Nat :=
  let area := cdiv w 64 * 64 * (cdiv h 32 * 32)
  if cmp then area * fmtBpp f * bits (v R.STORE_CMP_CHARGE) 0 5 + cdiv w 64 * cdiv h 32 * 32 * 16 else area * fmtBpp f * 16

/-- The surface that stands for a source in the load: the first of its set, also where the set mixes sizes (R209; log entry 235). -/
def srcFirst (v : Nat → Word) (n : Nat) : Nat := bits (v (R.INGEST_SRC_SET n)) 0 6

/-- The surface the configuration reads: the fixed one, or that of the selected source. -/
def readSurf (v : Nat → Word) : Nat :=
  if bits (v R.STORE_FRAME_CFG) 0 2 = 0 then bits (v R.STORE_FRAME_SURF) 0 6 else srcFirst v (bits (v R.STORE_FRAME_CFG) 4 3)

/-- A source's charged bits times 16, at its configured format. -/
def Block.srcBits (s : Block) (v : Nat → Word) (n : Nat) : Nat :=
  let u := s.surf (srcFirst v n)
  let g := v (R.INGEST_SRC_CFG n)
  chargedBits v u.width u.height (bits g 1 4) (bit g 5)

/-- The planned load of CP8 and CP9 together (R209). -/
def Block.storeLoad (s : Block) (v : Nat → Word) : Nat :=
  let writes := ((List.range 8).map fun n =>
    let g := v (R.INGEST_SRC_CFG n)
    if bit g 0 then perSecond v (s.srcBits v n * bits g 16 9) 115 else 0).sum
  let u := s.surf (readSurf v)
  (writes + perFrame v (chargedBits v u.width u.height u.format u.cmp) 115) / 16

/-- The spill of the warp (R242). -/
def spillLoad (v : Nat → Word) (kib : Nat) : Nat := perFrame v (kib * 8192) 215

/-- HOLD_CFG.GR_MASK as guest segments, and the number of segments S of the holdover ring (R597). -/
def ringSegs (v : Nat → Word) : Nat := 1 + (maskBits 8 (bits (v R.HOLD_CFG) 16 8)).length

/-- The charge of one ring segment (R597), where a ring is configured. -/
def segCharge (v : Nat → Word) : Nat :=
  if bits (v R.HOLD_RING_SIZE) 0 11 = 0 then 0
  else
    let rate := bits (v (R.INGEST_SRC_CFG (bits (v R.STORE_FRAME_CFG) 4 3))) 16 9
    perSecond v (bits (v R.HOLD_SLOT_SIZE) 0 11 * 2097152 * 8 * rate) 115 / ringSegs v

/-- The owner load of CP10: segment 0, and as much again in reads for a fabric source (R597). -/
def ringLoad (v : Nat → Word) : Nat :=
  let n := bits (v R.STORE_FRAME_CFG) 4 3
  segCharge v * (if 2 ≤ n ∧ n ≤ 5 then 2 else 1)

/-- The planned load of a pair (R18, R19); the deck's load stands on each pair of its port, as in the spec's example. -/
def Block.pairLoad (s : Block) (v : Nat → Word) (spillKib q : Nat) : Nat :=
  if q ≤ 5 then s.deckLoad v (q / 2)
  else if q = 6 then s.deckLoad v 3
  else if q = 7 then hlLoad v + spillLoad v spillKib
  else if q = 8 ∨ q = 9 then s.storeLoad v / 2
  else if q = 10 then ringLoad v
  else 0

/-- A load as a share of the raw rate in thousandths. -/
def shareOf (v : Nat → Word) (sp load : Nat) : Nat := load * 1000 / (rawRate sp * 100000000 * max 1 (periodOf v).1)

/-- Does a load, with `extra` hundredths of the raw rate lent, stay within 72 % (R20, R22)? -/
def within72 (v : Nat → Word) (sp load extra : Nat) : Bool :=
  decide (load ≤ (72 - extra) * rawRate sp * 1000000 * (periodOf v).1)

/-! ## Guest regions (R475) -/

/-- A guest region: base, size in bytes, owner, enabled. -/
structure Region where
  base : Nat
  size : Nat
  owner : Nat
  en : Bool
  deriving DecidableEq, Repr

/-- Region r in a view. -/
def regionOf (v : Nat → Word) (r : Nat) : Region :=
  let g := v (win 0x1D (2 * r + 1))
  { base := bits (v (win 0x1D (2 * r))) 0 27 * 2097152, size := bits g 16 16 * 2097152, owner := bits g 8 8, en := bit g 0 }

/-- GUEST_GRANT as the regions change: a region that ends, or passes to another owner or pair, is released; then the new one is granted
(Table 15.7, log entry 253). -/
def Block.guestGrants (s : Block) (old : Nat → Word) : Block :=
  (List.range 8).foldl (fun s r =>
    let a := regionOf old r
    let b := regionOf s.act r
    let same := a.en && b.en && a.owner == b.owner && pairOf a.base == pairOf b.base
    let s := if a.en && !same then s.post 0x1D 0x157 [pk r 1 a.owner (pairOf a.base)] else s
    if b.en && !same then s.post 0x1D 0x157 [pk r 0 b.owner (pairOf b.base)] else s) s

/-- Is a guest region enabled on a pair? -/
def guestOn (v : Nat → Word) (q : Nat) : Bool :=
  (List.range 8).any fun r => (regionOf v r).en && pairOf (regionOf v r).base == q

/-- The set point in force in a view (R483): the slower of the committed one and the thermal cap. -/
def Block.spIn (s : Block) (v : Nat → Word) : Nat := max (bits (v R.DMC_FREQ_CFG) 0 2) s.dc.cap

/-- The set point in force. -/
def Block.spNow (s : Block) : Nat := s.spIn s.act

/-- The pairs above 72 % of their raw rate at a set point (R20). -/
def Block.overBudget (s : Block) (v : Nat → Word) (spillKib sp : Nat) : List Nat :=
  (List.range 12).filter fun q => !within72 v sp (s.pairLoad v spillKib q) 0

/-- The pairs whose guest region leaves them above 72 % with its 10 % (R22). -/
def Block.overGuest (s : Block) (v : Nat → Word) (spillKib sp : Nat) : List Nat :=
  (List.range 12).filter fun q => guestOn v q && !within72 v sp (s.pairLoad v spillKib q) 10

/-- R483: the set points a view is validated at: the one it would produce and, where that differs from the one in force, the
slower of the two. -/
def Block.budgetSps (s : Block) (v : Nat → Word) : List Nat :=
  let a := s.spIn v
  if a = s.spNow then [a] else [a, max a s.spNow]

end Sys2Proof.Machine
end

