-- ==== Sys2Proof/Machine/Dram.lean ====
section
/-!
DEFINITION. The DRAM controller (ch. 15): uncorrectable and corrected blocks, scheduling order, refresh, set points, drift trim,
self-refresh, service and the compatibility sweep.
-/
namespace Sys2Proof.Machine

/-- A pair takes a state, with DRAM_PAIR_STATE. -/
def Block.pairGoto (s : Block) (q st : Nat) : Block :=
  let old := (s.pair q).st
  if old = st then s else (s.modPair q fun x => { x with st := st }).postI 0x1E 0x150 0 q false [pk q st old 0]

/-- Is a pair in service: IN_SERVICE, in or on the way into or out of self-refresh, or changing? -/
def Block.pairUp (s : Block) (q : Nat) : Bool := let t := (s.pair q).st; decide (2 ≤ t) && decide (t ≤ 6)

/-! ## Errors (R472 to R474) -/

/-- The address registers and counts of an uncorrectable block, with DRAM_UE and its record (R473). -/
def Block.uncorrectable (s : Block) (addr client : Nat) : Block :=
  let blk := addr / 64
  let q := pairOf addr
  let a := blk * 64
  let s : Block := { s with dc := { s.dc with poison := blk :: s.dc.poison.filter fun b => b != blk } }
  let s := (s.bump (R.DMCP_ECC_UE q)).bump R.DMC_ECC_UE
  let s := s.setRegs [(R.DMC_UE_ADDR_LO, w32 a), (R.DMC_UE_ADDR_HI, w32 (a / 0x100000000 % 65536 + 65536 * client))]
  s.faultEv 0x1D 0x153 1 [w32 a, w32 (a / 0x100000000 % 65536 + 65536 * client), s.tm.fsn] .fb q

/-- The port whose deck a pair holds (Table 1.3). -/
def deckPort (q : Nat) : Nat := if q = 6 then 3 else q / 2

/-- Table 15.1: what the reading client gets. -/
def Block.ueClient (s : Block) (addr client : Nat) : Block :=
  let blk := addr / 64
  if client = 0 then
    let p := deckPort (pairOf addr)
    if p < 4 ∧ (s.port p).loading = true then s.abortPort p 2 (s.port p).loadNext else s
  else if client = 1 then
    let zero (f : PipeFrame) : PipeFrame := { f with dram := ssets memDflt f.dram ((List.range 64).map fun i => (blk * 64 + i, 0)) }
    { s with pp := { s.pp with frame := s.pp.frame.map zero } }
  else if client = 2 then { s with dc := { s.dc with hlZero := blk :: s.dc.hlZero } }
  else s

/-- DRAM_UE (R472, R473): a read by a client, coded as in DMC_UE_ADDR_HI, of a block that differs from what was stored in the bits of `errs`
(place among the 68 bytes, bits), or that is poisoned, and that the code cannot correct. -/
def execDramUe (addr client : Nat) (errs : List (Nat × Nat)) (s : State) : Res :=
  s.does fun s =>
    if inDram addr ∧ client < 8 ∧ (eccVerdict errs = .uncorrectable ∨ s.dc.poison.contains (addr / 64) = true) then
      (s.uncorrectable addr client).ueClient addr client
    else s

/-- A corrected error (R473): class C0, written back at once. -/
def Block.corrected (s : Block) (addr : Nat) : Block :=
  let q := pairOf addr
  (((s.bump (R.DMCP_ECC_CE q)).bump R.DMC_ECC_CE).raise 0x1D 0x158 0 0 .fb).postTally 0x158 q

/-- DRAM_CE (R472, R473): a read of a block that differs in the bits of `errs` from what was stored, which the code corrects. -/
def execDramCe (addr : Nat) (errs : List (Nat × Nat)) (s : State) : Res :=
  s.does fun s => if inDram addr ∧ eccVerdict errs = .corrected ∧ s.dc.poison.contains (addr / 64) = false then s.corrected addr else s

/-- Is a pair in service (DMCP_STATUS.STATE IN_SERVICE), so that the scrub reads it? -/
def Block.scrubbed (s : Block) (q : Nat) : Bool := (s.pair q).st == 2

/-- The next in-service pair after one, for the scrub. -/
def Block.nextScrub (s : Block) (q : Nat) : Nat :=
  match (List.range 12).find? fun i => s.scrubbed ((q + 1 + i) % 12) with
  | some i => (q + 1 + i) % 12
  | none => q

/-- The blocks of a pair. -/
def pairBlocks : Nat := 62914560

/-- The time from one scrub read to the next, in ns: every block of every pair in service once per PERIOD (R474). -/
def Block.scrubGap (s : Block) : Nat :=
  s.afld R.DMC_SCRUB_CFG 8 8 * 3600000000000 / (pairBlocks * max 1 ((List.range 12).filter s.scrubbed).length)

/-- The scrub reads a block now. -/
def Block.scrubStamp (s : Block) : Block := { s with dc := { s.dc with scrubAt := s.now } }

/-- What a scrub read of a block finds: 0 good, 1 corrected, 2 uncorrectable; a poisoned block is uncorrectable (R473, R474). -/
def Block.scrubRead (s : Block) (addr result : Nat) : Block :=
  if result = 2 ∨ s.dc.poison.contains (addr / 64) = true then s.uncorrectable addr 7
  else if result = 1 then s.corrected addr else s

/-- The place the scrub goes on from. -/
def Block.scrubTo (s : Block) (q b : Nat) : Block := { s with dc := { s.dc with scrubPair := q, scrubBlk := b } }

/-- The next block of the scrub in turn is read, `scrubGap` after the last one, with no request of its pair ready. -/
def Block.scrubStep (s : Block) (result : Nat) : Block :=
  if !s.abit R.DMC_SCRUB_CFG 0 then s else
  let q := if s.scrubbed s.dc.scrubPair then s.dc.scrubPair else s.nextScrub s.dc.scrubPair
  if !s.scrubbed q || !(s.pair q).reqs.isEmpty then s else
  let b := if q = s.dc.scrubPair then s.dc.scrubBlk else 0
  let s := (s.toLocal (s.dc.scrubAt + s.scrubGap)).scrubStamp.scrubRead (q * 0x100000000 + 64 * b) result
  if b + 1 < pairBlocks then s.scrubTo q (b + 1) else s.scrubTo (s.nextScrub q) 0

/-- DRAM_SCRUB_READ (R474): the next block in turn is read; `result` is 0 good, 1 corrected, 2 uncorrectable. -/
def execDramScrubRead (result : Nat) (s : State) : Res := s.does fun s => s.scrubStep result

/-! ## Scheduling order (R477 to R480) -/

/-- SLACK_SAMPLE (R477 to R480), 100 ns after the pair's last one: the requests of owners and guest regions that have come since
the last sample (write, guest, address) join the pair's queues and the pair issues what 100 ns allow; then its slack is sampled,
in 10 ns units, 0xFFFFFF where no deadline client streams. -/
def Block.slackSample (s : Block) (q v : Nat) (arr : List (Bool × Bool × Nat)) : Block :=
  let s := s.toLocal ((s.pair q).sampAt + 100)
  let s := s.modPair q fun x => { x with sampAt := s.now }
  let s := (arr.filter fun e => inDram e.2.2 && pairOf e.2.2 == q).foldl (fun s e => s.dramReq (e.2.2 / 64 * 64) 64 e.1 e.2.1) s
  let s := s.schedule q
  let v := satN 24 v
  let x := s.pair q
  let lo := s.afld R.DMC_SLACK_CFG 0 16
  let hi := s.afld R.DMC_SLACK_CFG 16 16
  let force := s.afld R.DMC_SCHED_CFG 12 2
  let ok := if hi ≤ v then some (x.okSince.getD s.now) else none
  let leave := match ok with | some t => decide (t + s.afld R.DMC_SCHED_DWELL 0 16 * 1000 ≤ s.now) | none => false
  let rd := if force = 1 then false else if force = 2 then true else if v < lo then true else x.rdfirst && !leave
  let enter := rd && !x.rdfirst
  let s := s.modPair q fun x =>
    { x with slack := v, slackMin := min x.slackMin v, okSince := ok, rdfirst := rd, rdIn := if enter then x.rdIn + 1 else x.rdIn }
  if enter then s.postTally 0x159 q else s

def execSlackSample (q v : Nat) (arr : List (Bool × Bool × Nat)) (s : State) : Res :=
  s.does fun s => if q < 12 then s.slackSample q v arr else s

/-- The frame's reports (Table 15.6): smallest slack and RDFIRST entries of the last frame, and the guest share (log entry 33). -/
def Block.dramFrame (s : Block) : Block :=
  let s : Block := { s with dc := { s.dc with hlZero := [] } }
  (List.range 12).foldl (fun s q =>
    s.modPair q fun x =>
      { x with slackRep := x.slackMin, slackMin := x.slack, rdRep := satN 8 x.rdIn, rdIn := 0, used := 0,
               guest := guestShare (periodOf s.act).1 (periodOf s.act).2 x.sp x.used }) s

/-! ## Refresh (R481, R482) -/

/-- REFRESH_DUE (R482): a per-bank refresh falls due on a channel; `idle` says that no request to the pair is ready, but for those that
stand in its queues. -/
def Block.refreshDue (s : Block) (ch : Nat) (idle : Bool) : Block :=
  let q := ch / 2
  let x := s.pair q
  let idle := idle && x.reqs.isEmpty
  let cfg := s.act R.DMC_REF_CFG
  let cap : Int := (min 8 (bits cfg 0 4) : Nat)
  let ahead : Int := (min 8 (bits cfg 8 4) : Nat)
  let o := x.owed.getD (ch % 2) 0
  let put (s : Block) (n : Int) : Block := s.modPair q fun x => { x with owed := setAt x.owed (ch % 2) n }
  if idle then put s (-ahead)
  else if o < 0 then put s (o + 1)
  else if x.slack < s.afld R.DMC_SLACK_CFG 0 16 then
    if o < cap then put s (o + 1) else s.postTally 0x15A q
  else put s 0

def execRefreshDue (ch : Nat) (idle : Bool) (s : State) : Res :=
  s.does fun s => if ch < 24 ∧ (s.pair (ch / 2)).st = 2 then s.refreshDue ch idle else s

/-- REFRESH_RATE_POLL (R481): a channel reports a refresh rate; `above` says that it lies above the specified operating range. -/
def Block.ratePoll (s : Block) (ch val : Nat) (above : Bool) : Block :=
  let was := s.dc.hot.contains ch
  let s : Block := { s with dc := { s.dc with rate := setAt s.dc.rate ch (val % 256),
                                              hot := if above then (if was then s.dc.hot else ch :: s.dc.hot) else s.dc.hot.filter fun c => c != ch } }
  if above && !was then s.faultEv 0x1D 0x156 2 [pk ch val 0 0] .auto (pageInst 0x1D)
  else if !above && was then s.autoClose 0x1D 0x156 fun d => bits d 0 8 == ch
  else s

def execRefreshRatePoll (ch val : Nat) (above : Bool) (s : State) : Res :=
  s.does fun s => if ch < 24 ∧ s.pairUp (ch / 2) then s.ratePoll ch val above else s

/-! ## Delays (R487, R488) -/

/-- The factory delay of a lane (R487): 0 read, 1 write. -/
def factoryDelay (q lane sp dir : Nat) : Int := (Config.dramFactory q lane sp dir % 128 : Nat)

/-- The key of an accepted delay. -/
def delayKey (q sp lane dir : Nat) : Nat := ((q * 4 + sp) * 4 + lane) * 2 + dir

/-- The fixed delay of a lane: the accepted record's, else the factory's (R487). -/
def Block.fixedDelay (s : Block) (q lane sp dir : Nat) : Int :=
  match aget? s.dc.delays (delayKey q sp lane dir) with
  | some d => d
  | none => factoryDelay q lane sp dir

/-- A pair loads its fixed delays at a set point; the trimmed ones are lost (R487, R488). -/
def Block.loadDelays (s : Block) (q sp : Nat) : Block :=
  let s := s.modPair q fun x =>
    { x with sp := sp, rd := (List.range 4).map fun j => s.fixedDelay q j sp 0, wr := (List.range 4).map fun j => s.fixedDelay q j sp 1 }
  let s : Block := { s with dc := { s.dc with trimHeld := s.dc.trimHeld.filter fun l => l / 4 != q } }
  s.autoClose 0x1E 0x155 fun d => bits d 0 8 == q

/-- A delay moved and held within DRIFT_LIM of its factory value. -/
def drifted (fac lim cur d : Int) : Int := clampI (max 0 (fac - lim)) (min 127 (fac + lim)) (cur + d)

/-- One lane of DRIFT_TRIM (R488). -/
def Block.trimLane (s : Block) (q lane n : Nat) : Block :=
  let x := s.pair q
  let step : Int := (s.afld R.DMC_TRIM_CFG 16 8 : Nat)
  let lim : Int := (s.afld R.DMC_TRIM_CFG 24 8 : Nat)
  let nref : Int := (Config.dramFactory q lane x.sp 2 : Nat)
  let d := clampI (-step) step (rdiv ((nref - n) * sgn 16 (Config.dramFactory q lane x.sp 3)) 4096)
  let f (dir : Nat) : Int := factoryDelay q lane x.sp dir
  let r := x.rd.getD lane 0
  let w := x.wr.getD lane 0
  let held : Bool := decide (lim < (r + d - f 0).natAbs) || decide (lim < (w + d - f 1).natAbs)
  let r' := drifted (f 0) lim r d
  let w' := drifted (f 1) lim w d
  let s := s.modPair q fun x => { x with rd := setAt x.rd lane r', wr := setAt x.wr lane w' }
  let id := 4 * q + lane
  let was := s.dc.trimHeld.contains id
  let s : Block := { s with dc := { s.dc with trimHeld := if held then (if was then s.dc.trimHeld else id :: s.dc.trimHeld)
                                                          else s.dc.trimHeld.filter fun i => i != id } }
  if held && !was then s.faultEv 0x1E 0x155 1 [pk q lane (unsgn 8 (r' - f 0)) 0] .auto q
  else if !held && was then s.autoClose 0x1E 0x155 fun e => bits e 0 8 == q && bits e 8 8 == lane
  else s

/-- DRIFT_TRIM (R488): the DQS interval oscillator of a channel counted n; its two lanes are trimmed. -/
def execDriftTrim (ch n : Nat) (s : State) : Res :=
  s.does fun s =>
    if ch < 24 ∧ (s.pair (ch / 2)).st = 2 then
    let l := 2 * (ch % 2)
    (s.trimLane (ch / 2) l n).trimLane (ch / 2) (l + 1) n
  else s

/-! ## Set points (R463, R483 to R486) -/

/-- The target a request leads to. -/
def Block.stepEvent (s : Block) (dir : Nat) : Block := s.post 0x1C 0x143 [pk dir s.spNow 0 0, s.tm.fsn]

/-- A change falls due: at once, or at the next FB where a step-down breaks a budget (R484, R485). -/
def Block.changeDue (s : Block) (cause : Nat) : Block :=
  if cause = 1 ∧ s.overBudget s.act s.dc.warpSpill s.spNow ≠ [] then { s with dc := { s.dc with fbDue := some cause } }
  else { s with dc := { s.dc with due := some cause } }

/-- The throttle has lasted DELAY: the cap goes one step down, unless it is at its last (R463). -/
def Block.stepDown (s : Block) : Block :=
  let s : Block := { s with th := { s.th with thrSince := some s.now } }
  if s.dc.cap < s.afld R.THERM_CTRL 4 2 then
    let before := s.spNow
    let s : Block := { s with dc := { s.dc with cap := s.dc.cap + 1 }, th := { s.th with steps := s.th.steps + 1 } }
    let s := s.stepEvent 0
    if s.spNow = before then s else s.changeDue 1
  else s

/-- DRAM_STEP_DOWN_REQUEST (R463): the die throttle has lasted DELAY. -/
def execDramStepDownRequest (s : State) : Res :=
  s.does fun s =>
    match s.th.thrSince with
    | some t => if !s.abit R.THERM_CTRL 0 then s else (s.advance (t + s.afld R.THERM_DRAM_CFG 0 16 * 1000000 - s.now)).stepDown
    | none => s

/-- The die has stayed cool for UP_HOLD: the cap goes one step up (R463). -/
def Block.stepUp (s : Block) : Block :=
  let s : Block := { s with th := { s.th with coolSince := some s.now, steps := s.th.steps - 1 }, dc := { s.dc with cap := s.dc.cap - 1 } }
  (s.stepEvent 1).changeDue 2

/-- DRAM_STEP_UP_REQUEST (R463): the die has stayed below its warning threshold for UP_HOLD. -/
def execDramStepUpRequest (s : State) : Res :=
  s.does fun s =>
    match s.th.coolSince with
    | some t =>
      if s.dc.cap ≤ s.afld R.DMC_FREQ_CFG 0 2 then s else (s.advance (t + s.afld R.THERM_DRAM_CFG 16 16 * 1000000000 - s.now)).stepUp
    | none => s

/-- The pairs a change to a set point concerns: every pair that is not OFF and runs at another one. -/
def Block.pairsToChange (s : Block) (sp : Nat) : Nat :=
  bitsMask ((List.range 12).filter fun q => (s.pair q).st != 0 && (s.pair q).sp != sp)

/-- The last pair has changed (R484). -/
def Block.changeDone (s : Block) : Block :=
  match s.dc.change with
  | none => s
  | some c =>
    if c.left ≠ 0 then s
    else
      let s : Block := { s with dc := { s.dc with change := none } }
      (s.bump R.DMC_FREQ_CHANGES).post 0x1D 0x151 [pk c.target c.prev c.cause 0, s.tm.fsn, w32 ((s.now - c.since) / 10)]

/-- A change of the set point in force begins; during one, the target is recomputed (R484, Table 15.4). -/
def Block.changeStart (s : Block) (cause : Nat) : Block :=
  let sp := s.spNow
  let left := s.pairsToChange sp
  let c : FreqChange := match s.dc.change with
    | some c => { c with target := sp, cause := cause, left := left }
    | none => { target := sp, prev := (s.pair 11).sp, cause := cause, since := s.now, left := left, waited := 0, late := 0 }
  let s : Block := { s with dc := { s.dc with due := none, fbDue := none, change := some c } }
  if left = 0 then s.changeDone else s

/-- DRAM_FREQ_CHANGE_START (R484): a change that has fallen due begins. -/
def execDramFreqChangeStart (s : State) : Res :=
  s.does fun s =>
    match s.dc.due with
    | some c => s.changeStart c
    | none => s

/-- R485 at an FB: the fallback of R24 is entered and the change starts. -/
def Block.dramFallbackEntry (s : Block) : Block :=
  match s.dc.fbDue with
  | some c => ({ s with pp := { s.pp with dramFallback := true } } : Block).changeStart c
  | none => s

/-- May the fallback of R485 end at a PB? -/
def Block.dramFallbackOver (s : Block) : Bool :=
  s.dc.fbDue.isNone && (match s.dc.change with | some c => c.cause == 2 | none => true) &&
    (s.overBudget s.act s.dc.warpSpill s.spNow).isEmpty && !s.th.lvl.throttle

/-- Has a pair the slack to change (R484)?  A pair that is idle, in self-refresh or out of service counts as having it. -/
def Block.mayChange (s : Block) (q : Nat) : Bool :=
  let x := s.pair q
  (x.st != 2 || decide (s.afld R.DMC_FREQ_SLACK 0 16 ≤ x.slack)) && (match s.dc.sweep with | some w => w.pair != q | none => true)

/-- A pair changes its set point (R484): its owed refreshes first, then the switch and the fixed delays. -/
def Block.pairChange (s : Block) (q : Nat) : Block :=
  match s.dc.change with
  | none => s
  | some c =>
    if !natBit c.left q || !s.mayChange q then s
    else
      let st := (s.pair q).st
      let s := s.modPair q fun x => { x with owed := x.owed.map fun o => min o 0 }
      let s := if st = 2 then ((s.pairGoto q 6).loadDelays q c.target).pairGoto q 2 else s.loadDelays q c.target
      let s := s.autoClose 0x1E 0x152 fun d => bits d 0 8 == q
      let c' := { c with left := c.left - 2 ^ q }
      ({ s with dc := { s.dc with change := some c' } } : Block).changeDone

def execPairFreqChange (q : Nat) (s : State) : Res := s.does fun s => if q < 12 then s.pairChange q else s

/-- DRAM_FREQ_WAIT (R486): a pair still waits at 10 ms, and at 100 ms. -/
def Block.freqWait (s : Block) (q : Nat) : Block :=
  match s.dc.change with
  | none => s
  | some c =>
    if !natBit c.left q || natBit c.late q then s
    else if !natBit c.waited q then
      let s := s.advance (c.since + 10000000 - s.now)
      ({ s with dc := { s.dc with change := some { c with waited := c.waited + 2 ^ q } } } : Block).postI 0x1E 0x152 0 q false
        [pk q 0 0 0, w32 ((s.pair q).slackRep + 16777216 * (s.pair q).rdRep)]
    else
      let s := s.advance (c.since + 100000000 - s.now)
      ({ s with dc := { s.dc with change := some { c with late := c.late + 2 ^ q } } } : Block).raise 0x1E 0x152 1 (pk q 0 0 0) .auto

def execDramFreqWait (q : Nat) (s : State) : Res := s.does fun s => if q < 12 then s.freqWait q else s

/-! ## Self-refresh (R493 to R495) -/

/-- A pair goes into self-refresh at once (R493): its owed refreshes, the precharge, the command. -/
def Block.selfRefresh (s : Block) (q : Nat) : Block :=
  if (s.pair q).st = 2 ∨ (s.pair q).st = 3 then
    let s := s.modPair q fun x => { x with owed := [0, 0] }
    (((s.pairGoto q 3).pairGoto q 4).bump (R.DMCP_SR_ENTRIES q)).postTally 0x15B q
  else s

/-- A pair leaves self-refresh. -/
def Block.leaveRefresh (s : Block) (q : Nat) : Block :=
  if (s.pair q).st = 4 then ((s.pairGoto q 5).modPair q fun x => { x with held := false }).pairGoto q 2
  else if (s.pair q).st = 3 then s.pairGoto q 2 else s

/-- The instant at which a pair has been without a request for IDLE_TIME (R493). -/
def Block.idleAt (s : Block) (q : Nat) : Nat := (s.pair q).lastReq + s.afld (R.DMCP_CFG q) 8 8 * 10000

/-- SELF_REFRESH_ENTRY (R493): after IDLE_TIME without a request a pair begins its entry; when it comes again the entry's
command is issued. -/
def execSelfRefreshEntry (q : Nat) (s : State) : Res :=
  s.does fun s =>
    if 12 ≤ q ∨ !s.abit (R.DMCP_CFG q) 2 then s
    else if (s.pair q).st = 2 then (if (s.pair q).reqs.isEmpty then (s.toLocal (s.idleAt q)).pairGoto q 3 else s)
    else if (s.pair q).st = 3 then s.selfRefresh q else s

/-- SELF_REFRESH_EXIT (R494): a request makes a pair leave, or abandon its entry; `held` says that it arrived during entry,
after the command. -/
def execSelfRefreshExit (q : Nat) (held : Bool) (s : State) : Res :=
  s.does fun s =>
    if 12 ≤ q then s
    else if (s.pair q).st = 3 then ((s.modPair q fun x => { x with lastReq := s.now }).pairGoto q 2).postTally 0x15C q
    else if (s.pair q).st = 4 then
      let s := if held then s.postTally 0x15D q else s
      s.leaveRefresh q
    else s

/-! ## Service (R489, R493, R498) -/

/-- A pair comes into service at the set point in force with its fixed delays (R487, R489, R495). -/
def Block.pairIn (s : Block) (q : Nat) : Block :=
  let s := if (s.pair q).st = 0 then s.pairGoto q 1 else s
  (s.loadDelays q s.spNow).pairGoto q 2

/-- PAIR_OUT_OF_SERVICE (R489): the committed EN and OOS take effect on a pair. -/
def Block.pairService (s : Block) (q : Nat) : Block :=
  let g := s.act (R.DMCP_CFG q)
  let t := (s.pair q).st
  if !bit g 0 then (if t = 8 then s else s.pairGoto q 0)
  else if bit g 1 then (if t = 0 ∨ t = 7 ∨ t = 8 then s else s.pairGoto q 7)
  else if t = 7 then s.pairIn q
  else if t = 0 ∧ s.pw.state.running = true then s.pairIn q
  else s

def execPairOutOfService (q : Nat) (s : State) : Res := s.does fun s => if q < 12 then s.pairService q else s

/-- Is a pair OFF or out of service (R475, R489)? -/
def Block.pairGone (s : Block) (q : Nat) : Bool := let t := (s.pair q).st; t == 0 || t == 7 || t == 8

/-! ## The sweep (R490, R491) -/

/-- The longest run of passing steps of an eye: left, right; the lower of two equal runs. -/
def eyeOf (mask : Nat) : Option (Nat × Nat) :=
  let r := (List.range 129).foldl (fun (a : Option (Nat × Nat) × Option Nat) i =>
    if i < 128 ∧ natBit mask i = true then (a.1, some (a.2.getD i))
    else match a.2 with
      | none => a
      | some l =>
        match a.1 with
        | some (bl, br) => (if br - bl < i - 1 - l then some (l, i - 1) else a.1, none)
        | none => (some (l, i - 1), none)) (none, none)
  r.1

/-- The width of an eye. -/
def eyeWidth (mask : Nat) : Nat := match eyeOf mask with | some (l, r) => r - l + 1 | none => 0

/-- The four bytes of an eye (R491); where no step passed, only the width is stated, and the others are free values. -/
def Block.eyeBytes (s : Block) (mask : Nat) : Block × List Byte :=
  match eyeOf mask with
  | some (l, r) => (s, [BitVec.ofNat 8 l, BitVec.ofNat 8 r, BitVec.ofNat 8 ((l + r) / 2), BitVec.ofNat 8 (r - l + 1)])
  | none =>
    let (a, s) := s.takeBelow 127
    let (b, s) := s.takeBelow 127
    let (c, s) := s.takeBelow 127
    (s, [BitVec.ofNat 8 a, BitVec.ofNat 8 b, BitVec.ofNat 8 c, 0])

/-- A buffer of a command is written: host bus, or device virtual through the DTU as client 0x11; false where it faults. -/
def Block.writeBuf (s : Block) (dev : Bool) (addr : Nat) (bs : List Byte) : Block × Bool :=
  if dev then
    match s.writeVirt 0x11 addr none bs with
    | (s, none) => (s, true)
    | (s, some _) => (s, false)
  else (s.emit (.hostWrite addr bs), true)

/-- A parameter buffer of a command is read: the host's bytes, or device virtual. -/
def Block.readBuf (s : Block) (dev : Bool) (addr n : Nat) (host : Bytes) : Block × Option (List Byte) :=
  if dev then
    match s.readVirt 0x11 addr n none [] with
    | (s, bs, none) => (s, some bs)
    | (s, _, some _) => (s, none)
  else (s, some (padBytes n host))

/-- The sweep ends; the pair returns to the set point in force and stays out of service (R490). -/
def Block.sweepOver (s : Block) (w : Sweep) : Block :=
  let s : Block := { s with dc := { s.dc with sweep := none } }
  (s.loadDelays w.pair (match s.dc.change with | some c => if natBit c.left w.pair then c.prev else c.target | none => s.spNow)).pairGoto w.pair 7

/-- A sweep starts on an out-of-service pair. -/
def Block.sweepStart (s : Block) (w : Sweep) : Block :=
  let s : Block := { s with dc := { s.dc with sweep := some w } }
  (s.modPair w.pair fun x => { x with sp := w.sp }).pairGoto w.pair 8

/-- DRAM_SWEEP is checked and starts (R491): BAD_PARAM, BUSY, NOT_OOS, or the sweep begins. -/
def Block.sweepAccept (s : Block) (c : Cmd) : Block :=
  let q := c.par 16 1
  if 10 < q ∨ 3 < c.par 17 1 ∨ 1 < c.par 18 1 then s.complete c.cseq 2
  else if s.dc.sweep.isSome || s.ca.isSome then s.complete c.cseq 3
  else if (s.pair q).st ≠ 7 then s.complete c.cseq 0x8000
  else
    let w : Sweep := { cseq := c.cseq, pair := q, sp := c.par 17 1, space := natBit (c.par 18 1) 0, addr := c.par 24 8, calib := false }
    (s.sweepStart w).setStage c.cseq 1

/-- The end of a DRAM_SWEEP: its result is written and the command completes. -/
def Block.sweepEnd (s : Block) (w : Sweep) (pass : List Nat) (xok : Bool) : Block :=
  let masks := (List.range 8).map fun i => pass.getD i 0 % 2 ^ 128
  let (s, bs) := masks.foldl (fun (a : Block × List Byte) m => let (t, b) := a.1.eyeBytes m; (t, a.2 ++ b)) (s, [])
  let narrow := masks.foldl (fun n m => min n (eyeWidth m)) 128
  let s := s.sweepOver w
  let (s, ok) := s.writeBuf w.space w.addr bs
  let s := s.post 0x1D 0x154 [pk w.pair w.sp 0 narrow, w.cseq]
  s.complete w.cseq (if ok && xok then 0 else 7)

/-- DRAM_SWEEP (R490, R491): it starts; with its results, `pass` (for each lane the passing read steps, then the passing write
steps, as 128-bit masks), it ends.  `xok` says that the transfer to a host buffer completes. -/
def execDramSweep (cseq : Word) (pass : List Nat) (xok : Bool) (s : State) : Res :=
  s.does fun s =>
    let s := match s.startable cseq 0x000E with
      | some c => s.sweepAccept c
      | none => s
    match s.dc.sweep with
    | some w => if w.cseq = cseq ∧ w.calib = false ∧ pass.length = 8 then s.sweepEnd w pass xok else s
    | none => s

end Sys2Proof.Machine
end

