-- ==== Sys2Proof/Machine/Rsa.lean ====
section
/-!
DEFINITION. RSASSA-PSS with RSA-4096, SHA-512, MGF1 with SHA-512, a salt of 64 bytes and the public exponent 65,537 (R147, R521): the check
of a signature.  Moduli and signatures are big-endian, as PKCS #1 lays them out (log entry 216).
-/
namespace Sys2Proof.Machine

/-- A number squared k times, mod n. -/
def modSquares : Nat → Nat → Nat → Nat
  | 0, _, x => x
  | k + 1, n, x => modSquares k n (x * x % n)

/-- x to the power of 65,537, mod n. -/
def rsaPublic (n x : Nat) : Nat := modSquares 16 n (x % n) * x % n

/-- MGF1 with SHA-512. -/
def mgf1 (seed : List Byte) (len : Nat) : List Byte := ((List.range (cdiv len 64)).flatMap fun i => sha512 (seed ++ beBytes 4 i)).take len

/-- The hash H of a message and a salt. -/
def pssHash (msg salt : List Byte) : List Byte := sha512 (List.replicate 8 0 ++ sha512 msg ++ salt)

/-- Bytes with the top bit of the first one cleared. -/
def clearTop : List Byte → List Byte
  | [] => []
  | b :: l => (b &&& 0x7F) :: l

/-- Is an encoded message one of this message? -/
def pssOk (msg em : List Byte) : Bool :=
  let h := (em.drop 447).take 64
  let db := clearTop (List.zipWith (· ^^^ ·) (em.take 447) (mgf1 h 447))
  em.getD 511 0 == 0xBC && decide ((em.getD 0 0).toNat < 128) && (db.take 382).all (· == 0) && db.getD 382 0 == 1 &&
    pssHash msg (db.drop 383) == h

/-- Does a signature of a message verify under a modulus? -/
def pssVerify (modulus msg sig : List Byte) : Bool :=
  decide (beNat sig < beNat modulus) && pssOk msg (beBytes 512 (rsaPublic (beNat modulus) (beNat sig)))

end Sys2Proof.Machine
end

