-- ==== Sys2Proof/Machine/Seedbank.lean ====
section
/-!
DEFINITION. The Seedbank (R500 to R515): slots, records and their check, the writer, the reserved copies, scrub, SEED_STORE and
SEED_LOAD; the fuses (R516); and owner signatures (R521, R523).  A byte of the array that nothing has written reads as 0
(log entry 34).
-/
namespace Sys2Proof.Machine

/-- SEED_STATUS.SCAN_DONE: the records have been read at boot (log entry 254). -/
def Block.scanDone (s : Block) : Bool := !(s.pw.state == .off || s.pw.state == .aon || s.pw.state == .boot)

/-! ## The array -/

/-- What an unlisted byte of the Seedbank, or of the fuses, reads as. -/
def zeroByte (_ : Nat) : Byte := 0

/-- Bytes of the Seedbank. -/
def Block.seedBytes (s : Block) (a n : Nat) : List Byte := (List.range n).map fun i => sget zeroByte s.se.mram (a + i)

/-- A number in the Seedbank. -/
def Block.seedNat (s : Block) (a n : Nat) : Nat := leNat (s.seedBytes a n)

/-- Whole words are written from a word address on; they read back as written (R500). -/
def Block.seedPut (s : Block) (a : Nat) (bs : List Byte) : Block :=
  { s with se := { s.se with mram := ssets zeroByte s.se.mram (bs.mapIdx fun i b => (a + i, b)),
                             bad := s.se.bad.filter fun w => !(decide (a / 8 ≤ w) && decide (w < (a + bs.length) / 8)) } }

/-- Table 16.1: slot size, slot A and slot B of a record type. -/
def slotTable (ty : Nat) : Option (Nat × Nat × Nat) :=
  match ty with
  | 1 => some (0x200000, 0x0000000, 0x0200000)
  | 2 => some (0x1100000, 0x0400000, 0x1500000)
  | 3 => some (0x300000, 0x2600000, 0x2900000)
  | 4 => some (0x1000, 0x2C00000, 0x2C01000)
  | 5 => some (0x1000, 0x2C02000, 0x2C03000)
  | 6 => some (0x1000, 0x2C04000, 0x2C05000)
  | 7 => some (0x2000, 0x2C06000, 0x2C08000)
  | 8 => some (0x4000, 0x2C0A000, 0x2C0E000)
  | 9 => some (0x4000, 0x2C12000, 0x2C16000)
  | 10 => some (0x4000, 0x2C1A000, 0x2C1E000)
  | 11 => some (0x4000, 0x2C22000, 0x2C26000)
  | 12 => some (0x40000, 0x2C40000, 0x2C80000)
  | 13 => some (0x100000, 0x2D00000, 0x2E00000)
  | 14 => some (0x100000, 0x2F00000, 0x3000000)
  | 15 => some (0x100000, 0x3100000, 0x3200000)
  | n => if 16 ≤ n ∧ n < 32 then some (0x10000, 0x3300000 + 0x20000 * (n - 16), 0x3310000 + 0x20000 * (n - 16)) else none

/-- The slot size of a type. -/
def slotSize (ty : Nat) : Nat := match slotTable ty with | some (n, _, _) => n | none => 0

/-- The byte offset of a slot (0 A, 1 B). -/
def slotAddr (ty slot : Nat) : Nat := match slotTable ty with | some (_, a, b) => if slot = 0 then a else b | none => 0

/-! ## Records (R502 to R507) -/

/-- The record CRC (R503): the slot address, the header, the padded payload. -/
def recordCrc (addr : Nat) (head pay : List Byte) : Nat := crc32c (leBytes 4 addr ++ head ++ pay)

/-- The bytes of a record (Table 16.2). -/
def recordBytes (ty : Nat) (signed : Bool) (seq : Word) (addr : Nat) (data : List Byte) : List Byte :=
  let head := leBytes 4 (ty + 65536 * signed.toNat) ++ leBytes 4 data.length ++ leBytes 4 seq.toNat ++ leBytes 4 0
  let pay := padBytes (cdiv data.length 8 * 8) data
  let c := recordCrc addr head pay
  head ++ pay ++ leBytes 8 c ++ leBytes 4 seq.toNat ++ leBytes 4 c

/-- A word of the array carries an uncorrectable error. -/
def Block.badWord (s : Block) (a : Nat) : Bool := s.se.bad.contains (a / 8)

/-- What a slot of the array holds (R505, R506). -/
def Block.slotRead (s : Block) (ty slot : Nat) : SlotInfo :=
  let a := slotAddr ty slot
  let w0 := s.seedNat a 8
  let len := w0 / 4294967296
  let p := cdiv len 8
  let seq := w32 (s.seedNat (a + 8) 4)
  let signed := natBit w0 16
  let no (reason : Nat) : SlotInfo := { st := 0, seq := seq, len := len, signed := signed, reason := reason, copy := 0, payload := [] }
  if s.badWord a || s.badWord (a + 8) || natBits w0 0 16 != ty || natBits w0 17 15 != 0 || s.seedNat (a + 12) 4 != 0 || len == 0 ||
      decide (slotSize ty - 32 < len) then no 2
  else
    let c1 := a + 16 + 8 * p
    let cw := c1 + 8
    if s.badWord cw || s.seedNat cw 4 != seq.toNat then no 0
    else if (List.range p).any fun i => s.badWord (a + 16 + 8 * i) then no 1
    else
      let pay := s.seedBytes (a + 16) (8 * p)
      let c := recordCrc a (s.seedBytes a 16) pay
      let m1 := !s.badWord c1 && s.seedNat c1 4 == c
      let m2 := s.seedNat (cw + 4) 4 == c
      if m1 || m2 then { st := if m1 && m2 then 1 else 2, seq := seq, len := len, signed := signed, reason := 0,
                         copy := if m1 then 2 else 1, payload := pay.take len }
      else no 1

/-- A slot as a reader sees it: the one being written, as it stood before (R515). -/
def Block.slot (s : Block) (ty slot : Nat) : SlotInfo :=
  match s.se.wr with
  | some w => if w.req.kind = 0 ∧ w.req.ty = ty ∧ w.slot = slot then w.old else s.slotRead ty slot
  | none => s.slotRead ty slot

/-- The newest valid record of a type (R507): its slot. -/
def Block.newest (s : Block) (ty : Nat) : Option Nat :=
  let a := s.slot ty 0
  let b := s.slot ty 1
  if a.st = 0 ∧ b.st = 0 then none
  else if a.st = 0 then some 1
  else if b.st = 0 then some 0
  else if newer b.seq a.seq then some 1 else some 0

/-- The payload of the newest valid record of a type. -/
def Block.newestData (s : Block) (ty : Nat) : Option (List Byte) := (s.newest ty).map fun k => (s.slot ty k).payload

/-! ## The writer (R504, R508) -/

/-- New records and rewrites are held (R131). -/
def Block.seedHeld (s : Block) : Bool := s.pw.pfAsserted || s.pw.pfRecovering

/-- A request joins the queue. -/
def Block.seedAsk (s : Block) (r : SeedReq) : Block := { s with se := { s.se with queue := s.se.queue ++ [r] } }

/-- A request for a record. -/
def recordReq (ty : Nat) (signed : Bool) (data : List Byte) (cseq : Option Word) (why : SeedWhy) : SeedReq :=
  { kind := 0, ty := ty, signed := signed, data := data, addr := 0, cseq := cseq, why := why }

/-- The first request that may start, and the queue without it: reserved copies are not held. -/
def Block.seedNext (s : Block) : Option (SeedReq × List SeedReq) :=
  match s.se.queue.findIdx? fun r => decide (2 ≤ r.kind) || !s.seedHeld with
  | some i => match s.se.queue[i]? with
    | some r => some (r, s.se.queue.eraseIdx i)
    | none => none
  | none => none

/-- The record a request becomes (R504): the slot that does not hold the newest valid record, an image the slot that is not running
(R156), and the next SEQ. -/
def Block.seedBegin (s : Block) (r : SeedReq) : SeedWrite :=
  let run := match r.ty with | 1 => s.bt.s1.running | 2 => s.bt.hk.running | _ => s.bt.sv.running
  let slot := if r.why = .stage then 1 - run else match s.newest r.ty with | some 0 => 1 | _ => 0
  let seq : Word := match s.newest r.ty with | some k => (s.slot r.ty k).seq + 1 | none => 1
  let a := slotAddr r.ty slot
  { req := r, slot := slot, seq := seq, addr := a, bytes := recordBytes r.ty r.signed seq a r.data, done := 0, old := s.slot r.ty slot }

/-- The words of the record in progress. -/
def SeedWrite.words (w : SeedWrite) : Nat := w.bytes.length / 8

/-- The next `n` words of the record in progress are written, 40 ns each (R500, R504). -/
def Block.seedStep (s : Block) (n : Nat) : Block :=
  match s.se.wr with
  | none => s
  | some w =>
    let n := min n (w.words - w.done)
    let s := (s.advance (40 * n)).seedPut (w.addr + 8 * w.done) ((w.bytes.drop (8 * w.done)).take (8 * n))
    { s with se := { s.se with wr := some { w with done := w.done + n } } }

/-- The mismatching copy of the CRC of a CHK_ONLY record is rewritten, one word, with its count and event (R506). -/
def Block.chkRewrite (s : Block) (ty slot : Nat) : Block :=
  let i := s.slot ty slot
  let p := cdiv i.len 8
  let a := slotAddr ty slot
  if i.st ≠ 2 then s else
  let c := leBytes 4 (recordCrc a (s.seedBytes a 16) (s.seedBytes (a + 16) (8 * p)))
  let s := s.advance 40
  let s := if i.copy = 1 then s.seedPut (a + 16 + 8 * p) (c ++ leBytes 4 0)
    else s.seedPut (a + 24 + 8 * p) (leBytes 4 i.seq.toNat ++ c)
  (s.bump R.SEED_CHK_ONLY).post 0x1F 0x181 [w32 (ty + 65536 * slot + 16777216 * i.copy), i.seq]

/-- The next request of the queue starts, where none is in progress: a record, or a rewrite, which is done with its one word (R508). -/
def Block.seedStart (s : Block) : Block :=
  match s.se.wr, s.se.copyWr with
  | none, none =>
    match s.seedNext with
    | some (r, l) =>
      if r.kind = 0 then { s with se := { s.se with queue := l, wr := some (s.seedBegin r) } }
      else if r.kind = 1 then ({ s with se := { s.se with queue := l } } : Block).chkRewrite r.ty r.addr
      else s
    | none => s
  | _, _ => s

/-- SEED_RECORD_WRITE (R504): the writer takes the oldest request and writes `n` more words. -/
def execSeedRecordWrite (n : Nat) (s : State) : Res := s.does fun s => s.seedStart.seedStep n

/-- The record in progress commits, with SEED_WRITE_DONE. -/
def Block.seedCommit (s : Block) : Block × Option SeedWrite :=
  match s.se.wr with
  | none => (s, none)
  | some w =>
    let s := s.seedStep w.words
    let s : Block := { s with se := { s.se with wr := none } }
    ((s.bump R.SEED_WRITES).post 0x1F 0x180 [w32 (w.req.ty + 65536 * w.slot), w.seq], some w)

/-- The record in progress is abandoned without its commit word (R132, R508, R509): `result` 1 power fail, 2 restart. -/
def Block.seedAbandon (s : Block) (result : Nat) : Block :=
  match s.se.wr with
  | none => s
  | some w =>
    let s : Block := { s with se := { s.se with wr := none } }
    let s : Block := if w.req.why = .stage then { s with bt := { s.bt with fwStage := none } } else s
    let s := (s.bump R.SEED_ABANDONED).post 0x1F 0x180 [w32 (w.req.ty + 65536 * w.slot + 16777216 * result), w.seq]
    match w.req.cseq with
    | some c => s.complete c 5
    | none => s

/-! ## CHK_ONLY (R506) -/

/-- A word that cannot be corrected has been read (R513). -/
def Block.seedUncorr (s : Block) (w : Nat) : Block := (s.bump R.SEED_ECC_UNCORR).faultEv 0x1F 0x184 1 [w32 (8 * w)] .fb (pageInst 0x1F)

/-- The words of a slot's record that cannot be corrected are met as the record is read. -/
def Block.slotErrors (s : Block) (ty slot : Nat) : Block :=
  let a := slotAddr ty slot / 8
  let n := 4 + cdiv (min (slotSize ty) (s.slot ty slot).len) 8
  (s.se.bad.filter fun w => decide (a ≤ w) && decide (w < a + n)).foldl Block.seedUncorr s

/-- A rewrite waits behind what is in progress or asked for, and while records are held (R131, R508); else it is done at once. -/
def Block.chkAsk (s : Block) (ty slot : Nat) : Block :=
  let s : Block := { s with se := { s.se with chkOnly := true } }
  if s.seedHeld || s.se.wr.isSome || s.se.copyWr.isSome || !s.se.queue.isEmpty then
    if s.se.queue.any fun r => r.kind == 1 && r.ty == ty && r.addr == slot then s
    else s.seedAsk { kind := 1, ty := ty, signed := false, data := [], addr := slot, cseq := none, why := .none }
  else s.chkRewrite ty slot

/-- SEED_CHK_ONLY (R506): a slot is read; one matching copy has the other rewritten; neither makes the record invalid. -/
def Block.seedCheck (s : Block) (ty slot : Nat) : Block :=
  let s := s.slotErrors ty slot
  let i := s.slot ty slot
  if i.st = 2 then s.chkAsk ty slot
  else if i.st = 0 then s.post 0x1F 0x182 [w32 (ty + 65536 * slot + 16777216 * i.reason), i.seq]
  else s

/-- Is a slot being written? -/
def Block.slotBusy (s : Block) (ty slot : Nat) : Bool :=
  match s.se.wr with | some w => w.req.kind == 0 && w.req.ty == ty && w.slot == slot | none => false

def execSeedChkOnly (ty slot : Nat) (s : State) : Res :=
  s.does fun s => if (slotTable ty).isSome ∧ slot < 2 ∧ s.slotBusy ty slot = false then s.seedCheck ty slot else s

/-! ## Reserved copies (R510) -/

/-- The byte offset of a reserved copy: kind 0 SD, 1 PF. -/
def reservedAddr (kind copy : Nat) : Nat := 0x3FFF000 + 0x80 * kind + 0x40 * copy

/-- The record magic of a kind (Tables 14.4, 16.3): 0 SD, 1 PF. -/
def copyMagic (kind : Nat) : Nat := if kind = 0 then 0x46424B53 else 0x46504B53

/-- Is a copy valid: its MAGIC and CRC match (R510)? -/
def Block.copyValid (s : Block) (kind copy : Nat) : Bool :=
  let a := reservedAddr kind copy
  let bs := s.seedBytes a 64
  !((List.range 8).any fun i => s.badWord (a + 8 * i)) && field bs 0 4 == copyMagic kind &&
    field bs 60 4 == crc32c (bs.take 60)

/-- The SEQ of a copy. -/
def Block.copySeq (s : Block) (kind copy : Nat) : Word := w32 (s.seedNat (reservedAddr kind copy + 8) 4)

/-- The newest valid copy of a kind (R510). -/
def Block.newestCopy (s : Block) (kind : Nat) : Option Nat :=
  if s.copyValid kind 0 then
    if s.copyValid kind 1 && newer (s.copySeq kind 1) (s.copySeq kind 0) then some 1 else some 0
  else if s.copyValid kind 1 then some 1 else none

/-- A copy of 60 bytes with its SEQ put in and its CRC after it. -/
def sealCopy (seq : Word) (bs : List Byte) : List Byte :=
  let b := (padBytes 60 bs).take 8 ++ leBytes 4 seq.toNat ++ (padBytes 60 bs).drop 12
  b ++ leBytes 4 (crc32c b)

/-- Where a reserved copy goes and what it is (R510): the copy of its kind that is not the newest, with the next SEQ. -/
def Block.copyBegin (s : Block) (kind : Nat) (bs : List Byte) : CopyWrite :=
  match s.newestCopy kind with
  | some k => { addr := reservedAddr kind (1 - k), bytes := sealCopy (s.copySeq kind k + 1) bs, done := 0 }
  | none => { addr := reservedAddr kind 0, bytes := sealCopy 1 bs, done := 0 }

/-- A reserved copy is written whole. -/
def Block.reservedPut (s : Block) (kind : Nat) (bs : List Byte) : Block := s.seedPut (s.copyBegin kind bs).addr (s.copyBegin kind bs).bytes

/-- The words of a copy or a report word. -/
def CopyWrite.words (w : CopyWrite) : Nat := w.bytes.length / 8

/-- The next `n` words of the copy being written, 40 ns each (R500, R510); with its last word the write ends. -/
def Block.copyStep (s : Block) (n : Nat) : Block :=
  match s.se.copyWr with
  | none => s
  | some w =>
    let n := min n (w.words - w.done)
    let s := (s.advance (40 * n)).seedPut (w.addr + 8 * w.done) ((w.bytes.drop (8 * w.done)).take (8 * n))
    { s with se := { s.se with copyWr := if w.words ≤ w.done + n then none else some { w with done := w.done + n } } }

/-- A reserved copy is asked for. -/
def Block.reservedAsk (s : Block) (kind : Nat) (bs : List Byte) : Block :=
  s.seedAsk { kind := 2, ty := kind, signed := false, data := bs, addr := 0, cseq := none, why := .none }

/-- A report word (R512): the SEQ it holds, where its halves are complements. -/
def Block.reportSeq (s : Block) (kind : Nat) : Option Word :=
  let a := 0x3FFF100 + 8 * kind
  let v := s.seedNat a 4
  if s.seedNat (a + 4) 4 = 0xFFFFFFFF - v ∧ s.badWord a = false then some (w32 v) else none

/-- A report word, a single word written whole (R512). -/
def reportWrite (kind : Nat) (seq : Word) : CopyWrite :=
  { addr := 0x3FFF100 + 8 * kind, bytes := leBytes 4 seq.toNat ++ leBytes 4 (0xFFFFFFFF - seq.toNat), done := 0 }

/-- The oldest copy or report word waiting begins, once no record and no other copy is in progress. -/
def Block.copyStart (s : Block) : Block :=
  match s.se.wr, s.se.copyWr, s.se.queue.findIdx? fun r => decide (2 ≤ r.kind) with
  | none, none, some i =>
    match s.se.queue[i]? with
    | some r =>
      let w := if r.kind = 3 then reportWrite r.ty (w32 (leNat r.data)) else s.copyBegin r.ty r.data
      { s with se := { s.se with queue := s.se.queue.eraseIdx i, copyWr := some w } }
    | none => s
  | _, _, _ => s

/-- RESERVED_SLOT_WRITE (R510, R512): the oldest copy or report word waiting begins, and `n` of its words are written. -/
def execReservedSlotWrite (n : Nat) (s : State) : Res := s.does fun s => s.copyStart.copyStep n

/-! ## Scrub (R513) and the slot capture -/

/-- The time from one scrub read to the next, in ns: every word once in 24 h (R513). -/
def seedScrubGap : Nat := 86400000000000 / 8388608

/-- The scrub reads word w now, and goes on with the next. -/
def Block.scrubWord (s : Block) (w : Nat) : Block := { s with se := { s.se with scrub := (w + 1) % 8388608, scrubAt := s.now } }

/-- SEED_SCRUB_READ (R513): the next word is read, in its turn; `result` 0 good, 1 corrected, 2 uncorrectable. -/
def execSeedScrubRead (result : Nat) (s : State) : Res :=
  s.does fun s =>
    if !bit (s.reg R.SEED_CTRL) 0 || s.se.wr.isSome then s else
    let w := s.se.scrub
    let s := (s.toLocal (s.se.scrubAt + seedScrubGap)).scrubWord w
    if result = 2 ∨ s.se.bad.contains w = true then
      ({ s with se := { s.se with bad := w :: s.se.bad.filter fun x => x != w } } : Block).seedUncorr w
    else if result = 1 then ((s.bump R.SEED_ECC_CORR).raise 0x1F 0x183 0 0 .fb).postTally 0x183 (pageInst 0x1F)
    else s

/-- SEED_SLOT_A and SEED_SLOT_B of a slot (Table 16.9). -/
def Block.slotWord (s : Block) (ty slot : Nat) : Word :=
  let i := s.slot ty slot
  w32 (i.st + 4 * (decide (s.newest ty = some slot)).toNat + 8 * i.signed.toNat +
    256 * (if i.st = 0 then 0 else 4 + cdiv i.len 8))

/-- SEED_SEL_CAPTURE (R507). -/
def Block.seedSel (s : Block) (v : Word) : Block :=
  let ty := bits v 0 16
  let s := s.setReg R.SEED_SEL (w32 ty)
  if (slotTable ty).isSome then
    s.setRegs [(R.SEED_SLOT_A, s.slotWord ty 0), (R.SEED_SEQ_A, (s.slot ty 0).seq), (R.SEED_SLOT_B, s.slotWord ty 1),
               (R.SEED_SEQ_B, (s.slot ty 1).seq)]
  else s.setRegs [(R.SEED_SLOT_A, 0), (R.SEED_SEQ_A, 0), (R.SEED_SLOT_B, 0), (R.SEED_SEQ_B, 0)]

def execSeedSelCapture (v : Word) (s : State) : Res := s.does fun s => s.onWrite 0x1F fun s => s.seedSel v

/-! ## Fuses (R516) and owner keys (R521) -/

/-- An OTP bit. -/
def Block.fuse (s : Block) (i : Nat) : Bool := natBit (sget zeroByte s.se.otp (i / 8)).toNat (i % 8)

/-- An OTP bit is blown. -/
def Block.blow (s : Block) (i : Nat) : Block :=
  { s with se := { s.se with otp := sset zeroByte s.se.otp (i / 8) (BitVec.ofNat 8 ((sget zeroByte s.se.otp (i / 8)).toNat ||| 2 ^ (i % 8))) } }

/-- A fuse write: never started while PWR_FAIL_N is asserted (R516, Table 16.8). -/
def Block.blowAll (s : Block) (l : List Nat) : Block :=
  if s.pw.pfAsserted then { s with se := { s.se with fuses := s.se.fuses ++ l } } else l.foldl Block.blow s

/-- The fuse writes held back are carried out, and the commands that waited for them complete. -/
def Block.blowHeld (s : Block) : Block :=
  let l := s.se.fuses
  let c := s.se.fuseCmd
  let s := l.foldl Block.blow ({ s with se := { s.se with fuses := [], fuseCmd := [] } } : Block)
  c.foldl (fun s q => s.complete q 0) s

/-- Bytes of the fuses. -/
def Block.otpBytes (s : Block) (bit0 n : Nat) : List Byte := (List.range n).map fun i => sget zeroByte s.se.otp (bit0 / 8 + i)

/-- OWNER_HASH of a slot. -/
def Block.ownerHash (s : Block) (k : Nat) : List Byte := s.otpBytes (896 + 512 * k) 64

/-- Is an owner slot in use; is it revoked? -/
def Block.ownerUsed (s : Block) (k : Nat) : Bool := s.ownerHash k != List.replicate 64 0
def Block.ownerRevoked (s : Block) (k : Nat) : Bool := s.fuse (2944 + k)

/-- The modulus held for a slot in OWNER_KEYS. -/
def Block.ownerModulus (s : Block) (k : Nat) : List Byte :=
  padBytes 512 (((s.newestData 7).getD []).drop (512 * k))

/-- May a signature be checked under an owner slot (R521): in use, not revoked, its modulus matching its hash? -/
def Block.ownerOk (s : Block) (k : Nat) : Bool :=
  decide (k < 4) && s.ownerUsed k && !s.ownerRevoked k && sha512 (s.ownerModulus k) == s.ownerHash k

/-- Owner policy in force: it applies from the boot after its fuse (R522). -/
def Block.ownerPolicy (s : Block) : Bool := s.fld R.BOOT_STATUS 8 1 == 1

/-- A verification by the trust engine is counted; `ok` is its result. -/
def Block.verified (s : Block) (ok : Bool) : Block :=
  let s := (s.bump R.TRUST_VERIFIES).postTally 0x195 (pageInst 0x20)
  if ok then s else s.bump R.TRUST_VERIFY_FAILS

/-- The signing slot of an owner trailer (Table 16.6). -/
def trailerSlot (data : List Byte) : Nat := field data (data.length - 520) 1

/-- The device UID. -/
def Block.uidBytes (s : Block) : List Byte := wordBytes [s.reg R.DEV_UID_LO, s.reg R.DEV_UID_HI]

/-- What the signature of an owner trailer covers (R523): TYPE, the UID or eight zero bytes, and the payload without its trailer. -/
def Block.trailerText (s : Block) (ty : Nat) (data : List Byte) : List Byte :=
  leBytes 2 ty ++ (if field data (data.length - 519) 1 % 2 = 1 then List.replicate 8 0 else s.uidBytes) ++ data.take (data.length - 520)

/-- Does a payload of a type end in an owner trailer that verifies (R521, R523)? -/
def Block.trailerOk (s : Block) (ty : Nat) (data : List Byte) : Bool :=
  decide (520 < data.length) && s.ownerOk (trailerSlot data) && field data (data.length - 519) 7 / 2 == 0 &&
    pssVerify (s.ownerModulus (trailerSlot data)) (s.trailerText ty data) (data.drop (data.length - 512))

/-- The types owner policy covers (R523). -/
def policyType (ty : Nat) : Bool := ty == 13 || ty == 14 || ty == 9 || ty == 10 || ty == 11

/-! ## SEED_STORE and SEED_LOAD (R514, R515) -/

/-- A type SEED_STORE accepts. -/
def storeType (ty : Nat) : Bool := ty == 9 || ty == 10 || ty == 11 || ty == 13 || ty == 14 || (decide (16 ≤ ty) && decide (ty < 32))

/-- SEED_STORE (R514, R523): `host` is the payload where it lies in host memory (none where the transfer fails). -/
def Block.seedStore (s : Block) (c : Cmd) (host : Option Bytes) : Block :=
  let ty := c.par 16 2
  let len := c.par 20 4
  if !storeType ty || 1 < c.par 18 1 || len = 0 || slotSize ty - 32 < len then s.complete c.cseq 2
  else
    let dev := natBit (c.par 18 1) 0
    if !dev && host.isNone then s.complete c.cseq 7 else
    match s.readBuf dev (c.par 24 8) len (host.getD []) with
    | (s, none) => s.complete c.cseq 7
    | (s, some data) =>
      let pol := s.ownerPolicy && policyType ty
      let ok := !pol || s.trailerOk ty data
      let s := if pol then s.verified ok else s
      if !ok then (s.post 0x20 0x193 [w32 (ty + 65536 * trailerSlot data)]).complete c.cseq 6
      else (s.seedAsk (recordReq ty pol data (some c.cseq) .store)).setStage c.cseq 1

def execSeedStore (cseq : Word) (host : Option Bytes) (s : State) : Res :=
  s.does fun s =>
    match s.startable cseq 7 with
    | some c => s.seedStore c host
    | none => s

/-- SEED_LOAD (R515): `xok` says that the transfer to a host buffer completes. -/
def Block.seedLoad (s : Block) (c : Cmd) (xok : Bool) : Block :=
  let ty := c.par 16 2
  let which := natBits (c.par 18 1) 1 2
  if (slotTable ty).isNone || which = 3 || 7 < c.par 18 1 then s.complete c.cseq 2
  else
    let slot := if which = 0 then (s.newest ty).getD 0 else which - 1
    let i := s.slot ty slot
    let data := if i.st = 0 then [] else if ty = 8 then s.tr.cert else i.payload
    if (which ≠ 0 ∧ i.st = 0) ∨ c.par 20 4 < 16 + data.length then s.complete c.cseq 2
    else
      let s := s.slotErrors ty slot
      let s : Block := if i.st = 2 then { s with se := { s.se with chkOnly := true } } else s
      let head := leBytes 2 ty ++ leBytes 2 i.st ++ leBytes 4 i.seq.toNat ++ leBytes 4 data.length ++ leBytes 4 0
      let (s, ok) := s.writeBuf (natBit (c.par 18 1) 0) (c.par 24 8) (head ++ data)
      s.complete c.cseq (if ok && xok then 0 else 7)

def execSeedLoad (cseq : Word) (xok : Bool) (s : State) : Res :=
  s.does fun s =>
    match s.startable cseq 8 with
    | some c => s.seedLoad c xok
    | none => s

end Sys2Proof.Machine
end

