-- ==== Sys2Proof/Machine/Trust.lean ====
section
/-!
DEFINITION. The trust engine (R154, R155, R517 to R528): the measured boot, attestation, owner keys and the debug challenge.  The signatures
the engine makes with the identity key are operands; those it checks are computed.
-/
namespace Sys2Proof.Machine

/-- Where the measurement log lies in CP11: what BOOT_MLOG_ADDR gives (log entry 187). -/
def Block.logAddr (s : Block) : Nat := s.fld R.BOOT_MLOG_ADDR_HI 0 16 * 0x100000000 + (s.reg R.BOOT_MLOG_ADDR_LO).toNat

/-- The 72 bytes of an entry: type, index, digest (R154). -/
def logEntry (e : Nat × Nat × List Byte) : List Byte := leBytes 4 e.1 ++ leBytes 4 e.2.1 ++ padBytes 64 e.2.2

/-- An entry is appended to the measurement log in CP11, and M is stepped (R154, R155). -/
def Block.measure (s : Block) (ty : Nat) (digest : List Byte) : Block :=
  let e := (ty, s.bt.mlog.length, digest)
  ({ s with bt := { s.bt with m := sha512 (s.bt.m ++ digest), mlog := s.bt.mlog ++ [e] } } : Block).setMem
    (s.logAddr + 72 * s.bt.mlog.length) (logEntry e)

/-- The bytes of the measurement log, as CP11 holds them. -/
def Block.logBytes (s : Block) : List Byte := s.memBytes s.logAddr (72 * s.bt.mlog.length)

/-! ## ATTEST (R526) -/

/-- Bytes 0 to 255 of the quote (Table 16.7), as captured. -/
def Block.quote (s : Block) (nonce : List Byte) : List Byte :=
  leBytes 4 0x54515753 ++ leBytes 2 1 ++ leBytes 2 s.bt.mlog.length ++ s.uidBytes ++ leBytes 4 s.tm.fsn.toNat ++
    leBytes 8 s.tm.ft ++
    leBytes 4 (s.fld R.BOOT_ROLLBACK 0 7 + 128 * s.ownerPolicy.toNat + 256 * s.tr.unlockedBoot.toNat + 512 * s.se.chkOnly.toNat) ++
    padBytes 32 nonce ++ padBytes 64 s.bt.m ++ sha512 s.logBytes ++ List.replicate 64 0

/-- Is an ATTEST captured already, and waiting for the RSA engine? -/
def Block.attestWaits (s : Block) (cseq : Word) : Bool :=
  s.tr.rsaWait.any fun q => match q.2 with | .sign a => a.cseq == cseq | _ => false

/-- A request begins to wait for the RSA engine (R27). -/
def Block.rsaQueue (s : Block) (q : RsaReq) : Block := { s with tr := { s.tr with rsaWait := s.tr.rsaWait ++ [(s.now, q)] } }

/-- A wait for the RSA engine ends; those that ended more than a second ago are forgotten. -/
def Block.rsaWaited (s : Block) (since : Nat) : Block :=
  { s with tr := { s.tr with rsaWaits := (s.now, s.now - since) :: s.tr.rsaWaits.filter fun w => s.now < w.1 + 1000000000 } }

/-- TRUST_RSA_WAIT: the longest wait that ended in the last second or still lasts, in 100 us (log entry 233). -/
def Block.rsaLongest (s : Block) : Nat :=
  satN 16 ((((s.tr.rsaWaits.filter fun w => s.now < w.1 + 1000000000).map (·.2)) ++ s.tr.rsaWait.map fun q => s.now - q.1).foldl max 0 / 100000)

/-- ATTEST is checked and captures (R526): BAD_PARAM for a short buffer, NO_IDENTITY (R519).  While the RSA engine signs, it waits
in order of arrival (R27). -/
def Block.attestStart (s : Block) (c : Cmd) : Block :=
  if 1 < c.par 24 1 ∨ c.par 28 4 < 768 + 72 * s.bt.mlog.length + 4 + s.tr.cert.length then s.complete c.cseq 2
  else if !s.tr.identity then s.complete c.cseq 0x8000
  else
    let a : Attest := { cseq := c.cseq, dev := natBit (c.par 24 1) 0, addr := c.par 16 8, quote := s.quote ((c.param.drop 16).take 32),
                        log := s.logBytes, count := s.bt.mlog.length }
    if s.tr.attest.isSome then s.rsaQueue (.sign a)
    else ({ s with tr := { s.tr with attest := some a } } : Block).setStage c.cseq 1

/-- The quote is signed and written. -/
def Block.attestEnd (s : Block) (a : Attest) (sig : Bytes) (xok : Bool) : Block :=
  let s : Block := { s with tr := { s.tr with attest := none } }
  let s := (s.bump R.TRUST_SIGNS).postTally 0x194 (pageInst 0x20)
  let bs := a.quote ++ padBytes 512 sig ++ a.log ++ leBytes 4 s.tr.cert.length ++ s.tr.cert
  let (s, ok) := s.writeBuf a.dev a.addr bs
  if ok && xok then
    (s.postI 0x20 0x190 0 (pageInst 0x20) true [a.cseq, w32 a.count, w32 bs.length]).complete a.cseq 0
  else s.complete a.cseq 7

/-! ## OWNER_KEY (R520 to R522) -/

/-- The package of an OWNER_KEY (R520), or the status that ends the command. -/
def Block.ownerPackage (s : Block) (c : Cmd) (host : Option Bytes) : Block × Except Nat (List Byte) :=
  let slot := c.par 17 1
  let dev := natBit (c.par 18 1) 0
  if !(s.pw.state == .standby || s.pw.state == .ready) then (s, .error 4)
  else if 3 < slot ∨ 1 < c.par 18 1 then (s, .error 2)
  else if !dev && host.isNone then (s, .error 7)
  else match s.readBuf dev (c.par 24 8) 1040 (host.getD []) with
    | (s, some p) => if field p 512 1 = c.par 16 1 ∧ field p 513 1 = slot then (s, .ok p) else (s, .error 2)
    | (s, none) => (s, .error 7)

/-- The operation takes effect: its fuses, OWNER_KEY_CHANGE and its completion, which waits while a fuse write is held. -/
def Block.ownerDone (s : Block) (o : OwnerOp) (fuses : List Nat) : Block :=
  let s := s.blowAll fuses
  let s := s.post 0x20 0x191 [pk o.op o.slot o.auth 0]
  if s.pw.pfAsserted ∧ fuses ≠ [] then ({ s with se := { s.se with fuseCmd := s.se.fuseCmd ++ [o.cseq] } } : Block).setStage o.cseq 2
  else s.complete o.cseq 0

/-- The operation of a package. -/
def ownerOp (c : Cmd) (p : List Byte) : OwnerOp :=
  { cseq := c.cseq, op := c.par 16 1, slot := c.par 17 1, auth := field p 524 1, modulus := padBytes 512 p }

/-- The OWNER_KEYS record with a slot's modulus put in is asked for. -/
def Block.ownerRecord (s : Block) (o : OwnerOp) : Block :=
  let cur := padBytes 2048 ((s.newestData 7).getD [])
  let data := cur.take (512 * o.slot) ++ o.modulus ++ cur.drop (512 * o.slot + 512)
  (({ s with tr := { s.tr with own := some o } } : Block).seedAsk (recordReq 7 false data (some o.cseq) .ownerKeys)).setStage o.cseq 1

/-- Does the package's signature, over its bytes 0 to 527, authorise the operation (R521)? -/
def Block.authOk (s : Block) (o : OwnerOp) (p : List Byte) : Bool :=
  s.ownerOk o.auth && pssVerify (s.ownerModulus o.auth) (p.take 528) ((p.drop 528).take 512)

/-- The trust engine checks the package's signature. -/
def Block.authorised (s : Block) (o : OwnerOp) (p : List Byte) : Block × Bool :=
  let ok := s.authOk o p
  (s.verified ok, ok)

/-- The bits of a hash to blow. -/
def hashFuses (k : Nat) (h : List Byte) : List Nat := (List.range 512).filterMap fun i =>
    if natBit (h.getD (i / 8) 0).toNat (i % 8) then some (896 + 512 * k + i) else none

/-- OWNER_KEY INSTALL (R522). -/
def Block.ownerInstall (s : Block) (c : Cmd) (p : List Byte) : Block :=
  let o := ownerOp c p
  if s.ownerUsed o.slot then s.complete o.cseq 0x8000
  else
    let first := !((List.range 4).any s.ownerUsed) && o.auth == 255
    let (s, ok) := if first then (s, true) else s.authorised o p
    if (p.drop 516).take 8 = s.uidBytes ∧ ok then s.ownerRecord o else s.complete o.cseq 6

/-- OWNER_KEY REVOKE (R522). -/
def Block.ownerRevoke (s : Block) (c : Cmd) (p : List Byte) : Block :=
  let o := ownerOp c p
  let (s, ok) := s.authorised o p
  if !ok then s.complete o.cseq 6
  else if s.fuse 2950 && !((List.range 4).any fun k => decide (k ≠ o.slot) && s.ownerUsed k && !s.ownerRevoked k) then s.complete o.cseq 0x8001
  else s.ownerDone o [2944 + o.slot]

/-- OWNER_KEY POLICY_ON (R522). -/
def Block.ownerPolicyOn (s : Block) (c : Cmd) (p : List Byte) : Block :=
  let o := ownerOp c p
  let (s, ok) := s.authorised o p
  if ok then s.ownerDone o [2950] else s.complete o.cseq 6

/-- OWNER_KEY RESTORE (R522): no signature is needed. -/
def Block.ownerRestore (s : Block) (c : Cmd) (p : List Byte) : Block :=
  let o := ownerOp c p
  if s.ownerUsed o.slot && sha512 o.modulus == s.ownerHash o.slot then s.ownerRecord o else s.complete o.cseq 6

/-- The OWNER_KEYS record is committed: INSTALL then blows its hash. -/
def Block.ownerWritten (s : Block) : Block :=
  match s.tr.own with
  | none => s
  | some o =>
    let s : Block := { s with tr := { s.tr with own := none } }
    s.ownerDone o (if o.op = 1 then hashFuses o.slot (sha512 o.modulus) else [])

/-- An OWNER_KEY of one operation; a reserved operation is BAD_PARAM. -/
def Block.ownerKey (s : Block) (cseq : Word) (op : Nat) (host : Option Bytes) (f : Block → Cmd → List Byte → Block) : Block :=
  match s.startable cseq 0x000A with
  | some c =>
    if c.par 16 1 = 0 ∨ 4 < c.par 16 1 then s.complete cseq 2 else
    if c.par 16 1 ≠ op then s else
    match s.ownerPackage c host with
    | (s, .ok p) => f s c p
    | (s, .error e) => s.complete cseq e
  | none => s

def execOwnerKeyInstall (cseq : Word) (host : Option Bytes) (s : State) : Res :=
  s.does fun s => s.ownerKey cseq 1 host fun s c p => s.ownerInstall c p

def execOwnerKeyRevoke (cseq : Word) (host : Option Bytes) (s : State) : Res :=
  s.does fun s => s.ownerKey cseq 2 host fun s c p => s.ownerRevoke c p

def execOwnerKeyPolicyOn (cseq : Word) (host : Option Bytes) (s : State) : Res :=
  s.does fun s => s.ownerKey cseq 3 host fun s c p => s.ownerPolicyOn c p

def execOwnerKeyRestore (cseq : Word) (host : Option Bytes) (s : State) : Res :=
  s.does fun s => s.ownerKey cseq 4 host fun s c p => s.ownerRestore c p

/-! ## Debug unlock (R527, R528) -/

/-- JTAG_NEW_CHALLENGE (R527): `random` is the random value of the trust engine. -/
def Block.newChallenge (s : Block) (random : Bytes) : Block :=
  let n := s.tr.chalCount + 1
  { s with tr := { s.tr with challenge := s.uidBytes ++ padBytes 32 random ++ leBytes 8 n, chalValid := true, chalAt := s.now, chalCount := n } }

def execJtagNewChallenge (random : Bytes) (s : State) : Res := s.does fun s => s.onStrobe fun s => s.newChallenge random

/-- The key a modulus is (R528): 0 the vendor's, k + 1 owner slot k. -/
def Block.jtagKey (s : Block) (modulus : List Byte) : Option Nat :=
  if !s.ownerPolicy && sha512 modulus == s.otpBytes 0 64 then some 0
  else ((List.range 4).find? fun k => s.ownerOk k && s.ownerModulus k == modulus).map (· + 1)

/-- JTAG_RESPONSE (R528): the modulus, the scope, and the signature over the challenge and the scope. -/
def Block.jtagResponse (s : Block) (modulus : Bytes) (scope : Word) (sig : Bytes) : Block :=
  let live := s.tr.chalValid && decide (s.now < s.tr.chalAt + 60000000000)
  let key := s.jtagKey (padBytes 512 modulus)
  let good := live && key.isSome && pssVerify (padBytes 512 modulus) (s.tr.challenge ++ leBytes 4 scope.toNat) (padBytes 512 sig)
  let s := if live then s.verified good else s
  let ok := good && !s.pw.state.lightOn
  let s : Block := { s with tr := { s.tr with chalValid := false, jtagResult := if ok then 1 else 2, unlocked := s.tr.unlocked || ok,
                                              unlockedBoot := s.tr.unlockedBoot || ok, scope := if ok then scope else s.tr.scope } }
  s.post 0x20 0x192 [pk (if ok then 1 else 2) (key.getD 0) 0 0, scope]

def execJtagResponse (modulus : Bytes) (scope : Word) (sig : Bytes) (s : State) : Res :=
  s.does fun s => if s.hostOk then s.jtagResponse modulus scope sig else s

/-- JTAG_CHALLENGE_EXPIRY (R527): 60 s after the challenge. -/
def execJtagChallengeExpiry (s : State) : Res :=
  s.does fun s =>
    if s.tr.chalValid then
    let s := s.advance (s.tr.chalAt + 60000000000 - s.now)
    { s with tr := { s.tr with chalValid := false, jtagResult := 3 } }
  else s

end Sys2Proof.Machine
end

