-- ==== Sys2Proof/Machine/Time.lean ====
section
/-!
DEFINITION. Fabric time and its sources (R38 to R45, R670), timecode (R62, R63), and the latching reads of the TIME page.
-/
namespace Sys2Proof.Machine

/-! ## Steps and slews (R42 to R44, R670) -/

/-- The index of the first boundary after an instant, from `k` on. -/
def Block.firstK (s : Block) (ft : Nat) (k : Nat) : Nat :=
  if s.fbAt k ≤ ft then max k ((((ft - s.tm.epoch + 1) * max 1 s.tm.den) - 1) / max 1 s.tm.num + 1) else k

/-- The first index of the series whose boundary is at or after an instant. -/
def Block.indexAt (s : Block) (ft : Nat) : Nat := if ft = 0 then 0 else s.firstK (ft - 1) 0

/-- FT_STEP (Table 19.10): the whole nanoseconds of a step in 1/256 ns (log entry 171). -/
def Block.postStep (s : Block) (off : Nat) : Block := s.post 0x07 0x222 [w32 (off / 256), w32 (off / 256 / 0x100000000)]

/-- A commit waits for `n` boundaries fewer, and its target frame is as many earlier (R670). -/
def Commit.passOver (n : Nat) (c : Commit) : Commit := { c with skip := c.skip - n, target := c.target - w32 (min c.skip n) }

/-- FT steps forward by `off` / 256 ns (R670): the boundaries passed over are not handled, and what was pending for them waits for the
first one after the new FT.  TIME_FB_K then reads the index of the last boundary passed over (log entry 235). -/
def Block.stepFt (s : Block) (off : Nat) : Block :=
  let t := s.tm.ft * 2 ^ 32 + s.tm.frac + off * 2 ^ 24
  let ft := t / 2 ^ 32
  let k := s.firstK ft s.tm.nextK
  let n := k - s.tm.nextK
  let s : Block := { s with tm := { s.tm with ft := ft, frac := t % 2 ^ 32, slew := 0, nextK := k, curK := if n = 0 then s.tm.curK else k - 1,
                                              cutoffDone := s.tm.cutoffDone && n == 0 } }
  let s : Block := { s with cm := { s.cm with list := s.cm.list.map (Commit.passOver n) } }
  s.postStep off

/-- An offset, in 1/256 ns, is corrected (R42 to R44).  It stands in place of whatever an earlier offset left to slew or to step. -/
def Block.correct (s : Block) (off : Int) : Block :=
  let slewed : Block := { s with tm := { s.tm with slew := off * 2 ^ 24, stepDue := 0 } }
  if off ≤ 0 then slewed
  else if !s.pw.state.lightOn then ({ s with tm := { s.tm with stepDue := 0 } } : Block).stepFt off.toNat
  else if off ≤ ((s.reg R.TIME_STEP_THRESH).toNat * 256 : Nat) || !bit (s.reg R.TIME_CTRL) 7 then slewed
  else { s with tm := { s.tm with slew := 0, stepDue := off.toNat } }

/-- TIME_OFFSET takes a measured offset, in ns, saturating. -/
def Block.putOffset (s : Block) (off : Int) : Block :=
  s.setReg R.TIME_OFFSET (w32 (unsgn 32 (clampI (-2147483648) 2147483647 (off / 256))))

/-! ## Sources (R39 to R41) -/

/-- The code of a source (Table 2.11). -/
def TimeSrc.code : TimeSrc → Nat
  | .wipex => 0 | .fsync => 1 | .refclk => 2

/-- TIME_SRC_STATUS.STATE: HOLDOVER after the fallback to REFCLK and while a forced source is lost or not yet qualified (R41), whatever is
left to slew; else SLEWING while an offset is being slewed.  While SRC_MODE forces REFCLK the spec gives no state: SLEWING with an offset
left, and HOLDOVER without (log entry 235). -/
def Block.lockCode (s : Block) : Nat :=
  if s.tm.lock == .holdover && s.fld R.TIME_CTRL 0 2 != 3 then 2
  else if s.tm.slew ≠ 0 then 3 else match s.tm.lock with
    | .acquiring => 0 | .locked => 1 | .holdover => 2 | .slewing => 3

/-- A frame period in ns. -/
def Block.period (s : Block) : Nat := s.tm.num / max 1 s.tm.den

/-- The interval a source's timestamps are expected at (R40). -/
def Block.srcInterval (s : Block) : TimeSrc → Nat
  | .wipex => 1000000000 / 2 ^ s.afld R.WPX_TIME_CFG 0 4
  | .fsync => if s.fld R.TIME_CTRL 2 2 = 1 then 1000000000 else s.period
  | .refclk => 0

/-- The loss bound of a source (R40). -/
def Block.lossBound (s : Block) (c : TimeSrc) : Nat := s.srcInterval c + s.fld R.TIME_SRC_TIMEOUT 0 16 * 1000000

/-- When a source last gave a valid timestamp. -/
def Block.srcLast (s : Block) : TimeSrc → Option Nat
  | .wipex => s.tm.fabricLast | .fsync => s.tm.fsyncLast | .refclk => none

/-- Is a source qualified now (Table 2.1)? -/
def Block.qualified (s : Block) (c : TimeSrc) : Bool :=
  match c with
  | .refclk => true
  | .wipex => s.tm.fabricQual && (match s.tm.fabricLast with
      | some t => decide (s.now ≤ t + s.lossBound .wipex)
      | none => false)
  | .fsync => s.tm.fsyncQual && (match s.tm.fsyncLast with
      | some t => decide (s.now ≤ t + s.lossBound .fsync)
      | none => false)

/-- A source is selected, with TIME_SRC_CHANGE. -/
def Block.goSrc (s : Block) (c : TimeSrc) : Block :=
  let ok := c != .refclk && s.qualified c
  let lock : LockState := if ok then .acquiring else .holdover
  let old := s.tm.src
  if old = c then (if ok then s else { s with tm := { s.tm with lock := lock } })
  else
    let s : Block := { s with tm := { s.tm with src := c, lock := lock, offsets := [],
                                                fabricHad := s.tm.fabricHad || c == .wipex, fsyncHad := s.tm.fsyncHad || c == .fsync } }
    s.post 0x07 0x220 [pk c.code old.code s.lockCode 0, s.tm.fsn]

/-- Does a source have priority over the selected one (Table 2.1)? -/
def Block.above (s : Block) (c : TimeSrc) : Bool := decide (c.code < s.tm.src.code)

/-- Has a source been selected before? -/
def Block.srcHad (s : Block) : TimeSrc → Bool
  | .wipex => s.tm.fabricHad | .fsync => s.tm.fsyncHad | .refclk => true

/-- Since when a source has been qualified. -/
def Block.srcSince (s : Block) : TimeSrc → Option Nat
  | .wipex => s.tm.fabricSince | .fsync => s.tm.fsyncSince | .refclk => none

/-- May AUTO take a source now: it is qualified and, where it has priority over the selected source and was selected before, it has
stayed qualified for TIME_SRC_QUALIFY (R39, R40)? -/
def Block.eligibleSrc (s : Block) (c : TimeSrc) : Bool :=
  s.qualified c && (!s.above c || !s.srcHad c ||
    (match s.srcSince c with | some t => decide (t + s.fld R.TIME_SRC_QUALIFY 0 16 * 1000000 ≤ s.now) | none => false))

/-- The source TIME_CTRL.SRC_MODE forces, or in AUTO the first one of Table 2.1 that may be taken (R39, R40). -/
def Block.wantSrc (s : Block) : TimeSrc :=
  match s.fld R.TIME_CTRL 0 2 with
  | 1 => .wipex
  | 2 => .fsync
  | 3 => .refclk
  | _ => if s.eligibleSrc .wipex then .wipex else if s.eligibleSrc .fsync then .fsync else .refclk

/-- A source has become qualified: in AUTO it is taken at once where it has never been selected (R39); one lost before waits for
TIME_SRC_QUALIFY (R40). -/
def Block.srcUp (s : Block) (c : TimeSrc) : Block :=
  if s.fld R.TIME_CTRL 0 2 == 0 && s.above c && !s.srcHad c then s.goSrc c else s

/-- A valid timestamp of a source, the offset in 1/256 ns: the selected source corrects FT.  The frequency correction the loop
then makes is not stated and is a free value within its bounds (log entry 35). -/
def Block.stamp (s : Block) (c : TimeSrc) (off : Int) : Block :=
  if s.tm.src ≠ c ∨ !s.qualified c then s
  else
    let l := (off :: s.tm.offsets).take 16
    let lock : LockState := if l.length = 16 ∧ (l.all fun o => decide (o.natAbs ≤ 12800)) then .locked else .acquiring
    let (n, s) := s.takeBelow 4294966
    let s : Block := { s with tm := { s.tm with offsets := l, lock := lock } }
    ((s.putOffset off).setReg R.TIME_FREQ_TRIM (w32 (unsgn 32 ((n : Int) - 2147483)))).correct off

/-- TIME_SOURCE_LOST (R40, R41): the selected source has given no valid timestamp for its interval and the timeout. -/
def execTimeSourceLost (s : State) : Res :=
  s.does fun s =>
    match s.srcLast s.tm.src with
    | some t =>
      if s.tm.src = .refclk ∨ !s.tm.run then s
      else
        let s := s.advance (t + s.lossBound s.tm.src - s.now)
        let s : Block := if s.tm.src = .wipex
          then { s with tm := { s.tm with fabricQual := false, fabricSince := none, fabricLast := none } }
          else { s with tm := { s.tm with fsyncQual := false, fsyncSince := none, fsyncGood := none, fsyncLast := none } }
        s.goSrc s.wantSrc
    | none => s

/-- A source that stays qualified for TIME_SRC_QUALIFY is selected again (R40). -/
def Block.requalify (s : Block) (c : TimeSrc) : Option Block :=
  match s.srcSince c with
  | some t =>
    if s.above c ∧ s.qualified c then
      let u := s.advance (t + s.fld R.TIME_SRC_QUALIFY 0 16 * 1000000 - s.now)
      if u.qualified c then some (u.goSrc c) else none
    else none
  | none => none

/-- TIME_SOURCE_REQUALIFIED (R40). -/
def execTimeSourceRequalified (s : State) : Res :=
  s.does fun s =>
    if s.tm.run ∧ s.fld R.TIME_CTRL 0 2 = 0 then
    match s.requalify .wipex with
    | some t => t
    | none => (s.requalify .fsync).getD s
  else s

/-! ## FSYNC_IN (Table 2.1) -/

/-- The offset of an edge, in 1/256 ns: the nearest whole second, or the nearest boundary, less FT. -/
def Block.edgeOff (s : Block) : Int :=
  let now : Int := (s.tm.ft * 256 + s.tm.frac / 2 ^ 24 : Nat)
  if s.fld R.TIME_CTRL 2 2 = 1 then
    (((s.tm.ft + 500000000) / 1000000000 * 256000000000 : Nat) : Int) - now
  else
    let k := s.indexAt s.tm.ft
    let a : Int := (s.fbAt (k - 1) * 256 : Nat) - now
    let b : Int := (s.fbAt k * 256 : Nat) - now
    if a.natAbs ≤ b.natAbs then a else b

/-- Did the edge before come one expected interval ago: the local time between the two is nearer to one interval than to none or to two
(Table 2.1; log entry 236)? -/
def Block.edgeSpaced (s : Block) (t : Nat) : Bool :=
  let i := s.srcInterval .fsync
  decide (i ≤ 2 * (s.now - t)) && decide (2 * (s.now - t) ≤ 3 * i)

/-- An edge within 10 us of FT: the run of edges one interval apart, and the qualification it earns (Table 2.1).  A qualified source
stays so while its edges come within the loss bound (R40). -/
def Block.goodEdge (s : Block) : Block :=
  let run := match s.tm.fsyncLast, s.tm.fsyncGood with
    | some t, some g => if s.edgeSpaced t then g else s.now
    | _, _ => s.now
  let q := decide (run + s.fld R.TIME_SRC_QUALIFY 0 16 * 1000000 ≤ s.now)
  let was := s.qualified .fsync
  let s : Block := { s with tm := { s.tm with fsyncLast := some s.now, fsyncGood := some run, fsyncQual := q || was,
                                              fsyncSince := if was then s.tm.fsyncSince else if q then some s.now else none } }
  if q && !was then s.srcUp .fsync else s

/-- FSYNC_IN_EDGE (R39): an edge arrives `after` ns of local time. -/
def Block.fsyncEdge (s : Block) : Block :=
  let off := s.edgeOff
  if 2560000 < off.natAbs then
    (if s.qualified .fsync then s else { s with tm := { s.tm with fsyncQual := false, fsyncGood := none, fsyncLast := none, fsyncSince := none } })
  else
    let s := s.goodEdge
    if s.tm.src = .fsync ∧ s.tm.fsyncQual then
      ({ s with tm := { s.tm with lock := if s.tm.lock = .holdover then .acquiring else s.tm.lock } } : Block).stamp .fsync off
    else s

def execFsyncInEdge (after : Nat) (s : State) : Res :=
  s.does fun s =>
    let s := s.advance after
    if s.tm.run ∧ (s.fld R.TIME_CTRL 2 2 = 1 ∨ s.fld R.TIME_CTRL 2 2 = 2) then s.fsyncEdge else s

/-! ## Fabric time from SYNC (R561, R562) -/

/-- A SYNC of the parent gives an offset, in 1/256 ns; `steps` below 32 keeps the source qualified. -/
def Block.fabricStamp (s : Block) (off : Int) : Block :=
  let kept := s.qualified .wipex
  let s : Block := { s with tm := { s.tm with fabricLast := some s.now, fabricQual := true,
                                              fabricSince := if kept then s.tm.fabricSince else some s.now } }
  let s := if kept then s else s.srcUp .wipex
  s.stamp .wipex off

/-! ## Setting FT and TIME_CTRL (R45, R80) -/

def execTimeFtSetHiWrite (v : Word) (s : State) : Res :=
  s.does fun s => if s.hostOk then { s with tm := { s.tm with ftSetHi := v.toNat } } else s

/-- Is FT the host's to set (R45)?  While FSYNC_IN is forced with FSYNC_IN_MODE off, neither sentence of R45 names the case; the model
takes the write (log entry 172). -/
def Block.ftSettable (s : Block) : Bool :=
  s.tm.src == .refclk || (s.tm.src == .fsync && s.fld R.TIME_CTRL 2 2 != 2)

/-- A write of TIME_FT_SET_LO (R45). -/
def Block.ftSet (s : Block) (v : Word) : Block :=
  if !s.tm.run then s
  else if !s.ftSettable then s.errCause 0x07 17
  else
    let off : Int := ((s.tm.ftSetHi * 0x100000000 + v.toNat : Nat) : Int) - s.tm.ft
    (s.putOffset (off * 256)).correct (off * 256)

def execTimeFtSetLoWrite (v : Word) (s : State) : Res := s.does fun s => if s.hostOk then s.ftSet v else s

/-- FSYNC_IN starts to qualify anew: its mode has changed. -/
def Block.fsyncDrop (s : Block) : Block :=
  { s with tm := { s.tm with fsyncQual := false, fsyncGood := none, fsyncLast := none, fsyncSince := none } }

/-- A write of TIME_CTRL (R80): in LIT the source mode stays, and a write that asks for another sets SRC_LOCKED; one that repeats the
value in force is taken as no write to it (log entry 173).  The source is selected anew where either mode has changed. -/
def Block.timeCtrl (s : Block) (v : Word) : Block :=
  let old := s.reg R.TIME_CTRL
  let refused := s.pw.state.lightOn && bits v 0 2 != bits old 0 2
  let w := if refused then setBits v 0 2 (bits old 0 2) else v
  let s := if refused then s.errCause 0x07 16 else s
  let s := s.setReg R.TIME_CTRL w
  let s := if bits w 2 2 = bits old 2 2 then s else s.fsyncDrop
  if s.tm.run && (bits w 0 2 != bits old 0 2 || bits w 2 2 != bits old 2 2) then s.goSrc s.wantSrc else s

def execTimeCtrlWrite (v : Word) (s : State) : Res := s.does fun s => s.rwWrite R.TIME_CTRL v fun s w => s.timeCtrl w

/-! ## Timecode (R62, R63) -/

/-- The rate of TIME_TC_CFG.RATE as frames, over milliseconds x 1000, and the nominal frames per second. -/
def tcRate (r : Nat) : Nat × Nat × Nat :=
  match r with
  | 0 => (24, 1000000000, 24) | 1 => (25, 1000000000, 25) | 2 => (30, 1000000000, 30) | _ => (30000, 1001000000000, 30)

/-- Is a timecode in range? -/
def tcOk (r : Nat) (v : Word) : Bool :=
  decide (bits v 0 8 < (tcRate r).2.2) && decide (bits v 8 8 < 60) && decide (bits v 16 8 < 60) && decide (bits v 24 8 < 24)

/-- The frame count of a timecode; with drop-frame counting, two counts of each minute but every tenth are skipped. -/
def tcCount (r : Nat) (v : Word) : Nat :=
  let m := bits v 24 8 * 60 + bits v 16 8
  let n := (m * 60 + bits v 8 8) * (tcRate r).2.2 + bits v 0 8
  if r = 3 then n - 2 * (m - m / 10) else n

/-- The frames of a day. -/
def tcDay (r : Nat) : Nat := if r = 3 then 2589408 else 86400 * (tcRate r).2.2

/-- The timecode of a frame count. -/
def tcWord (r n : Nat) : Word :=
  let n := n % tcDay r
  let n := if r = 3 then
      let d := n / 17982
      let e := n % 17982
      n + 18 * d + (if e < 2 then 0 else 2 * ((e - 2) / 1798))
    else n
  let f := (tcRate r).2.2
  pk (n % f) (n / f % 60) (n / (f * 60) % 60) (n / (f * 3600))

/-- The frame count the anchor gives an instant (R62). -/
def Block.tcAt (s : Block) (ft : Nat) : Nat :=
  let (a, b, _) := tcRate (s.fld R.TIME_TC_CFG 0 2)
  let d := tcDay (s.fld R.TIME_TC_CFG 0 2)
  let e : Int := ((ft : Int) - (s.tm.tcFt : Int)) * (a : Int) / (b : Int)
  (((s.tm.tcCount : Int) + e) % (d : Int)).toNat

/-- FT at which the anchor gives a frame count (R62), the occurrence at or after the anchor or within half a day before it. -/
def Block.tcFtOf (s : Block) (n : Nat) : Nat :=
  let (a, b, _) := tcRate (s.fld R.TIME_TC_CFG 0 2)
  let day : Int := tcDay (s.fld R.TIME_TC_CFG 0 2)
  let d : Int := ((n : Int) - (s.tm.tcCount : Int)) % day
  let d := if day < 2 * d then d - day else d
  ((s.tm.tcFt : Int) + (if 0 ≤ d then (d * (b : Int) + (a : Int) - 1) / (a : Int) else d * (b : Int) / (a : Int))).toNat

/-- TIME_TC_NOW: the timecode now. -/
def Block.tcNow (s : Block) : Word := if s.tm.tcValid then tcWord (s.fld R.TIME_TC_CFG 0 2) (s.tcAt s.tm.ft) else 0

/-- A timecode message re-anchors (R62, R63): TC_JUMP where it is more than 2 frames from what the anchor predicts. -/
def Block.tcAnchor (s : Block) (v : Word) (ft : Nat) : Block :=
  let r := s.fld R.TIME_TC_CFG 0 2
  let n := tcCount r v
  let p := s.tcAt ft
  let d := (n + tcDay r - p) % tcDay r
  let jump := s.tm.tcValid && decide (2 < min d (tcDay r - d))
  let s : Block := { s with tm := { s.tm with tcValid := true, tcCount := n, tcFt := ft, tcAt := s.now } }
  if jump then s.post 0x07 0x221 [v, tcWord r p] else s

/-- A timecode message of the fabric (Table 17.5) re-anchors while TIME_TC_CFG.SOURCE names the fabric. -/
def Block.tcFabric (s : Block) (d : List Byte) : Block :=
  let v := w32 (field d 0 4)
  if s.fld R.TIME_TC_CFG 2 2 = 1 ∧ tcOk (s.fld R.TIME_TC_CFG 0 2) v then s.tcAnchor v (field d 8 8) else s

/-- TC_FREEWHEEL_EXPIRY (R63): FREEWHEEL after the last message. -/
def execTcFreewheelExpiry (s : State) : Res :=
  s.does fun s =>
    if s.tm.tcValid then
    let s := s.advance (s.tm.tcAt + s.fld R.TIME_TC_CFG 8 8 * 100000000 - s.now)
    { s with tm := { s.tm with tcValid := false } }
  else s

/-! ## Latching reads -/

/-- A read of TIME_FT_LO (R38, Table 2.9). -/
def execTimeFtLoRead (s : State) : Res :=
  s.does fun s =>
    if s.hostOk then
    s.setRegs [(R.TIME_FT_HI, w32 (s.tm.ft / 0x100000000)), (R.TIME_FT_FRAC, w32 (s.tm.frac / 2 ^ 24))]
  else s

/-- A read of TIME_CUTOFF_LO (R53, Table 2.9). -/
def execTimeCutoffLoRead (s : State) : Res :=
  s.does fun s => if s.hostOk then s.setReg R.TIME_CUTOFF_HI (w32 ((if s.tm.run then s.nextCutoff else 0) / 0x100000000)) else s

/-- A read of TALLY_SNAP_LO of counter n (R616). -/
def execTallySnapLoRead (n : Nat) (s : State) : Res :=
  s.does fun s =>
    if s.hostOk then
    match s.ty.cnt[n]? with
    | some c => s.setReg (R.TALLY_SNAP_HI n) (w32 (c.snap / 0x100000000 % 65536 + 65536 * c.snapWrap.toNat))
    | none => s
  else s

end Sys2Proof.Machine
end

