-- ==== Sys2Proof/Machine/Fabric.lean ====
section
/-!
DEFINITION. The links of the Wipex fabric (R533 to R547, R558 to R560, R564, R569): frames, classes and credits, link retry, flows,
host traffic and modules.
-/
namespace Sys2Proof.Machine

/-! ## Ports -/

/-- A fabric port. -/
def Block.fport (s : Block) (p : Nat) : FabPort := s.fb.ports.getD p FabPort.reset

/-- A fabric port changes. -/
def Block.modF (s : Block) (p : Nat) (f : FabPort → FabPort) : Block :=
  { s with fb := { s.fb with ports := modAt s.fb.ports p f } }

/-- An event of a port. -/
def Block.postF (s : Block) (p ty : Nat) (data : List Word) : Block := s.postI (0x22 + p) ty 0 p false data

/-- A port takes a state, with FAB_PORT_STATE (Table 17.14). -/
def Block.fGoto (s : Block) (p st : Nat) : Block :=
  let q := s.fport p
  if q.st = st then s
  else (s.modF p fun q => { q with st := st, since := s.now }).postF p 0x1C0
    [pk p st q.st 0, w32 q.uid, w32 (q.uid / 0x100000000)]

/-- Does the fabric run: from STANDBY on, with WPX_CFG.EN? -/
def Block.fabOn (s : Block) : Bool := s.hostOk && s.abit R.WPX_CFG 0

/-- Is a port enabled? -/
def Block.fEn (s : Block) (p : Nat) : Bool := s.fabOn && s.abit (R.WPXP_CFG p) 0

/-! ## Frames (R538 to R540) -/

/-- The receive buffer of a class, in cells (Table 17.4). -/
def fabBuf : Nat → Nat
  | 1 => 128 | 2 => 1024 | 3 => 8192 | 4 => 2048 | _ => 0

/-- The cells of a frame (R542). -/
def cellsOf (len : Nat) : Nat := cdiv len 64

/-- A header field of a frame. -/
def fcls (b : List Byte) : Nat := field b 0 1 % 8
def fmcast (b : List Byte) : Bool := natBit (field b 0 1) 3
def fhops (b : List Byte) : Nat := field b 1 1 % 64
def fdst (b : List Byte) : Nat := field b 2 2
def fsrc (b : List Byte) : Nat := field b 4 2
def fproto (b : List Byte) : Nat := field b 8 1
def fpay (b : List Byte) : List Byte := (b.drop 20).take (field b 10 2)

/-- A frame as its originator writes it, padded; LSEQ and CRC are put in as it is sent (Table 17.2). -/
def mkFrame (cls : Nat) (mcast : Bool) (dst src proto flags fseq flowid : Nat) (pay : List Byte) : List Byte :=
  padBytes (max 60 (20 + pay.length))
    (leBytes 1 (cls + 8 * mcast.toNat + 16) ++ leBytes 1 0 ++ leBytes 2 dst ++ leBytes 2 src ++ leBytes 2 0 ++ leBytes 1 proto ++
      leBytes 1 flags ++ leBytes 2 pay.length ++ leBytes 4 fseq ++ leBytes 2 flowid ++ leBytes 2 0 ++ pay)

/-- A frame with its HOPS. -/
def withHops (b : List Byte) (h : Nat) : List Byte := b.take 1 ++ leBytes 1 h ++ b.drop 2

/-- A frame with its LSEQ. -/
def withLseq (b : List Byte) (n : Nat) : List Byte := b.take 6 ++ leBytes 2 n ++ b.drop 8

/-- The CRC of a frame without its CRC field (R539). -/
def frameCrc (b : List Byte) : Nat :=
  let z := withLseq (withHops b (field b 1 1 / 64 * 64)) 0
  crc32 ((b.drop 2).take 2 ++ [0, 0] ++ z)

/-- A frame as it crosses the link. -/
def onWire (b : List Byte) : List Byte := b ++ leBytes 4 (frameCrc b)

/-- The type of the terminate block that ends a frame with k data octets (IEEE 802.3 Clause 82; log entry 217). -/
def termType (k : Nat) : Byte := ([0x87, 0x99, 0xAA, 0xB4, 0xCC, 0xD2, 0xE1, 0xFF] : List Byte).getD k 0xFF

/-- The blocks after a start block: data blocks of eight octets, and the terminate block; `n` bounds their number. -/
def pcsTail : Nat → List Byte → List (Bool × List Byte)
  | 0, _ => []
  | n + 1, bs => if bs.length < 8 then [(true, padBytes 8 (termType bs.length :: bs))] else (false, bs.take 8) :: pcsTail n (bs.drop 8)

/-- A frame as blocks of eight octets (R534): a start block whose seven data octets are bytes 0 to 6, data blocks, a terminate block, and
a block of idle; each with its mark, true for a control block. -/
def pcsBlocks (frame : List Byte) : List (Bool × List Byte) :=
  (true, 0x78 :: frame.take 7) :: pcsTail (frame.length / 8 + 1) (frame.drop 7) ++ [(true, padBytes 8 [0x1E])]

/-- A frame leaves by a port. -/
def Block.putFrame (s : Block) (p cls : Nat) (b : List Byte) : Block := s.emit (.fabric p cls (pcsBlocks (onWire b)))

/-- The class a PROTO code must arrive in, as a list of the classes allowed (Table 17.3); none for a reserved code. -/
def protoClasses (p : Nat) : List Nat :=
  if (1 ≤ p ∧ p ≤ 4) ∨ (0x10 ≤ p ∧ p ≤ 0x12) ∨ p = 0x18 then [2]
  else if p = 5 then [3]
  else if 0x20 ≤ p ∧ p ≤ 0x22 then [1]
  else if p = 0x28 then [0]
  else if p = 0x30 ∨ p = 0x31 then [4]
  else if 0x80 ≤ p then [2, 4] else []

/-- Are the fields of an accepted frame good (R540)?  `b` is the frame without its CRC. -/
def frameGood (b : List Byte) : Bool :=
  field b 0 1 / 16 == 1 && decide (fcls b < 5) && decide (field b 1 1 < 64) && decide (fdst b < 0x4000) && decide (fsrc b < 0x4000) &&
    (!fmcast b || decide (fdst b < 0x1000)) && decide (field b 9 1 < 8) && field b 18 2 == 0 &&
    b.length == max 60 (20 + field b 10 2) && (protoClasses (fproto b)).contains (fcls b)

/-! ## Credits and the egress (R541 to R545) -/

/-- The account of a class. -/
def FabPort.acc (q : FabPort) (c : Nat) : FabCls := q.cls.getD (c - 1) { sent := 0, base := 0, f := 0, d := 0, occ := 0, freed := 0 }

/-- The account of a class changes. -/
def FabPort.modAcc (q : FabPort) (c : Nat) (f : FabCls → FabCls) : FabPort := { q with cls := modAt q.cls (c - 1) f }

/-- C of a class: B less what was charged and is not reported freed (R542). -/
def FabPort.credit (q : FabPort) (c : Nat) : Nat := fabBuf c - ((q.acc c).sent + 2 ^ 32 - (q.acc c).base) % 2 ^ 32

/-- Is a class sequenced and replayed? -/
def sequenced (c : Nat) : Bool := 2 ≤ c && c ≤ 4

/-- The bytes of a frame to send, with its CRC. -/
def FabTx.len (t : FabTx) : Nat := t.bytes.length + 4

/-- The bytes the replay buffer holds. -/
def FabPort.replayBytes (q : FabPort) : Nat := (q.replay.map fun e => e.2.len).sum

/-- May a port send a frame in the state it is in (R565)? -/
def Block.mayPass (s : Block) (p : Nat) (b : List Byte) : Bool :=
  let st := (s.fport p).st
  st == 6 || ((st == 4 || st == 5) && (fproto b == 0x18 || ((fproto b == 0x30 || fproto b == 0x31) && s.abit R.WPX_CFG 2)))

/-- May a frame begin: credit for the whole frame, and room in the replay buffer (R542, R545)? -/
def Block.maySend (s : Block) (p : Nat) (t : FabTx) : Bool :=
  let q := s.fport p
  q.audited && s.mayPass p t.bytes && decide (cellsOf t.len ≤ q.credit t.cls) &&
    (!sequenced t.cls || decide (q.replayBytes + t.len ≤ 262144))

/-- The first waiting frame of a class that may begin: its place in the queue. -/
def Block.sendable (s : Block) (p c : Nat) : Option Nat :=
  let q := (s.fport p).txq
  match q.findIdx? fun t => t.cls == c && s.mayPass p t.bytes with
  | some i => match q[i]? with
    | some t => if s.maySend p t then some i else none
    | none => none
  | none => none

/-- The frame that goes next (Table 17.4): CTRL holds to its share of the link while CONTENT frames wait. -/
def Block.nextTx (s : Block) (p : Nat) : Option Nat :=
  let q := s.fport p
  let wait := q.txq.any fun t => t.cls == 3
  let share := max 1 (s.afld (R.WPXP_CTRL_SHARE p) 0 8)
  let inShare := !wait || decide (q.ctrlBytes * 100 ≤ share * q.allBytes)
  match s.sendable p 1 with
  | some i => some i
  | none => match (if inShare then s.sendable p 2 else none) with
    | some i => some i
    | none => match s.sendable p 3 with
      | some i => some i
      | none => match s.sendable p 4 with
        | some i => some i
        | none => s.sendable p 2

/-- Cells of a stored frame are freed (R543). -/
def Block.freeCells (s : Block) (p c n : Nat) : Block :=
  s.modF p fun q => { q.modAcc c fun a => { a with occ := a.occ - n, f := a.f + n } with ackDue := true }

/-- A copy of a stored frame has been sent: at the last one its cells are freed. -/
def Block.unhold (s : Block) (id : Nat) : Block :=
  match s.fb.holds.find? fun h => h.id == id with
  | none => s
  | some h =>
    if h.left ≤ 1 then
      ({ s with fb := { s.fb with holds := s.fb.holds.filter fun h => h.id != id } } : Block).freeCells h.port h.cls h.cells
    else { s with fb := { s.fb with holds := s.fb.holds.map fun h => if h.id == id then { h with left := h.left - 1 } else h } }

/-- One frame leaves: it is charged, numbered and kept for replay (R542, R545). -/
def Block.sendOne (s : Block) (p i : Nat) : Block :=
  let q := s.fport p
  match q.txq[i]? with
  | none => s
  | some t =>
    let n := q.nextSeq
    let b := if sequenced t.cls then withLseq t.bytes n else t.bytes
    let s := s.modF p fun q =>
      let q := { q.modAcc t.cls fun a => { a with sent := (a.sent + cellsOf t.len) % 2 ^ 32 } with txq := q.txq.eraseIdx i }
      let q := if (q.txq.any fun t => t.cls == 3) || t.cls == 3 then
          { q with ctrlBytes := q.ctrlBytes + (if t.cls = 2 then t.len else 0), allBytes := q.allBytes + t.len }
        else { q with ctrlBytes := 0, allBytes := 0 }
      if sequenced t.cls then
        { q with nextSeq := (n + 1) % 65536, replay := q.replay ++ [(n, t)],
                 progressAt := if q.replay.isEmpty then s.now else q.progressAt }
      else q
    let s := s.putFrame p t.cls b
    match t.hold with
    | some id => s.unhold id
    | none => s

/-- Frames leave while they may. -/
def Block.pumpN (s : Block) (p : Nat) : Nat → Block
  | 0 => s
  | n + 1 => match s.nextTx p with
    | some i => (s.sendOne p i).pumpN p n
    | none => s

/-- The egress of a port runs. -/
def Block.pump (s : Block) (p : Nat) : Block := s.pumpN p (s.fport p).txq.length

/-- A frame is queued on a port, and leaves as soon as it may. -/
def Block.enqueue (s : Block) (p : Nat) (t : FabTx) : Block := (s.modF p fun q => { q with txq := q.txq ++ [t] }).pump p

/-- A link-local message of this node. -/
def Block.sendLocal (s : Block) (p cls proto : Nat) (pay : List Byte) : Block :=
  s.enqueue p { cls := cls, bytes := mkFrame cls false 0 s.fb.addr proto 0 0 0 pay, hold := none, cseq := none }

/-- The ports that are up. -/
def Block.upPorts (s : Block) : List Nat := (List.range 4).filter fun p => (s.fport p).st == 6

/-- A flooded message leaves on every port that is up and admitted, but one (R549). -/
def Block.flood (s : Block) (proto : Nat) (pay : List Byte) (but : Nat := 4) : Block :=
  s.upPorts.foldl (fun s p => if p = but then s else s.sendLocal p 2 proto pay) s

/-! ## LINK_CTRL and link retry (R542 to R547) -/

/-- A LINK_CTRL is sent (Table 17.5): F - D of each class is reported; with AUDIT, the occupied cells, and F and D become 0
(R544). -/
def Block.linkCtrl (s : Block) (p : Nat) (nak audit : Bool) : Block :=
  let s := s.modF p fun q =>
    let cls := q.cls.map fun a =>
      if audit then { a with f := 0, d := 0 } else { a with freed := (a.freed + (a.f - a.d)) % 2 ^ 32, f := min a.f a.d }
    { q with cls := cls, ackDue := false, lastCtrl := s.now }
  let q := s.fport p
  let pay := leBytes 2 ((q.expSeq + 65535) % 65536) ++ leBytes 2 (nak.toNat + 2 * audit.toNat) ++
    (q.cls.flatMap fun a => leBytes 4 a.freed) ++ (q.cls.flatMap fun a => leBytes 4 (if audit then a.occ else 0))
  s.putFrame p 0 (mkFrame 0 false 0 s.fb.addr 0x28 0 0 0 pay)

/-- Does the link carry frames? -/
def Block.linkUp (s : Block) (p : Nat) : Bool :=
  match (s.fport p).st with
  | 4 => true | 5 => true | 6 => true | _ => false

/-- LINK_CTRL_SEND (R542): 1 us after the last one while there is something to say, else 100 us after it. -/
def execLinkCtrlSend (p : Nat) (s : State) : Res :=
  s.does fun s =>
    if s.linkUp p then
    let q := s.fport p
    let busy := q.ackDue || q.cls.any fun a => decide (a.d < a.f)
    (s.advance (q.lastCtrl + (if busy then 1000 else 100000) - s.now)).linkCtrl p false false
  else s

/-- The frames sent after ACK_LSEQ go again, in order (R547). -/
def Block.resend (s : Block) (p : Nat) : Block :=
  let q := s.fport p
  let s := q.replay.foldl (fun s e => s.putFrame p e.2.cls (withLseq e.2.bytes e.1)) s
  ((s.modF p fun q => { q with replays := q.replays + 1, progressAt := s.now }).bump (R.WPXP_RETRIES p)).postTally 0x1D1 p

/-- A neighbour is dropped (R548): the link leaves routes, trees and time with the next LSA. -/
def Block.nbrDrop (s : Block) (p : Nat) : Block :=
  if (s.fport p).heard.isSome then
    let s := s.modF p fun q => { q with uid := 0, addr := 0, nport := 0, heard := none, twoWay := false }
    { s with fb := { s.fb with lsaDue := true } }
  else s

/-- A port retrains (R547, R569): the frames in the replay buffer are kept. -/
def Block.retrain (s : Block) (p cause : Nat) : Block :=
  let s := ((s.nbrDrop p).fGoto p 7).bump (R.WPXP_RETRAINS p)
  let s := s.modF p fun q => { q with replays := 0, audited := false }
  s.faultEv (0x22 + p) 0x1C4 1 [pk p cause 0 0, s.tm.fsn] .fb p

/-- A replay, or a retrain once MAX replays in a row have made no progress (R547). -/
def Block.retry (s : Block) (p : Nat) : Block :=
  if max 1 (s.afld (R.WPXP_RETRY_CFG p) 16 4) ≤ (s.fport p).replays then s.retrain p 0 else s.resend p

/-- RETRY_TIMEOUT (R547): TMO after the last progress. -/
def execRetryTimeout (p : Nat) (s : State) : Res :=
  s.does fun s =>
    let q := s.fport p
    if s.linkUp p ∧ q.replay ≠ [] then
      (s.advance (q.progressAt + 10 * s.afld (R.WPXP_RETRY_CFG p) 0 16 - s.now)).retry p
    else s

/-- A copy of a FABRIC_SEND's last frame has been acknowledged by its first hop (R559). -/
def Block.sendAcked (s : Block) (cseq : Word) : Block :=
  match s.fb.sends.find? fun e => e.1 == cseq with
  | none => s
  | some (_, n) =>
    if n ≤ 1 then
      ({ s with fb := { s.fb with sends := s.fb.sends.filter fun e => e.1 != cseq } } : Block).complete cseq 0
    else { s with fb := { s.fb with sends := s.fb.sends.map fun e => if e.1 == cseq then (e.1, n - 1) else e } }

/-- Is a frame covered by ACK_LSEQ (R545)? -/
def acked (ack n : Nat) : Bool := !newer16 n ack

/-- The frames ACK_LSEQ covers leave the replay buffer. -/
def Block.acknowledge (s : Block) (p ack : Nat) : Block :=
  let q := s.fport p
  let gone := q.replay.filter fun e => acked ack e.1
  let s := if gone = [] then s else s.modF p fun q =>
    { q with replay := q.replay.filter fun e => !acked ack e.1, replays := 0, progressAt := s.now }
  gone.foldl (fun s e => match e.2.cseq with
    | some c => s.sendAcked c
    | none => s) s

/-- An audit's account (R544): C := B - O - R for each class, with the FREED_TOTAL reported as the new base. -/
def Block.auditIn (s : Block) (p : Nat) (d : List Byte) : Block :=
  s.modF p fun q =>
    let cls := q.cls.mapIdx fun i a =>
      let r := (q.replay.map fun e => if e.2.cls = i + 1 then cellsOf e.2.len else 0).sum
      let freed := field d (4 + 4 * i) 4
      { a with base := freed, sent := (freed + field d (20 + 4 * i) 4 + r) % 2 ^ 32 }
    { q with cls := cls, audited := true }

/-- A LINK_CTRL without AUDIT: the credits follow the cumulative totals (R542). -/
def Block.creditIn (s : Block) (p : Nat) (d : List Byte) : Block :=
  s.modF p fun q => { q with cls := q.cls.mapIdx fun i a => { a with base := field d (4 + 4 * i) 4 } }

/-- A LINK_CTRL arrives, its AUDIT bit being `audit` (R542, R544, R547). -/
def Block.linkCtrlIn (s : Block) (p : Nat) (d : List Byte) (audit : Bool) : Block :=
  let s := s.acknowledge p (field d 0 2)
  let s := if audit then
      let s := s.auditIn p d
      let q := s.fport p
      q.replay.foldl (fun s e => s.putFrame p e.2.cls (withLseq e.2.bytes e.1)) s
    else
      let s := s.creditIn p d
      if natBit (field d 2 1) 0 ∧ (s.fport p).replay ≠ [] then s.retry p else s
  s.pump p

/-- LINK_CTRL (R542, R545 to R547): `d` is its payload. -/
def execLinkCtrl (p : Nat) (d : Bytes) (s : State) : Res :=
  s.does fun s => if s.linkUp p then s.linkCtrlIn p d (natBit (field d 2 1) 1) else s

/-- CREDIT_AUDIT (R544): a LINK_CTRL with AUDIT set; `d` is its payload. -/
def execCreditAudit (p : Nat) (d : Bytes) (s : State) : Res := s.does fun s => if s.linkUp p then s.linkCtrlIn p d true else s

/-! ## The ROM's fabric boot (R144, R145) -/

/-- The sources of a BOOT_SRC code, in order (Table 4.7). -/
def bootSources (src : Nat) : List Nat := match src with | 1 => [1] | 2 => [2, 0, 1] | _ => [0, 1]

/-- The source being tried. -/
def Block.bootSource (s : Block) : Nat := (bootSources s.bt.src).getD s.bt.trying 1

/-- Is a port one the ROM boots over: W0 and W1 while the source is a fabric neighbour? -/
def Block.romPort (s : Block) (p : Nat) : Bool := s.pw.state == .boot && !s.pw.heldReset && s.bootSource == 2 && decide (p < 2)

/-- Bytes of an image are stored in on-die SRAM from an offset on. -/
def Block.imagePut (s : Block) (off : Nat) (bs : List Byte) : Block :=
  { s with bt := { s.bt with image := ssets (fun _ => 0) s.bt.image (bs.mapIdx fun i b => (off + i, b)),
                             imageLen := max s.bt.imageLen (off + bs.length) } }

/-- The image in on-die SRAM. -/
def Block.imageBytes (s : Block) : List Byte := (List.range s.bt.imageLen).map fun i => sget (fun _ => 0) s.bt.image i

/-- BOOT_REQ for a stage-1 image from an offset on. -/
def Block.bootAsk (s : Block) (p off : Nat) : Block := s.sendLocal p 4 0x30 (leBytes 1 0 ++ leBytes 3 0 ++ leBytes 4 off ++ leBytes 4 8192)

/-- BOOT_DATA (Table 17.5) reaches the ROM: the first neighbour that answers with data gives the whole image, part by part. -/
def Block.bootData (s : Block) (p : Nat) (d : List Byte) : Block :=
  if field d 1 1 ≠ 0 ∨ (s.bt.neighbour.getD p) ≠ p then s
  else
    let off := field d 4 4
    let chunk := d.drop 12
    let s := ({ s with bt := { s.bt with neighbour := some p } } : Block).imagePut off chunk
    if off + chunk.length < field d 8 4 ∧ chunk ≠ [] then s.bootAsk p (off + chunk.length) else s

/-- The ROM trains W0 and W1 at their defaults. -/
def Block.romTrain (s : Block) : Block :=
  if s.bootSource = 2 then
    let train (p : Nat) (s : Block) : Block :=
      if s.pins.modPrsN.getD p true then s else s.modF p fun q => { q with st := 3, since := s.now }
    train 1 (train 0 s)
  else s

/-! ## Link-up, alignment and modules (R535, R536, R544, R565) -/

/-- Admission begins on a port (R566): CHALLENGE and CERT. -/
def Block.admitStart (s : Block) (p : Nat) (nonce : List Byte) : Block :=
  let s := s.modF p fun q => { q with nonce := padBytes 32 nonce, cert := none }
  let s := s.sendLocal p 2 0x18 (leBytes 4 0 ++ leBytes 4 32 ++ padBytes 32 nonce)
  s.sendLocal p 2 0x18 (leBytes 4 1 ++ leBytes 4 s.tr.cert.length ++ s.tr.cert)

/-- A port aligns: a link-up from anything but a retrain starts LSEQ at 1, the frames unacknowledged going first (R545, R569). -/
def Block.fLinkUp (s : Block) (p : Nat) (nonce : List Byte) : Block :=
  let fresh := (s.fport p).st != 7
  let s := if fresh then s.modF p fun q =>
      { q with nextSeq := 1, expSeq := 1, txq := q.replay.map (·.2) ++ q.txq, replay := [], delays := [],
               cls := q.cls.map fun a => { a with sent := 0, base := 0, freed := 0 } }
    else s
  let s := s.modF p fun q => { q with nakSent := false, lastDisc := none, audited := false, replays := 0, progressAt := s.now, admitted := false }
  let s := (s.fGoto p (if s.afld R.WPX_ADMIT_CFG 0 2 = 0 then 6 else 4)).linkCtrl p false true
  if (s.fport p).st = 4 then s.admitStart p nonce else { s with fb := { s.fb with lsaDue := true } }

/-- FABRIC_LINK_UP (R544), also of a port the ROM boots over (R145): `nonce` is the trust engine's challenge, where admission is
in force. -/
def execFabricLinkUp (p : Nat) (nonce : Bytes) (s : State) : Res :=
  s.does fun s =>
    match (s.fport p).st with
    | 2 | 3 | 7 => if s.fEn p then s.fLinkUp p nonce else if s.romPort p then (s.fLinkUp p nonce).bootAsk p 0 else s
    | _ => s

/-- ALIGNMENT_TIMEOUT (R535): 500 ms after the last attempt began. -/
def execAlignmentTimeout (p : Nat) (s : State) : Res :=
  s.does fun s =>
    match (s.fport p).st with
    | 2 | 3 | 7 =>
      let s := s.advance ((s.fport p).since + 500000000 - s.now)
      (s.fGoto p 2).modF p fun q => { q with since := s.now }
    | _ => s

/-- The module of a port that has one follows the port (R536): byte 86 disables the transmitters of a disabled port, and an enabled one
has Wn_RESET_N high and Wn_LPMODE low (log entry 218). -/
def Block.moduleFollows (s : Block) (p : Nat) : Block :=
  let s := if s.fEn p then s.emit (.module p true false) else s
  if s.hkUp && !s.pins.modPrsN.getD p true then s.emit (.moduleByte p 86 (if s.fEn p then 0 else 15)) else s

/-- A port whose enable, module or power changes (R533, R535, R536). -/
def Block.fRefresh (s : Block) (p : Nat) : Block :=
  let st := (s.fport p).st
  if !s.fEn p then (if st = 0 then s else ((s.nbrDrop p).fGoto p 0).moduleFollows p)
  else if s.pins.modPrsN.getD p true then (if st = 1 then s else ((s.nbrDrop p).fGoto p 1).moduleFollows p)
  else if st ≤ 1 then (s.fGoto p 3).moduleFollows p else s

/-- What a commit of the WPX and WPXP pages changes at the ports (R570). -/
def Block.fabricApply (s : Block) : Block := (List.range 4).foldl (fun s p => s.fRefresh p) s

/-- MODULE_INSERTED (R536): the lower and upper pages 00h are read; `id` is byte 0 and `temp` the temperature in degrees. -/
def execModuleInserted (p id temp : Nat) (s : State) : Res :=
  s.does fun s =>
    if p < 4 then
    let s : Block := { s with pins := { s.pins with modPrsN := setAt s.pins.modPrsN p false } }
    let s := if s.hkUp then s.modF p fun q => { q with modId := id % 256, modTemp := temp % 256, polled := s.now } else s
    if s.fEn p then s.fRefresh p else s.moduleFollows p
  else s

/-- MODULE_ALARM (Table 17.14). -/
def Block.moduleAlarm (s : Block) (p : Nat) (flags : Word) : Block :=
  let present := !s.pins.modPrsN.getD p true
  s.faultEv (0x22 + p) 0x1C9 1 [pk p present.toNat 1 0, flags] .auto p

/-- The interrupt flags and the monitors of a module are read, 1 s after the last reading (R536). -/
def Block.modulePolled (s : Block) (p temp : Nat) (alarm : Bool) : Block :=
  let s := s.advance ((s.fport p).polled + 1000000000 - s.now)
  s.modF p fun q => { q with polled := s.now, modTemp := temp % 256, modAlarm := alarm }

/-- MODULE_POLL (R536): `flags` are bytes 3 to 6, `alarm` says that an alarm flag is set, `los` that the receivers report loss of
signal. -/
def execModulePoll (p : Nat) (flags : Word) (temp : Nat) (alarm los : Bool) (s : State) : Res :=
  s.does fun s =>
    if s.hkUp ∧ s.pins.modPrsN.getD p true = false then
    let s := s.modulePolled p temp alarm
    let s := if alarm then s.moduleAlarm p flags else s.autoClose (0x22 + p) 0x1C9 fun d => decide (d.toNat % 256 = p)
    if los ∧ s.linkUp p then s.retrain p 2 else s
  else s

/-- MODULE_REMOVED (R536). -/
def execModuleRemoved (p : Nat) (s : State) : Res :=
  s.does fun s =>
    if p < 4 then
    let s : Block := { s with pins := { s.pins with modPrsN := setAt s.pins.modPrsN p true } }
    (s.modF p fun q => { q with modId := 0, modTemp := 0, modAlarm := false }).fRefresh p
  else s

/-! ## Reception (R539 to R546, R554, R556 to R558) -/

/-- A sequenced frame is discarded to await its replay: its cells enter F and D, and the first failure after an accepted
frame sends NAK (R543, R546). -/
def Block.awaitReplay (s : Block) (p c cells lseq : Nat) : Block :=
  let first := !(s.fport p).nakSent
  let s := s.modF p fun q =>
    { q.modAcc c fun a => { a with f := a.f + cells, d := a.d + cells } with
      nakSent := true,
      lastDisc := some (match q.lastDisc with
        | some n => if newer16 lseq n then lseq else n
        | none => lseq) }
  if first then s.linkCtrl p true false else s

/-- A remainder of D once the last discarded LSEQ is accepted (R543): it is counted and starts an audit. -/
def Block.drift (s : Block) (p : Nat) (rem : List Nat) : Block :=
  if rem.all (· == 0) then s
  else
    let s := (rem.zipIdx).foldl (fun s (r, i) => if r = 0 then s else
      (s.bump (R.WPXP_CREDIT_DRIFT p) r).postF p 0x1C6 [pk p i 0 0, w32 r]) s
    s.linkCtrl p false true

/-- A sequenced frame is accepted (R543, R546). -/
def Block.acceptSeq (s : Block) (p c cells lseq : Nat) : Block :=
  let q := s.fport p
  let replayed := q.lastDisc.isSome
  let s := s.modF p fun q =>
    { q.modAcc c fun a =>
        { a with occ := a.occ + cells, f := if replayed then a.f - cells else a.f, d := if replayed then a.d - cells else a.d } with
      expSeq := (lseq + 1) % 65536, nakSent := false, ackDue := true }
  if q.lastDisc = some lseq then
    let rem := (s.fport p).cls.map (·.d)
    (s.modF p fun q => { q with lastDisc := none, cls := q.cls.map fun a => { a with d := 0 } }).drift p rem
  else s

/-- The groups this node has joined (R557). -/
def Block.joinedGroups (s : Block) : List Nat :=
  let reg := (List.range 8).flatMap fun i =>
    let v := s.act (R.WPX_GROUP_JOIN i)
    (if bit v 15 then [bits v 0 12] else []) ++ (if bit v 31 then [bits v 16 12] else [])
  let ing := (List.range 4).flatMap fun f =>
    if s.abit (R.INGEST_SRC_CFG (2 + f)) 0 then [s.afld (R.INGEST_FAB_STREAM f) 16 12] else []
  (0 :: 1 :: (reg ++ ing)).eraseDups

/-- A delivered frame of a flow (R558): is it newer than the flow's last one?  A gap posts FLOW_GAP. -/
def Block.flowIn (s : Block) (b : List Byte) : Block × Bool :=
  if !natBit (field b 9 1) 0 then (s, true)
  else
    let src := fsrc b
    let fid := field b 16 2
    let n := w32 (field b 12 4)
    let rest := s.fb.flows.filter fun e => !(e.1 == src && e.2.1 == fid)
    let put (s : Block) : Block := { s with fb := { s.fb with flows := ((src, fid, n) :: rest).take 256 } }
    match s.fb.flows.find? fun e => e.1 == src && e.2.1 == fid with
    | none => (put s, true)
    | some e =>
      let last := e.2.2
      if newer n last then
        (if n = last + 1 then put s else (put s).post 0x21 0x1C8 [w32 (src + 65536 * fid), last + 1, n], true)
      else ({ s with fb := { s.fb with flows := (src, fid, last) :: rest } }, false)

/-- `n` bytes are written at device virtual addresses that must map wholly to CP11 (R560), beat by beat. -/
def Block.putCP11 (s : Block) (va : Nat) : List Byte → Option Nat → Option Block
  | [], _ => some s
  | b :: bs, cur =>
    let pa := match cur with
      | some pa => if va % 64 = 0 then none else some pa
      | none => none
    match pa with
    | some pa => ((s.setMemB pa b).freshBlock pa (bs.length + 1)).putCP11 (va + 1) bs (some (pa + 1))
    | none => match s.walk va with
      | .ok l => let pa := l.pa + va % 2 ^ l.log
        if l.w && inCP11 pa then ((s.setMemB pa b).freshBlock pa (bs.length + 1)).putCP11 (va + 1) bs (some (pa + 1)) else none
      | .error _ => none

/-- A host frame is written to the receive ring (R560): the header followed by the payload; it is dropped where the ring is
full. -/
def Block.hostRx (s : Block) (b : List Byte) : Block :=
  let slots := 2 ^ s.afld R.WPX_RX_BASE_HI 16 4
  let head := s.reg R.WPX_RX_HEAD
  let tail := s.reg R.WPX_RX_TAIL
  let base := s.afld R.WPX_RX_BASE_HI 0 16 * 0x100000000 + s.afld R.WPX_RX_BASE_LO 12 20 * 4096
  let slot := tail.toNat % slots
  let drop := (s.bump R.WPX_RX_DROPS).postTally 0x1D6 0
  if slots ≤ (tail - head).toNat then drop
  else match s.putCP11 (base + 9216 * slot) (b.take 20 ++ fpay b) none with
    | some s => (s.setReg R.WPX_RX_TAIL (tail + 1)).post 0x21 0x1C7
        [w32 (slot % 65536 + 65536 * fsrc b), w32 (fproto b + 65536 * field b 16 2), w32 (field b 12 4)]
    | none => drop

/-- HOST_FRAME_RX (R560): `frame` is a delivered frame without its CRC. -/
def execHostFrameRx (frame : Bytes) (s : State) : Res :=
  s.does fun s => if s.fabOn && decide (0x80 ≤ fproto frame) then s.hostRx frame else s

/-- A unicast frame's port on the active table (R553, R554): none where it is unreachable; `some 4` is this node. -/
def Block.routeOf (s : Block) (dst : Nat) : Option (Nat × Bool) :=
  if dst = s.fb.addr then some (4, false)
  else match aget? s.fb.table.entries dst with
    | none => none
    | some e =>
      if !e.assigned || 5 ≤ e.next then none
      else if (s.fport e.next).alt && decide (e.alt < 4) && decide (e.next < 4) then some (e.alt, true)
      else some (e.next, false)

/-- The ports a multicast frame for a group leaves by (R557). -/
def Block.treeOut (s : Block) (g : Nat) (from_ : Nat) : List Nat :=
  (s.fb.table.beyond.filter fun e => e.1 != from_ && (decide (g < 16) || e.2.contains g)).map (·.1)

/-- Frames leave on several ports; the cells of the stored frame are freed once each has been sent. -/
def Block.forward (s : Block) (p c cells : Nat) (b : List Byte) (out : List Nat) : Block :=
  if out = [] then s.freeCells p c cells
  else if 32 < fhops b + 1 then ((s.bump R.WPX_HOP_DROPS).postTally 0x1D4 p).freeCells p c cells
  else
    let id := s.fb.nextHold
    let s : Block := { s with fb := { s.fb with nextHold := id + 1, holds := s.fb.holds ++
      [{ id := id, port := p, cls := c, cells := cells, left := out.length }] } }
    out.foldl (fun s o => s.enqueue o { cls := c, bytes := withHops b (fhops b + 1), hold := some id, cseq := none }) s

/-- A frame is delivered to this node, in its flow's order; a TIMECODE re-anchors (R62), and every other message acts by the
command of its own. -/
def Block.deliver (s : Block) (b : List Byte) : Block :=
  match s.flowIn b with
  | (s, true) => if fproto b = 2 then s.tcFabric (fpay b) else s
  | (s, false) => s

/-- An accepted frame is delivered, forwarded or discarded (R540, R554, R556, R557, R565). -/
def Block.dispatch (s : Block) (p c cells : Nat) (b : List Byte) : Block :=
  let free (s : Block) : Block := if c = 0 then s else s.freeCells p c cells
  if !frameGood b then free s
  else if c != 0 && !s.mayPass p b then free s
  else if fdst b = 0 && !fmcast b then
    (if c = 0 then s else free (if s.romPort p then (if fproto b = 0x31 then s.bootData p (fpay b) else s) else s.deliver b))
  else if s.fb.addr = 0 then free s
  else if fmcast b then
    if (s.fb.table.beyond.find? fun e => e.1 == p).isNone then free ((s.bump R.WPX_TREE_DROPS).postTally 0x1D3 p)
    else
      let s := if s.joinedGroups.contains (fdst b) then s.deliver b else s
      s.forward p c cells b (s.treeOut (fdst b) p)
  else match s.routeOf (fdst b) with
    | none => free (s.bump R.ROUTE_UNREACH)
    | some (4, _) => free (s.deliver b)
    | some (o, alt) =>
      let s := if alt then (s.bump R.ROUTE_ALT_USED).postTally 0x1D5 o else s
      s.forward p c cells b [o]

/-- A frame fails its CRC (R539, R543, R546). -/
def Block.badCrc (s : Block) (p c cells : Nat) : Block :=
  let s := (s.bump (R.WPXP_CRC_ERR p)).postTally 0x1D0 p
  if sequenced c then
    let q := s.fport p
    s.awaitReplay p c cells (match q.lastDisc with
      | some n => (n + 1) % 65536
      | none => q.expSeq)
  else if c = 1 then s.modF p fun q => q.modAcc 1 fun a => { a with f := a.f + cells }
  else s

/-- A frame arrives (R539 to R546): `data` is the frame with its CRC. -/
def Block.frameIn (s : Block) (p : Nat) (data : List Byte) (bad : Bool) : Block :=
  let b := data.take (data.length - 4)
  let c := fcls data
  let cells := cellsOf data.length
  if bad ∨ data.length < 64 ∨ 9216 < data.length ∨ field data (data.length - 4) 4 ≠ frameCrc b then s.badCrc p c cells
  else if sequenced c then
    let lseq := field data 6 2
    if lseq = (s.fport p).expSeq then (s.acceptSeq p c cells lseq).dispatch p c cells b
    else if newer16 lseq (s.fport p).expSeq then s.awaitReplay p c cells lseq
    else s
  else if c = 1 then
    (s.modF p fun q => q.modAcc 1 fun a => { a with occ := a.occ + cells }).dispatch p c cells b
  else if c = 0 then s.dispatch p c cells b
  else s

/-- FABRIC_FRAME_RECEIVED (R535, R539): `corr` and `uncorr` are the codewords the FEC, where it is enabled, corrected and could not correct
in it. -/
def execFabricFrameReceived (p : Nat) (data : Bytes) (corr uncorr : Nat) (s : State) : Res :=
  s.does fun s =>
    if s.linkUp p then
    let fec := s.abit (R.WPXP_CFG p) 1
    let corr := if fec then corr else 0
    let uncorr := if fec then uncorr else 0
    let s := if corr = 0 then s else (s.bump (R.WPXP_FEC_CORR p) corr).postTally 0x1D2 p
    let s := if uncorr = 0 then s else s.bump (R.WPXP_FEC_UNCORR p) uncorr
    s.frameIn p data (uncorr != 0)
  else s

/-! ## FABRIC_SEND (R559) -/

/-- The payloads of a message, at most 9,192 bytes each. -/
def chunksOf : Nat → List Byte → List (List Byte)
  | 0, _ => []
  | n + 1, bs => if bs.length ≤ 9192 then [bs] else bs.take 9192 :: chunksOf n (bs.drop 9192)

/-- The frames of a message (R559): FLOW set, FIRST and LAST at its ends. -/
def Block.msgFrames (s : Block) (c : Cmd) (msg : List Byte) (fseq : Word) : List (List Byte) :=
  let ch := chunksOf 120 msg
  ch.mapIdx fun i pay =>
    mkFrame (c.par 16 1) (natBit (c.par 17 1) 0) (c.par 18 2) s.fb.addr (c.par 34 1)
      (1 + (if i = 0 then 2 else 0) + (if i + 1 = ch.length then 4 else 0)) (fseq + w32 i).toNat (c.par 32 2) pay

/-- The frames of a message leave by some ports; the command ends once the last one is acknowledged on each. -/
def Block.sendOn (s : Block) (cseq : Word) (frames : List (List Byte)) (out : List Nat) : Block :=
  let s : Block := { s with fb := { s.fb with sends := s.fb.sends ++ [(cseq, out.length)] } }
  out.foldl (fun s o => (frames.zipIdx).foldl (fun s (b, i) =>
    s.enqueue o { cls := fcls b, bytes := b, hold := none, cseq := if i + 1 = frames.length then some cseq else none }) s) s

/-- The message is in hand: it leaves, its flow continuing. -/
def Block.sendMsg (s : Block) (c : Cmd) (msg : List Byte) (r : Option (Nat × Bool)) : Block :=
  let flow := c.par 32 2
  let fseq := (aget? s.fb.fseqOut flow).getD 0
  let frames := s.msgFrames c msg fseq
  let s : Block := { s with fb := { s.fb with fseqOut := aput s.fb.fseqOut flow (fseq + w32 frames.length) } }
  let s := s.setStage c.cseq 2
  match r with
  | none =>
    let out := s.treeOut (c.par 18 2) 4
    let s := if s.joinedGroups.contains (c.par 18 2) then frames.foldl (fun s b => s.hostRx b) s else s
    if out = [] then s.complete c.cseq 0 else s.sendOn c.cseq frames out
  | some (4, _) => (frames.foldl (fun s b => s.hostRx b) s).complete c.cseq 0
  | some (o, alt) =>
    let s := if alt then (s.bump R.ROUTE_ALT_USED frames.length).postTally 0x1D5 o else s
    s.sendOn c.cseq frames [o]

/-- Are the parameters of a FABRIC_SEND good (R559)? -/
def sendParams (c : Cmd) : Bool :=
  (c.par 16 1 == 2 || c.par 16 1 == 4) && decide (c.par 17 1 < 4) && decide (c.par 20 4 ≤ 1048576) && decide (0x80 ≤ c.par 34 1) &&
    (if natBit (c.par 17 1) 0 then decide (c.par 18 2 < 0x1000) else decide (1 ≤ c.par 18 2) && decide (c.par 18 2 ≤ 0x3FFE))

/-- FABRIC_SEND (R559): `host` is the message where it lies in host memory (log entry 24). -/
def execFabricSend (cseq : Word) (host : Option Bytes) (s : State) : Res :=
  s.does fun s =>
    match s.startable cseq 0x000C with
    | none => s
    | some c =>
      let mc := natBit (c.par 17 1) 0
      let dev := natBit (c.par 17 1) 1
      let route := if mc then none else s.routeOf (c.par 18 2)
      if !sendParams c then s.complete cseq 2
      else if !s.fabOn || s.fb.addr == 0 || (!mc && route.isNone) then s.complete cseq 0x8000
      else if !dev && host.isNone then s.complete cseq 7
      else match s.readBuf dev (c.par 24 8) (c.par 20 4) (host.getD []) with
        | (s, some msg) => s.sendMsg c msg route
        | (s, none) => s.complete cseq 7

/-! ## TIMECODE (R62, R568) -/

/-- TIMECODE (opcode 0x000B): the anchor follows it while TIME_TC_CFG.SOURCE names the host; with TC_FWD it goes on to group 1. -/
def Block.timecode (s : Block) (c : Cmd) : Block :=
  let v := w32 (c.par 16 4)
  if !tcOk (s.fld R.TIME_TC_CFG 0 2) v then s.complete c.cseq 2
  else
    let s := if s.fld R.TIME_TC_CFG 2 2 = 2 then s.tcAnchor v (c.par 24 8) else s
    let pay := leBytes 4 v.toNat ++ leBytes 4 (s.fld R.TIME_TC_CFG 0 2) ++ leBytes 8 (c.par 24 8)
    let s := if s.fabOn && s.abit R.WPX_CFG 3 && s.fb.addr != 0 then
        (s.treeOut 1 4).foldl (fun s p => s.enqueue p { cls := 2, bytes := mkFrame 2 true 1 s.fb.addr 2 0 0 0 pay, hold := none, cseq := none }) s
      else s
    s.complete c.cseq 0

def execTimecode (cseq : Word) (s : State) : Res :=
  s.does fun s =>
    match s.startable cseq 0x000B with
    | some c => s.timecode c
    | none => s

/-! ## Captures of the WPXP pages -/

/-- A write of WPXP_CREDIT_SEL captures the three registers that follow (Table 17.11). -/
def Block.creditCapture (s : Block) (p : Nat) (v : Word) : Block :=
  let c := bits v 0 2 + 1
  let q := s.fport p
  let a := q.acc c
  s.setRegs [(R.WPXP_CREDIT_SEL p, w32 (c - 1)), (R.WPXP_CREDIT_TX p, w32 (q.credit c + 65536 * (fabBuf c - q.credit c))),
    (R.WPXP_CREDIT_RX p, w32 (a.occ + 65536 * a.f)), (R.WPXP_CREDIT_HOLD p, w32 (a.d + 65536 * fabBuf c))]

end Sys2Proof.Machine
end

