-- ==== Sys2Proof/Machine/Route.lean ====
section
/-!
DEFINITION. The Wipex fabric as a network (R548 to R557, R561 to R567): discovery, root, addresses, routes, the multicast tree, fabric
time on the links, admission and the boot service.
-/
namespace Sys2Proof.Machine

/-- The device UID as a number. -/
def Block.uidNat (s : Block) : Nat := (s.reg R.DEV_UID_LO).toNat + 0x100000000 * (s.reg R.DEV_UID_HI).toNat

/-! ## The database and its graph -/

/-- A change of the database or the map starts SPF_HOLD, unless one is pending (R552). -/
def Block.fChange (s : Block) : Block :=
  { s with fb := { s.fb with changeAt := some (s.fb.changeAt.getD s.now), convStart := some (s.fb.convStart.getD s.now) } }

/-- The record of a node. -/
def lsaOf (db : List Lsa) (u : Nat) : Option Lsa := db.find? fun l => l.uid == u

/-- A record is stored; the database stays in ascending UID order. -/
def lsaPut (db : List Lsa) (l : Lsa) : List Lsa :=
  (db.filter fun x => decide (x.uid < l.uid)) ++ [l] ++ (db.filter fun x => decide (l.uid < x.uid))

/-- The two-way links of a node with the costs on its side (R548, R552), in ascending UID order of the neighbours. -/
def edgesOf (db : List Lsa) (u : Nat) : List (Nat × Nat) :=
  match lsaOf db u with
  | none => []
  | some l => db.filterMap fun m =>
      if m.uid ≠ u ∧ (m.links.any fun k => k.1 == u) then
        match (l.links.filter fun k => k.1 == m.uid).map fun k => k.2.2 with
        | [] => none
        | c :: cs => some (m.uid, cs.foldl min c)
      else none

/-- Is one path of UIDs before another, by the UIDs of the next hops in turn? -/
def pathLt : List Nat → List Nat → Bool
  | [], [] => false
  | [], _ => true
  | _, [] => false
  | a :: as, b :: bs => if a < b then true else if b < a then false else pathLt as bs

/-- A node reached: its UID, its distance, and the path of UIDs from the source to it. -/
structure Reach where
  uid : Nat
  dist : Nat
  path : List Nat
  deriving DecidableEq, Repr

/-- The order in which paths are preferred: the cost, then the lowest UID of each next hop (R552). -/
def Reach.lt (a b : Reach) : Bool := decide (a.dist < b.dist) || (a.dist == b.dist && pathLt a.path b.path)

/-- The best of a list. -/
def bestReach : List Reach → Option Reach
  | [] => none
  | a :: l => some (l.foldl (fun x y => if y.lt x then y else x) a)

/-- Shortest paths from a node: the nodes settled, the nearest first. -/
def spfFrom (db : List Lsa) : Nat → List Reach → List Reach → List Reach
  | 0, settled, _ => settled
  | n + 1, settled, front =>
    match bestReach front with
    | none => settled
    | some r =>
      let front := front.filter fun x => x.uid != r.uid
      let settled := settled ++ [r]
      let new := (edgesOf db r.uid).filterMap fun (v, c) =>
        if settled.any fun x => x.uid == v then none else some { uid := v, dist := r.dist + c, path := r.path ++ [v] }
      spfFrom db n settled (front ++ new)

/-- Shortest paths from a node over the two-way links. -/
def spf (db : List Lsa) (src : Nat) : List Reach := spfFrom db db.length [] [{ uid := src, dist := 0, path := [] }]

/-- The distance of a node in a list of paths. -/
def distOf (l : List Reach) (u : Nat) : Option Nat := (l.find? fun r => r.uid == u).map (·.dist)

/-- The root (R550): the lowest UID named that is present and ELIGIBLE; else the lowest ELIGIBLE UID. -/
def electRoot (db : List Lsa) : Option Nat :=
  let elig := (db.filter (·.elig)).map (·.uid)
  let named := elig.filter fun u => db.any fun l => l.named == u && l.named != 0
  match named with
  | u :: _ => some u
  | [] => elig.head?

/-! ## HELLO (R548) -/

/-- The port's cost (Table 17.11). -/
def Block.fcost (s : Block) (p : Nat) : Nat := max 1 (s.afld (R.WPXP_CFG p) 16 16)

/-- The NAMED_ROOT of this node. -/
def Block.namedRoot (s : Block) : Nat := (s.act R.WPX_NAMED_ROOT_LO).toNat + 0x100000000 * (s.act R.WPX_NAMED_ROOT_HI).toNat

/-- The payload of HELLO (Table 17.5). -/
def Block.helloBytes (s : Block) (p : Nat) : List Byte :=
  leBytes 8 s.uidNat ++ leBytes 2 s.fb.addr ++ leBytes 1 (s.afld R.WPX_CFG 1 1) ++ leBytes 1 p ++ leBytes 8 s.namedRoot ++
    leBytes 8 (s.fb.root.getD 0) ++ ([1, 2, 3, 4].flatMap fun c => leBytes 4 (fabBuf c)) ++ leBytes 2 (s.fcost p)

/-- HELLO_SEND (R548): every 10 ms on a port that is up. -/
def execHelloSend (p : Nat) (s : State) : Res :=
  s.does fun s =>
    if (s.fport p).st = 6 then
    let s := s.advance ((s.fport p).lastHello + 10000000 - s.now)
    (s.modF p fun q => { q with lastHello := s.now }).sendLocal p 2 0x10 (s.helloBytes p)
  else s

/-- The payload of an LSA (Table 17.5). -/
def lsaBytes (l : Lsa) : List Byte :=
  leBytes 8 l.uid ++ leBytes 4 l.seq.toNat ++ leBytes 1 l.elig.toNat ++ leBytes 1 l.links.length ++ leBytes 2 l.groups.length ++
    leBytes 8 l.named ++ (l.links.flatMap fun k => leBytes 8 k.1 ++ leBytes 1 k.2.1 ++ leBytes 1 0 ++ leBytes 2 k.2.2) ++
    (l.groups.flatMap fun g => leBytes 2 g)

/-- Is a HELLO's address consistent with the map, where its sender names the same root (R548)? -/
def Block.helloOk (s : Block) (uid addr root : Nat) : Bool :=
  addr == 0 || some root != s.fb.root || (match s.fb.map.find? fun e => e.1 == uid with
    | some e => e.2 == addr
    | none => true)

/-- HELLO (R548): `d` is its payload. -/
def Block.helloIn (s : Block) (p : Nat) (d : List Byte) : Block :=
  let uid := field d 0 8
  let addr := field d 8 2 % 0x4000
  let old := s.fport p
  let ok := s.helloOk uid addr (field d 20 8)
  let changed := old.uid ≠ uid ∨ old.twoWay ≠ ok
  let s := s.modF p fun q => { q with uid := uid, addr := addr, nport := field d 11 1 % 4, heard := some s.now, twoWay := ok }
  let s := if changed then { s with fb := { s.fb with lsaDue := true } } else s
  if ok ∧ (¬ old.twoWay ∨ old.uid ≠ uid) then
    s.fb.lsas.foldl (fun s l => s.sendLocal p 2 0x11 (lsaBytes l)) (s.bump R.ROUTE_LSA_OUT s.fb.lsas.length)
  else s

/-- A neighbour's HELLO names a UID other than its certificate's serial number: it is refused (R566). -/
def Block.admitMismatch (s : Block) (p uid : Nat) : Bool :=
  s.afld R.WPX_ADMIT_CFG 0 2 != 0 && (s.fport p).cert != some uid

def execHello (p : Nat) (d : Bytes) (s : State) : Res :=
  s.does fun s =>
    if (s.fport p).st = 6 then
    if s.admitMismatch p (field d 0 8) then
      let s := (s.nbrDrop p).postF p 0x1C5 [pk p 1 0 0, w32 (field d 0 4), w32 (field d 4 4)]
      (s.fGoto p 5).modF p fun q => { q with admitAt := s.now }
    else s.helloIn p d
  else s

/-- NEIGHBOUR_DOWN (R548): `loss` says that the PCS lost its link; else four HELLOs are missing, 40 ms after the last one. -/
def execNeighbourDown (p : Nat) (loss : Bool) (s : State) : Res :=
  s.does fun s =>
    if !s.linkUp p then s
    else if loss then s.retrain p 1
    else match (s.fport p).heard with
      | some t => (s.advance (t + 40000000 - s.now)).nbrDrop p
      | none => s

/-- ALT_FAILOVER (R553): the port of NEXT is down, and unicast frames leave by ALT until the next swap. -/
def execAltFailover (p : Nat) (s : State) : Res :=
  s.does fun s => if (s.fport p).st ≠ 6 ∨ (s.fport p).heard.isNone then s.modF p fun q => { q with alt := true } else s

/-! ## LSA (R549) -/

/-- The record this node originates. -/
def Block.ownLsa (s : Block) : Lsa :=
  { uid := s.uidNat, seq := s.fb.ownSeq + 1, elig := s.abit R.WPX_CFG 1, named := s.namedRoot,
    links := (List.range 4).filterMap fun p =>
      let q := s.fport p
      if q.st = 6 ∧ q.twoWay then some (q.uid, p, s.fcost p) else none,
    groups := s.joinedGroups.filter fun g => decide (2 ≤ g), stored := s.now, adm := true }

/-- Do two records say the same, their sequence and age apart? -/
def lsaSame (a b : Lsa) : Bool := a.elig == b.elig && a.named == b.named && a.links == b.links && a.groups == b.groups

/-- An LSA is due at start, and where this node's record says something else than the one it originated last (R549). -/
def Block.lsaFollows (s : Block) : Block :=
  let same := match lsaOf s.fb.lsas s.uidNat with | some o => lsaSame o s.ownLsa | none => false
  if s.fabOn && !same then { s with fb := { s.fb with lsaDue := true } } else s

/-- A record is stored; what it changes starts SPF_HOLD. -/
def Block.lsaStore (s : Block) (l : Lsa) : Block :=
  let same := match lsaOf s.fb.lsas l.uid with
    | some o => lsaSame o l
    | none => false
  let s : Block := { s with fb := { s.fb with lsas := lsaPut s.fb.lsas l, absent := s.fb.absent.filter fun e => e.1 != l.uid } }
  if same then s else s.fChange

/-- This node originates its LSA (R549). -/
def Block.originate (s : Block) : Block :=
  let l := s.ownLsa
  let s : Block := { s with fb := { s.fb with ownSeq := l.seq, lsaDue := false, lastLsa := s.now } }
  ((s.lsaStore l).bump R.ROUTE_LSA_OUT s.upPorts.length).flood 0x11 (lsaBytes l)

/-- LSA_ORIGINATE (R549): at a change, or LSA_REFRESH after the last one. -/
def execLsaOriginate (s : State) : Res :=
  s.does fun s =>
    if s.fabOn then
    (if s.fb.lsaDue then s else s.advance (s.fb.lastLsa + s.afld R.WPX_ROUTE_CFG 16 8 * 1000000000 - s.now)).originate
  else s

/-- An LSA's payload (Table 17.5). -/
def lsaParse (d : List Byte) (now : Nat) : Lsa :=
  let n := min 4 (field d 13 1)
  { uid := field d 0 8, seq := w32 (field d 8 4), elig := natBit (field d 12 1) 0, named := field d 16 8,
    links := (List.range n).map fun i => (field d (24 + 12 * i) 8, field d (32 + 12 * i) 1, field d (34 + 12 * i) 2),
    groups := (List.range (min 16 (field d 14 1))).map fun i => field d (24 + 12 * n + 2 * i) 2, stored := now }

/-- A node leaves the database: since when it is absent. -/
def Block.lsaDrop (s : Block) (u : Nat) : Block :=
  ({ s with fb := { s.fb with lsas := s.fb.lsas.filter fun l => l.uid != u,
                              absent := (s.fb.absent.filter fun e => e.1 != u) ++ [(u, s.now)] } } : Block).fChange

/-- LSA (R549): `d` is its payload. -/
def Block.lsaIn (s : Block) (p : Nat) (d : List Byte) : Block :=
  let l := { lsaParse d s.now with adm := (s.fport p).admitted }
  let flush := natBit (field d 12 1) 1
  let isNew := match lsaOf s.fb.lsas l.uid with
    | some o => newer l.seq o.seq
    | none => !flush
  if l.uid = s.uidNat then
    if newer l.seq s.fb.ownSeq then ({ s with fb := { s.fb with ownSeq := l.seq } } : Block).originate else s
  else if !isNew then s
  else
    let s := if flush then s.lsaDrop l.uid else (s.lsaStore l).bump R.ROUTE_LSA_IN
    (s.bump R.ROUTE_LSA_OUT (s.upPorts.filter (· != p)).length).flood 0x11 d p

def execLsa (p : Nat) (d : Bytes) (s : State) : Res := s.does fun s => if (s.fport p).st = 6 then s.lsaIn p d else s

/-- LSA_AGE_OUT (R549): 4 x LSA_REFRESH after the record was stored. -/
def execLsaAgeOut (uid : Nat) (s : State) : Res :=
  s.does fun s =>
    match lsaOf s.fb.lsas uid with
    | some l =>
      if s.fabOn && uid != s.uidNat then
        (s.advance (l.stored + 4 * s.afld R.WPX_ROUTE_CFG 16 8 * 1000000000 - s.now)).lsaDrop uid
      else s
    | none => s

/-! ## Root and addresses (R550, R551) -/

/-- The address of a UID in a map. -/
def addrOf (m : List (Nat × Nat)) (u : Nat) : Option Nat := (m.find? fun e => e.1 == u).map (·.2)

/-- This node's own address follows the map; FAB_ADDR (R551). -/
def Block.takeAddr (s : Block) : Block :=
  let a := (addrOf s.fb.map s.uidNat).getD 0
  if a = s.fb.addr then s
  else ({ s with fb := { s.fb with addr := a } } : Block).post 0x21 0x1C2 [w32 (a + 65536 * s.fb.addr)]

/-- The lowest address not in a map. -/
def freeAddr (m : List (Nat × Nat)) : Option Nat :=
  ((List.range (m.length + 1)).find? fun i => decide (i + 1 ≤ 0x3FFE) && !(m.any fun e => e.2 == i + 1)).map (· + 1)

/-- A map with a node's address given; none where no address is free. -/
def giveAddr (m : List (Nat × Nat)) (u : Nat) : Option (List (Nat × Nat)) := (freeAddr m).map fun a => m ++ [(u, a)]

/-- The nodes breadth-first from the root, neighbours in ascending UID order. -/
def bfs (db : List Lsa) : Nat → List Nat → List Nat → List Nat
  | 0, seen, _ => seen
  | _, seen, [] => seen
  | n + 1, seen, u :: q =>
    let new := ((edgesOf db u).map (·.1)).filter fun v => !seen.contains v
    bfs db n (seen ++ new) (q ++ new)

/-- The UIDs of the map that the database does not hold are absent from now on, unless they were before (R551). -/
def Block.noteAbsent (s : Block) : Block :=
  let new := s.fb.map.filter fun e => (lsaOf s.fb.lsas e.1).isNone && !(s.fb.absent.any fun x => x.1 == e.1)
  { s with fb := { s.fb with absent := s.fb.absent ++ new.map fun e => (e.1, s.now) } }

/-- The root's map after a pass (R551), and the nodes that wait for an address. -/
def Block.newMap (s : Block) (root : Nat) : List (Nat × Nat) × Nat :=
  let hold := s.afld R.WPX_ROUTE_CFG 8 8 * 1000000000
  let m := s.fb.map.filter fun e =>
    (lsaOf s.fb.lsas e.1).isSome || !(s.fb.absent.any fun x => x.1 == e.1 && decide (x.2 + hold ≤ s.now))
  let m := if (addrOf m root).isSome then m
    else if m.any fun e => e.2 == 1 then (giveAddr m root).getD m else m ++ [(root, 1)]
  (bfs s.fb.lsas s.fb.lsas.length [root] [root]).foldl (fun (m, n) u =>
    if (addrOf m u).isSome then (m, n)
    else match giveAddr m u with
      | some m => (m, n)
      | none => (m, n + 1)) (m, 0)

/-- A list cut into parts of at most `k`. -/
def partsOf {α : Type} (k : Nat) : Nat → List α → List (List α)
  | 0, _ => []
  | n + 1, l => if l.length ≤ k then [l] else l.take k :: partsOf k n (l.drop k)

/-- An entry put into a map in ascending address order. -/
def insAddr (x : Nat × Nat) : List (Nat × Nat) → List (Nat × Nat)
  | [] => [x]
  | y :: l => if x.2 ≤ y.2 then x :: y :: l else y :: insAddr x l

/-- A map in ascending address order. -/
def byAddr (m : List (Nat × Nat)) : List (Nat × Nat) := m.foldl (fun a x => insAddr x a) []

/-- The map is flooded in ASSIGN parts (R551, Table 17.5). -/
def Block.assignFlood (s : Block) (root : Nat) : Block :=
  let ps := partsOf 900 20 (byAddr s.fb.map)
  let s : Block := { s with fb := { s.fb with mapAt := s.now } }
  (ps.zipIdx).foldl (fun s (l, i) => s.flood 0x12 (leBytes 8 root ++ leBytes 4 s.fb.mapSeq.toNat ++ leBytes 2 i ++
    leBytes 2 ps.length ++ leBytes 4 l.length ++ l.flatMap fun e => leBytes 8 e.1 ++ leBytes 2 e.2)) s

/-- The root chosen takes effect (R550): FAB_ROOT_CHANGE. -/
def Block.takeRoot (s : Block) : Block :=
  let r := electRoot s.fb.lsas
  if r = s.fb.root then s
  else
    let u := r.getD 0
    ({ s with fb := { s.fb with root := r } } : Block).fChange.post 0x21 0x1C1 [w32 u, w32 (u / 0x100000000), s.fb.mapSeq]

/-- ROOT_AND_ADDRESSES (R550, R551): the root is chosen; the root itself renews the map, and floods it where it changed or
LSA_REFRESH has passed. -/
def Block.rootPass (s : Block) : Block :=
  let s := s.takeRoot
  match s.fb.root with
  | none => s
  | some r =>
    if r ≠ s.uidNat then s
    else
      let s := s.noteAbsent
      let (m, waiting) := s.newMap r
      let s := if waiting = 0 then s else s.post 0x21 0x1CA [w32 waiting]
      if byAddr m ≠ byAddr s.fb.map ∨ s.fb.mapRoot ≠ r then
        let s : Block := { s with fb := { s.fb with map := m, mapSeq := s.fb.mapSeq + 1, mapRoot := r } }
        (s.takeAddr.fChange).assignFlood r
      else if s.fb.mapAt + s.afld R.WPX_ROUTE_CFG 16 8 * 1000000000 ≤ s.now then s.assignFlood r
      else s

def execRootAndAddresses (s : State) : Res := s.does fun s => if s.fabOn then s.rootPass else s

/-- A part of a map is kept; with every part of a newer MAP_SEQ, the map applies (R551). -/
def Block.assignPart (s : Block) (root : Nat) (seq : Word) (part all : Nat) (l : List (Nat × Nat)) : Block :=
  let fresh := s.fb.partRoot ≠ root ∨ s.fb.partSeq ≠ seq
  let parts := aput (if fresh then [] else s.fb.parts) part l
  let s : Block := { s with fb := { s.fb with partRoot := root, partSeq := seq, parts := parts } }
  if parts.length < all then s
  else
    let m := parts.flatMap (·.2)
    let s : Block := { s with fb := { s.fb with map := m, mapSeq := seq, mapRoot := root, parts := [] } }
    s.takeAddr.fChange

/-- ASSIGN (R551): `d` is its payload. -/
def Block.assignIn (s : Block) (p : Nat) (d : List Byte) : Block :=
  let root := field d 0 8
  let seq := w32 (field d 8 4)
  let part := field d 12 2
  let isNew := some root == s.fb.root && root != s.uidNat && (s.fb.mapRoot != root || newer seq s.fb.mapSeq)
  let had := s.fb.partRoot == root && s.fb.partSeq == seq && (aget? s.fb.parts part).isSome
  if !isNew || had then s
  else
    let l := (List.range (min 900 (field d 16 2))).map fun j => (field d (20 + 10 * j) 8, field d (28 + 10 * j) 2 % 0x4000)
    (s.flood 0x12 d p).assignPart root seq part (field d 14 2) l

def execAssign (p : Nat) (d : Bytes) (s : State) : Res := s.does fun s => if (s.fport p).st = 6 then s.assignIn p d else s

/-! ## Routes and the tree (R552 to R556) -/

/-- The port to a neighbour: the cheapest link, the lowest port among equals. -/
def Block.portTo (s : Block) (u : Nat) : Option Nat :=
  ((List.range 4).filter fun p => (s.fport p).st == 6 && (s.fport p).twoWay && (s.fport p).uid == u).foldl (fun b p =>
    match b with
    | some o => if s.fcost p < s.fcost o then some p else some o
    | none => some p) none

/-- The alternate of a destination (R553): the neighbour of the lowest UID that is nearer to it than by way of this node. -/
def Block.altOf (s : Block) (me : Nat) (mine : List Reach) (nbrs : List (Nat × List Reach)) (d : Nat) : Nat :=
  let ok := nbrs.filter fun (_, l) =>
    match distOf l d, distOf l me, distOf mine d with
    | some a, some b, some c => decide (a < b + c)
    | some _, none, some _ => true
    | _, _, _ => false
  let first := (mine.find? fun r => r.uid == d).bind fun r => r.path.head?
  match (ok.filter fun e => some e.1 != first).map (·.1) with
  | [] => 7
  | u :: us => (s.portTo (us.foldl min u)).getD 7

/-- The route to one node. -/
def Block.routeTo (s : Block) (me : Nat) (mine : List Reach) (nbrs : List (Nat × List Reach)) (u : Nat) : Route :=
  match mine.find? fun r => r.uid == u with
  | none => { next := 7, alt := 7, assigned := true, hops := 0, cost := 0, uid := u }
  | some r =>
    match r.path with
    | [] => { next := 4, alt := 7, assigned := true, hops := 0, cost := 0, uid := u }
    | n :: _ =>
      match (if 32 < r.path.length then none else s.portTo n) with
      | none => { next := 7, alt := 7, assigned := true, hops := 0, cost := 0, uid := u }
      | some p => { next := p, alt := s.altOf me mine nbrs u, assigned := true, hops := r.path.length, cost := min 0xFFFF r.dist, uid := u }

/-- The parent of a node in the tree. -/
def parentOf (tree : List Reach) (root u : Nat) : Option Nat :=
  match tree.find? fun r => r.uid == u with
  | some r => match r.path.dropLast.getLast? with
    | some v => some v
    | none => if r.path = [] then none else some root
  | none => none

/-- The groups joined by the nodes a test picks. -/
def groupsOf (db : List Lsa) (f : Nat → Bool) : List Nat := ((db.filter fun l => f l.uid).flatMap (·.groups)).eraseDups

/-- The table a computation gives from the database as it stands (R552, R556). -/
def Block.compute (s : Block) : RouteTable :=
  let db := s.fb.lsas
  let me := s.uidNat
  let mine := spf db me
  let nbrs := (edgesOf db me).map fun e => (e.1, spf db e.1)
  let entries := (byAddr s.fb.map).map fun e => (e.2, s.routeTo me mine nbrs e.1)
  let root := s.fb.root.getD 0
  let tree := if s.fb.root.isSome then spf db root else []
  let under (v : Nat) (u : Nat) : Bool := u == v || (tree.any fun r => r.uid == u && r.path.contains v)
  let kids := (tree.filter fun r => parentOf tree root r.uid == some me).map (·.uid)
  let up := (parentOf tree root me).bind fun v => s.portTo v
  let down := kids.filterMap fun v => (s.portTo v).map fun p => (p, groupsOf db (under v))
  { entries := entries, reach := (entries.filter fun e => decide (e.2.next ≤ 4)).length, parent := up, children := down.map (·.1),
    beyond := (match up with
      | some p => [(p, groupsOf db fun u => !under me u)]
      | none => []) ++ down }

/-- SPF_HOLD_EXPIRY (R552): SPF_HOLD after the first change, a computation begins; one in progress is finished first. -/
def execSpfHoldExpiry (s : State) : Res :=
  s.does fun s =>
    match s.fb.changeAt, s.fb.computing with
    | some t, none =>
      let s := s.advance (t + s.afld R.WPX_ROUTE_CFG 0 8 * 1000000 - s.now)
      { s with fb := { s.fb with changeAt := none, computing := some s.now, shadow := some s.compute } }
    | _, _ => s

/-- FAB_TIME_PARENT (Table 17.14). -/
def Block.postParent (s : Block) : Block :=
  s.post 0x21 0x1CB [pk (s.fb.table.parent.getD 0xFF) s.fb.steps 0 0, w32 s.fb.accErr]

/-- ROUTE_SWAP (R552): the computation has taken `ms`, and the whole shadow table becomes active. -/
def Block.swap (s : Block) (ms : Nat) (t : RouteTable) : Block :=
  let old := s.fb.table.parent
  let conv := (s.now - s.fb.convStart.getD s.now) / 1000000
  let s : Block := { s with fb := { s.fb with
    table := t, shadow := none, computing := none, lastMs := satN 16 ms, converge := satN 16 conv,
    convStart := if s.fb.changeAt.isSome then s.fb.convStart else none,
    syncAt := if old = t.parent then s.fb.syncAt else none,
    ports := s.fb.ports.map fun q => { q with alt := false } } }
  let s := (s.bump R.ROUTE_SWAPS).post 0x26 0x1C3 [w32 (satN 16 ms + 65536 * satN 16 t.reach), s.tm.fsn]
  if old = t.parent then s else s.postParent

def execRouteSwap (ms : Nat) (s : State) : Res :=
  s.does fun s =>
    match s.fb.shadow, s.fb.computing with
    | some t, some since => (s.advance (since + ms * 1000000 - s.now)).swap ms t
    | _, _ => s

/-- A write of ROUTE_PROBE captures ROUTE_PROBE_RES (Table 17.13). -/
def Block.routeProbe (s : Block) (v : Word) : Block :=
  let r := if bit v 31 then
      bitsMask (s.treeOut (bits v 0 12) 4) + 16 * (s.joinedGroups.contains (bits v 0 12)).toNat
    else match aget? s.fb.table.entries (bits v 0 14) with
      | some e => e.next + 16 * e.alt + 128 * e.assigned.toNat + 256 * e.hops + 65536 * e.cost
      | none => 0x77
  s.setRegs [(R.ROUTE_PROBE, v), (R.ROUTE_PROBE_RES, w32 r)]

/-! ## Fabric time on the links (R561, R562) -/

/-- Is this node the root? -/
def Block.isRoot (s : Block) : Bool := s.fb.root == some s.uidNat

/-- SYNC_SEND (R561): every 2^-SYNC_LOG2 s on each child port; ORIGIN_FT is put in as the frame is sent. -/
def Block.syncSend (s : Block) : Block :=
  let s : Block := { s with fb := { s.fb with lastSync := s.now, sseq := (s.fb.sseq + 1) % 65536 } }
  let steps := if s.isRoot then 0 else s.fb.steps + 1
  let acc := if s.isRoot then 0 else s.fb.accErr + 1280
  let src := if s.isRoot then s.tm.src.code + 4 * s.lockCode else s.fb.rootSrc
  let pay := leBytes 8 s.tm.ft ++ leBytes 1 (s.tm.frac / 2 ^ 24) ++ leBytes 1 steps ++ leBytes 2 s.fb.sseq ++
    leBytes 8 (s.fb.root.getD 0) ++ leBytes 1 src ++ leBytes 3 0 ++ leBytes 4 acc
  (s.fb.table.children.filter s.upPorts.contains).foldl (fun s p => s.sendLocal p 1 0x20 pay) s

def execSyncSend (s : State) : Res :=
  s.does fun s =>
    if s.fabOn && s.fb.root.isSome then
    (s.advance (s.fb.lastSync + 1000000000 / 2 ^ s.afld R.WPX_TIME_CFG 0 4 - s.now)).syncSend
  else s

/-- SYNC (R561, R562): `d` is its payload and `stamp` the local FT at which it arrived, in 1/256 ns; from the parent port it gives the
offset to the TIME loop. -/
def Block.syncIn (s : Block) (p : Nat) (d : List Byte) (stamp : Nat) : Block :=
  let steps := field d 9 1
  let origin := field d 0 8 * 256 + field d 8 1
  let off : Int := (origin : Int) + (s.fport p).delay + sgn 32 (s.act (R.WPXP_ASYM p)).toNat - (stamp : Int)
  let s : Block := { s with fb := { s.fb with steps := steps, accErr := field d 24 4, rootSrc := field d 20 1 % 16, syncAt := some s.now } }
  if steps < 32 ∧ s.tm.run then s.fabricStamp off else s

/-- A SYNC is used only over a link that is two-way (R548). -/
def Block.syncHeard (s : Block) (p : Nat) (d : List Byte) (stamp : Nat) : Block :=
  if (s.fport p).twoWay then s.syncIn p d stamp else s

def execSync (p : Nat) (d : Bytes) (stamp : Nat) (s : State) : Res :=
  s.does fun s => if (s.fport p).st = 6 ∧ s.fb.table.parent = some p ∧ ¬ s.isRoot then s.syncHeard p d stamp else s

/-- PDELAY_EXCHANGE (R562): `kind` 0 sends PDELAY_REQ, 2^-PDELAY_LOG2 s after the last one; 1 answers one that arrived at t2, the
answer leaving at t3; 2 is an answer to a request sent at t1, arriving at t4.  Stamps are in 1/256 ns. -/
def Block.pdelay (s : Block) (p kind pseq t1 t2 t3 t4 : Nat) : Block :=
  match kind with
  | 0 =>
    let s := s.advance ((s.fport p).lastPdelay + 1000000000 / 2 ^ s.afld R.WPX_TIME_CFG 4 4 - s.now)
    let s : Block := { s with fb := { s.fb with pseq := (s.fb.pseq + 1) % 65536 } }
    (s.modF p fun q => { q with lastPdelay := s.now }).sendLocal p 1 0x21 (leBytes 2 s.fb.pseq)
  | 1 => s.sendLocal p 1 0x22 (leBytes 2 pseq ++ leBytes 8 (t2 / 256) ++ leBytes 1 (t2 % 256) ++ leBytes 1 0 ++ leBytes 8 (t3 / 256) ++
      leBytes 1 (t3 % 256))
  | _ =>
    let v : Int := (((t4 : Int) - (t1 : Int)) - ((t3 : Int) - (t2 : Int))) / 2
    s.modF p fun q =>
      let l := (v :: q.delays).take 8
      { q with delays := l, delay := medianI l }

def execPdelayExchange (p kind pseq t1 t2 t3 t4 : Nat) (s : State) : Res :=
  s.does fun s => if (s.fport p).st = 6 then s.pdelay p kind pseq t1 t2 t3 t4 else s

/-! ## Admission (R565, R566) -/

/-- Is a UID in the ascending list at WPX_ALLOW_ADDR (R565)? -/
def Block.allowed (s : Block) (u : Nat) : Bool :=
  let base := s.afld R.WPX_ALLOW_ADDR_HI 0 16 * 0x100000000 + s.afld R.WPX_ALLOW_ADDR_LO 12 20 * 4096
  (List.range (s.afld R.WPX_ALLOW_COUNT 0 14)).any fun i =>
    match s.walk (base + 8 * i) with
    | .ok l => let pa := l.pa + (base + 8 * i) % 2 ^ l.log
      l.r && inCP11 pa && s.memNat pa 8 == u
    | .error _ => false

/-- The peer is admitted or refused (R566): ADMIT_RESULT. -/
def Block.admitJudge (s : Block) (p : Nat) (proof : Bool) : Block :=
  let q := s.fport p
  let res := if !s.tr.identity then 4 else match q.cert with
    | none => 1
    | some u => if q.uid != 0 && q.uid != u then 1
      else if s.afld R.WPX_ADMIT_CFG 0 2 = 2 ∧ !s.allowed u then 3
      else if !proof then 2 else 0
  let u := q.cert.getD q.uid
  let s := s.postF p 0x1C5 [pk p res 0 0, w32 u, w32 (u / 0x100000000)]
  if res = 0 then
    let s := ((s.modF p fun q => { q with admitted := true }).fGoto p 6).pump p
    { s with fb := { s.fb with lsaDue := true } }
  else (s.fGoto p 5).modF p fun q => { q with admitAt := s.now }

/-- The answer to a CHALLENGE: PROOF with the signature of the trust engine, a signing that is counted. -/
def Block.proofSend (s : Block) (p : Nat) (sig : List Byte) : Block :=
  ((s.bump R.TRUST_SIGNS).postTally 0x194 (pageInst 0x20)).sendLocal p 2 0x18 (leBytes 4 2 ++ leBytes 4 512 ++ padBytes 512 sig)

/-- A PROOF has been verified, which is counted, and is judged where its port still waits for it. -/
def Block.proofIn (s : Block) (p : Nat) (ok : Bool) : Block :=
  let s := s.verified ok
  if (s.fport p).st = 4 then s.admitJudge p ok else s

/-- The RSA engine is free: it serves what waits in order of arrival, up to the next signing of an attestation (R27). -/
def Block.rsaServe : Block → List (Nat × RsaReq) → Block
  | s, [] => { s with tr := { s.tr with rsaWait := [] } }
  | s, (t, .sign a) :: l => (({ s with tr := { s.tr with attest := some a, rsaWait := l } } : Block).rsaWaited t).setStage a.cseq 1
  | s, (t, .prove p sig) :: l => ((s.rsaWaited t).proofSend p sig).rsaServe l
  | s, (t, .verify p ok) :: l => ((s.rsaWaited t).proofIn p ok).rsaServe l

/-- A request of the fabric for the RSA engine: it is served at once, or waits behind the attestation being signed (R27). -/
def Block.rsaAsk (s : Block) (q : RsaReq) : Block :=
  if s.tr.attest.isSome then s.rsaQueue q else s.rsaServe [(s.now, q)]

/-- The attestations leave the engine (R141, R34), which serves the requests of the fabric; an ATTEST whose command goes on waiting captures
again when it starts. -/
def Block.rsaDrop (s : Block) : Block :=
  ({ s with tr := { s.tr with attest := none } } : Block).rsaServe (s.tr.rsaWait.filter fun q => match q.2 with | .sign _ => false | _ => true)

/-- ATTEST (R526): it captures at acceptance and, with its signature, ends; the engine then serves what waits. -/
def execAttest (cseq : Word) (sig : Option Bytes) (xok : Bool) (s : State) : Res :=
  s.does fun s =>
    let s := match s.startable cseq 9 with
      | some c => if s.attestWaits cseq then s else s.attestStart c
      | none => s
    match s.tr.attest, sig with
    | some a, some g => if a.cseq = cseq then (s.attestEnd a g xok).rsaServe s.tr.rsaWait else s
    | _, _ => s

/-- ADMIT (R566): `d` is the payload; `serial` is the certificate's serial number where it verifies; `rsa` is what the trust engine
finds of a proof; `sig` is the signature it makes for an answer. -/
def Block.admitIn (s : Block) (p : Nat) (d : List Byte) (serial : Option Nat) (rsa : Bool) (sig : List Byte) : Block :=
  match field d 0 1 with
  | 0 =>
    let s := s.modF p fun q => { q with peerNonce := (d.drop 8).take 32 }
    if s.tr.identity then s.rsaAsk (.prove p sig) else s
  | 1 => s.modF p fun q => { q with cert := serial }
  | 2 => s.rsaAsk (.verify p rsa)
  | _ => s

def execAdmitStream (p : Nat) (d : Bytes) (serial : Option Nat) (rsa : Bool) (sig : Bytes) (s : State) : Res :=
  s.does fun s => if s.linkUp p && s.hkUp && s.afld R.WPX_ADMIT_CFG 0 2 != 0 then s.admitIn p d serial rsa sig else s

/-- ADMIT_RETRY (R566): 10 s after a refusal. -/
def execAdmitRetry (p : Nat) (nonce : Bytes) (s : State) : Res :=
  s.does fun s =>
    if (s.fport p).st = 5 ∧ s.hkUp then
    let s := s.advance ((s.fport p).admitAt + 10000000000 - s.now)
    (s.fGoto p 4).admitStart p nonce
  else s

/-! ## Boot service (R567) -/

/-- The running image of a kind, header and body: the record its slot holds, or the stage-1 image a recovery left in SRAM (R146). -/
def Block.runningImage (s : Block) (kind : Nat) : Option (List Byte) :=
  let q := match kind with | 0 => s.bt.s1 | 1 => s.bt.hk | _ => s.bt.sv
  if 2 < kind then none
  else if kind = 0 ∧ s.bt.recovered.isSome then some s.imageBytes
  else if (s.slot (kind + 1) q.running).st = 0 then none else some (s.slot (kind + 1) q.running).payload

/-- Is every node of the database admitted, and this one among them (R566)? -/
def Block.nodeAdmitted (s : Block) (addr : Nat) : Bool :=
  s.fb.lsas.all (·.adm) && s.fb.map.any fun e => e.2 == addr && (lsaOf s.fb.lsas e.1).isSome

/-- BOOT_REQ (R567): `d` is its payload; the answer is taken from the running image of the kind requested. -/
def Block.bootReq (s : Block) (p : Nat) (d : List Byte) : Block :=
  let kind := field d 0 1
  let off := field d 4 4
  let len := min 8192 (field d 8 4)
  match s.runningImage kind with
  | some im => s.sendLocal p 4 0x31 (leBytes 1 kind ++ leBytes 3 0 ++ leBytes 4 off ++ leBytes 4 im.length ++ (im.drop off).take len)
  | none => s.sendLocal p 4 0x31 (leBytes 1 kind ++ leBytes 3 1 ++ leBytes 4 off ++ leBytes 4 0)

def execBootReq (p : Nat) (d : Bytes) (s : State) : Res :=
  s.does fun s => if s.linkUp p && s.abit R.WPX_CFG 2 then s.bootReq p d else s

end Sys2Proof.Machine
end

