-- ==== Sys2Proof/Machine/Colour.lean ====
section
/-!
DEFINITION. Colour constancy (R416 to R427) and the fabric colour consensus (R428 to R434).  The device's factory tables are opaque
constants of Config (log entry 36); the matrices are formed exactly and rounded once (log entry 37).
-/
namespace Sys2Proof.Machine

/-! ## Photodiodes (R416 to R420) -/

/-- A photodiode. -/
def Block.pd (s : Block) (j : Nat) : PdState := s.co.pd.getD j PdState.reset

/-- A photodiode changes. -/
def Block.modPd (s : Block) (j : Nat) (f : PdState → PdState) : Block := { s with co := { s.co with pd := modAt s.co.pd j f } }

/-- Is a photodiode enabled? -/
def Block.pdEn (s : Block) (j : Nat) : Bool := s.abit (R.OPT_PD_CFG j) 0

/-- The range of a photodiode in an epoch. -/
def Block.pdRange (s : Block) (j e : Nat) : Nat := s.afld (R.OPT_PD_CFG j) (1 + 2 * e) 2

/-- G_r in 1/65536 pA per code (R420). -/
def Block.pdG (s : Block) (j r : Nat) : Nat := Config.pdGain j r * (s.pd j).corr.getD r 65536 / 65536

/-- The offset of a range in codes (R419): its electronic offset and the ambient current at its gain. -/
def Block.pdOff (s : Block) (j r : Nat) : Nat :=
  ((s.pd j).off.getD r none).getD (Config.pdOffset j r) + (s.pd j).amb * 65536 / max 1 (s.pdG j r)

/-- c := (raw - offset) x G (R420), in 1/65536 pA; 0 below the offset. -/
def Block.pdC (s : Block) (j r raw : Nat) : Nat := (raw - s.pdOff j r) * s.pdG j r

/-- Saturated samples are counted (R418). -/
def Block.saturated (s : Block) (j n : Nat) : Block :=
  if n = 0 then s
  else (((s.bump R.OPT_PD_SAT n).postTally 0x135 j).modPd j fun q => { q with satAt := some s.tm.ft })

/-- OFFSET_WINDOW_CLOSE (R419): the mean code of photodiode j in range r over its offset window, and its saturated samples; a mean from
0xFF00 on has one (R418). -/
def Block.offsetClose (s : Block) (j r code sat : Nat) : Block :=
  let s := s.saturated j sat
  if sat ≠ 0 ∨ 0xFF00 ≤ code then s
  else
    let e := ((s.pd j).off.getD r none).getD (Config.pdOffset j r)
    s.modPd j fun q => { q with amb := (code - e) * s.pdG j r / 65536 }

/-- The pair of a group: flat and filtered photodiodes, and the pair's number. -/
def Block.pairOfGroup (s : Block) (g : Nat) : Option (Nat × Nat × Nat) :=
  ((List.range 4).find? fun q => s.afld (R.OPT_PAIR q) 8 3 == g).map fun q => (s.afld (R.OPT_PAIR q) 0 3, s.afld (R.OPT_PAIR q) 4 3, q)

/-- The mirror group whose slots time a photodiode's offset window: that of its pair, else the first with a calendar (log entry 212). -/
def Block.offsetGroup (s : Block) (j : Nat) : Option Nat :=
  let mine (g : Nat) : Bool := match s.pairOfGroup g with | some (a, b, _) => a == j || b == j | none => false
  match (List.range 4).find? mine with
  | some g => some g
  | none => (List.range 4).find? fun g => calSlots (s.port g).words != []

/-- The offset window of a photodiode closes (R419): in a dark interval of 36 us or more, 14 us after its start; else in the kerf of slot 0,
in the range of its epoch, once that range has settled (R416), where at least 0.5 us is left.  None where no ambient is measured so. -/
def Block.offsetAt (s : Block) (j r : Nat) : Option Block :=
  if 36000 ≤ darkNs s.act then some (s.advanceTo (s.nextDark + 14000))
  else match s.offsetGroup j with
    | none => none
    | some g =>
      match (calSlots (s.port g).words)[0]? with
      | none => none
      | some x =>
        let (a, b) := s.slotAt g 0
        if s.pdRange j x.epoch = r ∧ a + (if r = 3 then 3000 else 1500) + 500 + 200 ≤ b then some (s.toSlot ((b : Int) - 200)) else none

def execOffsetWindowClose (j r code sat : Nat) (s : State) : Res :=
  s.does fun s =>
    if j < 8 ∧ r < 4 ∧ s.pdEn j ∧ s.pw.state.running then
      match s.offsetAt j r with
      | some t => t.offsetClose j r code sat
      | none => s
    else s

/-! ## The spectral estimate (R421 to R423) -/

/-- The estimate of a mirror group. -/
def Block.est (s : Block) (g : Nat) : Est := s.co.est.getD g Est.reset

/-- An estimate changes. -/
def Block.modEst (s : Block) (g : Nat) (f : Est → Est) : Block := { s with co := { s.co with est := modAt s.co.est g f } }

/-- Does a photodiode change to range 3 at slot i of a group (R416)?  The windows before slot 0 are in ranges of their own. -/
def Block.slowRange (s : Block) (g i j : Nat) (x : Slot) : Bool :=
  s.pdRange j x.epoch == 3 && match i, (calSlots (s.port g).words)[i - 1]? with
    | _ + 1, some y => s.pdRange j y.epoch != 3
    | _, _ => true

/-- The measurement window of slot i of a group, in ns from the FB (R416, R418): it opens 1.5 us after E_i, where one of the pair changes to
range 3 at the slot not before S_i + 3 us, and closes 0.5 us before the next slot. -/
def Block.measureWindow (s : Block) (g i a b : Nat) (x : Slot) : Nat × Nat :=
  let (st, e) := s.slotAt g i
  let slow := s.slowRange g i a x || s.slowRange g i b x
  (if slow then max (e + 1500) (st + 3000) else e + 1500, e + x.dwell * 10 - 500)

/-- The wavelength at a ratio (R421): linear interpolation in the pair's table; none outside it. -/
def lambdaAt (q rho : Nat) : Option Nat :=
  ((List.range 31).find? fun k =>
    let a := Config.pairRho q k
    let b := Config.pairRho q (k + 1)
    (decide (a ≤ rho) && decide (rho ≤ b)) || (decide (b ≤ rho) && decide (rho ≤ a))).map fun k =>
      let a : Int := Config.pairRho q k
      let b : Int := Config.pairRho q (k + 1)
      let la : Int := Config.pairLambda q k
      let lb : Int := Config.pairLambda q (k + 1)
      if a = b then la.toNat else (la + (lb - la) * ((rho : Int) - a) / (b - a)).toNat

/-- A value of the locus at a wavelength in 1/64 nm, linearly between whole nanometres (R421). -/
def locusAt (f : Nat → Nat) (lam : Nat) : Int :=
  let a : Int := f (lam / 64)
  let b : Int := f (lam / 64 + 1)
  a + (b - a) * ((lam % 64 : Nat) : Int) / 64

/-- Chromaticity and flux of a group from the currents of a window (R421, R422); A x D is `ad` in 2^-30. -/
def estimateOf (g q cFlat cFilt flat ad : Nat) : Option (Nat × Nat × Nat × Nat) :=
  if cFlat = 0 ∨ ad = 0 then none
  else match lambdaAt q ((cFilt * 32768 + cFlat / 2) / cFlat) with
    | none => none
    | some lam =>
      let x := (locusAt Config.locusX lam + Config.widthX g).toNat
      let y := (locusAt Config.locusY lam + Config.widthY g).toNat
      some (x, y, cFlat * Config.responsivity flat lam * 2 ^ 30 / (2 ^ 44 * ad), lam)

/-- The mean codes of a good window: they are kept, and the window's estimate joins the frame's where there is one (R421, R422). -/
def Block.measureTake (s : Block) (g a b q len : Nat) (x : Slot) (flat filt : Nat) : Block :=
  let s := (s.modPd a fun p => { p with last := flat }).modPd b fun p => { p with last := filt }
  let ad := (if x.plane = 16 then 0 else calAmp (s.port g).words x.epoch) * s.levelNow g
  match estimateOf g q (s.pdC a (s.pdRange a x.epoch) flat) (s.pdC b (s.pdRange b x.epoch) filt) a ad with
  | some (ex, ey, fl, lam) => s.modEst g fun e => { e with win := e.win ++ [(len, ex, ey, fl, lam)] }
  | none =>
    if ad = 0 ∨ s.pdC a (s.pdRange a x.epoch) flat = 0 then s else s.postI 0x1A 0x134 0 g false [pk g 2 0 0, s.tm.fsn]

/-- MEASURE_WINDOW_CLOSE (R418, R421, R422), at the window's close: the mean codes and saturated samples of the pair of group g over the
window of slot i. -/
def Block.measureClose (s : Block) (g i flat filt satA satB : Nat) : Block :=
  match s.pairOfGroup g, (calSlots (s.port g).words)[i]? with
  | some (a, b, q), some x =>
    let w := s.measureWindow g i a b x
    if !x.measure ∨ w.2 ≤ w.1 then s
    else
      let s := (s.toSlot w.2 |>.saturated a satA).saturated b satB
      if satA ≠ 0 ∨ satB ≠ 0 ∨ 0xFF00 ≤ max flat filt ∨ !s.pdEn a ∨ !s.pdEn b then s else s.measureTake g a b q (w.2 - w.1) x flat filt
  | _, _ => s

def execMeasureWindowClose (g i flat filt satA satB : Nat) (s : State) : Res :=
  s.does fun s => if g < 4 ∧ s.pw.state.lightOn then s.measureClose g i flat filt satA satB else s

/-- A weighted mean. -/
def wmean (l : List (Nat × Nat)) : Int :=
  let w := (l.map (·.1)).sum
  ((l.map fun e => e.1 * e.2).sum / max 1 w : Nat)

/-- A smoothed value (R423). -/
def smooth (k : Nat) (e f : Int) : Int := e + (f - e) / (2 ^ k : Nat)

/-- COLOUR_ESTIMATE_COMBINE and COLOUR_HOLD (R423), at the end of a frame.  The first value of all is taken as it is, since there is none to
smooth from (log entry 251). -/
def Block.estFrame (s : Block) (g : Nat) : Block :=
  let e := s.est g
  let k := s.afld R.OPT_AVG 0 4
  if e.hold ∨ e.win = [] then
    let n := min 65535 (e.since + 1)
    let stale := decide (s.afld R.OPT_AVG 16 16 ≤ n)
    let s := s.modEst g fun e => { e with win := [], since := n, valid := e.valid && !stale }
    if stale ∧ (s.pairOfGroup g).isSome ∧ e.valid then s.postI 0x1A 0x134 0 g false [pk g 0 0 0, s.tm.fsn] else s
  else
    let fx := wmean (e.win.map fun w => (w.1, w.2.1))
    let fy := wmean (e.win.map fun w => (w.1, w.2.2.1))
    let ff := wmean (e.win.map fun w => (w.1, w.2.2.2.1))
    let lam := (wmean (e.win.map fun w => (w.1, w.2.2.2.2))).toNat
    s.modEst g fun e =>
      if e.valid || e.flux != 0 then
        { e with x := smooth k e.x fx, y := smooth k e.y fy, flux := smooth k e.flux ff, lam := lam, since := 0, valid := true, win := [] }
      else { e with x := fx, y := fy, flux := ff, lam := lam, since := 0, valid := true, win := [] }

/-! ## Matrices (R424 to R426) -/

/-- A 3 x 3 matrix, row by row. -/
abbrev Mat3 := List (List Int)

/-- An entry. -/
def mat (m : Mat3) (i j : Nat) : Int := (m.getD i []).getD j 0

/-- The determinant. -/
def det3 (m : Mat3) : Int :=
  mat m 0 0 * (mat m 1 1 * mat m 2 2 - mat m 1 2 * mat m 2 1) - mat m 0 1 * (mat m 1 0 * mat m 2 2 - mat m 1 2 * mat m 2 0) +
    mat m 0 2 * (mat m 1 0 * mat m 2 1 - mat m 1 1 * mat m 2 0)

/-- An entry of the adjugate. -/
def adj3 (m : Mat3) (i j : Nat) : Int :=
  let a := (j + 1) % 3
  let b := (j + 2) % 3
  let c := (i + 1) % 3
  let d := (i + 2) % 3
  mat m a c * mat m b d - mat m a d * mat m b c

/-- The matrix of chromaticity columns (x, y, 1 - x - y) in 2^-32. -/
def chroma3 (l : List (Int × Int)) : Mat3 := [l.map (·.1), l.map (·.2), l.map fun p => 2 ^ 32 - p.1 - p.2]

/-- A U0.16 coordinate in 2^-32. -/
def u16 (p : Nat × Nat) : Int × Int := ((p.1 * 65536 : Nat), (p.2 * 65536 : Nat))

/-- A quotient rounded to nearest, away from zero at a half, the divisor of either sign. -/
def qround (n d : Int) : Int := if d = 0 then 0 else if d < 0 then rdiv (-n) d.natAbs else rdiv n d.natAbs

/-- The columns of the adjugate of m with a vector. -/
def adjVec (m : Mat3) (w : Int × Int) (i : Nat) : Int := adj3 m i 0 * w.1 + adj3 m i 1 * w.2 + adj3 m i 2 * (2 ^ 32 - w.1 - w.2)

/-- M_a^-1 x M_t in S3.28 (R424): primaries (x, y, Y in 2^-20 lm) against a target; none where a matrix is singular.  `scale` is a
factor in 1/2048 (HL_FULL, R425). -/
def solveD (a : List (Int × Int × Int)) (t : ColTarget) (scale : Nat) : Option (List Int) :=
  let ma := chroma3 (a.map fun p => (p.1, p.2.1))
  let mt := chroma3 (t.prim.map u16)
  let w := u16 t.white
  let da := det3 ma
  let dt := det3 mt
  if da = 0 ∨ dt = 0 ∨ w.2 = 0 ∨ (a.any fun p => decide (p.2.2 ≤ 0)) then none
  else some ((List.range 9).map fun n =>
    let i := n / 3
    let j := n % 3
    let at' := adj3 ma i 0 * mat mt 0 j + adj3 ma i 1 * mat mt 1 j + adj3 ma i 2 * mat mt 2 j
    let p := a.getD i (0, 0, 0)
    let num := at' * adjVec mt w j * (t.peak : Int) * p.2.1 * (scale : Int) * 2 ^ 28 * 2 ^ 16
    let den := da * dt * w.2 * p.2.2 * 2048
    clampI (-2147483648) 2147483647 (qround num den))

/-- The group whose light is primary p: that of the lowest port that shows it. -/
def Block.groupOf (s : Block) (p : Nat) : Option Nat := (List.range 4).find? fun g => s.abit (R.BUCK_PORT_CFG g) 0 && buckPrim s.act g == p

/-- The smoothed estimates of the groups of primaries 0 to 2, where each is valid. -/
def Block.estimates (s : Block) : Option (List (Int × Int × Int)) :=
  let l := (List.range 3).filterMap fun p => (s.groupOf p).bind fun g =>
    let e := s.est g
    if e.valid then some (e.x, e.y, e.flux) else none
  if l.length = 3 then some l else none

/-- D at a PB (R424): D_new step-limited, but unclamped where `fresh`. -/
def Block.matrixStep (s : Block) (new : List Int) (fresh : Bool) : Block :=
  let step : Int := (s.afld R.OPT_MAT_STEP 0 16 * 4096 : Nat)
  let old := s.co.d
  let l := (new.zipIdx).map fun (d, i) =>
    let o := old.getD i 0
    if fresh then (d, false) else (o + clampI (-step) step (d - o), decide (step < (d - o).natAbs))
  let acted := l.any (·.2)
  let s : Block := { s with co := { s.co with d := l.map (·.1) ++ old.drop 9, stepped := acted } }
  if acted then s.postTally 0x136 (pageInst 0x1A) else s

/-- Hm from the last scanner calibration and the target in force (R425). -/
def Block.hmUpdate (s : Block) : Block :=
  match s.co.target with
  | none => s
  | some t =>
    let a := s.co.hl.map fun (x, y, f) => (((x * 65536 : Nat) : Int), ((y * 65536 : Nat) : Int), ((f * 65536 : Nat) : Int))
    match solveD a t (s.afld R.HSB_HL_FULL 0 16) with
    | some m => { s with co := { s.co with hm := m ++ [0, 0, 0], hmDue := false } }
    | none => { s with co := { s.co with hmDue := false } }

/-- Row 3 of D as committed (R426). -/
def Block.matrixRow3 (s : Block) : Block :=
  let row := (List.range 3).map fun c => sgn 32 (s.act (R.COLOR_DEC_M (9 + c))).toNat
  { s with co := { s.co with d := (List.range 9).map (s.co.d.getD · 0) ++ row } }

/-- COLOUR_MATRIX_UPDATE (R424, R425), at a PB; R426 takes row 3 as committed.  Hm follows a target at the PB at which that target enters
(log entry 213). -/
def Block.colourMatrix (s : Block) : Block :=
  let en := s.abit R.OPT_CTRL 0
  let fresh := s.co.fresh || (en && !s.co.wasEn)
  let s : Block := { s with co := { s.co with wasEn := en, stepped := false } }
  let s := if s.co.hmDue then s.hmUpdate else s
  if !en then s
  else
    let s := s.matrixRow3
    match s.co.target, s.estimates with
    | some t, some a => match solveD a t 2048 with
      | some m =>
        let s := s.matrixStep m fresh
        { s with co := { s.co with fresh := false } }
      | none => s
    | _, _ => s

/-- CONSENSUS_TARGET_APPLY (R434) at a boundary; with CONS_EN at 0 the target is local (R427). -/
def Block.targetApply (s : Block) : Block :=
  match s.co.pend with
  | some p =>
    if !s.abit R.OPT_CTRL 1 then { s with co := { s.co with pend := none } }
    else if p.at_ ≤ s.tm.ft then
      let s : Block := { s with co := { s.co with pend := none, target := some p.target, consensus := true, epoch := p.epoch, fresh := true,
                                                  hmDue := true } }
      s.post 0x1A 0x130 [p.epoch, w32 (p.members + 65536 * p.excluded), s.tm.fsn]
    else s
  | none => s

/-- What the colour loop does at a PB at which a frame begins. -/
def Block.colourPb (s : Block) : Block := s.targetApply.colourMatrix

/-! ## Reports, sets and targets (R428 to R433) -/

/-- EPOCH_LEN in ns. -/
def Block.epochLen (s : Block) : Nat := max 1 (s.afld R.OPT_CONS_CFG 16 16) * 10000000

/-- The configured white. -/
def Block.consWhite (s : Block) : Nat × Nat := (s.afld R.OPT_CONS_WHITE 0 16, s.afld R.OPT_CONS_WHITE 16 16)

/-- PEAK (R429): the largest flux of the configured white with every primary at or below full scale, in 1/16 lm; a primary that the white
does not need sets no limit, and a white outside the gamut has none. -/
def Block.peakOf (s : Block) (a : List (Int × Int × Int)) : Nat :=
  let m := chroma3 (a.map fun p => (p.1, p.2.1))
  let w := u16 s.consWhite
  let d := det3 m
  let l := (List.range 3).filterMap fun i =>
    let p := a.getD i (0, 0, 0)
    let n := p.2.2 * d * w.2
    let q := adjVec m w i * p.2.1
    if q = 0 then none else some (if (0 < n) = (0 < q) then (n / q / 65536).toNat else 0)
  match l with
  | [] => 0
  | x :: xs => xs.foldl min x

/-- A coordinate rounded to nearest in U0.16. -/
def toU16 (x : Int) : Nat := (clampI 0 65535 ((x + 32768) / 65536)).toNat

/-- Bytes 16 to 35 of a report. -/
def reportBody (prim : List (Nat × Nat)) (peak : Nat) (white : Nat × Nat) : List Byte :=
  (prim.flatMap fun p => leBytes 2 p.1 ++ leBytes 2 p.2) ++ leBytes 4 peak ++ leBytes 2 white.1 ++ leBytes 2 white.2

/-- The head's own report for an epoch, where every estimate is valid (R428, R429). -/
def Block.ownReport (s : Block) (n : Word) : Option ColReport :=
  s.estimates.map fun a =>
    let prim := a.map fun p => (toU16 p.1, toU16 p.2.1)
    let peak := s.peakOf a
    { uid := s.uidNat, epoch := n, prim := prim, peak := peak, bytes := reportBody prim peak s.consWhite }

/-- cross(a, b) (R432). -/
def cross (a b : Int × Int) : Int := a.1 * b.2 - a.2 * b.1

/-- The difference of two points. -/
def sub2 (a b : Int × Int) : Int × Int := (a.1 - b.1, a.2 - b.2)

/-- A point as integers. -/
def pt (p : Nat × Nat) : Int × Int := (p.1, p.2)

/-- The triangle of a member, counter-clockwise; none where it is degenerate (R432). -/
def triangle (r : ColReport) : Option (List (Int × Int)) :=
  let p0 := pt (r.prim.getD 0 (0, 0))
  let p1 := pt (r.prim.getD 1 (0, 0))
  let p2 := pt (r.prim.getD 2 (0, 0))
  let c := cross (sub2 p1 p0) (sub2 p2 p0)
  if c = 0 then none else if c < 0 then some [p0, p2, p1] else some [p0, p1, p2]

/-- The edges of a triangle. -/
def edges3 (t : List (Int × Int)) : List ((Int × Int) × (Int × Int)) :=
  match t with
  | [a, b, c] => [(a, b), (b, c), (c, a)]
  | _ => []

/-- A member's exclusion: 1 DEGENERATE, 2 WHITE_OUTSIDE (R432). -/
def excludeOf (w : Int × Int) (r : ColReport) : Nat :=
  match triangle r with
  | none => 1
  | some t => if (edges3 t).any fun e => decide (cross (sub2 e.2 e.1) (sub2 w e.1) ≤ 0) then 2 else 0

/-- The scale of one ray (R432). -/
def rayScale (w v : Int × Int) (ms : List ColReport) : Int :=
  ms.foldl (fun s r => match triangle r with
    | none => s
    | some t => (edges3 t).foldl (fun s e =>
        let c0 := cross (sub2 e.2 e.1) (sub2 w e.1)
        let c1 := cross (sub2 e.2 e.1) v
        if c1 < 0 then min s (c0 * 65536 / (-c1)) else s) s) 65536

/-- The target of a set without its excluded members (R432); none where no member remains. -/
def Block.targetOf (s : Block) (ms : List ColReport) : Option ColTarget :=
  match ms with
  | [] => none
  | m :: rest =>
    let w := pt s.consWhite
    let prim := (List.range 3).map fun p =>
      let n : Int × Int := (s.afld (R.OPT_CONS_NOM p) 0 16, s.afld (R.OPT_CONS_NOM p) 16 16)
      let v := sub2 n w
      let k := rayScale w v ms
      ((w.1 + (k * v.1).tdiv 65536).toNat, (w.2 + (k * v.2).tdiv 65536).toNat)
    some { prim := prim, white := s.consWhite, peak := rest.foldl (fun x r => min x r.peak) m.peak * 97 / 100 }

/-- The local target at an epoch end (R427). -/
def Block.localTarget (s : Block) : Block :=
  match s.co.own with
  | none => s
  | some r =>
    let w := pt s.consWhite
    match s.targetOf (if excludeOf w r = 0 then [r] else []) with
    | some t => { s with co := { s.co with target := some t, consensus := false, hmDue := true } }
    | none => s

/-- EPOCH_END (R427, R428): the report is frozen. -/
def Block.epochEnd (s : Block) : Block :=
  let len := s.epochLen
  let n := s.tm.ft / len
  let s := s.advanceTo ((n + 1) * len)
  let s : Block := { s with co := { s.co with own := s.ownReport (w32 n), told := [] } }
  if !s.abit R.OPT_CTRL 1 ∨ !s.co.consensus then s.localTarget else s

def execEpochEnd (s : State) : Res := s.does fun s => if s.tm.run then s.epochEnd else s

/-- The head's delay in ns: (a mod 97) ms (R428). -/
def Block.headDelay (s : Block) : Nat := s.fb.addr % 97 * 1000000

/-- The start of the present epoch, the end of epoch n. -/
def Block.epochStart (s : Block) : Nat := s.tm.ft / s.epochLen * s.epochLen

/-- A consensus message goes to group 0. -/
def Block.sendGroup0 (s : Block) (pay : List Byte) : Block :=
  if s.fb.addr = 0 then s
  else (s.treeOut 0 4).foldl (fun s p =>
    s.enqueue p { cls := 2, bytes := mkFrame 2 true 0 s.fb.addr 1 0 0 0 pay, hold := none, cseq := none }) s

/-- The first 16 bytes of a consensus message. -/
def Block.consHead (s : Block) (ty : Nat) (n : Word) : List Byte :=
  leBytes 2 ty ++ leBytes 2 (s.afld R.OPT_CONS_CFG 0 16) ++ leBytes 4 n.toNat ++ leBytes 8 s.uidNat

/-- REPORT_SEND (R428). -/
def execReportSend (s : State) : Res :=
  s.does fun s =>
    if s.tm.run ∧ s.abit R.OPT_CTRL 1 then
    match s.co.own with
    | some r =>
      let s := s.advanceTo (s.epochStart + s.headDelay)
      s.sendGroup0 (padBytes 64 (s.consHead 1 r.epoch ++ r.bytes ++ leBytes 2 (s.afld R.OPT_CONS_CFG 16 16)))
    | none => s
  else s

/-- CONS_EXCLUDED (Table 13.13). -/
def Block.postExcluded (s : Block) (uid reason : Nat) : Block := s.post 0x1A 0x133 [w32 uid, w32 (uid / 0x100000000), w32 reason]

/-- Does a consensus message agree with this head's configuration (R430)?  A digest carries no white. -/
def Block.consOk (s : Block) (d : List Byte) : Bool :=
  field d 1 1 == 0 && field d 2 2 == s.afld R.OPT_CONS_CFG 0 16 &&
    (if field d 0 1 = 1 then
      field d 32 2 == s.consWhite.1 && field d 34 2 == s.consWhite.2 && field d 36 2 == s.afld R.OPT_CONS_CFG 16 16 &&
        ((d.drop 38).take 26).all (· == 0)
    else ((d.drop 20).take 12).all (· == 0))

/-- The epoch whose 32-bit number (R431) a report carries, by R7 against the epoch that runs. -/
def epochNat (ft len : Nat) (n : Word) : Nat :=
  let k := ft / len
  if newer (w32 k) n then k - (w32 k - n).toNat else k + (n - w32 k).toNat

/-- COLOUR_REPORT (R428, R430): `d` is its 64-byte payload. -/
def Block.reportIn (s : Block) (d : List Byte) : Block :=
  let uid := field d 8 8
  let n := w32 (field d 4 4)
  if field d 0 1 ≠ 1 then s
  else if !s.consOk d then
    if s.co.told.any fun e => e.1 == uid then s
    else ({ s with co := { s.co with told := s.co.told ++ [(uid, n)] } } : Block).postExcluded uid 3
  else if decide ((epochNat s.tm.ft s.epochLen n + 1) * s.epochLen + 120000000 < s.tm.ft) then (s.bump R.OPT_CONS_LATE).postTally 0x137 (pageInst 0x1A)
  else
    let r : ColReport := { uid := uid, epoch := n, prim := (List.range 3).map fun p => (field d (16 + 4 * p) 2, field d (18 + 4 * p) 2),
                           peak := field d 28 4, bytes := (d.drop 16).take 20 }
    match s.co.reports.find? fun x => x.uid == uid with
    | some o => if newer o.epoch n then s
      else { s with co := { s.co with reports := (s.co.reports.filter fun x => x.uid != uid) ++ [r] } }
    | none => { s with co := { s.co with reports := s.co.reports ++ [r] } }

def execColourReport (d : Bytes) (s : State) : Res := s.does fun s => if s.tm.run ∧ s.abit R.OPT_CTRL 1 then s.reportIn d else s

/-- COLOUR_DIGEST (R430, R433): `d` is its 48-byte payload. -/
def Block.digestIn (s : Block) (d : List Byte) : Block :=
  if field d 0 1 = 2 ∧ s.consOk d then
    let e := (field d 8 8, w32 (field d 4 4), (d.drop 32).take 16)
    { s with co := { s.co with digests := (s.co.digests.filter fun x => x.1 != e.1) ++ [e] } }
  else s

def execColourDigest (d : Bytes) (s : State) : Res := s.does fun s => if s.tm.run ∧ s.abit R.OPT_CTRL 1 then s.digestIn d else s

/-- A report put into a list in ascending UID order. -/
def insReport (r : ColReport) : List ColReport → List ColReport
  | [] => [r]
  | x :: l => if r.uid ≤ x.uid then r :: x :: l else x :: insReport r l

/-- The members that are removed or stale are reported (R431). -/
def Block.setEvents (s : Block) (n : Word) : Block :=
  s.co.reports.foldl (fun s r =>
    let k := (n - r.epoch).toNat
    if k = 0 ∨ 2 ^ 31 ≤ k then s
    else if k ≤ 2 then s.post 0x1A 0x132 [w32 r.uid, w32 (r.uid / 0x100000000), w32 k]
    else s.postExcluded r.uid 0) s

/-- COLLECTION_CLOSE (R431 to R433): S_n, its target and its digest. -/
def Block.collect (s : Block) : Block :=
  let t := s.epochStart
  let n := w32 (s.tm.ft / s.epochLen - 1)
  let s := s.advanceTo (t + 120000000)
  let s := s.setEvents n
  let keep := s.co.reports.filter fun r => decide ((n - r.epoch).toNat ≤ 2) || decide (2 ^ 31 ≤ (n - r.epoch).toNat)
  let use := keep.filter fun r => decide ((n - r.epoch).toNat ≤ 2) && r.uid != s.uidNat
  let mine := match s.co.own with
    | some r => if r.epoch = n then [r] else []
    | none => []
  let set := (mine ++ use).foldl (fun a r => insReport r a) []
  let w := pt s.consWhite
  let out := set.filter fun r => excludeOf w r != 0
  let s := out.foldl (fun s r => s.postExcluded r.uid (excludeOf w r)) s
  let dig := (sha512 (set.flatMap fun r => leBytes 8 r.uid ++ leBytes 4 r.epoch.toNat ++ r.bytes)).take 16
  let tgt := s.targetOf (set.filter fun r => excludeOf w r == 0)
  let fresh := (set.filter fun r => r.epoch == n).map (·.uid)
  let s : Block := { s with co := { s.co with reports := keep, setEpoch := n, setTarget := tgt, setDigest := dig,
                                              refUid := fresh.head?, members := set.length, excluded := out.length } }
  let s := s.advanceTo (t + 120000000 + s.headDelay)
  s.sendGroup0 (padBytes 48 (s.consHead 2 n ++ leBytes 2 set.length ++ leBytes 2 out.length ++ List.replicate 12 0 ++ dig))

def execCollectionClose (s : State) : Res :=
  s.does fun s => if s.tm.run ∧ s.abit R.OPT_CTRL 1 ∧ s.epochLen ≤ s.tm.ft then s.collect else s

/-- The reference digest of the set, where it arrived (R433). -/
def Block.refDigest (s : Block) : Option (List Byte) :=
  match s.co.refUid with
  | none => none
  | some u =>
    if u = s.uidNat then some s.co.setDigest
    else (s.co.digests.find? fun e => e.1 == u && e.2.1 == s.co.setEpoch).map (·.2.2)

/-- DIGEST_CLOSE (R433): the target is applied at the first FB at or after T + 250 ms, or the previous one is kept. -/
def Block.decide_ (s : Block) : Block :=
  let t := s.epochStart
  let s := s.advanceTo (t + 230000000)
  if s.refDigest = some s.co.setDigest then
    let s : Block := { s with co := { s.co with matched := true } }
    match s.co.setTarget with
    | some g => { s with co := { s.co with pend := some { at_ := t + 250000000, target := g, epoch := s.co.setEpoch, members := s.co.members,
                                                          excluded := s.co.excluded } } }
    | none => s
  else
    let s : Block := { s with co := { s.co with matched := false } }
    (s.bump R.OPT_CONS_MISMATCH).post 0x1A 0x131
      [s.co.setEpoch, w32 (field s.co.setDigest 0 4), w32 (field (s.refDigest.getD []) 0 4)]

def execDigestClose (s : State) : Res :=
  s.does fun s => if s.tm.run ∧ s.abit R.OPT_CTRL 1 ∧ s.epochLen ≤ s.tm.ft then s.decide_ else s

/-! ## Captures of the OPT page (Table 13.11) -/

def Block.estCapture (s : Block) (g : Nat) : Block :=
  let e := s.est g
  s.setRegs [(R.OPT_EST_XY, w32 (toU16 e.x + 65536 * toU16 e.y)), (R.OPT_EST_LAMBDA, w32 (e.lam % 65536 + 65536 * e.since)),
    (R.OPT_EST_FLUX, w32 (e.flux / 65536).toNat)]

def Block.targetCapture (s : Block) (k : Nat) : Block :=
  match s.co.target with
  | none => s.setRegs [(R.OPT_TARGET_XY, 0), (R.OPT_TARGET_PEAK, 0)]
  | some t =>
    let p := if k = 3 then t.white else t.prim.getD k (0, 0)
    s.setRegs [(R.OPT_TARGET_XY, w32 (p.1 + 65536 * p.2)), (R.OPT_TARGET_PEAK, w32 t.peak)]

def Block.matCapture (s : Block) (v : Word) : Block :=
  let i := bits v 0 4
  let m := if bit v 4 then s.co.hm else s.co.d
  s.setReg R.OPT_MAT_DATA (w32 (unsgn 32 (m.getD i 0)))

def Block.pdCapture (s : Block) (j : Nat) : Block :=
  s.setReg R.OPT_PD_LAST (w32 ((s.pd j).last % 65536 + 65536 * satN 16 ((s.pd j).amb / 1000)))

end Sys2Proof.Machine
end

