-- ==== Sys2Proof/Machine/Chk.lean ====
section
/-!
DEFINITION. The general check-value units (R607 to R613) and the Tally commands (R614 to R619).
-/
namespace Sys2Proof.Machine

/-! ## The units -/

/-- A unit. -/
def Block.chkU (s : Block) (u : Nat) : ChkUnit := s.chk.getD u ChkUnit.reset

/-- A unit changes. -/
def Block.modChk (s : Block) (u : Nat) (f : ChkUnit → ChkUnit) : Block := { s with chk := modAt s.chk u f }

/-- A byte enters the message of a unit (R607). -/
def ChkUnit.byte (k : ChkUnit) (b : Byte) : ChkUnit := { k with reg := crcByte k.width k.runPoly k.refin k.reg b }

/-- Four bytes of a tag or a fed word enter (R608). -/
def ChkUnit.word (k : ChkUnit) (v : Word) : ChkUnit := (leBytes 4 v.toNat).foldl ChkUnit.byte k

/-- An operation that the unit's state does not allow (R609). -/
def Block.chkSeqErr (s : Block) (u : Nat) : Block := s.modChk u fun k => { k with seqErr := true }

/-- START (Table 19.1). -/
def Block.chkStart (s : Block) (u : Nat) : Block :=
  let g := s.reg (R.CHK_CFG u)
  s.modChk u fun k =>
    let w := bits g 0 7
    let k : ChkUnit := { k with width := w, refin := bit g 7, refout := bit g 8, runPoly := k.poly % 2 ^ w, runXor := k.xorout % 2 ^ w,
                                reg := k.init % 2 ^ w, isOpen := true, busy := false, mtch := false, mism := false, fault := false,
                                seqErr := false, ue := false, kind := 0, detail := 0, finishPend := false }
    if bits g 9 2 = 1 then k.word (s.reg (R.CHK_TAG u)) else k

/-- FEED (Table 19.1). -/
def Block.chkFeed (s : Block) (u : Nat) (v : Word) : Block :=
  let k := s.chkU u
  if k.isOpen && !k.busy then s.modChk u fun k => k.word v else s.chkSeqErr u

/-- MEM (Table 19.1): the unit takes ADDR, LEN and SPACE and is BUSY. -/
def Block.chkMem (s : Block) (u : Nat) : Block :=
  let k := s.chkU u
  if k.isOpen && !k.busy then
    let n := (s.reg (R.CHK_LEN u)).toNat
    let phys := bit (s.reg (R.CHK_CFG u)) 12
    s.modChk u fun k => { k with busy := true, memAddr := k.addr % 2 ^ 48, memLen := n, memSpace := phys }
  else s.chkSeqErr u

/-- The DATA of CHK_DONE and CHK_MISMATCH (Table 19.10). -/
def chkData (u res v : Nat) : List Word := [pk u res 0 0, w32 v, w32 (v / 0x100000000)]

/-- The unit finalises (R611). -/
def Block.chkFinal (s : Block) (u : Nat) : Block :=
  let g := s.reg (R.CHK_CFG u)
  let k := s.chkU u
  let k := if bits g 9 2 = 2 then k.word (s.reg (R.CHK_TAG u)) else k
  let r := crcEnd k.width k.refout k.runXor k.reg
  let cmp := bit g 11
  let eq := r == k.expect % 2 ^ k.width
  let s := s.modChk u fun _ => { k with result := r, isOpen := false, finishPend := false, mtch := cmp && eq, mism := cmp && !eq }
  let s := s.setInt 0x29 (w32 (2 ^ u + if cmp && !eq then 2 ^ (8 + u) else 0))
  let s := if cmp && !eq then s.post 0x29 0x1A1 (chkData u 2 r) else s
  if bit g 13 then s.post 0x29 0x1A0 (chkData u (if !cmp then 0 else if eq then 1 else 2) r) else s

/-- FINISH (Table 19.1): while BUSY it waits for the read. -/
def Block.chkFinish (s : Block) (u : Nat) : Block :=
  let k := s.chkU u
  if !k.isOpen || k.fault then s.chkSeqErr u
  else if k.busy then s.modChk u fun k => { k with finishPend := true }
  else s.chkFinal u

/-- Where a beat of a unit's read stands in DRAM (R610): translated as client 0x12 + u, or a device physical address. -/
def Block.chkBeat (s : Block) (u : Nat) (phys : Bool) (a left : Nat) (cur : Option Nat) : Block × Except AccFault Nat :=
  if phys then
    if inDram a then (if cur.isNone || a % 64 == 0 then s.dramReq a (min left (64 - a % 64)) false (pairOf a != 11) else s, .ok a)
    else (s, .error ⟨1, 3, 0⟩)
  else s.beat (0x12 + u) a left false cur

/-- The read of a unit, byte by byte (R610): it stops at the beat that faults or holds an uncorrectable block. -/
def Block.chkRead (s : Block) (u : Nat) (phys : Bool) : Nat → Nat → Option Nat → ChkUnit → Block × ChkUnit × Option (Nat × Nat × Bool × Nat)
  | _, 0, _, k => (s, k, none)
  | a, n + 1, cur, k =>
    match s.chkBeat u phys a (n + 1) cur with
    | (s, .error f) => (s, k, some (f.kind, f.detail, false, a))
    | (s, .ok pa) =>
      if s.dc.poison.contains (pa / 64) then (s.uncorrectable pa 6, k, some (0, 0, true, a))
      else s.chkRead u phys (a + 1) n (some (pa + 1)) (k.byte (s.memB pa))

/-- The read of a unit ends (R610). -/
def Block.chkMemDone (s : Block) (u : Nat) : Block :=
  let k := s.chkU u
  if !k.busy then s
  else
    let r := s.chkRead u k.memSpace k.memAddr k.memLen none k
    let s := r.1
    let k : ChkUnit := { r.2.1 with busy := false, finishPend := false }
    match r.2.2 with
    | none =>
      let s := s.modChk u fun _ => k
      if (s.chkU u).isOpen && r.2.1.finishPend then s.chkFinal u else s
    | some (kind, detail, ue, a) =>
      let s := s.modChk u fun _ => { k with fault := true, ue := ue, kind := kind, detail := detail, seqErr := k.seqErr || r.2.1.finishPend }
      (s.setInt 0x29 (w32 (2 ^ (16 + u)))).post 0x29 0x1A2 [pk u kind detail ue.toNat, w32 a, w32 (a / 0x100000000)]

/-- A write of CHK_CFG: the configuration, then the operations its strobes name. -/
def Block.chkCfg (s : Block) (u : Nat) (v : Word) : Block :=
  s.rwWrite (R.CHK_CFG u) v fun s w =>
    let s := s.setReg (R.CHK_CFG u) w
    let s := if bit v 28 then s.chkStart u else s
    let s := if bit v 29 then s.chkMem u else s
    if bit v 30 then s.chkFinish u else s

def execChkStart (u : Nat) (v : Word) (s : State) : Res := s.does fun s => if u < 8 then s.chkCfg u (setBits v 28 3 1) else s
def execChkMem (u : Nat) (v : Word) (s : State) : Res := s.does fun s => if u < 8 then s.chkCfg u (setBits v 28 3 2) else s
def execChkFinish (u : Nat) (v : Word) (s : State) : Res := s.does fun s => if u < 8 then s.chkCfg u (setBits v 28 3 4) else s
def execChkFeed (u : Nat) (v : Word) (s : State) : Res := s.does fun s => if u < 8 then s.onStrobe fun s => s.chkFeed u v else s
def execChkMemDone (u : Nat) (s : State) : Res := s.does fun s => if u < 8 then s.chkMemDone u else s

/-- The parameters of a unit (Table 19.5). -/
def ChkUnit.param (k : ChkUnit) (sel : Nat) : Nat :=
  match sel with
  | 0 => k.poly | 1 => k.init | 2 => k.xorout | 3 => k.expect | 4 => k.result | 5 => k.addr | _ => 0

/-- A parameter takes a value; writes to RESULT are ignored, and ADDR uses 48 bits. -/
def ChkUnit.putParam (k : ChkUnit) (sel v : Nat) : ChkUnit :=
  match sel with
  | 0 => { k with poly := v } | 1 => { k with init := v } | 2 => { k with xorout := v } | 3 => { k with expect := v }
  | 5 => { k with addr := v % 2 ^ 48 } | _ => k

/-- A write of CHK_PSEL captures the parameter. -/
def Block.chkPsel (s : Block) (u : Nat) (v : Word) : Block :=
  s.rwWrite (R.CHK_PSEL u) v fun s w =>
    let x := (s.chkU u).param (bits w 0 3)
    s.setRegs [(R.CHK_PSEL u, w), (R.CHK_PLO u, w32 x), (R.CHK_PHI u, w32 (x / 0x100000000))]

/-- A write of CHK_PHI stores CHK_PLO and CHK_PHI together. -/
def Block.chkPhi (s : Block) (u : Nat) (v : Word) : Block :=
  s.rwWrite (R.CHK_PHI u) v fun s w =>
    let x := w.toNat * 0x100000000 + (s.reg (R.CHK_PLO u)).toNat
    (s.setReg (R.CHK_PHI u) w).modChk u fun k => k.putParam (s.fld (R.CHK_PSEL u) 0 3) x

/-- CHK_PARAMETER_WRITE (R613): a write of CHK_PSEL, or (`phi`) of CHK_PHI. -/
def execChkParameterWrite (u : Nat) (phi : Bool) (v : Word) (s : State) : Res :=
  s.does fun s => if u < 8 then (if phi then s.chkPhi u v else s.chkPsel u v) else s

/-! ## Tally -/

/-- TALLY_CLEAR (R617): every counter restarts at the next FB, after its snapshot. -/
def Block.tallyCtrl (s : Block) (v : Word) : Block :=
  if bit v 0 then { s with ty := { s.ty with clearPending := true } } else s

def execTallyClear (v : Word) (s : State) : Res := s.does fun s => s.onStrobe fun s => s.tallyCtrl v

/-- A counter that has reached 2^48 wraps (R618). -/
def Block.tallyWrap (s : Block) (n : Nat) : Block :=
  match s.ty.cnt[n]? with
  | some c =>
    if 2 ^ 48 ≤ c.count then
      let s : Block := { s with ty := { s.ty with cnt := setAt s.ty.cnt n { c with count := c.count % 2 ^ 48, wrapped := true } } }
      (s.setFld R.TALLY_STATUS 0 6 n).post 0x2A 0x1A8 [pk n 0 0 0, s.tm.fsn]
    else s
  | none => s

/-- Every counter that has reached 2^48 wraps. -/
def Block.tallyWraps (s : Block) : Block := (List.range 64).foldl Block.tallyWrap s

def execTallyWrap (n : Nat) (s : State) : Res := s.does fun s => s.tallyWrap n

/-- Every counter restarts at 0 (R617). -/
def TallyState.restart (t : TallyState) : TallyState := { cnt := t.cnt.map fun c => { c with count := 0 }, clearPending := false }

/-- What an FB does to Tally before anything else (R616, R617): the snapshots, then the FRAME counters' restart and a pending
clear. -/
def Block.tallySnap (s : Block) (fsn : Word) (ft : Nat) : Block :=
  let s := s.tallyWraps
  let cnt := s.ty.cnt.mapIdx fun n c =>
    { count := if bits (s.tallyCfg n) 17 2 = 3 then 0 else c.count, snap := c.count, wrapped := false, snapWrap := c.wrapped : TallyCnt }
  let t : TallyState := { s.ty with cnt := cnt }
  let s : Block := { s with ty := if t.clearPending then t.restart else t }
  s.setRegs [(R.TALLY_SNAP_FSN, fsn), (R.TALLY_SNAP_FT_LO, w32 ft), (R.TALLY_SNAP_FT_HI, w32 (ft / 0x100000000))]

/-- A commit changed TALLY_CFG: the counters changed restart at 0 (R617). -/
def Block.tallyRestart (s : Block) (old : Nat → Word) : Block :=
  { s with ty := { s.ty with cnt := s.ty.cnt.mapIdx fun n c => if s.tallyCfg n = old n then c else { c with count := 0 } } }

/-- GPIO_TALLY_IN (R621, Table 3.13): the levels at the pins as now sampled; each rising edge of a pin with function TALLY_IN
counts. -/
def execGpioTallyIn (levels : Word) (s : State) : Res :=
  s.does fun s =>
    let old := s.pins.gpioIn
    let s : Block := { s with pins := { s.pins with gpioIn := levels } }
    (List.range 32).foldl (fun s i =>
      if !bit old i && bit levels i && s.fld (R.PIN_GPIO_MUX (i / 8)) (4 * (i % 8)) 4 == 5 then s.postTally 0x1B0 i else s) s

end Sys2Proof.Machine
end

