-- ==== Sys2Proof/Machine/Validate.lean ====
section
/-!
DEFINITION. The validation of a commit (R70, R93) over the values it would put in force, and the ownership of shared resources
(R100 to R103).  A check that a rule ties to a page is made when the commit includes that page; the order is that of the pages, then
the claims, the planned load and the calendars (log entry 40).
-/
namespace Sys2Proof.Machine

/-- Why a commit fails: the cause (Table 3.8), the page that fails, and the detail where a rule states one. -/
structure Fail where
  cause : Nat
  page : Nat
  detail : Option Nat
  deriving DecidableEq, Repr

/-! ## The view of a commit -/

/-- What a latched commit that is still to apply will put in force, over the active copies. -/
def Block.inForce (s : Block) (a : Nat) : Word :=
  match s.cm.list.reverse.find? fun c => c.stage != .pending && natBit c.pages (pageOf a) with
  | some c => s.enApply a (sget regDflt c.vals a)
  | none => s.act a

/-- The values a commit of `pages` with the latched shadows `vals` would put in force. -/
def Block.view (s : Block) (pages : Nat) (vals : List (Nat × Word)) (a : Nat) : Word :=
  if natBit pages (pageOf a) then s.enApply a (sget regDflt vals a) else s.inForce a

/-- A 4 KiB aligned device virtual address held in two registers. -/
def addr12 (v : Nat → Word) (lo hi : Nat) : Nat := bits (v hi) 0 16 * 0x100000000 + bits (v lo) 12 20 * 4096

/-- A 2 MiB aligned device virtual address held in two registers. -/
def addr21 (v : Nat → Word) (lo hi : Nat) : Nat := bits (v hi) 0 16 * 0x100000000 + bits (v lo) 21 11 * 2097152

/-! ## Checks by page -/

/-- A check: it fails when the condition holds. -/
def failIf (b : Bool) (cause page : Nat) (detail : Option Nat := none) : Option Fail := if b then some ⟨cause, page, detail⟩ else none

/-- R666: the legal values of the SH registers of a page, and of the entries behind its windows. -/
def fieldRange (vals : Nat → Word) (p : Nat) : Option Fail :=
  let regs := (pageRows p).any fun r => r.acc == .sh && (List.range r.count).any fun i => !r.legalVal (vals (p * 0x1000 + r.off + i * r.stride))
  let wins :=
    if p = 0x18 then (List.range 2048).any fun i => bit (vals (win 0x18 i)) 0 && decide (4 < bits (vals (win 0x18 i)) 1 3)
    else if p = 0x1D then ((List.range 8).any fun r =>
      let g := vals (win 0x1D (2 * r + 1))
      bit g 0 && !(decide (0x20 ≤ bits g 8 8) && decide (bits g 8 8 ≤ 0x22) && decide (1 ≤ bits g 16 16) && decide (bits g 16 16 ≤ 1920))) ||
      decide (bits (vals R.DMC_WQ_MARK) 0 6 < bits (vals R.DMC_WQ_MARK) 8 6 + 8) ||
      decide (bits (vals R.DMC_SLACK_CFG) 16 16 ≤ bits (vals R.DMC_SLACK_CFG) 0 16)
    else if p = 0x1C then (List.range 256).any fun i =>
      let g := bits (vals (win 0x1C (0x400 + i))) 0 4
      decide (11 < g) && g != 15
    else false
  failIf (regs || wins) 5 p

/-- The class limit of a geometry (Table 9.7) in Hz. -/
def classLimit (w h : Nat) : Nat :=
  let n := w * h
  if 14745600 < n then 120 else if 8847360 < n then 200 else if 2400000 < n then 240 else 480

/-- The mode word a port's array declares for the selected mode. -/
def Block.modeWord (s : Block) (v : Nat → Word) (p : Nat) : Option Word := (s.port p).ident.map fun i => i.words.getD (maMode v p) 0

/-- Does the period meet a port's minimum (R302)?  A mode the array does not declare has none: R301 refuses it. -/
def Block.minPeriodOk (s : Block) (v : Nat → Word) (p : Nat) : Bool :=
  match s.modeWord v p with
  | none => true
  | some w =>
    let undeclared := match (s.port p).ident with | some i => decide (i.modes ≤ maMode v p) | none => true
    undeclared ||
    let f := min (classLimit (modeGeom w).1 (modeGeom w).2) (bits w 16 9)
    decide ((periodOf v).2 * 1000000000 ≤ (periodOf v).1 * f)

/-- The period and the dark interval (R47, R54). -/
def Block.checkTime (s : Block) (v : Nat → Word) : Option Fail :=
  let (num, den) := periodOf v
  firstSome
    ([failIf (num == 0 || den == 0 || decide (num < 2083333 * den) || decide (41708334 * den < num)) 1 7] ++
     ((List.range 4).map fun p => failIf (maEn v p && !s.minPeriodOk v p) 1 (0x0E + p)) ++
     [failIf (decide (20000000 < darkNs v) || decide (num < 4 * darkNs v * den)) 2 7])

/-- A dedicated mover while another enabled channel is assigned to it (R180). -/
def Block.checkSkd (s : Block) (v : Nat → Word) : Option Fail :=
  let w := v R.SKD_MOVER_DED
  let bad (m en ch : Nat) : Bool := bit w en && (List.range 16).any fun c =>
    c != bits w ch 4 && bit (s.reg (R.SKD_CH_CTRL c)) 0 && s.skdMover c == m
  failIf (bad 2 0 4 || bad 3 8 12) 6 5

/-- The surfaces of a source's set in a view. -/
def setOf (v : Nat → Word) (n : Nat) : List Nat :=
  let w := v (R.INGEST_SRC_SET n)
  [bits w 0 6, bits w 8 6, bits w 16 6] ++ (if bit (v (R.INGEST_SRC_CFG n)) 8 then [bits w 24 6] else [])

/-- A commit of INGEST (R211). -/
def Block.checkIngest (s : Block) (v : Nat → Word) : Option Fail :=
  let en := (List.range 8).filter fun n => bit (v (R.INGEST_SRC_CFG n)) 0
  let sets := en.map fun n => (setOf v n).eraseDups
  let badSurf (n i : Nat) : Bool :=
    let u := s.surf i
    let g := v (R.INGEST_SRC_CFG n)
    u.st == .undefd || u.format != bits g 1 4 || u.cmp != bit g 5
  firstSome
    [failIf (sets.flatten.eraseDups.length != sets.flatten.length) 0x40 9,
     failIf (en.any fun n => (setOf v n).any (badSurf n)) 0x41 9,
     failIf (en.any fun n => bits (v (R.INGEST_SRC_CFG n)) 16 9 == 0) 5 9]

/-- WARP_PLAN_STATUS.VALID (R241). -/
def Block.planOk (s : Block) : Bool := s.pp.planValid && !s.pp.planBusy

/-- The spill traffic in KiB per frame that a commit plans for (R242). -/
def Block.spillOf (s : Block) (pages : Nat) : Nat :=
  if natBit pages 0x0A && s.planOk then (s.reg R.WARP_PLAN_SPILL).toNat else s.dc.warpSpill

/-- The raster of a view. -/
def Block.rasterIn (s : Block) (v : Nat → Word) : Nat × Nat := s.raster v

/-- A commit that bears on WARP (R237, R242): one of the page itself changes the mesh, SX, SY or FILTER, and needs the plan. -/
def Block.checkWarp (s : Block) (pages : Nat) (v : Nat → Word) : Option Fail :=
  let g := v R.WARP_CFG
  let (w, h) := s.rasterIn v
  let nodes := (cdiv w (warpStep (bits g 4 4)) + 1) * (cdiv h (warpStep (bits g 8 4)) + 1)
  let old := s.inForce R.WARP_CFG
  let own := natBit pages 0x0A
  let moved := own && s.pp.mesh.written != [] || bits g 4 8 != bits old 4 8 || bit g 1 != bit old 1
  let size := bits (v R.WARP_SPILL_SIZE) 0 9
  let blend := bit (v R.WARP_BLEND_CFG) 0
  firstSome
    [failIf (decide (131072 < nodes)) 0x40 0x0A,
     failIf (moved && !s.planOk) 0x41 0x0A,
     failIf (own && decide (size * 1024 < (s.reg R.WARP_PLAN_PEAK).toNat)) 0x42 0x0A,
     failIf ((size != 0 && !s.mappedTo (addr12 v R.WARP_SPILL_ADDR_LO R.WARP_SPILL_ADDR_HI) (size * 1048576) 7) ||
       (blend && !s.mappedTo (addr12 v R.WARP_BLEND_ADDR_LO R.WARP_BLEND_ADDR_HI)
         (4 * ((cdiv w 32 + 1) * (cdiv h 32 + 1))) 7)) 0x43 0x0A]

/-- The number of primaries of the light groups fed (R254): a head has three primaries, or four where a port shows primary 3; 0
where no port is fed (log entry 159). -/
def primsShown (v : Nat → Word) : Nat :=
  let l := ((List.range 4).filter (buckEn v)).map (buckPrim v)
  if l.isEmpty then 0 else if l.contains 3 then 4 else 3

/-- A commit of COLOR (R245, R254). -/
def Block.checkColor (s : Block) (v : Nat → Word) : Option Fail :=
  let (w, h) := s.rasterIn v
  firstSome
    [failIf (bit (v R.COLOR_UNIF_CFG) 0 &&
      !s.mappedTo (addr12 v R.COLOR_UNIF_ADDR_LO R.COLOR_UNIF_ADDR_HI) (primaries v * 2 * ((cdiv w 32 + 1) * (cdiv h 32 + 1))) 7) 0x40 0x0B,
     failIf (primsShown v != 0 && primsShown v != primaries v) 6 0x0B]

/-- The deck of a port lies in its pairs (R268), once its array has identified. -/
def Block.deckOk (s : Block) (v : Nat → Word) (p : Nat) : Bool :=
  match s.geom v p with
  | none => true
  | some (w, h) =>
    let b := deckBase v p
    inDeckPairs p b && inDeckPairs p (b + 3 * setBytes w h - 1) && inDram b && inDram (b + 3 * setBytes w h - 1)

/-- A commit of BUCK (R268, Table 8.10): the deck of every port whose Bucking it enables and whose array has identified. -/
def Block.checkBuck (s : Block) (pages : Nat) (v : Nat → Word) : Option Fail :=
  firstSome
    [failIf (natBit pages 0x0C && (List.range 4).any fun p => buckEn v p && !s.deckOk v p) 0x40 0x0C,
     failIf ((List.range 4).any fun p => buckEn v p && decide (primaries v ≤ buckPrim v p)) 6 0x0C]

/-- The mirror ports (R301, R309). -/
def Block.checkPort (s : Block) (v : Nat → Word) (p : Nat) : Option Fail :=
  let pg := 0x0E + p
  if !maEn v p then none
  else
    let q := maSrc v p
    let c := maClone v p
    let bad := match (s.port p).ident with
      | none => false
      | some i => !natBit i.rates (maRate v p) || decide (i.modes ≤ maMode v p) || (c && (s.port q).ident.isNone)
    let geoms := match s.geom v p, s.geom v q with
      | some a, some b => a != b
      | _, _ => false
    failIf (bad || (c && (maClone v q || !maEn v q || buckEn v p || geoms || portLanes p != portLanes q || maRate v p != maRate v q))) 6 pg

/-- A commit of HSF (R323). -/
def checkHsf (v : Nat → Word) : Option Fail :=
  let f (a : Nat) : Bool := let x := bits (v a) 0 16; decide (x < 18000) || decide (40000 < x)
  firstSome
    [failIf (f R.HSF_SWEEP_START || f R.HSF_SWEEP_END) 0x40 0x12,
     failIf (decide (1400 < bits (v R.HSF_SWEEP_CFG) 0 12 + 10 + cdiv (bits (v R.HSF_AMP_SET) 0 16) (bits (v R.HSF_AMP_RAMP) 0 16))) 0x41 0x12]

/-- The row map of a view: HL_H entries of 32 bits (R336). -/
def Block.rowMapOf (s : Block) (v : Nat → Word) : List Nat :=
  (List.range (hlGridH v)).map fun r => s.virtNat (addr12 v R.HSS_ROWMAP_ADDR_LO R.HSS_ROWMAP_ADDR_HI + 4 * r) 4

/-- The phase table of a view: HL_W + 1 entries (R327). -/
def Block.ptabOf (s : Block) (v : Nat → Word) : List (Int × Nat) :=
  (List.range (hlGridW v + 1)).map fun i =>
    let a := addr12 v R.HSB_PTAB_ADDR_LO R.HSB_PTAB_ADDR_HI + 8 * i
    (sgn 32 (s.virtNat a 4), s.virtNat (a + 4) 2)

/-- Does the phase table of a view keep Table 10.4: strictly increasing, within -2^30 to 2^30, its reserved bytes 0? -/
def Block.ptabOk (s : Block) (v : Nat → Word) : Bool :=
  let pt := s.ptabOf v
  let base := addr12 v R.HSB_PTAB_ADDR_LO R.HSB_PTAB_ADDR_HI
  s.mappedTo base (8 * (hlGridW v + 1)) 7 && pt.all (fun e => decide (e.1.natAbs ≤ 1073741824)) &&
    (List.range (hlGridW v + 1)).all fun i => s.virtNat (base + 8 * i + 6) 2 == 0

/-- The 64 P-I points of a beam colour in a view: amplitude and DAC code (Table 10.12). -/
def beamPoints (v : Nat → Word) (q : Nat) : List (Nat × Nat) :=
  (List.range 64).map fun i => let w := v (win 0x14 (q * 64 + i)); (bits w 0 16, bits w 16 12)

/-- Does a relation hold between all neighbours? -/
def chainRel {α : Type} (r : α → α → Bool) : List α → Bool
  | [] => true
  | [_] => true
  | a :: b :: l => r a b && chainRel r (b :: l)

/-- A commit of HSS (R336): its row map lies in CP7 and is strictly monotonic, whether or not the slow axis is enabled. -/
def Block.checkHss (s : Block) (v : Nat → Word) : Option Fail :=
  let m := s.rowMapOf v
  let lim (a : Nat) : Bool := bits (v a) 0 16 == 0
  firstSome
    [failIf (!s.mappedTo (addr12 v R.HSS_ROWMAP_ADDR_LO R.HSS_ROWMAP_ADDR_HI) (4 * hlGridH v) 7 ||
        !(chainRel (fun a b => decide (a < b)) m || chainRel (fun a b => decide (b < a)) m)) 0x40 0x13,
     failIf (lim R.HSS_JMAX || lim R.HSS_AMAX || lim R.HSS_VMAX) 0x41 0x13]

/-- A commit of HSB (R247, R332, R333, R334); its raster is that of the pipeline.  The grid, the line buffers and the phase table
are checked whether or not the split or the beam is enabled; a pipeline that feeds no port has the raster 0 by 0, which every grid
divides (R237).  The P-I points of a colour rise strictly in amplitude up to the last that is not 0; the spec gives their check no
cause, the model FIELD_RANGE (log entry 248). -/
def Block.checkHsb (s : Block) (pages : Nat) (v : Nat → Word) : Option Fail :=
  let (w, h) := s.rasterIn v
  let beam := bit (v R.HSB_BEAM_CFG) 0
  let own := natBit pages 0x14
  let used (q : Nat) : List (Nat × Nat) := ((beamPoints v q).reverse.dropWhile fun e => e == (0, 0)).reverse
  firstSome
    [failIf ((hlGridW v == 0 || hlGridH v == 0 || w % hlGridW v != 0 || h % hlGridH v != 0 || decide (16 < w / hlGridW v) ||
        decide (16 < h / hlGridH v) || decide (hlGridH v ≤ bits (v R.HSB_SPLIT_ROWS) 16 12))) 0x40 0x14,
     failIf (beam && (leadPort v).isNone) 6 0x14,
     failIf (own && !s.mappedTo (addr21 v R.HSB_LB_BASE_LO R.HSB_LB_BASE_HI) (3 * hlSB v) 7) 0x41 0x14,
     failIf (own && !(s.ptabOk v && chainRel (fun a b => decide (a.1 < b.1)) (s.ptabOf v))) 0x42 0x14,
     failIf (own && (List.range 3).any fun q => !chainRel (fun a b => decide (a.1 < b.1)) (used q)) 5 0x14]

/-- The enabled members of a view. -/
def membersIn (v : Nat → Word) : List Nat :=
  ((List.range 48) ++ (List.range 2048).map (64 + ·)).filter fun m => (memCfg v m).en

/-- The light groups (R356, R360). -/
def Block.checkLsg (s : Block) (pages : Nat) (v : Nat → Word) : Option Fail :=
  let ms := membersIn v
  let en := bits (v R.LSG_CFG) 0 5
  firstSome
    [failIf ((List.range 5).any fun g => natBit en g && !(ms.any fun m => (memCfg v m).group == g && !(memCfg v m).spare)) 0x40 0x15,
     failIf (natBit pages 0x15 && bit (v R.LSG_CFG) 8 && !s.ls.piValid) 0x41 0x15]

/-- The member entries name slices that run (CHAIN page). -/
def Block.checkChain (s : Block) (v : Nat → Word) : Option Fail :=
  failIf ((List.range 2048).any fun i => bit (v (win 0x18 i)) 0 &&
    ((s.chn (i / 512)).st != 2 || decide ((s.chn (i / 512)).slices ≤ i % 512 / 8))) 6 0x18

/-- The chain times (R377). -/
def Block.checkChainTime (s : Block) (v : Nat → Word) : Option Fail :=
  failIf ((List.range 4).any fun c => (s.chn c).st == 2 && decide (s.chainMargin v c < 0) &&
    (List.range 512).any fun i => bit (v (win 0x18 (512 * c + i))) 0 && (s.grp (bits (v (win 0x18 (512 * c + i))) 1 3)).lit) 0x40 0x18

/-- A loop record's bounds (R397) and shared photodiodes (R399). -/
def checkCpe (v : Nat → Word) : Option Fail :=
  let badRec := ((List.range 60) ++ (List.range 48).map (64 + ·)).any fun r =>
    let w := v (win 0x19 (8 * r + 4))
    decide (sgn 16 (bits w 16 16) < sgn 16 (bits w 0 16))
  let opt := (List.range 48).filter fun n => (memCfg v n).en && (memCfg v n).mode == 2
  let shared := opt.any fun a => opt.any fun b => (memCfg v a).pd == (memCfg v b).pd && (memCfg v a).group != (memCfg v b).group
  firstSome [failIf badRec 0x41 0x19, failIf shared 0x40 0x19]

/-- A commit of OPT: pairs that name one group, share a channel or name a disabled photodiode. -/
def checkOpt (v : Nat → Word) : Option Fail :=
  let ps := ((List.range 4).filter fun q => decide (bits (v (R.OPT_PAIR q)) 8 3 ≤ 4)).map fun q =>
    (bits (v (R.OPT_PAIR q)) 8 3, bits (v (R.OPT_PAIR q)) 0 3, bits (v (R.OPT_PAIR q)) 4 3)
  let gs := ps.map (·.1)
  let ch := ps.flatMap fun e => [e.2.1, e.2.2]
  failIf (gs.eraseDups.length != gs.length || ch.eraseDups.length != ch.length || ch.any fun j => !bit (v (R.OPT_PD_CFG j)) 0) 0x40 0x1A

/-- The model group of a member in a view. -/
def modelGroupIn (v : Nat → Word) (m : Nat) : Nat :=
  if m < 64 then bits (v (R.THERM_STR_MG (m / 8))) (4 * (m % 8)) 4 else bits (v (win 0x1C (0x400 + (m - 64) / 8))) 0 4

/-- Thresholds (R458). -/
def thrBad (w : Word) (die : Bool) : Bool :=
  !(decide (bits w 0 8 < bits w 8 8) && decide (bits w 8 8 < bits w 16 8)) || bits w 24 4 == 0 || (die && decide (135 < bits w 16 8))

/-- The thermal checks (R456, R458). -/
def checkTherm (v : Nat → Word) : Option Fail :=
  firstSome
    [failIf (thrBad (v R.THERM_DIE_THR) true || thrBad (v R.THERM_LASER_THR) false) 0x40 0x1C,
     failIf ((membersIn v).any fun m => !(decide (modelGroupIn v m ≤ 11) && bit (v (win 0x1C (8 * modelGroupIn v m))) 0)) 6 0x1C]

/-- The pairs a port's deck occupies (Table 1.3). -/
def portPairs (p : Nat) : List Nat := if p = 3 then [6] else [2 * p, 2 * p + 1]

/-- The enabled owner clients of a pair in a view (Table 1.3). -/
def clientOn (v : Nat → Word) (q : Nat) : Bool :=
  ((List.range 4).any fun p => (portPairs p).contains q && maEn v p && buckEn v p) ||
    (q == 7 && (bit (v R.HSB_SPLIT_CFG) 0 || bit (v R.HSB_BEAM_CFG) 0 || bit (v R.WARP_CFG) 0)) ||
    ((q == 8 || q == 9) && (List.range 8).any fun n => bit (v (R.INGEST_SRC_CFG n)) 0) ||
    (q == 10 && bits (v R.HOLD_RING_SIZE) 0 11 != 0)

/-- A region's range. -/
def Region.overlaps (a b : Region) : Bool := decide (a.base < b.base + b.size) && decide (b.base < a.base + a.size)

/-- Does a region overlap a Log deck set (R268)? -/
def Block.overDeck (s : Block) (v : Nat → Word) (r : Region) : Bool :=
  (List.range 4).any fun p => buckEn v p && (match s.geom v p with
    | some (w, h) => r.overlaps { base := deckBase v p, size := 3 * setBytes w h, owner := 0, en := true }
    | none => false)

/-- Guest regions (R475). -/
def Block.checkDmc (s : Block) (v : Nat → Word) : Option Fail :=
  let rs := (List.range 8).filter fun r => (regionOf v r).en
  let placeBad (r : Nat) : Bool :=
    let g := regionOf v r
    !inDram g.base || !inDram (g.base + g.size - 1) || pairOf g.base != pairOf (g.base + g.size - 1) || pairOf g.base == 11 ||
      (rs.any fun q => q != r && (regionOf v q).overlaps g) || s.overDeck v g || (g.owner == 0x22 && decide (pairOf g.base < 7))
  let off (q : Nat) : Bool := let x := v (R.DMCP_CFG q); !bit x 0 || bit x 1
  firstSome
    [failIf (rs.any placeBad) 0x40 0x1D,
     failIf (rs.any fun r => off (pairOf (regionOf v r).base)) 6 0x1D]

/-- Pairs out of service (R489, R498). -/
def checkDmcp (v : Nat → Word) : Option Fail :=
  let off (q : Nat) : Bool := let x := v (R.DMCP_CFG q); !bit x 0 || bit x 1
  firstSome
    [failIf (off 11) 5 0x1E,
     failIf ((List.range 12).any fun q => off q && (clientOn v q || guestOn v q)) 6 0x1E]

/-- A commit of WPX: at most 16 joined groups besides groups 0 and 1. -/
def checkWpx (v : Nat → Word) : Option Fail :=
  let reg := (List.range 8).flatMap fun i =>
    let w := v (R.WPX_GROUP_JOIN i)
    (if bit w 15 then [bits w 0 12] else []) ++ (if bit w 31 then [bits w 16 12] else [])
  let ing := (List.range 4).flatMap fun f =>
    if bit (v (R.INGEST_SRC_CFG (2 + f))) 0 then [bits (v (R.INGEST_FAB_STREAM f)) 16 12] else []
  failIf (decide (16 < ((reg ++ ing).eraseDups.filter fun g => decide (2 ≤ g)).length)) 0x40 0x21

/-- The segments of the holdover ring in a view: size and pair (R595). -/
def ringSegments (v : Nat → Word) : List (Nat × Nat) :=
  (bits (v R.HOLD_RING_SIZE) 0 11 * 2097152, 10) ::
    (maskBits 8 (bits (v R.HOLD_CFG) 16 8)).map fun r => ((regionOf v r).size, pairOf (regionOf v r).base)

/-- N of the ring (R595). -/
def ringSlots (v : Nat → Word) : Nat :=
  let slot := max 1 (bits (v R.HOLD_SLOT_SIZE) 0 11) * 2097152
  match ringSegments v with
  | [] => 0
  | g :: gs => (gs.foldl (fun m e => min m (e.1 / slot)) (g.1 / slot)) * (gs.length + 1)

/-- A commit of HOLD (R597). -/
def Block.checkHold (s : Block) (v : Nat → Word) : Option Fail :=
  let g := v R.HOLD_CFG
  let ring := bits (v R.HOLD_RING_SIZE) 0 11 != 0
  let rs := maskBits 8 (bits g 16 8)
  let n := bits (v R.STORE_FRAME_CFG) 4 3
  let src := v (R.INGEST_SRC_CFG n)
  let set := let w := v R.HOLD_PLAY_SET; [bits w 0 6, bits w 8 6, bits w 16 6]
  let ingest := ((List.range 8).filter fun n => bit (v (R.INGEST_SRC_CFG n)) 0).flatMap (setOf v)
  firstSome
    [failIf ((ring && !s.mappedTo (addr21 v R.HOLD_RING_BASE_LO R.HOLD_RING_BASE_HI) (bits (v R.HOLD_RING_SIZE) 0 11 * 2097152) 10) ||
        (rs.any fun r => !(regionOf v r).en || (regionOf v r).owner != 0x20) || (bits g 0 2 == 2 && decide (ringSlots v < 2))) 0x40 0x28,
     failIf (rs.any fun _ => (s.budgetSps v).any fun sp => decide (10 * rawRate sp * 1000000 * (periodOf v).1 < segCharge v)) 0x41 0x28,
     failIf (set.any fun i => ingest.contains i ||
        (bits (v R.STORE_FRAME_CFG) 0 2 != 0 && ((s.surf i).format != bits src 1 4 || (s.surf i).cmp != bit src 5))) 0x42 0x28]

/-- The checks by page, for the pages of a commit; those that bear on several pages are made whenever one of them is committed. -/
def Block.pageChecks (s : Block) (pages : Nat) (vals : Nat → Word) (v : Nat → Word) : Option Fail :=
  let inc (l : List Nat) (f : Option Fail) : Option Fail := if l.any (natBit pages) then f else none
  firstSome
    ((shPages.map fun p => inc [p] (fieldRange vals p)) ++
     [inc [7, 0x0E, 0x0F, 0x10, 0x11] (s.checkTime v), inc [5] (s.checkSkd v), inc [9] (s.checkIngest v),
      inc [0x0A, 0x0C, 0x0E, 0x0F, 0x10, 0x11] (s.checkWarp pages v),
      inc [0x0B, 0x0C, 0x0E, 0x0F, 0x10, 0x11] (s.checkColor v), inc [0x0B, 0x0C] (s.checkBuck pages v),
      firstSome ((List.range 4).map fun p => inc [0x0C, 0x0E, 0x0F, 0x10, 0x11] (s.checkPort v p)), inc [0x12] (checkHsf v),
      inc [0x13] (s.checkHss v), inc [0x0C, 0x0E, 0x0F, 0x10, 0x11, 0x14] (s.checkHsb pages v), inc [0x15, 0x16, 0x17, 0x18] (s.checkLsg pages v),
      inc [0x18] (s.checkChain v), inc [7, 0x0D, 0x0E, 0x0F, 0x10, 0x11, 0x15, 0x18] (s.checkChainTime v),
      inc [0x16, 0x17, 0x19] (checkCpe v), inc [0x1A] (checkOpt v), inc [0x16, 0x17, 0x18, 0x1C] (checkTherm v),
      inc [0x0C, 0x1D, 0x1E] (s.checkDmc v), inc [0x0C, 0x0E, 0x0F, 0x10, 0x11, 0x14, 0x0A, 9, 0x1D, 0x1E, 0x28] (checkDmcp v),
      inc [0x21, 9] (checkWpx v), inc [0x28] (s.checkHold v)])

/-! ## The planned load (R20, R22) -/

/-- The planned load of every pair, and the guest regions' share. -/
def Block.checkLoad (s : Block) (pages : Nat) (v : Nat → Word) : Option Fail :=
  let kib := s.spillOf pages
  let low := (List.range 64).find? (natBit pages)
  firstSome ((s.budgetSps v).flatMap fun sp =>
    [(s.overBudget v kib sp).head?.map fun _ => ⟨3, low.getD 0, none⟩,
     (s.overGuest v kib sp).head?.map fun q =>
       ⟨4, 0x1D, ((List.range 8).find? fun r => (regionOf v r).en && pairOf (regionOf v r).base == q).map (3 + ·)⟩])

/-! ## Shared resources (R100 to R103) -/

/-- The claims on a resource in a view: owner code and claiming page (Table 3.10). -/
def claimsOn (v : Nat → Word) (n : Nat) : List (Nat × Nat) :=
  if n = 0 then
    (if maEn v 3 then [(0x01, 0x11)] else []) ++ ([2, 3].filter fun p => bit (v (R.WPXP_CFG p)) 0).map fun p => (0x02, 0x22 + p)
  else if n = 1 then (if bit (v R.SKD_MOVER_DED) 0 then [(0x10 + bits (v R.SKD_MOVER_DED) 4 4, 5)] else [])
  else if n = 2 then (if bit (v R.SKD_MOVER_DED) 8 then [(0x10 + bits (v R.SKD_MOVER_DED) 12 4, 5)] else [])
  else if n ≤ 10 then (if (regionOf v (n - 3)).en then [((regionOf v (n - 3)).owner, 0x1D)] else [])
  else if n ≤ 14 then
    (((List.range 48).filter fun i => (memCfg v i).en && (memCfg v i).mode == 2 && (memCfg v i).pd == n - 11).map fun i => (0x31, memPage i)) ++
      ((List.range 4).filter fun q => decide (bits (v (R.OPT_PAIR q)) 8 3 ≤ 3) &&
        (bits (v (R.OPT_PAIR q)) 0 3 == n - 11 || bits (v (R.OPT_PAIR q)) 4 3 == n - 11)).map fun _ => (0x30, 0x1A)
  else []

/-- The owner of a resource. -/
def Block.owner (s : Block) (n : Nat) : Nat := s.fld (R.PIN_OWN n) 0 8

/-- The code a resource is still held under when a commit's claims are judged (R101, steps 1 to 4): the calibration's; else that of a unit
enabled by what is in force or latched, which the commit leaves enabled; else that of PIN_OWN, where the commit leaves a unit claiming under
it. -/
def Block.holder (s : Block) (all : List (Nat × Nat)) (n : Nat) : Option Nat :=
  let own := s.owner n
  if own = 0x32 then some own
  else match claimsOn s.inForce n with
    | [] => if own != 0 && all.any fun c => c.1 == own then some own else none
    | l => (l.find? fun h => all.any fun c => c.1 == h.1).map (·.1)

/-- The refusal of a resource by R101: resource, requested code, holding code, requesting page. -/
def Block.denied (s : Block) (pages : Nat) (v : Nat → Word) (n : Nat) : Option (Nat × Nat × Nat × Nat) :=
  let all := claimsOn v n
  let made := all.filter fun c => natBit pages c.2
  match s.holder all n with
  | some own => (made.find? fun c => c.1 != own).map fun c => (n, c.1, own, c.2)
  | none =>
    let codes := made.map (·.1)
    let hi := codes.foldl max 0
    let lo := codes.foldl min 0xFF
    if codes = [] ∨ hi = lo then none
    else some (n, hi, lo, ((made.filter fun c => c.1 == hi).map (·.2)).foldl min 0x3F)

/-- The first refused claim. -/
def Block.firstDenied (s : Block) (pages : Nat) (v : Nat → Word) : Option (Nat × Nat × Nat × Nat) := firstSome ((List.range 15).map (s.denied pages v))

/-- A refusal is reported (R103).  CLAIM_DENIED carries the PIN page as its source page, which the spec leaves open (log entry 235). -/
def Block.denyClaim (s : Block) (d : Nat × Nat × Nat × Nat) : Block :=
  let info := w32 (d.1 + 16 * d.2.1 + 4096 * d.2.2.1 + 1048576 * d.2.2.2)
  let s := (s.setReg R.PIN_DENY_INFO info).post 0x2C 0x003 [info]
  if d.2.2.2 < 0x2D then s.errCause d.2.2.2 4 else s

/-- The owners of some resources, once a commit has applied or the command that claimed them has completed (R100, R101): a resource the
command of a calibration holds stays with it. -/
def Block.ownersOf (s : Block) (l : List Nat) : Block :=
  l.foldl (fun s n =>
    let own := s.owner n
    let l := claimsOn s.act n
    if own = 0x32 then s
    else match l with
      | [] => s.setReg (R.PIN_OWN n) 0
      | c :: rest => if l.any fun e => e.1 == own then s
          else s.setReg (R.PIN_OWN n) (w32 (c.1 + 256 * ((rest.filter fun e => e.1 == c.1).foldl (fun m e => min m e.2) c.2)))) s

/-- The owners of every resource once a commit has applied. -/
def Block.updateOwners (s : Block) : Block := s.ownersOf (List.range 15)

/-! ## The whole -/

/-- Is a commit one whose calendars are validated (R282)? -/
def calPages (pages : Nat) : Bool := [7, 0x0C, 0x0D, 0x0E, 0x0F, 0x10, 0x11].any (natBit pages)

/-- The validation of a commit (R70): none where it passes.  Which cause is reported where several checks fail is the model's choice: page
checks, claims, planned load, calendars (log entry 40).  The claims are reported by the caller (R103). -/
def Block.validate (s : Block) (pages : Nat) (vals : List (Nat × Word)) : Option Fail :=
  let v := s.view pages vals
  let minor := !(isMajor s.inForce v || s.tm.stepDue != 0)
  let raw (a : Nat) : Word := sget regDflt vals a
  firstSome
    [s.pageChecks pages raw v,
     (s.firstDenied pages v).map fun d => ⟨4, if d.2.2.2 < 0x2D then d.2.2.2 else 0x2C, some d.1⟩,
     s.checkLoad pages v,
     if calPages pages then (s.calCheck v minor).map fun f => ⟨f.cause, 0x0D, if f.cause = 6 then none else some f.detail⟩ else none]

/-- Every page with SH registers, as a mask. -/
def allSh : Nat := bitsMask shPages

/-- R285: the shadows of every page, as if committed together. -/
def Block.validateShadows (s : Block) : Option Fail := s.validate allSh (s.shadowVals allSh)

/-- R672: the active copies of every page in full.  The shadow mesh and its plan have no part in it. -/
def Block.validateActive (s : Block) : Option Fail :=
  let vals := (s.regs.filter fun e => isActiveKey e.1).map fun e => (shadowOf e.1, e.2)
  let s : Block := { s with pp := { s.pp with planValid := false, mesh := { s.pp.mesh with written := [] } } }
  (s.setReg R.WARP_PLAN_PEAK 0).validate allSh (vals.foldl (fun m e => sset regDflt m e.1 e.2) [])

/-- The DETAIL of a failure, a free value where no rule states one. -/
def Block.failDetail (s : Block) (f : Fail) : Nat × Block :=
  match f.detail with
  | some d => (d, s)
  | none => s.takeBelow 65535

/-- SEQ_VAL_TIME: the spec gives a validation no duration, so it is a free value. -/
def Block.valTime (s : Block) : Block := let (x, s) := s.takeBelow 0xFFFFFFFF; s.setReg R.SEQ_VAL_TIME (w32 x)

/-- SEQ_CHECK_GO (R285). -/
def Block.seqCheck (s : Block) : Block :=
  let s := s.valTime
  match s.validateShadows with
  | none => s.setReg R.SEQ_CHECK_RES 1
  | some f =>
    let (d, s) := s.failDetail f
    s.setReg R.SEQ_CHECK_RES (w32 (3 + 256 * f.cause + 65536 * d))

def execSeqCheckGo (v : Word) (s : State) : Res := s.does fun s => s.onStrobe fun s => if bit v 0 then s.seqCheck else s

end Sys2Proof.Machine
end

