-- ==== Sys2Proof/Machine/Pipeline.lean ====
section
/-!
DEFINITION. The pixel pipeline as an engine (R213 to R215, R240, R241, R246, R250, R251, R255 to R260, R274): the table images, the
planner, the selection of a surface, the beginning of a frame, the clock and its fallback, and the sealing of plane sets.
-/
namespace Sys2Proof.Machine

/-! ## Table images (R246, R335) -/

/-- The two images of a table change roles; `sync` where the new shadow is then copied. -/
def TableImage.swap (t : TableImage) (sync : Bool) : TableImage :=
  { shadow := t.active, active := t.shadow, written := [], sync := sync, bank := 1 - t.bank }

/-- A byte of a shadow image: a page not yet copied returns the active contents. -/
def TableImage.readByte (t : TableImage) (i : Nat) : Byte :=
  if t.sync && !t.written.contains (i / 4096) then tableByte t.active i else tableByte t.shadow i

/-- Bytes of a shadow image as a number. -/
def TableImage.read (t : TableImage) (i n : Nat) : Nat := leNat ((List.range n).map fun j => t.readByte (i + j))

/-- A host write to a shadow image. -/
def TableImage.write (t : TableImage) (i : Nat) (bs : List Byte) : TableImage :=
  { t with shadow := ssets zeroByte t.shadow (bs.mapIdx fun j b => (i + j, b)),
           written := t.written ++ ((List.range (cdiv (i % 4096 + bs.length) 4096)).map fun k => i / 4096 + k).filter fun p => !t.written.contains p }

/-- The copy of the active image into the shadow ends: every page but those the host has written since the exchange. -/
def TableImage.copied (t : TableImage) : TableImage :=
  { t with sync := false,
           shadow := ssets zeroByte (t.shadow.filter fun e => t.written.contains (e.1 / 4096))
             (t.active.filter fun e => !t.written.contains (e.1 / 4096)) }

/-- The pages of an image of `n` bytes that its copy covers. -/
def TableImage.copyPages (t : TableImage) (n : Nat) : Nat := cdiv n 4096 - (t.written.filter fun p => decide (p < cdiv n 4096)).length

/-- TABLE_SYNC_DONE (R246): the mesh's copy, else the LUT's. -/
def Block.syncDone (s : Block) : Block :=
  if s.pp.mesh.sync then
    ({ s with pp := { s.pp with mesh := s.pp.mesh.copied } } : Block).post 0x0A 0x052 [0, w32 (s.pp.mesh.copyPages 4194304)]
  else if s.pp.lut.sync then
    ({ s with pp := { s.pp with lut := s.pp.lut.copied } } : Block).post 0x0B 0x052 [1, w32 (s.pp.lut.copyPages 287496)]
  else s

def execTableSyncDone (s : State) : Res := s.does fun s => s.syncDone

/-- The pages of a region of CP7 (R197, R244): captured where a commit of its page applies, and where its size has changed. -/
def Block.mapPages (s : Block) (old : List Nat) (named : Bool) (lo hi bytes : Nat) : List Nat :=
  if named || old.length != cdiv bytes 4096 then s.capture (addr12 s.act lo hi) bytes 7 else old

/-- The pages of the maps, the spill area and the line buffers as a commit of a set of pages applies. -/
def Block.mapsApply (s : Block) (pages : Nat) : Block :=
  let (w, h) := s.raster s.act
  let n := (cdiv w 32 + 1) * (cdiv h 32 + 1)
  { s with
    pp := { s.pp with
      blendPages := if s.abit R.WARP_BLEND_CFG 0 then
        s.mapPages s.pp.blendPages (natBit pages 0x0A) R.WARP_BLEND_ADDR_LO R.WARP_BLEND_ADDR_HI (4 * n) else []
      unifPages := if s.abit R.COLOR_UNIF_CFG 0 then
        s.mapPages s.pp.unifPages (natBit pages 0x0B) R.COLOR_UNIF_ADDR_LO R.COLOR_UNIF_ADDR_HI (2 * n * primaries s.act) else [],
      spillPages := s.mapPages s.pp.spillPages (natBit pages 0x0A) R.WARP_SPILL_ADDR_LO R.WARP_SPILL_ADDR_HI
        (s.afld R.WARP_SPILL_SIZE 0 9 * 1048576) },
    sc := { s.sc with
      lbPages := if natBit pages 0x14 then s.capture (lbBase s.act) (3 * hlSB s.act) 7 else s.sc.lbPages } }

/-- The tables change roles at the PB at which the source side of a commit of their page applies. -/
def Block.tablesApply (s : Block) (pages : Nat) : Block :=
  let p := s.pp
  { s with
    pp := { p with mesh := if natBit pages 0x0A then p.mesh.swap true else p.mesh,
                   lut := if natBit pages 0x0B then p.lut.swap true else p.lut,
                   zone := if natBit pages 0x14 then p.zone.swap false else p.zone },
    dc := { s.dc with warpSpill := if natBit pages 0x0A && s.planOk then (s.reg R.WARP_PLAN_SPILL).toNat else s.dc.warpSpill } }

/-! ## The planner (R241) -/

/-- The mesh dimensions of the shadow settings (R238). -/
def Block.meshDim (s : Block) : Nat × Nat :=
  let (w, h) := s.raster s.reg
  (cdiv w (warpStep (s.fld R.WARP_CFG 4 4)) + 1, cdiv h (warpStep (s.fld R.WARP_CFG 8 4)) + 1)

/-- WARP_PLAN_GO. -/
def Block.planGo (s : Block) (v : Word) : Block :=
  if bit v 0 && !s.pp.planBusy then { s with pp := { s.pp with planBusy := true, planValid := true, planSince := s.now } } else s

def execWarpPlanGo (v : Word) (s : State) : Res := s.does fun s => s.onStrobe fun s => s.planGo v

/-- A write to the shadow mesh, SX, SY or FILTER clears VALID. -/
def Block.planStale (s : Block) : Block := { s with pp := { s.pp with planValid := false } }

/-- The frame the planner runs over: the shadow mesh with the shadow SX, SY, FILTER and output raster, whether or not the warp is
enabled, and the largest source that a mesh can address, 8,192 by 4,320 pixels (R241; log entry 209). -/
def Block.planFrame (s : Block) : PipeFrame :=
  let (w, h) := s.raster s.reg
  { codes := [], blendPages := [], unifPages := [], spillPages := [], lbPages := [], later := [], cut := 0, surf := 0,
    rcd := { Surface.reset with width := 8192, height := 4320 }, fsn := 0, startFt := 0, dram := [],
    view := [(actOf R.WARP_CFG, s.reg R.WARP_CFG ||| 1), (actOf R.COLOR_DEC_CFG, s.reg R.COLOR_DEC_CFG),
      (R.PAGE_CTRL 0x0A, s.reg (R.PAGE_CTRL 0x0A) ||| 1), (R.PAGE_CTRL 0x0B, s.reg (R.PAGE_CTRL 0x0B))].foldl (fun l e => sset regDflt l e.1 e.2) [],
    mesh := (List.range (cdiv (32 * s.meshDim.1 * s.meshDim.2) 4096)).flatMap fun p =>
      if s.pp.mesh.sync && !s.pp.mesh.written.contains p then s.pp.mesh.active.filter fun e => e.1 / 4096 == p
      else s.pp.mesh.shadow.filter fun e => e.1 / 4096 == p,
    lut := [], zone := [], dec := [], hlm := [], width := w, height := h }

/-- WARP_PLAN_DONE (R241): the spill traffic of a frame and the largest occupancy of the spill area, in KiB. -/
def Block.planDone (s : Block) : Block :=
  if !s.pp.planBusy then s
  else
    let r := s.planFrame.cacheRun
    let a := r.writes * linTile / 1024
    let b := r.peak * linTile / 1024
    let ms := (s.now - s.pp.planSince) / 1000000
    let s : Block := { s with pp := { s.pp with planBusy := false } }
    ((s.setRegs [(R.WARP_PLAN_SPILL, w32 a), (R.WARP_PLAN_PEAK, w32 b)]).setFld R.WARP_PLAN_STATUS 16 16 (satN 16 ms)).post
      0x0A 0x051 [w32 a, w32 b, w32 ms]

def execWarpPlanDone (s : State) : Res := s.does fun s => s.planDone

/-! ## Selection (R213 to R215) -/

/-- Is a surface eligible at an instant: sealed before it? -/
def Block.eligible (s : Block) (fb i : Nat) : Bool := (s.surf i).st == .sealed && decide ((s.surf i).sealFt < fb)

/-- The newest surface of a list by seal stamp. -/
def Block.newestOf (s : Block) : List Nat → Option Nat
  | [] => none
  | i :: l => some (l.foldl (fun b j => if (s.surf b).sealFt < (s.surf j).sealFt then j else b) i)

/-- The eligible surfaces of a set that BY_FSN may take for a target: those tagged for it, else those older.  The newest of either is the
one sealed last, whatever its tag (R213; log entry 235). -/
def Block.byFsn (s : Block) (l : List Nat) (t : Word) : List Nat :=
  match l.filter fun i => (s.surf i).tag == t with
  | [] => l.filter fun i => newer t (s.surf i).tag
  | m => m

/-- The surface that a mode selects from a set: SELECT 1 the newest, 2 by target. -/
def Block.choose (s : Block) (fb : Nat) (set : List Nat) (sel : Nat) (t : Word) : Option Nat :=
  let l := set.filter (s.eligible fb)
  s.newestOf (if sel = 2 then s.byFsn l t else l)

/-- STORE_FRAME_CFG in force: SELECT and SOURCE. -/
def Block.selMode (s : Block) : Nat := s.afld R.STORE_FRAME_CFG 0 2
def Block.selSource (s : Block) : Nat := s.afld R.STORE_FRAME_CFG 4 3

/-- The surface that R213 selects at the PB that has just fallen. -/
def Block.select (s : Block) : Option Nat :=
  if s.selMode = 0 then
    (let i := s.afld R.STORE_FRAME_SURF 0 6
     if s.eligible s.tm.lastFb i then some i else none)
  else s.choose s.tm.lastFb (setOf s.act s.selSource) s.selMode (s.tm.fsn + 1)

/-- The surfaces passed over: newer than the one in use, not the one selected, and not waiting for a later target; each is dropped once. -/
def Block.passedOver (s : Block) (set : List Nat) (now sel : Nat) (byTag : Bool) : List Nat :=
  set.eraseDups.filter fun i => s.eligible s.tm.lastFb i && i != sel && decide ((s.surf now).sealFt < (s.surf i).sealFt) &&
    !(s.surf i).dropped && !(byTag && newer (s.surf i).tag (s.tm.fsn + 1))

/-- The selection takes effect: repeats and drops are counted (R214).  `src` and `set` are where it was selected from. -/
def Block.takeSurface (s : Block) (sel : Option Nat) (src : Nat) (set : List Nat) (byTag : Bool) : Block :=
  match sel, s.sf.inUse with
  | none, none => s
  | none, some u => (s.bump R.STORE_REPEAT).post 0x08 0x043 [pk src u 0 0, s.tm.fsn]
  | some i, none => { s with sf := { s.sf with inUse := some i } }
  | some i, some u =>
    if i = u then (s.bump R.STORE_REPEAT).post 0x08 0x043 [pk src u 0 0, s.tm.fsn]
    else
      let l := s.passedOver set u i byTag
      let n := l.length
      let s : Block := l.foldl (fun s j => s.modSurf j fun u => { u with dropped := true }) { s with sf := { s.sf with inUse := some i } }
      if n = 0 then s else (s.bump R.STORE_DROP n).post 0x08 0x042 [pk src n 0 0, s.tm.fsn]

/-! ## The clock and the fallback (R257 to R260) -/

/-- Is the frame rate sustainable at a clock of `half` (500 MHz) or 1.0 GHz (R257)? -/
def Block.sustainable (s : Block) (half : Bool) : Bool :=
  let (w, h) := s.raster s.act
  let (num, den) := periodOf s.act
  decide (2 * w * h * den * 1000000000 * primaries s.act ≤ num * 7200000000 * 3 * (if half then 1 else 2))

/-- Is the pipeline enabled: Bucking on, for some port? -/
def Block.pipeOn (s : Block) : Bool := s.abit R.BUCK_CFG 0 && (List.range 4).any (buckEn s.act)

/-- The clock and the fallback at a PB (R24, R258, R260); `begins` says that a frame begins at it.  In the fallback every second
PB is passed over, counted from the PB of entry, whether or not frames begin at the others. -/
def Block.clockPb (s : Block) (begins : Bool) : Block :=
  if !s.pipeRuns then s
  else
    let half := if s.th.lvl.throttle then true else s.pp.half && !begins
    let dram := s.pp.dramFallback && !(begins && s.dramFallbackOver)
    let want := half && !s.sustainable true || dram
    let fb := want || s.pp.fallback && !begins
    let changed := half != s.pp.half
    let s : Block := { s with pp := { s.pp with half := half, dramFallback := dram, fallback := fb, skip := fb && !(s.pp.fallback && s.pp.skip) } }
    if changed then s.post 0x0B 0x050 [w32 (half.toNat + 256 * fb.toNat), s.tm.fsn] else s

/-! ## A frame begins (R255, R274) -/

/-- The ports whose set is still WRITING. -/
def Block.writingPorts (s : Block) : List Nat := (List.range 4).filter fun p => buckEn s.act p && ((s.port p).setIn 1).isSome

/-- The colour matrices of a frame (R252): colour constancy's, or the registers'. -/
def Block.decMatrix (s : Block) : List Int :=
  if s.abit R.COLOR_DEC_CFG 0 then (List.range 12).map fun i => sgn 32 (s.act (R.COLOR_DEC_M i)).toNat else s.co.d
def Block.hlMatrix (s : Block) : List Int :=
  if s.abit R.COLOR_DEC_CFG 0 then (List.range 9).map fun i => sgn 32 (s.act (R.COLOR_HL_M i)).toNat else s.co.hm

/-- The frame the pipeline takes of a surface at the PB. -/
def Block.pipeFrame (s : Block) (i : Nat) : PipeFrame :=
  let (w, h) := s.raster s.act
  { codes := s.sf.codes, blendPages := s.pp.blendPages, unifPages := s.pp.unifPages, spillPages := s.pp.spillPages,
      lbPages := s.sc.lbPages, later := s.dram, cut := 0, surf := i,
      rcd := s.surf i, fsn := s.tm.fsn, startFt := s.tm.ft, dram := s.dram, view := s.regs, mesh := s.pp.mesh.active,
    lut := s.pp.lut.active, zone := s.pp.zone.active, dec := s.decMatrix, hlm := s.hlMatrix, width := w, height := h }

/-- A PB finds sets still WRITING: no frame begins (R274).  The PB is counted once, and each port that is still writing is named. -/
def Block.overrun (s : Block) : Block :=
  s.writingPorts.foldl (fun s p =>
    (s.modPort p fun q => { q with sets := q.sets.map fun t => if t.st = 1 then { t with across := true } else t }).postI 0x0C 0x062 0 p false
      [w32 p, s.tm.fsn]) (s.bump R.BUCK_OVERRUN)

/-- Could a frame begin at this PB: the pipeline runs, which it never does in FROST_HOLD (R256; log entry 160), the fallback does
not skip it, and no set is still WRITING? -/
def Block.mayBegin (s : Block) : Bool := s.pipeRuns && s.pipeOn && !s.pbSkipped && s.writingPorts.isEmpty

/-- A frame begins with the surface in use; false where there is none. -/
def Block.pipeBegin (s : Block) : Block × Bool :=
  match s.sf.inUse with
  | none => (s, false)
  | some i =>
    let s := s.colourPb
    let f := s.pipeFrame i
    let s : Block := { s with pp := { s.pp with frame := some f } }
    (if s.pp.fallback then s.beginSets f (s.tm.fsn + 2) 1 else s.beginSets f (s.tm.fsn + 1) 0, true)

/-- The stall of R639, counted at every PB. -/
def Block.stallPb (s : Block) (began : Bool) : Block :=
  if !s.pipeRuns || !s.pipeOn || s.pp.fallback then s
  else if began then { s with fl := { s.fl with stallPbs := 0 } }
  else
    let n := s.fl.stallPbs + 1
    let s : Block := { s with fl := { s.fl with stallPbs := n } }
    if n = 8 then
      let s := s.faultEv 0x0B 0x058 2 [8, s.tm.fsn, match s.sf.inUse with | some i => w32 i | none => 0xFFFFFFFF] .auto (pageInst 0x0B)
      { s with ho := { s.ho with frostDue := some 0x0D, dueAt := s.now } }
    else s

/-! ## The planes are sealed (R250, R251, Table 8.3) -/

/-- n occurrences of a Tally-only event. -/
def Block.tallyTimes (s : Block) (ty inst : Nat) : Nat → Block
  | 0 => s
  | n + 1 => (s.tallyTimes ty inst n).postTally ty inst

/-- The row selection of a frame is reported (R250); a count of rows dropped beyond the field's 11 bits is a free value. -/
def Block.splitReport (s : Block) (f : PipeFrame) : Block :=
  let r := f.rowPlan
  let (d, s) := if r.dropped < 2048 then (r.dropped, s) else s.takeBelow 2047
  (s.setRegs [(R.HSB_SPLIT_STAT, w32 (r.rows.length + 65536 * d)), (R.HSB_SPLIT_CELLS, w32 r.cells)]).tallyTimes 0x053
    (pageInst 0x0B) r.dropped

/-- The warp's own part in a frame (R203, R240): source tiles read from the pixel store, each once; of those, tiles read as zeros;
and tiles written to the spill area, whose bytes the spec does not lay out. -/
def Block.warpCounts (s : Block) (f : PipeFrame) : Block :=
  let r := f.cacheRun
  let bad := if f.rcd.cmp then ((sortedSet f.uses).filter fun t => badTile f.rcd.format (f.mem.tileHdr f.rcd t)).length else 0
  let s := ((s.bump R.WARP_SRC_READS r.reads).bump R.STORE_BAD_TILE bad).bump R.WARP_CACHE_SPILLS r.writes
  s.setCap f.spillPages 0 ((List.range (r.peak * linTile)).map fun j => BitVec.ofNat 8 (Config.spillByte s.now j))

/-- The frame in hand reads its maps as they stand now from an open band on (R244; log entry 208). -/
def Block.lateMaps (s : Block) : Block :=
  match s.pp.frame with
  | none => s
  | some f =>
    if f.later = s.dram then s
    else
      let (n, s) := s.takeBelow (cdiv f.height 32)
      let late (g : PipeFrame) : PipeFrame := { g with later := s.dram, cut := n }
      let s : Block := { s with pp := { s.pp with frame := some (late f) } }
      s.writingPorts.foldl (fun s p => s.modPort p fun q => { q with sets := q.sets.map fun t =>
        if t.st = 1 then { t with writing := t.writing.map fun c => { c with frame := late c.frame } } else t }) s

/-- The pixel counts of a frame are taken into the CNT registers and Tally as it is sealed (R231, R239, R248, R249, R253). -/
def Block.pipeCount (s : Block) (f : PipeFrame) : Block :=
  let c := { f.counts with sats := f.counts.sats + f.sourceSats }
  ((((((s.bump R.WARP_MASKED c.masked).bump R.COLOR_PIPE_SAT c.sats).bump R.COLOR_GAMUT_CLIP c.clips).tallyTimes 0x054 (pageInst 0x0B)
    c.caps).tallyTimes 0x055 (pageInst 0x0B) c.zones).tallyTimes 0x056 (pageInst 0x0B) c.clips).tallyTimes 0x057 (pageInst 0x0B) c.sats

/-- PLANES_SEALED: every WRITING set is complete; the highlight set goes with that of the lead port (R332). -/
def Block.planesSealed (s : Block) : Block :=
  let s := s.lateMaps
  match s.pp.frame, s.writingPorts with
  | _, [] => s
  | none, ps => ps.foldl Block.sealSet s
  | some f, ps =>
    let lead := leadPort s.act
    let set := match lead with | some p => (s.port p).setIn 1 | none => none
    let s := ps.foldl Block.sealSet s
    let s := ((s.splitReport f).warpCounts f).pipeCount f
    let s := match set with
      | some i => if bit (f.act R.HSB_SPLIT_CFG) 0 then s.writeHl f i else s
      | none => s
    let s := s.setReg R.COLOR_PIPE_TIME (w32 ((s.tm.ft - f.startFt) / 1000))
    let s : Block := { s with pp := { s.pp with frame := none } }
    if s.fl.recs.any fun e => e.2.isOpen && e.2.code == 0x058 then
      let s := s.autoClose 0x0B 0x058 fun _ => true
      { s with ho := { s.ho with thawDue := true, dueAt := s.now } }
    else s

def execPlanesSealed (s : State) : Res := s.does fun s => s.planesSealed

end Sys2Proof.Machine
end

