-- ==== Sys2Proof/Machine/Almanac.lean ====
section
/-!
DEFINITION. Cue contexts (R572 to R574, Tables 18.1 and 18.2) and how a cue ends.
-/
namespace Sys2Proof.Machine

/-- A cue context. -/
def Block.ctx (s : Block) (i : Nat) : CueCtx := (aget? s.cu.ctx i).getD CueCtx.reset

/-- A cue context takes a value; one at its reset value is not listed. -/
def Block.setCtx (s : Block) (i : Nat) (c : CueCtx) : Block :=
  { s with cu := { s.cu with ctx := if c = CueCtx.reset then adel s.cu.ctx i else aput s.cu.ctx i c } }

/-- Bytes 12 and 13 of a context. -/
def CueCtx.flags (c : CueCtx) : Nat :=
  c.st + 8 * c.base + 32 * c.skip.toNat + 64 * c.fine.toNat + 128 * c.evt.toNat + 256 * c.result

/-- Bytes 14 and 15 of a context. -/
def CueCtx.order (c : CueCtx) : Nat := c.prio + 16 * c.seq

/-- The four words of a context. -/
def CueCtx.words (c : CueCtx) : List Word :=
  [w32 c.trigger, w32 (c.trigger / 0x100000000), w32 c.action, w32 (c.flags + 65536 * c.order)]

/-- An event of a cue (Table 18.14). -/
def Block.cueEvent (s : Block) (ty i : Nat) (fsn : Word) : Block :=
  s.post 0x27 ty [w32 i, w32 ((s.ctx i).flags + 65536 * (s.ctx i).order), fsn]

/-- A cue becomes MISSED with a result. -/
def Block.cueMiss (s : Block) (i res : Nat) (fsn : Word) : Block :=
  ((s.setCtx i { s.ctx i with st := 4, result := res }).bump R.CUE_MISSED).cueEvent 0x1E1 i fsn

/-- A cue becomes DONE, its RESULT kept. -/
def Block.cueDone (s : Block) (i : Nat) : Block := s.setCtx i { s.ctx i with st := 3 }

/-- The group commit of an effect frame is rejected (R588): every cue gathered in it is MISSED with REJECTED. -/
def Block.cuesRejected (s : Block) (l : List Nat) (fsn : Word) : Block :=
  let s := l.foldl (fun s i => if (s.ctx i).st = 2 then s.cueMiss i 5 fsn else s) s
  { s with cu := { s.cu with scenes := s.cu.scenes.filter fun x => !l.contains x.idx } }

/-- The group commit of an effect frame has applied (Table 18.4): its cues are DONE, but for scenes still to be carried out. -/
def Block.cuesApplied (s : Block) (l : List Nat) : Block :=
  l.foldl (fun s i => if (s.ctx i).st = 2 && !(s.cu.scenes.any fun x => x.idx == i) then s.cueDone i else s) s

end Sys2Proof.Machine
end

