-- ==== Sys2Proof/Machine/Ingest.lean ====
section
/-!
DEFINITION. Ingest (R209 to R226): the DP path, the fabric path, the NVMe container and the host frame check.
-/
namespace Sys2Proof.Machine

/-- An ingest source. -/
def Block.src (s : Block) (n : Nat) : Source := s.sf.src.getD n Source.reset

/-- An ingest source changes. -/
def Block.modSrc (s : Block) (n : Nat) (f : Source → Source) : Block := { s with sf := { s.sf with src := modAt s.sf.src n f } }

/-- A frame is not sealed (Table 6.13): counted as lost, and SURF_UNSEALED posted with its cause. -/
def Block.lostFrame (s : Block) (n : Nat) (surf : Option Nat) (cause : Nat) (tag : Word) : Block :=
  ((s.bump (R.INGEST_SRC_LOST n)).bump R.STORE_UNSEALED).post 0x08 0x041
    [w32 (surf.getD 0x3F + 256 * n + 65536 * cause), tag]

/-- The frame a source is writing, of a tag, is abandoned: its surface returns to CLOSED (Table 6.5). -/
def Block.abandonAs (s : Block) (n cause : Nat) (tag : Word) : Block :=
  match (s.src n).writing with
  | none => s
  | some i =>
    let s := s.modSurf i fun u => { u with st := .closed, image := [] }
    let s := s.modSrc n fun q => { q with writing := none, halves := 0, st := 1 }
    s.lostFrame n (some i) cause tag

/-- A DP frame is abandoned: its tag is that of the frame period (R208). -/
def Block.abandon (s : Block) (n cause : Nat) : Block := s.abandonAs n cause s.tm.fsn

/-- A source enters MISMATCH, and the frame in hand is not written (R200). -/
def Block.mismatch (s : Block) (n : Nat) (tag : Word) : Block := (s.modSrc n fun q => { q with st := 3 }).lostFrame n none 9 tag

/-- HFC_EN and HFC_ENFORCE as a frame that starts now takes them (R228). -/
def Block.hfcNow (s : Block) (n : Nat) : Nat := s.afld (R.INGEST_SRC_CFG n) 6 2

/-- R210: does a frame that starts now fall less than 1 / MAX_RATE after the start of the last frame accepted? -/
def Block.rateExcess (s : Block) (n : Nat) : Bool :=
  match (s.src n).lastStart with
  | none => false
  | some t => decide ((s.tm.ft - t) * s.afld (R.INGEST_SRC_CFG n) 16 9 < 1000000000)

/-- The tag a BY_FSN selection waits for: the coming target. -/
def Block.comingTarget (s : Block) : Word := s.tm.fsn + 2

/-- The policy that acts (R594): FREEZE where it stands in. -/
def Block.policyActs (s : Block) : Nat := if s.ho.fallback then 1 else s.ho.policy

/-- Is a source selected BY_FSN: by STORE_FRAME_CFG, or source 6 by PLAY_LOCAL in holdover (R213, R593)? -/
def Block.byTagSel (s : Block) (n : Nat) : Bool :=
  s.afld R.STORE_FRAME_CFG 0 2 == 2 || (n == 6 && s.ho.inForce && s.policyActs == 3)

/-- R212: may the writer take this surface of its set? -/
def Block.mayWrite (s : Block) (n i : Nat) : Bool :=
  match (s.surf i).st with
  | .closed => true
  | .sealed => (s.src n).newest != some i && !s.surfHeld i &&
      !(s.byTagSel n && newer (s.surf i).tag s.comingTarget)
  | _ => false

/-- R212: the surface of a set that a source takes for a new frame, the oldest by seal stamp. -/
def Block.chooseSurf (s : Block) (n : Nat) (set : List Nat) : Option Nat :=
  match set.filter (s.mayWrite n) with
  | [] => none
  | i :: l => some (l.foldl (fun a b => if (s.surf b).sealFt < (s.surf a).sealFt then b else a) i)

/-- A frame of a source is accepted into a surface, or discarded with its cause (R200, R210, R212). -/
def Block.beginFrame (s : Block) (n : Nat) (fits : Bool) : Block :=
  if !s.srcOn n then s
  else if !fits then s.mismatch n s.tm.fsn
  else if s.rateExcess n then s.lostFrame n none 8 s.tm.fsn
  else match s.chooseSurf n (s.srcSet n) with
    | none => s.lostFrame n none 7 s.tm.fsn
    | some i =>
      let h := s.hfcNow n
      (s.modSurf i Surface.opened).modSrc n fun q =>
        { q with writing := some i, lastStart := some s.tm.ft, st := 2, halves := 0, hfcCfg := h }

/-- The bytes of a surface's active area in raster order, as the host frame check takes them (R225). -/
def Block.rasterBytes (s : Block) (i : Nat) : List Byte :=
  let u := s.surf i
  (List.range u.height).flatMap fun y => (List.range u.width).flatMap fun x => packPixel u.format (s.surfPix i x y)

/-- The host check value of a frame with its tag folded in before the data (R225). -/
def Block.frameCheck (s : Block) (i : Nat) (tag : Word) : Word := w32 (crc32c (leBytes 4 tag.toNat ++ s.rasterBytes i))

/-- R226: how a frame's check value compares with the queued expected value of its tag: 0 no expected value, 1 a match, 2 a mismatch. -/
def Block.hfcResult (s : Block) (n i : Nat) (tag : Word) : Nat :=
  match (s.src n).hfc.find? fun e => e.1 == tag with
  | none => 0
  | some e => if e.2 == s.frameCheck i tag then 1 else 2

/-- R226: a frame's check value is reported, and a compared frame discards the queued values as old as its own. -/
def Block.hfc (s : Block) (n i : Nat) (tag : Word) : Block :=
  let res := s.hfcResult n i tag
  let v := s.frameCheck i tag
  let s := s.modSrc n fun q => { q with hfc := if res = 0 then q.hfc else q.hfc.filter fun e => newer e.1 tag }
  let s := if res = 2 then s.bump R.INGEST_HFC_MISMATCH else s
  s.post 0x09 0x044 [w32 (n + 256 * res), tag, v]

/-- Does the check that `cfg` (HFC_EN, HFC_ENFORCE) asks for keep a frame from being sealed (R226)? -/
def Block.hfcStops (s : Block) (n i cfg : Nat) (tag : Word) : Bool := natBit cfg 0 && natBit cfg 1 && s.hfcResult n i tag == 2

/-- A surface is sealed for a source, whose status follows (R208, Table 6.12). -/
def Block.sealFor (s : Block) (n i : Nat) (tag : Word) : Block :=
  ((s.sealSurf i n tag).modSrc n (fun q =>
    { q with writing := none, newest := some i, halves := 0, st := if q.st = 0 then 0 else 2 })).bumpSat (R.INGEST_SRC_STATUS n) 16 16

/-- The blocks of a surface's tile area have been written whole by a frame, and hold no poison (R473). -/
def Block.freshSurf (s : Block) (i : Nat) : Block :=
  let u := s.surf i
  { s with dc := { s.dc with poison := s.dc.poison.filter fun b => match u.pages.findIdx? (· == b / 64) with
    | some k => decide (u.tiles * tileBytes u.format < 4096 * k + 64 * (b % 64) + 64)
    | none => true } }

/-- A source's frame is complete: compressed under R202 to R204 and checked under R225 and R226, then sealed; or abandoned where
it breaks its budget or the check is enforced. -/
def Block.endFrame (s : Block) (n : Nat) (tag : Word) : Block :=
  match (s.src n).writing with
  | none => s
  | some i =>
    let cfg := (s.src n).hfcCfg
    match (if (s.surf i).cmp then s else s.freshSurf i).compress i with
    | (s, false) => (s.bump R.STORE_CMP_OVER).abandonAs n 1 tag
    | (s, true) =>
      let t := if natBit cfg 0 then s.hfc n i tag else s
      if s.hfcStops n i cfg tag then t.abandonAs n 2 tag else t.sealFor n i tag

/-! ## The DP path (R170 to R173, R216, R217) -/

/-- Are the sinks joined (R170)?  HOST_JOIN_CFG as the last frame start of DP0 took it. -/
def Block.joined (s : Block) : Bool := s.hs.joinOn

/-- The source a sink feeds: source 0 for DP0 or the joined pair, source 1 for DP1. -/
def Block.dpSource (s : Block) (a : Nat) : Nat := if s.joined then 0 else a

/-- Table 6.2: may the stream's pixel format be stored in the source's surface format? -/
def dpFits (fmt bpc surf : Nat) : Bool :=
  if fmt = 2 then (if bpc = 8 then surf == 1 || surf == 5 else (bpc == 10 || bpc == 12) && surf == 5)
  else if bpc = 8 then surf == 2 || surf == 3 || surf == 4 || surf == 6
  else if bpc = 10 then surf == 4 || surf == 6
  else bpc == 12 && surf == 6

/-- Does the stream on a sink fit the source's surfaces: its pixel format (Table 6.2), and its size, twice as wide where the
sinks are joined? -/
def Block.streamFits (s : Block) (a n : Nat) : Bool :=
  let f := s.reg (R.HOST_DP_FMT a)
  dpFits (bits f 0 2) (bits f 2 4) (s.afld (R.INGEST_SRC_CFG n) 1 4) &&
    (s.srcSet n).all fun i =>
      (s.surf i).width == s.fld (R.HOST_DP_HACT a) 0 16 * (if s.joined then 2 else 1) &&
      (s.surf i).height == s.fld (R.HOST_DP_VACT a) 0 16

/-- The stream on a sink is written to no surface: no stream, or refused under R171 or R173. -/
def Block.streamRefused (s : Block) (a : Nat) : Bool :=
  s.fld (R.HOST_DP_STATUS a) 0 3 != 3 || bit (s.reg (R.HOST_DP_DSC a)) 0

/-- Half the display frame period, in ns. -/
def Block.halfPeriod (s : Block) : Nat := s.tm.num / (2 * max 1 s.tm.den)

/-- A frame start of DP0 takes HOST_JOIN_CFG.EN; where that changes, the frames in hand of both sinks are abandoned (log entry 204). -/
def Block.joinStart (s : Block) : Block :=
  let want := bit (s.reg R.HOST_JOIN_CFG) 0
  if want = s.hs.joinOn then s
  else
    let s := (s.abandon 0 3).abandon 1 3
    let s : Block := { s with hs := { s.hs with joinOn := want } }
    (s.setFld (R.HOST_DP_STATUS 0) 11 1 want.toNat).setFld (R.HOST_DP_STATUS 1) 11 1 want.toNat

/-- What a frame takes of its stream as it starts (R172). -/
def Block.dpTake (s : Block) (a : Nat) : Block :=
  let f := s.reg (R.HOST_DP_FMT a)
  { s with hs := { s.hs with dpCap := setAt s.hs.dpCap a { fmt := bits f 0 2, bpc := bits f 2 4, hact := s.fld (R.HOST_DP_HACT a) 0 16 } } }

/-- A frame half without a partner is counted for its adapter (R170). -/
def Block.unpaired (s : Block) : Block :=
  let h := (s.src 0).halves
  if s.joined && natBit h 2 != natBit h 3 then s.bump (R.HOST_DP_ERR (if natBit h 2 then 0 else 1)) else s

/-- Does this start of active video pair with the half already begun (R170)? -/
def Block.pairs (s : Block) (a : Nat) : Bool :=
  s.joined && (s.src 0).writing.isSome && natBit (s.src 0).halves (3 - a) && !natBit (s.src 0).halves (2 + a) &&
    (match (s.src 0).lastStart with
     | some t => decide (s.tm.ft - t ≤ s.halfPeriod)
     | none => false)

/-- Start of active video on a sink (R216): its partner's half of a joined frame, or a new frame. -/
def Block.dpStart (s : Block) (a : Nat) : Block :=
  let s := if a = 0 then s.joinStart else s
  let n := s.dpSource a
  if s.streamRefused a then s.bump (R.HOST_DP_ERR a)
  else
    let s := s.dpTake a
    if s.pairs a then
      if s.streamFits a 0 then s.modSrc 0 fun q => { q with halves := q.halves + 2 ^ (2 + a) }
      else (s.abandon 0 9).modSrc 0 fun q => { q with st := 3 }
    else
      let s := if (s.src n).writing.isSome then s.unpaired.abandon n 3 else s
      let s := s.beginFrame n (s.streamFits a n)
      if (s.src n).writing.isSome then s.modSrc n fun q => { q with halves := 2 ^ (2 + a) } else s

/-- R199: Y, Cb and Cr of a pixel in the order of an RGB format's positions, Cr, Y, Cb. -/
def yccOrder (cs : List Nat) : List Nat :=
  match cs with
  | [y, cb, cr] => [cr, y, cb]
  | l => l

/-- One decoded pixel is stored (R199, R200): its components, of `bpc` bits, in the surface's field width; `ycc` where they are
Y, Cb and Cr. -/
def Block.storePixel (s : Block) (i bpc x y : Nat) (ycc : Bool) (cs : List Nat) : Block :=
  let u := s.surf i
  s.surfWrite i (u.pixOff x y) (packPixel u.format ((if ycc then yccOrder cs else cs).map (expand bpc (fmtField u.format))))

/-- The pixels of a part of the raster `w` pixels wide, beginning in column `x0`, in raster order. -/
def Block.storeRaster (s : Block) (i bpc x0 w : Nat) (ycc : Bool) (pix : List (List Nat)) : Block :=
  (pix.mapIdx fun k cs => (k, cs)).foldl (fun s e => s.storePixel i bpc (x0 + e.1 % max 1 w) (e.1 / max 1 w) ycc e.2) s

/-- The pixels from column `x0` on of a line of another surface are written in the same places (R173). -/
def Block.repeatLine (s : Block) (i j x0 w y : Nat) : Block :=
  (List.range w).foldl (fun s k => s.surfWrite i ((s.surf i).pixOff (x0 + k) y) (packPixel (s.surf i).format (s.surfPix j (x0 + k) y))) s

/-- The lines of a sink's frame whose slices failed to decode take the previous surface's (R173); the frame is counted. -/
def Block.badLines (s : Block) (a n i x0 w : Nat) (bad : List Nat) : Block :=
  if bad.isEmpty then s
  else
    let s := match (s.src n).newest with
      | some j => bad.foldl (fun (s : Block) y => s.repeatLine i j x0 w y) s
      | none => s
    let s := (s.bump (R.HOST_DP_ERR a)).bumpSat (R.HOST_DP_DSC a) 16 16
    s.post 0x03 0x023 [w32 (a + 256), w32 (s.fld (R.HOST_DP_DSC a) 16 16)]

/-- The last line of a sink's frame is written (R216): the surface is sealed, of a joined pair when both halves are.  `bad` are
the lines whose slices failed to decode. -/
def Block.dpSeal (s : Block) (a : Nat) (pix : Pixels) (bad : List Nat) (vsc : Option Vsc) : Block :=
  let n := s.dpSource a
  match (s.src n).writing with
  | none => s
  | some i =>
    if !natBit (s.src n).halves (2 + a) then s else
    let k := s.hs.dpCap.getD a { fmt := 0, bpc := 0, hact := 0 }
    let x0 := if s.joined then a * k.hact else 0
    let s := (s.storeRaster i k.bpc x0 k.hact (k.fmt == 1) pix).badLines a n i x0 k.hact bad
    let s := (s.modSurf i fun u => { u with vsc := vsc }).modSrc n fun q => { q with halves := q.halves + 2 ^ a }
    if s.joined && !(natBit (s.src n).halves 0 && natBit (s.src n).halves 1) then s
    else
      let up := if s.hs.prUpdate.getD a false then some a
        else if s.joined && s.hs.prUpdate.getD (1 - a) false then some (1 - a) else s.hs.prThaw
      let left := if s.joined then [false, false] else setAt s.hs.prUpdate a false
      let s := { s with hs := { s.hs with prThaw := up, prAt := if up = s.hs.prThaw then s.hs.prAt else s.now, prUpdate := left } }
      s.endFrame n s.tm.fsn

/-- A DP frame ends without its last line (R217). -/
def Block.dpAbandon (s : Block) (a : Nat) : Block := s.abandon (s.dpSource a) 3

/-- What HOST_DP_CFG advertised at a sink's link training. -/
def Block.dpCaps (s : Block) (a : Nat) : Word := s.hs.dpCfg.getD a 0x334

/-- The DPCD of a sink as its link training found it (R169, Table 5.4), by address; a byte not listed is 0.  HOST_DP_CFG limits
the lanes and the rate and offers DSC, with FEC, and Panel Replay; the addresses and codes are DisplayPort's own (log entry 240).
-/
def Block.dpcd (s : Block) (a : Nat) : List (Nat × Byte) :=
  let c := s.dpCaps a
  let rate : Byte := match min 3 (bits c 4 4) with | 0 => 0x06 | 1 => 0x0A | 2 => 0x14 | _ => 0x1E
  [(0x000, 0x14), (0x001, rate), (0x002, BitVec.ofNat 8 (0xC0 + bits c 0 4))] ++
  (if bit c 8 then
    [(0x060, 1), (0x061, 0x21), (0x064, 0x2B), (0x066, 1), (0x067, 0x80), (0x068, 1), (0x069, 0x0F), (0x06A, 0x0E), (0x06D, 1), (0x090, 1)]
   else []) ++
  (if bit c 9 then [(0x0B0, 1)] else [])

/-- Table 5.4: the DSC streams a sink decodes: advertised, with FEC, within the parameters (log entry 202). -/
def dpDscOk (cfg : Word) (t : DpTiming) : Bool :=
  !t.dsc || (bit cfg 8 && t.fec && decide (96 ≤ t.bpp16) && decide (t.bpp16 ≤ 384) && [1, 2, 4, 8, 16].contains t.slices &&
    (t.bpc == 8 || t.bpc == 10 || t.bpc == 12) && decide (t.fmt ≤ 2))

/-- Table 5.4: the streams a sink accepts (R171): lanes and rate within those advertised, timing and format within the table (log
entry 202). -/
def dpTimingOk (cfg : Word) (t : DpTiming) : Bool :=
  [1, 2, 4].contains t.lanes && decide (t.lanes ≤ bits cfg 0 4) && decide (t.rate ≤ min 3 (bits cfg 4 4)) &&
      decide (t.hact ≤ 8192) && decide (t.vact ≤ 4320) && decide (t.khz ≤ 2400000) &&
    (t.bpc == 8 || t.bpc == 10 || t.bpc == 12) && decide (t.fmt ≤ 2)

/-- log2 of the slices per line. -/
def sliceLog (n : Nat) : Nat := if n ≤ 1 then 0 else if n = 2 then 1 else if n ≤ 4 then 2 else if n ≤ 8 then 3 else 4

/-- DP_STREAM_CHANGE (Table 5.16). -/
def Block.postStream (s : Block) (a : Nat) : Block :=
  s.post 0x03 0x022 [w32 (a + 256 * s.fld (R.HOST_DP_STATUS a) 0 3), s.reg (R.HOST_DP_HACT a), s.reg (R.HOST_DP_VACT a)]

/-- An unsupported offer is counted, recorded and reported (R165). -/
def Block.unsupported (s : Block) (code : Nat) : Block :=
  let s := (s.bump R.HOST_UNSUP_COUNT).setReg R.HOST_UNSUP_LAST (w32 code)
  s.post 0x03 0x021 [w32 code, s.reg R.HOST_UNSUP_COUNT]

/-- A DSC stream is refused (R173) until a parameter set within Table 5.4 arrives; it is an unsupported offer (R165). -/
def Block.dscRefuse (s : Block) (a : Nat) : Block :=
  let s := s.abandon (s.dpSource a) 3
  ((s.setFld (R.HOST_DP_DSC a) 0 1 1).post 0x03 0x023 [w32 a, w32 (s.fld (R.HOST_DP_DSC a) 16 16)]).unsupported 6

/-- Does a stream's timing differ from what the sink reports? -/
def Block.dpMoved (s : Block) (a : Nat) (t : DpTiming) : Bool :=
  s.reg (R.HOST_DP_HACT a) != w32 (t.hact + 65536 * t.htot) || s.reg (R.HOST_DP_VACT a) != w32 (t.vact + 65536 * t.vtot) ||
    s.reg (R.HOST_DP_PIXCLK a) != w32 t.khz

/-- A change of timing, pixel format or DSC parameters on a sink (R171 to R173): reported, UNSUPPORTED where the timing
exceeds the table, and the stream refused, or taken again, as its DSC parameters lie.  A change of the timing within a frame ends the frame
(R217); any other acts at the next frame. -/
def Block.dpTiming (s : Block) (a : Nat) (t : DpTiming) : Block :=
  let s := if s.dpMoved a t then s.abandon (s.dpSource a) 3 else s
  let s := s.setRegs [(R.HOST_DP_HACT a, w32 (t.hact + 65536 * t.htot)), (R.HOST_DP_VACT a, w32 (t.vact + 65536 * t.vtot)),
    (R.HOST_DP_PIXCLK a, w32 t.khz), (R.HOST_DP_FMT a, w32 (t.fmt + 4 * t.bpc + 65536 * (t.bpp16 % 1024)))]
  let s := s.setFld (R.HOST_DP_STATUS a) 0 3 (if dpTimingOk (s.dpCaps a) t then 3 else 4)
  let s := s.setFld (R.HOST_DP_STATUS a) 3 7 (t.lanes % 8 + 8 * (t.rate % 4) + 32 * t.fec.toNat + 64 * t.dsc.toNat)
  let s := s.setFld (R.HOST_DP_STATUS a) 11 1 s.joined.toNat
  let s := s.setFld (R.HOST_DP_DSC a) 1 4 (sliceLog t.slices)
  (if dpDscOk (s.dpCaps a) t then s.setFld (R.HOST_DP_DSC a) 0 1 0 else s.dscRefuse a).postStream a

/-! ## The fabric path (R218, R219) -/

/-- The fabric stream, 0 to 3, that a content unit belongs to: that of a picture in hand of its STREAM_ID and target, as it began
(R228), or the enabled one that has this STREAM_ID. -/
def Block.streamOf (s : Block) (id : Nat) (target : Word) : Option Nat :=
  match (List.range 4).find? fun f => (s.src (2 + f)).pics.any fun p => p.stream == id && p.target == target with
  | some f => some f
  | none => (List.range 4).find? fun f => s.srcOn (2 + f) && s.afld (R.INGEST_FAB_STREAM f) 0 16 == id

/-- A picture leaves the staging of a stream. -/
def Block.dropPic (s : Block) (f : Nat) (target : Word) : Block :=
  s.modSrc (2 + f) fun q => { q with pics := q.pics.filter fun p => p.target != target }

/-- A picture of a stream is lost: counted and posted once, its later units discarded (log entry 164). -/
def Block.lostPic (s : Block) (f cause : Nat) (target : Word) : Block :=
  ((s.dropPic f target).modSrc (2 + f) fun q => { q with gone := some target }).lostFrame (2 + f) none cause target

/-- The bytes of a picture, in order. -/
def Picture.bytes (p : Picture) : List Byte := p.data.map (·.2)

/-- Every byte from 0 to PIC_LEN - 1 has arrived. -/
def Picture.complete (p : Picture) : Bool := p.data.length == p.len && (p.data.mapIdx fun i e => e.1 == i).all id

/-- R219: PIC_CRC over the payload with TARGET_FSN folded in before it. -/
def Picture.crcOk (p : Picture) : Bool := w32 (crc32c (leBytes 4 p.target.toNat ++ p.bytes)) == p.crc

/-- Bits per component of a DSC parameter set (log entry 205): byte 3 [7:4], 0 for 16. -/
def ppsBpc (pps : List Byte) : Nat := if natBits (field pps 3 1) 4 4 = 0 then 16 else natBits (field pps 3 1) 4 4

/-- Why a picture of a kind cannot be decoded into a format: a DSC picture without a parameter set (0, writer fault), or
components deeper than the format's field (9, R200). -/
def dscFault (kind format : Nat) (pps : List Byte) : Option Nat :=
  if kind = 0 then none else if pps.isEmpty then some 0 else if fmtField format < ppsBpc pps then some 9 else none

/-- A whole picture is written into a surface of a source's set and sealed (R219, R224): raw tiles as they are, or the pixels that
the decoder yields (log entry 22), expanded under R200. -/
def Block.writePic (s : Block) (n i hfc kind width : Nat) (tag : Word) (pps bytes : List Byte) (ycc : Bool) (decoded : List (List Nat)) : Block :=
  let s := (s.modSurf i Surface.opened).modSrc n fun q => { q with writing := some i, st := 2, hfcCfg := hfc }
  let s := if kind = 0 then s.surfWrite i 0 bytes else s.storeRaster i (ppsBpc pps) 0 width ycc decoded
  s.endFrame n tag

/-- A complete picture is written and sealed (R219), or abandoned. -/
def Block.picDone (s : Block) (f : Nat) (p : Picture) (decoded : List (List Nat)) : Block :=
  let n := 2 + f
  if !p.crcOk then s.lostPic f 4 p.target
  else match dscFault p.kind p.format p.pps with
    | some c => (s.lostPic f c p.target).modSrc n fun q => { q with st := if c = 9 then 3 else q.st }
    | none => match s.chooseSurf n p.set with
      | none => s.lostPic f 7 p.target
      | some i => (s.dropPic f p.target).writePic n i p.hfc p.kind p.width p.target p.pps p.bytes ((s.surf i).enc != 0) decoded

/-- A picture's bytes are put into its staging. -/
def Picture.addBytes (p : Picture) (off : Nat) (bs : List Byte) : Picture :=
  { p with data := (bs.mapIdx fun i b => (off + i, b)).foldl (fun d e => if e.1 < p.len then aput d e.1 e.2 else d) p.data }

/-- R219: has FB(TARGET_FSN - 1) passed? -/
def Block.lateFor (s : Block) (target : Word) : Bool := !newer (target - 1) s.tm.fsn

/-- A content unit of a known stream whose size and format agree with the set's record (R219). -/
def Block.contentPart (s : Block) (f : Nat) (bs : List Byte) (decoded : List (List Nat)) : Block :=
  let n := 2 + f
  let target := w32 (field bs 4 4)
  let fresh : Picture := { stream := field bs 0 2, set := s.srcSet n, pps := (s.src n).pps, hfc := s.hfcNow n,
                           kind := field bs 2 1, format := field bs 3 1,
                           target := target, len := field bs 12 4,
                           width := field bs 16 2, height := field bs 18 2, crc := w32 (field bs 20 4), data := [] }
  let known := (s.src n).pics.any fun p => p.target == target
  if s.lateFor target then s.lostPic f 6 target else
  if !known && s.rateExcess n then s.lostPic f 8 target else
  let s := if known then s else
    let s := match (s.src n).pics with
      | p :: _ :: _ => s.lostPic f 5 p.target
      | _ => s
    s.modSrc n fun q => { q with pics := q.pics ++ [fresh], lastStart := some s.tm.ft }
  let s := s.modSrc n fun q => { q with pics := q.pics.map fun p =>
    if p.target == target then p.addBytes (field bs 8 4) (bs.drop 32) else p }
  match (s.src n).pics.find? fun p => p.target == target with
  | some p => if p.complete then s.picDone f p decoded else s
  | none => s

/-- The set of surfaces a unit's picture is for: as it stood when the picture began (R228). -/
def Block.unitSet (s : Block) (f : Nat) (target : Word) : List Nat :=
  match (s.src (2 + f)).pics.find? fun p => p.target == target with
  | some p => p.set
  | none => s.srcSet (2 + f)

/-- A content unit arrives (R218, R219). -/
def Block.content (s : Block) (bs : List Byte) (decoded : List (List Nat)) : Block :=
  match s.streamOf (field bs 0 2) (w32 (field bs 4 4)) with
  | none => s
  | some f =>
    let n := 2 + f
    if field bs 2 1 = 2 then s.modSrc n fun q => { q with pps := (bs.drop 32).take 128 }
    else if 2 < field bs 2 1 || (s.src n).gone == some (w32 (field bs 4 4)) then s
    else
      let u := s.surf ((s.unitSet f (w32 (field bs 4 4))).headD 0)
      if field bs 16 2 = u.width ∧ field bs 18 2 = u.height ∧ field bs 3 1 = u.format then s.contentPart f bs decoded
      else
        let s := s.modSrc n fun q => { q with st := 3 }
        let target := w32 (field bs 4 4)
        if (s.src n).pics.any fun p => p.target == target then s else s.lostPic f 9 target

/-- R219: FB(TARGET_FSN - 1) has passed before a picture of the stream is sealed. -/
def Block.pictureLate (s : Block) (f : Nat) : Block :=
  let late := (s.src (2 + f)).pics.filter fun p => s.lateFor p.target
  late.foldl (fun s p => s.lostPic f 6 p.target) s

/-! ## The NVMe container (R220 to R224) -/

/-- The NVMe reader's state changes, with NVME_STATE (Table 6.13). -/
def Block.nvmeGoto (s : Block) (st status : Nat) : Block :=
  let s := { s with sf := { s.sf with nvme := { s.sf.nvme with st := st } } }
  (s.setFld R.INGEST_NVME_STATUS 0 3 st).post 0x09 0x045 [w32 st, w32 status]

/-- R223: the first failing field of a container header (Table 6.9), where there is one: its first byte, and its bytes. -/
def headerFault (h : List Byte) : Option (Nat × Nat) :=
  let zeros (a b : Nat) := ((h.drop a).take (b - a)).all (· == 0)
  if field h 0 4 ≠ 0x4C444F48 then some (0, 4)
  else if field h 4 2 ≠ 1 then some (4, 2)
  else if !zeros 6 8 then some (6, 2)
  else if field h 8 4 = 0 then some (8, 4)
  else if field h 12 4 = 0 then some (12, 4)
  else if field h 16 8 = 0 then some (16, 8)
  else if field h 24 4 = 0 then some (24, 4)
  else if 1 < field h 32 1 then some (32, 1)
  else if fmtBpp (field h 33 1) = 0 then some (33, 1)
  else if 2 < field h 34 1 then some (34, 1)
  else if 1 < field h 35 1 then some (35, 1)
  else if !zeros 36 40 then some (36, 4)
  else if !zeros 48 128 then some (48, 80)
  else if field h 32 1 = 0 && !zeros 128 256 then some (128, 128)
  else if !zeros 256 4092 then some (256, 3836)
  else if crc32c (h.take 4092) ≠ field h 4092 4 then some (4092, 4)
  else none

/-- The reader changes. -/
def Block.modNvme (s : Block) (f : NvmeState → NvmeState) : Block := { s with sf := { s.sf with nvme := f s.sf.nvme } }

/-- A Read is issued to the drive. -/
def Block.emitRead (s : Block) (r : NvmeRead) : Block := s.emit (.nvme s.sf.nvme.nsid.toNat r.lba r.blocks)

/-- The Reads a queue pair of 64 entries holds at once (R220; log entry 206). -/
def nvmeDepth : Nat := 63

/-- The Reads of `blocks` logical blocks from an address on, none longer than the drive and R220 allow. -/
def NvmeState.split (v : NvmeState) (lba blocks : Nat) : List NvmeRead :=
  let m := max 1 (v.most / max 1 v.block)
  (List.range (cdiv blocks m)).map fun i => { lba := lba + i * m, blocks := min m (blocks - i * m), tried := false }

/-- The reader reads a run of blocks over the first queue pair, whose queues and PRP lists CP10 holds (`NvmeState.reads`; where
they lie in it the spec does not say, log entry 245): as many Reads as the queue holds are issued, the others as those end. -/
def Block.nvmeRead (s : Block) (phase lba blocks : Nat) : Block :=
  let l := s.sf.nvme.split lba blocks
  (l.take nvmeDepth).foldl Block.emitRead (s.modNvme fun v => { v with phase := phase, reads := l, buf := [] })

/-- The container address of a 4 KiB unit, in logical blocks. -/
def Block.unitLba (s : Block) (unit : Nat) : Nat :=
  (s.reg R.INGEST_NVME_LBA_LO).toNat + (s.reg R.INGEST_NVME_LBA_HI).toNat * 0x100000000 + unit * (4096 / max 1 s.sf.nvme.block)

/-- A Read of one unit is issued. -/
def Block.readUnit (s : Block) (phase unit : Nat) : Block := s.nvmeRead phase (s.unitLba unit) (4096 / max 1 s.sf.nvme.block)

/-- The admin commands of R220: Identify of the controller and of the namespace, Set Features with Number of Queues, and two
completion and two submission queues. -/
def Block.nvmeAdmin (s : Block) : Block :=
  [(0x06, [0, 1]), (0x06, [s.sf.nvme.nsid.toNat, 0]), (0x09, [7, 2]), (0x05, [1, 64]), (0x05, [2, 64]), (0x01, [1, 64]), (0x01, [2, 64])].foldl
    (fun s (e : Nat × List Nat) => s.emit (.nvmeAdmin e.1 e.2)) s

/-- NVME_EN goes from 1 to 0: the queue pairs are deleted where the controller has them (R220), what it was reading is dropped,
and the reader is off. -/
def Block.nvmeOff (s : Block) : Block :=
  let up := 2 ≤ s.sf.nvme.st
  let s := if up then [(0x00, [1]), (0x00, [2]), (0x04, [1]), (0x04, [2])].foldl
      (fun s (e : Nat × List Nat) => s.emit (.nvmeAdmin e.1 e.2)) s else s
  (s.modNvme fun v => { v with frame := none, phase := 0, reads := [], buf := [], entry := [] }).nvmeGoto 0 0

/-- NVME_EN goes from 0 to 1 (R220, R221, R223): the root port comes up, the namespace is judged by its Identify data, and the
container header is read. -/
def Block.nvmeEnable (s : Block) (linkUp : Bool) (id : NvmeIdent) : Block :=
  let s := (s.setFld R.INGEST_CTRL 0 1 1).modNvme fun _ => { NvmeState.reset with nsid := s.reg R.INGEST_NVME_NSID }
  let s := s.nvmeGoto (if linkUp then 1 else 0) 0
  if !linkUp then s
  else
    let s := s.nvmeAdmin
    if id.status ≠ 0 then s.nvmeGoto 4 id.status
    else if (id.lbads ≠ 9 ∧ id.lbads ≠ 12) ∨ id.metadata ≠ 0 ∨ id.protect ≠ 0 then s.nvmeGoto 4 0
    else
      let s := s.modNvme fun v =>
        { v with block := 2 ^ id.lbads, most := if id.mdts = 0 then 131072 else min 131072 (4096 * 2 ^ id.mdts) }
      let s := (s.setFld R.INGEST_NVME_STATUS 3 1 (id.lbads == 12).toNat).nvmeGoto 2 0
      s.readUnit 1 0

/-- The container header as read is checked (R223). -/
def Block.headerRead (s : Block) (h : List Byte) : Block :=
  match headerFault h with
  | some (b, n) => (s.setFld R.INGEST_NVME_STATUS 4 8 b).post 0x09 0x046 [w32 b, w32 (field h b (min n 4))]
  | none => (s.modNvme fun v => { v with header := h }).nvmeGoto 3 0

/-- A push of an expected check value (R226). -/
def Block.hfcPush (s : Block) (v : Word) : Block :=
  let n := s.fld R.INGEST_HFC_SRC 0 3
  if (s.src n).hfc.length < 16 then
    s.modSrc n fun q => { q with hfc := q.hfc ++ [(s.reg R.INGEST_HFC_TAG, v)] }
  else (s.modSrc n fun q => { q with hfcOvf := true }).setFld R.INGEST_HFC_QSTAT 8 1 1

/-! ## The commands -/

/-- SURF_DEFINE (R205). -/
def execSurfDefine (i : Nat) (s : State) : Res := s.does fun s => s.onStrobe fun s => s.surfDefine (i % 64)

/-- SURF_OPEN (R206). -/
def execSurfOpen (i : Nat) (s : State) : Res := s.does fun s => s.onStrobe fun s => s.surfOpen (i % 64)

/-- SURF_CLOSE (R206). -/
def execSurfClose (i : Nat) (s : State) : Res := s.does fun s => s.onStrobe fun s => s.surfClose (i % 64)

/-- A write of STORE_SURF_OP; a reserved operation does nothing (R666). -/
def Block.surfOpWrite (s : Block) (v : Word) : Block :=
  match bits v 8 4 with
  | 1 => s.surfDefine (bits v 0 6)
  | 2 => s.surfOpen (bits v 0 6)
  | 3 => s.surfClose (bits v 0 6)
  | _ => s

/-- A write of STORE_SURF_SEL captures the record into the window. -/
def Block.surfSelWrite (s : Block) (v : Word) : Block :=
  (s.setReg R.STORE_SURF_SEL (w32 (bits v 0 6))).surfCapture (bits v 0 6)

def execStoreSurfSelCapture (v : Word) (s : State) : Res := s.does fun s => s.onWrite 0x08 fun s => s.surfSelWrite v

/-- CMP_OVER (R204): the compressed frame a source is writing would exceed its unit budget; it is abandoned. -/
def execCmpOver (n : Nat) (s : State) : Res :=
  s.does fun s =>
    match (s.src n).writing with
  | none => s
  | some i => (if (s.surf i).cmp then (s.bump R.STORE_CMP_OVER).abandon n 1 else s)

/-- DP_FRAME_START (R170, R216). -/
def execDpFrameStart (a : Nat) (s : State) : Res := s.does fun s => s.dpStart (a % 2)

/-- DP_FRAME_SEALED (R173, R216, R226). -/
def execDpFrameSealed (a : Nat) (pix : Pixels) (bad : List Nat) (vsc : Option Vsc) (s : State) : Res :=
  s.does fun s => s.dpSeal (a % 2) pix bad vsc

/-- DP_FRAME_ABANDONED (R217). -/
def execDpFrameAbandoned (a : Nat) (s : State) : Res := s.does fun s => s.dpAbandon (a % 2)

/-- DP_TIMING_CHANGE (R171, R172). -/
def execDpTimingChange (a : Nat) (t : DpTiming) (s : State) : Res := s.does fun s => s.dpTiming (a % 2) t

/-- DSC_PPS_REFUSED (R173). -/
def execDscPpsRefused (a : Nat) (s : State) : Res := s.does fun s => s.dscRefuse (a % 2)

/-- CONTENT_UNIT (R218, R219). -/
def execContentUnit (data : Bytes) (pix : Pixels) (s : State) : Res := s.does fun s => s.content data pix

/-- PICTURE_LATE (R219). -/
def execPictureLate (f : Nat) (s : State) : Res := s.does fun s => if f < 4 then s.pictureLate f else s

/-- NVME_EN_SET (R220, R221, R223). -/
def execNvmeEnSet (linkUp : Bool) (id : NvmeIdent) (s : State) : Res :=
  s.does fun s =>
    s.onWrite 0x09 fun s => if bit (s.reg R.INGEST_CTRL) 0 && s.sf.nvme.st != 0 then s else s.nvmeEnable linkUp id

/-- HFC_PUSH (R226). -/
def execHfcPush (v : Word) (s : State) : Res := s.does fun s => s.onStrobe fun s => s.hfcPush v

/-- Can a frame of the container be stored in source 6's surfaces?  Its components fit the field of the surface format (R200):
those of the parameter set, or of the container's FORMAT.  A container of another size, or raw tiles of another format, fit no
surface (log entry 243). -/
def Block.libraryFits (s : Block) (h : List Byte) : Bool :=
  let fmt := s.afld (R.INGEST_SRC_CFG 6) 1 4
  let u := s.surf ((s.srcSet 6).headD 0)
  field h 28 2 == u.width && field h 30 2 == u.height &&
    (if field h 32 1 = 0 then field h 33 1 == fmt else decide (ppsBpc ((h.drop 128).take 128) ≤ fmtField fmt))

/-- A frame read from the library is checked and written into the set of source 6 (R200, R210, R223, R224). -/
def Block.libraryFrame (s : Block) (i : Nat) (target : Word) (entry payload : Bytes) (pix : Pixels) : Block :=
  let h := s.sf.nvme.header
  let pps := (h.drop 128).take 128
  if w32 (crc32c (leBytes 4 i ++ payload)) ≠ w32 (field entry 8 4) then (s.lostFrame 6 none 4 target).bump R.HOLD_PLAY_ERR
  else if s.rateExcess 6 then s.lostFrame 6 none 8 target
  else if !s.libraryFits h then s.mismatch 6 target
  else match s.chooseSurf 6 (s.srcSet 6) with
    | none => s.lostFrame 6 none 7 target
    | some j =>
      (s.modSrc 6 fun q => { q with lastStart := some s.tm.ft }).writePic 6 j (s.src 6).hfcCfg (field h 32 1) (field h 28 2) target pps payload
        (field h 34 1 != 0) pix

/-- The Reads in hand have all come: the header is checked; the index entry says where the payload lies (Table 6.10); the frame is
written. -/
def Block.readsDone (s : Block) (pix : Pixels) : Block :=
  let v := s.sf.nvme
  if v.phase = 1 then (s.modNvme fun v => { v with phase := 0, buf := [] }).headerRead v.buf
  else match v.frame with
    | none => s
    | some (i, target) =>
      let clear (s : Block) : Block := s.modNvme fun v => { v with phase := 0, buf := [], frame := none }
      if v.phase = 2 then
        let e := (v.buf.drop (i % 256 * 16)).take 16
        let s := s.modNvme fun v => { v with entry := e }
        if field e 4 4 = 0 then (clear s).libraryFrame i target e [] pix
        else s.nvmeRead 3 (s.unitLba (field e 0 4)) (cdiv (field e 4 4) (max 1 v.block))
      else (clear s).libraryFrame i target v.entry (v.buf.take (field v.entry 4 4)) pix

/-- A Read has failed twice (R222): the frame has not arrived; without the container header the reader is in ERROR (log entry 206). -/
def Block.readsFailed (s : Block) (status : Nat) : Block :=
  let phase := s.sf.nvme.phase
  let s := (s.modNvme fun v => { v with phase := 0, reads := [], buf := [], frame := none }).bump R.INGEST_NVME_ERR
  if phase = 1 then s.nvmeGoto 4 status else s.bump R.HOLD_PLAY_ERR

/-- NVME_READ_DONE (R222, R224): the oldest Read in hand ends with a status, 0 for success, and its data; one that fails, or does
not complete within 100 ms, is issued once more. -/
def execNvmeReadDone (status : Nat) (data : Bytes) (pix : Pixels) (s : State) : Res :=
  s.does fun s =>
    match s.sf.nvme.reads with
  | [] => s
  | r :: l =>
    if status = 0 then
      let s := s.modNvme fun v => { v with reads := l, buf := v.buf ++ padBytes (r.blocks * v.block) data }
      let s := ((l.drop (nvmeDepth - 1)).take 1).foldl Block.emitRead s
      if l.isEmpty then s.readsDone pix else s
    else if r.tried then s.readsFailed status
    else (s.modNvme fun v => { v with reads := { r with tried := true } :: l }).emitRead r

end Sys2Proof.Machine
end

