-- ==== Sys2Proof/Machine/Commit.lean ====
section
/-!
DEFINITION. The frame-aligned commit (R64 to R79, R98, R99, R143, R671): arrival and withdrawal, the cutoff, application at the
boundaries, and dark transitions.
-/
namespace Sys2Proof.Machine

/-! ## Status (Table 2.5) -/

/-- The commit that is pending. -/
def Block.pendingCommit (s : Block) : Option Commit := s.cm.list.find? fun c => c.stage == .pending

/-- The newest latched commit that meets a test. -/
def Block.latchedCommit (s : Block) (f : Commit → Bool) : Option Commit := s.cm.list.reverse.find? fun c => c.stage != .pending && f c

/-- COMMIT_STATUS for the commits that meet a test: a page's, or the group commits (R99). -/
def Block.commitStatus (s : Block) (f : Commit → Bool) : Word :=
  let p := match s.pendingCommit with | some c => if f c then some c else none | none => none
  let l := s.latchedCommit f
  let d := match p with | some c => some c | none => l
  match d with
  | none => 0
  | some c => w32 (p.isSome.toNat + 2 * c.late.toNat + 4 * l.isSome.toNat + (match l with | some x => 8 * x.waitSeal.toNat | none => 0) +
      16 * c.merged.toNat + 256 * (c.target.toNat % 16777216))

/-- COMMIT.COMMIT_REQ reads 1 until the commit has applied or been rejected (Table 2.4). -/
def Block.commitReq (s : Block) (f : Commit → Bool) : Word := if s.cm.list.any f then 1 else 0

/-- The pages of a mask, in order. -/
def maskPages (m : Nat) : List Nat := (List.range 64).filter (natBit m)

/-- The page that a commit's events name: 0 for a group. -/
def Commit.pageField (c : Commit) : Nat := if c.group then 0 else (maskPages c.pages).headD 0

/-- COMMIT_APPLIED, COMMIT_REJECTED or COMMIT_LATE (Table 3.19). -/
def Block.commitEvent (s : Block) (ty : Nat) (c : Commit) (cause page : Nat) : Block :=
  s.post c.pageField ty [w32 c.arrival, w32 (c.arrival / 0x100000000),
    w32 (c.pageField + 64 * c.group.toNat + 128 * c.late.toNat + 256 * c.merged.toNat + 65536 * cause + 16777216 * page)]

/-! ## Latching and rejection (R70 to R73) -/

/-- Nothing of a commit applies (R70): every page of it, and the page that fails, report it. -/
def Block.reject (s : Block) (c : Commit) (f : Fail) : Block :=
  let (d, s) := s.failDetail f
  let info := w32 (f.cause + 256 * f.page + 65536 * d)
  let pages := (maskPages c.pages ++ [f.page]).eraseDups.filter fun p => decide (p < 0x2D)
  let s := pages.foldl (fun s p => (s.errCause p 0).setReg (R.ERR_INFO p) info) s
  let s := s.setReg R.DEV_ERR_CAUSE (w32 (f.cause + 256 * f.page + 16384 * c.group.toNat + 2147483648))
  (s.cuesRejected c.cues (s.fsnNext + 1)).commitEvent 1 c f.cause f.page

/-- Does a commit name a surface that is not sealed (R73)? -/
def Block.unsealed (s : Block) (vals : List (Nat × Word)) (pages : Nat) : Bool :=
  natBit pages 0x08 && bits (sget regDflt vals R.STORE_FRAME_CFG) 0 2 == 0 &&
    (s.surf (bits (sget regDflt vals R.STORE_FRAME_SURF) 0 6)).st != .sealed

/-- A commit moves on to the next FB (R73). -/
def Block.waitSeal (s : Block) (c : Commit) : Block × Commit :=
  let was := c.late
  let c := { c with skip := 1, late := true, waitSeal := true, target := c.target + 1 }
  (if was then s else s.commitEvent 2 c 0 0, c)

/-- The pending commit is latched and validated whole (R70, R71).  Whether it is major is judged here, so an FT step that falls due after
its cutoff leaves it minor (R76; log entry 174).  The phase table and the row map that were checked go with it as the shadow copies
(R334). -/
def Block.latch (s : Block) (c : Commit) : Block :=
  let vals := s.shadowVals c.pages
  let s : Block := { s with cm := { s.cm with list := s.cm.list.filter fun x => x.stage != .pending } }
  let v := s.view c.pages vals
  let s := if calPages c.pages then s.valTime else s
  match s.validate c.pages vals with
  | some f =>
    let s := if f.cause = 4 then (match s.firstDenied c.pages v with | some d => s.denyClaim d | none => s) else s
    s.reject c f
  | none =>
    let c := { c with stage := .latched, vals := vals, major := isMajor s.inForce v || s.tm.stepDue != 0,
                      ptab := if natBit c.pages 0x14 then s.ptabOf v else [], rowmap := if natBit c.pages 0x13 then s.rowMapOf v else [] }
    let s : Block := if natBit c.pages 0x08 || natBit c.pages 0x09 then
        { s with sf := { s.sf with lastLoad := shareOf v (s.spIn v) (s.pairLoad v s.dc.warpSpill 8) } } else s
    let (s, c) := if s.unsealed vals c.pages then s.waitSeal c else (s, c)
    { s with cm := { s.cm with list := s.cm.list ++ [c] } }

/-- The commits that wait for a seal are tested again (R73). -/
def Block.retest (s : Block) : Block :=
  s.cm.list.foldl (fun s c =>
    if c.stage == .latched && c.waitSeal && c.skip == 0 && s.unsealed c.vals c.pages then
      let (s, d) := s.waitSeal c
      { s with cm := { s.cm with list := s.cm.list.map fun x => if x == c then d else x } }
    else s) s

/-- What the controller does at a cutoff for the frame to come: the bucks rise to their targets (R361). -/
def Block.cutoffReads (s : Block) : Block := if s.pw.state.lightOn then s.raiseBucks else s

/-- The cutoff for FB_k (R53, R70). -/
def Block.cutoff (s : Block) : Block :=
  if s.tm.cutoffDone || !s.tm.run then s
  else
    let s := (s.advanceTo s.nextCutoff).retest
    let s := match s.pendingCommit with
      | some c => if c.skip = 0 then s.latch c else s
      | none => s
    let s : Block := { s with tm := { s.tm with cutoffDone := true } }
    s.cutoffReads

def execCommitCutoff (s : State) : Res := s.does fun s => s.cutoff

/-! ## Arrival and withdrawal (R66 to R69, R72, R98) -/

/-- Every page that can be part of a commit, as a mask. -/
def commitPages (m : Nat) : Nat := bitsMask (shPages.filter (natBit m))

/-- A commit arrives (R67 to R69). -/
def Block.commitIn (s : Block) (pages : Nat) (group : Bool) (cues : List Nat) : Block :=
  if pages = 0 then s
  else
    let s := if s.tm.run && decide (s.nextCutoff < s.tm.ft) then s.cutoff else s
    let late := s.tm.cutoffDone
    let (c, was) := match s.pendingCommit with
      | some p => ({ p with pages := p.pages ||| pages, group := p.group || group, arrival := s.tm.ft, late := p.late || late, merged := true,
                            cues := p.cues ++ cues }, p.late)
      | none => ({ pages := pages, group := group, page := 0, arrival := s.tm.ft, skip := late.toNat, late := late, merged := false,
                   waitSeal := false, cues := cues, stage := .pending, target := s.tm.fsn + (if late then 3 else 2), major := false, vals := [] },
                 false)
    let s : Block := { s with cm := { s.cm with list := (s.cm.list.filter fun x => x.stage != .pending) ++ [c] } }
    let s := s.setRegs
      [(R.TIME_LAST_COMMIT_FT_LO, w32 c.arrival), (R.TIME_LAST_COMMIT_FT_HI, w32 (c.arrival / 0x100000000)),
       (R.TIME_LAST_COMMIT_INFO, w32 ((if group then 0 else (maskPages pages).headD 0) + 64 * c.late.toNat + 128 * c.merged.toNat +
         256 * (c.target.toNat % 16777216)))]
    if c.late && !was then s.commitEvent 2 c 0 0 else s

/-- The commits of some pages are withdrawn before they are latched, or ABORT_LATE is set (R72). -/
def Block.withdraw (s : Block) (pages : Nat) (group : Bool) : Block :=
  let hit : Nat := match s.pendingCommit with | some c => if c.pages &&& pages = 0 then 0 else c.pages | none => 0
  let s : Block := if hit = 0 then s else { s with cm := { s.cm with list := s.cm.list.filter fun x => x.stage != .pending } }
  let late := (maskPages pages).filter fun p => !natBit hit p && s.cm.list.any fun c => natBit c.pages p
  let s := late.foldl (fun s p => s.errCause p 1) s
  if group && late != [] then s.errCause 0 1 else s

/-- PAGE_COMMIT_REQ (R66); `abort` where the same write sets COMMIT_ABORT (R72). -/
def execPageCommitReq (p : Nat) (abort : Bool) (s : State) : Res :=
  s.does fun s =>
    s.onStrobe fun s =>
    if shPages.contains p then (if abort then s.withdraw (2 ^ p) false else s).commitIn (2 ^ p) false [] else s

/-- PAGE_COMMIT_ABORT (R72). -/
def execPageCommitAbort (p : Nat) (s : State) : Res :=
  s.does fun s => s.onStrobe fun s => if shPages.contains p then s.withdraw (2 ^ p) false else s

/-- The masked pages that hold SH registers, as sampled (R98). -/
def Block.groupMask (s : Block) : Nat := commitPages ((s.reg R.DEV_COMMIT_MASK0).toNat + 0x100000000 * (s.reg R.DEV_COMMIT_MASK1).toNat)

/-- DEV_COMMIT_REQ (R66, R98); `abort` where the same write sets COMMIT_ABORT. -/
def execDevCommitReq (abort : Bool) (s : State) : Res :=
  s.does fun s => s.onStrobe fun s => (if abort then s.withdraw s.groupMask true else s).commitIn s.groupMask true []

/-- DEV_COMMIT_ABORT (R72). -/
def execDevCommitAbort (s : State) : Res := s.does fun s => s.onStrobe fun s => s.withdraw s.groupMask true

/-! ## Application (R64, R65, R75) -/

/-- HOLD_PLAY_SET. -/
def playSet (v : Nat → Word) : List Nat :=
  [bits (v R.HOLD_PLAY_SET) 0 6, bits (v R.HOLD_PLAY_SET) 8 6, bits (v R.HOLD_PLAY_SET) 16 6].eraseDups

/-- The surfaces that the applied configuration of a page names: STORE's FIXED surface, the sets of INGEST's enabled sources, the
player's set. -/
def Block.namedBy (s : Block) (p : Nat) : List Nat :=
  if p = 0x08 then (if s.afld R.STORE_FRAME_CFG 0 2 = 0 then [s.afld R.STORE_FRAME_SURF 0 6] else [])
  else if p = 0x09 then ((List.range 8).filter fun n => s.abit (R.INGEST_SRC_CFG n) 0).flatMap s.srcSet
  else if p = 0x28 then playSet s.act else []

/-- A commit that applies captures the translations of the surfaces it names again (R205, R197); one that is no longer wholly
mapped keeps those it has (log entry 210). -/
def Block.recapture (s : Block) (pages : Nat) : Block :=
  (([0x08, 0x09, 0x28].filter (natBit pages)).flatMap s.namedBy).foldl (fun s i =>
    if (s.surf i).st == .undefd then s
    else match s.surfPages (s.surf i) with
      | some (a, b) => s.modSurf i fun u => { u with pages := a, hdrPages := b }
      | none => s) s

/-- What the source-side blocks do as their active copies change. -/
def Block.sourceApplied (s : Block) (old : Nat → Word) (pages : Nat) : Block :=
  let s := ((s.tablesApply pages).mapsApply pages).recapture (pages &&& 0x100)
  (List.range 4).foldl (fun s p => if buckEn old p && !buckEn s.act p then s.modPort p Port.freeSets else s) s

/-- The phase table and the row map that a commit brings become active with its page (R334). -/
def Block.tablesTaken (s : Block) (c : Commit) : Block :=
  { s with sc := { s.sc with ptab := if natBit c.pages 0x14 then c.ptab else s.sc.ptab,
                             rowmap := if natBit c.pages 0x13 then c.rowmap else s.sc.rowmap } }

/-- Highline's and the fast axis's part in a commit (R326). -/
def Block.scanApplied (s : Block) (old : Nat → Word) (pages : Nat) : Block :=
  let s := if natBit pages 0x12 && (s.sc.st == 5) && [R.HSF_AMP_SET, R.HSF_DRV_PHASE, R.HSF_PHASE_TRIM].any (differs old s.act) then
      s.modSc fun c => { c with trim := true, okRun := 0, okCross := 0 } else s
  let s := if natBit pages 0x12 && differs old s.act R.HSF_AMP_SET then s.modSc fun c => { c with ampFrom := c.ampRef, ampAt := s.now } else s
  let s := if !s.hsfOn && s.sc.st != 0 then (s.beamOff.modSc fun c => { c with phaseValid := false }).hsfGoto 0 else s
  let s := if !s.abit R.HSS_CFG 0 && s.sc.hst != 0 then s.modSc fun c => { c with hst := 0 } else s
  if !s.abit R.HSB_BEAM_CFG 0 && s.sc.beamOn then s.beamOff else s

/-- The members, the P-I images and the chains of a commit (R197, R360, R370). -/
def Block.lightApplied (s : Block) (old : Nat → Word) (pages : Nat) : Block :=
  let s : Block := if natBit pages 0x15 then { s with ls := { s.ls with piPages := s.piCapture } } else s
  let s : Block := if natBit pages 0x15 && bit (s.act R.LSG_CFG) 8 then
      { s with ls := { s.ls with piImage := 1 - s.ls.piImage, piValid := false } } else s
  let s := (List.range 4).foldl (fun s c =>
    if bit (old R.CHAIN_CFG) c && !s.abit R.CHAIN_CFG c && (s.chn c).st != 0 then s.chnGoto c 0 else s) s
  let s := (List.range 5).foldl (fun s g => if (s.grp g).lit && !s.abit R.LSG_CFG g then s.darkenGroup g else s) s
  if [0x15, 0x16, 0x17, 0x18].any (natBit pages) then s.refreshMembers else s

/-- The sources of ingest as their EN stands. -/
def Block.ingestApplied (s : Block) : Block :=
  (List.range 8).foldl (fun s n =>
    s.modSrc n fun q =>
      if bit (s.act (R.INGEST_SRC_CFG n)) 0 then (if q.st = 0 then { q with st := 1 } else q) else { q with st := 0 }) s

/-- What the other blocks do as their active copies change at a display-side boundary. -/
def Block.displayApplied (s : Block) (old : Nat → Word) (oldSp : Nat) (pages : Nat) : Block :=
  let s := if natBit pages 0x2A then s.tallyRestart fun n => old (win 0x2A n) else s
  let s := if natBit pages 0x1C && (differs old s.act R.THERM_DIE_THR || differs old s.act R.THERM_LASER_THR) then s.thermApplied else s
  let s := (if natBit pages 0x09 then s.ingestApplied else s).recapture (pages &&& 0x10000000200)
  let s : Block := if natBit pages 0x28 then
      { s with ho := { s.ho with ringPages := s.capture (addr21 s.act R.HOLD_RING_BASE_LO R.HOLD_RING_BASE_HI)
                                                (s.afld R.HOLD_RING_SIZE 0 11 * 2097152) 10 } } else s
  let s := (s.scanApplied old pages).lightApplied old pages
  let s := (List.range 4).foldl (fun s p => if natBit pages (0x0E + p) then s.portEn p else s) s
  let s := if natBit pages 0x1D then s.guestGrants old else s
  let s := if natBit pages 0x1D && s.spIn s.act != oldSp then s.changeDue 0 else s
  let s := if natBit pages 0x1E then (List.range 12).foldl Block.pairService s else s
  let s := if [0x21, 0x22, 0x23, 0x24, 0x25].any (natBit pages) then s.fabricApply else s
  let s := if [0x09, 0x21, 0x22, 0x23, 0x24, 0x25].any (natBit pages) then s.lsaFollows else s
  s.updateOwners

/-- The series FB'_i of the values in force starts at the boundary that has just fallen (R77 step 2).  A dark transition that is still in
progress keeps the instant of its end, as the first boundary of the new series not before it. -/
def Block.newSeries (s : Block) : Block :=
  let per := periodOf s.act
  let epoch := (s.act R.TIME_EPOCH_OFFSET_HI).toNat * 0x100000000 + (s.act R.TIME_EPOCH_OFFSET_LO).toNat
  if per = (s.tm.num, s.tm.den) && epoch = s.tm.epoch then s
  else
    let ends := s.tm.dark.map fun d => s.fbAt d.litK
    let s : Block := { s with tm := { s.tm with num := per.1, den := per.2, epoch := epoch } }
    let i := s.indexAt s.tm.lastFb
    let next := if s.fbAt i = s.tm.lastFb then i + 1 else i
    { s with tm := { s.tm with curK := next - 1, nextK := next,
                               dark := s.tm.dark.mapIdx fun n d => { d with litK := s.indexAt (ends.getD n 0) } } }

/-- An FT step that waited for the first FB of its dark transition (R44, R670): FT moves on, and where it passes over the transition's
first lit frame, the first boundary after it is that frame. -/
def Block.stepAtFb (s : Block) : Block :=
  if s.tm.stepDue = 0 then s
  else
    let s := s.stepFt s.tm.stepDue
    { s with tm := { s.tm with stepDue := 0, dark := s.tm.dark.map fun x => { x with litK := max s.tm.nextK x.litK } } }

/-- A light group that goes dark: a soft start in progress is broken off, and R79 starts it again. -/
def Block.darkGroup (s : Block) (g : Nat) : Block := s.modGrp g fun k => { k with softAt := none, level := if k.softAt.isSome then 0 else k.level }

/-- The dark transition (R77) at the boundary that has just fallen: `old` are the values before it, `all` where every group is affected
(an FT step, a soft reset of TIME); with it comes the index of the first lit frame.  Each transition keeps its own groups and first
lit frame, so darkness that overlaps lasts to the last of them (R78).  In STANDBY only the boundaries and the FSN take part (R671;
log entry 176). -/
def Block.transition (s : Block) (old : Nat → Word) (all : Bool) : Block × Nat :=
  let ports := if all then List.range 4 else majorPorts old s.act
  let groups := if all then 31 else majorGroups old s.act
  let m := if ports.any fun p => maRate s.act p != maRate old p then 2 else 1
  let s := s.newSeries
  let lit := s.indexAt s.tm.lastFb + m
  let d : Dark := { groups := groups, ports := bitsMask ports, litK := lit, planned := s.tm.stepDue == 0 }
  let s : Block := { s with cu := { s.cu with fetched := [], fetchK := 0, firedK := 0 } }
  if s.pw.state == .standby then (s.stepAtFb, lit)
  else
    let s : Block := { s with tm := { s.tm with dark := s.tm.dark ++ [d] } }
    let s := ports.foldl (fun s p => s.modPort p Port.freeSets) s
    let s := ports.foldl (fun s p => if maEn s.act p && maEn old p then s.darkPort p (maRate old p) (maMode old p) else s) s
    let s := (maskBits 5 groups).foldl Block.darkGroup s
    ((if natBit groups 4 then s.beamLow else s).stepAtFb, lit)

/-- A commit has applied (R75): APPLIED_SEQ takes the FSN of its target frame, which is the frame that begins, or for a major commit the
first lit frame of its transition (R77), whose index `lit` is; for a source side taken in the fallback, the frame after, in which it first
appears (R258, R259). -/
def Block.commitDone (lit : Nat) (s : Block) (c : Commit) : Block :=
  let f := if c.major then s.tm.fsn + w32 (max s.tm.nextK lit + 1 - s.tm.nextK)
    else if s.pp.fallback && sourcePages c.pages then s.tm.fsn + 1 else s.tm.fsn
  let s := s.setRegs ((maskPages c.pages).map fun p => (R.APPLIED_SEQ p, f))
  let s := if c.group then s.setReg R.DEV_APPLIED_SEQ f else s
  (s.commitEvent 0 c 0 0).cuesApplied c.cues

/-- A later commit that passes in full makes a port usable whose bring-up validation failed, also where that commit is major and the port is
DARK (R672). -/
def Block.makeUsable (s : Block) : Block :=
  let up (q : Port) : Bool := q.st == 4 || q.st == 6
  if ((List.range 4).any fun p => up (s.port p) && !(s.port p).usable && maEn s.act p) && s.validateActive.isNone then
    (List.range 4).foldl (fun s p => s.modPort p fun q => if up q && maEn s.act p then { q with usable := true } else q) s
  else s

/-- The commits of the boundary that falls: the display side of those sourced, major ones whole, then the source side of the others
(R64, R65, R75, R77).  The change that a soft reset of TIME left for this FB is made as a major commit's is, but posts no COMMIT_APPLIED and
writes no APPLIED_SEQ, since no commit was made (R671; log entry 235). -/
def Block.commitFb (s : Block) : Block :=
  let old := s.act
  let oldSp := s.spIn s.act
  let due := s.cm.list.filter fun c => c.display && !s.holds c
  let src := s.cm.list.filter fun c => c.source && !s.holds c
  let list := s.cm.list.filterMap fun c =>
    if c.display && !s.holds c then none
    else if c.source && !s.holds c then some { c with stage := .sourced }
    else if s.holds c then some { c with target := c.target + 1 }
    else some { c with skip := c.skip - 1 }
  let all := s.tm.resetMajor || s.tm.stepDue != 0
  let s : Block := { s with cm := { s.cm with list := list } }
  let s := due.foldl (fun s c => s.applyVals (fun a => c.major || !sourceSide a) c.pages c.vals) s
  let s := src.foldl (fun s c => s.applyVals sourceSide c.pages c.vals) s
  let srcMask := (src ++ due.filter fun c => c.major).foldl (fun m c => m ||| c.pages) 0
  let dueMask := due.foldl (fun m c => m ||| c.pages) 0
  let s := s.sourceApplied old srcMask
  let s := if due = [] then s else (due.foldl Block.tablesTaken s).displayApplied old oldSp dueMask
  let (s, lit) := if all || (due.any fun c => c.major) then s.transition old all else (s, 0)
  let s : Block := { s with tm := { s.tm with resetMajor := false } }
  let s := due.foldl (Block.commitDone lit) s
  if due = [] then s else s.makeUsable

end Sys2Proof.Machine
end

