-- ==== Sys2Proof/Machine/Hold.lean ====
section
/-!
DEFINITION. Holdover (R591 to R601, R605): the stall of the watched source, the ring and its player, the local library, and rejoin;
and the changes of FROST_HOLD (R125, R174, R314).
-/
namespace Sys2Proof.Machine

/-! ## FROST_HOLD (R125) -/

/-- Holdover changes. -/
def Block.modHo (s : Block) (f : HoldState → HoldState) : Block := { s with ho := f s.ho }

/-- The device enters FROST_HOLD at an FB, `us` after what asked for it: only from LIT; CP8 and CP9 go into self-refresh. -/
def Block.enterFrost (s : Block) (reason us : Nat) : Block :=
  if s.pw.state = .lit then ((s.goto .frostHold reason us).selfRefresh 8).selfRefresh 9 else s

/-- Thaw at an FB, `us` after what asked for it. -/
def Block.thaw (s : Block) (us : Nat := 0) : Block :=
  if s.pw.state = .frostHold then
    (((s.goto .lit 0x0E us).leaveRefresh 8).leaveRefresh 9).modHo fun h => { h with thawPorts := 15 }
  else s

/-! ## Configuration and the watched source -/

/-- HOLD_CFG fields in force. -/
def Block.holdPolicy (s : Block) : Nat := s.afld R.HOLD_CFG 0 2
def Block.holdStall (s : Block) : Nat := s.afld R.HOLD_CFG 4 4
def Block.holdResume (s : Block) : Nat := s.afld R.HOLD_CFG 8 4

/-- The watched source (R591). -/
def Block.watchedNow (s : Block) : Option Nat := if s.selMode = 0 then none else some s.selSource

/-- The sealed surface of a source with the newest seal stamp, and that stamp. -/
def Block.newestSeal (s : Block) (n : Nat) : Option (Nat × Nat) :=
  (s.newestOf ((setOf s.act n).filter fun i => (s.surf i).st == .sealed)).map fun i => (i, (s.surf i).sealFt)

/-- Has the watched source sealed a surface since the last PB that counted? -/
def Block.newSeal (s : Block) (n : Nat) : Bool :=
  match s.newestSeal n, s.ho.mark with
  | some a, some b => decide (b.2 < a.2)
  | some _, none => true
  | none, _ => false

/-! ## The ring (R595, R596) -/

/-- HOLD_SLOT_SIZE in bytes. -/
def slotBytes (v : Nat → Word) : Nat := bits (v R.HOLD_SLOT_SIZE) 0 11 * 2097152

/-- The complete slots from oldest to newest. -/
def Block.ringOrder (s : Block) : List (Nat × RingSlot) :=
  s.ho.slots.foldl (fun l e => (l.filter fun x => newer (w32 e.2.w) (w32 x.2.w)) ++ [e] ++ l.filter fun x => !newer (w32 e.2.w) (w32 x.2.w)) []

/-- Bytes are written at an offset in a slot of the ring: segment 0 at a device virtual address, the others in guest regions. -/
def Block.slotWrite (s : Block) (k off : Nat) (bs : List Byte) : Block :=
  let regs := maskBits 8 (s.afld R.HOLD_CFG 16 8)
  let n := regs.length + 1
  let at_ := k / n * slotBytes s.act + off
  if k % n = 0 then s.setCap s.ho.ringPages at_ bs
  else s.setMem ((regionOf s.act (regs.getD (k % n - 1) 0)).base + at_) bs

/-- Bytes of a slot of the ring. -/
def Block.slotBytesAt (s : Block) (k off n : Nat) : List Byte :=
  let regs := maskBits 8 (s.afld R.HOLD_CFG 16 8)
  let m := regs.length + 1
  let at_ := k / m * slotBytes s.act + off
  if k % m = 0 then leBytes n (s.capNat s.ho.ringPages at_ n)
  else s.memBytes ((regionOf s.act (regs.getD (k % m - 1) 0)).base + at_) n

/-- A slot's header (Table 18.9). -/
def slotHeader (st : Nat) (r : RingSlot) (crc : Nat) (u : Surface) (pps : List Byte) : List Byte :=
  padBytes 4096 (leBytes 4 st ++ leBytes 4 r.tag.toNat ++ leBytes 8 r.sealFt ++ leBytes 4 r.len ++ leBytes 4 crc ++ leBytes 4 r.w ++
    leBytes 2 u.width ++ leBytes 2 u.height ++ leBytes 1 u.format ++ List.replicate 95 0 ++ padBytes 128 pps)

/-- Does a source deliver pictures the ring records (R596): DP with DSC on, or a fabric source's KIND 1 units? -/
def Block.dscSource (s : Block) (n : Nat) : Bool := if n < 2 then bit (s.reg (R.HOST_DP_STATUS n)) 9 else decide (n < 6)

/-- Does the ring record, and from which source (R596): REC_EN, no holdover in force, slots to write, and a source with DSC? -/
def Block.recording (s : Block) : Option Nat :=
  if !s.abit R.HOLD_CFG 2 || s.ho.inForce || ringSlots s.act == 0 then none else s.watchedNow.filter s.dscSource

/-- RING_RECORD (R596): a DSC-coded picture of the watched source, and whether its surface sealed: then the source's newest seal is
its own, which no slot holds yet. -/
def Block.ringRecord (s : Block) (coded pps : List Byte) (done : Bool) : Block :=
  let n := ringSlots s.act
  match s.recording with
  | none => s
  | some src =>
    if slotBytes s.act < 4096 + coded.length then (s.bump R.HOLD_REC_DROP).postTally 0x1F4 0
    else
      let k := s.ho.w % n
      let s := s.modHo fun h => { h with slots := adel h.slots k }
      let s := (s.slotWrite k 0 (leBytes 4 1)).slotWrite k 4096 coded
      match s.newestSeal src with
      | none => s.slotWrite k 0 (leBytes 4 0)
      | some (i, t) =>
        if !done || s.ho.slots.any (fun e => e.2.sealFt == t) then s.slotWrite k 0 (leBytes 4 0)
        else
          let r : RingSlot := { tag := (s.surf i).tag, sealFt := t, len := coded.length, w := s.ho.w }
          let s := s.slotWrite k 0 (slotHeader 2 r (crc32c (leBytes 4 r.tag.toNat ++ coded)) (s.surf i) pps)
          s.modHo fun h => { h with slots := aput h.slots k r, w := (h.w + 1) % 0x100000000 }

def execRingRecord (coded pps : Bytes) (done : Bool) (s : State) : Res := s.does fun s => s.ringRecord coded pps done

/-- CLEAR_RING (Table 18.13). -/
def Block.clearRing (s : Block) : Block :=
  if s.ho.inForce then s
  else (s.ho.slots.foldl (fun s e => s.slotWrite e.1 0 (leBytes 4 0)) s).modHo fun h => { h with slots := [] }

def execClearRing (s : State) : Res := s.does fun s => s.onStrobe Block.clearRing

/-! ## The ring player (R598, R600) -/

/-- The start of a picture of a pass. -/
def Block.playAt (s : Block) (p : Player) : Nat :=
  let l := s.ringOrder
  let s0 := match l with | e :: _ => e.2.sealFt | [] => 0
  let sm := match l.getLast? with | some e => e.2.sealFt | none => 0
  let sj := match l[p.j]? with | some e => e.2.sealFt | none => 0
  p.q + p.pass * ((sm - s0) * l.length / max 1 (l.length - 1)) + (sj - s0)

/-- The picture after this one. -/
def Block.playNext (s : Block) (p : Player) : Player :=
  if p.j + 1 < s.ho.slots.length then { p with j := p.j + 1 } else { p with pass := p.pass + 1, j := 0 }

/-- The surface the player writes next: the oldest that is CLOSED, or SEALED but neither the newest nor HELD (as R212). -/
def Block.playSurface (s : Block) : Option Nat :=
  let set := playSet s.act
  let new := s.newestOf (set.filter fun i => (s.surf i).st == .sealed)
  match set.filter fun i => (s.surf i).st == .closed || ((s.surf i).st == .sealed && new != some i && !s.surfHeld i) with
  | [] => none
  | i :: l => some (l.foldl (fun a b => if (s.surf b).sealFt < (s.surf a).sealFt then b else a) i)

/-- Does the player go on: prepared, and the watched source has not sealed since? -/
def Block.playing (s : Block) : Option Player :=
  match s.ho.player, s.ho.watched with
  | some p, some n => if s.ho.stopped || s.newSeal n then none else some p
  | some p, none => if s.ho.stopped then none else some p
  | none, _ => none

/-- RING_PLAYER_DECODE: the next picture in turn; `pix` are its pixels as decoded.  A compressed frame that would break its unit
budget is not sealed, and SURF_UNSEALED names the cause CMP_OVER and the watched source, as SURF_SEALED does (R204; log entry
244). -/
def Block.playDecode (s : Block) (pix : Pixels) : Block :=
  match s.playing with
  | none => s
  | some p =>
    match s.ringOrder[p.j]? with
    | none => s
    | some (k, r) =>
      let s := s.advanceTo (s.playAt p)
      let nxt := s.playNext p
      let data := s.slotBytesAt k 4096 r.len
      let s := s.modHo fun h => { h with player := some nxt, pos := k }
      if crc32c (leBytes 4 r.tag.toNat ++ data) ≠ leNat (s.slotBytesAt k 20 4) then s.bump R.HOLD_PLAY_ERR
      else match s.playSurface with
        | none => s
        | some i =>
          let pps := s.slotBytesAt k 128 128
          if (dscFault 1 (s.surf i).format pps).isSome then s else
          let s := s.modSurf i Surface.opened
          let s := s.storeRaster i (ppsBpc pps) 0 (s.surf i).width ((s.surf i).enc != 0) pix
          let (s, ok) := s.compress i
          if ok then s.sealSurf i (s.ho.watched.getD 0) r.tag
          else (((s.bump R.STORE_CMP_OVER).modSurf i fun u => { u with st := .closed, image := [] }).bump R.STORE_UNSEALED).post 0x08 0x041
            [w32 (i + 256 * s.ho.watched.getD 0 + 65536), r.tag]

def execRingPlayerDecode (pix : Pixels) (s : State) : Res := s.does fun s => s.playDecode pix

/-! ## The local library (R599, R605) -/

/-- A of R599, and whether it has ever been mapped. -/
def Block.anchorNow (s : Block) : Nat × Bool :=
  let h := s.sf.nvme.header
  if field h 35 1 = 1 then (field h 40 8, true)
  else if s.tm.tcValid then (s.tcFtOf (tcCount (s.fld R.TIME_TC_CFG 0 2) (w32 (field h 40 4))), true)
  else (s.ho.anchor, s.ho.mapped)

/-- A is remapped. -/
def Block.remap (s : Block) : Block :=
  if s.sf.nvme.st = 3 then
    let a := s.anchorNow
    s.modHo fun h => { h with anchor := a.1, mapped := a.2 }
  else s

/-- Does the reader run: prepared by holdover, or with PREROLL? -/
def Block.libraryOn (s : Block) : Bool := s.ho.lib || (s.abit R.HOLD_CFG 3 && s.holdPolicy == 3)

/-- Can PLAY_LOCAL run (R594)? -/
def Block.libraryReady (s : Block) : Bool := s.srcOn 6 && s.sf.nvme.st == 3 && s.ho.mapped

/-- The frame of the container for an index that may lie outside it (R599). -/
def Block.libraryIndex (s : Block) (i : Int) : Nat :=
  let n := field s.sf.nvme.header 8 4
  if s.abit R.HOLD_CFG 14 then (clampI 0 ((n : Int) - 1) i).toNat else (i % (max 1 n : Nat)).toNat

/-- LIBRARY_READ: the reader asks for the frame LEAD frames ahead; its index entry is read first. -/
def Block.libraryRead (s : Block) : Block :=
  let s := s.remap
  if !s.libraryOn || s.sf.nvme.st != 3 || !s.srcOn 6 || s.sf.nvme.frame.isSome || !s.tm.run then s
  else
    let h := s.sf.nvme.header
    let m := s.tm.nextK + s.afld R.HOLD_CFG 12 2
    let i := s.libraryIndex ((((s.fbAt m : Nat) : Int) - s.ho.anchor) * field h 24 4 / (max 1 (field h 16 8) : Nat))
    let s := s.modNvme fun v => { v with frame := some (i, s.tm.fsn + w32 (m - s.tm.curK)) }
    let hfc := s.hfcNow 6
    ((s.modHo fun h => { h with pos := i }).modSrc 6 fun q => { q with hfcCfg := hfc }).readUnit 2 (field h 12 4 + i / 256)

def execLibraryRead (s : State) : Res := s.does fun s => s.libraryRead

/-- The frames of a VERIFY that fail: the index entry and payload of each frame as read, from `i` on (R223). -/
def verifyFailed (i : Nat) : List (Bytes × Bytes) → Nat
  | [] => 0
  | (e, p) :: l => (if crc32c (leBytes 4 i ++ p) = field e 8 4 && p.length = field e 4 4 then 0 else 1) + verifyFailed (i + 1) l

/-- The Reads of the second queue pair for one frame of a VERIFY (R220): its index unit, and its payload as its index entry says. -/
def Block.verifyReads (s : Block) (i : Nat) (e : Bytes) : Block :=
  let v := s.sf.nvme
  (v.split (s.unitLba (field v.header 12 4 + i / 256)) (4096 / max 1 v.block) ++
    v.split (s.unitLba (field e 0 4)) (cdiv (field e 4 4) (max 1 v.block))).foldl Block.emitRead s

/-- HOLD_CTRL VERIFY (R605): `reads` are the frames as the second queue pair returns them; a frame missing there has failed. -/
def Block.holdVerify (s : Block) (c : Cmd) (reads : List (Bytes × Bytes)) : Block :=
  let total := field s.sf.nvme.header 8 4
  let first := c.par 20 4
  let n := if c.par 24 4 = 0 then total - first else c.par 24 4
  if c.par 16 1 ≠ 1 then s.complete c.cseq 2
  else if s.sf.nvme.st ≠ 3 then s.complete c.cseq 0x8000
  else if total ≤ first || total < first + n then s.complete c.cseq 2
  else
    let failed := verifyFailed first (reads.take n) + (n - reads.length)
    let s := (((reads.take n).map (·.1)).mapIdx fun k e => (first + k, e)).foldl (fun (s : Block) x => s.verifyReads x.1 x.2) s
    let s := s.postI 0x28 0x1F3 0 (pageInst 0x28) true [c.cseq, w32 n, w32 failed]
    s.complete c.cseq 0

def execHoldCtrlVerify (cseq : Word) (reads : List (Bytes × Bytes)) (s : State) : Res :=
  s.does fun s =>
    match s.startable cseq 0x0D with
    | some c => s.holdVerify c reads
    | none => s

/-! ## Holdover at a PB (R591 to R594, R600, R601) -/

/-- The policy that can run, and whether FREEZE stands in for it (R594). -/
def Block.policyRun (s : Block) : Nat × Bool :=
  match s.holdPolicy with
  | 2 => if s.ho.slots.length < 2 then (1, true) else (2, false)
  | 3 => if s.libraryReady then (3, false) else (1, true)
  | p => (p, false)

/-- What a policy needs when it begins or takes over. -/
def Block.policyStart (s : Block) : Block :=
  let (act, fb) := s.policyRun
  let s := s.modHo fun h => { h with policy := s.holdPolicy, fallback := fb, frostDue := if act = 1 then some 0x0C else none, dueAt := s.now,
                                     libMiss := 0, lib := h.lib || act == 3,
                                     player := if act = 2 then some (h.player.getD { q := s.tm.lastFb, pass := 0, j := 0 }) else none }
  if act ≠ 1 then s.thaw else s

/-- Holdover begins (R592). -/
def Block.holdEnter (s : Block) (src : Nat) : Block :=
  let s := s.policyStart.modHo fun h => { h with inForce := true, resume := 0, waiting := false, force := false, stopped := false, held := 0 }
  (s.bump R.HOLDOVER_ENTRIES).post 0x28 0x1F0
    [pk s.policyActs s.ho.fallback.toNat src 0, s.tm.fsn, w32 s.ho.slots.length]

/-- Holdover ends (R601): how is 0 rejoin, 1 forced, 2 policy NONE. -/
def Block.holdExit (s : Block) (how : Nat) : Block :=
  let data : List Word := [pk s.policyActs how 0 0, s.tm.fsn, w32 s.ho.held]
  let s := s.modHo fun h =>
    { h with inForce := false, fallback := false, stall := 0, resume := 0, waiting := false, force := false, stopped := false,
             player := none, lib := false, libMiss := 0, frostDue := none }
  s.thaw.post 0x28 0x1F1 data

/-- The surfaces that hold an eligible picture for the frame of this PB. -/
def Block.tagged (s : Block) (set : List Nat) : Bool :=
  set.any fun i => s.eligible s.tm.lastFb i && (s.surf i).tag == s.tm.fsn + 1

/-- Without holdover: the stall count, the preparation, the beginning. -/
def Block.watch (s : Block) (n : Nat) (sealed_ : Bool) : Block :=
  if sealed_ then s.modHo fun h => { h with stall := 0, player := none, lib := false }
  else
    let s := s.modHo fun h => { h with stall := min 16 (h.stall + 1) }
    let s := if s.ho.stall = s.holdStall then
        s.modHo fun h => { h with player := if s.holdPolicy = 2 && 2 ≤ h.slots.length then some { q := s.tm.lastFb, pass := 0, j := 0 } else h.player,
                                  lib := h.lib || s.holdPolicy == 3 }
      else s
    if s.holdStall < s.ho.stall && s.holdPolicy != 0 then s.holdEnter n else s

/-- In holdover: a change of policy, the library's misses, the resume count, rejoin. -/
def Block.holding (s : Block) (sealed_ : Bool) : Block :=
  if s.ho.force then s.holdExit 1
  else if s.holdPolicy ≠ s.ho.policy && s.holdPolicy = 0 then s.holdExit 2
  else
    let s := if s.holdPolicy ≠ s.ho.policy then s.policyStart else s
    let s := s.modHo fun h => { h with resume := if sealed_ then min 15 (h.resume + 1) else 0, stopped := h.stopped || sealed_ }
    let back := s.ho.waiting || (decide (0 < s.ho.resume) && decide (s.holdResume ≤ s.ho.resume))
    let local_ := s.policyActs == 3 && s.selMode == 2
    if back && (!local_ || s.tagged (setOf s.act s.selSource)) then s.holdExit 0
    else
      let s := if back && !s.ho.waiting then
          (s.modHo fun h => { h with waiting := true }).post 0x28 0x1F2 [0, s.tm.fsn,
            match s.ho.watched with
            | some n => (match s.newestSeal n with | some e => (s.surf e.1).tag | none => 0)
            | none => 0]
        else s
      let s := if s.policyActs = 3 then
          s.modHo fun h => { h with libMiss := if s.tagged (setOf s.act 6) then 0 else h.libMiss + 1 } else s
      if s.policyActs = 3 && decide (s.holdStall < s.ho.libMiss) then s.modHo fun h =>
          { h with fallback := true, frostDue := some 0x0C, dueAt := s.now } else s

/-- Do frames begin at this PB, so far as the pipeline goes? -/
def Block.begins (s : Block) : Bool := s.mayBegin && (s.sf.inUse.isSome || s.select.isSome)

/-- Does holdover end at this PB whatever the pipeline does: FORCE_REJOIN, or a new policy NONE (R601, R602)? -/
def Block.holdEnds (s : Block) : Bool := s.ho.inForce && (s.ho.force || (s.holdPolicy != s.ho.policy && s.holdPolicy == 0))

/-- Holdover at a PB; in the FROST_HOLD that FREEZE brought, the PBs count for rejoin although no frame begins. -/
def Block.holdPb (s : Block) : Block :=
  let s := s.remap
  let w := s.watchedNow
  let s := if w = s.ho.watched then s
    else s.modHo fun h => { h with watched := w, stall := 0, resume := 0, mark := match w with | some n => s.newestSeal n | none => none }
  let frozen := s.ho.inForce && s.policyActs == 1 && s.pw.state == .frostHold
  if !(s.begins || frozen || s.holdEnds) then s
  else
    let sealed_ := match w with | some n => s.newSeal n | none => false
    let s := if s.ho.inForce then s.holding sealed_
      else match w with
        | some n => if s.tm.dark != [] || !s.begins then s else s.watch n sealed_
        | none => s
    let s := s.modHo fun h => { h with mark := match w with
      | some n => (match s.newestSeal n with | some e => some e | none => h.mark)
      | none => none }
    if s.ho.inForce then
      ((s.modHo fun h => { h with held := h.held + 1 }).bump R.HOLD_FRAMES).postTally 0x1F5 0
    else s

/-- What the pipeline takes at a PB (R213, R593): the surface, the source it is counted for, that source's set, and whether by tag. -/
def Block.pbChoice (s : Block) : Option Nat × Nat × List Nat × Bool :=
  let usual := (s.select, s.selSource, if s.selMode = 0 then [] else setOf s.act s.selSource, s.selMode == 2)
  if !s.ho.inForce then usual
  else match s.policyActs with
    | 2 => (s.choose s.tm.lastFb (playSet s.act) 1 0, s.selSource, [], false)
    | 3 => (s.choose s.tm.lastFb (setOf s.act 6) 2 (s.tm.fsn + 1), 6, setOf s.act 6, true)
    | _ => (none, s.selSource, [], false)

/-- FORCE_REJOIN (R601): at the next PB. -/
def Block.forceRejoin (s : Block) : Block := if s.ho.inForce then s.modHo fun h => { h with force := true } else s

def execForceRejoin (s : State) : Res := s.does fun s => s.onStrobe Block.forceRejoin

end Sys2Proof.Machine
end

