-- ==== Sys2Proof/Machine/Power.lean ====
section
/-!
DEFINITION. Light groups as they start and stop, STATE_SET and bring-up (R29, R121 to R125, R298, R311, R378, R380, R635, R672).
-/
namespace Sys2Proof.Machine

/-! ## The safety inputs as levels (Table 20.3) -/

/-- Does a safety input forbid light: 0 ILK_IN_N, 1 LASER_EN_N, 2 ESTOP_N? -/
def Block.inputForbids (s : Block) (i : Nat) : Bool :=
  match i with
  | 0 => s.pins.ilkInN
  | 1 => s.pins.laserEnN
  | 2 => !s.pins.estopN
  | _ => false

/-- The SAFE reason of a safety input. -/
def inputReason (i : Nat) : Nat := 4 + i

/-- Does any safety input forbid light (R635)? -/
def Block.lightForbidden (s : Block) : Bool := (List.range 3).any s.inputForbids

/-- A safety input comes to forbid light (R634, R635): its event, its C3 record, SAFE with its reason, and for ESTOP_N the stop of
the fast axis. -/
def Block.forbid (s : Block) (i : Nat) : Block :=
  let s : Block := { s with fl := { s.fl with seen := s.fl.seen ||| 2 ^ i, permitSince := setAt s.fl.permitSince i none,
                                              exclUntilLit := s.fl.exclUntilLit ||| s.fl.showGroups } }
  let s := (s.postI 0x2B 0x204 4 (pageInst 0x2B) false [pk i 0 0 0, s.tm.fsn]).raise 0x2B 0x204 3 (pk i 0 0 0) .clear (inputReason i)
  if i = 2 then
    let s : Block := { s with pins := { s.pins with hsMidScale := true, hsDrvX := 0, hsDrvY := 0 } }
    if s.sc.st = 0 then s else (s.modSc fun c => { c with phaseValid := false }).hsfGoto 0
  else s

/-- The evaluation of every safety input at entry to STANDBY (R635). -/
def Block.standbyInputs (s : Block) : Block := (List.range 3).foldl (fun s i => if s.inputForbids i then s.forbid i else s) s

/-- The reason of the earliest open C3 record, and its FID. -/
def Block.earliestC3 (s : Block) : Option (Nat × Word) :=
  (oldestRec (s.fl.recs.filter fun e => e.2.isOpen && e.2.cls == 3)).map fun e =>
    (if e.2.code = 0x204 then inputReason e.2.detail.toNat else 7, e.2.fid)

/-- READY is reached from STANDBY (R635): SAFE follows where an input forbids light or a C3 record is open. -/
def Block.safeAtReady (s : Block) : Block :=
  match s.earliestC3 with
  | some (r, f) => s.enterSafe r f
  | none => match (List.range 3).find? s.inputForbids with
    | some i => s.enterSafe (inputReason i) s.fl.nextFid
    | none => s

/-! ## Light groups (R121, R123, R367 to R369, R642) -/

/-- The lit groups as a mask. -/
def Block.litNow (s : Block) : Nat := bitsMask ((List.range 5).filter fun g => (s.grp g).lit)

/-- The lit mask of PWR_STATE follows the groups. -/
def Block.litSync (s : Block) : Block := { s with pw := { s.pw with litMask := s.litNow } }

/-- The pairs of a port's deck (Table 1.3). -/
def deckPairs (p : Nat) : List Nat := if p = 3 then [6] else [2 * p, 2 * p + 1]

/-- The members a group lacks: its ACTIVE members that are latched off, less the spares that can serve. -/
def Block.membersLack (s : Block) (g : Nat) : Bool :=
  let l := s.membersOf g
  let active := l.filter fun m => !(memCfg s.act m).spare
  let off := active.filter fun m => (s.member m).st == 4
  let spares := l.filter fun m => (memCfg s.act m).spare && (s.member m).st != 4
  active.isEmpty || decide (spares.length < off.length) ||
    (l.any fun m => decide (64 ≤ m) && (s.chn ((m - 64) / 512)).st != 2 && (s.chn ((m - 64) / 512)).st != 3)

/-- Does a port, its sequencer or a channel pair of its deck lack (Table 1.8)? -/
def Block.portLacks (s : Block) (p : Nat) : Bool :=
  !maEn s.act p || !(s.port p).usable || !((s.port p).st == 4 || (s.port p).st == 5 || (s.port p).st == 6) ||
    !bit (s.act R.SEQ_CTRL) p || (deckPairs p).any fun q => !s.pairUp q

/-- Does a group lack a unit of its minimum set (R29, R123)?  The port of LG_HL is the lead port of R332, and thermal management lacks while
its bring-up has failed.  Of the management row, the housekeeping cores lack from MGMT_LOST on, and not in a restart, which leaves the
cues and the relighting unchanged (R31, R36); nothing the spec describes takes the row's other units from a running device (log entry
237). -/
def Block.groupLacks (s : Block) (g : Nat) : Bool :=
  s.bt.mgmtLost || !s.tm.run || s.cp.wheelFault || !s.fl.svRunning || s.fl.pathAsserted || bit (s.reg R.PWR_FIREBREAK) 0 || !s.pairUp 11 ||
    !s.abit R.LSG_CFG g || s.membersLack g ||
    (s.pw.hwBad.any fun u => u.1 == 5) ||
    (match (if g = 4 then leadPort s.act else some g) with | some p => s.portLacks p | none => true) ||
    (g == 4 && (!s.abit R.HSF_CFG 0 || s.sc.st == 7 || s.sc.latched || !s.pairUp 7))

/-- Groups start at this FB (R121, R587): soft start; from READY the state becomes LIT, `us` after what asked for it (R120). -/
def Block.lightGroups (s : Block) (mask reason us : Nat) : Block :=
  let gs := (maskBits 5 mask).filter fun g => !(s.grp g).lit
  if gs = [] then s
  else
    let s := gs.foldl (fun s g => ((s.modMembers (s.membersOf g) fun q => { q with away := q.away && q.st == 5 }).giveBack g).startGroup g) s
    let m := bitsMask gs
    let s : Block := { s with fl := { s.fl with showGroups := s.fl.showGroups ||| m } }
    let s := s.litSync
    let s := if s.pw.state = .ready then s.goto .lit reason us else s
    s.refreshMembers

/-- Groups begin to ramp to zero (Table 4.3); `at_` is the instant of the request. -/
def Block.stopGroups (s : Block) (mask at_ : Nat) : Block :=
  (maskBits 5 mask).foldl (fun s g => if (s.grp g).lit then s.modGrp g fun k => { k with stopping := true, stopAt := at_ } else s) s

/-- Groups are held at zero from this FB, as a command asked; their show time ends (R642). -/
def Block.dropGroups (s : Block) (gs : List Nat) : Block :=
  let s := gs.foldl Block.darkenGroup s
  let m := bitsMask gs
  let s : Block := { s with fl := { s.fl with showGroups := s.fl.showGroups - (s.fl.showGroups &&& m) } }
  let s := if gs.contains 4 then s.beamOff else s
  let s := gs.foldl (fun s g => s.zeroChains fun c => s.feeds c g && !s.feedsLit c) s
  s.litSync.refreshMembers

/-- No group remains lit: LIT or FROST_HOLD becomes READY, `us` after the request, and the arrays park (R120, R121, R311). -/
def Block.unlit (s : Block) (reason us : Nat) : Block :=
  if s.pw.state.lightOn && s.litNow == 0 then
    let s := if s.pw.state = .frostHold then (s.leaveRefresh 8).leaveRefresh 9 else s
    (s.goto .ready reason us).parkAll
  else s

/-! ## Bring-up (R121, R122) -/

/-- The enabled ports, and the enabled chains. -/
def Block.portsOn (s : Block) : List Nat := (List.range 4).filter (maEn s.act)
def Block.chainsOn (s : Block) : List Nat := (List.range 4).filter fun c => s.abit R.CHAIN_CFG c

/-- The enabled channel pairs. -/
def Block.pairsOn (s : Block) : List Nat := (List.range 12).filter fun q => s.abit (R.DMCP_CFG q) 0 && !s.abit (R.DMCP_CFG q) 1

/-- The enabled pairs are brought into service. -/
def Block.pairsUp (s : Block) : Block :=
  s.pairsOn.foldl (fun s q =>
    let t := (s.pair q).st
    if t = 0 ∨ t = 1 then s.pairIn q else if t = 3 ∨ t = 4 then s.leaveRefresh q else s) s

/-- Parking: the arrays park, and every pair but CP11 goes into self-refresh (Table 4.3); chains, scanner and loops are off. -/
def Block.standDown (s : Block) : Block :=
  let s := s.lightOut.groupsOut.parkAll
  let s := (List.range 11).foldl (fun s q => s.selfRefresh q) s
  let s := (List.range 4).foldl (fun s c => if (s.chn c).st = 0 then s else s.chnGoto c 0) s
  let s := if s.sc.st = 0 then s else (s.modSc fun c => { c with phaseValid := false }).hsfGoto 0
  s.modSc fun c => { c with hst := 0 }

/-- The units that failed so far, with index and cause (Table 4.12): ports in ARRAY_FAULT or LINK_FAIL, ports whose validation
failed, chains whose count differs, and the supervisor. -/
def Block.unitsFailed (s : Block) : List (Nat × Nat × Nat) :=
  (s.portsOn.filterMap fun p =>
    let q := s.port p
    if q.st = 7 ∨ q.st = 8 then some (1, p, 0) else if q.st = 4 ∧ q.usable = false then some (1, p, 2) else none) ++
  (s.chainsOn.filterMap fun c => if (s.chn c).st = 4 ∨ (s.chn c).st = 5 then some (3, c, 0) else none) ++
  (if s.cp.wheelFault then [(4, 0, 0)] else []) ++ (if s.fl.svSelfTest || s.fl.svRunning then [] else [(6, 0, 0)])

/-- The units that are not up yet. -/
def Block.unitsDown (s : Block) : List (Nat × Nat × Nat) :=
  ((s.pairsOn.filter fun q => !s.pairUp q).map fun q => (0, q, 1)) ++
  ((s.portsOn.filter fun p => !((s.port p).st == 4 && (s.port p).usable)).map fun p => (1, p, 1)) ++
  ((s.chainsOn.filter fun c => (s.chn c).st != 2).map fun c => (3, c, 1)) ++
  (if s.fl.svRunning then [] else [(6, 0, 1)])

/-- The records of the units that are up close (R122). -/
def Block.closeUp (s : Block) : Block :=
  let down := ((s.unitsFailed ++ s.unitsDown).map fun u => (u.1, u.2.1)) ++ s.pw.hwBad
  s.autoClose 0x01 0x019 fun d => !down.contains (bits d 0 8, bits d 8 8)

/-- The strings and the thermal management that failed bring-up are known (R122). -/
def Block.hwFail (s : Block) (l : List (Nat × Nat)) : Block := { s with pw := { s.pw with hwBad := l } }

/-- Is a STATE_SET to READY in progress? -/
def Block.bringing (s : Block) : Option StateSetOp :=
  match s.pw.stateSet with
  | some o => if o.target = 4 ∧ s.pw.state = .standby then some o else none
  | none => none

/-- READY is entered once every enabled unit is up (Table 4.3). -/
def Block.tryReady (s : Block) : Block :=
  match s.bringing with
  | none => s
  | some o =>
    if s.unitsFailed ++ s.unitsDown ≠ [] then s
    else
      let s := (s.hwFail []).closeUp
      let s : Block := { s with pw := { s.pw with stateSet := none } }
      let s := ((s.goto .ready 2 (s.usSince o.since)).refreshMembers.reloadRecs).complete o.cseq 0
      let s := if s.abit R.HSF_CFG 1 then s.fastAxisStart else s
      s.safeAtReady

/-- A bring-up ends with units that failed (R122). -/
def Block.bringupFail (s : Block) (o : StateSetOp) (units : List (Nat × Nat × Nat)) : Block :=
  let s := s.closeUp
  let s := units.foldl (fun s u => s.faultEv 0x01 0x019 2 [pk u.1 u.2.1 u.2.2 0, s.tm.fsn] .auto (pageInst 0x01)) s
  let s : Block := { s with pw := { s.pw with stateSet := none } }
  s.standDown.complete o.cseq 0x8000

/-- BRINGUP_FAILED (R122): units fail, or 400 ms pass with units not up; `hw` are failed units other than ports, chains, the engine
and the supervisor (unit and index, Table 4.12).  Such a unit stays failed until a bring-up lasts 400 ms or succeeds without naming it. -/
def execBringupFailed (hw : List (Nat × Nat)) (s : State) : Res :=
  s.does fun s =>
    match s.bringing with
    | none => s
    | some o =>
      let bad := s.unitsFailed ++ (hw.map fun u => (u.1, u.2, 0))
      if bad ≠ [] then (s.hwFail (s.pw.hwBad ++ hw).eraseDups).bringupFail o bad
      else
        let s := (s.advance (o.since + 400000000 - s.now)).hwFail []
        if s.unitsDown = [] then s.tryReady else s.bringupFail o s.unitsDown

/-- A port's bring-up ends with the array parked (Table 9.6, R672): every page is validated before the port may run. -/
def Block.portReady (s : Block) (p : Nat) : Block :=
  let s := (s.modPort p fun q => { q with parked := true, modeSent := false, train := 0 }).portGoto p 4
  match s.validateActive with
  | none => (s.modPort p fun q => { q with usable := true }).tryReady
  | some f =>
    let (d, s) := s.failDetail f
    let s := s.setRegs [(R.ERR_INFO f.page, w32 (f.cause + 256 * f.page + 65536 * d)), (R.DEV_ERR_CAUSE, w32 (f.cause + 256 * f.page + 2147483648))]
    let s := s.maEvt p 0x091 [w32 (p + 512), match (s.port p).ident with | some i => i.word0 | none => 0]
    match s.bringing with
    | some o => s.bringupFail o s.unitsFailed
    | none => s

/-- MAp_RDY_N falls (R298): after initialisation the port identifies; after MODE its bring-up ends; after PARK it is parked. -/
def Block.rdyLow (s : Block) (p : Nat) : Block :=
  let s : Block := { s with pins := { s.pins with maRdyN := setAt s.pins.maRdyN p false } }
  let q := s.port p
  match q.st with
  | 1 => s.portGoto p 2
  | 3 => if q.modeSent then s.portReady p else s
  | 4 | 6 => s.modPort p fun q => { q with parked := true, modeSent := false }
  | 5 => if q.words.isEmpty || s.inDarkNow && s.abit (R.MA_CFG p) 5 then s.modPort p fun q => { q with parked := true } else s
  | _ => s

def execMaRdyNLow (p : Nat) (s : State) : Res := s.does fun s => if p < 4 then s.rdyLow p else s

/-- CHAIN_ENUM (R378): CHAIN_CMD.ENUM runs on a chain and finds `n` slices. -/
def execChainEnum (c n : Nat) (ids : List (Word × Word)) (s : State) : Res :=
  s.does fun s =>
    let t := if s.enumAllowed c && n ≤ 64 then s.enumerate c n ids else s
    (t.setReg R.CHAIN_CMD (setBit (t.reg R.CHAIN_CMD) c false)).tryReady

/-- CHAIN_ENUM_RETRY (R380): a chain in BREAK runs ENUM every 100 ms.  Where nothing returns on RET the chain stays in BREAK; with
another count than the configured one it is in COUNT_ERR (R378; log entry 250). -/
def execChainEnumRetry (c n : Nat) (ids : List (Word × Word)) (s : State) : Res :=
  s.does fun s =>
    if c < 4 ∧ (s.chn c).st = 4 ∧ (s.chn c).breakAt + 100000000 ≤ s.now then
    let s := s.modChn c fun k => { k with breakAt := s.now }
    if 1 ≤ n ∧ n ≤ 64 then (s.enumerate c n ids).tryReady else s.enumSends c 0
    else s

/-! ## STATE_SET (R121 to R124) -/

/-- The target and the mask of a STATE_SET. -/
def Cmd.ssTarget (c : Cmd) : Nat := c.par 16 1
def Cmd.ssMask (c : Cmd) : Nat := c.par 20 4

/-- Which row of Table 4.3 a request names: 0 READY from a dark state, 1 STANDBY, 2 LIT, 3 groups to extinguish, 4 no row. -/
def Block.ssRow (s : Block) (c : Cmd) : Nat :=
  match c.ssTarget with
  | 3 => 1
  | 4 => if s.pw.state.lightOn then 3 else 0
  | 5 => 2
  | _ => 4

/-- A STATE_SET is accepted (R121, R124): BAD_PARAM, BUSY, STATE for a target of no row, or the row's effect. -/
def Block.stateSet (s : Block) (cseq : Word) (row : Nat) (f : Block → Cmd → Block) : Block :=
  match s.startable cseq 3 with
  | none => s
  | some c =>
    if s.ssRow c ≠ row ∧ s.ssRow c ≠ 4 then s
    else if 32 ≤ c.ssMask then s.complete cseq 2
    else if s.pw.stateSet.isSome then s.complete cseq 3
    else if s.ssRow c = 4 then s.complete cseq 4
    else f s c

/-- A STATE_SET goes on. -/
def Block.stateSetRuns (s : Block) (o : StateSetOp) : Block := ({ s with pw := { s.pw with stateSet := some o } } : Block).setStage o.cseq 2

/-- STATE_SET to READY (R121, R122, R151): every enabled unit is brought up. -/
def Block.setReady (s : Block) (c : Cmd) : Block :=
  if s.pw.state ≠ .standby then s.complete c.cseq 4
  else if s.fl.recs.any fun e => e.2.isOpen && e.2.page == 0x02 && e.2.code == 0x193 then s.complete c.cseq 0x8000
  else
    let s := s.stateSetRuns { cseq := c.cseq, target := 4, mask := 0, wait := 0, since := c.acceptAt }
    let s := s.pairsUp
    (s.portsOn.foldl Block.startPort s).tryReady

def execStateSetReady (cseq : Word) (s : State) : Res := s.does fun s => s.stateSet cseq 0 Block.setReady

/-- STATE_SET to STANDBY (Table 4.3). -/
def Block.setStandby (s : Block) (c : Cmd) : Block :=
  if s.pw.state ≠ .ready then s.complete c.cseq 4
  else (((s.standDown.goto .standby 2 (s.usSince c.acceptAt)).refreshMembers).complete c.cseq 0).standbyInputs

def execStateSetStandby (cseq : Word) (s : State) : Res := s.does fun s => s.stateSet cseq 1 Block.setStandby

/-- May a request to light groups be carried out: the device state, the power-fail cut and the safety inputs (R121, R635)? -/
def Block.mayLight (s : Block) : Bool := (s.pw.state == .ready || s.pw.state.lightOn) && !s.pw.pfCut && !s.lightForbidden

/-- The FBs until FB_{k+2}, FB_k being the first FB whose cutoff is still to come (R121). -/
def Block.lightWait (s : Block) : Nat := if s.tm.cutoffDone || decide (s.nextCutoff ≤ s.tm.ft) then 4 else 3

/-- STATE_SET to LIT (R121, R123). -/
def Block.setLit (s : Block) (c : Cmd) : Block :=
  let gs := maskBits 5 c.ssMask
  if !s.mayLight then s.complete c.cseq 4
  else if gs.any s.groupLacks then s.complete c.cseq 0x8001
  else if gs.all fun g => (s.grp g).lit && !(s.grp g).starting then s.complete c.cseq 0
  else s.stateSetRuns { cseq := c.cseq, target := 5, mask := c.ssMask, wait := s.lightWait, since := c.acceptAt }

def execStateSetLit (cseq : Word) (s : State) : Res := s.does fun s => s.stateSet cseq 2 Block.setLit

/-- STATE_SET that extinguishes groups (Table 4.3). -/
def Block.setExtinguish (s : Block) (c : Cmd) : Block :=
  if c.ssMask &&& s.litNow = 0 then s.complete c.cseq 0
  else (s.stopGroups c.ssMask c.acceptAt).stateSetRuns { cseq := c.cseq, target := 4, mask := c.ssMask, wait := 0, since := c.acceptAt }

def execStateSetExtinguish (cseq : Word) (s : State) : Res := s.does fun s => s.stateSet cseq 3 Block.setExtinguish

/-- A STATE_SET to LIT at an FB: its groups start at FB_{k+2}. -/
def Block.stateSetStart (s : Block) : Block :=
  match s.pw.stateSet with
  | some o =>
    if o.target = 5 ∧ o.wait ≠ 0 then
      let s : Block := { s with pw := { s.pw with stateSet := some { o with wait := o.wait - 1 } } }
      if o.wait = 1 then s.lightGroups o.mask 2 (s.usSince o.since) else s
    else s
  | none => s

/-- A STATE_SET at an FB, once the levels are set: it completes with its last group (Table 4.3). -/
def Block.stateSetEnd (s : Block) : Block :=
  match s.pw.stateSet with
  | some o =>
    let gs := maskBits 5 o.mask
    let ended := if o.target = 5 then o.wait == 0 && gs.all fun g => !(s.grp g).starting
                else s.pw.state != .standby && gs.all fun g => !(s.grp g).lit
    if ended then ({ s with pw := { s.pw with stateSet := none } } : Block).complete o.cseq 0 else s
  | none => s

end Sys2Proof.Machine
end

