-- ==== Sys2Proof/Machine/Calib.lean ====
section
/-!
DEFINITION. CALIBRATE (R435 to R446): its parameters and claims, the preconditions, the judgement of the two passes, and what an accepted
result applies.  What the passes measured is an operand.
-/
namespace Sys2Proof.Machine

/-! ## Preconditions (R437, Table 13.8) -/

/-- The members a procedure's heat-sink condition concerns: the member of a PI run, those of LG_HL for a SCAN. -/
def Block.calMembers (s : Block) (r : CalRun) : List Nat := if r.proc = 2 then [r.target] else s.membersOf 4

/-- Has the heat sink of a model group stayed within 1 degC for the last 10 s? -/
def Block.ntcSteady (s : Block) (g : Nat) : Bool :=
  match s.th.ntc[bits (s.mgWord g 0) 1 3]? with
  | none => false
  | some q =>
    let l := (q.hist.filter fun e => s.now < e.1 + 10000000000).map (·.2)
    let t := q.temp
    q.valid && l.all fun x => decide (x ≤ t + 16) && decide (t ≤ x + 16) &&
      l.all fun y => decide (x ≤ y + 32)

/-- Has a photodiode saturated in the last 16 frames, or in the `ns` since a run began? -/
def Block.pdSaturated (s : Block) (j ns : Nat) : Bool :=
  match (s.pd j).satAt with
  | none => false
  | some t => decide (s.tm.ft < t + max ns (16 * s.tm.num / max 1 s.tm.den))

/-- Is any throttle in force (R459)? -/
def Block.anyThrottle (s : Block) : Bool := s.th.lvl.throttle || s.th.mg.any fun q => q.lvl.throttle

/-- The conditions that fail, by their codes in order; `run` says that the procedure runs. -/
def Block.calFails (s : Block) (r : CalRun) (run : Bool) : List Nat :=
  let pi := decide (r.proc = 2)
  let sc := decide (r.proc = 3)
  let dr := decide (r.proc = 4)
  let m := r.target
  let g := if pi then (memCfg s.act m).group else 4
  let light := s.pw.state.lightOn
  let state := if pi || sc then light else light || s.pw.state == .standby || s.pw.state == .ready
  let spares := (s.membersOf g).filter fun x => s.spareNow x && x != m
  let park := match (s.port g).ident with | some i => i.park * 1000 | none => 0
  let abort := (pi || sc) && (!(s.grp g).lit || s.pathCut || s.portHold g)
  let l : List (Bool × Nat) :=
    [(run && abort, 4), (!state, 1),
     (pi && (!(memCfg s.act m).en || (s.member m).st == 4), 2),
     (pi && (if run then r.lost else (s.member m).acting && !(spares.any fun x => (s.member x).st == 3 || (s.member x).st == 2)), 3),
     (!run && abort, 4),
     ((pi || sc) && !(s.calMembers r).all fun x => s.ntcSteady (s.modelGroup x), 5),
     ((pi || sc) && s.pdSaturated r.cpd (if run then s.now - r.since else 0), 6),
     ((pi || sc) && decide (s.afld R.OPT_AMB_LIM 0 16 * 1000 ≤ (s.pd r.cpd).amb), 7),
     (pi && decide (m < 48) && decide (g < 4) && (decide (darkNs s.act < park + 48000) || !s.abit (R.MA_CFG g) 5), 8),
     (sc && (s.sc.st != 5 || s.abit R.HSB_BEAM_CFG 0), 9),
     (dr && (m == 11 || (s.pair m).st != (if run then 8 else 7)), 10),
     ((pi || sc || dr) && s.anyThrottle, 11),
     (pi && run && r.piWritten, 12)]
  (l.filter (·.1)).map (·.2)

/-! ## Claims (R436) -/

/-- The photodiodes of PD0 to PD3 a procedure claims. -/
def CalRun.pds (r : CalRun) : List Nat := if r.proc = 1 then maskBits 4 r.target else if r.proc = 4 then [] else [r.cpd]

/-- The photodiodes a procedure tests or uses, PD4 to PD7 among them. -/
def CalRun.used (r : CalRun) : List Nat := if r.proc = 1 then maskBits 8 r.target else r.pds

/-- The mirror groups whose pair uses one of a procedure's photodiodes. -/
def Block.calGroups (s : Block) (r : CalRun) : List Nat :=
  (List.range 4).filter fun g => match s.pairOfGroup g with | some (a, b, _) => r.used.contains a || r.used.contains b | none => false

/-- A command at its acceptance claims resources (R102): PIN_OWN takes its word, and the command keeps what stood there. -/
def Block.claimAll (s : Block) (cseq : Word) (l : List Nat) : Block :=
  ({ s with rg := { s.rg with inflight := s.rg.inflight.map fun (d : Cmd) =>
    if d.cseq == cseq then { d with claims := l.map fun n => (n, s.reg (R.PIN_OWN n)) } else d } } : Block).setRegs
    (match s.cmd cseq with | some c => l.map fun n => (R.PIN_OWN n, c.ownWord) | none => [])

/-- The run is the procedure in progress, and the estimates of the groups concerned hold (R436, R439). -/
def Block.calClaim (s : Block) (r : CalRun) : Block :=
  let s := (s.calGroups r).foldl (fun s g => (s.modEst g fun e => { e with hold := true }).postI 0x1A 0x134 0 g false [pk g 1 0 0, s.tm.fsn]) s
  { s with ca := some r }

/-- The estimates that the run held go on (R439). -/
def Block.calRelease (s : Block) (r : CalRun) : Block :=
  (s.calGroups r).foldl (fun s g => s.modEst g fun e => { e with hold := false }) s

/-! ## The end of a run -/

/-- The word of TRIM_RESULT. -/
def calResult (proc status detail : Nat) : Word := w32 (status % 65536 + 65536 * (detail % 256) + 16777216 * proc)

/-- A run ends: its result, CALIB_DONE, the counts, the claims, and the command's completion (R436 to R440). -/
def Block.calFinish (s : Block) (r : CalRun) (status detail : Nat) : Block :=
  let s := s.setReg R.TRIM_RESULT (calResult r.proc status detail)
  let s : Block := match s.dc.sweep with | some w => if w.calib then s.sweepOver w else s | none => s
  let s : Block := { s with ca := none }
  let s := s.calRelease r
  let s := if r.proc = 2 then
      let g := (memCfg s.act r.target).group
      match r.spare with
      | some x =>
        if (s.member r.target).st = 4 then s
        else
          let s := s.modGrp g fun k => { k with calBack := some (r.target, x) }
          if (s.grp g).lit then s else s.giveBack g
      | none => s
    else s
  let s := s.bump R.TRIM_RUNS
  let s := if status = 0 then s else s.bump R.TRIM_REFUSED
  let s := s.postI 0x1B 0x139 0 (pageInst 0x1B) true
    [r.cseq, w32 (r.proc + 256 * (detail % 256) + 65536 * status), s.reg R.TRIM_QUALITY]
  let claimed := match s.cmd r.cseq with | some c => c.claims.map (·.1) | none => []
  (s.complete r.cseq status).ownersOf claimed

/-- A run is cut short: what it measured, and a store it waits for, are dropped (R437, R438). -/
def Block.calStop (s : Block) (status detail : Nat) : Block :=
  match s.ca with
  | none => s
  | some r => ({ s with se := { s.se with queue := s.se.queue.filter fun q => q.why != .calib } } : Block).calFinish r status detail

/-! ## Acceptance (R435 to R437) -/

/-- Is a parameter block a legal one for its procedure (R435)? -/
def calParamsOk (c : Cmd) : Bool :=
  let proc := c.par 16 1
  let t := c.par 18 2
  decide (1 ≤ proc) && decide (proc ≤ 4) && decide (c.par 17 1 < 4) && c.par 21 1 == 0 && (c.param.drop 8).all (· == 0) &&
    (match proc with
     | 1 => decide (t < 256)
     | 2 => (decide (t < 48) || (decide (64 ≤ t) && decide (t < 2112))) && decide (c.par 20 1 < 4)
     | 3 => decide (t < 8) && decide (c.par 20 1 < 4)
     | _ => decide (t < 12))

/-- The highest current code of a PI sweep (Table 13.7). -/
def Block.calTop (s : Block) (m top : Nat) : Nat :=
  if top ≠ 0 then top
  else 7 * (if m < 64 then s.afld (R.LS_STR_LIMIT m) 0 16 else s.afld R.CHAIN_SLICE_CFG 0 16) / 8

/-- The run that a CALIBRATE's parameters ask for (R435). -/
def Block.calRunOf (s : Block) (c : Cmd) (proc : Nat) : CalRun :=
  { cseq := c.cseq, proc := proc, flags := c.par 17 1, target := c.par 18 2, cpd := c.par 20 1, top := s.calTop (c.par 18 2) (c.par 22 2),
    phase := 1, spare := none, since := s.now, piWritten := false, lost := false, points := 0 }

/-- A CALIBRATE just passed on claims its photodiodes of PD0 to PD3 (R102, R436); one
that OPTICAL_LOOP holds ends it with CLAIM_DENIED, and parameters that are not legal claim nothing. -/
def Block.calAccept (s : Block) (cseq : Word) : Block :=
  match s.cmd cseq with
  | some c =>
    if c.opcode ≠ 6 ∨ !calParamsOk c then s
    else
      let l := (s.calRunOf c (c.par 16 1)).pds
      match l.find? fun j => s.owner (11 + j) == 0x31 with
      | some j => (s.denyClaim (11 + j, 0x32, 0x31, 0x3F)).complete cseq 0xB
      | none => s.claimAll cseq (l.map fun j => 11 + j)
  | none => s

/-- CMD_FETCH (R109): `host` is the entry as the host returns it, where the ring lies in host memory (log entry 24).  A command passed on is
accepted with its claims. -/
def execCmdFetch (host : Bytes) (s : State) : Res :=
  s.does fun s =>
    if s.fetching then
    match s.cmdEntry host with
    | (s, some e, _) =>
      let t := s.take e
      if w32 (field e 0 4) = s.reg R.RING_CMD_SEQ_EXPECT then t.calAccept (w32 (field e 0 4)) else t
    | (s, none, k) => s.fetchFault k
  else s

/-- A run starts (R436, R437): TAKEN where its member is acting, CALIB_START; for DRAM its pair is swept. -/
def Block.calStart (s : Block) (r : CalRun) : Block :=
  let take := r.proc == 2 && (s.member r.target).acting
  let s := s.calClaim { r with phase := if take then 2 else 3 }
  let s := if r.proc = 4 then s.sweepStart { cseq := r.cseq, pair := r.target, sp := 0, space := false, addr := 0, calib := true } else s
  (s.setStage r.cseq (if take then 2 else 1)).postI 0x1B 0x138 0 (pageInst 0x1B) true [r.cseq, w32 (r.proc + 65536 * r.target)]

/-- CALIBRATE is checked and starts (R435 to R437). -/
def Block.calibrate (s : Block) (cseq : Word) (proc : Nat) : Block :=
  match s.startable cseq 6 with
  | none => s
  | some c =>
    let p := c.par 16 1
    if p ≠ proc ∧ 1 ≤ p ∧ p ≤ 4 then s
    else if !calParamsOk c || (proc == 2 && (memCfg s.act (c.par 18 2)).en && (memCfg s.act (c.par 18 2)).group == 4) then s.complete cseq 2
    else if s.ca.isSome || (proc == 4 && s.dc.sweep.isSome) then s.complete cseq 3
    else
      let r := s.calRunOf c proc
      match s.calFails r false with
      | d :: _ => (s.setReg R.TRIM_RESULT (calResult proc 8 d)).complete cseq 8
      | [] => s.calStart r

def execCalibratePd (cseq : Word) (s : State) : Res := s.does fun s => s.calibrate cseq 1
def execCalibratePi (cseq : Word) (s : State) : Res := s.does fun s => s.calibrate cseq 2
def execCalibrateScan (cseq : Word) (s : State) : Res := s.does fun s => s.calibrate cseq 3
def execCalibrateDram (cseq : Word) (s : State) : Res := s.does fun s => s.calibrate cseq 4

/-! ## Judging a sweep of points (R438, R440 to R442) -/

/-- A judgement: the status, TRIM_RESULT's detail, the quality figures. -/
structure Verdict where
  status : Nat
  detail : Nat
  quality : Nat
  quality2 : Nat
  deriving DecidableEq, Repr

/-- |a - b|. -/
def dist (a b : Nat) : Nat := (a - b) + (b - a)

/-- The zero crossing of the least-squares line through points, rounded to nearest; none where it does not rise. -/
def zeroCross (l : List (Nat × Nat)) : Option Int :=
  let n : Int := l.length
  let sx : Int := ((l.map (·.1)).sum : Nat)
  let sy : Int := ((l.map (·.2)).sum : Nat)
  let sxx : Int := ((l.map fun p => p.1 * p.1).sum : Nat)
  let sxy : Int := ((l.map fun p => p.1 * p.2).sum : Nat)
  let b := n * sxy - sx * sy
  if b ≤ 0 then none else some (qround (sx * b - sy * (n * sxx - sx * sx)) (n * b))

/-- The points of a sweep: the current, and the sum of both passes. -/
def sweepPoints (cur o1 o2 : List Nat) : List (Nat × Nat) := (cur.zip (List.zipWith (· + ·) o1 o2))

/-- Ith of a sweep (R441): the line through the first 8 points above 4 sigma; `sig` in the points' unit of one pass. -/
def ithOf (pts : List (Nat × Nat)) (sig : Nat) : Option Int := zeroCross ((pts.filter fun p => decide (8 * sig < p.2)).take 8)

/-- The points at and above Ith, from (Ith, 0). -/
def abovePts (pts : List (Nat × Nat)) (ith : Nat) : List (Nat × Nat) := (ith, 0) :: pts.filter fun p => decide (ith < p.1)

/-- The first point at which o falls by more than 4 sigma. -/
def fallsAt (pts : List (Nat × Nat)) (ith sig : Nat) : Option Nat :=
  let n := pts.length
  (List.range (n - 1)).find? fun i =>
    let a := pts.getD i (0, 0)
    let b := pts.getD (i + 1) (0, 0)
    decide (ith ≤ a.1) && decide (b.2 + 8 * sig < a.2)

/-- The current at which a sweep reaches a sum: inverse linear interpolation. -/
def invPoint (l : List (Nat × Nat)) (t : Nat) : Nat :=
  match (List.range (l.length - 1)).find? fun i => decide (t ≤ (l.getD (i + 1) (0, 0)).2) with
  | none => (l.getD (l.length - 1) (0, 0)).1
  | some i =>
    let a := l.getD i (0, 0)
    let b := l.getD (i + 1) (0, 0)
    if b.2 ≤ a.2 then b.1 else (qround (((a.1 : Int)) * (b.2 - a.2) + ((t : Int) - a.2) * ((b.1 : Int) - a.1)) ((b.2 : Int) - a.2)).toNat

/-- o_k of a record in U1.15 (R441): k / 63 of o at TOP, which is `full` in units of 1/`unit`, rounded to nearest. -/
def recordO (full unit k : Nat) : Nat := satN 16 ((2 * k * full + 63 * unit) / (126 * unit))

/-- A record (R441): the fractions o_k and their currents, non-decreasing from Ith, found in the points `l`, whose values are in units of
1/`unit`. -/
def recordOf (l : List (Nat × Nat)) (ith full unit : Nat) : List (Nat × Nat) :=
  let codes := (List.range 63).foldl (fun acc k => acc ++ [max (acc.getD k 0) (invPoint l (recordO full unit (k + 1) * unit))]) [ith]
  (List.range 64).map fun k => (recordO full unit k, codes.getD k 0)

/-- The RMS residual of both passes from a record, in U0.16 of o at TOP: `o1`, `o2` and `oTop` in units of 1/`one`. -/
def residual (rcd : List (Nat × Nat)) (cur o1 o2 : List Nat) (ith oTop one : Nat) : Nat :=
  let l := (List.range cur.length).filter fun j => decide (ith ≤ cur.getD j 0)
  let model (c : Nat) : Nat := piInv rcd c * one / 2 ^ 30
  let sq := (l.map fun j =>
    let m := model (cur.getD j 0)
    (dist (o1.getD j 0) m) ^ 2 + (dist (o2.getD j 0) m) ^ 2).sum
  Nat.sqrt (sq * 2 ^ 32 / (max 1 (2 * l.length) * max 1 (oTop * oTop)))

/-- The first point at which two passes differ by more than AGREE of o at TOP. -/
def disagreeAt (o1 o2 : List Nat) (agree full : Nat) : Option Nat :=
  (List.range o1.length).find? fun j => decide (agree * full < dist (o1.getD j 0) (o2.getD j 0) * 131072)

/-- The currents of a PI sweep (R440). -/
def sweepCodes (top : Nat) : List Nat := (List.range 64).map fun j => (2 * top * j + 63) / 126

/-- o of a mean code of CPD in 2^-30 member units (R440). -/
def Block.calO (s : Block) (r : CalRun) (raw : Nat) : Nat :=
  let g := (memCfg s.act r.target).group
  let lam := if (s.est g).valid then (s.est g).lam else Config.centroid g
  s.pdC r.cpd (s.pdRange r.cpd 0) raw * Config.responsivity r.cpd lam / (2 ^ 30 * max 1 (s.act (R.TRIM_UNIT g)).toNat)

/-- CPD's deviation, in 1/256 codes, as o. -/
def Block.calSigma (s : Block) (r : CalRun) (dev : Nat) : Nat :=
  let g := (memCfg s.act r.target).group
  let lam := if (s.est g).valid then (s.est g).lam else Config.centroid g
  dev * s.pdG r.cpd (s.pdRange r.cpd 0) * Config.responsivity r.cpd lam / (256 * (2 ^ 30 * max 1 (s.act (R.TRIM_UNIT g)).toNat))

/-- The verdict on a PI run and its record (R438, R441). -/
def Block.judgePi (s : Block) (r : CalRun) (d : CalData) : Verdict × List (Nat × Nat) :=
  let cur := sweepCodes r.top
  let o1 := d.pass1.map (s.calO r)
  let o2 := d.pass2.map (s.calO r)
  let sig := s.calSigma r (d.extra.getD 0 0)
  let pts := sweepPoints cur o1 o2
  let full := (pts.getD 63 (0, 0)).2
  let ithI := ithOf pts sig
  let ith := (ithI.getD 0).toNat
  let rcd := recordOf (abovePts pts ith) ith full 65536
  let q := residual rcd cur o1 o2 ith (full / 2) (2 ^ 30)
  let v : Verdict := { status := 0, detail := 0, quality := q, quality2 := ith }
  (match disagreeAt o1 o2 (s.afld R.TRIM_AGREE 0 16) full with
   | some j => { v with status := 9, detail := j }
   | none =>
     if ith = 0 || decide (r.top < 2 * ith) || decide (full < 2 ^ 29) || decide (2 ^ 32 < full) then { v with status := 10 }
     else match fallsAt pts ith sig with
       | some j => { v with status := 10, detail := j }
       | none => if s.afld R.TRIM_QLIM 0 16 < q then { v with status := 0x8000 } else v, rcd)

/-! ## PD (R439) -/

/-- The three means of entry i of a pass. -/
def pdMeans (l : List Nat) (i : Nat) : Nat × Nat × Nat := (l.getD (3 * i) 0, l.getD (3 * i + 1) 0, l.getD (3 * i + 2) 0)

/-- The offset and the gain correction an entry gives: the means of both passes (R439). -/
def pdFit (d : CalData) (i : Nat) : Nat × Nat :=
  let a := pdMeans d.pass1 i
  let b := pdMeans d.pass2 i
  ((a.1 + b.1) / 2, 65535 * 65536 / max 1 ((a.2.2 - a.2.1) + (b.2.2 - b.2.1)))

/-- The verdict on a PD run of `n` entries (R438). -/
def Block.judgePd (s : Block) (n : Nat) (d : CalData) : Verdict :=
  let gain (a : Nat × Nat × Nat) : Nat := a.2.2 - a.2.1
  let bend (a : Nat × Nat × Nat) : Int := 2 * (a.1 : Int) - 3 * a.2.1 + a.2.2
  let q := (List.range n).foldl (fun m i =>
    let e := (bend (pdMeans d.pass1 i) + bend (pdMeans d.pass2 i)).natAbs
    max m (Nat.sqrt (e * e * 2 ^ 32 / (168 * 65535 ^ 2)))) 0
  let v : Verdict := { status := 0, detail := 0, quality := q, quality2 := 0 }
  match (List.range n).find? fun i =>
      let a := pdMeans d.pass1 i
      let b := pdMeans d.pass2 i
      decide (8 < dist a.1 b.1) || decide (gain a + gain b < 2000 * dist (gain a) (gain b)) with
  | some i => { v with status := 9, detail := i }
  | none =>
    match (List.range n).find? fun i =>
        let f := pdFit d i
        decide (2048 < f.1) || decide (f.2 * 10 < 9 * 65536) || decide (11 * 65536 < f.2 * 10) with
    | some i => { v with status := 10, detail := i }
    | none => if s.afld R.TRIM_QLIM 0 16 < q then { v with status := 0x8000 } else v

/-! ## SCAN (R442) -/

/-- What one colour of a SCAN run gives: its P-I points, chromaticity and flux in 1/16 lm, its residual, and what is wrong with it. -/
structure ScanColour where
  points : List (Nat × Nat)
  x : Nat
  y : Nat
  flux : Nat
  resid : Nat
  disagree : Option Nat
  range : Option Nat
  deriving DecidableEq, Repr

/-- The i-th colour of the mask. -/
def Block.judgeColour (s : Block) (r : CalRun) (d : CalData) (i : Nat) : ScanColour :=
  let cur := (List.range 64).map fun k => 65 * k
  let rg := s.pdRange r.cpd 0
  let c1 := ((d.pass1.drop (64 * i)).take 64).map (s.pdC r.cpd rg)
  let c2 := ((d.pass2.drop (64 * i)).take 64).map (s.pdC r.cpd rg)
  let sig := d.extra.getD 0 0 * s.pdG r.cpd rg / 256
  let pts := sweepPoints cur c1 c2
  let full := (pts.getD 63 (0, 0)).2
  let ith := ((ithOf pts sig).getD 0).toNat
  let rcd := recordOf ((abovePts pts ith).map fun p => (p.1, p.2 * 0x8000)) ith (full * 0x8000) (max 1 full)
  let seen (c n : Nat) : Option (Nat × Nat × Nat × Nat) :=
    match s.pairOfGroup 4 with
    | some (_, b, q) => estimateOf 4 q c (s.pdC b (s.pdRange b 0) (d.extra.getD (2 + 2 * i + n) 0)) r.cpd (2 ^ 30)
    | none => none
  let dis := disagreeAt c1 c2 (s.afld R.TRIM_AGREE 0 16) full
  match seen (c1.getD 63 0) 0, seen (c2.getD 63 0) 1 with
  | some (x1, y1, f1, _), some (x2, y2, f2, _) =>
    let apart := decide (131 * 65536 < dist x1 x2) || decide (131 * 65536 < dist y1 y2)
    let flux := (f1 + f2) / 2
    { points := rcd, x := (x1 + x2) / 2 / 65536, y := (y1 + y2) / 2 / 65536, flux := flux / 65536,
      resid := residual rcd cur c1 c2 ith (full / 2) (full / 2),
      disagree := if dis.isNone && apart then some 63 else dis,
      range := if decide (flux * 100 < (s.act (R.TRIM_UNIT 0)).toNat * 65536) then some 63 else fallsAt pts ith sig }
  | _, _ => { points := rcd, x := 0, y := 0, flux := 0, resid := 0, disagree := dis, range := some 63 }

/-- The verdict on a SCAN run of `n` colours. -/
def Block.judgeScan (s : Block) (l : List ScanColour) (rms : Nat) : Verdict :=
  let res := l.foldl (fun m c => max m c.resid) 0
  let v : Verdict := { status := 0, detail := 0, quality := rms, quality2 := res }
  match l.filterMap (·.disagree), l.filterMap (·.range) with
  | j :: _, _ => { v with status := 9, detail := j }
  | [], j :: _ => { v with status := 10, detail := j }
  | [], [] =>
    if s.afld R.HSF_LOCK_CFG 8 8 < rms || s.afld R.TRIM_QLIM 0 16 < res then { v with status := 0x8000 } else v

/-! ## DRAM (R443) -/

/-- The centre of an eye. -/
def eyeCentre (mask : Nat) : Nat := match eyeOf mask with | some (l, r) => (l + r) / 2 | none => 0

/-- The verdict on a DRAM run: 4 set points of 8 eyes. -/
def judgeDram (d : CalData) : Verdict :=
  let eye (l : List Nat) (i : Nat) : Nat := l.getD i 0 % 2 ^ 128
  let narrow := (List.range 32).foldl (fun n i => min n (min (eyeWidth (eye d.pass1 i)) (eyeWidth (eye d.pass2 i)))) 128
  let v : Verdict := { status := 0, detail := 0, quality := narrow, quality2 := 0 }
  match (List.range 32).find? fun i => decide (4 < dist (eyeCentre (eye d.pass1 i)) (eyeCentre (eye d.pass2 i))) with
  | some i => { v with status := 9, detail := i }
  | none =>
    match (List.range 32).find? fun i => decide (eyeWidth (eye d.pass1 i) < 24) || decide (eyeWidth (eye d.pass2 i) < 24) with
    | some i => { v with status := 10, detail := i }
    | none => v

/-! ## What a result applies (R444) and stores (R445) -/

/-- The active P-I image is copied into the inactive one, by 4 KiB pages. -/
def Block.copyPi (s : Block) : Block :=
  (List.range 256).foldl (fun s i =>
    match capAt s.ls.piPages (piOff s.ls.piImage + 4096 * i), capAt s.ls.piPages (piOff (1 - s.ls.piImage) + 4096 * i) with
    | some x, some y => s.setMem y (s.memBytes x 4096)
    | _, _ => s) s

/-- The bytes of a P-I record. -/
def piBytes (pts : List (Nat × Nat)) : List Byte := pts.flatMap fun p => leBytes 2 p.1 ++ leBytes 2 p.2

/-- A record is written into the inactive image. -/
def Block.putPi (s : Block) (m : Nat) (pts : List (Nat × Nat)) : Block :=
  s.setCap s.ls.piPages (piOff (1 - s.ls.piImage) + 256 * m) (piBytes pts)

/-- The delays a DRAM run gives: the mean of both passes' centres, by lane key. -/
def calDelays (q : Nat) (d : CalData) : List (Nat × Nat) :=
  (List.range 32).map fun i =>
    let e (l : List Nat) : Nat := eyeCentre (l.getD i 0 % 2 ^ 128)
    (delayKey q (i / 8) (i % 8 / 2) (i % 2), (e d.pass1 + e d.pass2) / 2)

/-- PD corrections apply at an FB (R444). -/
def Block.pdFb (s : Block) : Block :=
  let l := s.co.pdDue
  let s : Block := { s with co := { s.co with pdDue := [] } }
  l.foldl (fun s (j, k, o, c) => s.modPd j fun q => { q with off := setAt q.off k (some o), corr := setAt q.corr k c }) s

/-- An OK result of a procedure applies (R444). -/
def Block.calApply (s : Block) (r : CalRun) (d : CalData) (pi : List (Nat × Nat)) (sc : List ScanColour) : Block :=
  match r.proc with
  | 1 =>
    ((maskBits 8 r.target).zipIdx).foldl (fun s (j, n) =>
      { s with co := { s.co with pdDue := s.co.pdDue ++ (List.range 4).map fun k => (j, k, pdFit d (4 * n + k)) } }) s
  | 2 =>
    let s := (s.copyPi.putPi r.target pi).piCheck
    (s.setFld R.LSG_CFG 8 1 1).commitIn (2 ^ 0x15) false []
  | 3 =>
    let s := ((maskBits 3 r.target).zip sc).foldl (fun s (q, c) =>
      let s := s.setRegs (c.points.zipIdx.map fun (p, k) => (win 0x14 (q * 64 + k), w32 (p.1 + 65536 * (p.2 % 4096))))
      { s with co := { s.co with hl := setAt s.co.hl q (c.x, c.y, c.flux), hmDue := true } }) s
    s.commitIn (2 ^ 0x14) false []
  | _ => { s with dc := { s.dc with delays := (calDelays r.target d).foldl (fun l e => aput l e.1 e.2) s.dc.delays } }

/-- The record type of a procedure (Table 16.1). -/
def calType (proc : Nat) : Nat := match proc with | 1 => 9 | 2 => 14 | 3 => 10 | _ => 11

/-- The payload of a calibration record: all that a procedure's kind has applied (a layout of the model's own: the spec gives none). -/
def Block.calPayload (s : Block) (r : CalRun) (pi : List (Nat × Nat)) : List Byte :=
  match r.proc with
  | 1 => (List.range 8).flatMap fun j => (List.range 4).flatMap fun k =>
      let q := s.pdFb.pd j
      let o := q.off.getD k none
      leBytes 2 (o.getD 0) ++ leBytes 2 o.isSome.toNat ++ leBytes 4 (q.corr.getD k 65536)
  | 2 => leBytes 4 r.target ++ piBytes pi
  | 3 => s.co.hl.flatMap fun h => leBytes 4 h.1 ++ leBytes 4 h.2.1 ++ leBytes 4 h.2.2
  | _ => s.dc.delays.flatMap fun e => leBytes 2 e.1 ++ leBytes 2 e.2

/-- What a calibration record holds takes effect at boot, in the same layout (PI records lie in the image the host loads). -/
def Block.calLoad (s : Block) (ty : Nat) (bs : List Byte) : Block :=
  match ty with
  | 9 => (List.range 32).foldl (fun s i =>
      s.modPd (i / 4) fun q => { q with off := setAt q.off (i % 4) (if field bs (8 * i + 2) 2 = 1 then some (field bs (8 * i) 2) else none),
                                        corr := setAt q.corr (i % 4) (field bs (8 * i + 4) 4) }) s
  | 10 => { s with co := { s.co with hl := (List.range 3).map fun q => (field bs (12 * q) 4, field bs (12 * q + 4) 4, field bs (12 * q + 8) 4) } }
  | 11 => { s with dc := { s.dc with delays := (List.range (bs.length / 4)).foldl (fun l i =>
                                       aput l (field bs (4 * i) 2) (field bs (4 * i + 2) 2)) s.dc.delays } }
  | _ => s

/-- The store of R445 is asked for; under owner policy it goes to CAL_PROPOSED (R524). -/
def Block.calStore (s : Block) (r : CalRun) (pi : List (Nat × Nat)) : Block :=
  let ty := calType r.proc
  let pay := s.calPayload r pi
  let q := if s.ownerPolicy then recordReq 15 false (leBytes 2 ty ++ s.uidBytes ++ pay) none .calib else recordReq ty false pay none .calib
  (s.seedAsk q).setStage r.cseq 3

/-- The store of a calibration has ended (R445): CALIB_STORED, and the command completes. -/
def Block.calStored (s : Block) (ok : Bool) : Block :=
  match s.ca with
  | none => s
  | some r =>
    if r.phase = 8 then (s.postI 0x1B 0x13A 0 (pageInst 0x1B) true [r.cseq, pk (!ok).toNat 0 0 0]).calFinish r 0 0 else s

/-! ## The points of a PI sweep (R440) -/

/-- The points a frame takes: 10 us each in the dark interval, from its start + park time + 16 us to FB - 22 us; one for a slice channel,
none where a probe is due on its chain. -/
def Block.pointsPerFrame (s : Block) (m : Nat) : Nat :=
  if m < 64 then
    let park := match (s.port (memCfg s.act m).group).ident with | some i => i.park * 1000 | none => 0
    (darkNs s.act - park - 38000) / 10000
  else if s.chnProbe ((m - 64) / 512) then 0 else 1

/-- The points driven in the frame that ends are counted: 64 of pass 1, then 64 of pass 2. -/
def Block.pointsFb (s : Block) : Block :=
  match s.ca with
  | some r =>
    if r.proc = 2 ∧ r.phase = 3 then { s with ca := some { r with points := min 128 (r.points + s.pointsPerFrame r.target) } } else s
  | none => s

/-! ## The commands that end a run -/

/-- Do the operand's lists fit the procedure, and has a PI sweep driven all its points? -/
def calDataOk (r : CalRun) (d : CalData) : Bool :=
  let n := match r.proc with
    | 1 => 12 * (maskBits 8 r.target).length
    | 2 => 64
    | 3 => 64 * (maskBits 3 r.target).length
    | _ => 32
  d.pass1.length == n && d.pass2.length == n && (r.proc != 2 || decide (128 ≤ r.points))

/-- The verdict of a run, with a PI record and a SCAN's colours. -/
def Block.calJudge (s : Block) (r : CalRun) (d : CalData) : Verdict × List (Nat × Nat) × List ScanColour :=
  match r.proc with
  | 1 => (s.judgePd (4 * (maskBits 8 r.target).length) d, [], [])
  | 2 => let (v, p) := s.judgePi r d; (v, p, [])
  | 3 =>
    let l := (List.range (maskBits 3 r.target).length).map (s.judgeColour r d)
    (s.judgeScan l (d.extra.getD 1 0), [], l)
  | _ => (judgeDram d, [], [])

/-- CALIBRATION_RESULT (R437, R438, R444): the passes end; the end check, the judgement, and what follows. -/
def Block.calibrationResult (s : Block) (r : CalRun) (d : CalData) : Block :=
  match s.calFails r true with
  | p :: _ => s.calStop 0x8002 p
  | [] =>
    let (v, pi, sc) := s.calJudge r d
    let s := s.setRegs [(R.TRIM_QUALITY, w32 v.quality), (R.TRIM_QUALITY2, w32 v.quality2)]
    if v.status ≠ 0 ∨ natBit r.flags 1 = true then s.calFinish r v.status v.detail
    else
      let s := s.calApply r d pi sc
      if natBit r.flags 0 then ({ s with ca := some { r with phase := 8 } } : Block).calStore r pi
      else s.calFinish r 0 0

def execCalibrationResult (d : CalData) (s : State) : Res :=
  s.does fun s =>
    match s.ca with
    | some r => if (r.phase = 3 ∨ r.phase = 4) ∧ calDataOk r d = true then s.calibrationResult r d else s
    | none => s

/-- PRECOND_LOST (R437, Table 13.10). -/
def execPrecondLost (s : State) : Res :=
  s.does fun s =>
    match s.ca with
    | some r =>
      if 7 ≤ r.phase then s
      else match s.calFails r true with
        | d :: _ => s.calStop 0x8002 d
        | [] => s
    | none => s

/-- TRIM_ABORT (R438): a write of TRIM_CTRL. -/
def Block.trimCtrl (s : Block) (v : Word) : Block := if bit v 0 then s.calStop 5 0 else s

def execTrimAbort (v : Word) (s : State) : Res := s.does fun s => s.onStrobe fun s => s.trimCtrl v

/-- TRIM_TIMEOUT (R438): a CALIBRATE has run TRIM_TIMEOUT seconds. -/
def execTrimTimeout (s : State) : Res :=
  s.does fun s =>
    match s.ca with
    | some r => (s.advance (r.since + s.afld R.TRIM_TIMEOUT 0 16 * 1000000000 - s.now)).calStop 0x8003 0
    | none => s

/-- SWEEP_ABORTED (R443, R492): a change of the set point falls due during a sweep. -/
def execSweepAborted (s : State) : Res :=
  s.does fun s =>
    match s.dc.sweep with
    | some w =>
      if s.dc.change.isNone && s.dc.due.isNone then s
      else if w.calib then s.calStop 0x8001 0
      else ((s.sweepOver w).post 0x1D 0x154 [pk w.pair w.sp 1 0, w.cseq]).complete w.cseq 0x8001
    | none => s

end Sys2Proof.Machine
end

