-- ==== Sys2Proof/Machine/Boot.lean ====
section
/-!
DEFINITION. Supplies, resets, the boot chain, the power-fail warning, firmware staging and activation, housekeeping restarts and the
Firebreak latch (R31 to R36, R126 to R162, R464 to R467).
-/
namespace Sys2Proof.Machine

/-! ## What the status registers say -/

/-- PWR_STATE (Table 4.13). -/
def Block.pwrState (s : Block) : Word := w32 (s.pw.state.code + 16 * s.pw.prev.code + 256 * s.pw.reason + 65536 * s.pw.litMask)

/-- THERM_STATUS (Table 14.6). -/
def Block.thermStatus (s : Block) : Word :=
  w32 (s.th.lvl.code + 4 * s.th.lvl.hold.toNat + 8 * s.th.low.toNat + 16 * (decide (s.th.steps ≠ 0)).toNat +
    65536 * bitsMask ((List.range 12).filter fun g => (s.th.mg[g]?.map fun q => q.lvl.throttle).getD false))

/-- A bit of PWR_RESET_CAUSE is set. -/
def Block.cause (s : Block) (i : Nat) : Block := s.setFld R.PWR_RESET_CAUSE i 1 1

/-! ## Resets (R127 to R129, R136, Table 4.6) -/

/-- The registers that only VDD_AON power-on clears (Table 4.6; PWR_PF_COUNT by Table 4.13, log entry 158). -/
def aonRegs : List Nat := [R.PWR_RESET_CAUSE, R.PWR_RAIL_FAULT, R.PWR_AON_SCRATCH, R.PWR_FIREBREAK, R.PWR_PF_COUNT]

/-- A channel pair through a warm reset: one that held its data is in self-refresh (Table 4.6). -/
def Pair.kept (q : Pair) : Pair := if 2 ≤ q.st && decide (q.st ≤ 6) then { Pair.reset with st := 4 } else Pair.reset

/-- What a reset of everything outside the always-on domain leaves: the Seedbank and the fuses, the pins, the always-on registers; a
warm reset also keeps DRAM, the scratch registers, the latched BOOT_SRC and the power-fail warning (Table 4.6). -/
def Block.resetKeep (s : Block) (warm : Bool) : Block :=
  let r := Block.reset
  let keep := aonRegs ++ (if warm then [R.DEV_SCRATCH0, R.DEV_SCRATCH1] else [])
  let t : Block := { r with
    now := s.now, free := s.free, out := s.out,
    pins := { s.pins with hlEn := 0, maRstN := r.pins.maRstN, hsMidScale := false, hsDrvX := 0, hsDrvY := 0, cueOut := 0 },
    se := { r.se with mram := s.se.mram, bad := s.se.bad, otp := s.se.otp },
    dram := if warm then s.dram else [],
    dc := { r.dc with poison := if warm then s.dc.poison else [], pairs := if warm then s.dc.pairs.map Pair.kept else r.dc.pairs },
    bt := { r.bt with src := s.bt.src },
    fl := { r.fl with mismatches := s.fl.mismatches },
    pw := if warm then { r.pw with pfAsserted := s.pw.pfAsserted, pfCut := s.pw.pfCut, pfActed := s.pw.pfActed,
                                   pfRecovering := s.pw.pfRecovering, pfSince := s.pw.pfSince,
                                   pfRecordDone := s.pw.pfRecordDone } else r.pw }
  t.setRegs (keep.map fun a => (a, s.reg a))

/-- The state changes outside the event ring's reach: to AON, BOOT or OFF. -/
def Block.place (s : Block) (dst prev : DevState) (reason : Nat) : Block :=
  { s with pw := { s.pw with state := dst, prev := prev, reason := reason, since := s.now } }

/-- VDD_AON_VALID (Table 4.1): the always-on domain starts cleared. -/
def execVddAonValid (s : State) : Res :=
  s.does fun s =>
    if s.pw.state ≠ .off then s
    else
      let t := (s.resetKeep false).setRegs (aonRegs.map fun a => (a, 0))
      let t : Block := { t with pins := { t.pins with vddAon := true } }
      (t.cause 0).place .aon .off 0

/-- VDD_AON_LOSS (R129): below 1.2 V everything is lost, the Firebreak latch among it. -/
def execVddAonLoss (s : State) : Res :=
  s.does fun s =>
    if s.pw.state = .off then s
    else
      let t := (s.resetKeep false).setRegs (aonRegs.map fun a => (a, 0))
      let t : Block := { t with pins := { t.pins with vddAon := false } }
      t.place .off s.pw.state 0

/-- PORST_N_ASSERT (Table 4.6): light ends, and everything outside the always-on domain is reset. -/
def execPorstNAssert (s : State) : Res :=
  s.does fun s =>
    let p : Block := { s with pins := { s.pins with porstN := false } }
    if s.pw.state = .off ∨ s.pw.state = .aon ∨ s.pw.coreGated = true then p
    else ((p.resetKeep false).cause 1).place .aon s.pw.state 0x12

/-- The ROM starts: BOOT_SRC is sampled, but for a warm reset. -/
def Block.startBoot (s : Block) (reason : Nat) (src : Option Nat) : Block :=
  let t := s.place .boot s.pw.state reason
  let b := src.getD s.bt.src % 4
  ({ t with bt := { t.bt with src := b, trying := 0 }, pins := { t.pins with bootSrc := src.getD t.pins.bootSrc } } : Block).romTrain

/-- Are REFCLK and XTAL25 good (R127, R661, R662)? -/
def Block.clocksOk (s : Block) : Bool := s.pins.refclkOk && s.pins.xtalOk

/-- PORST_N_RELEASE (R144): with the rails good, from AON; `src` is the level of BOOT_SRC. -/
def execPorstNRelease (src : Nat) (s : State) : Res :=
  s.does fun s =>
    let s : Block := { s with pins := { s.pins with porstN := true } }
    if s.pw.state = .aon ∧ s.pw.heldReset = false ∧ s.pw.coreGated = false ∧ s.clocksOk = true then s.startBoot s.pw.reason (some src) else s

/-- The always-on domain holds everything else in reset (R128, R661, R662); `why` is the bit of PWR_RESET_CAUSE, where there is one. -/
def Block.resetHold (s : Block) (why : Option Nat) : Block :=
  let t := if s.pw.state = .aon then s
    else
      let t := (s.advance 2000).resetKeep false
      (match why with | some i => t.cause i | none => t).place .aon s.pw.state 0x12
  { t with pw := { t.pw with heldReset := true } }

/-- Can a supply or clock fault act: powered, not held by the Firebreak latch, and past PORST_N? -/
def Block.holdable (s : Block) : Bool := s.pw.state != .off && !s.pw.coreGated && (s.pw.state != .aon || s.pw.heldReset)

/-- The hold ends once every rail and clock is good: the controller boots as after PORST_N. -/
def Block.resetRelease (s : Block) (src : Nat) : Block :=
  if s.pw.state = .aon ∧ s.pw.heldReset = true ∧ s.reg R.PWR_RAIL_STATUS = 0xFFF ∧ s.clocksOk = true then
    let s : Block := { s with pw := { s.pw with heldReset := false } }
    if s.pins.porstN then s.startBoot 0x12 (some src) else s
  else s

/-- RAIL_OUT_OF_TOLERANCE (R128): a rail is out for more than 2 us; it is recorded and everything outside the always-on domain is held. -/
def execRailOutOfTolerance (rail : Nat) (s : State) : Res :=
  s.does fun s =>
    if 12 ≤ rail ∨ s.holdable = false then s
    else ((s.resetHold (some 2)).setFld R.PWR_RAIL_FAULT rail 1 1).setFld R.PWR_RAIL_STATUS rail 1 0

/-- RAILS_RESTORED (R128): every rail has been in tolerance for 1 ms. -/
def execRailsRestored (src : Nat) (s : State) : Res :=
  s.does fun s => if s.pw.state = .aon ∧ s.pw.heldReset = true then (s.setReg R.PWR_RAIL_STATUS 0xFFF).resetRelease src else s

/-- A warm reset (R136, R140), by the host or over the fabric. -/
def Block.warmReset (s : Block) (bit : Nat) : Block :=
  (((s.resetKeep true).cause bit).place .boot s.pw.state 8).romTrain

/-- PWR_RESET_CTRL (R137, R138). -/
def Block.resetCtrl (s : Block) (v : Word) : Block :=
  if bits v 16 16 ≠ 0x5752 ∨ !bit v 0 then s
  else if s.pw.state.lightOn && !bit v 1 then s.errCause 0x01 3
  else s.warmReset 3

def execWarmReset (v : Word) (s : State) : Res := s.does fun s => s.onStrobe fun s => s.resetCtrl v

/-- FABRIC_RESET_REQ (R139, R568): a RESET_REQ from node `src`; `d` is its payload. -/
def execFabricResetReq (p src : Nat) (d : Bytes) (s : State) : Res :=
  s.does fun s =>
    if !s.fabOn ∨ 4 ≤ p ∨ (padBytes 8 d ≠ s.uidBytes) then s
    else
      let refuse (why : Nat) : Block := (s.bumpSat R.PWR_FABRIC_RESET 16 16).post 0x01 0x018 [w32 (src % 65536 + 65536 * why)]
      if !bit (s.reg R.PWR_FABRIC_RESET) 0 then refuse 0
      else if s.afld R.WPX_ADMIT_CFG 0 2 ≠ 0 ∧ !s.nodeAdmitted src then refuse 1
      else if s.pw.state.lightOn then refuse 2
      else s.warmReset 4

/-! ## Boot (R144 to R152) -/

/-- The limit of LENGTH for a kind (R147). -/
def imageLimit (kind : Nat) : Nat := match kind with | 0 => 0x100000 | 1 => 0x1000000 | _ => 0x200000

/-- PUBKEY of an image, and what its SIG covers: bytes 0 to 639 and the body (Table 4.8). -/
def imageKey (bs : List Byte) : List Byte := (bs.drop 128).take 512
def imageText (bs : List Byte) : List Byte := bs.take 640 ++ (bs.drop 1152).take (field bs 16 4)

/-- Does an image's SIG verify under its PUBKEY? -/
def imageSig (bs : List Byte) : Bool := pssVerify (imageKey bs) (imageText bs) ((bs.drop 640).take 512)

/-- Why an image is not valid (R147), as BOOT_FAIL_INFO codes it (Table 4.14), 0 where it is; `bs` are its header and body, `eff` the
effective rollback counter.  Bytes without the header of its kind are no image (log entry 188). -/
def Block.imageFault (s : Block) (kind eff : Nat) (bs : List Byte) : Nat :=
  if field bs 0 4 ≠ 0x47535753 ∨ field bs 4 1 ≠ kind then 1
  else if sha512 (imageKey bs) ≠ s.otpBytes 0 64 then 2
  else if !imageSig bs then 3
  else if field bs 12 2 < eff then 4
  else if imageLimit kind < field bs 16 4 then 5
  else 0

/-- An image as its bytes give it (Table 4.8). -/
def Block.imageOf (s : Block) (kind eff : Nat) (bs : List Byte) : Image :=
  { version := w32 (field bs 8 4), rollback := field bs 12 2, length := field bs 16 4, svCompat := w32 (field bs 20 4), digest := sha512 bs,
    valid := s.imageFault kind eff bs == 0 }

/-- The blown steps of the rollback field (R152). -/
def Block.otpRollback (s : Block) : Nat := ((List.range 64).filter fun i => s.fuse (832 + i)).length

/-- The rollback mirror, where its record is valid. -/
def Block.mirror (s : Block) : Option Nat := (s.newestData 6).map fun d => field d 0 4

/-- The effective counter (Table 4.10). -/
def Block.effective (s : Block) : Nat :=
  let n := s.otpRollback
  if s.mirror = some (n + 1) ∧ n < 64 then n + 1 else n

/-- A record of a 4-byte number is asked for. -/
def Block.numRecord (s : Block) (ty n : Nat) (cseq : Option Word) (why : SeedWhy) : Block := s.seedAsk (recordReq ty false (leBytes 4 n) cseq why)

/-- The rollback mirror at boot (R152, Table 4.10). -/
def Block.mirrorCheck (s : Block) : Block :=
  let n := s.otpRollback
  let eff := s.effective
  let old := s.mirror
  let status (s : Block) (repaired : Bool) : Block := s.setReg R.BOOT_ROLLBACK (w32 (eff + 256 * eff + 65536 * repaired.toNat))
  if old = some n then status s false
  else if old = some (n + 1) ∧ n < 64 then status (s.blowAll [832 + n]) false
  else match old with
    | some m =>
      let s := s.numRecord 6 n none .none
      if m < n then status s true
      else status ((s.postI 0x2B 0x210 2 (pageInst 0x2B) false [w32 (m + 65536 * eff)]).raise 0x02 0x210 1 (w32 (m + 65536 * eff)) .fb) true
    | none =>
      let s := s.numRecord 6 n none .none
      status ((s.postI 0x2B 0x210 2 (pageInst 0x2B) false [w32 (0xFFFF + 65536 * eff)]).raise 0x02 0x210 1 (w32 (0xFFFF + 65536 * eff)) .fb) true

/-- The image of a kind in a Seedbank slot, where the slot holds a valid record. -/
def Block.imageAt (s : Block) (eff kind slot : Nat) : Option Image :=
  let i := s.slot (kind + 1) slot
  if i.st = 0 then none else some (s.imageOf kind eff i.payload)

/-- A valid image of a kind in a Seedbank slot. -/
def Block.goodAt (s : Block) (eff kind slot : Nat) : Option Image := (s.imageAt eff kind slot).filter (·.valid)

/-- The stage-1 image in on-die SRAM, where it is whole and valid (R146). -/
def Block.goodInSram (s : Block) (eff : Nat) : Option Image :=
  if s.bt.imageLen < 1152 then none
  else (some (s.imageOf 0 eff s.imageBytes)).filter fun i => i.valid && decide (1152 + i.length ≤ s.bt.imageLen)

/-- The selected slot of a kind (types 4 and 5); without a valid selector record slot A is tried first (log entry 235). -/
def Block.selected (s : Block) (ty : Nat) : Nat := match s.newestData ty with | some d => field d 0 1 % 2 | none => 0

/-- The slot that boots of a kind: the selected one where it is good, else the other (R148). -/
def pickSlot (sel : Nat) (good : Nat → Bool) : Option Nat := if good sel then some sel else if good (1 - sel) then some (1 - sel) else none

/-- The major and minor version of an SV image lie within an HK image's range (Table 4.8). -/
def compat (hk sv : Image) : Bool :=
  let v := bits sv.version 8 16
  decide (bits hk.svCompat 0 16 ≤ v) && decide (v ≤ bits hk.svCompat 16 16)

/-- The newest valid stage-1 image of the Seedbank, by its slot (R148, R507). -/
def Block.s1Pick (s : Block) (eff : Nat) : Option Nat :=
  let ok (n : Nat) : Bool := (s.goodAt eff 0 n).isSome
  if ok 0 && ok 1 then some (if newer (s.slot 1 1).seq (s.slot 1 0).seq then 1 else 0)
  else if ok 0 then some 0 else if ok 1 then some 1 else none

/-- The slot of the SV image that boots, and that of the HK image, whose SV_COMPAT must take the SV image in (R148). -/
def Block.svPick (s : Block) (eff : Nat) : Option Nat :=
  pickSlot (s.selected 5) fun n => (s.goodAt eff 2 n).isSome
def Block.hkPick (s : Block) (eff : Nat) (sv : Image) : Option Nat :=
  pickSlot (s.selected 4) fun n => (s.goodAt eff 1 n).any fun i => compat i sv

/-- The images that boot: the slot of stage-1, none for the one in on-die SRAM, then the slots of HK and SV (R146, R148). -/
def Block.bootPick (s : Block) : Option (Option Nat × Nat × Nat) :=
  let eff := s.effective
  let s1 := if s.bootSource = 0 then (s.s1Pick eff).map some else (s.goodInSram eff).map fun _ => none
  match s1, s.svPick eff with
  | some a, some v => ((s.goodAt eff 2 v).bind (s.hkPick eff)).map fun h => (a, h, v)
  | _, _ => none

/-- Why a slot of a kind does not boot: BOOT_FAIL_INFO's cause, kind and slot. -/
def Block.slotFault (s : Block) (eff kind slot : Nat) : Nat × Nat × Nat :=
  let i := s.slot (kind + 1) slot
  (if i.st = 0 then 1 else s.imageFault kind eff i.payload, kind, slot)

/-- Why the source being tried does not boot (Table 4.14): stage-1 first, then SV, then HK, each by the slot that is tried first. -/
def Block.bootFault (s : Block) : Nat × Nat × Nat :=
  let eff := s.effective
  if s.bootSource ≠ 0 ∧ (s.goodInSram eff).isNone then
    (if s.bt.imageLen < 1152 then 1 else max 1 (s.imageFault 0 eff s.imageBytes), 0, 0)
  else if s.bootSource = 0 ∧ (s.s1Pick eff).isNone then s.slotFault eff 0 ((s.newest 1).getD 0)
  else match (s.svPick eff).bind (s.goodAt eff 2) with
    | none => s.slotFault eff 2 (s.selected 5)
    | some _ =>
      let x := s.slotFault eff 1 (s.selected 4)
      if x.1 = 0 then (6, x.2) else x

/-- BOOT_SOURCE_TIMEOUT (R144, R145): the source being tried yields nothing that boots, at once or after SRC_TIMEOUT, and the next
one is tried; what SRAM holds of an earlier source is dropped.  After USB 2.0 recovery there is none: RESULT reads FAIL, and the
controller waits on USB 2.0. -/
def execBootSourceTimeout (timeout : Bool) (s : State) : Res :=
  s.does fun s =>
    if s.pw.state ≠ .boot then s
    else
      let (cause, kind, slot) := if timeout then (7, 0, 0) else s.bootFault
      let s := if timeout then s.advance (s.fld R.PWR_BOOT_CFG 0 8 * 1000000000) else s
      let s : Block := if s.bootSource = 1 then s else { s with bt := { s.bt with trying := s.bt.trying + 1, image := [],
                                                                                  imageLen := 0, neighbour := none }, fb := Block.reset.fb }
      let s := s.setReg R.BOOT_FAIL_INFO (w32 (cause % 256 + 256 * (kind % 4) + 1024 * (slot % 2)))
      if s.bootSource = 1 then s.setFld R.BOOT_STATUS 4 2 2 else s

/-- The version of a slot as its register gives it: 0 where it is not valid. -/
def slotVersion (i : Option Image) : Word := match i with | some x => if x.valid then x.version else 0 | none => 0

/-- Is the image of a slot valid? -/
def slotValid (q : ImageSlots) (n : Nat) : Bool := match (if n = 0 then q.a else q.b) with | some x => x.valid | none => false

/-- A staged image stands valid in the slot that is not running. -/
def ImageSlots.ready (q : ImageSlots) : Bool := q.staged && slotValid q (1 - q.running)

/-- The word of BOOT_HK_SLOT and BOOT_SV_SLOT. -/
def ImageSlots.word (q : ImageSlots) : Word := w32 (q.running + 2 * q.selector + 4 * q.ready.toNat + 8 * q.trial.toNat)

/-- The BOOT registers that follow the slots and the log. -/
def Block.bootRegs (s : Block) : Block :=
  s.setRegs
    [(R.BOOT_S1_SLOT, w32 (s.bt.s1.running + 2 * (slotValid s.bt.s1 (1 - s.bt.s1.running)).toNat)),
     (R.BOOT_S1_VERSION_A, slotVersion s.bt.s1.a), (R.BOOT_S1_VERSION_B, slotVersion s.bt.s1.b),
     (R.BOOT_HK_SLOT, s.bt.hk.word), (R.BOOT_HK_VERSION_A, slotVersion s.bt.hk.a), (R.BOOT_HK_VERSION_B, slotVersion s.bt.hk.b),
     (R.BOOT_SV_SLOT, s.bt.sv.word), (R.BOOT_SV_VERSION_A, slotVersion s.bt.sv.a), (R.BOOT_SV_VERSION_B, slotVersion s.bt.sv.b),
     (R.BOOT_MLOG_COUNT, w32 s.bt.mlog.length),
     (R.DEV_FW_VERSION, slotVersion (if s.bt.hk.running = 0 then s.bt.hk.a else s.bt.hk.b))]

/-- The digest of the calibration records (R525). -/
def Block.calDigest (s : Block) : List Byte :=
  sha512 ([12, 9, 10, 11, 14].flatMap fun ty =>
    match s.newest ty with
    | some k => let i := s.slot ty k; leBytes 2 ty ++ leBytes 4 i.seq.toNat ++ leBytes 4 i.len ++ i.payload
    | none => leBytes 2 ty ++ leBytes 4 0 ++ leBytes 4 0)

/-- The records under owner policy whose owner signature does not verify (R151, R523). -/
def Block.unsigned (s : Block) : List Nat :=
  if !s.ownerPolicy then []
  else [13, 9, 10, 11, 14].filter fun ty =>
    match s.newest ty with
    | some k => let i := s.slot ty k; !(i.signed && s.trailerOk ty i.payload)
    | none => false

/-- The configuration and calibration records are checked and applied (R150, R151, R525). -/
def Block.recordsAtBoot (s : Block) : Block :=
  let s := (s.measure 4 (sha512 ((s.newestData 13).getD []))).measure 5 s.calDigest
  let bad := s.unsigned
  let s := bad.foldl (fun s ty =>
    (s.postI 0x20 0x193 3 (pageInst 0x20) false [w32 (ty + 65536 * trailerSlot ((s.newestData ty).getD []) + 16777216)]).raise 0x02 0x193 2
      (w32 (ty + 65536 * trailerSlot ((s.newestData ty).getD []) + 16777216)) .auto) s
  [9, 10, 11].foldl (fun s ty => if bad.contains ty then s else match s.newestData ty with | some d => s.calLoad ty d | none => s) s

/-- Has the boot read a record as CHK_ONLY (Table 16.7)?  It reads both slots of the images and the newest record of the other types up
to CAL_PI. -/
def Block.chkAtBoot (s : Block) : Bool :=
  ((List.range 3).any fun k => (s.slot (k + 1) 0).st == 2 || (s.slot (k + 1) 1).st == 2) ||
    ((List.range 15).any fun ty => match s.newest ty with | some k => (s.slot ty k).st == 2 | none => false)

/-- The identity (R519): a valid record and an unwrap that succeeds, or a class C2 fault. -/
def Block.identityAtBoot (s : Block) (f : BootFacts) : Block :=
  let rec_ := (s.newest 8).isSome
  let s : Block := { s with tr := { s.tr with identity := rec_ && f.unwrap, cert := if rec_ then f.cert else [] } }
  if rec_ && f.unwrap then s
  else
    let d := pk rec_.toNat 0 0 0
    (s.postI 0x2B 0x211 3 (pageInst 0x2B) false [d]).raise 0x20 0x211 2 d .auto

/-- A record of an earlier shutdown (0) or power failure (1): its copies, and a report where it is newer than the last (R466, R511). -/
def Block.reportAtBoot (s : Block) (kind : Nat) : Block :=
  match s.newestCopy kind with
  | none => s
  | some k =>
    let bs := s.seedBytes (reservedAddr kind k) 64
    let w (i : Nat) : Word := w32 (field bs (4 + 4 * i) 4)
    let s := if kind = 0 then
        s.setRegs [(R.THERM_LAST_SD 0, w 0), (R.THERM_LAST_SD 1, w 1), (R.THERM_LAST_SD 2, w 2), (R.THERM_LAST_SD 3, w32 (field bs 6 2))]
      else s.setRegs [(R.SEED_LAST_PF 0, w 0), (R.SEED_LAST_PF 1, w 1), (R.SEED_LAST_PF 2, w 2)]
    let seq := s.copySeq kind k
    let due := match s.reportSeq kind with | some q => newer seq q | none => true
    if due then
      let e := if kind = 0 then (0x1C, 0x144, [w 0, w 1, w 2], kind, seq) else (0x1F, 0x185, [w 0, w 1, w 2], kind, seq)
      { s with rg := { s.rg with reports := s.rg.reports ++ [e] } }
    else s

/-- Fabric time starts at entry to STANDBY (Table 0.2). -/
def Block.startTime (s : Block) : Block :=
  let t := Block.reset.tm
  let s : Block := { s with tm := { t with run := true, nextK := 1 } }
  s.goSrc s.wantSrc

/-- The slots of a kind as a boot leaves them.  An image that is newer than the running one and valid is one that was staged (R158; log
entry 189). -/
def Block.bootSlots (s : Block) (kind eff running sel : Nat) : ImageSlots :=
  { a := s.imageAt eff kind 0, b := s.imageAt eff kind 1, running := running, selector := sel,
    staged := kind != 0 && (s.goodAt eff kind (1 - running)).isSome && newer (s.slot (kind + 1) (1 - running)).seq (s.slot (kind + 1) running).seq,
    trial := false }

/-- The digest of an image that boots, as it is measured. -/
def digestOf (i : Option Image) : List Byte := (i.map (·.digest)).getD []

/-- The boot chain ends (R147 to R155, Table 4.9): `s1` is the slot of stage-1, none for the image in on-die SRAM (BOOT_S1_SLOT
then names slot A, log entry 190), `hk` and `sv` the slots of HK and SV.  With the Firebreak latch set, SHUTDOWN_LATCHED is
entered from BOOT, and fabric time starts there (R140; log entry 241). -/
def Block.bootDone (s : Block) (f : BootFacts) (s1 : Option Nat) (hk sv : Nat) : Block :=
  let s := s.advance f.ns
  let eff := s.effective
  let owner := s.fuse 2950
  let s := s.setReg R.BOOT_STATUS (w32 (2 + 16 + 64 * s.bootSource + 256 * owner.toNat))
  let s := s.setRegs [(R.DEV_UID_LO, w32 (leNat (s.otpBytes 768 4))), (R.DEV_UID_HI, w32 (leNat (s.otpBytes 800 4)))]
  let s := s.mirrorCheck
  let sram := if s1.isNone then s.goodInSram eff else none
  let s : Block := { s with fb := Block.reset.fb, bt := { s.bt with
      s1 := s.bootSlots 0 eff (s1.getD 0) 0, hk := s.bootSlots 1 eff hk (s.selected 4),
      sv := s.bootSlots 2 eff sv (s.selected 5), recovered := sram, neighbour := none,
      hkRunning := 0xF, hkSince := s.now, m := List.replicate 64 0, mlog := [] } }
  let s := s.pairIn 11
  let (a, s) := s.takeBelow 0xEFFEF
  let a := 0xB00000000 + 4096 * a
  let s := s.setRegs [(R.BOOT_MLOG_ADDR_LO, w32 a), (R.BOOT_MLOG_ADDR_HI, w32 (a / 0x100000000))]
  let s := (((s.measure 0 f.rom).measure 1 (digestOf (match s1 with | some n => s.goodAt eff 0 n | none => sram))).measure 2
    (digestOf (s.goodAt eff 1 hk))).measure 3 (digestOf (s.goodAt eff 2 sv))
  let s := (s.recordsAtBoot).identityAtBoot f
  let s : Block := { s with se := { s.se with chkOnly := s.chkAtBoot } }
  let s := (s.reportAtBoot 0).reportAtBoot 1
  let s : Block := { s with fl := { s.fl with svRunning := true, svPassed := true } }
  let s := s.bootRegs.setReg R.BOOT_TIME (w32 ((s.now - s.pw.since) / 1000000))
  let us := s.usSince s.pw.since
  if bit (s.reg R.PWR_FIREBREAK) 0 then ((s.goto .shutdownLatched 0x0A us).post 0x03 0x026 [2]).startTime
  else ((s.goto .standby 1 us).post 0x03 0x026 [2]).startTime.standbyInputs

/-- BOOT_COMPLETE (R150): with every image valid the device enters STANDBY, or SHUTDOWN_LATCHED again after a laser-model shutdown. -/
def execBootComplete (f : BootFacts) (s : State) : Res :=
  s.does fun s =>
    if s.pw.state ≠ .boot then s
    else match s.bootPick with
      | some (a, h, v) => s.bootDone f a h v
      | none => s

/-! ## Power-fail warning (R130 to R135) -/

/-- The record in progress at an assertion: 0 none, 1 completed, 2 abandoned (R132). -/
def Block.pfRecord (s : Block) : Nat × Nat × Word :=
  match s.se.wr with
  | none => (0, 0, 0)
  | some w => (if w.words - w.done ≤ 2048 then 1 else 2, w.req.ty, w.seq)

/-- PF_WARN (R130 to R132): PWR_FAIL_N has been low for 1 us. -/
def execPfWarn (s : State) : Res :=
  s.does fun s =>
    let s : Block := { s with pins := { s.pins with pwrFailN := false } }
    if s.pw.pfAsserted ∨ s.pw.state = .off ∨ s.pw.state = .aon ∨ s.pw.coreGated = true then s
    else
      let r := s.pfRecord
      let s : Block := { s with pw := { s.pw with pfAsserted := true, pfActed := false, pfRecovering := false, pfSince := s.now,
                                                  pfRecordDone := false, pfRec := r } }
      let cal := match s.se.wr with | some w => w.req.why == .calib | none => false
      let s := if r.1 = 2 then s.seedAbandon 1 else s
      let s := if r.1 = 2 && cal then s.calStored false else s
      (s.bump R.PWR_PF_COUNT).post 0x01 0x012 [w32 r.1]

/-- The power-fail record (Table 16.3). -/
def Block.pfBytes (s : Block) (before : Word) : List Byte :=
  leBytes 4 0x46504B53 ++ leBytes 1 s.pw.pfRec.1 ++ leBytes 1 0 ++ leBytes 2 s.pw.pfRec.2.1 ++ leBytes 4 0 ++ leBytes 4 s.tm.fsn.toNat ++
    leBytes 8 s.tm.ft ++ leBytes 4 before.toNat ++ leBytes 4 s.pw.pfRec.2.2.toNat

/-- The laser cut (R133).  Groups that an earlier cut put out and that have not been relit are still to be relit (R134). -/
def Block.laserCut (s : Block) : Block :=
  let before := s.pwrState
  let mask := s.litNow
  let s : Block := { s with pw := { s.pw with pfCut := true, pfActed := true, pfRelight := s.pw.pfRelight ||| mask },
                            fl := { s.fl with exclGroups := s.fl.exclGroups ||| mask } }
  let s := s.lightOut.groupsOut.interrupt
  let s := if s.pw.state.lightOn then (s.goto .ready 0x10).parkAll else s
  let s := ((s.cause 7).refreshMembers).post 0x01 0x013 [w32 mask]
  if s.pw.pfRecordDone then s
  else ({ s with pw := { s.pw with pfRecordDone := true } } : Block).reservedAsk 1 (s.pfBytes before)

/-- PF_LASER_CUT (R133): PWR_FAIL_N is still asserted LASER_DELAY after the assertion; one cut for each assertion. -/
def execPfLaserCut (s : State) : Res :=
  s.does fun s =>
    if s.pw.pfAsserted = true ∧ s.pw.pfActed = false ∧ s.pw.coreGated = false then
    let s := s.advance (s.pw.pfSince + s.fld R.PWR_PF_CFG 0 8 * 1000 - s.now)
    match s.pw.state with
    | .boot | .standby => { s with pw := { s.pw with pfCut := true, pfActed := true } }
    | _ => s.laserCut
  else s

/-- PF_DEASSERT (R131, R134): PWR_FAIL_N returns high. -/
def execPfDeassert (s : State) : Res :=
  s.does fun s =>
    let s : Block := { s with pins := { s.pins with pwrFailN := true } }
    if !s.pw.pfAsserted then s
    else
      let ride := !s.pw.pfActed
      let s : Block := { s with pw := { s.pw with pfAsserted := false, pfRecovering := true,
                                                  pfRideThrough := if ride then satN 16 (s.pw.pfRideThrough + 1) else s.pw.pfRideThrough } }
      let us := (s.now - s.pw.pfSince) / 1000
      let s := s.post 0x01 0x014 [w32 (satN 32 us), pk ride.toNat 0 0 0]
      { s.blowHeld with pw := { s.pw with pfSince := s.now } }

/-- PF_RECOVERED (R131, R134): PWR_FAIL_N has been high for RECOVER; the groups that were lit are relit at the next FB. -/
def execPfRecovered (s : State) : Res :=
  s.does fun s =>
    if s.pw.pfRecovering ∧ s.pw.pfAsserted = false then
    let s := s.advance (s.pw.pfSince + s.fld R.PWR_PF_CFG 16 10 * 1000000 - s.now)
    { s with pw := { s.pw with pfRecovering := false, pfCut := false } }
  else s

/-- Relighting at the first FB after the recovery (R134). -/
def Block.relight (s : Block) : Block :=
  if s.pw.pfCut ∨ s.pw.pfRelight = 0 then s
  else
    let m := s.pw.pfRelight
    let s : Block := { s with pw := { s.pw with pfRelight := 0 } }
    if s.pw.state = .ready ∧ s.lightForbidden = false then
      s.lightGroups (bitsMask ((maskBits 5 m).filter fun g => !s.groupLacks g)) 0x11
        (s.usSince (s.pw.pfSince + s.fld R.PWR_PF_CFG 16 10 * 1000000))
    else s

/-! ## Housekeeping restarts (R31 to R36) -/

/-- DEV_HEARTBEAT (Table 3.9): firmware steps it every 10 ms while the housekeeping cores run. -/
def Block.heartbeat (s : Block) : Word :=
  s.reg R.DEV_HEARTBEAT + (if s.bt.hkRunning = 0 then 0 else w32 ((s.now - s.bt.hkSince) / 10000000))

/-- A housekeeping restart begins (R31 to R35, R508): the commands in progress end ABORTED. -/
def Block.hkRestart (s : Block) (reason : Nat) : Block :=
  let s := s.setReg R.DEV_HEARTBEAT s.heartbeat
  let s : Block := { s with bt := { s.bt with hkRestart := some { reason := reason, since := s.now, tried := none },
                                              hkRunning := 0, fwStage := none } }
  let s := (s.bump R.DEV_HK_RESTARTS).post 0x00 0x004 [w32 reason]
  let s := s.calStop 5 0
  let s : Block := match s.dc.sweep with | some w => s.sweepOver w | none => s
  let s := s.seedAbandon 2
  let s : Block := { s with se := { s.se with queue := s.se.queue.filter fun r => r.kind == 1 || r.kind == 2, fuseCmd := [] },
                            tr := { s.tr with own := none }, rg := { s.rg with snapWait := [], snapDue := [] },
                            pw := { s.pw with stateSet := none } }
  (s.rsaDrop.rg.inflight.filter fun c => c.stage != 0).foldl (fun s c => s.complete c.cseq 5) s.rsaDrop

/-- May a restart begin? -/
def Block.hkMay (s : Block) : Bool := s.bt.hkRestart.isNone && s.bt.hkRunning != 0

/-- PWR_HK_RESTART (Table 4.13). -/
def Block.hkStrobe (s : Block) (v : Word) : Block := if bits v 16 16 = 0x4852 ∧ s.hkMay = true then s.hkRestart 2 else s

def execHkRestartRequest (v : Word) (s : State) : Res := s.does fun s => s.onStrobe fun s => s.hkStrobe v

/-- HK_WATCHDOG_EXPIRY (R31). -/
def execHkWatchdogExpiry (s : State) : Res := s.does fun s => if s.hkMay then s.hkRestart 1 else s

/-- A housekeeping core runs again (R32, R36). -/
def Block.hkEnd (s : Block) : Block :=
  match s.bt.hkRestart with
  | none => s
  | some h =>
    let s : Block := { s with bt := { s.bt with hkRestart := none, hkRunning := 0xF, hkSince := s.now, mgmtLost := false } }
    let s := (s.post 0x00 0x005 [w32 (satN 32 ((s.now - h.since) / 1000))]).autoClose 0x00 0x20A fun _ => true
    match h.tried with
    | some v => s.post 0x02 0x016 [pk 1 1 0 0, v, slotVersion (if s.bt.hk.running = 0 then s.bt.hk.a else s.bt.hk.b)]
    | none => s

/-- HK_RESTART_END (R32): no trial is pending. -/
def execHkRestartEnd (s : State) : Res := s.does fun s => if s.bt.hk.trial then s else s.hkEnd

/-- No housekeeping core has run for 1 s since a restart began: MGMT_LOST and its C2 record (R36). -/
def Block.mgmtGone (s : Block) (since : Nat) : Block :=
  let s := s.advance (since + 1000000000 - s.now)
  let s : Block := { s with bt := { s.bt with mgmtLost := true } }
  let ms := w32 ((s.now - since) / 1000000)
  (s.postI 0x2B 0x20A 3 (pageInst 0x2B) false [ms, s.tm.fsn]).raise 0x00 0x20A 2 ms .auto

/-- MGMT_LOST (R36): no housekeeping core runs 1 s after a restart began. -/
def execMgmtLost (s : State) : Res :=
  s.does fun s =>
    match s.bt.hkRestart with
    | some h => if s.bt.mgmtLost then s else s.mgmtGone h.since
    | none => s

/-! ## Staging and activation (R153, R156 to R162) -/

/-- The slots of a kind change. -/
def Block.modSlots (s : Block) (kind : Nat) (f : ImageSlots → ImageSlots) : Block :=
  match kind with
  | 0 => { s with bt := { s.bt with s1 := f s.bt.s1 } }
  | 1 => { s with bt := { s.bt with hk := f s.bt.hk } }
  | _ => { s with bt := { s.bt with sv := f s.bt.sv } }

/-- An image takes a slot. -/
def ImageSlots.put (q : ImageSlots) (slot : Nat) (i : Option Image) : ImageSlots := if slot = 0 then { q with a := i } else { q with b := i }

/-- FW_STAGE (R156): `host` is the image as the host bus or the fabric node gives it, none where the transfer fails. -/
def Block.fwStageStart (s : Block) (c : Cmd) (host : Option Bytes) : Block :=
  let kind := c.par 16 1
  let src := c.par 17 1
  let len := c.par 20 4
  if 2 < kind ∨ 2 < src ∨ len < 1152 ∨ slotSize (kind + 1) - 32 < len then s.complete c.cseq 2
  else if s.bt.fwStage.isSome then s.complete c.cseq 3
  else if src ≠ 1 ∧ host.isNone = true then s.complete c.cseq 7
  else match s.readBuf (src == 1) (c.par 24 8) len (host.getD []) with
    | (s, none) => s.complete c.cseq 7
    | (s, some bs) =>
      let run := match kind with | 0 => s.bt.s1.running | 1 => s.bt.hk.running | _ => s.bt.sv.running
      let s := (s.modSlots kind fun q => ({ q with staged := false } : ImageSlots).put (1 - run) none).bootRegs
      let s : Block := { s with bt := { s.bt with fwStage := some c.cseq } }
      (s.seedAsk (recordReq (kind + 1) false bs (some c.cseq) .stage)).setStage c.cseq 1

def execFwStage (cseq : Word) (host : Option Bytes) (s : State) : Res :=
  s.does fun s =>
    match s.startable cseq 4 with
    | some c => s.fwStageStart c host
    | none => s

/-- A staged image has been written; the slot is verified as written (R156). -/
def Block.fwStaged (s : Block) (w : SeedWrite) : Block :=
  match s.bt.fwStage with
  | none => s
  | some cseq =>
    let kind := w.req.ty - 1
    let i := s.imageAt (s.fld R.BOOT_ROLLBACK 0 7) kind w.slot
    let ok := i.any (·.valid)
    let s := (({ s with bt := { s.bt with fwStage := none } } : Block).verified (imageSig (s.slot w.req.ty w.slot).payload)).modSlots kind fun q =>
      ({ q with staged := ok && kind != 0 } : ImageSlots).put w.slot i
    let s := s.bootRegs
    match i.filter (·.valid) with
    | some i => (s.post 0x02 0x015 [w32 (kind + 256 * w.slot + 65536 * i.rollback), i.version]).complete cseq 0
    | none => s.complete cseq 6

/-- A FW_ACTIVATE of a kind may start: BAD_PARAM for a reserved kind or byte (R158). -/
def Block.fwActivate (s : Block) (cseq : Word) (kind : Nat) (f : Block → Cmd → Block) : Block :=
  match s.startable cseq 5 with
  | none => s
  | some c =>
    let k := c.par 16 1
    if k ≠ kind ∧ 1 ≤ k ∧ k ≤ 3 then s
    else if k ≠ kind ∨ ((c.param.take 16).drop 1).any (· != 0) then s.complete cseq 2
    else f s c

/-- The image in the slot that is not running. -/
def ImageSlots.other (q : ImageSlots) : Option Image := if q.running = 0 then q.b else q.a

/-- FW_ACTIVATE of kind HK (R159). -/
def execFwActivateHk (cseq : Word) (s : State) : Res :=
  s.does fun s =>
    s.fwActivate cseq 1 fun s c =>
    if !s.bt.hk.ready then s.complete c.cseq 4
    else
      let s := (s.complete c.cseq 0).measure 6 (match s.bt.hk.other with | some i => i.digest | none => [])
      ((s.modSlots 1 fun q => { q with trial := true }).bootRegs).hkRestart 0

/-- FW_TRIAL_PASS (R160): the new image steps DEV_HEARTBEAT within 300 ms. -/
def execFwTrialPass (s : State) : Res :=
  s.does fun s =>
    match s.bt.hkRestart with
    | some h =>
      if s.bt.hk.trial = false ∨ h.since + 300000000 < s.now then s
      else
        let v := slotVersion s.bt.hk.other
        let n := 1 - s.bt.hk.running
        let s := (s.bump R.DEV_HEARTBEAT).modSlots 1 fun q => { q with running := n, selector := n, staged := false, trial := false }
        let s := s.hkEnd.bootRegs
        (s.numRecord 4 n none .hkSel).post 0x02 0x016 [pk 1 0 0 0, v, v]
    | none => s

/-- FW_TRIAL_FAIL (R161): no heartbeat within 300 ms; the cores restart into the previous image. -/
def execFwTrialFail (s : State) : Res :=
  s.does fun s =>
    match s.bt.hkRestart with
    | some h =>
      if s.bt.hk.trial = false then s
      else
        let v := slotVersion s.bt.hk.other
        let s := s.advance (h.since + 300000000 - s.now)
        let s : Block := { s with bt := { s.bt with hkRestart := some { h with tried := some v } } }
        (s.modSlots 1 fun q => { q with trial := false }).bootRegs
    | none => s

/-- FW_ACTIVATE of kind SV (R124, R162).  One that comes while the restart of another is in progress is taken like the first, and the image
is measured again: the spec names no refusal for it (log entry 235). -/
def execFwActivateSv (cseq : Word) (s : State) : Res :=
  s.does fun s =>
    s.fwActivate cseq 2 fun s c =>
    if s.pw.state ≠ .standby then s.complete c.cseq 4
    else if s.pw.stateSet.isSome then s.complete c.cseq 3
    else if !s.bt.sv.ready then s.complete c.cseq 4
    else
      let s := (s.complete c.cseq 0).measure 6 (match s.bt.sv.other with | some i => i.digest | none => [])
      let s : Block := { s with bt := { s.bt with svTrial := true }, fl := { s.fl with svRunning := false, svSelfTest := true } }
      (s.modSlots 2 fun q => { q with trial := true }).bootRegs

/-- SV runs again: LASER_EN_N takes effect (R162, R630). -/
def Block.svUp (s : Block) : Block :=
  let s : Block := { s with fl := { s.fl with svRunning := true, svSelfTest := false, svPassed := true } }
  if s.inputForbids 1 && !natBit s.fl.seen 1 && s.hostOk then s.forbid 1 else s

/-- SV_SELFTEST_FAIL (Table 20.11): 0 activation, 1 lockstep restart. -/
def Block.selfTestFail (s : Block) (why slot : Nat) : Block :=
  (s.postI 0x2B 0x20C 3 (pageInst 0x2B) false [w32 (why + 256 * slot), s.tm.fsn]).raise 0x2B 0x20C 2 (w32 (why + 256 * slot)) .clear

/-- SV_SELFTEST_DONE (R162, R630): the restarted supervisor passes or fails its self-test. -/
def execSvSelftestDone (ok : Bool) (s : State) : Res :=
  s.does fun s =>
    if s.bt.svTrial then
      let v := slotVersion s.bt.sv.other
      let n := 1 - s.bt.sv.running
      let s : Block := { s with bt := { s.bt with svTrial := false } }
      if ok then
        let s := (s.modSlots 2 fun q => { q with running := n, selector := n, staged := false, trial := false }).bootRegs
        ((s.numRecord 5 n none .svSel).post 0x02 0x016 [pk 2 0 0 0, v, v]).svUp
      else
        let s := ((s.modSlots 2 fun q => { q with trial := false }).bootRegs).selfTestFail 0 n
        (s.post 0x02 0x016 [pk 2 1 0 0, v, slotVersion (if s.bt.sv.running = 0 then s.bt.sv.a else s.bt.sv.b)]).svUp
    else if s.fl.svSelfTest then
      if ok then s.svUp
      else ({ s with fl := { s.fl with svSelfTest := false, svPassed := false } } : Block).selfTestFail 1 s.bt.sv.running
    else s

/-- The image of the slot that runs. -/
def ImageSlots.current (q : ImageSlots) : Option Image := if q.running = 0 then q.a else q.b

/-- The lowest ROLLBACK of the running images (R153): stage-1, which a recovery may have brought, HK and SV. -/
def Block.runningRollback (s : Block) : Nat :=
  match [s.bt.recovered <|> s.bt.s1.current, s.bt.hk.current, s.bt.sv.current].filterMap id with
  | [] => 0
  | i :: l => l.foldl (fun m i => min m i.rollback) i.rollback

/-- FW_ACTIVATE of kind ROLLBACK (R153): the mirror first, then the fuse steps. -/
def execFwActivateRollback (cseq : Word) (s : State) : Res :=
  s.does fun s =>
    s.fwActivate cseq 3 fun s c =>
    let n := s.runningRollback
    if n ≤ s.fld R.BOOT_ROLLBACK 0 7 then s.complete c.cseq 0
    else if 64 < n then s.complete c.cseq 0x8002
    else (s.numRecord 6 n (some c.cseq) .rollback).setStage c.cseq 1

/-- The mirror of a rollback has been written: the fuse steps are blown. -/
def Block.rollbackWritten (s : Block) (w : SeedWrite) : Block :=
  let old := s.fld R.BOOT_ROLLBACK 0 7
  let n := field w.req.data 0 4
  let s := s.blowAll ((List.range (n - old)).map fun i => 832 + old + i)
  let s := s.setFld R.BOOT_ROLLBACK 0 15 (n + 256 * n)
  let s := s.post 0x02 0x017 [w32 (old + 65536 * n)]
  match w.req.cseq with
  | some c =>
    if s.pw.pfAsserted then ({ s with se := { s.se with fuseCmd := s.se.fuseCmd ++ [c] } } : Block).setStage c 2 else s.complete c 0
  | none => s

/-- SEED_WRITE_DONE (R504): the record in progress commits, and what waited for it goes on. -/
def execSeedWriteDone (s : State) : Res :=
  s.does fun s =>
    match s.seedCommit with
    | (s, none) => s
    | (s, some w) =>
      let s := if w.req.kind = 0 ∧ policyType w.req.ty = true then s.autoClose 0x02 0x193 fun d => bits d 0 16 == w.req.ty else s
      match w.req.why with
      | .store => match w.req.cseq with | some c => s.complete c 0 | none => s
      | .calib => s.calStored true
      | .stage => s.fwStaged w
      | .ownerKeys => s.ownerWritten
      | .rollback => s.rollbackWritten w
      | _ => s

/-! ## The Firebreak latch (R464 to R467) -/

/-- The shutdown-cause record (Table 14.4): kind 1 die, 2 laser model, 3 both. -/
def Block.sdBytes (s : Block) (kind source : Nat) (temp : Int) (before status : Word) : List Byte :=
  leBytes 4 0x46424B53 ++ leBytes 1 kind ++ leBytes 1 source ++ leBytes 2 (unsgn 16 temp) ++ leBytes 4 0 ++ leBytes 4 s.tm.fsn.toNat ++
    leBytes 8 s.tm.ft ++ leBytes 4 before.toNat ++ leBytes 4 status.toNat

/-- A power-fail record whose write has not begun is never written (R135). -/
def Block.dropPf (s : Block) : Block :=
  { s with se := { s.se with queue := s.se.queue.filter fun r => !(r.kind == 2 && r.ty == 1) },
           pw := { s.pw with pfRecordDone := s.pw.pfRecordDone || s.pw.pfAsserted } }

/-- A die shutdown (R464, Table 14.3).  A reserved copy being written completes only the word in progress, and stays as that leaves it
(R135). -/
def Block.firebreakDie (s : Block) : Block :=
  let laser := bit (s.reg R.PWR_FIREBREAK) 2
  let bs := s.sdBytes (if laser then 3 else 1) s.th.hottest s.th.die s.pwrState s.thermStatus
  let s := s.copyStep 1
  let t := ((s.setReg R.PWR_FIREBREAK (w32 (3 + 4 * laser.toNat))).cause 5).reservedPut 0 bs
  let t := (t.resetKeep false).place .shutdownLatched s.pw.state 9
  { t with pw := { t.pw with coreGated := true } }

/-- FIREBREAK_DIE (R460, R464): a pending die shutdown has outlived its dwell, 10 conversions and 1 ms from the first. -/
def execFirebreakDie (s : State) : Res :=
  s.does fun s =>
    if s.th.lvl.pending = true ∧ 10 ≤ s.th.lvl.sdRun ∧ s.pw.state ≠ .off ∧ s.pw.state ≠ .aon ∧ s.pw.coreGated = false then
      (s.advance (s.th.lvl.sdAt + 1000000 - s.now)).firebreakDie
    else s

/-- A laser-model shutdown of model group g (R465). -/
def Block.firebreakLaser (s : Block) (g : Nat) (q : ModelGroup) : Block :=
  let bs := s.sdBytes 2 g q.tmg s.pwrState s.thermStatus
  let s := ((s.setReg R.PWR_FIREBREAK 5).cause 6).dropPf
  let s := s.lightOut.groupsOut.interrupt
  let s := match s.pw.stateSet with
    | some o => ({ s with pw := { s.pw with stateSet := none } } : Block).complete o.cseq 4
    | none => s
  let s := (s.goto .shutdownLatched 0x0A).refreshMembers
  let seq : Word := match s.newestCopy 0 with | some k => s.copySeq 0 k + 1 | none => 1
  let s := s.reservedAsk 0 bs
  let s := s.seedAsk { kind := 3, ty := 0, signed := false, data := leBytes 4 seq.toNat, addr := 0, cseq := none, why := .report }
  let data := [w32 (field bs 4 4), seq, s.tm.fsn]
  (s.postI 0x1C 0x144 5 (pageInst 0x1C) false data).raise 0x1C 0x144 4 (data.headD 0) .power

/-- FIREBREAK_LASER (R460, R465): a pending shutdown of model group g has outlived its dwell, 50 updates and 50 ms from the first. -/
def execFirebreakLaser (g : Nat) (s : State) : Res :=
  s.does fun s =>
    match s.th.mg[g]?, s.pw.state with
    | _, .off | _, .aon | _, .boot | _, .shutdownLatched | none, _ => s
    | some q, _ => if q.lvl.pending = true ∧ 50 ≤ q.lvl.sdRun then (s.advance (q.lvl.sdAt + 50000000 - s.now)).firebreakLaser g q else s

end Sys2Proof.Machine
end

