-- ==== Sys2Proof/Machine/Dtu.lean ====
section
/-!
DEFINITION. The commands of device translation (R194 to R197, R669).
-/
namespace Sys2Proof.Machine

/-- DTU_WALK (R194 to R196): an access of a client is translated; a miss walks the tables and installs, or faults. -/
def execDtuWalk (va : Nat) (write : Bool) (client : Nat) (s : State) : Res := s.does fun s => (s.translate va write client).1

/-- DTU_INV_GO (R196, R669): a write of DTU_INV_CTRL starts an invalidation, or is refused while one is in progress. -/
def Block.invGo (s : Block) (v : Word) : Block :=
  if !bit v 0 then s
  else if s.dt.inv.isSome then s.setFld R.DTU_INV_STATUS 1 1 1
  else
    let start := s.fld R.DTU_INV_ADDR_HI 0 16 * 0x100000000 + s.fld R.DTU_INV_ADDR_LO 12 20 * 4096
    let inv : DtuInv := { all := bit v 1, start := start, pages := max 1 (s.reg R.DTU_INV_LEN).toNat, since := s.now }
    ({ s with dt := { s.dt with inv := some inv } } : Block).setReg R.DTU_INV_STATUS 0

def execDtuInvGo (v : Word) (s : State) : Res := s.does fun s => s.onStrobe fun s => s.invGo v

/-- Does an installed translation touch the range of an invalidation? -/
def DtuInv.covers (i : DtuInv) (t : TlbEntry) : Bool :=
  i.all || (decide (t.va < i.start + 4096 * i.pages) && decide (i.start < t.va + 2 ^ t.log))

/-- DTU_INV_DONE (R196): the invalidation in progress ends; its translations are gone and DONE is set; REFUSED stays until the
next accepted GO (R669). -/
def execDtuInvDone (s : State) : Res :=
  s.does fun s =>
    match s.dt.inv with
  | none => s
  | some i =>
    let us10 := (s.now - i.since) / 10
    let s : Block := { s with dt := { tlb := s.dt.tlb.filter fun t => !i.covers t, inv := none } }
    ((s.setReg R.DTU_INV_STATUS (w32 (1 + 2 * s.fld R.DTU_INV_STATUS 1 1 + 65536 * satN 16 us10))).post 0x06 0x038 [w32 us10])

/-- The result registers of a probe (Table 5.15): the tables are walked without the TLB and no fault is raised. -/
def Block.probe (s : Block) (va : Nat) : Word × Word :=
  match s.walk va with
  | .error f => (0, w32 (65536 * f.detail))
  | .ok l =>
    let big := if l.cont then s.contGroup va else none
    let pa := big.getD l.pa
    let size := match big with
      | some _ => 1
      | none => if l.log = 12 then 0 else if l.log = 21 then 2 else 3
    if inDram pa then
      (w32 (1 + 2 * size + 8 * l.r.toNat + 16 * l.w.toNat + pa % 0x100000000), w32 (pa / 0x100000000 % 65536))
    else (0, w32 (65536 * 3))

/-- DTU_PROBE: a write of DTU_PROBE_ADDR_HI, with GO. -/
def Block.probeWrite (s : Block) (v : Word) : Block :=
  let s := s.setReg R.DTU_PROBE_ADDR_HI (w32 (bits v 0 16))
  if bit v 31 then
    let r := s.probe (bits v 0 16 * 0x100000000 + (s.reg R.DTU_PROBE_ADDR_LO).toNat)
    s.setRegs [(R.DTU_PROBE_RES_LO, r.1), (R.DTU_PROBE_RES_HI, r.2)]
  else s

def execDtuProbe (v : Word) (s : State) : Res := s.does fun s => s.onWrite 0x06 fun s => s.probeWrite v

end Sys2Proof.Machine
end

