-- ==== Sys2Proof/Machine/Faults.lean ====
section
/-!
DEFINITION. Safety inputs, the supervisor's dead-man and lockstep, and FAULT_CLEAR (R629 to R638).
-/
namespace Sys2Proof.Machine

/-! ## Safety inputs (R633 to R635) -/

/-- A safety input takes the level that permits light, or the other. -/
def Block.setInput (s : Block) (i : Nat) (permits : Bool) : Block :=
  match i with
  | 0 => { s with pins := { s.pins with ilkInN := !permits } }
  | 1 => { s with pins := { s.pins with laserEnN := !permits } }
  | _ => { s with pins := { s.pins with estopN := permits } }

/-- A safety input comes to permit light: it is reported, and an emergency stop ends at the drives. -/
def Block.permit (s : Block) (i : Nat) : Block :=
  let s : Block := { s with fl := { s.fl with permitSince := setAt s.fl.permitSince i (some s.now) } }
  let s : Block := if i = 2 then { s with pins := { s.pins with hsMidScale := false } } else s
  s.post 0x2B 0x204 [pk i 1 0 0, s.tm.fsn]

/-- SAFETY_INPUT (R633 to R635): filtered input i (0 ILK_IN_N, 1 LASER_EN_N, 2 ESTOP_N) changes.  LASER_EN_N has no effect while SV is
down; an unpowered or reset controller has only the level. -/
def execSafetyInput (i : Nat) (permits : Bool) (s : State) : Res :=
  s.does fun s =>
    if 3 ≤ i ∨ s.inputForbids i = !permits then s
    else
      let t := s.setInput i permits
      let deaf := s.pw.state == .off || s.pw.state == .aon || s.pw.coreGated || (i == 1 && !s.fl.svRunning)
      if deaf then { t with fl := { t.fl with permitSince := setAt t.fl.permitSince i (if permits then some t.now else none) } }
      else if permits then t.permit i else t.forbid i

/-! ## The supervisor (R629, R630) -/

/-- SV_DEADMAN (R629): SV runs and its line has not toggled for 10 us. -/
def execSvDeadman (s : State) : Res :=
  s.does fun s =>
    if !s.fl.svRunning then s
    else
      let fid := s.fl.nextFid
      let s : Block := { s with fl := { s.fl with deadman := true, pathAsserted := true, svRunning := false, svSelfTest := true,
                                                  deadmanTrips := satN 16 (s.fl.deadmanTrips + 1) } }
      (s.lightOut.postI 0x2B 0x205 4 (pageInst 0x2B) false [fid, s.tm.fsn]).raise 0x2B 0x205 3 fid .clear

/-- SV_LOCKSTEP (R630): the two cores differ; SV restarts its image once. -/
def execSvLockstep (s : State) : Res :=
  s.does fun s =>
    if !s.fl.svRunning then s
    else
      let n := satN 32 (s.fl.mismatches + 1)
      let s : Block := { s with fl := { s.fl with mismatches := n, lockErr := true, pathAsserted := true, svRunning := false, svSelfTest := true } }
      (s.lightOut.postI 0x2B 0x20B 4 (pageInst 0x2B) false [w32 n, s.tm.fsn]).raise 0x2B 0x20B 3 (w32 n) .clear

/-! ## FAULT_CLEAR (R636 to R638) -/

/-- A record of the supervisor. -/
def FaultRec.sv (r : FaultRec) : Bool := r.page == 0x2B && (r.code == 0x205 || r.code == 0x20B || r.code == 0x20C)

/-- Does the ceiling of every enabled model group arrive (R403)? -/
def Block.ceilingsArrive (s : Block) : Bool :=
  (List.range 12).all fun g => !bit (s.mgWord g 0) 0 ||
    (match (s.th.mg[g]?).bind (·.last) with | some t => decide (s.now < t + 5000000) | none => false)

/-- Has the condition of a CLEAR record ended (R637)? -/
def Block.condEnded (s : Block) (r : FaultRec) : Bool :=
  if r.page = 0x2B ∧ r.code = 0x204 then !s.inputForbids (bits r.detail 0 8)
  else if r.sv then s.fl.svRunning
  else if r.code = 0x20D then s.ceilingsArrive
  else if r.code = 0x100 ∧ r.page = 0x18 then
    let t := (s.chn ((bits r.detail 0 12 - 64) / 512)).st
    t == 2 || t == 3
  else true

/-- What a closing releases (Table 20.4). -/
def Block.released (s : Block) (r : FaultRec) : Block :=
  let p := r.page - 0x0E
  if r.code = 0x100 then
    s.modMember (bits r.detail 0 12) fun q =>
      if q.st = 4 then { q with st := 2, cause := 0, contra := 0, acting := false, hotAt := none, away := true, trips := [],
                                probeDue := true, dueAt := s.now }
      else q
  else if r.code = 0x104 then s.modGrp (bits r.detail 16 8) fun k => { k with short := false }
  else if r.code = 0x0C5 ∧ r.page = 0x14 then s.modSc fun c => { c with latched := false, cutTimes := [] }
  else if r.code = 0x0C6 ∧ r.page = 0x12 then (s.modSc fun c => { c with attempts := 0 }).hsfGoto 0
  else if r.code = 0x121 ∧ r.page = 0x19 then { s with cp := { s.cp with resume := true } }
  else if 0x0E ≤ r.page ∧ r.page ≤ 0x11 ∧ (r.code = 0x091 ∨ r.code = 0x097 ∨ r.code = 0x20F) ∧ ((s.port p).st = 7 ∨ (s.port p).st = 8) ∧
      maEn s.act p = true then s.startPort p
  else s

/-- The supervisor's last record has closed: the path is released (R629, R630). -/
def Block.pathRelease (s : Block) : Block :=
  if s.fl.svRunning && !(s.fl.recs.any fun e => e.2.isOpen && e.2.sv) then
    { s with fl := { s.fl with pathAsserted := false, deadman := false, lockErr := false } }
  else s

/-- The records close through FAULT_CLEAR, each with what it releases. -/
def Block.closeCleared (s : Block) (l : List (Nat × FaultRec)) : Block :=
  (l.foldl (fun s e => (s.closeAt e.1 2).released e.2) s).pathRelease

/-- The safety inputs that forbid light now, as bits. -/
def Block.forbidMask (s : Block) : Nat := bitsMask ((List.range 3).filter s.inputForbids)

/-- May the device leave SAFE once the listed records are closed (R637)? -/
def Block.mayExit (s : Block) (closing : List (Nat × FaultRec)) : Bool :=
  ((List.range 3).all fun i => !s.inputForbids i && (match s.fl.permitSince.getD i none with
    | some t => decide (t + 100000000 ≤ s.now)
    | none => false)) &&
    s.fl.svRunning && !(s.fl.recs.any fun e => e.2.isOpen && e.2.cls == 3 && !(closing.any fun c => c.1 == e.1))

/-- FAULT_CLEAR over the named records that are OPEN (R637). -/
def Block.faultClear (s : Block) (c : Cmd) (named : List (Nat × FaultRec)) : Block :=
  let closing := named.filter fun e => s.condEnded e.2
  let all := closing.length == named.length
  let done (s : Block) : Block := if all then { s with fl := { s.fl with seen := s.forbidMask } } else s
  if c.par 20 1 = 0 then (done (s.closeCleared closing)).complete c.cseq (if all then 0 else 0x8000)
  else if !s.mayExit closing then s.complete c.cseq 0x8000
  else
    let s := (done (s.closeCleared closing)).goto .ready 0x0F (s.usSince c.acceptAt)
    let s := s.refreshMembers.postI 0x2B 0x203 0 (pageInst 0x2B) true [c.cseq, s.tm.fsn]
    s.complete c.cseq (if all then 0 else 0x8000)

/-- FAULT_CLEAR (R636). -/
def execFaultClear (cseq : Word) (s : State) : Res :=
  s.does fun s =>
    match s.startable cseq 0xF with
    | none => s
    | some c =>
      let fid := w32 (c.par 16 4)
      if 1 < c.par 20 1 ∨ (c.param.drop 5).any (· != 0) then s.complete cseq 2
      else if c.par 20 1 = 1 ∧ s.pw.state ≠ .safe then s.complete cseq 4
      else if fid = 0xFFFFFFFF then s.faultClear c (s.fl.recs.filter fun e => e.2.isOpen && e.2.clearable)
      else match s.fl.recs.find? fun e => e.2.fid == fid with
        | none => s.complete cseq 0x8002
        | some e =>
          if !e.2.isOpen then s.faultClear c []
          else if !e.2.clearable then s.complete cseq 0x8001
          else s.faultClear c [e]

end Sys2Proof.Machine
end

