-- ==== Sys2Proof/Machine/Skidder.lean ====
section
/-!
DEFINITION. The Skidder (R178 to R193): channels, movers, descriptors beat by beat, faults and the host's answer, seals and
the descriptor account.  Bytes that come from host memory are operands of the command that uses them (log entry 24).
-/
namespace Sys2Proof.Machine

/-- The code of a channel's state (Table 5.12). -/
def SkdSt.code : SkdSt → Nat
  | .disabled => 0 | .idle => 1 | .queued => 2 | .active => 3 | .preempted => 4 | .faulted => 5 | .seqStop => 6

/-- A channel. -/
def Block.skd (s : Block) (c : Nat) : SkdChan := s.sk.ch.getD c SkdChan.reset

/-- A channel changes. -/
def Block.modSkd (s : Block) (c : Nat) (f : SkdChan → SkdChan) : Block := { s with sk := { s.sk with ch := modAt s.sk.ch c f } }

/-- SKD_CH_CTRL fields. -/
def Block.skdEn (s : Block) (c : Nat) : Bool := bit (s.reg (R.SKD_CH_CTRL c)) 0
def Block.skdPrio (s : Block) (c : Nat) : Nat := s.fld (R.SKD_CH_CTRL c) 1 2
def Block.skdRingDev (s : Block) (c : Nat) : Bool := bit (s.reg (R.SKD_CH_CTRL c)) 5
def Block.skdEntries (s : Block) (c : Nat) : Nat := 2 ^ s.fld (R.SKD_CH_CTRL c) 6 4
def Block.skdTail (s : Block) (c : Nat) : Nat := s.fld (R.SKD_CH_TAIL c) 0 16

/-- The place of a ring index (R182). -/
def Block.skdPlace (s : Block) (c i : Nat) : Nat := (s.reg (R.SKD_CH_RING c)).toNat * 65536 + i % s.skdEntries c * 64

/-- Submitted descriptors not yet retired, from the indices (R192). -/
def Block.skdLeft (s : Block) (c : Nat) : Nat := (s.skdTail c + 65536 - (s.skd c).head) % 65536

/-- The state a channel takes when no descriptor of it is being worked on. -/
def Block.skdRest (s : Block) (c : Nat) : SkdSt :=
  if !s.skdEn c then .disabled else if s.skdLeft c = 0 then .idle else .queued

/-- The owner a mover is dedicated to (R180). -/
def Block.moverOwner (s : Block) (m : Nat) : Option Nat :=
  if m = 2 ∧ s.abit R.SKD_MOVER_DED 0 then some (s.afld R.SKD_MOVER_DED 4 4)
  else if m = 3 ∧ s.abit R.SKD_MOVER_DED 8 then some (s.afld R.SKD_MOVER_DED 12 4)
  else none

/-- Has a channel work for a mover (R178, R180)? -/
def Block.skdReady (s : Block) (m c : Nat) : Bool :=
  s.skdEn c && bit (s.reg R.SKD_CTRL) 0 && s.skdMover c == m &&
    ((s.skd c).st == .queued || (s.skd c).st == .preempted) &&
    (match s.moverOwner m with
     | some o => o == c
     | none => true)

/-- How urgently a mover takes a channel: by priority, and at equal priority a pre-empted channel first (R178, R179). -/
def Block.skdRank (s : Block) (c : Nat) : Nat := 2 * s.skdPrio c + ((s.skd c).st == .preempted).toNat

/-- The channel a mover takes next (R178): the most urgent with work, equals in turn after the last served. -/
def Block.skdNext (s : Block) (m : Nat) : Option Nat :=
  let order := (List.range 16).map fun i => (s.sk.last.getD m 15 + 1 + i) % 16
  (order.filter (s.skdReady m)).foldl (fun b c => match b with
    | none => some c
    | some d => if s.skdRank d < s.skdRank c then some c else b) none

/-- A mover serves a channel. -/
def Block.skdServe (s : Block) (m c : Nat) : Block := { s with sk := { s.sk with last := setAt s.sk.last m c } }

/-- The mover running a channel is released. -/
def Block.skdRelease (s : Block) (c : Nat) : Block :=
  { s with sk := { s.sk with run := s.sk.run.map fun r => if r == some c then none else r } }

/-- The context flags (Table 5.13). -/
def SkdChan.flags (k : SkdChan) : Nat := k.dstSide.toNat + 2 * k.fetch.toNat

/-- A fault of a channel at its offset (R186): the mover is released, the context kept, SKD_FAULT posted. -/
def Block.skdFault (s : Block) (c kind detail : Nat) (dst fetch : Bool) (addr : Nat) : Block :=
  let s := (s.skdRelease c).modSkd c fun k =>
    { k with st := .faulted, kind := kind, detail := detail, dstSide := dst, fetch := fetch, faultAddr := addr }
  let s := s.setInt 0x05 (w32 (2 ^ (16 + c)))
  let k := s.skd c
  s.post 0x05 0x029 [w32 (c + 256 * kind + 65536 * detail + 16777216 * k.flags), k.dseq, w32 k.offset]

/-- The bytes of a fill pattern from a multiple of 8 on. -/
def fillBytes (pat : Nat) : List Byte := (List.range 8).flatMap fun _ => leBytes 8 pat

/-- The source bytes of a beat: of a fill, of device memory, or of the host bytes from `hoff` on; and whether the block read is
uncorrectable (R473). -/
def Block.beatSrc (s : Block) (c : Nat) (d : SkdDesc) (off hoff : Nat) (host : Bytes) : Block × Except AccFault (List Byte × Bool) :=
  if natBits d.ctrl 0 2 = 1 then (s, .ok (fillBytes d.src, false))
  else if natBit d.ctrl 2 then
    match s.access c (d.src + off) 64 false with
    | (s, .ok pa) =>
      let bad := s.dc.poison.contains (pa / 64)
      (if bad then s.uncorrectable pa 3 else s, .ok (s.memBytes pa 64, bad))
    | (s, .error f) => (s, .error f)
  else if s.tunnelUp then (s, .ok (padBytes 64 ((host.drop hoff).take 64), false))
  else (s, .error ⟨4, 7, 0⟩)

/-- The whole block a beat writes becomes poisoned, or loses its poison (R473). -/
def Block.blockPoison (s : Block) (pa : Nat) (bad : Bool) : Block :=
  let l := s.dc.poison.filter fun b => b != pa / 64
  { s with dc := { s.dc with poison := if bad then pa / 64 :: l else l } }

/-- The destination of a beat takes its bytes; data read from an uncorrectable block is delivered poisoned (R473). -/
def Block.beatDst (s : Block) (c : Nat) (d : SkdDesc) (off : Nat) (bs : List Byte) (bad : Bool) : Block × Option AccFault :=
  if natBit d.ctrl 3 then
    match s.access c (d.dst + off) 64 true with
    | (s, .ok pa) => (((s.setMem pa bs).blockPoison pa bad).piTouch pa bs.length, none)
    | (s, .error f) => (s, some f)
  else if s.tunnelUp then (s.emit (if bad then .hostPoison (d.dst + off) bs else .hostWrite (d.dst + off) bs), none)
  else (s, some ⟨4, 7, 0⟩)

/-- Beats of a channel's descriptor from its offset on; at a fault the channel stops at the boundary of the beat (R186). -/
def Block.beats (s : Block) (c : Nat) (d : SkdDesc) (host : Bytes) (from0 : Nat) : Nat → Block × Bool
  | 0 => (s, true)
  | n + 1 =>
    let off := (s.skd c).offset
    match s.beatSrc c d off (off - from0) host with
    | (s, .error f) => (s.skdFault c f.kind f.detail false false (d.src + off), false)
    | (s, .ok (bs, bad)) =>
      match s.beatDst c d off bs bad with
      | (s, some f) => (s.skdFault c f.kind f.detail true false (d.dst + off), false)
      | (s, none) =>
        let s := s.modSkd c fun k =>
          { k with offset := off + 64, crc := if natBit d.ctrl 7 then crcFold 32 0x1EDC6F41 true k.crc bs else k.crc }
        s.beats c d host from0 n

/-- A channel's descriptor is moved up to an offset; false when it faulted on the way. -/
def Block.moveTo (s : Block) (c upto : Nat) (host : Bytes) : Block × Bool :=
  match (s.skd c).desc with
  | none => (s, true)
  | some d => s.beats c d host (s.skd c).offset ((min upto d.length - (s.skd c).offset) / 64)

/-- The 16 bytes a descriptor's status area takes (Table 5.7). -/
def statusArea (dseq : Word) (status bytes chk : Nat) : List Byte :=
  leBytes 4 dseq.toNat ++ leBytes 4 status ++ leBytes 4 bytes ++ leBytes 4 chk

/-- The place of a descriptor's status area (Table 5.7). -/
def Block.statusPlace (s : Block) (c : Nat) : Nat := s.skdPlace c (s.skd c).head + 32

/-- The status area is written back into the ring; a fault of the write-back (R166, R181) leaves the bytes before it written. -/
def Block.writeBack (s : Block) (c : Nat) (area : List Byte) : Block × Option AccFault :=
  if s.skdRingDev c then
    match s.writeVirt c (s.statusPlace c) none area with
    | (s, r) => (s, r.map (·.1))
  else if s.tunnelUp then (s.emit (.hostWrite (s.statusPlace c) area), none) else (s, some ⟨4, 7, 0⟩)

/-- SKD_SEAL. -/
def Block.postSeal (s : Block) (surf result : Nat) (dseq : Word) : Block :=
  s.post 0x05 0x02E [w32 (surf + 65536 * result), dseq]

/-- The surface a descriptor names, where it names one. -/
def SkdDesc.surface (d : SkdDesc) : Option Nat := if d.surf < 64 then some d.surf else none

/-- The descriptor in 64 bytes (Table 5.7). -/
def parseDesc (bs : List Byte) : SkdDesc :=
  { dseq := w32 (field bs 0 4), ctrl := field bs 4 2, surf := field bs 6 2, src := field bs 8 8, dst := field bs 16 8,
    length := field bs 24 4, expect := w32 (field bs 28 4) }

/-- The bytes of the submitted descriptor `k` places after HEAD, as its ring in device memory holds them: nothing is fetched. -/
def Block.ringBytes (s : Block) (c k : Nat) : Option (List Byte) :=
  let a := s.skdPlace c ((s.skd c).head + k)
  if !s.skdRingDev c then none
  else match s.walk a with
    | .ok l => if l.r && inDram (l.pa + a % 2 ^ l.log) then some (s.memBytes (l.pa + a % 2 ^ l.log) 64) else none
    | .error _ => none

/-- Does the submitted descriptor `k` places after HEAD name a surface?  One that the block has not fetched from host memory is as
`hint` says (log entry 203). -/
def Block.skdNames (s : Block) (c k i : Nat) (hint : Bool) : Bool :=
  let d := if k = 0 ∧ (s.skd c).desc.isSome then (s.skd c).desc else (s.ringBytes c k).map parseDesc
  match d with
  | some d => d.surface == some i
  | none => hint

/-- R190: is a descriptor submitted before a stamp, on any channel, that names the surface still to retire? -/
def Block.earlier (s : Block) (stamp i : Nat) (hint : Bool) : Bool :=
  (List.range 16).any fun c => ((s.skd c).stamps.mapIdx fun k t => decide (t < stamp) && s.skdNames c k i hint).any id

/-- The stamp of the descriptor at HEAD. -/
def Block.headStamp (s : Block) (c : Nat) : Nat := (s.skd c).stamps.headD 0

/-- A surface is sealed by the host (R190, R225): its check is reported, and an enforced mismatch leaves it unsealed (log entry 207). -/
def Block.hostSeal (s : Block) (i : Nat) (dseq : Word) : Block :=
  let cfg := s.hfcNow 7
  let t := if natBit cfg 0 then s.hfc 7 i s.tm.fsn else s
  if s.hfcStops 7 i cfg s.tm.fsn then
    ((t.modSurf i fun u => { u with st := .closed, sealPend := none }).lostFrame 7 (some i) 2 s.tm.fsn).postSeal i 1 dseq
  else (t.sealFor 7 i s.tm.fsn).postSeal i 0 dseq

/-- The seals that wait and for which no earlier descriptor is left take place (R190). -/
def Block.sealSweep (s : Block) (hint : Bool) : Block :=
  (List.range 64).foldl (fun s i =>
    match (s.surf i).sealPend with
    | some (t, q) => if s.earlier t i hint then s else s.hostSeal i q
    | none => s) s

/-- Is the seal that a descriptor asks for refused (R191, R207): it names no surface, or one that is not OPEN or has its ERR flag set? -/
def Block.sealRefused (s : Block) (d : SkdDesc) (status : Nat) : Bool :=
  natBit d.ctrl 9 && status == 0 && (match d.surface with
    | some i => (s.surf i).st != .opened || (s.surf i).err
    | none => true)

/-- R190, R191: what the retirement of the descriptor at HEAD means for the surface it names. -/
def Block.sealStep (s : Block) (c : Nat) (d : SkdDesc) (status : Nat) : Block :=
  match d.surface with
  | none => if status = 5 then s.postSeal d.surf 1 d.dseq else s
  | some i =>
    if status = 5 then s.postSeal i 1 d.dseq
    else if status ≠ 0 then
      let s := s.modSurf i fun u => { u with err := true }
      match (s.surf i).sealPend with
      | some (_, q) => (s.modSurf i fun u => { u with sealPend := none }).postSeal i 1 q
      | none => s
    else if natBit d.ctrl 9 then s.modSurf i fun u => { u with sealPend := some (s.headStamp c, d.dseq) }
    else s

/-- A channel's account steps past the descriptor at HEAD (R192). -/
def Block.skdStep (s : Block) (c : Nat) (dseq : Word) : Block :=
  let s := s.modSkd c fun k =>
    { k with stamps := k.stamps.tail, head := (k.head + 1) % 65536, completed := k.completed + 1, dseq := dseq, offset := 0, desc := none,
             kind := 0, detail := 0, dstSide := false, fetch := false, crc := 0, faultAddr := 0 }
  let r := s.skdRest c
  s.modSkd c fun k => { k with st := r }

/-- The status area of the descriptor at HEAD as it retires: the check value is that of the bytes moved, 0 where it never ran. -/
def Block.areaOf (s : Block) (c : Nat) (d : SkdDesc) (status : Nat) : List Byte :=
  let k := s.skd c
  statusArea d.dseq status k.offset (if natBit d.ctrl 7 && k.desc.isSome then crcEnd 32 true 0xFFFFFFFF k.crc else 0)

/-- The descriptor at HEAD retires with a status (Table 5.8), its status area written: seal, SKD_DESC_DONE, interrupt, account,
and the seals that waited for it. -/
def Block.skdEnd (s : Block) (c : Nat) (d : SkdDesc) (status : Nat) (hint : Bool) : Block :=
  let k := s.skd c
  let s := s.sealStep c d status
  let s := if natBit d.ctrl 4 then s.post 0x05 0x028 [w32 (c + 65536 * status), d.dseq, w32 k.offset] else s
  let s := if natBit d.ctrl 5 then s.setInt 0x05 (w32 (2 ^ c)) else s
  ((s.skdRelease c).skdStep c (if status = 3 then k.dseq else k.dseq + 1)).sealSweep hint

/-- A descriptor retires other than by running to its end: a fault of its write-back is given up (log entry 203). -/
def Block.skdRetire (s : Block) (c : Nat) (d : SkdDesc) (status : Nat) (hint : Bool) : Block :=
  (if natBit d.ctrl 6 then (s.writeBack c (s.areaOf c d status)).1 else s).skdEnd c d status hint

/-- A descriptor that has run to its end retires; where its write-back faults, the channel stops there, and RESUME tries it again
(R181, R186). -/
def Block.skdFinish (s : Block) (c : Nat) (d : SkdDesc) (status : Nat) (hint : Bool) : Block :=
  let status := if s.sealRefused d status then 5 else status
  if natBit d.ctrl 6 then
    match s.writeBack c (s.areaOf c d status) with
    | (t, none) => t.skdEnd c d status hint
    | (t, some f) => t.skdFault c f.kind f.detail true false (s.statusPlace c)
  else s.skdEnd c d status hint

/-- R183: the ALIGN detail of a descriptor, where it has a breach.  Of several breaches a reserved field is reported before an address, and
an address before the length: the spec gives no order (log entry 235). -/
def SkdDesc.alignDetail (d : SkdDesc) : Option Nat :=
  let unit (dev : Bool) := if dev then 64 else 4
  if 2 ≤ natBits d.ctrl 0 2 || d.ctrl / 1024 != 0 then some 0x0C
  else if (natBits d.ctrl 0 2 == 0 && d.src % unit (natBit d.ctrl 2) != 0) || d.dst % unit (natBit d.ctrl 3) != 0 then some 0x0A
  else if d.length = 0 || d.length % 64 != 0 then some 0x0B
  else none

/-- R183: the address the ALIGN detail 0x0A is about, and whether it is the destination's. -/
def SkdDesc.alignPlace (d : SkdDesc) : Nat × Bool :=
  if natBits d.ctrl 0 2 == 0 && d.src % (if natBit d.ctrl 2 then 64 else 4) != 0 then (d.src, false) else (d.dst, true)

/-- The descriptor at HEAD is fetched: from device memory, or the host's bytes. -/
def Block.skdFetch (s : Block) (c : Nat) (host : Bytes) : Block × Except (AccFault × Nat) (List Byte) :=
  let a := s.skdPlace c (s.skd c).head
  if s.skdRingDev c then
    match s.readVirt c a 64 none [] with
    | (s, bs, none) => (s, .ok bs)
    | (s, _, some (f, _)) => (s, .error (f, a))
  else if s.tunnelUp then (s, .ok (padBytes 64 host)) else (s, .error (⟨4, 7, 0⟩, a))

/-- A fetched descriptor meets its channel (R183, R185): it runs, retires as a duplicate, faults, or stops the channel. -/
def Block.skdAccept (s : Block) (m c : Nat) (d : SkdDesc) : Block :=
  let want := (s.skd c).dseq
  if d.dseq = want then
    let s := s.modSkd c fun k =>
      { k with st := .active, desc := some d, offset := 0,
               crc := crcFold 32 0x1EDC6F41 true 0xFFFFFFFF (leBytes 4 d.dseq.toNat) }
    match d.alignDetail with
    | some x =>
      let (a, dst) := if x = 0x0A then d.alignPlace else (0, false)
      s.skdFault c 3 x dst false a
    | none => ({ s with sk := { s.sk with run := setAt s.sk.run m (some c) } } : Block).sealSweep true
  else if newer d.dseq want then
    let s := s.modSkd c fun k => { k with st := .seqStop }
    (s.setInt 0x05 (w32 (2 ^ (16 + c)))).post 0x05 0x02B [w32 c, want, d.dseq]
  else (s.post 0x05 0x02C [w32 c, want, d.dseq]).skdRetire c d 3 true

/-- A mover takes its next channel (R178, R179): a saved descriptor goes on from its offset, another is fetched. -/
def Block.skdStart (s : Block) (m : Nat) (host : Bytes) : Block :=
  if (s.sk.run.getD m none).isSome || 4 ≤ m then s else
  match s.skdNext m with
  | none => s
  | some c =>
    let s := s.skdServe m c
    if (s.skd c).desc.isSome then
      let s := s.modSkd c fun k => { k with st := .active }
      { s with sk := { s.sk with run := setAt s.sk.run m (some c) } }
    else
      match s.skdFetch c host with
      | (s, .error (f, a)) => s.skdFault c f.kind f.detail false true a
      | (s, .ok bs) => s.skdAccept m c (parseDesc bs)

/-- SKD_DESCRIPTOR_START (R178, R185): a free mover takes a descriptor; `host` is what a ring in host memory holds there. -/
def execSkdDescriptorStart (m : Nat) (host : Bytes) (s : State) : Res := s.does fun s => s.skdStart m host

/-- The channel a mover runs. -/
def Block.running (s : Block) (m : Nat) : Option Nat := s.sk.run.getD m none

/-- SKD_DESC_DONE (R184, R190 to R192): the running descriptor moves its remaining beats and retires.  With CMP 1 and CHK 0 the CRC of DSEQ
alone is compared with EXPECT, since no data enter it (log entry 235).  `others` says whether the
descriptors of other rings that the block has not fetched name the surface (log entry 203). -/
def execSkdDescDone (m : Nat) (host : Bytes) (others : Bool) (s : State) : Res :=
  s.does fun s =>
    match s.running m with
  | none => s
  | some c =>
    match (s.skd c).desc with
    | none => s
    | some d =>
      match s.moveTo c d.length host with
      | (s, false) => s
      | (s, true) =>
        let bad := natBit d.ctrl 8 && w32 (crcEnd 32 true 0xFFFFFFFF (s.skd c).crc) != d.expect
        (s.skdFinish c d (if bad then 4 else 0) others)

/-- SKD_PREEMPT (R179): a higher channel has work; the running one goes on to its next 4,096-byte point, at or after `at`,
and is saved, and the higher one starts. -/
def execSkdPreempt (m upto : Nat) (host hostDesc : Bytes) (s : State) : Res :=
  s.does fun s =>
    match s.running m, s.skdNext m with
  | some c, some h =>
    match (s.skd c).desc with
    | none => s
    | some d =>
      let stop := cdiv (max upto (s.skd c).offset) 4096 * 4096
      if s.skdPrio h ≤ s.skdPrio c || d.length ≤ stop then s else
      match s.moveTo c stop host with
      | (s, false) => s
      | (s, true) =>
        let s := (s.skdRelease c).modSkd c fun k => { k with st := .preempted }
        ((s.post 0x05 0x02A [w32 (c + 256 * h), (s.skd c).dseq, w32 (s.skd c).offset]).skdStart m hostDesc)
  | _, _ => s

/-- Is a descriptor's source, or its destination, host memory? -/
def SkdDesc.hostAt (d : SkdDesc) (dst : Bool) : Bool := if dst then !natBit d.ctrl 3 else natBits d.ctrl 0 2 == 0 && !natBit d.ctrl 2

/-- Does a descriptor address host memory? -/
def SkdDesc.hostSide (d : SkdDesc) : Bool := d.hostAt false || d.hostAt true

/-- A host request fails (R186): of the running descriptor, at an offset, the beats before it being moved, unless one of them
faults first; with no descriptor running, the fetch of the next one from a ring in host memory. -/
def Block.hostFault (s : Block) (m upto kind detail : Nat) (dst : Bool) (host : Bytes) : Block :=
  match s.running m with
  | none =>
    match s.skdNext m with
    | some c =>
      if (s.skd c).desc.isNone && !s.skdRingDev c then
        (s.skdServe m c).skdFault c kind detail false true (s.skdPlace c (s.skd c).head)
      else s
    | none => s
  | some c =>
    match (s.skd c).desc with
    | none => s
    | some d =>
      match s.moveTo c upto host with
      | (s, false) => s
      | (s, true) =>
        if d.hostAt dst && decide ((s.skd c).offset < d.length) then
          s.skdFault c kind detail dst false ((if dst then d.dst else d.src) + (s.skd c).offset)
        else s

/-- SKD_FAULT (R186): a beat of the running descriptor faults: in device memory as its translation and its permission say, or
on the host side at `upto` with detail `detail` (8 completer abort, 9 unsupported request). -/
def execSkdFault (m upto detail : Nat) (dst : Bool) (host : Bytes) (s : State) : Res :=
  s.does fun s => (s.bump R.HOST_PCIE_ERR).hostFault m upto 4 (if detail = 9 then 9 else 8) dst host

/-- SKD_HOST_TIMEOUT (R186): no completion within SKD_HOST_TMO. -/
def execSkdHostTimeout (m upto : Nat) (dst : Bool) (host : Bytes) (s : State) : Res :=
  s.does fun s => (s.bump R.HOST_PCIE_ERR).hostFault m upto 5 0 dst host

/-! ## The host's answer -/

/-- SKD_OP_DONE and, for an operation that does not fit, OP_ERR (R187). -/
def Block.opDone (s : Block) (c op : Nat) (ignored : Bool) : Block :=
  let s := if ignored then (s.setFld R.SKD_STATUS 0 1 1).setFld R.SKD_STATUS 4 4 c else s
  s.post 0x05 0x02D [w32 (c + 256 * op + 65536 * ignored.toNat)]

/-- SKD_OP RESUME (R187): the faulting beat, or the fetch, will be retried with a fresh translation. -/
def Block.skdResume (s : Block) (c : Nat) : Block :=
  if (s.skd c).st == .faulted && (s.skd c).kind != 3 then
    (s.modSkd c fun k => { k with st := .queued, kind := 0, detail := 0, fetch := false, faultAddr := 0 }).opDone c 1 false
  else s.opDone c 1 true

def execSkdOpResume (c : Nat) (s : State) : Res := s.does fun s => s.onStrobe fun s => s.skdResume c

/-- SKD_OP SKIP (R187): the faulted descriptor retires as SKIPPED; one that was never fetched only steps the account. -/
def Block.skdSkip (s : Block) (c : Nat) : Block :=
  if (s.skd c).st == .faulted then
    let s := match (s.skd c).desc with
      | some d => s.skdRetire c d 1 true
      | none => (s.skdStep c ((s.skd c).dseq + 1)).sealSweep true
    s.opDone c 2 false
  else s.opDone c 2 true

def execSkdOpSkip (c : Nat) (s : State) : Res := s.does fun s => s.onStrobe fun s => s.skdSkip c

/-- A running channel moves on by beats up to where something outside stops it, an open number of them (log entry 203). -/
def Block.skdProgress (s : Block) (c : Nat) : Block :=
  match (s.skd c).desc with
  | none => s
  | some d =>
    let (n, s) := s.takeBelow ((d.length - (s.skd c).offset) / 64)
    let (host, s) := s.takeBytes (64 * n)
    (s.moveTo c ((s.skd c).offset + 64 * n) host).1

/-- The descriptors from HEAD on that were submitted and not yet fetched retire as ABORTED (R188), as far as their ring can be
read: in device memory, or as `host` returns it; one that cannot be read only counts (log entry 25). -/
def Block.skdDrop (s : Block) (c : Nat) : Nat → Bytes → Block
  | 0, _ => s
  | n + 1, host =>
    let read : Block × Option (List Byte) :=
      if s.skdRingDev c then
        match s.readVirt c (s.skdPlace c (s.skd c).head) 64 none [] with
        | (s, bs, none) => (s, some bs)
        | (s, _, some _) => (s, none)
      else (s, if s.tunnelUp && decide (64 ≤ host.length) then some (host.take 64) else none)
    let s := match read with
      | (s, some bs) => s.skdRetire c (parseDesc bs) 2 true
      | (s, none) => (s.skdStep c ((s.skd c).dseq + 1)).sealSweep true
    s.skdDrop c n (host.drop 64)

/-- ABORT (R188): the current descriptor and every later one retire as ABORTED, HEAD takes TAIL, EN is cleared. -/
def Block.skdAbort (s : Block) (c : Nat) (host : Bytes) : Block :=
  let s := if (s.skd c).st == .active then s.skdProgress c else s
  let s := s.skdRelease c
  let s := match (s.skd c).desc with
    | some d => s.skdRetire c d 2 true
    | none => s
  let s := s.skdDrop c (s.skdLeft c) host
  (s.modSkd c fun k => { k with st := .disabled }).setFld (R.SKD_CH_CTRL c) 0 1 0

/-- SKD_OP ABORT (Table 5.10): any state except DISABLED. -/
def Block.skdOpAbort (s : Block) (c : Nat) (host : Bytes) : Block :=
  if (s.skd c).st == .disabled then s.opDone c 3 true else (s.skdAbort c host).opDone c 3 false

/-- SKD_OP ABORT; `host` is what a ring in host memory holds from the first descriptor that was not fetched. -/
def execSkdOpAbort (c : Nat) (host : Bytes) (s : State) : Res := s.does fun s => s.onStrobe fun s => s.skdOpAbort c host

/-- SKD_OP RESYNC (R185): accepted in SEQ_STOP and DISABLED. -/
def Block.skdResync (s : Block) (c : Nat) : Block :=
  if (s.skd c).st == .seqStop || (s.skd c).st == .disabled then
    let v := s.reg R.SKD_SEQ_LOAD
    let r := s.skdRest c
    (s.modSkd c fun k => { k with dseq := v, st := r }).opDone c 4 false
  else s.opDone c 4 true

def execSkdOpResync (c : Nat) (s : State) : Res := s.does fun s => s.onStrobe fun s => s.skdResync c

/-- A write of SKD_OP (Table 5.12); a reserved operation fits no state and is ignored. -/
def Block.skdOpWrite (s : Block) (v : Word) : Block :=
  let c := bits v 0 4
  match bits v 4 4 with
  | 1 => s.skdResume c
  | 2 => s.skdSkip c
  | 3 => s.skdOpAbort c []
  | 4 => s.skdResync c
  | op => s.opDone c op true

/-- A write of SKD_CH_CTRL[c] (R180, R188, Table 5.12). -/
def Block.skdCtrlWrite (s : Block) (c : Nat) (host : Bytes) (v : Word) : Block :=
  let m := bits v 3 2
  let foreign := match s.moverOwner m with
    | some o => o != c
    | none => false
  if foreign then s.errCause 0x05 16 else
  let on := s.skdEn c
  let keep := if on then setBits (setBits v 5 1 (s.fld (R.SKD_CH_CTRL c) 5 1)) 6 4 (s.fld (R.SKD_CH_CTRL c) 6 4) else v
  let s := s.setReg (R.SKD_CH_CTRL c) (w32 (bits keep 0 10))
  if !on && bit v 0 then
    let t := s.skdTail c
    s.modSkd c fun k => { k with stamps := [], head := t, st := .idle, completed := k.completed + w32 ((t + 65536 - k.head) % 65536) }
  else if on && !bit v 0 then (s.setFld (R.SKD_CH_CTRL c) 0 1 1).skdAbort c host
  else s

/-- SKD_CH_ENABLE; `host` as for SKD_OP ABORT. -/
def execSkdChEnable (c : Nat) (v : Word) (host : Bytes) (s : State) : Res :=
  s.does fun s => if c < 16 then s.rwWrite (R.SKD_CH_CTRL c) v fun s w => s.skdCtrlWrite c host w else s

/-- A write of SKD_CH_TAIL[c] (R192, R193). -/
def Block.skdTailWrite (s : Block) (c : Nat) (v : Word) : Block :=
  let t := bits v 0 16
  let left := (t + 65536 - (s.skd c).head) % 65536
  if s.skdEntries c < left then (s.setFld R.SKD_STATUS 1 1 1).setFld R.SKD_STATUS 4 4 c
  else
    let more := (t + 65536 - s.skdTail c) % 65536
    let s := s.setReg (R.SKD_CH_TAIL c) (w32 t)
    let t0 := s.sk.stamp
    let s : Block := { s with sk := { s.sk with stamp := t0 + more } }
    let s := s.modSkd c fun k =>
      { k with submitted := k.submitted + w32 more, stamps := k.stamps ++ (List.range more).map fun i => t0 + i }
    if (s.skd c).st == .idle && left != 0 then s.modSkd c fun k => { k with st := .queued } else s

def execSkdChTailWrite (c : Nat) (v : Word) (s : State) : Res := s.does fun s => if c < 16 then s.onWrite 0x05 fun s => s.skdTailWrite c v else s

/-- The saved context of a channel, 32 bytes (Table 5.13). -/
def Block.skdContext (s : Block) (c : Nat) : List Byte :=
  let k := s.skd c
  let f := k.st == .faulted
  leBytes 4 k.head ++ leBytes 4 k.dseq.toNat ++ leBytes 4 k.offset ++
    leBytes 4 (k.st.code + 256 * (if f then k.kind else 0) + 65536 * (if f then k.detail else 0) + 16777216 * k.flags) ++
    leBytes 8 k.crc ++ leBytes 8 k.faultAddr

/-- The account of a channel (R192): SUBMITTED, COMPLETED, INFLIGHT, FAULTED, PREEMPTED. -/
def Block.skdAccount (s : Block) (c : Nat) : List Word :=
  let k := s.skd c
  let f : Word := if k.st == .faulted then 1 else 0
  let p : Word := if k.st == .preempted then 1 else 0
  [k.submitted, k.completed, k.submitted - k.completed - f - p, f, p]

/-- A write of SKD_CTX_SEL captures the window (R192). -/
def Block.skdCapture (s : Block) (v : Word) : Block :=
  let c := bits v 0 4
  let ws := if bit v 4 then s.skdAccount c ++ [0, 0, 0] else bytesWords 8 (s.skdContext c)
  (s.setReg R.SKD_CTX_SEL (w32 (bits v 0 5))).setRegs (ws.mapIdx fun j w => (R.SKD_CTX_DATA j, w))

def execSkdCtxCapture (v : Word) (s : State) : Res := s.does fun s => s.onWrite 0x05 fun s => s.skdCapture v

end Sys2Proof.Machine
end

