-- ==== Sys2Proof/Machine/Windows.lean ====
section
/-!
DEFINITION. The window registers of BAR0 (R667), the captures, and what a write to each RW and SH register does (Table 0.5, R92,
R104, R666).
-/
namespace Sys2Proof.Machine

/-! ## Window data registers -/

/-- The selector of a window data register, where it is one. -/
def selOf (a : Nat) : Option Nat :=
  if a = R.SEQ_CAL_DATA then some R.SEQ_CAL_ADDR
  else if a = R.HSB_PI_DATA then some R.HSB_PI_SEL
  else if a = R.CHAIN_MEM_DATA then some R.CHAIN_MEM_SEL
  else if a = R.CPE_LOOP_DATA then some R.CPE_LOOP_SEL
  else if a = R.THERM_NTC_LUT_DATA then some R.THERM_NTC_LUT_SEL
  else if a = R.THERM_MG_DATA then some R.THERM_MG_SEL
  else if a = R.THERM_SLICE_MG then some R.THERM_SLICE_SEL
  else if a = R.DMC_GR_BASE || a = R.DMC_GR_CFG then some R.DMC_GR_SEL
  else if a = R.TALLY_CFG then some R.TALLY_SEL
  else none

/-- The word a window data register stands for: its key in the register store. -/
def Block.winKey (s : Block) (a : Nat) : Option Nat :=
  match selOf a with
  | none => none
  | some i =>
    let v := s.reg i
    some (if a = R.SEQ_CAL_DATA then calKey (bits v 10 2) (bits v 8 2) (bits v 0 8)
      else if a = R.HSB_PI_DATA then win 0x14 (64 * bits v 0 2 + bits v 2 6)
      else if a = R.CHAIN_MEM_DATA then memKey (bits v 0 2) (bits v 2 6) (bits v 8 3)
      else if a = R.CPE_LOOP_DATA then win 0x19 (8 * bits v 0 7 + bits v 7 3)
      else if a = R.THERM_NTC_LUT_DATA then win 0x1C (0x100 + bits v 0 6)
      else if a = R.THERM_MG_DATA then win 0x1C (8 * bits v 0 4 + bits v 4 3)
      else if a = R.THERM_SLICE_MG then win 0x1C (0x400 + 64 * bits v 0 2 + bits v 2 6)
      else if a = R.DMC_GR_BASE then win 0x1D (2 * bits v 0 3)
      else if a = R.DMC_GR_CFG then win 0x1D (2 * bits v 0 3 + 1)
      else win 0x2A (bits v 0 6))

/-- The defined bits of a calendar word (Tables 8.4, 8.5). -/
def calMask (i : Nat) : Word :=
  if i = 0 then 0x7F else if i = 3 then 0 else if i < 4 ∨ i % 2 = 0 then 0xFFFFFFFF else 0xF

/-- The bits of a loop record's word that a write reaches (Tables 12.3, 12.4): the words of live state, the reserved fields, and the numbers
60 to 63, which are no records, take none. -/
def loopMask (rec word : Nat) : Word :=
  if 60 ≤ rec ∧ rec ≤ 63 then 0
  else match word with
    | 3 => 0x1FFFF
    | 5 => if (48 ≤ rec ∧ rec ≤ 51) ∨ (56 ≤ rec ∧ rec ≤ 59) then 0xFFFF0000 else 0xFFFFFFFF
    | 6 => 0
    | 7 => 0
    | _ => 0xFFFFFFFF

/-- The bits a write reaches in the selected word: Tables 8.4, 8.5, 12.3 and 14.6 have reserved fields and words that read live state. -/
def Block.winMask (s : Block) (a : Nat) : Word :=
  if a = R.SEQ_CAL_DATA then calMask (s.fld R.SEQ_CAL_ADDR 0 8)
  else if a = R.CPE_LOOP_DATA then loopMask (s.fld R.CPE_LOOP_SEL 0 7) (s.fld R.CPE_LOOP_SEL 7 3)
  else if a = R.THERM_MG_DATA then
    (match s.fld R.THERM_MG_SEL 4 3 with | 0 => 0xF | 4 => 0xFFFF | 5 => 0xFFFF | 6 => 0 | 7 => 0 | _ => 0xFFFFFFFF)
  else 0xFFFFFFFF

/-- A selector after an access to its data register (R667). -/
def stepSel (sel : Nat) (v : Word) : Word :=
  let f (lo w last : Nat) : Word := setBits v lo w (if last ≤ bits v lo w then 0 else bits v lo w + 1)
  if !bit v 31 then v
  else if sel = R.SEQ_CAL_ADDR then f 0 8 131
  else if sel = R.HSB_PI_SEL then f 2 6 63
  else if sel = R.CHAIN_MEM_SEL then f 8 3 7
  else if sel = R.CPE_LOOP_SEL then
    let u := f 7 3 7
    if bits v 7 3 = 7 then setBits u 0 7 (if 111 ≤ bits v 0 7 then 0 else bits v 0 7 + 1) else u
  else if sel = R.THERM_NTC_LUT_SEL then f 0 6 32
  else if sel = R.THERM_MG_SEL then f 4 3 7
  else if sel = R.THERM_SLICE_SEL then f 2 6 63
  else v

/-- An access to a data register steps its index while AUTO_INC is set. -/
def Block.winStep (s : Block) (a : Nat) : Block :=
  match selOf a with
  | some i => s.setReg i (stepSel i (s.reg i))
  | none => s

/-- A write to a window data register: the selected shadow, then the step. -/
def Block.winWrite (s : Block) (a : Nat) (v : Word) : Block :=
  match s.winKey a with
  | some k => (s.shTake a k ((s.reg k &&& ~~~(s.winMask a)) ||| (v &&& s.winMask a))).winStep a
  | none => s

/-! ## Captures -/

/-- A record as Table 20.2 lays it out; a FREE place holds zeros. -/
def FaultRec.bytes (r : FaultRec) : List Byte :=
  leBytes 4 r.fid.toNat ++ leBytes 1 (r.cls + 8 * r.clearable.toNat) ++ leBytes 1 r.page ++ leBytes 2 r.code ++ leBytes 4 r.fsnOpen.toNat ++
    leBytes 8 r.ftOpen ++ leBytes 4 r.detail.toNat ++ leBytes 2 r.recur ++ leBytes 1 (if r.isOpen then 1 else 2) ++ leBytes 1 r.close ++
    leBytes 4 r.fsnClose.toNat

/-- FAULT_REC_SEL (Table 20.10). -/
def Block.recCapture (s : Block) (i : Nat) : Block :=
  let b := match aget? s.fl.recs i with | some r => r.bytes | none => []
  s.setRegs ((bytesWords 8 (padBytes 32 b)).mapIdx fun j w => (R.FAULT_REC_DATA j, w))

/-- MA_CHK_SEL (Table 9.12): entry 0 is the newest. -/
def Block.chkLogCapture (s : Block) (p i : Nat) : Block :=
  let e := (s.port p).chkLog.getD i []
  s.setRegs ((List.range 5).map fun j => (R.MA_CHK_DATA p j, e.getD j 0))

/-- HSB_ZONE_SEL (R349, Table 10.12): the window sum in full-scale us. -/
def Block.zoneCapture (s : Block) (z : Nat) : Block :=
  let q := s.zoneSum z
  s.setReg R.HSB_ZONE_STAT (w32 (satN 31 (q.buckets.sum / 32768000) + 2147483648 * q.blanked.toNat))

/-- LSG_GROUP_SEL (Table 11.9): the level, the ACTIVE members lit and the HOT spares. -/
def Block.groupCapture (s : Block) (g : Nat) : Block :=
  let k := s.grp g
  let l := s.membersOf g
  let act := (l.filter fun m => (s.member m).acting && (s.member m).st != 4).length
  let hot := (l.filter fun m => (s.member m).st == 3).length
  s.setReg R.LSG_GROUP_STAT (w32 (k.level % 65536 + 65536 * (if k.lit then min 4095 act else 0) + 268435456 * min 15 hot))

/-- ROUTE_PROBE (Table 17.13). -/
def Block.probeRoute (s : Block) (v : Word) : Block :=
  let r : Nat := if bit v 31 then
      bitsMask ((s.treeOut (bits v 0 12) 4).filter fun p => decide (p < 4)) + 16 * (s.joinedGroups.contains (bits v 0 12)).toNat
    else match aget? s.fb.table.entries (bits v 0 14) with
      | some e => e.next % 8 + 16 * (e.alt % 8) + 128 * e.assigned.toNat + 256 * (e.hops % 256) + 65536 * min 65535 e.cost
      | none => 0x77
  s.setReg R.ROUTE_PROBE_RES (w32 r)

/-- TRIM_HL_SEL (Table 13.12). -/
def Block.hlCapture (s : Block) (q : Nat) : Block :=
  let (x, y, f) := s.co.hl.getD q (0, 0, 0)
  s.setRegs [(R.TRIM_HL_XY, w32 (x % 65536 + 65536 * y)), (R.TRIM_HL_FLUX, w32 f)]

/-- A word of the challenge, while there is one (Table 16.10). -/
def Block.jtagWord (s : Block) (i : Nat) : Word := if s.tr.chalValid then w32 (field s.tr.challenge (4 * i) 4) else 0

/-! ## Writes with an effect of their own -/

/-- RING registers other than the indices: BASE and SIZE are ignored while their ring is enabled (R104). -/
def ringGuard (a : Nat) : Option Nat :=
  if a = R.RING_CMD_BASE_LO || a = R.RING_CMD_BASE_HI || a = R.RING_CMD_SIZE then some 0
  else if a = R.RING_EVT_BASE_LO || a = R.RING_EVT_BASE_HI || a = R.RING_EVT_SIZE then some 1
  else none

/-- What an RW register does with a value it has accepted (R666). -/
def Block.rwEffect (s : Block) (a : Nat) (w : Word) : Block :=
  let t := s.setReg a w
  let p := pageOf a
  match p with
  | 0x04 =>
    if a = R.RING_CTRL then s.ringCtrl w
    else if a = R.RING_CMD_TAIL then s.cmdTail w
    else if a = R.RING_EVT_HEAD then s.evtHead w
    else if a = R.RING_EVT_MOD then t.modCheck
    else match ringGuard a with
      | some i => if bit (s.reg R.RING_CTRL) i then s else t
      | none => t
  | 0x05 =>
    if a = R.SKD_CTX_SEL then s.skdCapture w
    else if R.SKD_CH_CTRL 0 ≤ a && a < R.SKD_CH_CTRL 16 then
      (if a % 16 = 0 then s.skdCtrlWrite ((a - R.SKD_CH_CTRL 0) / 16) [] w
       else if a % 16 = 8 then s.skdTailWrite ((a - R.SKD_CH_CTRL 0) / 16) w else t)
    else t
  | 0x06 =>
    if a = R.DTU_ROOT_LO || a = R.DTU_ROOT_HI then (if bit (s.reg R.DTU_CTRL) 0 then s else t)
    else t
  | 0x07 => if a = R.TIME_CTRL then s.timeCtrl w else t
  | 0x08 => if a = R.STORE_SURF_SEL then s.surfSelWrite w else t
  | 0x09 => if a = R.INGEST_CTRL && !bit w 0 && bit (s.reg a) 0 then t.nvmeOff else t
  | 0x0C => if a = R.BUCK_DESC_SEL then s.descCapture w else t
  | 0x0E | 0x0F | 0x10 | 0x11 => if a = R.MA_CHK_SEL (p - 0x0E) then t.chkLogCapture (p - 0x0E) (bits w 0 5) else t
  | 0x14 => if a = R.HSB_ZONE_SEL then t.zoneCapture (bits w 0 12) else t
  | 0x15 =>
    if a = R.LSG_GROUP_SEL then t.groupCapture (bits w 0 3) else t
  | 0x1A =>
    if a = R.OPT_EST_SEL then t.estCapture (bits w 0 2)
    else if a = R.OPT_TARGET_SEL then t.targetCapture (bits w 0 2)
    else if a = R.OPT_MAT_SEL then t.matCapture w
    else if a = R.OPT_PD_SEL then t.pdCapture (bits w 0 3) else t
  | 0x1B => if a = R.TRIM_HL_SEL then t.hlCapture (bits w 0 2) else t
  | 0x1F => if a = R.SEED_SEL then s.seedSel w else t
  | 0x20 =>
    if a = R.TRUST_M_SEL then t.setReg R.TRUST_M_DATA (w32 (field s.bt.m (4 * bits w 0 4) 4))
    else if a = R.TRUST_JTAG_SEL then t.setReg R.TRUST_JTAG_DATA (s.jtagWord (bits w 0 4)) else t
  | 0x22 | 0x23 | 0x24 | 0x25 => if a = R.WPXP_CREDIT_SEL (p - 0x22) then t.creditCapture (p - 0x22) w else t
  | 0x26 => if a = R.ROUTE_PROBE then t.probeRoute w else t
  | 0x2B => if a = R.FAULT_REC_SEL then t.recCapture (bits w 0 8) else t
  | _ => t

/-- A shadow takes a value; the planner's result goes stale with SX, SY, FILTER or the output raster (R241). -/
def Block.shEffect (s : Block) (a : Nat) (v : Word) : Block :=
  if (selOf a).isSome then s.winWrite a v
  else
    let t := s.shTake a a v
    if a = R.WARP_CFG && !bit (s.reg (R.PAGE_LOCK 0x0A)) 0 then t.planStale
    else if [0x0C, 0x0E, 0x0F, 0x10, 0x11].contains (pageOf a) && t.raster t.reg != s.raster s.reg then t.planStale
    else t

/-- A write to an RW or SH register, by the host or by the Almanac; `w1c` bits of an RW register clear where a 1 is written. -/
def Block.put (s : Block) (a : Nat) (v : Word) : Block :=
  match rowAt a with
  | none => s
  | some r =>
    match r.acc with
    | .sh => s.shEffect a v
    | .rw =>
      if a = R.DTU_PROBE_ADDR_HI || a = R.LSG_PI_CHECK then
        if bit (s.reg (R.PAGE_LOCK (pageOf a))) 0 then s.errCause (pageOf a) 2
        else if a = R.DTU_PROBE_ADDR_HI then s.probeWrite v else if bit v 0 then s.piCheck else s
      else s.rwTake a v fun s w => s.rwEffect a (w &&& ~~~(v &&& w32 r.w1c))
    | _ => s

end Sys2Proof.Machine
end

