-- ==== Sys2Proof/Machine/Cue.lean ====
section
/-!
DEFINITION. The Almanac (R572 to R590): arming, the actions, commit-class cues, fine-time cues and cues from the fabric.
-/
namespace Sys2Proof.Machine

/-! ## Arming (R573 to R575) -/

/-- Does the Almanac run? -/
def Block.cueOn (s : Block) : Bool := s.tm.run && s.abit R.CUE_CFG 0

/-- May a write take a context from one state to another (R573)? -/
def cueMay (old new : Nat) : Bool :=
  match new with
  | 1 => old == 0 || old == 3 || old == 4 || old == 5
  | 5 => old == 1
  | 0 => old == 3 || old == 4 || old == 5
  | _ => false

/-- A context takes a state as a write gives it: RESULT is 0, and what was fetched of it is dropped. -/
def Block.cueGo (s : Block) (i : Nat) (c : CueCtx) (st : Nat) : Block :=
  let s := s.setCtx i { c with st := st, result := 0 }
  { s with cu := { s.cu with fetched := s.cu.fetched.filter fun f => f.idx != i } }

/-- A write that would change STATE only (R575). -/
def Block.cueState (s : Block) (i st : Nat) : Block :=
  if cueMay (s.ctx i).st st then s.cueGo i (s.ctx i) st else s.bump R.CUE_WRITE_REFUSED

/-- BASE, POLICY, FINE, EVT, PRIO and SEQ from bytes 12 to 15. -/
def CueCtx.withFlags (c : CueCtx) (v : Word) : CueCtx :=
  { c with base := bits v 3 2, skip := bit v 5, fine := bit v 6, evt := bit v 7, prio := bits v 16 4, seq := bits v 20 12 }

/-- A word of a context is written (R573, R574). -/
def Block.ctxWrite (s : Block) (i w : Nat) (v : Word) : Block :=
  let c := s.ctx i
  if w < 3 && (c.st == 1 || c.st == 2) then s.bump R.CUE_WRITE_REFUSED
  else match w with
    | 0 => s.setCtx i { c with trigger := c.trigger / 0x100000000 * 0x100000000 + v.toNat }
    | 1 => s.setCtx i { c with trigger := c.trigger % 0x100000000 + v.toNat * 0x100000000 }
    | 2 => s.setCtx i { c with action := v.toNat }
    | 3 =>
      let d := c.withFlags v
      if cueMay c.st (bits v 0 3) then s.cueGo i d (bits v 0 3) else (s.setCtx i d).bump R.CUE_WRITE_REFUSED
    | _ => s

/-- CUE_CONTEXT_WRITE (R573, R574): a 32-bit write to word `w` of context `i`. -/
def execCueContextWrite (i w : Nat) (v : Word) (s : State) : Res :=
  s.does fun s => if i < 262144 then s.onStrobe fun s => s.ctxWrite i w v else s

/-- CANCEL_ALL: every ARMED context is cancelled. -/
def Block.cancelAll (s : Block) : Block :=
  (s.cu.ctx.filter fun e => e.2.st == 1).foldl (fun s e => s.cueState e.1 5) s

/-- A write of CUE_OP (R575); a reserved operation does nothing. -/
def Block.cueOp (s : Block) (v : Word) : Block :=
  match bits v 28 4 with
  | 1 => s.cueState (bits v 0 18) 1
  | 2 => s.cueState (bits v 0 18) 5
  | 3 => s.cancelAll
  | _ => s

def execCueOpArm (v : Word) (s : State) : Res := s.does fun s => s.onStrobe fun s => s.cueState (bits v 0 18) 1
def execCueOpCancel (v : Word) (s : State) : Res := s.does fun s => s.onStrobe fun s => s.cueState (bits v 0 18) 5
def execCueOpCancelAll (_ : Word) (s : State) : Res := s.does fun s => s.onStrobe fun s => s.cancelAll

/-! ## Actions (R584 to R586) -/

/-- Blocks of 64 bytes from the action memory, which must lie in CP11: result 3 where they do not, 4 with the address of an
uncorrectable block. -/
def Block.actRead (s : Block) : Nat → Nat → Except (Nat × Nat) (List Byte)
  | 0, _ => .ok []
  | n + 1, va =>
    match s.walk va with
    | .error _ => .error (3, 0)
    | .ok l =>
      let pa := l.pa + va % 2 ^ l.log
      if !l.r || !inCP11 pa then .error (3, 0)
      else if s.dc.poison.contains (pa / 64) then .error (4, pa)
      else match s.actRead n (va + 64) with
        | .ok bs => .ok (s.memBytes pa 64 ++ bs)
        | .error e => .error e

/-- May a REG_BATCH entry name a register (R585)? -/
def Block.batchReg (s : Block) (a : Nat) : Bool :=
  decide (0x40 ≤ a % 0x1000) && decide (a % 0x1000 < 0x800) && shPages.contains (pageOf a) && !bit (s.reg (R.PAGE_LOCK (pageOf a))) 0 &&
    (match rowAt a with | some r => r.acc == .rw || r.acc == .sh | none => false)

/-- The entries of a REG_BATCH: register and value. -/
def batchOf (b : List Byte) : List (Nat × Word) :=
  (List.range (field b 0 2)).map fun k => (field b (4 + 8 * k) 4 % 262144, w32 (field b (8 + 8 * k) 4))

/-- Is a body good for its type, every field within its range and within LENGTH (R586)? -/
def Block.bodyGood (s : Block) (ty : Nat) (b : List Byte) : Bool :=
  let n := b.length
  match ty with
  | 1 => decide (1 ≤ field b 0 2) && decide (field b 0 2 ≤ 64) && decide (4 + 8 * field b 0 2 ≤ n) && (batchOf b).all fun e => s.batchReg e.1
  | 2 => decide (4 ≤ n) && decide (field b 1 1 ≤ 3)
  | 3 => decide (4 ≤ n) && decide (field b 0 1 ≤ 2) && decide (field b 1 1 ≤ (if field b 0 1 = 0 then 63 else 7))
  | 4 => decide (4 ≤ n) && decide (field b 1 1 ≤ 2) && decide (field b 2 2 ≤ 0x8000)
  | 5 => decide (4 ≤ n) && decide (field b 0 1 ≤ 3)
  | 6 =>
    decide (8 + field b 4 2 ≤ n) && decide (field b 4 2 ≤ 256) && (field b 3 1 == 3 || decide (0x80 ≤ field b 3 1)) &&
      (if natBit (field b 2 1) 0 then decide (field b 0 2 < 0x1000) else decide (1 ≤ field b 0 2) && decide (field b 0 2 ≤ 0x3FFE))
  | 7 => decide (8 ≤ n)
  | 8 => decide (12 ≤ n)
  | _ => false

/-- The action of a context: its result (0 good, 3 invalid, 4 ECC), type and body, with the address of an uncorrectable block. -/
def Block.action (s : Block) (c : CueCtx) : Nat × Nat × List Byte × Nat :=
  let va := s.afld R.CUE_ACT_BASE_HI 0 16 * 0x100000000 + s.afld R.CUE_ACT_BASE_LO 12 20 * 4096 + 64 * c.action
  match s.actRead 1 va with
  | .error (r, pa) => (r, 0, [], pa)
  | .ok h =>
    let ty := field h 0 1
    let len := field h 2 2
    if len < 4 || 520 < len then (3, ty, [], 0)
    else match s.actRead (cdiv (8 + len) 64) va with
      | .error (r, pa) => (r, ty, [], pa)
      | .ok b =>
        let body := (b.drop 8).take len
        if (ty ≥ 6) != c.fine || !s.bodyGood ty body then (3, ty, [], 0) else (0, ty, body, 0)

/-- The DRAM error of a read, where there was one (Table 15.1). -/
def Block.actUe (s : Block) (r pa : Nat) : Block := if r = 4 then s.uncorrectable pa 6 else s

/-! ## Commit-class cues (R577 to R581) -/

/-- Where a commit-class cue stands against the effect frame shown from FB_e: none while its reference lies ahead or has no
valid base, else whether it is late. -/
def Block.cueDue (s : Block) (c : CueCtx) (e : Nat) : Option Bool :=
  let at_ (ft : Nat) : Option Bool := if ft ≤ s.fbAt e then some (decide (ft ≤ s.fbAt (e - 1))) else none
  match c.base with
  | 0 => at_ c.trigger
  | 1 =>
    let t := w32 c.trigger
    if t = s.fsnNext + 1 then some false else if newer (s.fsnNext + 1) t then some true else none
  | 2 => if s.tm.tcValid then at_ (s.tcFtOf (tcCount (s.fld R.TIME_TC_CFG 0 2) (w32 c.trigger))) else none
  | _ => some false

/-- The ARMED commit-class cues due for FB_e, in firing order (R579), with whether each is late. -/
def Block.cuesDue (s : Block) (e : Nat) : List (Nat × CueCtx × Bool) :=
  let l := s.cu.ctx.filterMap fun x =>
    if x.2.st = 1 && !x.2.fine then (match s.cueDue x.2 e with | some l => some (x.1, x.2, l) | none => none) else none
  (List.range 16).flatMap fun p => l.filter fun x => x.2.1.prio == p

/-- The index of the effect frame whose actions are being fetched: FB_{e-2} has fallen last. -/
def Block.cueE (s : Block) : Nat := s.tm.nextK + 1

/-- CUE_ACTION_FETCH (R578, R580, R581, R586): a late cue with SKIP, and one that exceeds the 64 with SKIP, become MISSED at the
firing instant; one of the `bad` contexts becomes MISSED with ECC there (R589). -/
def Block.cueFetch (s : Block) (bad : List Nat) : Block :=
  let all := s.cuesDue s.cueE
  let lost := (all.filter fun x => bad.contains x.1).map fun x => ({ idx := x.1, res := 4, ty := 0, body := [] } : CueFetched)
  let due := all.filter fun x => !bad.contains x.1
  let skip := due.filter fun x => x.2.2 && x.2.1.skip
  let run := due.filter fun x => !(x.2.2 && x.2.1.skip)
  let extra := (run.drop 64).filter fun x => x.2.1.skip
  let (s, got) := (run.take 64).foldl (fun (s, l) x =>
    let (r, ty, body, pa) := if x.2.1.base = 3 then (3, 0, [], 0) else s.action x.2.1
    let f : CueFetched := { idx := x.1, res := if r = 0 then x.2.2.toNat else r, ty := ty, body := body }
    (s.actUe r pa, l ++ [f])) (s, [])
  let miss := (skip ++ extra).map fun x => ({ idx := x.1, res := 2, ty := 0, body := [] } : CueFetched)
  { s with cu := { s.cu with fetched := got ++ miss ++ lost, fetchK := s.cueE } }

def execCueActionFetch (bad : List Nat) (s : State) : Res :=
  s.does fun s => if s.cueOn && s.cu.firedK != s.cueE && !s.tm.cutoffDone then s.cueFetch bad else s

/-- The shadow writes of an action: the state, and the pages the commit names. -/
def Block.actWrites (s : Block) (f : CueFetched) : Block × Nat :=
  match f.ty with
  | 1 => ((batchOf f.body).foldl (fun s e => s.put e.1 e.2) s, (batchOf f.body).foldl (fun m e => m ||| 2 ^ pageOf e.1) 0)
  | 2 =>
    ((maskBits 4 (field f.body 0 1)).foldl (fun s g => s.put (R.SEQ_LG_CFG g) (setBits (s.reg (R.SEQ_LG_CFG g)) 0 2 (field f.body 1 1))) s,
     if field f.body 0 1 % 16 = 0 then 0 else 2 ^ 0x0D)
  | 3 =>
    let sel := field f.body 0 1
    let cfg := setBits (s.reg R.STORE_FRAME_CFG) 0 2 sel
    (if sel = 0 then (s.put R.STORE_FRAME_CFG cfg).put R.STORE_FRAME_SURF (w32 (field f.body 1 1))
     else s.put R.STORE_FRAME_CFG (setBits cfg 4 3 (field f.body 1 1)), 2 ^ 0x08)
  | 4 =>
    let gs := maskBits 5 (field f.body 0 1)
    if field f.body 2 2 = 0 || gs = [] then (s, 0)
    else (gs.foldl (fun s g => s.put (R.LSG_DIM g) (w32 (field f.body 2 2))) s, 2 ^ 0x15)
  | 5 => (s.put R.HOLD_CFG (setBits (s.reg R.HOLD_CFG) 0 2 (field f.body 0 1)), 2 ^ 0x28)
  | _ => (s, 0)

/-- A cue becomes FIRED, with its count and event (Tables 18.2, 18.14). -/
def Block.cueFired (s : Block) (i res : Nat) (fsn : Word) : Block :=
  let c := s.ctx i
  let s := (s.setCtx i { c with st := 2, result := res }).bump R.CUE_FIRED
  let s := if res = 1 then (s.bump R.CUE_LATE).postTally 0x1E4 (pageInst 0x27) else s
  if c.evt then s.cueEvent 0x1E0 i fsn else s

/-- One cue at the firing instant: what it gives the group commit. -/
def Block.cueFire1 (s : Block) (f : CueFetched) (fsn : Word) : Block × Nat × Bool :=
  if (s.ctx f.idx).st ≠ 1 then (s, 0, false)
  else if 2 ≤ f.res then (s.cueMiss f.idx f.res fsn, 0, false)
  else
    let (s, pages) := (s.cueFired f.idx f.res fsn).actWrites f
    let op := field f.body 1 1
    let s : Block := if f.ty = 4 && op != 2 then
        { s with cu := { s.cu with scenes := s.cu.scenes ++ [{ idx := f.idx, k := 2, mask := field f.body 0 1 % 32,
                                                               light := op == 0, since := s.now }] } }
      else s
    (s, pages, true)

/-- The firing instant (R578, R579): shadow writes in firing order, and one group commit. -/
def Block.cueFire (s : Block) (bad : List Nat) : Block :=
  let s := s.advanceTo (s.nextCutoff - 50000)
  let s := if s.cu.fetchK = s.cueE then s else s.cueFetch bad
  let fsn := s.fsnNext + 1
  let (s, pages, cues) := s.cu.fetched.foldl (fun (s, m, l) f =>
    let (s, p, ok) := s.cueFire1 f fsn
    (s, m ||| p, if ok then l ++ [f.idx] else l)) (s, 0, ([] : List Nat))
  let n := cues.length
  let s : Block := { s with cu := { s.cu with fetched := [], firedK := s.cueE, load := n, loadMax := max n s.cu.loadMax } }
  if pages = 0 then s.cuesApplied cues else s.commitIn pages true cues

/-- Is the firing of the effect frame still to come? -/
def Block.cueFiring (s : Block) (bad : List Nat) : Block :=
  if s.cueOn && !s.tm.cutoffDone && s.cu.firedK != s.cueE then s.cueFire bad else s

def execCueFiring (bad : List Nat) (s : State) : Res := s.does fun s => s.cueFiring bad

/-! ## Scenes (R587) -/

/-- A fired SCENE is carried out at FB_e, or its cue is MISSED with STATE and no group changes. -/
def Block.sceneRun (s : Block) (x : CueScene) : Block :=
  let bad := if x.light then !s.mayLight || (maskBits 5 x.mask).any s.groupLacks else !s.pw.state.lightOn
  if bad then s.cueMiss x.idx 6 s.tm.fsn
  else
    let s := if x.light then s.lightGroups x.mask 3 (s.usSince x.since) else s.stopGroups x.mask x.since
    s.cueDone x.idx

/-- The scenes at an FB: those whose FB_e it is. -/
def Block.scenesFb (s : Block) : Block :=
  let due := s.cu.scenes.filter fun x => decide (x.k ≤ 1)
  let rest := (s.cu.scenes.filter fun x => decide (1 < x.k)).map fun x => { x with k := x.k - 1 }
  let s : Block := { s with cu := { s.cu with scenes := rest } }
  due.foldl (fun s x => if (s.ctx x.idx).st = 2 then s.sceneRun x else s) s

/-! ## Cues from the fabric (R590) -/

/-- A CUE payload (Table 18.7) from a node: the result. -/
def Block.fabCue (s : Block) (d : List Byte) : Block × Nat :=
  let i := field d 4 4
  let op := field d 0 1
  if !s.abit R.CUE_CFG 1 then (s, 1)
  else if i < s.afld R.CUE_FAB_FIRST 0 18 || s.afld R.CUE_FAB_LAST 0 18 < i || (op != 1 && op != 2) then (s, 2)
  else
    let st := if op = 1 then 1 else 5
    if !cueMay (s.ctx i).st st then (s.bump R.CUE_WRITE_REFUSED, 3)
    else
      let c := if op = 1 then { (s.ctx i).withFlags (w32 (field d 16 4)) with trigger := field d 8 8 } else s.ctx i
      (s.cueGo i c st, 0)

/-- A CUE frame: counted, carried out, and reported. -/
def Block.cueFrame (s : Block) (src : Nat) (d : List Byte) : Block :=
  if d.length ≠ 20 then s
  else
    let (s, r) := (s.bump R.CUE_FAB_RX).fabCue d
    s.post 0x27 0x1E3 [w32 (src % 65536 + 65536 * field d 0 1 + 16777216 * r), w32 (field d 4 4)]

/-- CUE_FRAME (R590): a frame of PROTO 0x03 from node `src`; `d` is its payload. -/
def execCueFrame (src : Nat) (d : Bytes) (s : State) : Res := s.does fun s => if s.fabOn then s.cueFrame src d else s

/-! ## Fine-time cues (R582, R583) -/

/-- The whole microsecond of FT at or after an instant. -/
def tickAt (ft : Nat) : Nat := cdiv ft 1000 * 1000

/-- The firing reference of a fine-time cue in FT, where it is known now (Table 18.3).  For PHASE, the angle still to go or passed
is turned into time at the present rate. -/
def Block.fineRef (s : Block) (c : CueCtx) : Option Nat :=
  match c.base with
  | 0 => some c.trigger
  | 1 =>
    let t := w32 c.trigger
    if newer t s.tm.fsn then none else some (s.fbAt (s.tm.curK - (s.tm.fsn - t).toNat))
  | 2 => if s.tm.tcValid then some (s.tcFtOf (tcCount (s.fld R.TIME_TC_CFG 0 2) (w32 c.trigger))) else none
  | _ =>
    let want := w32 (c.trigger / 0x100000000)
    let line := s.reg R.HSF_LINES
    if !s.sc.phaseValid || newer want line then none
    else
      let d : Int := sgn 32 ((s.sc.angleAtTime s.now + 0x100000000 - c.trigger % 0x100000000) % 0x100000000) +
        ((line - want).toNat * 2147483648 : Nat)
      some ((s.tm.ft : Int) - d * 65536 / (max 1 s.sc.pinc : Nat)).toNat

/-- The tokens left at an instant: one each 1/4,096 s of FT, at most 64 (R582). -/
def Block.tokensAt (s : Block) (ft : Nat) : Nat := min 64 (s.cu.tokens + (ft * 4096 / 1000000000 - s.cu.tokenAt * 4096 / 1000000000))

/-- The first instant from `ft` on at which a token is left. -/
def Block.tokenFrom (s : Block) (ft : Nat) : Nat :=
  if s.tokensAt ft ≠ 0 then ft else cdiv ((s.cu.tokenAt * 4096 / 1000000000 + 1) * 1000000000) 4096

/-- The fine-time cue that is next in turn (R579): its reference's tick, index and context. -/
def Block.nextFine (s : Block) : Option (Nat × Nat × CueCtx) :=
  (s.cu.ctx.filterMap fun x =>
    if x.2.st = 1 && x.2.fine then (match s.fineRef x.2 with | some r => some (tickAt r, x.1, x.2) | none => none) else none).foldl
    (fun b x => match b with
      | none => some x
      | some y => if x.1 < y.1 || (x.1 == y.1 && decide (x.2.2.prio < y.2.2.prio)) then some x else b) none

/-- The first tick at which a cue may fire: its own, after the last tick that fired, with a token left. -/
def Block.fineTick (s : Block) (ref : Nat) : Nat :=
  let a := max ref (tickAt s.tm.ft)
  let b := match s.cu.lastTick with | some t => max a (t + 1000) | none => a
  tickAt (s.tokenFrom b)

/-- A frame of this node in the CTRL class leaves by a port, or is delivered here. -/
def Block.cueSend (s : Block) (mc : Bool) (dst proto : Nat) (pay : List Byte) (out : List Nat) (here : Bool) : Block :=
  let b := mkFrame 2 mc dst s.fb.addr proto 0 0 0 pay
  let s := if here then (if proto = 3 then s.cueFrame s.fb.addr pay else s.hostRx b) else s
  out.foldl (fun s p => s.enqueue p { cls := 2, bytes := b, hold := none, cseq := none }) s

/-- A FABRIC_MSG is sent; false where it has no route. -/
def Block.cueMsg (s : Block) (b : List Byte) : Block × Bool :=
  let dst := field b 0 2
  let pay := (b.drop 8).take (field b 4 2)
  let proto := field b 3 1
  if !s.fabOn || s.fb.addr == 0 then (s, false)
  else if natBit (field b 2 1) 0 then (s.cueSend true dst proto pay (s.treeOut dst 4) (s.joinedGroups.contains dst), true)
  else match s.routeOf dst with
    | none => (s, false)
    | some (4, _) => (s.cueSend false dst proto pay [] true, true)
    | some (p, alt) =>
      let s := if alt then (s.bump R.ROUTE_ALT_USED).postTally 0x1D5 p else s
      (s.cueSend false dst proto pay [p] false, true)

/-- CUE_OUT (Table 18.6): the masked pins whose function is CUE_OUT take their levels, or pulse. -/
def Block.cueOut (s : Block) (b : List Byte) : Block :=
  let pins := (List.range 32).filter fun i => natBit (field b 0 4) i && s.fld (R.PIN_GPIO_MUX (i / 8)) (4 * (i % 8)) 4 == 2
  let lv := w32 (field b 4 4)
  if field b 8 2 = 0 then
    { s with pins := { s.pins with cueOut := pins.foldl (fun w i => setBit w i (bit lv i)) s.pins.cueOut } }
  else pins.foldl (fun s i => s.emit (.pulse i (bit lv i) (some (field b 8 2)))) s

/-- A fine-time action is carried out; the result that makes its cue MISSED, or 0. -/
def Block.fineAct (s : Block) (i ty : Nat) (b : List Byte) : Block × Nat :=
  match ty with
  | 6 => let (t, ok) := s.cueMsg b; (t, if ok then 0 else 8)
  | 7 => (s.post 0x27 0x1E2 [w32 i, w32 (field b 0 4), w32 (field b 4 4)], 0)
  | _ => (s.cueOut b, 0)

/-- A fine-time cue at its tick: a token and the tick are used by the one that fires; one whose context is `bad` becomes MISSED with
ECC (R589). -/
def Block.fineFire (s : Block) (i : Nat) (c : CueCtx) (ref tick : Nat) (bad : Bool) : Block :=
  if bad then s.cueMiss i 4 s.tm.fsn
  else if c.skip && decide (ref + s.afld R.CUE_FINE_TOL 0 16 * 1000 < tick) then s.cueMiss i 2 s.tm.fsn
  else
    let (r, ty, body, pa) := s.action c
    let s := s.actUe r pa
    if r ≠ 0 then s.cueMiss i r s.tm.fsn
    else
      let (s, x) := s.fineAct i ty body
      if x ≠ 0 then s.cueMiss i x s.tm.fsn
      else
        let s : Block := { s with cu := { s.cu with tokens := s.tokensAt s.tm.ft - 1, tokenAt := s.tm.ft, lastTick := some tick } }
        ((s.cueFired i (decide (ref + 1000 < tick)).toNat s.tm.fsn).postTally 0x1E5 (pageInst 0x27)).cueDone i

/-- FINE_CUE_TICK (R582, R583): the cue next in turn fires at the first tick that allows it; a boundary that lies before that tick
comes first. -/
def Block.fineCue (s : Block) (bad : Bool) : Block :=
  match s.nextFine with
  | none => s
  | some (ref, i, c) =>
    let tick := s.fineTick ref
    if s.nextFb < tick then s else (s.advanceTo tick).fineFire i c ref tick bad

def execFineCueTick (bad : Bool) (s : State) : Res := s.does fun s => if s.cueOn then s.fineCue bad else s

end Sys2Proof.Machine
end

