-- ==== Sys2Proof/Machine/View.lean ====
section
/-!
DEFINITION. What the registers present (Table 0.5, R81, R89, R91): the read-only registers that follow the state, by page, and the
values a frozen page holds.  Fields whose value the spec gives no way to compute are `Config.openReg` (log entry 41).
-/
namespace Sys2Proof.Machine

/-- A field the spec leaves open, below a bound. -/
def Block.openFld (s : Block) (a n : Nat) : Nat := Config.openReg a s.now % n

/-- Bits from a list of conditions. -/
def flags (l : List Bool) : Nat := bitsMask ((l.mapIdx fun i b => if b then [i] else []).flatten)

/-! ## Pages 0x00 to 0x04 -/

/-- PAGE_STATUS (Table 3.5). -/
def Block.pageStatus (s : Block) (p : Nat) : Word :=
  let c := s.reg (R.PAGE_CTRL p)
  w32 (flags [bit c 0, bit c 1, bit c 2, s.fl.recs.any fun e => e.2.isOpen && e.2.page == p && decide (1 ≤ e.2.cls)])

/-- The conditions of vectors, as DEV_INT_SUMMARY shows them (R97). -/
def Block.summary (s : Block) (hi : Bool) : Word :=
  if hi then w32 (bitsMask ((List.range 13).filter fun i => s.vec (32 + i)) + 0x80000000 * s.rg.vec63.toNat)
  else w32 (bitsMask ((List.range 32).filter s.vec))

/-- DEV, PWR, BOOT and RING. -/
def Block.viewCore (s : Block) (a : Nat) : Option Word :=
  if a = R.DEV_HK_STATUS then some (w32 (s.bt.hkRunning % 16 + 16 * s.bt.hkRestart.isSome.toNat + 32 * s.bt.mgmtLost.toNat))
  else if a = R.DEV_HEARTBEAT then some s.heartbeat
  else if a = R.DEV_COMMIT then some (s.commitReq fun c => c.group)
  else if a = R.DEV_COMMIT_STATUS then some (s.commitStatus fun c => c.group)
  else if a = R.DEV_INT_SUMMARY0 then some (s.summary false)
  else if a = R.DEV_INT_SUMMARY1 then some (s.summary true)
  else if a = R.PWR_STATE then some s.pwrState
  else if a = R.PWR_PF_STATUS then
    some (w32 (flags [s.pw.pfAsserted, s.pw.pfCut, s.pw.pfRecovering] + 65536 * satN 16 s.pw.pfRideThrough))
  else if a = R.PWR_UPTIME_LO then some (w32 ((s.now - s.pw.since) / 1000000))
  else if a = R.PWR_UPTIME_HI then some (w32 ((s.now - s.pw.since) / 1000000 / 0x100000000))
  else if a = R.PWR_STRAPS then some (w32 (s.bt.src % 4))
  else if a = R.BOOT_OTP_POLICY then
    some (w32 (flags [s.fuse 2948, s.fuse 2949, s.fuse 2950] + 8 * bitsMask ((List.range 4).filter s.ownerUsed)))
  else if a = R.RING_CMD_SEQ_DONE then some s.seqDone
  else if a = R.RING_CMD_INFLIGHT then some (w32 s.rg.inflight.length)
  else none

/-! ## Pages 0x05 to 0x0C -/

/-- SKD and DTU. -/
def Block.viewDma (s : Block) (a : Nat) : Option Word :=
  if a = R.SKD_MOVER_STATUS then
    some (w32 ((s.sk.run.mapIdx fun m r => match r with | some c => c * 16 ^ m + 2 ^ (16 + m) | none => 0).sum))
  else if a = R.DTU_STATUS then some (w32 (2 * s.dt.inv.isSome.toNat))
  else if R.SKD_CH_STATUS 0 ≤ a ∧ a < R.SKD_CH_STATUS 16 ∧ (a - R.SKD_CH_STATUS 0) % 16 = 0 then
    (let k := s.skd ((a - R.SKD_CH_STATUS 0) / 16)
     let f := k.st == .faulted
     some (w32 (k.head % 65536 + 65536 * k.st.code + (if f then 1048576 * (k.kind % 16) + 16777216 * (k.detail % 256) else 0))))
  else none

/-- HOST: fields that follow the host's configuration accesses and the USB 2.0 bus, which no command carries, are open; interface 0 is there
while the ROM runs, interface 1 from the start of the firmware (R175). -/
def Block.viewHost (s : Block) (a : Nat) : Option Word :=
  if a = R.HOST_PCIE_STATUS then some (w32 (s.hs.pcie.payload + 16 * s.hs.pcie.readReq + 512 * s.hs.pcie.master.toNat))
  else if a = R.HOST_USB2_STATUS then
    let rom := s.pw.state == .boot && s.bootSource == 1
    let fw := s.pw.state != .boot
    some (w32 ((rom || fw).toNat + 2 * s.openFld a 2 * (rom || fw).toNat + 4 * rom.toNat + 8 * fw.toNat))
  else none

/-- A word of STORE_SURF_STATE. -/
def Block.surfStates (s : Block) (m : Nat) : Word := w32 (((List.range 8).map fun i => s.surfCode (8 * m + i) * 16 ^ i).sum)

/-- STORE and INGEST. -/
def Block.viewStore (s : Block) (a : Nat) : Option Word :=
  if a = R.STORE_LOAD then
    some (w32 (shareOf s.act s.spNow (s.pairLoad s.act s.dc.warpSpill 8) % 1024 + 65536 * (s.sf.lastLoad % 1024)))
  else if a = R.STORE_SHOWN then
    some (match s.sf.inUse with | some i => w32 (i + 256 * ((s.surf i).tag.toNat % 16777216)) | none => 0x3F)
  else if a = R.INGEST_STATUS then
    some (w32 (bitsMask ((List.range 8).filter fun n => (s.src n).st == 2) + 256 * (s.sf.nvme.st == 2 || s.sf.nvme.st == 3).toNat +
      512 * (s.sf.nvme.st == 3).toNat))
  else if a = R.INGEST_HFC_QSTAT then
    (let q := s.src (s.fld R.INGEST_HFC_SRC 0 3)
     some (w32 (q.hfc.length % 32 + 256 * q.hfcOvf.toNat)))
  else match (List.range 8).find? fun m => a == R.STORE_SURF_STATE m with
    | some m => some (s.surfStates m)
    | none => match (List.range 8).find? fun n => a == R.INGEST_SRC_STATUS n with
      | some n =>
        let q := s.src n
        some (w32 (q.st % 16 + 16 * (q.writing.getD 63) + 1024 * (q.newest.getD 63) + 65536 * bits (s.reg a) 16 16))
      | none => none

/-- WARP, COLOR and BUCK. -/
def Block.viewPipe (s : Block) (a : Nat) : Option Word :=
  if a = R.WARP_OUT_SIZE then some (w32 ((s.raster s.act).1 + 65536 * (s.raster s.act).2))
  else if a = R.WARP_MESH_DIM then some (w32 (s.meshDim.1 + 65536 * s.meshDim.2))
  else if a = R.WARP_STATUS then some (w32 (s.pp.mesh.sync.toNat + 2 * s.pp.mesh.bank))
  else if a = R.WARP_SPILL_LOAD then some (w32 (shareOf s.act s.spNow (spillLoad s.act s.dc.warpSpill) % 1024))
  else if a = R.WARP_PLAN_STATUS then some (w32 (s.pp.planBusy.toNat + 2 * s.planOk.toNat + 65536 * bits (s.reg a) 16 16))
  else if a = R.COLOR_PIPE_STATUS then
    some (w32 (flags [s.pp.half, s.pp.fallback, s.pp.frame.isSome, s.pp.lut.sync] + 16 * s.pp.lut.bank))
  else if a = R.BUCK_STATUS then
    some (w32 (bitsMask ((List.range 4).filter fun p => ((s.port p).setIn 1).isSome) +
      16 * bitsMask ((List.range 4).filter fun p => (s.port p).sets.any fun t => t.st == 1 && t.across)))
  else match (List.range 4).find? fun p => decide (R.BUCK_SET_BYTES p ≤ a) && decide (a ≤ R.BUCK_SEAL_SLACK p) with
    | some p =>
      let q := s.port p
      if a = R.BUCK_SET_BYTES p then some (match s.geom s.act p with | some (w, h) => w32 (setBytes w h) | none => 0)
      else if a = R.BUCK_SET_STATE p then
        some (w32 ((q.sets.mapIdx fun i t => t.st % 4 * 4 ^ i).sum + 256 * ((q.setIn 3).getD 3) + 1024 * ((q.setIn 2).getD 3) +
          4096 * ((q.setIn 1).getD 3)))
      else if a = R.BUCK_SHOW_FSN p then some (match q.showing with | some c => c.fsn | none => 0)
      else if a = R.BUCK_SEAL_FSN p then some q.sealTag
      else if a = R.BUCK_SEAL_SLACK p then some (w32 (unsgn 32 q.sealSlack))
      else none
    | none => none

/-! ## Pages 0x07 and 0x0D to 0x11 -/

/-- Full dark frames still to come (Table 2.11). -/
def Block.darkRemain (s : Block) : Nat := min 2 (s.tm.dark.foldl (fun m d => max m (d.litK - s.tm.nextK)) 0)

/-- TIME. -/
def Block.viewTime (s : Block) (a : Nat) : Option Word :=
  let c := (s.nextCutoff : Nat)
  if a = R.TIME_SRC_STATUS then
    some (w32 (s.tm.src.code + 4 * s.lockCode +
      16 * flags [s.qualified .fsync, s.qualified .wipex, s.tm.tcValid, s.sc.phaseValid, s.tm.dark != []] + 512 * s.darkRemain))
  else if a = R.TIME_FT_LO then some (w32 s.tm.ft)
  else if a = R.TIME_PRELOAD then some (w32 (s.tPre s.act))
  else if a = R.TIME_FSN then some s.tm.fsn
  else if a = R.TIME_FB_K_LO then some (w32 s.tm.curK)
  else if a = R.TIME_FB_K_HI then some (w32 (s.tm.curK / 0x100000000))
  else if a = R.TIME_NEXT_FB_LO then some (w32 (if s.tm.run then s.nextFb else 0))
  else if a = R.TIME_NEXT_FB_HI then some (w32 (if s.tm.run then s.nextFb / 0x100000000 else 0))
  else if a = R.TIME_CUTOFF_LO then some (w32 (if s.tm.run then c else 0))
  else if a = R.TIME_TC_NOW then some s.tcNow
  else none

/-- A signed margin in 10 ns units, in 24 bits. -/
def margin24 (x : Int) : Nat := unsgn 24 (clampI (-8388608) 8388607 (x / 10))

/-- SEQ. -/
def Block.viewSeq (s : Block) (a : Nat) : Option Word :=
  if a = R.SEQ_STATUS then some (w32 (bitsMask ((List.range 4).filter fun g => (s.port g).st == 5)))
  else match (List.range 4).find? fun g => decide (R.SEQ_LG_STATUS g ≤ a) && decide (a ≤ R.SEQ_RUNS g) with
    | none => none
    | some g =>
      let q := s.port g
      let ws := s.calInUse g
      if a = R.SEQ_LG_STATUS g then
        some (w32 (q.cal % 4 + 4 * (q.slot % 64) + 256 * flags [q.phase == 1, s.inDarkNow, q.repeated] + 2048 * ((q.setIn 3).getD 3)))
      else if a = R.SEQ_LOAD_NS g then some (w32 (s.loadNs s.act g))
      else if a = R.SEQ_STAGE_DEPTH g then some (w32 (s.stageDepth g))
      else if a = R.SEQ_LIN_ERR g then some (w32 (satN 16 (s.linErr g)))
      else if a = R.SEQ_LOAD_MARGIN g then some (w32 (margin24 (s.loadMargin g).1 + 16777216 * ((s.loadMargin g).2 % 64)))
      else if a = R.SEQ_END_MARGIN g then some (w32 (satN 24 (s.endMargin g / 10)))
      else if a = R.SEQ_RUNS g then
        some (w32 (calCount ws + 256 * ((epochRuns ws).length % 16) + 4096 * (((calSlots ws).filter fun x => x.measure).length % 16)))
      else none

/-- MA_STATUS (Table 9.14). -/
def Block.maStatus (s : Block) (p : Nat) : Word :=
  let q := s.port p
  w32 (q.st % 16 + 16 * flags [!s.pins.maRdyN.getD p true, q.bcLock, q.parked, s.pw.state == .frostHold && s.carries p, maClone s.act p])

/-- A MA page. -/
def Block.viewMa (s : Block) (p a : Nat) : Option Word :=
  let q := s.port p
  let i := q.ident
  if a = R.MA_GEOM p then some (match s.geom s.act p with | some (w, h) => w32 (w + 65536 * h) | none => 0)
  else if a = R.MA_CTRL p then some (w32 (flags [false, q.st == 3 && q.train == 1, q.identReq]))
  else if a = R.MA_STATUS p then some (s.maStatus p)
  else if a = R.MA_LINK_STATUS p then
    some (w32 (q.rate % 4 + 4 * (q.linkState == 2).toNat + 8 * q.fail.toNat + 256 * (q.skew % 16) + 65536 * (q.lane % 32)))
  else if a = R.MA_IDENT0 p then some (match i with | some i => i.word0 | none => 0)
  else if a = R.MA_IDENT1 p then
    some (match i with
      | some i => w32 (i.rev + 256 * (i.sd % 16) + 4096 * (i.modes % 8) + 65536 * (i.rates % 8) + 524288 * (i.widths % 4))
      | none => 0)
  else if a = R.MA_IDENT2 p then some (match i with | some i => w32 (i.settle + 65536 * i.park) | none => 0)
  else if a = R.MA_ARRAY_TEMP p then
    some (w32 (bits (s.reg a) 0 16 + 65536 * satN 16 ((s.now - q.tempAt) / 1000000)))
  else if a = R.MA_FIFO_LEVEL p then 
    -- An OFF port has sent nothing, so its FIFO is empty; at other times the spec gives no level (R315, log entry 247).
    some (if q.st = 0 then 0 else w32 (s.openFld a 4097 + 65536 * s.openFld (a + 1) 4097))
  else match (List.range 4).find? fun m => a == R.MA_MODE p m with
    | some m => some (match i with | some i => i.words.getD m 0 &&& 0x1FFFFFF | none => 0)
    | none => none

/-! ## Pages 0x12 to 0x18 -/

/-- A quantity of the motion in Q16.16: positions, velocities and accelerations per us. -/
def hssQ (k : Nat) (x : Int) : Word := w32 (unsgn 32 (rdiv x (2 ^ (80 - 16 * k))))

/-- HSF, HSS and HSB. -/
def Block.viewScan (s : Block) (a : Nat) : Option Word :=
  let c := s.sc
  let m := c.motion.at 16 1000 s.now
  if a = R.HSF_STATUS then
    some (w32 (c.st % 8 + 8 * c.phaseValid.toNat + 16 * (decide (((c.amp : Int) - s.afld R.HSF_AMP_SET 0 16).natAbs * 50 ≤ s.afld R.HSF_AMP_SET 0 16)).toNat))
  else if a = R.HSF_FREQ then some (w32 s.driveFreq)
  else if a = R.HSF_PINC then some (w32 (if c.pinc < 4294967296 then c.pinc else s.openFld a 4294967296))
  else if a = R.HSF_AMP then some (w32 (satN 16 c.amp + 65536 * satN 16 c.drive))
  else if a = R.HSF_PHASE_ERR then
    some (w32 (unsgn 16 (clampI (-32768) 32767 c.phaseErr) + 65536 * unsgn 16 (clampI (-32768) 32767 c.angleErr)))
  else if a = R.HSF_ANGLE then some (w32 (c.angleAtTime s.now))
  else if a = R.HSF_LOCK_TIME then some (w32 (satN 16 c.lockTime))
  else if a = R.HSF_SWEEP_RESULT then some (w32 (satN 16 c.sweepHz))
  else if a = R.HSS_STATUS then some (w32 (c.hst % 8 + 8 * c.dir.toNat))
  else if a = R.HSS_POS_CMD then some (hssQ 0 (c.motion.setPoint 16 1000 s.now))
  else if a = R.HSS_POS_MEAS then some (w32 (c.posMeas % 65536))
  else if a = R.HSS_VEL then some (if m.2 then 0 else hssQ 1 m.1.2.1)
  else if a = R.HSS_ACC then some (if m.2 then 0 else hssQ 2 m.1.2.2)
  else if a = R.HSS_TARGET then some s.hssTarget
  else if a = R.HSS_ETA then some (w32 (satN 24 ((c.eta + 5) / 10)))
  else if a = R.HSS_FRAME_ETA then some (w32 (satN 24 ((c.planEnd + 5) / 10)))
  else if a = R.HSS_PLAN then some (w32 (c.planDrawn % 2048 + 65536 * (c.planDropped % 2048)))
  else if a = R.HSS_TRACK_ERR then some (w32 (satN 16 c.trackErr))
  else if a = R.HSB_STATUS then
    some (w32 (flags [c.beamOn, c.cut] + 4 * (c.cutCause % 16) + 64 * c.latched.toNat +
      128 * (c.set % 4)))
  else none

/-- The member that CHAIN_MEM_SEL names, with I_END of its slice's last STATUS. -/
def Block.memStat (s : Block) : Word :=
  let v := s.reg R.CHAIN_MEM_SEL
  let q := s.member (slcMember (bits v 0 2) (bits v 2 6) (bits v 8 3))
  w32 (q.st % 8 + 8 * (q.cause % 16) + 128 * satN 10 q.cur + 131072 * (q.flags % 32))

/-- CHAIN_TIME_MARGIN (R377): the smallest margin of a running chain that feeds a lit group, with its chain. -/
def Block.timeMargin (s : Block) : Word :=
  let l := ((List.range 4).filter fun c => ((s.chn c).st == 2 || (s.chn c).st == 3) && s.feedsLit c).map fun c => (s.chainMargin s.act c, c)
  match l with
  | [] => 0
  | x :: l =>
    let b := l.foldl (fun a e => if e.1 < a.1 then e else a) x
    w32 (margin24 b.1 + 16777216 * b.2)

/-- LSG, LS and CHAIN. -/
def Block.viewLaser (s : Block) (a : Nat) : Option Word :=
  let gs (f : Group → Bool) : Nat := bitsMask ((List.range 5).filter fun g => f (s.grp g))
  if a = R.LSG_STATUS then
    some (w32 (gs (·.lit) + 32 * gs (·.starting) + 1024 * gs (·.short) + 32768 * s.ls.piImage +
      65536 * gs fun k => k.moving || !(k.motion.at 32 1000000000 s.now).2))
  else if a = R.LSG_PI_CHECK then some (w32 (4 * s.ls.piValid.toNat + 65536 * (s.ls.piFail % 4096)))
  else if a = R.CHAIN_STATUS then some (w32 (((List.range 4).map fun c => (s.chn c).st % 8 * 8 ^ c).sum))
  else if a = R.CHAIN_MEM_STAT then some s.memStat
  else if a = R.CHAIN_TIME_MARGIN then some s.timeMargin
  else match (List.range 4).find? fun c => a == R.CHAIN_SLICES c with
    | some c => let k := s.chn c; some (w32 (k.slices % 128 + 256 * (k.shifts % 256) + 65536 * satN 16 k.tc))
    | none => none

/-- A string (Table 11.10). -/
def Block.viewString (s : Block) (a : Nat) : Option Word :=
  match (List.range 48).find? fun n => decide (R.LS_STR_STATUS n ≤ a) && decide (a ≤ R.LS_WINNER n) with
  | none => none
  | some n =>
    let q := s.member n
    if a = R.LS_STR_STATUS n then
      some (w32 (q.st % 8 + 8 * (q.cause % 16) + 128 * satN 4 q.contra + 2048 * flags [q.suspect, q.probeDue] +
        65536 * satN 16 ((s.now - q.qualAt) / 1000000)))
    else if a = R.LS_STR_MEAS n then some (w32 (q.cur % 65536 + 65536 * (q.volt % 4096)))
    else if a = R.LS_WINNER n then some (w32 (q.win % 8 + 65536 * (q.ref % 65536)))
    else none

/-! ## Pages 0x19 to 0x1C -/

/-- CPE. -/
def Block.viewCpe (s : Block) (a : Nat) : Option Word :=
  if a = R.CPE_STATUS then
    some (w32 ((s.pw.state.running && !s.cp.halted).toNat + 2 * s.cp.wheelFault.toNat + 4 * (s.cp.lastFault % 64)))
  else if a = R.CPE_TURNS then some (s.reg a + (if s.pw.state.running && decide (s.cp.turnAt ≠ 0) then w32 ((s.now - s.cp.turnAt) / 1024) else 0))
  else if a = R.CPE_HANDOVER_STAT then
    (let r := s.fld R.CPE_LOOP_SEL 0 7
     let (h, n) := if r < 48 then ((s.member r).h, (s.member r).hCount) else if r = 48 then (s.cp.h, s.cp.hCount) else (0, 65535)
     some (w32 (unsgn 16 h + 65536 * satN 16 n)))
  else match (List.range 4).find? fun j => a == R.CPE_OPT_STATUS j with
    | some j =>
      let l := s.loopRec (52 + j)
      let served := s.served j
      let tracking := !served.isEmpty && served.all fun n => (s.member n).win != 0
      some (w32 (unsgn 16 (l.u / 32768) + 65536 * l.holding.toNat + 131072 * tracking.toNat))
    | none => match (List.range 4).find? fun d => a == R.CPE_SUPPLY_STATUS d with
      | some d =>
        let l := s.loopRec (56 + d)
        some (w32 (unsgn 16 (l.u / 32768) + 65536 * ((List.range 48).any fun n => s.supplyDomain n == d && (s.member n).win == 3 &&
            s.litMember n).toNat))
      | none => none

/-- OPT and TRIM. -/
def Block.viewColour (s : Block) (a : Nat) : Option Word :=
  if a = R.OPT_STATUS then
    some (w32 (flags ((List.range 4).map fun g => (s.est g).valid) + 16 * flags [s.co.consensus, s.co.matched, s.co.stepped]))
  else if a = R.OPT_CONS_STATUS then some (w32 (satN 16 s.co.members + 65536 * satN 16 s.co.excluded))
  else if a = R.OPT_CONS_EPOCH then some s.co.epoch
  else if a = R.TRIM_STATUS then
    some (match s.ca with
      | some r =>
        let pi := decide (r.proc = 2)
        let phase := if pi && r.phase == 3 && decide (64 ≤ r.points) then 4 else r.phase
        let done := if pi then r.points * 100 / 128 else s.openFld a 101
        w32 (r.proc % 16 + 16 * (phase % 16) + 256 * done + 65536 * (r.cseq.toNat % 65536))
      | none => 0)
  else none

/-- THERM. -/
def Block.viewTherm (s : Block) (a : Nat) : Option Word :=
  let gs (f : ModelGroup → Nat) (k : Nat) : Nat := (s.th.mg.mapIdx fun g q => f q * k ^ g).sum
  if a = R.THERM_STATUS then some s.thermStatus
  else if a = R.THERM_DIE_TEMP then some (w32 (unsgn 16 s.th.die + 65536 * (s.th.hottest % 16)))
  else if a = R.THERM_TS_VALID then some (w32 (flags (s.th.ts.map fun q => q.valid)))
  else if a = R.THERM_NTC_VALID then some (w32 (flags (s.th.ntc.map fun q => q.valid)))
  else if a = R.THERM_LASER_STATE then some (w32 (gs (fun q => q.lvl.code) 4))
  else if a = R.THERM_LASER_HOLD then some (w32 (gs (fun q => q.lvl.hold.toNat) 2))
  else match (List.range 16).find? fun i => a == R.THERM_TS i with
    | some i => some (match s.th.ts[i]? with | some q => w32 (unsgn 16 q.temp + 65536 * q.valid.toNat) | none => 0)
    | none => match (List.range 8).find? fun j => a == R.THERM_NTC j with
      | some j => some (match s.th.ntc[j]? with
        | some q => w32 (q.code % 4096 + 4096 * q.valid.toNat + 65536 * unsgn 16 q.temp)
        | none => 0)
      | none => none

/-! ## Pages 0x1D to 0x20 -/

/-- DMC, SEED and TRUST. -/
def Block.viewStores (s : Block) (a : Nat) : Option Word :=
  if a = R.DMC_FREQ_STATUS then
    (let left := match s.dc.change with | some c => c.left | none => 0
     some (w32 (s.spNow % 4 + 4 * s.afld R.DMC_FREQ_CFG 0 2 + 16 * (s.dc.cap % 4) + 64 * s.dc.change.isSome.toNat +
       128 * s.pp.dramFallback.toNat + 256 * (left % 4096))))
  else if a = R.DMC_GR_STATUS then
    (let g := regionOf s.act (s.fld R.DMC_GR_SEL 0 3)
     let q := pairOf g.base
     some (w32 (g.en.toNat + 2 * (q % 16) + 256 * ((s.pair q).guest % 1024))))
  else if a = R.DMC_SWEEP_STATUS then
    some (match s.dc.sweep with
      | some w => w32 (1 + 2 * (w.pair % 16) + 32 * (w.sp % 4) + 128 * s.openFld a 2 + 256 * s.openFld (a + 1) 128 + 65536 * (w.cseq.toNat % 65536))
      | none => 0)
  else if a = R.DMC_SCRUB_PROGRESS then some (w32 (s.dc.scrubBlk * 1000 / pairBlocks + 65536 * (s.dc.scrubPair % 16)))
  else if a = R.SEED_STATUS then
    some (w32 (flags [s.se.wr.isSome, s.seedHeld, s.scanDone] + 256 * satN 8 s.se.queue.length +
      65536 * (match s.se.wr with | some w => w.req.ty % 65536 | none => 0)))
  else if a = R.SEED_WR_PROGRESS then some (match s.se.wr with | some w => w32 (w.words - w.done) | none => 0)
  else if a = R.SEED_SCRUB_PROGRESS then some (w32 (s.se.scrub * 1000 / 8388608))
  else if a = R.TRUST_STATUS then
    some (w32 (flags [s.tr.identity, s.ownerPolicy, s.tr.unlocked,
        s.tr.attest.isSome] + 65536 * (s.tr.rsaWait.length % 256) + 16 * bitsMask ((List.range 4).filter s.ownerUsed) +
      256 * bitsMask ((List.range 4).filter s.ownerRevoked)))
  else if a = R.TRUST_JTAG_DATA then some (s.jtagWord (s.fld R.TRUST_JTAG_SEL 0 4))
  else if a = R.TRUST_JTAG_STATUS then
    some (w32 (s.tr.chalValid.toNat + 2 * s.tr.unlocked.toNat + 4 * (s.tr.jtagResult % 4) +
      65536 * (if s.tr.chalValid then (s.tr.chalAt + 60000000000 - s.now) / 1000000000 else 0)))
  else if a = R.TRUST_RSA_WAIT then some (w32 s.rsaLongest)
  else if a = R.TRUST_CERT_LEN then some (w32 (s.tr.cert.length % 8192))
  else none

/-- A channel pair (Table 15.6). -/
def Block.viewPair (s : Block) (a : Nat) : Option Word :=
  match (List.range 12).find? fun q => decide (R.DMCP_STATUS q ≤ a) && decide (a ≤ R.DMCP_TRIM q) with
  | none => none
  | some q =>
    let x := s.pair q
    if a = R.DMCP_STATUS q then
      some (w32 (x.st % 16 + 16 * x.rdfirst.toNat + 32 * (x.sp % 4) + 128 * min 15 ((x.owed.foldl max 0).toNat) + 2048 * x.held.toNat))
    else if a = R.DMCP_LOAD q then
      some (w32 (satN 10 (shareOf s.act s.spNow (s.pairLoad s.act s.dc.warpSpill q)) + 65536 * (x.guest % 1024)))
    else if a = R.DMCP_SLACK q then some (w32 (satN 24 x.slackRep + 16777216 * satN 8 x.rdRep))
    else if a = R.DMCP_TRIM q then
      some (w32 (((List.range 4).map fun j =>
        unsgn 8 (clampI (-128) 127 (x.rd.getD j 0 - factoryDelay q j x.sp 0)) * 256 ^ j).sum))
    else none

/-! ## Pages 0x21 to 0x28 -/

/-- WPX_STATUS.STATE: off, no root known, no address, an address. -/
def Block.wpxState (s : Block) : Nat := if !s.fabOn then 0 else if s.fb.root.isNone then 1 else if s.fb.addr = 0 then 2 else 3

/-- WPX and ROUTE. -/
def Block.viewFabric (s : Block) (a : Nat) : Option Word :=
  if a = R.WPX_STATUS then some (w32 (s.wpxState + 4 * (s.fabOn && s.isRoot).toNat + 8 * s.fb.convStart.isSome.toNat))
  else if a = R.WPX_ADDR then some (w32 (s.fb.addr % 16384))
  else if a = R.WPX_ROOT_UID_LO then some (w32 (s.fb.root.getD 0))
  else if a = R.WPX_ROOT_UID_HI then some (w32 (s.fb.root.getD 0 / 0x100000000))
  else if a = R.WPX_TIME_STATUS then
    some (w32 (s.fb.table.parent.getD 0 % 4 + 4 * s.fb.table.parent.isSome.toNat + 8 * (s.fb.steps % 64) + 65536 * satN 16 s.fb.accErr))
  else if a = R.WPX_NODES then some (w32 (s.fb.lsas.length % 16384 + 65536 * (s.fb.map.length % 16384)))
  else if a = R.WPX_LSA_SEQ then some s.fb.ownSeq
  else if a = R.WPX_MAP_SEQ then some s.fb.mapSeq
  else if a = R.WPX_CONVERGE_TIME then some (w32 (satN 16 s.fb.converge))
  else if a = R.ROUTE_STATUS then some (w32 (s.fb.computing.isSome.toNat + 2 * s.fb.changeAt.isSome.toNat))
  else if a = R.ROUTE_LAST_TIME then some (w32 (satN 16 s.fb.lastMs))
  else if a = R.ROUTE_REACH then some (w32 (s.fb.table.reach % 16384))
  else none

/-- A WPXP page. -/
def Block.viewWpxp (s : Block) (p a : Nat) : Option Word :=
  let q := s.fport p
  let child := s.fb.table.children.contains p
  let parent := s.fb.table.parent == some p
  if a = R.WPXP_STATUS p then some (w32 (q.st % 16 + 16 * flags [q.twoWay, child || parent, parent]))
  else if a = R.WPXP_NBR_UID_LO p then some (w32 q.uid)
  else if a = R.WPXP_NBR_UID_HI p then some (w32 (q.uid / 0x100000000))
  else if a = R.WPXP_NBR_ADDR p then some (w32 (q.addr % 16384 + 65536 * (q.nport % 4)))
  else if a = R.WPXP_DELAY p then some (w32 (unsgn 32 q.delay))
  else if a = R.WPXP_FIXED_DELAY p then some (w32 (Config.openReg a 0))
  else if a = R.WPXP_LSEQ p then some (w32 (q.nextSeq % 65536 + 65536 * (q.expSeq % 65536)))
  else if a = R.WPXP_REPLAY p then some (w32 (q.replayBytes % 524288 + 16777216 * (q.replays % 16)))
  else if a = R.WPXP_MODULE p then
    some (w32 (q.modId % 256 + 256 * (q.modTemp % 256) + 65536 * (!s.pins.modPrsN.getD p true).toNat + 131072 * q.modAlarm.toNat))
  else none

/-- The armed cue that fires next (R576, R577): its instant, where its reference is known now. -/
def Block.cueInstant (s : Block) (c : CueCtx) : Option Nat :=
  let first := if s.cu.firedK = s.cueE || s.tm.cutoffDone then s.cueE + 1 else s.cueE
  let at_ (ft : Nat) : Nat := s.fbAt (max first (s.indexAt ft) - 1) - s.tPre s.act - s.afld R.TIME_COMMIT_GUARD 0 18 - 50000
  if c.fine then (s.fineRef c).map fun r => s.fineTick r
  else match c.base with
    | 0 => some (at_ c.trigger)
    | 1 =>
      let t := w32 c.trigger
      let k := if newer s.tm.fsn t then s.tm.curK - (s.tm.fsn - t).toNat else s.tm.curK + (t - s.tm.fsn).toNat
      some (at_ (s.fbAt k))
    | 2 => if s.tm.tcValid then some (at_ (s.tcFtOf (tcCount (s.fld R.TIME_TC_CFG 0 2) (w32 c.trigger)))) else none
    | _ => some (at_ 0)

/-- CUE_NEXT: the instant and the cue. -/
def Block.cueNext (s : Block) : Option (Nat × Nat) :=
  if !s.cueOn then none
  else
    let l := s.cu.ctx.filterMap fun x => if x.2.st = 1 then (s.cueInstant x.2).map fun t => (t, x.2.prio, x.1) else none
    match l with
    | [] => none
    | x :: l =>
      let b := l.foldl (fun a e => if e.1 < a.1 || (e.1 == a.1 && decide (e.2.1 < a.2.1)) then e else a) x
      some (b.1, b.2.2)

/-- CUE. -/
def Block.viewCue (s : Block) (a : Nat) : Option Word :=
  let armed (f : CueCtx → Bool) : Nat := (s.cu.ctx.filter fun x => x.2.st == 1 && f x.2).length
  if a = R.CUE_STATUS then
    some (w32 (flags [s.cueOn, !s.tm.tcValid && armed (fun c => c.base == 2) != 0, !s.sc.phaseValid && armed (fun c => c.base == 3) != 0]))
  else if a = R.CUE_ARMED then some (w32 (armed fun _ => true))
  else if a = R.CUE_NEXT_LO then some (match s.cueNext with | some e => w32 e.1 | none => 0)
  else if a = R.CUE_NEXT_HI then some (match s.cueNext with | some e => w32 (e.1 / 0x100000000) | none => 0)
  else if a = R.CUE_NEXT_IDX then some (match s.cueNext with | some e => w32 (e.2 + 0x80000000) | none => 0)
  else if a = R.CUE_FB_LOAD then some (w32 (satN 7 s.cu.load + 65536 * satN 7 s.cu.loadMax))
  else if a = R.CUE_FINE_TOKENS then some (w32 (s.tokensAt s.tm.ft))
  else none

/-- HOLD_STATUS.STATE. -/
def Block.holdState (s : Block) : Nat :=
  if s.ho.inForce then (if s.ho.waiting then 4 else 3)
  else if s.watchedNow.isNone then 0 else if s.holdStall < s.ho.stall then 2 else 1

/-- HOLD. -/
def Block.viewHold (s : Block) (a : Nat) : Option Word :=
  if a = R.HOLD_STATUS then
    some (w32 (s.holdState + 8 * (if s.ho.inForce then s.ho.policy else s.holdPolicy) + 32 * s.ho.fallback.toNat + 64 * min 15 s.ho.stall +
      1024 * min 15 s.ho.resume + 16384 * flags [s.recording.isSome, s.playing.isSome]))
  else if a = R.HOLD_RING_STATUS then some (w32 (satN 16 (ringSlots s.act) + 65536 * satN 16 s.ho.slots.length))
  else if a = R.HOLD_REC_INDEX then some (w32 s.ho.w)
  else if a = R.HOLD_PLAY_POS then some (w32 s.ho.pos)
  else if a = R.HOLD_ANCHOR_LO then some (w32 s.ho.anchor)
  else if a = R.HOLD_ANCHOR_HI then some (w32 (s.ho.anchor / 0x100000000))
  else none

/-! ## Pages 0x2A to 0x2C -/

/-- The open records of a class. -/
def Block.openCount (s : Block) (c : Nat) : Nat := (s.fl.recs.filter fun e => e.2.isOpen && e.2.cls == c).length

/-- FAULT and PIN. -/
def Block.viewFault (s : Block) (a : Nat) : Option Word :=
  let n (c : Nat) : Nat := s.openCount c
  if a = R.FAULT_STATUS then
    (let hi := (((List.range 5).filter fun c => decide (n c ≠ 0)).foldl max 0)
     some (w32 (hi + 8 * flags [s.pw.state == .safe, s.fl.deadman, s.fl.svRunning, s.fl.lockErr] + 65536 * satN 16 (n 1 + n 2 + n 3 + n 4))))
  else if a = R.FAULT_INPUTS then
    some (w32 (flags [s.inputForbids 0, s.inputForbids 1, s.inputForbids 2, s.pw.pfAsserted, s.safeOut] + 256 * (s.fl.seen % 8)))
  else if a = R.FAULT_OPEN_COUNT then some (pk (satN 8 (n 1)) (satN 8 (n 2)) (satN 8 (n 3)) (satN 8 (n 4)))
  else if a = R.FAULT_NEXT_FID then some s.fl.nextFid
  else if a = R.FAULT_SV_STATUS then
    some (w32 (flags [s.fl.svRunning, s.fl.svPassed] + 4 * (s.bt.sv.running % 2) + 65536 * satN 16 s.fl.deadmanTrips))
  else if a = R.PIN_GPIO_IN then some s.pins.gpioIn
  else none

/-- CHK (Table 19.5). -/
def Block.viewChk (s : Block) (a : Nat) : Option Word :=
  match (List.range 8).find? fun u => a == R.CHK_STATUS u with
  | some u =>
    let k := s.chkU u
    some (w32 (flags [k.busy, k.isOpen, k.mtch, k.mism, k.fault, k.seqErr, k.ue] + 256 * (k.kind % 16) + 4096 * (k.detail % 256)))
  | none => none

/-- TALLY: the snapshot words that are not latched. -/
def Block.viewTally (s : Block) (a : Nat) : Option Word :=
  match (List.range 64).find? fun n => a == R.TALLY_SNAP_LO n with
  | some n => some (match s.ty.cnt[n]? with | some c => w32 c.snap | none => 0)
  | none => if a = R.TALLY_CTRL then some (w32 s.ty.clearPending.toNat)
    else if a = R.TALLY_STATUS then some (w32 (bits (s.reg a) 0 6 + 64 * s.ty.clearPending.toNat)) else none

/-! ## The whole -/

/-- The page head (Table 3.3). -/
def Block.viewHead (s : Block) (p off : Nat) : Option Word :=
  if off = 0x008 then some (s.pageStatus p)
  else if off = 0x018 then some (if shPages.contains p then s.commitReq fun c => natBit c.pages p else 0)
  else if off = 0x01C then some (if shPages.contains p then s.commitStatus fun c => natBit c.pages p else 0)
  else none

/-- The registers that follow the state, by page. -/
def Block.viewPage (s : Block) (a : Nat) : Option Word :=
  let p := a / 0x1000
  if a % 0x1000 < 0x40 then s.viewHead p (a % 0x1000)
  else match p with
    | 0x00 | 0x01 | 0x02 | 0x04 => s.viewCore a
    | 0x03 => s.viewHost a
    | 0x05 | 0x06 => s.viewDma a
    | 0x07 => s.viewTime a
    | 0x08 | 0x09 => s.viewStore a
    | 0x0A | 0x0B | 0x0C => s.viewPipe a
    | 0x0D => s.viewSeq a
    | 0x0E | 0x0F | 0x10 | 0x11 => s.viewMa (p - 0x0E) a
    | 0x12 | 0x13 | 0x14 => s.viewScan a
    | 0x15 | 0x18 => s.viewLaser a
    | 0x16 | 0x17 => s.viewString a
    | 0x19 => s.viewCpe a
    | 0x1A | 0x1B => s.viewColour a
    | 0x1C => s.viewTherm a
    | 0x1D | 0x1F | 0x20 => s.viewStores a
    | 0x1E => s.viewPair a
    | 0x21 | 0x26 => s.viewFabric a
    | 0x22 | 0x23 | 0x24 | 0x25 => s.viewWpxp (p - 0x22) a
    | 0x27 => s.viewCue a
    | 0x28 => s.viewHold a
    | 0x29 => s.viewChk a
    | 0x2A => s.viewTally a
    | 0x2B | 0x2C => s.viewFault a
    | _ => none

/-- A word of a window that reads live state (Tables 12.3 and 14.6): OUT with ERR, INTEG, t_mg and o_therm. -/
def Block.liveWord (s : Block) (a : Nat) : Option Word :=
  if a = R.CPE_LOOP_DATA then
    (let l := s.loopRec (s.fld R.CPE_LOOP_SEL 0 7)
     let h (x : Int) : Nat := unsgn 16 (clampI (-32768) 32767 (x / 32768))
     match s.fld R.CPE_LOOP_SEL 7 3 with
     | 6 => some (w32 (h l.u + 65536 * h l.err))
     | 7 => some (w32 (unsgn 32 (clampI (-2147483648) 2147483647 (l.i / 65536))))
     | _ => none)
  else if a = R.THERM_MG_DATA then
    (let q := s.th.mg[s.fld R.THERM_MG_SEL 0 4]?
     match s.fld R.THERM_MG_SEL 4 3, q with
     | 6, some q => some (w32 (unsgn 32 q.tmg))
     | 7, some q => some (w32 (q.o % 65536))
     | _, _ => none)
  else none

/-- The data register behind an offset, and whether the active word is meant (R89). -/
def windowReg (a : Nat) : Option (Nat × Bool) :=
  if (selOf a).isSome then some (a, false)
  else if 0x800 ≤ a % 0x1000 ∧ (selOf (a - 0x800)).isSome = true then some (a - 0x800, true) else none

/-- What BAR0 presents at an offset while the page is not frozen (R81, R89). -/
def Block.presentNow (s : Block) (a : Nat) : Word :=
  match windowReg a with
  | some (d, act) =>
    (match s.liveWord d with
     | some w => w
     | none => match s.winKey d with
       | some k => s.reg (if act then actOf k else k)
       | none => 0)
  | none =>
    if 0x2D ≤ a / 0x1000 then 0
    else if 0x800 ≤ a % 0x1000 then (if isSH (a - 0x800) then s.reg a else 0)
    else match rowAt a with
      | none => 0
      | some r => match r.acc with
        | .wo => 0
        | _ => (s.viewPage a).getD (s.reg a)

/-- What BAR0 presents (R91): a frozen page holds its RO and CNT registers. -/
def Block.present (s : Block) (a : Nat) : Word :=
  match aget? s.frozen (a / 0x1000) with
  | some l => (match aget? l a with | some w => w | none => s.presentNow a)
  | none => s.presentNow a

/-- The registers of a page that a freeze holds. -/
def heldRegs (p : Nat) : List Nat :=
  ((headRows ++ pageRows p).filter fun r => r.acc == .ro || r.acc == .cnt).flatMap fun r =>
    (List.range r.count).map fun i => 0x1000 * p + r.off + i * r.stride

/-- What a read of a register leaves: the latches of TIME_FT_LO, TIME_CUTOFF_LO and TALLY_SNAP_LO, and the step of a window (R38, R53,
R616, R667). -/
def Block.readEffect (s : Block) (a : Nat) : Block :=
  if a = R.TIME_FT_LO then s.setRegs [(R.TIME_FT_HI, w32 (s.tm.ft / 0x100000000)), (R.TIME_FT_FRAC, w32 (s.tm.frac / 2 ^ 24))]
  else if a = R.TIME_CUTOFF_LO then s.setReg R.TIME_CUTOFF_HI (w32 (if s.tm.run then s.nextCutoff / 0x100000000 else 0))
  else match (List.range 64).find? fun n => a == R.TALLY_SNAP_LO n with
    | some n => (match s.ty.cnt[n]? with
      | some c => s.setReg (R.TALLY_SNAP_HI n) (w32 (c.snap / 0x100000000 % 65536 + 65536 * c.snapWrap.toNat))
      | none => s)
    | none => match windowReg a with
      | some (d, _) => s.winStep d
      | none => s

end Sys2Proof.Machine
end

