-- ==== Sys2Proof/Machine/HostAccess.lean ====
section
/-!
DEFINITION. The host's accesses to BAR0 and BAR2 (R81 to R86, R88 to R92, R665 to R667), the page controls, and soft resets (R90,
R141 to R143, R612, R619, R671).
-/
namespace Sys2Proof.Machine

/-! ## Page controls (R90, R141 to R143, R665) -/

/-- The pages whose SOFT_RESET is refused while light is on (R90, R2). -/
def Block.resetRefused (s : Block) (p : Nat) : Bool :=
  s.pw.state.lightOn && ([0x07, 0x0D, 0x15, 0x16, 0x17, 0x18, 0x19, 0x1C, 0x2B].contains p ||
    (decide (0x0E ≤ p) && decide (p ≤ 0x11) && maEn s.act (p - 0x0E)))

/-- A write that clears ENABLE is refused there, and for CPE in READY too (R665, R414). -/
def Block.disableRefused (s : Block) (p : Nat) : Bool := s.resetRefused p || (p == 0x19 && s.pw.state == .ready)

/-- What a block does as the EN fields it acts on change (R665): `old` and `oldSp` are the values and the set point before.  PIN_OWN changes
at a commit or a command alone (R100). -/
def Block.blockFollows (s : Block) (p : Nat) (old : Nat → Word) (oldSp : Nat) : Block :=
  match p with
    | 0x09 => s.ingestApplied.lsaFollows
    | 0x0C => (List.range 4).foldl (fun s q => if buckEn old q && !buckEn s.act q then s.modPort q Port.freeSets else s) s
    | 0x0E | 0x0F | 0x10 | 0x11 => s.portEn (p - 0x0E)
    | 0x12 | 0x13 | 0x14 => s.scanApplied old 0
    | 0x15 | 0x16 | 0x17 | 0x18 => s.lightApplied old (2 ^ 0x16)
    | 0x1D => let s := s.guestGrants old; if s.spIn s.act != oldSp then s.changeDue 0 else s
    | 0x1E => (List.range 12).foldl Block.pairService s
    | 0x21 | 0x22 | 0x23 | 0x24 | 0x25 => s.fabricApply.lsaFollows
    | _ => s

/-- A write of PAGE_CTRL.ENABLE (R665). -/
def Block.enableWrite (s : Block) (p : Nat) (en : Bool) : Block :=
  if !en && s.disableRefused p then s.errCause p 3
  else
    let old := s.act
    let oldSp := s.spIn s.act
    (s.setFld (R.PAGE_CTRL p) 0 1 en.toNat).blockFollows p old oldSp

/-- A write of PAGE_CTRL.FREEZE (R91): the presented RO and CNT values are held, or released. -/
def Block.freezeWrite (s : Block) (p : Nat) (on : Bool) : Block :=
  let was := bit (s.reg (R.PAGE_CTRL p)) 2
  let t := s.setFld (R.PAGE_CTRL p) 2 1 on.toNat
  if on && !was then { t with frozen := aput t.frozen p ((heldRegs p).map fun a => (a, t.presentNow a)) }
  else if !on then { t with frozen := adel t.frozen p }
  else t

/-! ## Soft resets -/

/-- The registers a soft reset of a page leaves as they are (Table 4.6, R142). -/
def resetKept : List Nat :=
  [R.DEV_SCRATCH0, R.DEV_SCRATCH1, R.PWR_RESET_CAUSE, R.PWR_RAIL_FAULT, R.PWR_AON_SCRATCH, R.PWR_FIREBREAK, R.RING_CMD_TAIL, R.RING_EVT_HEAD]

/-- Does a soft reset of page `p` clear a key: its RW and SH registers, their active copies, its windows, INT_STATUS and ERR_CAUSE? -/
def resetClears (p a : Nat) : Bool :=
  pageOf a == p && !resetKept.contains a && a != R.PAGE_LOCK p &&
    (decide (0x1000000 ≤ a) || decide (0x800 ≤ a % 0x1000) || a == R.INT_STATUS p || a == R.ERR_CAUSE p ||
      (match rowAt a with | some r => r.acc == .rw || r.acc == .sh | none => false))

/-- A source of ingest stops, and its frame is abandoned. -/
def Block.sourceReset (s : Block) (n : Nat) : Block :=
  let s := match (s.src n).writing with
    | some i => s.modSurf i fun u => { u with st := .closed }
    | none => s
  s.modSrc n fun q => { q with st := 0, writing := none, halves := 0, hfc := [], hfcOvf := false, pics := [] }

/-- The commands of the abandoned Seedbank writes that wait complete as ABORTED. -/
def Block.seedDrop (s : Block) : Block :=
  let l := s.se.queue.filterMap fun q => q.cseq
  let staging := s.se.queue.any fun q => q.why == SeedWhy.stage
  l.foldl (fun s c => s.complete c 5)
    ({ s with se := { s.se with queue := [] }, bt := { s.bt with fwStage := if staging then none else s.bt.fwStage } } : Block)

/-- A STATE_SET in progress is abandoned (R141): units being brought up return to their STANDBY condition. -/
def Block.stateSetDrop (s : Block) : Block :=
  match s.pw.stateSet with
  | some o =>
    let s : Block := { s with pw := { s.pw with stateSet := none } }
    (if s.pw.state = .standby then s.standDown else s).complete o.cseq 5
  | none => s

/-- A FW_STAGE in progress is abandoned (R141): its record is not committed. -/
def Block.stageDrop (s : Block) : Block :=
  match s.bt.fwStage with
  | some cseq =>
    let s := match s.se.wr with | some w => if w.req.why = SeedWhy.stage then s.seedAbandon 2 else s | none => s
    ({ s with se := { s.se with queue := s.se.queue.filter fun q => q.why != SeedWhy.stage },
              bt := { s.bt with fwStage := none } } : Block).complete cseq 5
  | none => s

/-- An FW_ACTIVATE in progress is abandoned (R141): a ROLLBACK whose record has not committed ends ABORTED, a housekeeping image
on trial gives way to the previous one, and so does a supervisor image whose self-test is not over (log entry 242). -/
def Block.activateDrop (s : Block) : Block :=
  let s := match s.se.wr with | some w => if w.req.why = SeedWhy.rollback then s.seedAbandon 2 else s | none => s
  let wait := s.se.queue.filter fun q => q.why == SeedWhy.rollback
  let s : Block := { s with se := { s.se with queue := s.se.queue.filter fun q => q.why != SeedWhy.rollback } }
  let s := (wait.filterMap fun q => q.cseq).foldl (fun s c => s.complete c 5) s
  let s := match s.bt.hkRestart with
    | some h =>
      if s.bt.hk.trial then
        ({ s with bt := { s.bt with hkRestart := some { h with tried := some (slotVersion s.bt.hk.other) } } } : Block).modSlots 1 fun q =>
          { q with trial := false }
      else s
    | none => s
  (({ s with bt := { s.bt with svTrial := false } } : Block).modSlots 2 fun q => { q with trial := false }).bootRegs

/-- The Almanac's operations are abandoned (R141): actions fetched and not yet fired are dropped, and a fired scene still waiting
for its FB_e is not carried out; its cue is MISSED with STATE (log entry 242). -/
def Block.cueDrop (s : Block) : Block :=
  s.cu.scenes.foldl (fun s x => if (s.ctx x.idx).st = 2 then s.cueMiss x.idx 6 s.tm.fsn else s)
    { s with cu := { s.cu with fetched := [], scenes := [] } }

/-- A sweep is abandoned: the pair stays out of service, and its command ends. -/
def Block.sweepDrop (s : Block) : Block :=
  match s.dc.sweep with
  | none => s
  | some w => if s.ca.isSome then (s.sweepOver w).calStop 5 0 else (s.sweepOver w).complete w.cseq 5

/-- The trust engine's operations are abandoned. -/
def Block.trustDrop (s : Block) : Block :=
  let l := (match s.tr.attest with | some a => [a.cseq] | none => []) ++
    (s.tr.rsaWait.filterMap fun q => match q.2 with | .sign a => some a.cseq | _ => none) ++ (match s.tr.own with | some o => [o.cseq] | none => [])
  l.foldl (fun s c => s.complete c 5) ({ s with tr := { s.tr with own := none } } : Block).rsaDrop

/-- The operations a block has in progress are abandoned (R141), before its registers change. -/
def Block.abandonOps (s : Block) (p : Nat) : Block :=
  match p with
  | 0x01 => s.stateSetDrop
  | 0x02 => s.stageDrop.activateDrop
  | 0x04 => s.ringCtrl (s.reg R.RING_CTRL &&& 0xFFFFFFFC)
  | 0x05 => { s with sk := { s.sk with ch := List.replicate 16 SkdChan.reset, run := [none, none, none, none] } }
  | 0x06 => { s with dt := { s.dt with inv := none } }
  | 0x09 =>
    let s := (List.range 8).foldl Block.sourceReset s
    if s.sf.nvme.st = 0 then s else s.nvmeOff
  | 0x0A => { s with pp := { s.pp with planBusy := false, planValid := false, spillPages := [] } }
  | 0x0B =>
    let s : Block := { s with pp := { s.pp with frame := none } }
    (List.range 4).foldl (fun s q => s.modPort q fun t => { t with sets := t.sets.map fun x =>
      if x.st = 1 then { x with st := 0, across := false, writing := none } else x }) s
  | 0x0C => (List.range 4).foldl (fun s q => s.modPort q Port.freeSets) s
  | 0x0D => (List.range 4).foldl (fun s q => if (s.port q).st = 5 then (s.modPort q Port.drop).portGoto q 4 else s) s
  | 0x14 => { s with sc := { s.sc with lbPages := [] } }
  | 0x15 => { s with ls := { s.ls with piValid := false, piPages := [] } }
  | 0x19 => { s with cp := { s.cp with recs := List.replicate 112 LoopRec.reset } }
  | 0x1A => { s with co := { s.co with pend := none, est := s.co.est.map fun e => { e with win := [] } } }
  | 0x1B => s.calStop 5 0
  | 0x1D => s.sweepDrop
  | 0x1F => (s.seedAbandon 2).seedDrop
  | 0x20 => s.trustDrop
  | 0x26 => { s with fb := { s.fb with computing := none, shadow := none } }
  | 0x27 => s.cueDrop
  | 0x28 => s.modHo fun h => { h with player := none, force := false, ringPages := [] }
  | 0x29 => { s with chk := List.replicate 8 ChkUnit.reset }
  | 0x2A => { s with ty := { s.ty with clearPending := false } }
  | _ => s

/-- TIME's own part of its soft reset (R671): FSYNC_IN_MODE is off again, the source is selected anew, and the next FB of the series takes
the reset values as a major commit. -/
def Block.timeReset (s : Block) : Block :=
  let s := ({ s with tm := { s.tm with ftSetHi := 0, resetMajor := s.tm.resetMajor || s.tm.run } } : Block).fsyncDrop
  if s.tm.run then s.goSrc s.wantSrc else s

/-- A soft reset of a page begins (R141): its operations are abandoned and its registers return to their reset values; SOFT_RESET
reads 1 until it completes. -/
def Block.softResetGo (s : Block) (p : Nat) : Block :=
  let s := s.abandonOps p
  let old := s.act
  let oldSp := s.spIn s.act
  let s : Block := { s with regs := s.regs.filter fun e => !resetClears p e.1, frozen := adel s.frozen p }
  let s := (s.setReg (R.PAGE_CTRL p) 3).unpend p
  let s := if p = 0x07 then s.timeReset else s
  let s := if p = 0x1C && (differs old s.act R.THERM_DIE_THR || differs old s.act R.THERM_LASER_THR) then s.thermApplied else s
  s.blockFollows p old oldSp

/-- A write of PAGE_CTRL.SOFT_RESET (R90, R143). -/
def Block.softReset (s : Block) (p : Nat) : Block :=
  if s.resetRefused p then s.errCause p 3
  else
    let s : Block := { s with cm := { s.cm with list := s.cm.list.filter fun c => !(c.stage == .pending && natBit c.pages p) } }
    if s.cm.list.any fun c => natBit c.pages p then
      ({ s with cm := { s.cm with resetWait := if s.cm.resetWait.contains p then s.cm.resetWait else s.cm.resetWait ++ [p] } } : Block).setFld
        (R.PAGE_CTRL p) 1 1 1
    else s.softResetGo p

/-- The soft resets that waited for a latched commit start once none names their page (R143). -/
def Block.softResetWaiting (s : Block) : Block :=
  let go := s.cm.resetWait.filter fun p => !s.cm.list.any fun c => natBit c.pages p
  go.foldl Block.softResetGo { s with cm := { s.cm with resetWait := s.cm.resetWait.filter fun p => !go.contains p } }

/-- A soft reset completes, within 100 us. -/
def Block.softResetEnd (s : Block) (p : Nat) : Block :=
  if bit (s.reg (R.PAGE_CTRL p)) 1 && !s.cm.resetWait.contains p then s.setFld (R.PAGE_CTRL p) 1 1 0 else s

/-! ## The page head (Tables 3.3, 3.4) -/

/-- INT_STATUS bits are cleared (R95): where the condition stays true, its message is sent again. -/
def Block.intClear (s : Block) (p : Nat) (v : Word) : Block :=
  let s := s.setReg (R.INT_STATUS p) (s.reg (R.INT_STATUS p) &&& ~~~v)
  if s.vec p then s.message p else s.unpend p

/-- PAGE_LOCK takes a value, unless STICKY (R92). -/
def Block.lockWrite (s : Block) (p : Nat) (v : Word) : Block :=
  if bit (s.reg (R.PAGE_LOCK p)) 1 then s else s.setReg (R.PAGE_LOCK p) (v &&& 3)

/-- A write of PAGE_CTRL: ENABLE and FREEZE, and then SOFT_RESET; a refused ENABLE leaves the whole write without effect. -/
def Block.pageCtrlWrite (s : Block) (p : Nat) (v : Word) : Block :=
  if bit (s.reg (R.PAGE_LOCK p)) 0 then s.errCause p 2
  else if !bit v 0 && s.disableRefused p then s.errCause p 3
  else
    let s := if bit v 0 != bit (s.reg (R.PAGE_CTRL p)) 0 then s.enableWrite p (bit v 0) else s
    let s := s.freezeWrite p (bit v 2)
    if bit v 1 then s.softReset p else s

/-- A write of COMMIT (Table 2.4). -/
def Block.commitWrite (s : Block) (p : Nat) (v : Word) : Block :=
  if shPages.contains p then
    let s := if bit v 1 then s.withdraw (2 ^ p) false else s
    if bit v 0 then s.commitIn (2 ^ p) false [] else s
  else s

/-- A write to the page head. -/
def Block.headWrite (s : Block) (p off : Nat) (v : Word) : Block :=
  match off with
  | 0x004 => s.pageCtrlWrite p v
  | 0x00C => s.intClear p v
  | 0x010 => if bit (s.reg (R.PAGE_LOCK p)) 0 then s.errCause p 2 else s.withInt p fun s => s.setReg (R.INT_ENABLE p) v
  | 0x014 => s.setInt p v
  | 0x018 => s.commitWrite p v
  | 0x020 => s.setReg (R.ERR_CAUSE p) (s.reg (R.ERR_CAUSE p) &&& ~~~(v &&& 0xFFFF003F))
  | 0x02C => s.lockWrite p v
  | _ => s

/-! ## Strobes (Table 0.5) -/

/-- A write of DEV_COMMIT (Table 3.9). -/
def Block.devCommitWrite (s : Block) (v : Word) : Block :=
  let m := s.groupMask
  let s := if bit v 1 then s.withdraw m true else s
  if bit v 0 then s.commitIn m true [] else s

/-- A write of MA_CTRL (Table 9.12). -/
def Block.maCtrlWrite (s : Block) (p : Nat) (v : Word) : Block :=
  let s := if bit v 0 then s.arrayReset p else s
  let s := if bit v 1 then s.maRetrain p else s
  if bit v 2 then s.maIdentReq p else s

/-- A write of HOLD_CMD (Table 18.13). -/
def Block.holdCmdWrite (s : Block) (v : Word) : Block :=
  let s := if bit v 0 then s.forceRejoin else s
  if bit v 1 then s.clearRing else s

/-- A write to a WO or W1S register: what it starts. -/
def Block.strobe0 (s : Block) (a : Nat) (v : Word) : Block :=
  if a = R.DEV_COMMIT then s.devCommitWrite v
  else if a = R.PWR_RESET_CTRL then s.resetCtrl v
  else if a = R.PWR_HK_RESTART then s.hkStrobe v
  else if a = R.RING_CMD_RESYNC then s.ringResync v
  else if a = R.SKD_OP then s.skdOpWrite v
  else if a = R.DTU_INV_CTRL then s.invGo v
  else if a = R.TIME_FT_SET_LO then s.ftSet v
  else if a = R.TIME_FT_SET_HI then { s with tm := { s.tm with ftSetHi := v.toNat } }
  else if a = R.STORE_SURF_OP then s.surfOpWrite v
  else if a = R.INGEST_HFC_PUSH then s.hfcPush v
  else if a = R.WARP_PLAN then s.planGo v
  else if a = R.SEQ_CHECK then (if bit v 0 then s.seqCheck else s)
  else if a = R.CHAIN_CMD then s.setReg a (s.reg a ||| (v &&& 0xF))
  else if a = R.TRIM_CTRL then s.trimCtrl v
  else if a = R.TRUST_JTAG_CTRL then (if bit v 0 then (s.takeBytes 32).2.newChallenge (s.takeBytes 32).1 else s)
  else if a = R.CUE_OP then s.cueOp v
  else if a = R.HOLD_CMD then s.holdCmdWrite v
  else if a = R.TALLY_CTRL then s.tallyCtrl v
  else match (List.range 4).find? fun p => a == R.MA_CTRL p with
    | some p => s.maCtrlWrite p v
    | none => match (List.range 8).find? fun u => a == R.CHK_FEED u with
      | some u => s.chkFeed u v
      | none => s

/-- A write to a register with W1C bits that the hardware holds (Table 0.5). -/
def Block.clearBits (s : Block) (a : Nat) (m v : Word) : Block :=
  if a = R.DEV_ERR_CAUSE then (if bit v 31 then s.setReg a 0 else s)
  else
    let s := if a = R.INGEST_HFC_QSTAT && bit v 8 then s.modSrc (s.fld R.INGEST_HFC_SRC 0 3) fun q => { q with hfcOvf := false } else s
    s.setReg a (s.reg a &&& ~~~(v &&& m))

/-- A write to an RW register of the check-value units, which their operations own. -/
def Block.chkWrite (s : Block) (a : Nat) (v : Word) : Option Block :=
  match (List.range 8).find? fun u => decide (R.CHK_CFG u ≤ a) && decide (a < R.CHK_CFG u + 0x20) with
  | some u => if a = R.CHK_CFG u then some (s.chkCfg u v) else if a = R.CHK_PSEL u then some (s.chkPsel u v)
      else if a = R.CHK_PHI u then some (s.chkPhi u v) else none
  | none => none

/-- A 32-bit write of BAR0 (R81, R89, Table 0.5). -/
def Block.barWrite (s : Block) (a : Nat) (v : Word) : Block :=
  let p := a / 0x1000
  let off := a % 0x1000
  if 0x2C < p || 0x800 ≤ off then (if (windowReg a).isSome then s.readEffect a else s)
  else if off < 0x40 then s.headWrite p off v
  else match rowAt a with
    | none => s
    | some r =>
      match r.acc with
      | .ro | .cnt | .w1c => s.clearBits a (w32 r.w1c) v
      | .wo | .w1s => s.strobe0 a v
      | .rw | .sh => match s.chkWrite a v with
        | some t => t
        | none => s.put a v

/-- A 32-bit read of BAR0: what it presents, and what it leaves (R38, R53, R616, R667). -/
def Block.barRead (s : Block) (a : Nat) : Word × Block :=
  (s.present a, s.readEffect a)

/-! ## BAR2 (R84 to R86, Table 3.1) -/

/-- A write through the device memory window (R85, R86, R472), a guest of its pair (R476). -/
def Block.windowMem (s : Block) (off : Nat) (bs : List Byte) : Block :=
  let c := s.reg R.DEV_WIN_CTRL
  if !bit c 0 || bit c 2 then s
  else
    let pa := s.fld R.DEV_WIN_BASE_HI 0 16 * 0x100000000 + s.fld R.DEV_WIN_BASE_LO 25 7 * 0x2000000 + off
    let s := if inDram pa && [7, 10, 11].contains (pairOf pa) then s.dramReq pa bs.length true true else s
    (bs.mapIdx fun j b => (pa + j, b, bs.length - j)).foldl (fun s e =>
      if !inDram e.1 then s
      else if [7, 10, 11].contains (pairOf e.1) then ((s.setMemB e.1 e.2.1).freshBlock e.1 e.2.2).piTouch e.1 1
      else s.setFld R.DEV_WIN_CTRL 1 1 1) s

/-- A write to the cue table: whole 32-bit words (R572). -/
def Block.windowCue (s : Block) (off : Nat) (bs : List Byte) : Block :=
  if off % 4 ≠ 0 || bs.length % 4 ≠ 0 then s
  else ((bytesWords (bs.length / 4) bs).mapIdx fun j w => (off + 4 * j, w)).foldl (fun s e => s.ctxWrite (e.1 / 16) (e.1 / 4 % 4) e.2) s

/-- A write to BAR2. -/
def Block.barWrite2 (s : Block) (off : Nat) (bs : List Byte) : Block :=
  let last := off + bs.length
  if last ≤ 0x2000000 then s.windowMem off bs
  else if 0x2000000 ≤ off && last ≤ 0x2400000 then s.windowCue (off - 0x2000000) bs
  else if 0x2400000 ≤ off && last ≤ 0x2800000 then
    ({ s with pp := { s.pp with mesh := s.pp.mesh.write (off - 0x2400000) bs } } : Block).planStale
  else if 0x2800000 ≤ off && last ≤ 0x2800000 + 287496 then { s with pp := { s.pp with lut := s.pp.lut.write (off - 0x2800000) bs } }
  else if 0x2900000 ≤ off && last ≤ 0x2910000 then { s with pp := { s.pp with zone := s.pp.zone.write (off - 0x2900000) bs } }
  else s

/-- A read through the device memory window arrives at its pair as a guest (R86, R476). -/
def Block.windowAsk (s : Block) (off n : Nat) : Block :=
  let pa := s.fld R.DEV_WIN_BASE_HI 0 16 * 0x100000000 + s.fld R.DEV_WIN_BASE_LO 25 7 * 0x2000000 + off
  if decide (off < 0x2000000) && bit (s.reg R.DEV_WIN_CTRL) 0 && inDram pa then s.dramReq pa (min n (0x2000000 - off)) false true else s

/-- The 16 bytes of an entry of the routing table (Table 17.12). -/
def Block.routeBytes (s : Block) (i : Nat) : List Byte :=
  match aget? s.fb.table.entries i with
  | some e => padBytes 16 (leBytes 1 (e.next % 8 + 16 * (e.alt % 8) + 128 * e.assigned.toNat) ++ leBytes 1 (min 255 e.hops) ++
      leBytes 2 (min 65535 e.cost) ++ leBytes 8 e.uid)
  | none => padBytes 16 [0x77]

/-- A byte of BAR2 as a read returns it. -/
def Block.bar2Byte (s : Block) (off : Nat) : Byte :=
  if off < 0x2000000 then
    (let pa := s.fld R.DEV_WIN_BASE_HI 0 16 * 0x100000000 + s.fld R.DEV_WIN_BASE_LO 25 7 * 0x2000000 + off
     if bit (s.reg R.DEV_WIN_CTRL) 0 && inDram pa then s.memB pa else 0)
  else if off < 0x2400000 then (wordBytes (s.ctx ((off - 0x2000000) / 16)).words).getD (off % 16) 0
  else if off < 0x2800000 then s.pp.mesh.readByte (off - 0x2400000)
  else if off < 0x2800000 + 287496 then s.pp.lut.readByte (off - 0x2800000)
  else if off < 0x2900000 then 0
  else if off < 0x2910000 then s.pp.zone.readByte (off - 0x2900000)
  else if off < 0x2950000 then (s.routeBytes ((off - 0x2910000) / 16)).getD (off % 16) 0
  else 0

/-! ## The commands -/

/-- REGISTER_WRITE (Table 0.5, R92, R666): a 32-bit write of BAR0. -/
def execRegisterWrite (a : Nat) (v : Word) (s : State) : Res := s.does fun s => s.onStrobe fun s => if a % 4 = 0 then s.barWrite a v else s

/-- A BAR0 access that is no naturally aligned 32-bit one (R82): a 64-bit one, naturally aligned, is two 32-bit ones, the lower
address first (log entry 185); any other read completes with Unsupported Request, and any other write is discarded. -/
def Block.oddAccess (s : Block) (a size : Nat) (w : Option Bytes) : Block :=
  if size = 4 ∧ a % 4 = 0 then s
  else match w with
    | some d => if size = 8 ∧ a % 8 = 0 then (s.barWrite a (w32 (field d 0 4))).barWrite (a + 4) (w32 (field d 4 4)) else s
    | none =>
      if size = 8 ∧ a % 8 = 0 then
        let (x, s) := s.barRead a
        let (y, s) := s.barRead (a + 4)
        s.emit (.hostData a (leBytes 4 x.toNat ++ leBytes 4 y.toNat))
      else s.emit (.unsupported a)

/-- UNSUPPORTED_ACCESS (R82): an access of `size` bytes at an offset of BAR0, a read, or a write of `w`; in D3hot every read completes with
Unsupported Request (R168). -/
def execUnsupportedAccess (a size : Nat) (w : Option Bytes) (s : State) : Res :=
  s.does fun s =>
    if s.hostOk then s.oddAccess a size w
    else if w.isNone && bit (s.reg R.HOST_STATUS) 2 then s.emit (.unsupported a) else s

/-- WINDOW_WRITE (R84, R85): bytes written to BAR2. -/
def execWindowWrite (off : Nat) (data : Bytes) (s : State) : Res := s.does fun s => s.onStrobe fun s => s.barWrite2 off data

/-- WINDOW_DATA_ACCESS (R667): a window data register, or its active copy, is read, or written where `w` gives a value. -/
def execWindowDataAccess (a : Nat) (w : Option Word) (s : State) : Res :=
  s.does fun s =>
    s.onStrobe fun s =>
    match windowReg a, w with
    | some (_, false), some v => s.put a v
    | some (d, _), _ => s.winStep d
    | none, _ => s

/-- PAGE_ENABLE_WRITE (R665). -/
def execPageEnableWrite (p : Nat) (en : Bool) (s : State) : Res :=
  s.does fun s => if 0x2C < p then s else s.onWrite p fun s => s.enableWrite p en

/-- SOFT_RESET (R90, R141 to R143). -/
def execSoftReset (p : Nat) (s : State) : Res := s.does fun s => if 0x2C < p then s else s.onWrite p fun s => s.softReset p

/-- SOFT_RESET_DONE (R141). -/
def execSoftResetDone (p : Nat) (s : State) : Res := s.does fun s => if 0x2C < p then s else s.softResetEnd p

/-- PAGE_FREEZE (R91). -/
def execPageFreeze (p : Nat) (on : Bool) (s : State) : Res := s.does fun s => if 0x2C < p then s else s.onWrite p fun s => s.freezeWrite p on

/-- PAGE_LOCK_WRITE (R92). -/
def execPageLockWrite (p : Nat) (v : Word) (s : State) : Res := s.does fun s => if 0x2C < p then s else s.onStrobe fun s => s.lockWrite p v

/-- INT_STATUS_CLEAR (R95). -/
def execIntStatusClear (p : Nat) (v : Word) (s : State) : Res := s.does fun s => if 0x2C < p then s else s.onStrobe fun s => s.intClear p v

/-- INT_FORCE (R94). -/
def execIntForce (p : Nat) (v : Word) (s : State) : Res := s.does fun s => if 0x2C < p then s else s.onStrobe fun s => s.setInt p v

end Sys2Proof.Machine
end

