-- ==== Sys2Proof/Machine/Boundary.lean ====
section
/-!
DEFINITION. The frame boundary (R48 to R58, R64, R77, R213, R255, R258, R367, R591, R616, R626, R639, R640, R642, R643, R670) and
SNAPSHOT's capture (R118).
-/
namespace Sys2Proof.Machine

/-! ## Availability (R642, R643) -/

/-- Was a member of a group cut, held or latched off in the frame that ends, or is it still without its takeover? -/
def Block.memberLost (s : Block) (g : Nat) : Bool :=
  (s.grp g).waiting != [] || (s.membersOf g).any fun m =>
    let q := s.member m
    q.heldFrame || (q.st == 4 && !(memCfg s.act m).spare && decide (s.tm.fbNow ≤ q.faultAt)) ||
      (q.acting && decide (m < 48) && ((s.loopRec m).bad || (s.loopRec (64 + m)).bad))

/-- Was a group in show time held at zero, or out of its optical sum, in the frame that ends? -/
def Block.groupLost (s : Block) (g : Nat) : Bool :=
  !(s.grp g).lit || s.pathCut || s.cp.wheelFault || s.memberLost g ||
    (if g = 4 then s.sc.cut || s.sc.blankFrame else decide ((s.port g).held ≠ 0)) || s.isDark g

/-- Every SPARE of a group has been latched off since the group was started (R643). -/
def Block.endOfLife (s : Block) (g : Nat) : Bool :=
  let sp := (s.membersOf g).filter fun m => (memCfg s.act m).spare
  (s.grp g).short && sp.all fun m => (s.member m).st == 4 && decide ((s.grp g).startAt ≤ (s.member m).faultAt)

/-- Is a loss of a group excluded time (R643)? -/
def Block.groupExcluded (s : Block) (g : Nat) : Bool :=
  natBit s.fl.exclUntilLit g || natBit s.fl.exclGroups g || s.endOfLife g ||
    (s.tm.dark.any fun d => d.planned && natBit d.groups g) || (decide (g ≠ 4) && (s.port g).held == 4)

/-- The frame that ends is counted (R642, R643). -/
def Block.availability (s : Block) : Block :=
  let show_ := maskBits 5 s.fl.showGroups
  let per := s.tm.num / max 1 s.tm.den
  let s := if !s.abit R.FAULT_AVAIL_CFG 0 || show_ = [] then s
    else
      let t := s.fl.showRem + per
      let s := ({ s with fl := { s.fl with showRem := t % 10000000 } } : Block).bump R.FAULT_SHOW_TIME (t / 10000000)
      let lost := show_.filter s.groupLost
      let real := lost.filter fun g => !s.groupExcluded g
      if real ≠ [] then
        real.foldl (fun s g => s.postTally 0x208 g) ((s.bump R.FAULT_LOST_TIME (per / 1000)).bump R.FAULT_LOST_FRAMES)
      else if lost ≠ [] || s.fl.showGroups &&& s.fl.exclUntilLit ≠ 0 then
        let t := s.fl.exclRem + per
        ({ s with fl := { s.fl with exclRem := t % 1000000 } } : Block).bump R.FAULT_EXCL_TIME (t / 1000000)
      else s
  let up := bitsMask (show_.filter fun g => (s.grp g).lit && !(s.grp g).starting)
  { s with fl := { s.fl with exclUntilLit := s.fl.exclUntilLit - (s.fl.exclUntilLit &&& up),
                             exclGroups := s.fl.exclGroups - (s.fl.exclGroups &&& s.litNow) } }

/-! ## Conserved quantities (R640) -/

/-- The breaks of the checked quantities: quantity, instance and excess (Table 20.6). -/
def Block.breaks (s : Block) : List (Nat × Nat × Int) :=
  let sets (p : Nat) : Int := ((s.port p).sets.filter fun t => decide (t.st ≤ 3)).length - 3
  let fab := (List.range 4).flatMap fun p =>
    let q := s.fport p
    if q.audited && q.lastDisc.isNone then
      (q.cls.mapIdx fun k a => (1, 4 * p + k, (a.d : Int))).filter fun e => e.2.2 != 0
    else []
  let skd := (List.range 16).filterMap fun c =>
    let k := s.skd c
    let d : Int := (k.submitted - k.completed).toNat % 65536 - ((s.skdTail c + 65536 - k.head % 65536) % 65536 : Nat)
    if d = 0 then none else some (2, c, d)
  let deck := (List.range 4).filterMap fun p => if sets p = 0 then none else some (3, p, sets p)
  let ring := if s.cmdEntries < s.outstanding then [(4, 0, (s.outstanding : Int) - s.cmdEntries)] else []
  let hl := match leadPort s.act with | some p => (if sets p = 0 then [] else [(7, p, sets p)]) | none => []
  fab ++ skd ++ deck ++ ring ++ hl

/-- CONSERVATION_CHECK: a break opens a C1 record; no state is changed otherwise. -/
def Block.conserve (s : Block) : Block :=
  s.breaks.foldl (fun s b =>
    let s := s.setReg R.FAULT_CONSERVE (w32 (b.1 + 256 * b.2.1 + 65536 * satN 16 (s.fld R.FAULT_CONSERVE 16 16 + 1)))
    s.faultEv 0x2B 0x206 1 [w32 (b.1 + 256 * b.2.1), s.tm.fsn, w32 (unsgn 32 b.2.2)] .fb (pageInst 0x2B)) s

/-! ## The wheel (R57) -/

/-- The turns completed since the last FB are counted, and the turn in progress is cut short: each enabled slot that it had not
finished skips a sample.  After a wheel fault the engine restarts here (R413); a cleared wheel fault ends here (R638). -/
def Block.wheelFb (s : Block) : Block :=
  if !s.pw.state.running then { s with cp := { s.cp with turnAt := 0 } }
  else
    let d := s.now - s.cp.turnAt
    let s := if s.cp.turnAt = 0 || s.cp.halted then s
      else
        let cut := if d % 1024 = 0 then 0 else ((List.range 64).filter fun k => s.slotEnabled k && decide (d % 1024 < 16 * (k + 1))).length
        (s.bump R.CPE_TURNS (d / 1024)).bump R.CPE_SKIPS cut
    let ended := s.cp.resume
    { s with cp := { s.cp with turnAt := s.now, wheelFault := s.cp.wheelFault && !ended, halted := false, resume := false } }

/-! ## The series -/

/-- Tally takes its snapshot (R616), the frame that ends is counted, and the FSN steps (R48, R49); an event at the FB belongs to the
new frame. -/
def Block.seriesFb (s : Block) : Block :=
  let fsn := s.fsnNext
  let loaded := s.cm.list.any fun c => c.display && !s.holds c && natBit c.pages 7 && bit (sget regDflt c.vals R.TIME_FB_CTRL) 0
  let at_ := s.nextFb
  let s := (s.tallySnap fsn at_).availability
  let s : Block := { s with tm := { s.tm with fsn := fsn, curK := s.tm.nextK, nextK := s.tm.nextK + 1, lastFb := at_, fbNow := s.now,
                                              cutoffDone := false } }
  let s := s.postTally 0x225 (pageInst 0x07)
  if loaded then s.post 0x07 0x223 [fsn] else s

/-- The light of a group returns through its soft start (R79, R368), unless it is being extinguished. -/
def Block.softReturn (s : Block) (g : Nat) : Block :=
  s.modGrp g fun k =>
    if k.lit && !k.stopping then
      { k with starting := true, softAt := some s.now, softTarget := s.afld (R.LSG_DIM g) 0 16, level := 0,
               motion := { Motion.rest 0 with start := s.now }, moving := false }
    else k

/-- The dark transitions whose first lit frame begins at this FB end; the light of their groups returns through the soft start, but for
those another transition holds (R78, R79): the groups, as a mask.  A port that leaves DARK later (R312) does not delay it (log entry
177). -/
def Block.darkEnd (s : Block) : Block × Nat :=
  let ended := s.tm.dark.filter fun d => decide (d.litK ≤ s.tm.curK)
  ({ s with tm := { s.tm with dark := s.tm.dark.filter fun d => !decide (d.litK ≤ s.tm.curK) } },
   ended.foldl (fun m d => m ||| d.groups) 0)

/-- The light of those groups returns, once the commits of the FB have applied, so that it returns to the levels in force. -/
def Block.softReturns (s : Block) (groups : Nat) : Block :=
  ((maskBits 5 groups).filter fun g => !s.isDark g).foldl Block.softReturn s

/-- The ports' part of the FB; a dark frame is counted once (R77, R307, R312). -/
def Block.portsFb (s : Block) : Block :=
  let k := s.tm.curK
  let s := (List.range 4).foldl (fun s p => s.modPort p Port.tickSets) s
  let (s, dark) := (List.range 4).foldl (fun a p => let r := a.1.portFb p k; (r.1, a.2 || r.2)) (s, s.tm.dark != [])
  if dark then s.postTally 0x224 (pageInst 0x07) else s

/-! ## FROST_HOLD at the FB (R125, R174, R593, R639) -/

/-- Is Panel Replay in force on what the controller shows: on both sinks when they are joined? -/
def Block.replayQuiet (s : Block) : Bool :=
  let q (a : Nat) : Bool := s.hs.prIn.getD a false && !s.hs.prUpdate.getD a false
  if s.joined then q 0 && q 1 else q 0 || q 1

/-- An entry to FROST_HOLD that is due; a holdover policy's waits while the state is not LIT. -/
def Block.frostEnter (s : Block) (r : Nat) : Block :=
  let t := s.enterFrost r (s.usSince s.ho.dueAt)
  if s.pw.state = .lit || r ≠ 0x0C then t.modHo fun h => { h with frostDue := none } else t

/-- The entry that the stall of this PB brings (R639); that of FREEZE waits for the next FB (Table 18.8). -/
def Block.stallFrost (s : Block) : Block := if s.ho.frostDue = some 0x0D then s.frostEnter 0x0D else s

/-- Entries to FROST_HOLD that are due: a holdover policy, and Panel Replay once no group is starting. -/
def Block.frostFb (s : Block) : Block :=
  let s := match s.ho.frostDue with
    | some r => s.frostEnter r
    | none => s
  if s.pw.state = .lit && s.replayQuiet && s.hs.prThaw.isNone && (List.range 5).all fun g => !(s.grp g).starting then
    let m := flags [s.hs.prIn.getD 0 false, s.hs.prIn.getD 1 false]
    (((s.enterFrost 0x0B (s.usSince s.hs.prAt)).setFld R.HOST_PR_STATUS 0 1 1).bumpSat R.HOST_PR_STATUS 16 16).post 0x03 0x024 [w32 m]
  else s

/-- Thaws that are due: the first update under Panel Replay has sealed, or a set has sealed after a stall. -/
def Block.thawFb (s : Block) : Block :=
  let replay := s.hs.prThaw.isSome && s.pw.state == .frostHold && s.pw.reason == 0x0B
  let stall := s.ho.thawDue && s.pw.reason == 0x0D
  let s := if replay then (s.setFld R.HOST_PR_STATUS 0 1 0).post 0x03 0x025 [w32 (s.hs.prThaw.getD 0)] else s
  let s := if replay || stall then s.thaw (s.usSince (if replay then s.hs.prAt else s.ho.dueAt)) else s
  ({ s with hs := { s.hs with prThaw := none } } : Block).modHo fun h => { h with thawDue := false }

/-! ## The pipeline at the PB (R213, R255, R258, R274, R639) -/

/-- The pipeline's part of the boundary. -/
def Block.pipePb (s : Block) : Block :=
  let s := s.holdPb
  let skipped := s.pbSkipped
  let c := s.pbChoice
  let s := s.clockPb (s.mayBegin && (c.1.isSome || s.sf.inUse.isSome))
  let (s, began) := if skipped || !(s.pipeRuns && s.pipeOn) then (s, false)
    else if !s.writingPorts.isEmpty then (s.overrun, false)
    else (s.takeSurface c.1 c.2.1 c.2.2.1 c.2.2.2).pipeBegin
  s.stallPb began

/-! ## Light at the FB (R121, R134, R367 to R369, R587) -/

/-- The groups whose ramp to zero has ended are extinguished (R369). -/
def Block.extinguishFb (s : Block) : Block :=
  let gs := (List.range 5).filter fun g => (s.grp g).lit && (s.grp g).stopping && (s.grp g).level == 0
  if gs = [] then s
  else
    let reason := match s.pw.stateSet with | some o => (if o.target = 4 then 2 else 3) | none => 3
    (s.dropGroups gs).unlit reason (s.usSince (gs.foldl (fun t g => max t (s.grp g).stopAt) 0))

/-- LG_HL has no kerfs: a change of its strings' modes and the return of a string after an over-current trip are made at the FB. -/
def Block.hlStringsFb (s : Block) : Block :=
  let s := s.modMembers (s.membersOf 4) Member.relit
  (s.litStrings 4).foldl Block.modeKerf s

/-- Levels, groups that stop, groups that start, and what follows them. -/
def Block.lightFb (s : Block) : Block :=
  let s := ((List.range 5).foldl Block.levelFb s).hlStringsFb
  let s := ((s.extinguishFb.stateSetStart.stateSetEnd).relight).scenesFb
  s.litSync.refreshMembers.setBucks

/-- The scanner and the chains at the FB (R341, R351, R375). -/
def Block.scanFb (s : Block) : Block :=
  let shown := match leadPort s.act with | some p => ((s.port p).setIn 3).isSome | none => false
  let s := (s.rowsFb shown).beamResume
  (List.range 4).foldl Block.chainFrame s

/-- The pulses of an FB (Tables 2.10, 3.13). -/
def Block.pulsesFb (s : Block) : Block :=
  let s := s.gpioPulse 1 (some 1)
  if s.fld R.TIME_CTRL 4 2 = 2 then s.emit s.fsyncPulse else s

/-! ## The boundary -/

/-- FRAME_BOUNDARY: the cues and the cutoff that are still due come first, then FB_k. -/
def Block.frameBoundary (s : Block) : Block :=
  if !s.tm.run then s
  else
    let s := (s.cueFiring []).cutoff
    let s := s.advanceTo s.nextFb
    let s := s.seriesFb.wheelFb
    let s := s.closeWhere 1 fun r => r.way == .fb
    let s := (List.range 4).foldl Block.estFrame s
    let (s, back) := s.darkEnd
    let s := (s.commitFb.softReturns back).softResetWaiting
    let s := s.portsFb
    let s := s.frostFb.thawFb
    let s := s.pointsFb.pdFb.targetApply
    let s := (s.dramFallbackEntry.pipePb).stallFrost
    let s := s.lightFb.scanFb
    let s := s.dramFrame.reloadRecs
    let s : Block := { s with rg := { s.rg with snapDue := s.rg.snapDue ++ s.rg.snapWait, snapWait := [] } }
    s.pulsesFb.conserve

def execFrameBoundary (s : State) : Res := s.does fun s => s.frameBoundary

/-! ## SNAPSHOT_CAPTURE (R118, Tables 3.20, 3.21) -/

/-- A section: its header and body. -/
def snapSection (ty inst : Nat) (body : List Byte) : List Byte :=
  leBytes 2 ty ++ leBytes 2 inst ++ leBytes 4 body.length ++ leBytes 4 0 ++ leBytes 4 (crc32c body) ++ body

/-- A PAGE body: what the page presents, without the effects of a read; of a page whose FREEZE is 1, the values it holds (log
entry 178). -/
def Block.snapPage (s : Block) (p : Nat) : List Byte := wordBytes ((List.range 1024).map fun i => s.present (0x1000 * p + 4 * i))

/-- The LOG_DECK body.  A FREE set has no frame, and its FSN reads 0 (log entry 179). -/
def Block.snapDeck (s : Block) : List Byte :=
  (List.range 4).flatMap fun p => (List.range 3).flatMap fun i =>
    let t := (s.port p).sets.getD i PlaneSet.reset
    let c := if t.st = 0 then none else if t.st = 1 then t.writing else t.content
    let size := match s.geom s.act p with | some (w, h) => setBytes w h | none => 0
    let fsn := match c with | some c => c.fsn.toNat | none => 0
    let base := match c with | some c => c.base | none => deckBase s.act p + i * size
    leBytes 1 t.st ++ leBytes 1 p ++ leBytes 1 i ++ leBytes 1 0 ++ leBytes 4 fsn ++ leBytes 8 base

/-- A COMMITS entry. -/
def Commit.entry (c : Commit) : List Byte :=
  let pend := c.stage == .pending
  leBytes 8 c.pages ++ leBytes 4 c.target.toNat ++ leBytes 1 (flags [pend, c.late, !pend, c.waitSeal, c.merged]) ++ leBytes 3 0

/-- A COMMANDS entry. -/
def Cmd.entry (c : Cmd) : List Byte := leBytes 4 c.cseq.toNat ++ leBytes 2 c.opcode ++ leBytes 2 c.stage ++ leBytes 4 c.tag.toNat ++ leBytes 4 0

/-- The OPEN records in FID order. -/
def Block.openInOrder (s : Block) : List FaultRec :=
  ((s.fl.recs.map (·.2)).filter (·.isOpen)).foldl (fun l r =>
    (l.filter fun x => newer r.fid x.fid) ++ [r] ++ l.filter fun x => !newer r.fid x.fid) []

/-- The sections of a dump. -/
def Block.snapSections (s : Block) : List (List Byte) :=
  ((List.range 45).map fun p => snapSection 1 p (s.snapPage p)) ++
  [snapSection 2 0 ((List.range 16).flatMap s.skdContext),
   snapSection 3 0 s.snapDeck,
   snapSection 4 0 ((s.cm.list.take 64).flatMap Commit.entry),
   snapSection 5 0 ((s.rg.inflight.take 64).flatMap Cmd.entry),
   snapSection 6 0 (s.openInOrder.flatMap FaultRec.bytes),
   snapSection 7 0 (s.ty.cnt.flatMap fun c => leBytes 8 c.snap)]

/-- A dump for a SNAPSHOT. -/
def Block.snapDump (s : Block) (cseq : Word) : List Byte :=
  let body := s.snapSections.flatten
  let head := leBytes 4 0x50414E53 ++ leBytes 2 1 ++ leBytes 2 s.snapSections.length ++ leBytes 4 (64 + body.length) ++ leBytes 4 s.tm.fsn.toNat ++
    leBytes 8 s.tm.lastFb ++ leBytes 4 (s.reg R.RING_CMD_SEQ_EXPECT).toNat ++ leBytes 4 s.seqDone.toNat ++
    leBytes 4 (s.reg R.RING_EVT_SEQ_NEXT).toNat ++ leBytes 4 cseq.toNat ++ leBytes 4 s.pw.state.code
  let h := padBytes 60 head
  h ++ leBytes 4 (crc32c h) ++ body

/-- One SNAPSHOT's dump `d` is written; `xok` says that a transfer to a host buffer completes. -/
def Block.snapWrite (s : Block) (cseq : Word) (d : List Byte) (xok : Bool) : Block :=
  match s.cmd cseq with
  | none => s
  | some c =>
    let dev := natBit (c.par 24 1) 0
    let s := s.setStage cseq 3
    if !dev && !(xok && s.tunnelUp) then s.complete cseq 7
    else
      let (s, ok) := s.writeBuf dev (c.par 16 8) d
      if ok then s.complete cseq 0 (some (w32 d.length)) else s.complete cseq 7

/-- SNAPSHOT_CAPTURE: the SNAPSHOTs that waited for the FB that has just fallen.  Every dump is captured before the first is written. -/
def execSnapshotCapture (xok : Bool) (s : State) : Res :=
  s.does fun s =>
    let dumps := s.rg.snapDue.map fun c => (c, s.snapDump c)
    dumps.foldl (fun s d => s.snapWrite d.1 d.2 xok) { s with rg := { s.rg with snapDue := [] } }

end Sys2Proof.Machine
end

