-- ==== Sys2Proof/Machine/HostLink.lean ====
section
/-!
DEFINITION. The USB4 link, the PCIe function, Panel Replay and the USB 2.0 function (R164 to R168, R174 to R177), and the clocks of the
always-on domain (R661, R662).
-/
namespace Sys2Proof.Machine

/-! ## The link (R165, R166) -/

/-- With the tunnel down, every host request of a running channel fails with HOST_ABORT, LINK_DOWN (R166): the channel faults
where it stands. -/
def Block.linkDown (s : Block) : Block :=
  (List.range 4).foldl (fun s m =>
    match s.running m with
    | none => s
    | some c => (s.hostFault m (s.skd c).offset 4 7 false []).hostFault m (s.skd c).offset 4 7 true []) s

/-- The channels that run on host memory move on to where the loss of the tunnel finds them (log entry 203). -/
def Block.linkLoss (s : Block) : Block :=
  (List.range 4).foldl (fun s m =>
    match s.running m with
    | none => s
    | some c => if ((s.skd c).desc.map SkdDesc.hostSide).getD false then s.skdProgress c else s) s

/-- A DP path comes up trained and idle with what HOST_DP_CFG advertises, or goes down: the stream's frame is abandoned, and Panel Replay
ends (R169, R198). -/
def Block.dpPath (s : Block) (a : Nat) (up : Bool) : Block :=
  let was := s.fld (R.HOST_DP_STATUS a) 0 3
  if up == decide (was ≠ 0) then s
  else if up then
    let s : Block := { s with hs := { s.hs with dpCfg := setAt s.hs.dpCfg a (s.reg (R.HOST_DP_CFG a)) } }
    (s.setFld (R.HOST_DP_STATUS a) 0 3 2).postStream a
  else
    let s := s.dpAbandon a
    let s := (s.setFld (R.HOST_DP_STATUS a) 0 3 0).setFld (R.HOST_DP_STATUS a) 10 1 0
    ({ s with hs := { s.hs with prIn := setAt s.hs.prIn a false, prUpdate := setAt s.hs.prUpdate a false } } : Block).postStream a

/-- The link state of HOST_LINK_STATUS (Table 5.1): CL0s and CL1 only while HOST_LINK_CFG enables them. -/
def Block.clState (s : Block) (code : Nat) : Nat :=
  if (code = 1 ∧ bit (s.reg R.HOST_LINK_CFG) 0) ∨ (code = 2 ∧ bit (s.reg R.HOST_LINK_CFG) 1) then code else 0

/-- A link the router has (Table 5.1): Gen 2, or Gen 3 of two lanes. -/
def linkLive (l : LinkState) : Bool := l.gen == 1 || (l.gen == 2 && l.x2)

/-- USB4_LINK_CHANGE: what HOST_CTRL lets the controller offer comes up as the link says. -/
def Block.linkChange (s : Block) (l : LinkState) : Block :=
  let c := s.reg R.HOST_CTRL
  let live := linkLive l
  let pcie := live && l.pcie && bit c 0 && !bit c 3
  let dp0 := live && l.dp0 && bit c 1
  let dp1 := live && l.dp1 && bit c 2
  let st := w32 (if live then l.gen + 4 * l.x2.toNat + 16 * s.clState l.state + 256 * flags [pcie, dp0, dp1, l.bwMode] else 0)
  let was := s.tunnelUp
  let s := if was && !pcie then s.linkLoss else s
  let (e, s) := s.takeBelow 0xFFFF
  let s := (s.bump R.HOST_LINK_ERR e).setRegs
    [(R.HOST_LINK_STATUS, st), (R.HOST_BW_ALLOC, w32 (if live then l.bw else 0))]
  let s := s.setFld R.HOST_STATUS 0 1 (live && l.enumerated).toNat
  let s := if was && !pcie then s.linkDown else s
  ((s.dpPath 0 dp0).dpPath 1 dp1).post 0x03 0x020 [st]

def execUsb4LinkChange (l : LinkState) (s : State) : Res := s.does fun s => s.linkChange l

/-- UNSUPPORTED_OFFER (R165, Table 5.2); `a` is the sink whose stream the offer of code 6 is. -/
def execUnsupportedOffer (code a : Nat) (s : State) : Res :=
  s.does fun s =>
    if code = 0 ∨ 9 < code then s
    else if code = 6 then s.dscRefuse (a % 2)
    else (if code = 4 then s.setFld R.HOST_STATUS 1 1 1 else s).unsupported code

/-! ## The PCIe function (R168) -/

/-- Sizes and kinds of the BARs (Table 5.3): the number, log2 of the bytes, prefetchable; each is a 64-bit pair. -/
def pcieBars : List (Nat × Nat × Bool) := [(0, 18, false), (2, 26, true), (4, 13, false)]

/-- The two words of a BAR: its base as the host has written it, of the bits above its size, and its kind. -/
def Block.barWord (s : Block) (b : Nat × Nat × Bool) (hi : Bool) : Word :=
  let base := s.hs.pcie.bars.getD (b.1 / 2) 0 / 2 ^ b.2.1 * 2 ^ b.2.1
  if hi then w32 (base / 0x100000000) else w32 (base % 0x100000000 + 4 + 8 * b.2.2.toNat)

/-- Words of the configuration space (Table 5.3) in the layout of the PCI Express family (log entry 201): IDs, bus mastering,
class code, BARs, and the capabilities of power management (D0 and D3hot), MSI-X (64 vectors) and PCI Express (payload up to 256
bytes, FLR).  Falhane's PCI-SIG vendor ID has no number in the spec: a free value. -/
def Block.configWord (s : Block) (off : Nat) : Word :=
  let c := s.hs.pcie
  match off with
  | 0x00 => w32 (0x86400000 + Config.vendorId % 65536)
  | 0x04 => w32 (0x100000 + 4 * c.master.toNat)
  | 0x08 => w32 (0x048000 * 256)
  | 0x34 => 0x40
  | 0x40 => 0x00035001
  | 0x44 => w32 (3 * s.fld R.HOST_STATUS 2 1)
  | 0x50 => w32 (0x3F6011 + 0x40000000 * c.funcMask.toNat + 0x80000000 * c.msix.toNat)
  | 0x54 => 0x00000004
  | 0x58 => 0x00001004
  | 0x60 => 0x00020010
  | 0x64 => 0x10000021
  | 0x68 => w32 (32 * (c.payload % 8) + 4096 * (c.readReq % 8))
  | _ =>
    match pcieBars.find? fun b => off == 0x10 + 4 * b.1 || off == 0x14 + 4 * b.1 with
    | some b => s.barWord b (off == 0x14 + 4 * b.1)
    | none => 0

/-- Words of BAR4 (Table 5.3): a vector's entry of the MSI-X table (message address, message data, mask), and the pending-bit array. -/
def Block.bar4Word (s : Block) (off : Nat) : Word :=
  if off < 0x400 then
    (let m := (aget? s.hs.pcie.msgs (off / 16)).getD (0, 0)
     match off % 16 with
     | 0 => w32 m.1
     | 4 => w32 (m.1 / 0x100000000)
     | 8 => m.2
     | 12 => w32 (natBit s.hs.pcie.vecMask (off / 16)).toNat
     | _ => 0)
  else if off = 0x1000 ∨ off = 0x1004 then w32 (bitsMask s.hs.pba / 2 ^ (8 * (off - 0x1000)))
  else 0

/-- The configuration the host has written is in force; a pending vector that is masked no longer sends its message (R95). -/
def Block.configure (s : Block) (c : PcieCfg) : Block :=
  let s : Block := { s with hs := { s.hs with pcie := c } }
  let go := s.hs.pba.filter s.vecOpen
  go.foldl (fun s v => s.emit (.msix v)) { s with hs := { s.hs with pba := s.hs.pba.filter fun v => !go.contains v } }

/-- Does a channel's ring, its current descriptor, or one that is submitted and not yet fetched, address host memory (R168)? -/
def Block.skdHostSide (s : Block) (c : Nat) : Bool :=
  !s.skdRingDev c || ((s.skd c).desc.map SkdDesc.hostSide).getD false ||
    (List.range (s.skdLeft c)).any fun k => ((s.ringBytes c k).map fun b => (parseDesc b).hostSide).getD false

/-- FUNCTION_LEVEL_RESET: host-side channels abort, the rings are disabled, the configuration space and the MSI-X state are as
after a reset, and the function is in D0. -/
def Block.flr (s : Block) : Block :=
  let s := (List.range 16).foldl (fun s c => if s.skdEn c && s.skdHostSide c then s.skdAbort c [] else s) s
  let s : Block := { s with hs := { s.hs with pcie := PcieCfg.reset, pba := [] } }
  (s.ringCtrl (s.reg R.RING_CTRL &&& 0xFFFFFFFC)).setFld R.HOST_STATUS 2 1 0

def execFunctionLevelReset (s : State) : Res := s.does fun s => s.flr

/-- PCIE_POWER_STATE_CHANGE: the host writes the function's configuration: D3hot or D0, and the rest (log entry 201). -/
def execPciePowerStateChange (d3 : Bool) (cfg : PcieCfg) (s : State) : Res :=
  s.does fun s => (s.configure cfg).setFld R.HOST_STATUS 2 1 d3.toNat

/-! ## Panel Replay (R174) -/

/-- PANEL_REPLAY_ENTRY: the source of sink `a`, to which the sink advertises Panel Replay, signals that no update follows. -/
def execPanelReplayEntry (a : Nat) (s : State) : Res :=
  s.does fun s =>
    if 2 ≤ a ∨ s.fld (R.HOST_DP_STATUS a) 0 3 ≠ 3 ∨ bit (s.dpCaps a) 9 = false then s
    else
      let s : Block := { s with hs := { s.hs with prAt := s.now, prIn := setAt s.hs.prIn a true, prUpdate := setAt s.hs.prUpdate a false } }
      s.setFld (R.HOST_DP_STATUS a) 10 1 1

/-- PANEL_REPLAY_UPDATE: the first frame update; the controller thaws at the FB after its seal. -/
def execPanelReplayUpdate (a : Nat) (s : State) : Res :=
  s.does fun s =>
    if 2 ≤ a ∨ s.hs.prIn.getD a false = false then s
    else
      let s : Block := { s with hs := { s.hs with prIn := setAt s.hs.prIn a false, prUpdate := setAt s.hs.prUpdate a true } }
      s.setFld (R.HOST_DP_STATUS a) 10 1 0

/-! ## The USB 2.0 function (R175 to R177) -/

/-- The header of a request, with its STATUS (Table 5.5). -/
def usbHeader (r : UsbRequest) (status : Nat) : List Byte :=
  leBytes 1 r.op ++ leBytes 1 status ++ leBytes 2 r.tag ++ leBytes 4 r.offset ++ leBytes 4 r.len ++ leBytes 4 0

/-- The words of a request, with their offsets. -/
def usbWords (r : UsbRequest) : List (Nat × Word) := (bytesWords (r.len / 4) r.data).mapIdx fun j w => (r.offset + 4 * j, w)

/-- Would a lock refuse a write (R92)? -/
def Block.writeLocked (s : Block) (a : Nat) : Bool :=
  bit (s.reg (R.PAGE_LOCK (a / 0x1000))) 0 && decide (a % 0x1000 < 0x800) && a != R.PAGE_LOCK (a / 0x1000) &&
    (match rowAt a with | some r => r.acc == .rw || r.acc == .sh | none => false)

/-- A BAR0 read of a request. -/
def Block.usbRead (s : Block) (off : Nat) : Nat → List Byte × Block
  | 0 => ([], s)
  | n + 1 =>
    let (w, s) := s.barRead off
    let (l, s) := s.usbRead (off + 4) n
    (leBytes 4 w.toNat ++ l, s)

/-- A BAR0 write of a request: the state after it, and whether a lock refused a word. -/
def Block.usbWrite (s : Block) : List (Nat × Word) → Block × Bool
  | [] => (s, false)
  | (a, v) :: l =>
    let no := s.writeLocked a
    let r := (s.barWrite a v).usbWrite l
    (r.1, no || r.2)

/-- Does a window write reach a pair that refuses it (R85)? -/
def Block.windowRefused (s : Block) (off n : Nat) : Bool :=
  let c := s.reg R.DEV_WIN_CTRL
  let pa := s.fld R.DEV_WIN_BASE_HI 0 16 * 0x100000000 + s.fld R.DEV_WIN_BASE_LO 25 7 * 0x2000000 + off
  decide (off < 0x2000000) && bit c 0 && (bit c 2 || (List.range n).any fun i => inDram (pa + i) && !([7, 10, 11].contains (pairOf (pa + i))))

/-- The answer to a request, and the state after it: STATUS 0 OK, 1 bad OP, 2 bad offset or length, 3 refused. -/
def Block.usbServe (s : Block) (r : UsbRequest) : Nat × List Byte × Block :=
  let rom := s.pw.state == .boot
  let size := if r.op = 1 ∨ r.op = 2 then 0x40000 else if r.op = 5 then 0x100000000 else 0x4000000
  let write := r.op = 2 ∨ r.op = 4 ∨ r.op = 5
  if r.op = 0 || decide (5 < r.op) || (rom != (r.op == 5)) then (1, [], s)
  else if r.offset % 4 ≠ 0 ∨ r.len % 4 ≠ 0 ∨ r.len < 4 ∨ 65536 < r.len ∨ size < r.offset + r.len ∨ (write ∧ r.data.length ≠ r.len) then (2, [], s)
  else match r.op with
    | 1 => let x := s.usbRead r.offset (r.len / 4); (0, x.1, x.2)
    | 2 => let x := s.usbWrite (usbWords r); (if x.2 then 3 else 0, [], x.1)
    | 3 => (0, (List.range r.len).map fun i => s.bar2Byte (r.offset + i), s.windowAsk r.offset r.len)
    | 4 => (if s.windowRefused r.offset r.len then 3 else 0, [],
        ((usbWords r).foldl (fun s e => s.barWrite2 e.1 (leBytes 4 e.2.toNat)) s))
    | _ => (0, [], s.imagePut r.offset r.data)

/-- USB2_REQUEST (R176): served while the register pages are, D3hot or not, or by the ROM in USB 2.0 recovery (R145), whose image chunks go
into on-die SRAM. -/
def Block.usb2 (s : Block) (r : UsbRequest) : Block :=
  let d3 := s.fld R.HOST_STATUS 2 1
  let t := s.setFld R.HOST_STATUS 2 1 0
  if !t.hostOk && (s.pw.state != .boot || s.pw.heldReset || s.bootSource != 1) then s
  else
    let x := t.usbServe r
    let u := if x.2.2.pw.state = .boot then x.2.2 else x.2.2.setFld R.HOST_STATUS 2 1 d3
    let u := u.emit (.usb (usbHeader r x.1 ++ x.2.1))
    if x.1 = 0 then u else u.bump R.HOST_USB2_ERR

def execUsb2Request (r : UsbRequest) (s : State) : Res := s.does fun s => s.usb2 r

/-- USB2_SUMMARY_DELIVERY (R177): DEV_INT_SUMMARY0 and 1, where either has changed since the last delivery, in another microframe
of 125 us. -/
def execUsb2SummaryDelivery (s : State) : Res :=
  s.does fun s =>
    let a := s.summary false
    let b := s.summary true
    if (a = s.hs.sum0 ∧ b = s.hs.sum1) ∨ s.hs.usbAt = some (s.now / 125000) then s
    else ({ s with hs := { s.hs with sum0 := a, sum1 := b, usbAt := some (s.now / 125000) } } : Block).emit
      (.usb (leBytes 4 a.toNat ++ leBytes 4 b.toNat))

/-! ## The clocks (R661, R662) -/

/-- REFCLK_FAILURE (R661): as the supply monitor acts; no rail is recorded. -/
def execRefclkFailure (s : State) : Res :=
  s.does fun s =>
    let t := if s.holdable then s.resetHold (some 2) else s
    { t with pins := { t.pins with refclkOk := false } }

/-- REFCLK_RECOVERED (R661): REFCLK has been good for 100 us. -/
def execRefclkRecovered (src : Nat) (s : State) : Res :=
  s.does fun s => ({ s with pins := { s.pins with refclkOk := true } } : Block).resetRelease src

/-- XTAL25_FAULT (R662): everything else is held in reset; SAFE_OUT is high and the Firebreak latch keeps its state. -/
def execXtal25Fault (s : State) : Res :=
  s.does fun s =>
    let t := if s.holdable then s.resetHold none else s
    { t with pins := { t.pins with xtalOk := false } }

/-- XTAL25_RECOVERED (R662): the hold ends. -/
def execXtal25Recovered (src : Nat) (s : State) : Res :=
  s.does fun s => ({ s with pins := { s.pins with xtalOk := true } } : Block).resetRelease src

end Sys2Proof.Machine
end

