-- ==== Sys2Proof/Machine/Dispatch.lean ====
section
/-!
DEFINITION. One arm per command: each calls the command's meaning.
-/
namespace Sys2Proof.Machine

def exec (i : Instr) (s : State) : Host.Outcome State Fault Refusal :=
  match i with
  | .frameBoundary => Sys2Proof.Machine.execFrameBoundary s
  | .commitCutoff => Sys2Proof.Machine.execCommitCutoff s
  | .preloadStart => Sys2Proof.Machine.execPreloadStart s
  | .darkIntervalStart => Sys2Proof.Machine.execDarkIntervalStart s
  | .slotStart g ev => Sys2Proof.Machine.execSlotStart g ev s
  | .kerfEnd g rdyLow seenHigh => Sys2Proof.Machine.execKerfEnd g rdyLow seenHigh s
  | .lastDwellEnd g ev => Sys2Proof.Machine.execLastDwellEnd g ev s
  | .planeLoadStart p => Sys2Proof.Machine.execPlaneLoadStart p s
  | .planeLoadEnd p => Sys2Proof.Machine.execPlaneLoadEnd p s
  | .fifoUnderrun p => Sys2Proof.Machine.execFifoUnderrun p s
  | .measureWindowClose g idx flat filt satA satB => Sys2Proof.Machine.execMeasureWindowClose g idx flat filt satA satB s
  | .offsetWindowClose j r code sat => Sys2Proof.Machine.execOffsetWindowClose j r code sat s
  | .loopSample slot y v => Sys2Proof.Machine.execLoopSample slot y v s
  | .stateScrub errs => Sys2Proof.Machine.execStateScrub errs s
  | .wheelFault kind last => Sys2Proof.Machine.execWheelFault kind last s
  | .thermCeilingLost g => Sys2Proof.Machine.execThermCeilingLost g s
  | .overCurrentTrip n => Sys2Proof.Machine.execOverCurrentTrip n s
  | .faultInput n => Sys2Proof.Machine.execFaultInput n s
  | .spareTakeover g => Sys2Proof.Machine.execSpareTakeover g s
  | .coldSpareHot m => Sys2Proof.Machine.execColdSpareHot m s
  | .probeDue m => Sys2Proof.Machine.execProbeDue m s
  | .probeRun g res => Sys2Proof.Machine.execProbeRun g res s
  | .probeStarved m => Sys2Proof.Machine.execProbeStarved m s
  | .chainTableLoad c => Sys2Proof.Machine.execChainTableLoad c s
  | .chainShiftDone c ret => Sys2Proof.Machine.execChainShiftDone c ret s
  | .chainEnum c n ids => Sys2Proof.Machine.execChainEnum c n ids s
  | .chainEnumRetry c n ids => Sys2Proof.Machine.execChainEnumRetry c n ids s
  | .pageCommitReq p abort => Sys2Proof.Machine.execPageCommitReq p abort s
  | .pageCommitAbort p => Sys2Proof.Machine.execPageCommitAbort p s
  | .devCommitReq abort => Sys2Proof.Machine.execDevCommitReq abort s
  | .devCommitAbort => Sys2Proof.Machine.execDevCommitAbort s
  | .registerWrite a v => Sys2Proof.Machine.execRegisterWrite a v s
  | .unsupportedAccess a size w => Sys2Proof.Machine.execUnsupportedAccess a size w s
  | .windowWrite off data => Sys2Proof.Machine.execWindowWrite off data s
  | .windowDataAccess a w => Sys2Proof.Machine.execWindowDataAccess a w s
  | .timeFtLoRead => Sys2Proof.Machine.execTimeFtLoRead s
  | .timeCutoffLoRead => Sys2Proof.Machine.execTimeCutoffLoRead s
  | .tallySnapLoRead n => Sys2Proof.Machine.execTallySnapLoRead n s
  | .pageEnableWrite p en => Sys2Proof.Machine.execPageEnableWrite p en s
  | .softReset p => Sys2Proof.Machine.execSoftReset p s
  | .softResetDone p => Sys2Proof.Machine.execSoftResetDone p s
  | .pageFreeze p on => Sys2Proof.Machine.execPageFreeze p on s
  | .pageLockWrite p v => Sys2Proof.Machine.execPageLockWrite p v s
  | .intStatusClear p v => Sys2Proof.Machine.execIntStatusClear p v s
  | .intForce p v => Sys2Proof.Machine.execIntForce p v s
  | .evtModTimeout => Sys2Proof.Machine.execEvtModTimeout s
  | .ringEvtHeadWrite v => Sys2Proof.Machine.execRingEvtHeadWrite v s
  | .ringCmdTailWrite v => Sys2Proof.Machine.execRingCmdTailWrite v s
  | .cmdEnSet => Sys2Proof.Machine.execCmdEnSet s
  | .cmdEnClear => Sys2Proof.Machine.execCmdEnClear s
  | .evtEnSet => Sys2Proof.Machine.execEvtEnSet s
  | .evtEnClear => Sys2Proof.Machine.execEvtEnClear s
  | .ringCmdResync v => Sys2Proof.Machine.execRingCmdResync v s
  | .cmdFetch host => Sys2Proof.Machine.execCmdFetch host s
  | .cmdFetchFault kind => Sys2Proof.Machine.execCmdFetchFault kind s
  | .eventWrite => Sys2Proof.Machine.execEventWrite s
  | .eventWriteFault => Sys2Proof.Machine.execEventWriteFault s
  | .nop cseq => Sys2Proof.Machine.execNop cseq s
  | .badOpcode cseq => Sys2Proof.Machine.execBadOpcode cseq s
  | .snapshot cseq => Sys2Proof.Machine.execSnapshot cseq s
  | .snapshotCapture xok => Sys2Proof.Machine.execSnapshotCapture xok s
  | .stateSetReady cseq => Sys2Proof.Machine.execStateSetReady cseq s
  | .bringupFailed hw => Sys2Proof.Machine.execBringupFailed hw s
  | .stateSetStandby cseq => Sys2Proof.Machine.execStateSetStandby cseq s
  | .stateSetLit cseq => Sys2Proof.Machine.execStateSetLit cseq s
  | .stateSetExtinguish cseq => Sys2Proof.Machine.execStateSetExtinguish cseq s
  | .fwStage cseq host => Sys2Proof.Machine.execFwStage cseq host s
  | .fwActivateHk cseq => Sys2Proof.Machine.execFwActivateHk cseq s
  | .fwActivateSv cseq => Sys2Proof.Machine.execFwActivateSv cseq s
  | .fwActivateRollback cseq => Sys2Proof.Machine.execFwActivateRollback cseq s
  | .fwTrialPass => Sys2Proof.Machine.execFwTrialPass s
  | .fwTrialFail => Sys2Proof.Machine.execFwTrialFail s
  | .svSelftestDone ok => Sys2Proof.Machine.execSvSelftestDone ok s
  | .hkRestartRequest v => Sys2Proof.Machine.execHkRestartRequest v s
  | .hkWatchdogExpiry => Sys2Proof.Machine.execHkWatchdogExpiry s
  | .hkRestartEnd => Sys2Proof.Machine.execHkRestartEnd s
  | .mgmtLost => Sys2Proof.Machine.execMgmtLost s
  | .calibratePd cseq => Sys2Proof.Machine.execCalibratePd cseq s
  | .calibratePi cseq => Sys2Proof.Machine.execCalibratePi cseq s
  | .calibrateScan cseq => Sys2Proof.Machine.execCalibrateScan cseq s
  | .calibrateDram cseq => Sys2Proof.Machine.execCalibrateDram cseq s
  | .calibrationResult d => Sys2Proof.Machine.execCalibrationResult d s
  | .precondLost => Sys2Proof.Machine.execPrecondLost s
  | .trimAbort v => Sys2Proof.Machine.execTrimAbort v s
  | .trimTimeout => Sys2Proof.Machine.execTrimTimeout s
  | .seedStore cseq host => Sys2Proof.Machine.execSeedStore cseq host s
  | .seedLoad cseq xok => Sys2Proof.Machine.execSeedLoad cseq xok s
  | .attest cseq sig xok => Sys2Proof.Machine.execAttest cseq sig xok s
  | .ownerKeyInstall cseq host => Sys2Proof.Machine.execOwnerKeyInstall cseq host s
  | .ownerKeyRevoke cseq host => Sys2Proof.Machine.execOwnerKeyRevoke cseq host s
  | .ownerKeyPolicyOn cseq host => Sys2Proof.Machine.execOwnerKeyPolicyOn cseq host s
  | .ownerKeyRestore cseq host => Sys2Proof.Machine.execOwnerKeyRestore cseq host s
  | .timecode cseq => Sys2Proof.Machine.execTimecode cseq s
  | .tcFreewheelExpiry => Sys2Proof.Machine.execTcFreewheelExpiry s
  | .fabricSend cseq host => Sys2Proof.Machine.execFabricSend cseq host s
  | .holdCtrlVerify cseq reads => Sys2Proof.Machine.execHoldCtrlVerify cseq reads s
  | .dramSweep cseq pass xok => Sys2Proof.Machine.execDramSweep cseq pass xok s
  | .sweepAborted => Sys2Proof.Machine.execSweepAborted s
  | .faultClear cseq => Sys2Proof.Machine.execFaultClear cseq s
  | .timeFtSetHiWrite v => Sys2Proof.Machine.execTimeFtSetHiWrite v s
  | .timeFtSetLoWrite v => Sys2Proof.Machine.execTimeFtSetLoWrite v s
  | .timeCtrlWrite v => Sys2Proof.Machine.execTimeCtrlWrite v s
  | .timeSourceLost => Sys2Proof.Machine.execTimeSourceLost s
  | .timeSourceRequalified => Sys2Proof.Machine.execTimeSourceRequalified s
  | .fsyncInEdge after => Sys2Proof.Machine.execFsyncInEdge after s
  | .vddAonValid => Sys2Proof.Machine.execVddAonValid s
  | .vddAonLoss => Sys2Proof.Machine.execVddAonLoss s
  | .porstNAssert => Sys2Proof.Machine.execPorstNAssert s
  | .porstNRelease src => Sys2Proof.Machine.execPorstNRelease src s
  | .bootSourceTimeout timeout => Sys2Proof.Machine.execBootSourceTimeout timeout s
  | .bootComplete f => Sys2Proof.Machine.execBootComplete f s
  | .railOutOfTolerance rail => Sys2Proof.Machine.execRailOutOfTolerance rail s
  | .railsRestored src => Sys2Proof.Machine.execRailsRestored src s
  | .pfWarn => Sys2Proof.Machine.execPfWarn s
  | .pfLaserCut => Sys2Proof.Machine.execPfLaserCut s
  | .pfDeassert => Sys2Proof.Machine.execPfDeassert s
  | .pfRecovered => Sys2Proof.Machine.execPfRecovered s
  | .warmReset v => Sys2Proof.Machine.execWarmReset v s
  | .fabricResetReq p src d => Sys2Proof.Machine.execFabricResetReq p src d s
  | .usb4LinkChange l => Sys2Proof.Machine.execUsb4LinkChange l s
  | .unsupportedOffer code a => Sys2Proof.Machine.execUnsupportedOffer code a s
  | .functionLevelReset => Sys2Proof.Machine.execFunctionLevelReset s
  | .dpFrameStart a => Sys2Proof.Machine.execDpFrameStart a s
  | .dpFrameSealed a pix bad vsc => Sys2Proof.Machine.execDpFrameSealed a pix bad vsc s
  | .dpFrameAbandoned a => Sys2Proof.Machine.execDpFrameAbandoned a s
  | .dpTimingChange a t => Sys2Proof.Machine.execDpTimingChange a t s
  | .dscPpsRefused a => Sys2Proof.Machine.execDscPpsRefused a s
  | .panelReplayEntry a => Sys2Proof.Machine.execPanelReplayEntry a s
  | .panelReplayUpdate a => Sys2Proof.Machine.execPanelReplayUpdate a s
  | .usb2Request r => Sys2Proof.Machine.execUsb2Request r s
  | .usb2SummaryDelivery => Sys2Proof.Machine.execUsb2SummaryDelivery s
  | .skdChTailWrite c v => Sys2Proof.Machine.execSkdChTailWrite c v s
  | .skdDescriptorStart m host => Sys2Proof.Machine.execSkdDescriptorStart m host s
  | .skdPreempt m upto host hostDesc => Sys2Proof.Machine.execSkdPreempt m upto host hostDesc s
  | .skdFault m upto detail dst host => Sys2Proof.Machine.execSkdFault m upto detail dst host s
  | .skdHostTimeout m upto dst host => Sys2Proof.Machine.execSkdHostTimeout m upto dst host s
  | .skdDescDone m host others => Sys2Proof.Machine.execSkdDescDone m host others s
  | .skdOpResume c => Sys2Proof.Machine.execSkdOpResume c s
  | .skdOpSkip c => Sys2Proof.Machine.execSkdOpSkip c s
  | .skdOpAbort c host => Sys2Proof.Machine.execSkdOpAbort c host s
  | .skdOpResync c => Sys2Proof.Machine.execSkdOpResync c s
  | .skdChEnable c v host => Sys2Proof.Machine.execSkdChEnable c v host s
  | .skdCtxCapture v => Sys2Proof.Machine.execSkdCtxCapture v s
  | .dtuWalk va write client => Sys2Proof.Machine.execDtuWalk va write client s
  | .dtuInvGo v => Sys2Proof.Machine.execDtuInvGo v s
  | .dtuInvDone => Sys2Proof.Machine.execDtuInvDone s
  | .dtuProbe v => Sys2Proof.Machine.execDtuProbe v s
  | .surfDefine idx => Sys2Proof.Machine.execSurfDefine idx s
  | .surfOpen idx => Sys2Proof.Machine.execSurfOpen idx s
  | .surfClose idx => Sys2Proof.Machine.execSurfClose idx s
  | .storeSurfSelCapture v => Sys2Proof.Machine.execStoreSurfSelCapture v s
  | .cmpOver n => Sys2Proof.Machine.execCmpOver n s
  | .contentUnit data pix => Sys2Proof.Machine.execContentUnit data pix s
  | .pictureLate f => Sys2Proof.Machine.execPictureLate f s
  | .nvmeEnSet linkUp id => Sys2Proof.Machine.execNvmeEnSet linkUp id s
  | .nvmeReadDone status data pix => Sys2Proof.Machine.execNvmeReadDone status data pix s
  | .hfcPush v => Sys2Proof.Machine.execHfcPush v s
  | .warpPlanGo v => Sys2Proof.Machine.execWarpPlanGo v s
  | .warpPlanDone => Sys2Proof.Machine.execWarpPlanDone s
  | .tableSyncDone => Sys2Proof.Machine.execTableSyncDone s
  | .planesSealed => Sys2Proof.Machine.execPlanesSealed s
  | .seqCheckGo v => Sys2Proof.Machine.execSeqCheckGo v s
  | .lsgPiCheckGo => Sys2Proof.Machine.execLsgPiCheckGo s
  | .ident p d => Sys2Proof.Machine.execIdent p d s
  | .linkStatus p state lane skew order => Sys2Proof.Machine.execLinkStatus p state lane skew order s
  | .planeAck p slot plane status fsn arrDiff tapDiff => Sys2Proof.Machine.execPlaneAck p slot plane status fsn arrDiff tapDiff s
  | .arrayTemp p temp => Sys2Proof.Machine.execArrayTemp p temp s
  | .arrayStatus p code sev detail => Sys2Proof.Machine.execArrayStatus p code sev detail s
  | .echoReply p token => Sys2Proof.Machine.execEchoReply p token s
  | .backchannelBadMessage p => Sys2Proof.Machine.execBackchannelBadMessage p s
  | .ackMissing p slot => Sys2Proof.Machine.execAckMissing p slot s
  | .bcLost p => Sys2Proof.Machine.execBcLost p s
  | .bcLostLong p => Sys2Proof.Machine.execBcLostLong p s
  | .maRdyNLow p => Sys2Proof.Machine.execMaRdyNLow p s
  | .arrayReset p => Sys2Proof.Machine.execArrayReset p s
  | .maRetrain p => Sys2Proof.Machine.execMaRetrain p s
  | .maIdentReq p => Sys2Proof.Machine.execMaIdentReq p s
  | .trainingAttemptTimeout p => Sys2Proof.Machine.execTrainingAttemptTimeout p s
  | .darkTrainingTimeout p => Sys2Proof.Machine.execDarkTrainingTimeout p s
  | .fastAxisEnable => Sys2Proof.Machine.execFastAxisEnable s
  | .resonanceFound freq => Sys2Proof.Machine.execResonanceFound freq s
  | .handoverTimeout => Sys2Proof.Machine.execHandoverTimeout s
  | .fastAxisLocked => Sys2Proof.Machine.execFastAxisLocked s
  | .lockFail => Sys2Proof.Machine.execLockFail s
  | .lockLoss cause => Sys2Proof.Machine.execLockLoss cause s
  | .relockTimeout => Sys2Proof.Machine.execRelockTimeout s
  | .zeroCrossing before after => Sys2Proof.Machine.execZeroCrossing before after s
  | .dacSample => Sys2Proof.Machine.execDacSample s
  | .zoneBucketBoundary => Sys2Proof.Machine.execZoneBucketBoundary s
  | .beamCut cause => Sys2Proof.Machine.execBeamCut cause s
  | .highlineTargetChange => Sys2Proof.Machine.execHighlineTargetChange s
  | .highlineArrival => Sys2Proof.Machine.execHighlineArrival s
  | .rowDrawn => Sys2Proof.Machine.execRowDrawn s
  | .drawingWindowEnd => Sys2Proof.Machine.execDrawingWindowEnd s
  | .rowToleranceExit => Sys2Proof.Machine.execRowToleranceExit s
  | .tsConversion t => Sys2Proof.Machine.execTsConversion t s
  | .ntcConversion j c => Sys2Proof.Machine.execNtcConversion j c s
  | .laserModelUpdate => Sys2Proof.Machine.execLaserModelUpdate s
  | .firebreakDie => Sys2Proof.Machine.execFirebreakDie s
  | .firebreakLaser g => Sys2Proof.Machine.execFirebreakLaser g s
  | .dramStepDownRequest => Sys2Proof.Machine.execDramStepDownRequest s
  | .dramStepUpRequest => Sys2Proof.Machine.execDramStepUpRequest s
  | .dramFreqChangeStart => Sys2Proof.Machine.execDramFreqChangeStart s
  | .pairFreqChange q => Sys2Proof.Machine.execPairFreqChange q s
  | .dramFreqWait q => Sys2Proof.Machine.execDramFreqWait q s
  | .slackSample q v arr => Sys2Proof.Machine.execSlackSample q v arr s
  | .refreshDue ch idle => Sys2Proof.Machine.execRefreshDue ch idle s
  | .refreshRatePoll ch val above => Sys2Proof.Machine.execRefreshRatePoll ch val above s
  | .driftTrim ch n => Sys2Proof.Machine.execDriftTrim ch n s
  | .dramScrubRead result => Sys2Proof.Machine.execDramScrubRead result s
  | .dramUe addr client errs => Sys2Proof.Machine.execDramUe addr client errs s
  | .dramCe addr errs => Sys2Proof.Machine.execDramCe addr errs s
  | .selfRefreshEntry q => Sys2Proof.Machine.execSelfRefreshEntry q s
  | .selfRefreshExit q held => Sys2Proof.Machine.execSelfRefreshExit q held s
  | .pairOutOfService q => Sys2Proof.Machine.execPairOutOfService q s
  | .seedRecordWrite n => Sys2Proof.Machine.execSeedRecordWrite n s
  | .seedWriteDone => Sys2Proof.Machine.execSeedWriteDone s
  | .seedChkOnly ty slot => Sys2Proof.Machine.execSeedChkOnly ty slot s
  | .reservedSlotWrite n => Sys2Proof.Machine.execReservedSlotWrite n s
  | .seedScrubRead result => Sys2Proof.Machine.execSeedScrubRead result s
  | .seedSelCapture v => Sys2Proof.Machine.execSeedSelCapture v s
  | .jtagNewChallenge random => Sys2Proof.Machine.execJtagNewChallenge random s
  | .jtagResponse modulus scope sig => Sys2Proof.Machine.execJtagResponse modulus scope sig s
  | .jtagChallengeExpiry => Sys2Proof.Machine.execJtagChallengeExpiry s
  | .fabricFrameReceived p data corr uncorr => Sys2Proof.Machine.execFabricFrameReceived p data corr uncorr s
  | .linkCtrl p d => Sys2Proof.Machine.execLinkCtrl p d s
  | .linkCtrlSend p => Sys2Proof.Machine.execLinkCtrlSend p s
  | .retryTimeout p => Sys2Proof.Machine.execRetryTimeout p s
  | .fabricLinkUp p nonce => Sys2Proof.Machine.execFabricLinkUp p nonce s
  | .creditAudit p d => Sys2Proof.Machine.execCreditAudit p d s
  | .alignmentTimeout p => Sys2Proof.Machine.execAlignmentTimeout p s
  | .moduleInserted p id temp => Sys2Proof.Machine.execModuleInserted p id temp s
  | .modulePoll p flags temp alarm los => Sys2Proof.Machine.execModulePoll p flags temp alarm los s
  | .hello p d => Sys2Proof.Machine.execHello p d s
  | .helloSend p => Sys2Proof.Machine.execHelloSend p s
  | .neighbourDown p loss => Sys2Proof.Machine.execNeighbourDown p loss s
  | .lsa p d => Sys2Proof.Machine.execLsa p d s
  | .lsaOriginate => Sys2Proof.Machine.execLsaOriginate s
  | .lsaAgeOut uid => Sys2Proof.Machine.execLsaAgeOut uid s
  | .rootAndAddresses => Sys2Proof.Machine.execRootAndAddresses s
  | .assign p d => Sys2Proof.Machine.execAssign p d s
  | .spfHoldExpiry => Sys2Proof.Machine.execSpfHoldExpiry s
  | .routeSwap ms => Sys2Proof.Machine.execRouteSwap ms s
  | .altFailover p => Sys2Proof.Machine.execAltFailover p s
  | .sync p d stamp => Sys2Proof.Machine.execSync p d stamp s
  | .syncSend => Sys2Proof.Machine.execSyncSend s
  | .pdelayExchange p kind pseq t1 t2 t3 t4 => Sys2Proof.Machine.execPdelayExchange p kind pseq t1 t2 t3 t4 s
  | .admitStream p d serial rsa sig => Sys2Proof.Machine.execAdmitStream p d serial rsa sig s
  | .admitRetry p nonce => Sys2Proof.Machine.execAdmitRetry p nonce s
  | .bootReq p d => Sys2Proof.Machine.execBootReq p d s
  | .hostFrameRx frame => Sys2Proof.Machine.execHostFrameRx frame s
  | .colourReport d => Sys2Proof.Machine.execColourReport d s
  | .colourDigest d => Sys2Proof.Machine.execColourDigest d s
  | .epochEnd => Sys2Proof.Machine.execEpochEnd s
  | .reportSend => Sys2Proof.Machine.execReportSend s
  | .collectionClose => Sys2Proof.Machine.execCollectionClose s
  | .digestClose => Sys2Proof.Machine.execDigestClose s
  | .cueContextWrite idx w v => Sys2Proof.Machine.execCueContextWrite idx w v s
  | .cueOpArm v => Sys2Proof.Machine.execCueOpArm v s
  | .cueOpCancel v => Sys2Proof.Machine.execCueOpCancel v s
  | .cueOpCancelAll v => Sys2Proof.Machine.execCueOpCancelAll v s
  | .cueActionFetch bad => Sys2Proof.Machine.execCueActionFetch bad s
  | .cueFiring bad => Sys2Proof.Machine.execCueFiring bad s
  | .fineCueTick bad => Sys2Proof.Machine.execFineCueTick bad s
  | .cueFrame src d => Sys2Proof.Machine.execCueFrame src d s
  | .ringRecord coded pps done => Sys2Proof.Machine.execRingRecord coded pps done s
  | .ringPlayerDecode pix => Sys2Proof.Machine.execRingPlayerDecode pix s
  | .libraryRead => Sys2Proof.Machine.execLibraryRead s
  | .forceRejoin => Sys2Proof.Machine.execForceRejoin s
  | .clearRing => Sys2Proof.Machine.execClearRing s
  | .chkStart u v => Sys2Proof.Machine.execChkStart u v s
  | .chkFeed u v => Sys2Proof.Machine.execChkFeed u v s
  | .chkMem u v => Sys2Proof.Machine.execChkMem u v s
  | .chkMemDone u => Sys2Proof.Machine.execChkMemDone u s
  | .chkFinish u v => Sys2Proof.Machine.execChkFinish u v s
  | .chkParameterWrite u phi v => Sys2Proof.Machine.execChkParameterWrite u phi v s
  | .tallyClear v => Sys2Proof.Machine.execTallyClear v s
  | .tallyWrap n => Sys2Proof.Machine.execTallyWrap n s
  | .gpioTallyIn levels => Sys2Proof.Machine.execGpioTallyIn levels s
  | .safetyInput idx permits => Sys2Proof.Machine.execSafetyInput idx permits s
  | .svDeadman => Sys2Proof.Machine.execSvDeadman s
  | .svLockstep => Sys2Proof.Machine.execSvLockstep s
  | .refclkFailure => Sys2Proof.Machine.execRefclkFailure s
  | .refclkRecovered src => Sys2Proof.Machine.execRefclkRecovered src s
  | .xtal25Fault => Sys2Proof.Machine.execXtal25Fault s
  | .bcRegained p => Sys2Proof.Machine.execBcRegained p s
  | .moduleRemoved p => Sys2Proof.Machine.execModuleRemoved p s
  | .xtal25Recovered src => Sys2Proof.Machine.execXtal25Recovered src s
  | .pciePowerStateChange d3 cfg => Sys2Proof.Machine.execPciePowerStateChange d3 cfg s

end Sys2Proof.Machine
end

