-- ==== Sys2Proof/WellFormed.lean ====
section
/-!
DEFINITION. Well-formed commands: each index names a unit, page, port, group, channel, pair, context or window the block has, and each
coded operand is one of its codes.  A command with no such operand is well formed.
-/
namespace Sys2Proof

/-- Is a command well formed? -/
def Instr.wf : Instr → Bool
  | .slotStart g _ => decide (g < 4)
  | .kerfEnd g _ _ => decide (g < 4)
  | .lastDwellEnd g _ => decide (g < 4)
  | .planeLoadStart p => decide (p < 4)
  | .planeLoadEnd p => decide (p < 4)
  | .fifoUnderrun p => decide (p < 4)
  | .measureWindowClose g i flat filt _ _ => decide (g < 4 ∧ i < 128 ∧ flat < 65536 ∧ filt < 65536)
  | .offsetWindowClose j r code _ => decide (j < 8 ∧ r < 4 ∧ code < 65536)
  | .loopSample slot _ _ => decide (slot < 128)
  | .wheelFault kind _ => decide (kind < 2)
  | .thermCeilingLost g => decide (g < 5)
  | .overCurrentTrip n => decide (n < 48)
  | .faultInput n => decide (n < 48)
  | .spareTakeover g => decide (g < 5)
  | .coldSpareHot m => decide (m < 2112)
  | .probeDue m => decide (m < 2112)
  | .probeRun g _ => decide (g < 5)
  | .probeStarved m => decide (m < 2112)
  | .chainTableLoad c => decide (c < 4)
  | .chainShiftDone c _ => decide (c < 4)
  | .chainEnum c _ _ => decide (c < 4)
  | .chainEnumRetry c _ _ => decide (c < 4)
  | .pageCommitReq p _ => decide (p < 64)
  | .pageCommitAbort p => decide (p < 64)
  | .registerWrite a _ => decide (a < 0x40000 ∧ a % 4 = 0)
  | .windowWrite off data => decide (off < 0x4000000 ∧ data.length ≤ 128)
  | .windowDataAccess a _ => decide (a < 0x40000 ∧ a % 4 = 0)
  | .tallySnapLoRead n => decide (n < 64)
  | .pageEnableWrite p _ => decide (p < 64)
  | .softReset p => decide (p < 64)
  | .softResetDone p => decide (p < 64)
  | .pageFreeze p _ => decide (p < 64)
  | .pageLockWrite p _ => decide (p < 64)
  | .intStatusClear p _ => decide (p < 64)
  | .intForce p _ => decide (p < 64)
  | .cmdFetchFault kind => decide ((kind = 4 ∨ kind = 5))
  | .porstNRelease src => decide (src < 4)
  | .railOutOfTolerance rail => decide (rail < 12)
  | .railsRestored src => decide (src < 4)
  | .fabricResetReq p _ _ => decide (p < 4)
  | .usb4LinkChange l => decide (l.state < 3 ∧ l.gen < 3 ∧ l.bw < 0x100000000)
  | .unsupportedOffer code a => decide (1 ≤ code ∧ code ≤ 9 ∧ a < 2)
  | .pciePowerStateChange _ c => decide (c.payload < 2 ∧ c.readReq < 3 ∧ c.vecMask < 2 ^ 64)
  | .dpFrameStart a => decide (a < 2)
  | .dpFrameSealed a _ _ _ => decide (a < 2)
  | .dpFrameAbandoned a => decide (a < 2)
  | .dpTimingChange a _ => decide (a < 2)
  | .dscPpsRefused a => decide (a < 2)
  | .panelReplayEntry a => decide (a < 2)
  | .panelReplayUpdate a => decide (a < 2)
  | .usb2Request r => decide (r.op < 256 ∧ r.tag < 0x10000 ∧ r.offset < 0x100000000 ∧ r.len < 0x100000000)
  | .skdChTailWrite c _ => decide (c < 16)
  | .skdDescriptorStart m _ => decide (m < 4)
  | .skdPreempt m _ _ _ => decide (m < 4)
  | .skdFault m _ _ _ _ => decide (m < 4)
  | .skdHostTimeout m _ _ _ => decide (m < 4)
  | .skdDescDone m _ _ => decide (m < 4)
  | .skdOpResume c => decide (c < 16)
  | .skdOpSkip c => decide (c < 16)
  | .skdOpAbort c _ => decide (c < 16)
  | .skdOpResync c => decide (c < 16)
  | .skdChEnable c _ _ => decide (c < 16)
  | .surfDefine i => decide (i < 64)
  | .surfOpen i => decide (i < 64)
  | .surfClose i => decide (i < 64)
  | .cmpOver n => decide (n < 8)
  | .pictureLate f => decide (f < 4)
  | .ident p _ => decide (p < 4)
  | .linkStatus p state _ _ _ => decide (p < 4 ∧ state < 3)
  | .planeAck p slot plane _ _ _ _ => decide (p < 4 ∧ slot < 128 ∧ plane < 24)
  | .arrayTemp p _ => decide (p < 4)
  | .arrayStatus p _ _ _ => decide (p < 4)
  | .echoReply p _ => decide (p < 4)
  | .backchannelBadMessage p => decide (p < 4)
  | .ackMissing p slot => decide (p < 4 ∧ slot < 128)
  | .bcLost p => decide (p < 4)
  | .bcLostLong p => decide (p < 4)
  | .maRdyNLow p => decide (p < 4)
  | .arrayReset p => decide (p < 4)
  | .maRetrain p => decide (p < 4)
  | .maIdentReq p => decide (p < 4)
  | .trainingAttemptTimeout p => decide (p < 4)
  | .darkTrainingTimeout p => decide (p < 4)
  | .lockLoss cause => decide (cause < 3)
  | .beamCut cause => decide (1 ≤ cause ∧ cause ≤ 5)
  | .tsConversion t => decide (t.length = 16)
  | .ntcConversion j _ => decide (j < 8)
  | .laserModelUpdate => true
  | .firebreakLaser g => decide (g < 12)
  | .pairFreqChange q => decide (q < 12)
  | .dramFreqWait q => decide (q < 12)
  | .slackSample q _ _ => decide (q < 12)
  | .refreshDue ch _ => decide (ch < 24)
  | .refreshRatePoll ch _ _ => decide (ch < 24)
  | .driftTrim ch _ => decide (ch < 24)
  | .dramScrubRead result => decide (result < 3)
  | .selfRefreshEntry q => decide (q < 12)
  | .selfRefreshExit q _ => decide (q < 12)
  | .pairOutOfService q => decide (q < 12)
  | .seedScrubRead result => decide (result < 3)
  | .zeroCrossing before after => decide (before < 65536 ∧ after < 65536)
  | .jtagNewChallenge random => decide (random.length = 32)
  | .fabricFrameReceived p _ _ _ => decide (p < 4)
  | .linkCtrl p _ => decide (p < 4)
  | .linkCtrlSend p => decide (p < 4)
  | .retryTimeout p => decide (p < 4)
  | .fabricLinkUp p _ => decide (p < 4)
  | .creditAudit p _ => decide (p < 4)
  | .alignmentTimeout p => decide (p < 4)
  | .moduleInserted p _ _ => decide (p < 4)
  | .modulePoll p _ _ _ _ => decide (p < 4)
  | .hello p _ => decide (p < 4)
  | .helloSend p => decide (p < 4)
  | .neighbourDown p _ => decide (p < 4)
  | .lsa p _ => decide (p < 4)
  | .assign p _ => decide (p < 4)
  | .altFailover p => decide (p < 4)
  | .sync p _ _ => decide (p < 4)
  | .pdelayExchange p kind _ _ _ _ _ => decide (p < 4 ∧ kind < 3)
  | .admitStream p _ _ _ _ => decide (p < 4)
  | .admitRetry p _ => decide (p < 4)
  | .bootReq p _ => decide (p < 4)
  | .cueContextWrite i w _ => decide (i < 262144 ∧ w < 8)
  | .chkStart u _ => decide (u < 8)
  | .chkFeed u _ => decide (u < 8)
  | .chkMem u _ => decide (u < 8)
  | .chkMemDone u => decide (u < 8)
  | .chkFinish u _ => decide (u < 8)
  | .chkParameterWrite u _ _ => decide (u < 8)
  | .tallyWrap n => decide (n < 64)
  | .safetyInput i _ => decide (i < 3)
  | .refclkRecovered src => decide (src < 4)
  | .bcRegained p => decide (p < 4)
  | .moduleRemoved p => decide (p < 4)
  | .xtal25Recovered src => decide (src < 4)
  | .frameBoundary | .commitCutoff | .preloadStart | .darkIntervalStart | .stateScrub _ | .devCommitReq _ |
    .devCommitAbort | .unsupportedAccess _ _ _ | .timeFtLoRead | .timeCutoffLoRead | .evtModTimeout | .ringEvtHeadWrite _
    | .ringCmdTailWrite _ | .cmdEnSet | .cmdEnClear | .evtEnSet | .evtEnClear | .ringCmdResync _ | .cmdFetch _ |
    .eventWrite | .eventWriteFault | .nop _ | .badOpcode _ | .snapshot _ | .snapshotCapture _ | .stateSetReady _ |
    .bringupFailed _ | .stateSetStandby _ | .stateSetLit _ | .stateSetExtinguish _ | .fwStage _ _ | .fwActivateHk _ |
    .fwActivateSv _ | .fwActivateRollback _ | .fwTrialPass | .fwTrialFail | .svSelftestDone _ | .hkRestartRequest _ |
    .hkWatchdogExpiry | .hkRestartEnd | .mgmtLost | .calibratePd _ | .calibratePi _ | .calibrateScan _ |
    .calibrateDram _ | .calibrationResult _ | .precondLost | .trimAbort _ | .trimTimeout | .seedStore _ _ | .seedLoad _ _
    | .attest _ _ _ | .ownerKeyInstall _ _ | .ownerKeyRevoke _ _ | .ownerKeyPolicyOn _ _ | .ownerKeyRestore _ _ | .timecode _
    | .tcFreewheelExpiry | .fabricSend _ _ | .holdCtrlVerify _ _ | .dramSweep _ _ _ | .sweepAborted | .faultClear _ |
    .timeFtSetHiWrite _ | .timeFtSetLoWrite _ | .timeCtrlWrite _ | .timeSourceLost | .timeSourceRequalified |
    .fsyncInEdge _ | .vddAonValid | .vddAonLoss | .porstNAssert | .bootSourceTimeout _ | .bootComplete _ | .pfWarn |
    .pfLaserCut | .pfDeassert | .pfRecovered | .warmReset _ | .functionLevelReset |
    .usb2SummaryDelivery | .skdCtxCapture _ | .dtuWalk _ _ _ | .dtuInvGo _ | .dtuInvDone | .dtuProbe _ |
    .storeSurfSelCapture _ | .contentUnit _ _ | .nvmeEnSet _ _ | .nvmeReadDone _ _ _ | .hfcPush _ | .warpPlanGo _ |
    .warpPlanDone | .tableSyncDone | .planesSealed | .seqCheckGo _ | .lsgPiCheckGo | .fastAxisEnable |
    .resonanceFound _ | .handoverTimeout | .fastAxisLocked | .lockFail | .relockTimeout | .dacSample
    | .zoneBucketBoundary | .highlineTargetChange | .highlineArrival | .rowDrawn | .drawingWindowEnd |
    .rowToleranceExit | .firebreakDie | .dramStepDownRequest | .dramStepUpRequest | .dramFreqChangeStart | .dramUe _ _ _
    | .dramCe _ _ | .seedRecordWrite _ | .seedWriteDone | .seedChkOnly _ _ | .reservedSlotWrite _ | .seedSelCapture _ |
    .jtagResponse _ _ _ | .jtagChallengeExpiry | .lsaOriginate | .lsaAgeOut _ | .rootAndAddresses | .spfHoldExpiry |
    .routeSwap _ | .syncSend | .hostFrameRx _ | .colourReport _ | .colourDigest _ | .epochEnd | .reportSend |
    .collectionClose | .digestClose | .cueOpArm _ | .cueOpCancel _ | .cueOpCancelAll _ | .cueActionFetch _ | .cueFiring _ |
    .fineCueTick _ | .cueFrame _ _ | .ringRecord _ _ _ | .ringPlayerDecode _ | .libraryRead | .forceRejoin | .clearRing |
    .tallyClear _ | .gpioTallyIn _ | .svDeadman | .svLockstep | .refclkFailure | .xtal25Fault => true

end Sys2Proof
end

