-- ==== Sys2Proof/Safety.lean ====
section
/-!
DEFINITION. What claims about runs of the block are stated in: a command's effect on the block, the effect of a row of commands, and
the invariants of a state.
-/
namespace Sys2Proof.Machine

/-- The block after a command: no command of this block stops, so an effect there always is (log entry 6). -/
def effect (c : Instr) (b : Block) : Block :=
  match exec c { toBlock := b, pending := [] } with
  | .next t => t.toBlock
  | _ => b

/-- The block after a row of commands, the first one first. -/
def effects : List Instr → Block → Block
  | [], b => b
  | c :: l, b => effects l (effect c b)

/-- Every command that waits is well formed. -/
def State.queueWf (s : State) : Bool := s.pending.all Instr.wf

/-- The register store is in its canonical form: keys strictly rising, and no entry at its reset value. -/
def Block.regsWf (s : Block) : Bool := swf regDflt s.regs

/-- The DRAM is in its canonical form. -/
def Block.dramWf (s : Block) : Bool := Memory.wf s.dram

/-- The eight lists that hold one item for each unit of the block have that many items: 4 ports, 5 light groups, 16 channels of
Skidder, 64 surfaces, 8 sources, 64 Tally counters, 8 check units and 12 pairs. -/
def Block.sized (s : Block) : Prop :=
  s.ma.length = 4 ∧ s.ls.grp.length = 5 ∧ s.sk.ch.length = 16 ∧ s.sf.surf.length = 64 ∧ s.sf.src.length = 8 ∧
    s.ty.cnt.length = 64 ∧ s.chk.length = 8 ∧ s.dc.pairs.length = 12

end Sys2Proof.Machine
end

