-- ==== Sys2Proof/Certificates/Slice0/Obligations.lean ====
section
/-!
DEFINITION. The statements for the provers.  In each completion clause `s` is the block and `q` the queue of the commands behind; the
conclusion says what `exec` answers, the queue as it stood.
-/
open Sys2Proof Sys2Proof.Machine

/-- A step runs the command at the front of the queue. For every block, command and queue, a step with the command at the
front answers what exec answers for that command on the block with the rest of the queue.  That commands wait in a queue
at all is the model's own choice (log entry 1). (derived: R112, R113) -/
def Obligations.StepRunsFront : Prop :=
  ∀ (b : Block) (c : Instr) (q : List Instr), step { toBlock := b, pending := c :: q } = exec c { toBlock := b, pending := q }

/-- With no command waiting, a step lets one nanosecond of the local clock pass. The table has no row for the passing of
time: on an empty queue a step advances the block by 1 ns of the local clock and the queue stays empty.  This is the
model's own choice (log entry 4). (derived: R38) -/
def Obligations.StepIdles : Prop :=
  ∀ b : Block, step { toBlock := b, pending := [] } = .next { toBlock := b.advance 1, pending := [] }

/-- The frame boundary, the cutoff and the commit requests run, and what each leaves. A boundary and a cutoff run while TIME
runs; a page or group commit request arrives as a commit, after the withdrawal that COMMIT_ABORT in the same write asks
for; an abort alone withdraws. (derived: R46, R53, R64, R66, R67, R70, R72, R98) -/
def Obligations.FrameAndCommitCommandsRun : Prop :=
  (∀ (s : Block) (q : List Instr),
      s.tm.run = true →
      exec (.frameBoundary) ⟨s, q⟩ = .next ⟨s.frameBoundary, q⟩) ∧
  (∀ (s : Block) (q : List Instr),
      s.tm.run = true → s.tm.cutoffDone = false →
      exec (.commitCutoff) ⟨s, q⟩ = .next ⟨(let t := (s.advanceTo s.nextCutoff).retest
      let u := match t.pendingCommit with
        | some c => if c.skip = 0 then t.latch c else t
        | none => t
      ({ u with tm := { u.tm with cutoffDone := true } } : Block).cutoffReads), q⟩) ∧
  (∀ (s : Block) (q : List Instr) (p : Nat) (abort : Bool),
      s.hostOk = true → shPages.contains p = true →
      exec (.pageCommitReq p abort) ⟨s, q⟩ = .next ⟨(if abort then s.withdraw (2 ^ p) false else s).commitIn (2 ^ p) false [], q⟩) ∧
  (∀ (s : Block) (q : List Instr) (p : Nat),
      s.hostOk = true → shPages.contains p = true →
      exec (.pageCommitAbort p) ⟨s, q⟩ = .next ⟨s.withdraw (2 ^ p) false, q⟩) ∧
  (∀ (s : Block) (q : List Instr) (abort : Bool),
      s.hostOk = true →
      exec (.devCommitReq abort) ⟨s, q⟩ = .next ⟨(if abort then s.withdraw s.groupMask true else s).commitIn s.groupMask true [], q⟩) ∧
  (∀ (s : Block) (q : List Instr),
      s.hostOk = true →
      exec (.devCommitAbort) ⟨s, q⟩ = .next ⟨s.withdraw s.groupMask true, q⟩)

/-- The commands of TIME run, and what each leaves. The latching reads of TIME_FT_LO, TIME_CUTOFF_LO and TALLY_SNAP_LO,
setting FT, a legal write of TIME_CTRL, the loss and the return of a source, an edge at FSYNC_IN, TIMECODE and the end
of freewheel each answer a next state, as the rules say. (derived: R38, R39, R40, R45, R53, R62, R63, R80, R616) -/
def Obligations.TimeCommandsRun : Prop :=
  (∀ (s : Block) (q : List Instr),
      s.hostOk = true →
      exec (.timeFtLoRead) ⟨s, q⟩ = .next ⟨s.setRegs [(R.TIME_FT_HI, w32 (s.tm.ft / 0x100000000)), (R.TIME_FT_FRAC, w32 (s.tm.frac / 2 ^ 24))], q⟩) ∧
  (∀ (s : Block) (q : List Instr),
      s.hostOk = true → s.tm.run = true →
      exec (.timeCutoffLoRead) ⟨s, q⟩ = .next ⟨s.setReg R.TIME_CUTOFF_HI (w32 (s.nextCutoff / 0x100000000)), q⟩) ∧
  (∀ (s : Block) (q : List Instr) (n : Nat) (c : TallyCnt),
      s.hostOk = true → s.ty.cnt[n]? = some c →
      exec (.tallySnapLoRead n) ⟨s, q⟩ = .next ⟨s.setReg (R.TALLY_SNAP_HI n) (w32 (c.snap / 0x100000000 % 65536 + 65536 * c.snapWrap.toNat)), q⟩) ∧
  (∀ (s : Block) (q : List Instr) (v : Word),
      s.hostOk = true →
      exec (.timeFtSetHiWrite v) ⟨s, q⟩ = .next ⟨{ s with tm := { s.tm with ftSetHi := v.toNat } }, q⟩) ∧
  (∀ (s : Block) (q : List Instr) (v : Word),
      s.hostOk = true → s.tm.run = true → s.ftSettable = true →
      exec (.timeFtSetLoWrite v) ⟨s, q⟩ = .next ⟨(s.putOffset ((((s.tm.ftSetHi * 0x100000000 + v.toNat : Nat) : Int) - s.tm.ft) * 256)).correct
        ((((s.tm.ftSetHi * 0x100000000 + v.toNat : Nat) : Int) - s.tm.ft) * 256), q⟩) ∧
  (∀ (s : Block) (q : List Instr) (v : Word) (r : RegRow),
      s.hostOk = true → rowAt R.TIME_CTRL = some r → bit (s.reg (R.PAGE_LOCK (pageOf R.TIME_CTRL))) 0 = false →
      r.legalVal (r.merge (s.reg R.TIME_CTRL) v) = true →
      exec (.timeCtrlWrite v) ⟨s, q⟩ = .next ⟨s.timeCtrl (r.merge (s.reg R.TIME_CTRL) v), q⟩) ∧
  (∀ (s : Block) (q : List Instr) (at_ : Nat),
      s.tm.src = .wipex → s.tm.fabricLast = some at_ → s.tm.run = true → (s.advance (at_ + s.lossBound .wipex - s.now)).tm.src = .wipex →
      exec (.timeSourceLost) ⟨s, q⟩ = .next ⟨(let t := s.advance (at_ + s.lossBound .wipex - s.now)
      let u : Block := { t with tm := { t.tm with fabricQual := false, fabricSince := none, fabricLast := none } }
      u.goSrc u.wantSrc), q⟩) ∧
  (∀ (s : Block) (q : List Instr) (u : Block) (at_ : Nat),
      s.tm.run = true → s.fld R.TIME_CTRL 0 2 = 0 → s.tm.fabricSince = some at_ → s.above .wipex = true →
      s.qualified .wipex = true → u = s.advance (at_ + s.fld R.TIME_SRC_QUALIFY 0 16 * 1000000 - s.now) →
      u.qualified .wipex = true →
      exec (.timeSourceRequalified) ⟨s, q⟩ = .next ⟨u.goSrc .wipex, q⟩) ∧
  (∀ (s : Block) (q : List Instr) (after : Nat),
      (s.advance after).tm.run = true → ((s.advance after).fld R.TIME_CTRL 2 2 = 1 ∨ (s.advance after).fld R.TIME_CTRL 2 2 = 2) →
      exec (.fsyncInEdge after) ⟨s, q⟩ = .next ⟨(s.advance after).fsyncEdge, q⟩) ∧
  (∀ (s : Block) (q : List Instr),
      s.tm.tcValid = true →
      exec (.tcFreewheelExpiry) ⟨s, q⟩ = .next ⟨(let t := s.advance (s.tm.tcAt + s.fld R.TIME_TC_CFG 8 8 * 100000000 - s.now)
      { t with tm := { t.tm with tcValid := false } }), q⟩) ∧
  (∀ (s : Block) (q : List Instr) (cseq : Word) (c : Cmd),
      s.startable cseq 0x000B = some c → tcOk (s.fld R.TIME_TC_CFG 0 2) (w32 (c.par 16 4)) = true → s.fld R.TIME_TC_CFG 2 2 = 2 →
      (s.tcAnchor (w32 (c.par 16 4)) (c.par 24 8)).fabOn = false →
      exec (.timecode cseq) ⟨s, q⟩ = .next ⟨(s.tcAnchor (w32 (c.par 16 4)) (c.par 24 8)).complete c.cseq 0, q⟩)

/-- The host accesses to the register file and the page controls run, and what each leaves. While the register pages are served, a
register write, a window write, a window data access and each page control (enable, soft reset, freeze, lock, interrupt clear and
force) leaves what the rules say; a 64-bit write is two 32-bit ones, the lower address first, and a read of another size completes
as an Unsupported Request and changes no register; a soft reset ends with SOFT_RESET at 0. (derived: R81, R82, R84, R85, R90, R91,
R92, R94, R95, R141, R665, R667) -/
def Obligations.RegisterAccessCommandsRun : Prop :=
  (∀ (s : Block) (q : List Instr) (a : Nat) (v : Word),
      s.hostOk = true → a % 4 = 0 →
      exec (.registerWrite a v) ⟨s, q⟩ = .next ⟨s.barWrite a v, q⟩) ∧
  (∀ (s : Block) (q : List Instr) (a : Nat) (d : Bytes),
      s.hostOk = true → a % 8 = 0 →
      exec (.unsupportedAccess a 8 (some d)) ⟨s, q⟩ = .next ⟨(s.barWrite a (w32 (field d 0 4))).barWrite (a + 4) (w32 (field d 4 4)), q⟩) ∧
  (∀ (s : Block) (q : List Instr) (a size : Nat),
      s.hostOk = true → ¬ (size = 4 ∧ a % 4 = 0) → ¬ (size = 8 ∧ a % 8 = 0) →
      exec (.unsupportedAccess a size none) ⟨s, q⟩ = .next ⟨s.emit (.unsupported a), q⟩) ∧
  (∀ (s : Block) (q : List Instr) (off : Nat) (data : Bytes),
      s.hostOk = true →
      exec (.windowWrite off data) ⟨s, q⟩ = .next ⟨s.barWrite2 off data, q⟩) ∧
  (∀ (s : Block) (q : List Instr) (a : Nat) (v : Word) (d : Nat),
      s.hostOk = true → windowReg a = some (d, false) →
      exec (.windowDataAccess a (some v)) ⟨s, q⟩ = .next ⟨s.put a v, q⟩) ∧
  (∀ (s : Block) (q : List Instr) (a d : Nat) (act : Bool),
      s.hostOk = true → windowReg a = some (d, act) →
      exec (.windowDataAccess a none) ⟨s, q⟩ = .next ⟨s.winStep d, q⟩) ∧
  (∀ (s : Block) (q : List Instr) (p : Nat) (en : Bool),
      s.hostOk = true → ¬ 0x2C < p → bit (s.reg (R.PAGE_LOCK p)) 0 = false → s.disableRefused p = false →
      exec (.pageEnableWrite p en) ⟨s, q⟩ = .next ⟨(s.setFld (R.PAGE_CTRL p) 0 1 en.toNat).blockFollows p s.act (s.spIn s.act), q⟩) ∧
  (∀ (s : Block) (q : List Instr) (p : Nat),
      s.hostOk = true → ¬ 0x2C < p → bit (s.reg (R.PAGE_LOCK p)) 0 = false → s.resetRefused p = false →
      ((s.cm.list.filter fun c => !(c.stage == .pending && natBit c.pages p)).any fun c => natBit c.pages p) = false →
      exec (.softReset p) ⟨s, q⟩ = .next ⟨({ s with cm := { s.cm with list := s.cm.list.filter fun c => !(c.stage == .pending &&
                                                                        natBit c.pages p) } } : Block).softResetGo p, q⟩) ∧
  (∀ (s : Block) (q : List Instr) (p : Nat),
      ¬ 0x2C < p → bit (s.reg (R.PAGE_CTRL p)) 1 = true → s.cm.resetWait.contains p = false →
      exec (.softResetDone p) ⟨s, q⟩ = .next ⟨s.setFld (R.PAGE_CTRL p) 1 1 0, q⟩) ∧
  (∀ (s : Block) (q : List Instr) (p : Nat),
      s.hostOk = true → ¬ 0x2C < p → bit (s.reg (R.PAGE_LOCK p)) 0 = false →
      exec (.pageFreeze p false) ⟨s, q⟩ = .next ⟨{ s.setFld (R.PAGE_CTRL p) 2 1 0 with frozen := adel (s.setFld (R.PAGE_CTRL p) 2 1 0).frozen p }, q⟩) ∧
  (∀ (s : Block) (q : List Instr) (p : Nat),
      s.hostOk = true → ¬ 0x2C < p → bit (s.reg (R.PAGE_LOCK p)) 0 = false → bit (s.reg (R.PAGE_CTRL p)) 2 = false →
      exec (.pageFreeze p true) ⟨s, q⟩ = .next ⟨(let t := s.setFld (R.PAGE_CTRL p) 2 1 1
      { t with frozen := aput t.frozen p ((heldRegs p).map fun a => (a, t.presentNow a)) }), q⟩) ∧
  (∀ (s : Block) (q : List Instr) (p : Nat) (v : Word),
      s.hostOk = true → ¬ 0x2C < p → bit (s.reg (R.PAGE_LOCK p)) 1 = false →
      exec (.pageLockWrite p v) ⟨s, q⟩ = .next ⟨s.setReg (R.PAGE_LOCK p) (v &&& 3), q⟩) ∧
  (∀ (s : Block) (q : List Instr) (p : Nat) (v : Word),
      s.hostOk = true → ¬ 0x2C < p →
      exec (.intStatusClear p v) ⟨s, q⟩ = .next ⟨(let t := s.setReg (R.INT_STATUS p) (s.reg (R.INT_STATUS p) &&& ~~~v)
      if t.vec p then t.message p else t.unpend p), q⟩) ∧
  (∀ (s : Block) (q : List Instr) (p : Nat) (v : Word),
      s.hostOk = true → ¬ 0x2C < p →
      exec (.intForce p v) ⟨s, q⟩ = .next ⟨s.setInt p v, q⟩)

/-- The USB4 link, the PCIe function, Panel Replay, the USB 2.0 function and the clocks: each command runs. A link change,
an unsupported offer of codes 1 to 9, a function-level reset, a D-state change, the entry and the update of Panel
Replay, a USB 2.0 request that is served, a summary delivery on a change, and the failure and return of either clock
each answer a next state with the effect named. (derived: R164, R165, R166, R168, R174, R175, R176, R177, R661, R662) -/
def Obligations.HostLinkCommandsRun : Prop :=
  (∀ (s : Block) (q : List Instr) (l : LinkState),
      exec (.usb4LinkChange l) ⟨s, q⟩ = .next ⟨s.linkChange l, q⟩) ∧
  (∀ (s : Block) (q : List Instr) (code a : Nat),
      code ≠ 0 → ¬ 9 < code → code ≠ 6 →
      exec (.unsupportedOffer code a) ⟨s, q⟩ = .next ⟨(let t := if code = 4 then s.setFld R.HOST_STATUS 1 1 1 else s
      let t := (t.bump R.HOST_UNSUP_COUNT).setReg R.HOST_UNSUP_LAST (w32 code)
      t.post 0x03 0x021 [w32 code, t.reg R.HOST_UNSUP_COUNT]), q⟩) ∧
  (∀ (s : Block) (q : List Instr) (a : Nat),
      exec (.unsupportedOffer 6 a) ⟨s, q⟩ = .next ⟨s.dscRefuse (a % 2), q⟩) ∧
  (∀ (s : Block) (q : List Instr),
      exec (.functionLevelReset) ⟨s, q⟩ = .next ⟨s.flr, q⟩) ∧
  (∀ (s : Block) (q : List Instr) (d3 : Bool) (cfg : PcieCfg),
      exec (.pciePowerStateChange d3 cfg) ⟨s, q⟩ = .next ⟨(s.configure cfg).setFld R.HOST_STATUS 2 1 d3.toNat, q⟩) ∧
  (∀ (s : Block) (q : List Instr) (a : Nat),
      ¬ 2 ≤ a → s.fld (R.HOST_DP_STATUS a) 0 3 = 3 → bit (s.dpCaps a) 9 = true →
      exec (.panelReplayEntry a) ⟨s, q⟩ = .next ⟨({ s with hs := { s.hs with prAt := s.now, prIn := setAt s.hs.prIn a true,
                                                                             prUpdate := setAt s.hs.prUpdate a false } } : Block).setFld
        (R.HOST_DP_STATUS a) 10 1 1, q⟩) ∧
  (∀ (s : Block) (q : List Instr) (a : Nat),
      ¬ 2 ≤ a → s.hs.prIn.getD a false = true →
      exec (.panelReplayUpdate a) ⟨s, q⟩ = .next ⟨({ s with hs := { s.hs with prIn := setAt s.hs.prIn a false,
                                                                              prUpdate := setAt s.hs.prUpdate a true } } : Block).setFld
        (R.HOST_DP_STATUS a) 10 1 0, q⟩) ∧
  (∀ (s : Block) (q : List Instr) (r : UsbRequest),
      (s.setFld R.HOST_STATUS 2 1 0).hostOk = true →
      exec (.usb2Request r) ⟨s, q⟩ = .next ⟨(let t := s.setFld R.HOST_STATUS 2 1 0
      let x := t.usbServe r
      let u := if x.2.2.pw.state = .boot then x.2.2 else x.2.2.setFld R.HOST_STATUS 2 1 (s.fld R.HOST_STATUS 2 1)
      let u := u.emit (.usb (usbHeader r x.1 ++ x.2.1))
      if x.1 = 0 then u else u.bump R.HOST_USB2_ERR), q⟩) ∧
  (∀ (s : Block) (q : List Instr),
      ¬ (s.summary false = s.hs.sum0 ∧ s.summary true = s.hs.sum1) → s.hs.usbAt ≠ some (s.now / 125000) →
      exec (.usb2SummaryDelivery) ⟨s, q⟩ = .next ⟨({ s with hs := { s.hs with sum0 := s.summary false, sum1 := s.summary true,
                                                                              usbAt := some (s.now / 125000) } } : Block).emit
        (.usb (leBytes 4 (s.summary false).toNat ++ leBytes 4 (s.summary true).toNat)), q⟩) ∧
  (∀ (s : Block) (q : List Instr),
      s.holdable = true →
      exec (.refclkFailure) ⟨s, q⟩ = .next ⟨{ s.resetHold (some 2) with pins := { (s.resetHold (some 2)).pins with refclkOk := false } }, q⟩) ∧
  (∀ (s : Block) (q : List Instr) (src : Nat),
      exec (.refclkRecovered src) ⟨s, q⟩ = .next ⟨(({ s with pins := { s.pins with refclkOk := true } } : Block).resetRelease src), q⟩) ∧
  (∀ (s : Block) (q : List Instr),
      s.holdable = true →
      exec (.xtal25Fault) ⟨s, q⟩ = .next ⟨{ s.resetHold none with pins := { (s.resetHold none).pins with xtalOk := false } }, q⟩) ∧
  (∀ (s : Block) (q : List Instr) (src : Nat),
      exec (.xtal25Recovered src) ⟨s, q⟩ = .next ⟨(({ s with pins := { s.pins with xtalOk := true } } : Block).resetRelease src), q⟩)

/-- Supplies, resets and the power-fail warning: each command runs, and what it leaves. Entry to and loss of the always-on
domain, PORST_N, the supply monitor, a warm reset by the host or over the fabric, and the four commands of the power-
fail warning each answer a next state with the resets, causes and records the rules name. (derived: R127, R128, R129,
R130, R131, R132, R133, R134, R136, R137, R139, R144) -/
def Obligations.PowerCommandsRun : Prop :=
  (∀ (s : Block) (q : List Instr),
      s.pw.state = .off →
      exec (.vddAonValid) ⟨s, q⟩ = .next ⟨(let t := (s.resetKeep false).setRegs (aonRegs.map fun a => (a, 0))
      (({ t with pins := { t.pins with vddAon := true } } : Block).cause 0).place .aon .off 0), q⟩) ∧
  (∀ (s : Block) (q : List Instr),
      s.pw.state ≠ .off →
      exec (.vddAonLoss) ⟨s, q⟩ = .next ⟨(let t := (s.resetKeep false).setRegs (aonRegs.map fun a => (a, 0))
      ({ t with pins := { t.pins with vddAon := false } } : Block).place .off s.pw.state 0), q⟩) ∧
  (∀ (s : Block) (q : List Instr),
      s.pw.state ≠ .off → s.pw.state ≠ .aon → s.pw.coreGated = false →
      exec (.porstNAssert) ⟨s, q⟩ = .next ⟨((({ s with pins := { s.pins with porstN := false } } : Block).resetKeep false).cause 1).place .aon s.pw.state 0x12, q⟩) ∧
  (∀ (s : Block) (q : List Instr) (src : Nat),
      s.pw.state = .aon → s.pw.heldReset = false → s.pw.coreGated = false → s.clocksOk = true →
      exec (.porstNRelease src) ⟨s, q⟩ = .next ⟨({ s with pins := { s.pins with porstN := true } } : Block).startBoot s.pw.reason (some src), q⟩) ∧
  (∀ (s : Block) (q : List Instr) (rail : Nat),
      ¬ 12 ≤ rail → s.holdable = true →
      exec (.railOutOfTolerance rail) ⟨s, q⟩ = .next ⟨
          ((s.resetHold (some 2)).setFld R.PWR_RAIL_FAULT rail 1 1).setFld R.PWR_RAIL_STATUS rail 1 0, q⟩) ∧
  (∀ (s : Block) (q : List Instr) (src : Nat),
      s.pw.state = .aon → s.pw.heldReset = true →
      exec (.railsRestored src) ⟨s, q⟩ = .next ⟨(s.setReg R.PWR_RAIL_STATUS 0xFFF).resetRelease src, q⟩) ∧
  (∀ (s : Block) (q : List Instr) (v : Word),
      s.hostOk = true → bits v 16 16 = 0x5752 → bit v 0 = true → s.pw.state.lightOn = false →
      exec (.warmReset v) ⟨s, q⟩ = .next ⟨s.warmReset 3, q⟩) ∧
  (∀ (s : Block) (q : List Instr) (v : Word),
      s.hostOk = true → bits v 16 16 = 0x5752 → bit v 0 = true → bit v 1 = true →
      exec (.warmReset v) ⟨s, q⟩ = .next ⟨s.warmReset 3, q⟩) ∧
  (∀ (s : Block) (q : List Instr) (p src : Nat) (d : Bytes),
      s.fabOn = true → ¬ 4 ≤ p → padBytes 8 d = s.uidBytes → bit (s.reg R.PWR_FABRIC_RESET) 0 = true →
      s.afld R.WPX_ADMIT_CFG 0 2 = 0 → s.pw.state.lightOn = false →
      exec (.fabricResetReq p src d) ⟨s, q⟩ = .next ⟨s.warmReset 4, q⟩) ∧
  (∀ (s : Block) (q : List Instr),
      s.pw.pfAsserted = false → s.pw.state ≠ .off → s.pw.state ≠ .aon → s.pw.coreGated = false → s.se.wr = none →
      exec (.pfWarn) ⟨s, q⟩ = .next ⟨(let w := { s.pw with pfAsserted := true, pfActed := false, pfRecovering := false, pfSince := s.now,
                                                           pfRecordDone := false, pfRec := (0, 0, 0) }
      let t : Block := { s with pins := { s.pins with pwrFailN := false }, pw := w }
      (t.bump R.PWR_PF_COUNT).post 0x01 0x012 [w32 0]), q⟩) ∧
  (∀ (s : Block) (q : List Instr),
      s.pw.pfAsserted = true → s.pw.pfActed = false → s.pw.coreGated = false →
      (s.advance (s.pw.pfSince + s.fld R.PWR_PF_CFG 0 8 * 1000 - s.now)).pw.state = .lit →
      exec (.pfLaserCut) ⟨s, q⟩ = .next ⟨(s.advance (s.pw.pfSince + s.fld R.PWR_PF_CFG 0 8 * 1000 - s.now)).laserCut, q⟩) ∧
  (∀ (s : Block) (q : List Instr),
      s.pw.pfAsserted = true → s.pw.pfActed = false →
      exec (.pfDeassert) ⟨s, q⟩ = .next ⟨(let w := { s.pw with pfAsserted := false, pfRecovering := true,
                                                               pfRideThrough := satN 16 (s.pw.pfRideThrough + 1) }
      let t : Block := { s with pins := { s.pins with pwrFailN := true }, pw := w }
      let u := t.post 0x01 0x014 [w32 (satN 32 ((s.now - s.pw.pfSince) / 1000)), pk 1 0 0 0]
      { u.blowHeld with pw := { u.pw with pfSince := u.now } }), q⟩) ∧
  (∀ (s : Block) (q : List Instr),
      s.pw.pfRecovering = true → s.pw.pfAsserted = false →
      exec (.pfRecovered) ⟨s, q⟩ = .next ⟨(let t := s.advance (s.pw.pfSince + s.fld R.PWR_PF_CFG 16 10 * 1000000 - s.now)
      { t with pw := { t.pw with pfRecovering := false, pfCut := false } }), q⟩)

/-- The boot chain, firmware commands and housekeeping restarts: each command runs, and what it leaves. A boot source that
fails, the end of the boot chain, FW_STAGE, FW_ACTIVATE of each kind in its own case, the passing and the failing of a
trial, the supervisor's self-test, and the start, the end and the loss of a housekeeping restart each answer a next
state with the named effect. (derived: R31, R32, R36, R144, R150, R153, R156, R158, R159, R160, R161, R162) -/
def Obligations.BootAndFirmwareCommandsRun : Prop :=
  (∀ (s : Block) (q : List Instr),
      s.pw.state = .boot → s.bootSource ≠ 1 →
      exec (.bootSourceTimeout false) ⟨s, q⟩ = .next ⟨(let x := s.bootFault
      let t : Block := { s with bt := { s.bt with trying := s.bt.trying + 1, image := [], imageLen := 0, neighbour := none }, fb := Block.reset.fb }
      let t := t.setReg R.BOOT_FAIL_INFO (w32 (x.1 % 256 + 256 * (x.2.1 % 4) + 1024 * (x.2.2 % 2)))
      if t.bootSource = 1 then t.setFld R.BOOT_STATUS 4 2 2 else t), q⟩) ∧
  (∀ (s : Block) (q : List Instr) (f : BootFacts) (s1 : Option Nat) (hk sv : Nat),
      s.pw.state = .boot → s.bootPick = some (s1, hk, sv) →
      exec (.bootComplete f) ⟨s, q⟩ = .next ⟨s.bootDone f s1 hk sv, q⟩) ∧
  (∀ (s : Block) (q : List Instr) (cseq : Word) (host : Option Bytes) (c : Cmd) (t : Block) (bs : List Byte),
      s.startable cseq 4 = some c → c.par 16 1 ≤ 2 → c.par 17 1 ≤ 2 → 1152 ≤ c.par 20 4 →
      c.par 20 4 ≤ slotSize (c.par 16 1 + 1) - 32 → s.bt.fwStage = none → (c.par 17 1 = 1 ∨ host.isSome = true) →
      s.readBuf (c.par 17 1 == 1) (c.par 24 8) (c.par 20 4) (host.getD []) = (t, some bs) →
      exec (.fwStage cseq host) ⟨s, q⟩ = .next ⟨(let run := match c.par 16 1 with | 0 => t.bt.s1.running | 1 => t.bt.hk.running | _ => t.bt.sv.running
      let u := (t.modSlots (c.par 16 1) fun x => ({ x with staged := false } : ImageSlots).put (1 - run) none).bootRegs
      ((({ u with bt := { u.bt with fwStage := some c.cseq } } : Block).seedAsk
        (recordReq (c.par 16 1 + 1) false bs (some c.cseq) .stage)).setStage c.cseq 1)), q⟩) ∧
  (∀ (s : Block) (q : List Instr) (cseq : Word) (c : Cmd),
      s.startable cseq 5 = some c → c.par 16 1 = 1 → (((c.param.take 16).drop 1).any (· != 0)) = false → s.bt.hk.ready = true →
      exec (.fwActivateHk cseq) ⟨s, q⟩ = .next ⟨(let t := (s.complete c.cseq 0).measure 6 (match s.bt.hk.other with | some i => i.digest | none => [])
      ((t.modSlots 1 fun x => { x with trial := true }).bootRegs).hkRestart 0), q⟩) ∧
  (∀ (s : Block) (q : List Instr) (cseq : Word) (c : Cmd),
      s.startable cseq 5 = some c → c.par 16 1 = 2 → (((c.param.take 16).drop 1).any (· != 0)) = false → s.pw.stateSet = none →
      s.pw.state = .standby → s.bt.sv.ready = true →
      exec (.fwActivateSv cseq) ⟨s, q⟩ = .next ⟨(let t := (s.complete c.cseq 0).measure 6 (match s.bt.sv.other with | some i => i.digest | none => [])
      let t : Block := { t with bt := { t.bt with svTrial := true }, fl := { t.fl with svRunning := false, svSelfTest := true } }
      (t.modSlots 2 fun x => { x with trial := true }).bootRegs), q⟩) ∧
  (∀ (s : Block) (q : List Instr) (cseq : Word) (c : Cmd),
      s.startable cseq 5 = some c → c.par 16 1 = 3 → (((c.param.take 16).drop 1).any (· != 0)) = false →
      ¬ s.runningRollback ≤ s.fld R.BOOT_ROLLBACK 0 7 → ¬ 64 < s.runningRollback →
      exec (.fwActivateRollback cseq) ⟨s, q⟩ = .next ⟨((s.numRecord 6 s.runningRollback (some c.cseq) .rollback).setStage c.cseq 1), q⟩) ∧
  (∀ (s : Block) (q : List Instr) (h : HkRestart),
      s.bt.hkRestart = some h → s.bt.hk.trial = true → ¬ h.since + 300000000 < s.now →
      exec (.fwTrialPass) ⟨s, q⟩ = .next ⟨(let n := 1 - s.bt.hk.running
      let t := (s.bump R.DEV_HEARTBEAT).modSlots 1 fun x => { x with running := n, selector := n, staged := false, trial := false }
      let t := t.hkEnd.bootRegs
      (t.numRecord 4 n none .hkSel).post 0x02 0x016 [pk 1 0 0 0, slotVersion s.bt.hk.other, slotVersion s.bt.hk.other]), q⟩) ∧
  (∀ (s : Block) (q : List Instr) (h : HkRestart),
      s.bt.hkRestart = some h → s.bt.hk.trial = true →
      exec (.fwTrialFail) ⟨s, q⟩ = .next ⟨(let t := s.advance (h.since + 300000000 - s.now)
      let t : Block := { t with bt := { t.bt with hkRestart := some { h with tried := some (slotVersion s.bt.hk.other) } } }
      (t.modSlots 1 fun x => { x with trial := false }).bootRegs), q⟩) ∧
  (∀ (s : Block) (q : List Instr),
      s.bt.svTrial = false → s.fl.svSelfTest = true →
      exec (.svSelftestDone true) ⟨s, q⟩ = .next ⟨s.svUp, q⟩) ∧
  (∀ (s : Block) (q : List Instr) (v : Word),
      s.hostOk = true → bits v 16 16 = 0x4852 → s.hkMay = true →
      exec (.hkRestartRequest v) ⟨s, q⟩ = .next ⟨s.hkRestart 2, q⟩) ∧
  (∀ (s : Block) (q : List Instr),
      s.hkMay = true →
      exec (.hkWatchdogExpiry) ⟨s, q⟩ = .next ⟨s.hkRestart 1, q⟩) ∧
  (∀ (s : Block) (q : List Instr),
      s.bt.hk.trial = false →
      exec (.hkRestartEnd) ⟨s, q⟩ = .next ⟨s.hkEnd, q⟩) ∧
  (∀ (s : Block) (q : List Instr) (h : HkRestart),
      s.bt.hkRestart = some h → s.bt.mgmtLost = false →
      exec (.mgmtLost) ⟨s, q⟩ = .next ⟨s.mgmtGone h.since, q⟩)

/-- STATE_SET to each target, the failure of a bring-up, MAp_RDY_N and chain enumeration: each command runs. From the state
its row of Table 4.3 names, with a mask of groups that exist and no request under way, STATE_SET brings the units up,
stands down, starts groups or stops them; a bring-up that fails, the fall of MAp_RDY_N, an enumeration and its retry
have the effects named. (derived: R121, R122, R123, R124, R298, R378, R380, R635) -/
def Obligations.StateSetAndBringUpCommandsRun : Prop :=
  (∀ (s : Block) (q : List Instr) (cseq : Word) (c : Cmd),
      s.startable cseq 3 = some c → s.ssRow c = 0 → ¬ 32 ≤ c.ssMask → s.pw.stateSet = none → s.pw.state = .standby →
      (s.fl.recs.any fun e => e.2.isOpen && e.2.page == 0x02 && e.2.code == 0x193) = false →
      exec (.stateSetReady cseq) ⟨s, q⟩ = .next ⟨((((s.stateSetRuns { cseq := c.cseq, target := 4, mask := 0, wait := 0,
                                                                      since := c.acceptAt }).pairsUp.portsOn.foldl Block.startPort
        (s.stateSetRuns { cseq := c.cseq, target := 4, mask := 0, wait := 0, since := c.acceptAt }).pairsUp)).tryReady), q⟩) ∧
  (∀ (s : Block) (q : List Instr) (cseq : Word) (c : Cmd),
      s.startable cseq 3 = some c → s.ssRow c = 1 → ¬ 32 ≤ c.ssMask → s.pw.stateSet = none → s.pw.state = .ready →
      exec (.stateSetStandby cseq) ⟨s, q⟩ = .next ⟨(((s.standDown.goto .standby 2 (s.usSince c.acceptAt)).refreshMembers).complete c.cseq 0).standbyInputs, q⟩) ∧
  (∀ (s : Block) (q : List Instr) (cseq : Word) (c : Cmd),
      s.startable cseq 3 = some c → s.ssRow c = 2 → ¬ 32 ≤ c.ssMask → s.pw.stateSet = none → s.mayLight = true →
      (maskBits 5 c.ssMask).any s.groupLacks = false →
      ((maskBits 5 c.ssMask).all fun g => (s.grp g).lit && !(s.grp g).starting) = false →
      exec (.stateSetLit cseq) ⟨s, q⟩ = .next ⟨s.stateSetRuns { cseq := c.cseq, target := 5, mask := c.ssMask,
                                                                wait := s.lightWait, since := c.acceptAt }, q⟩) ∧
  (∀ (s : Block) (q : List Instr) (cseq : Word) (c : Cmd),
      s.startable cseq 3 = some c → s.ssRow c = 3 → ¬ 32 ≤ c.ssMask → s.pw.stateSet = none →
      exec (.stateSetExtinguish cseq) ⟨s, q⟩ = .next ⟨s.setExtinguish c, q⟩) ∧
  (∀ (s : Block) (q : List Instr) (hw : List (Nat × Nat)) (o : StateSetOp),
      s.bringing = some o → s.unitsFailed ++ (hw.map fun u => (u.1, u.2, 0)) ≠ [] →
      exec (.bringupFailed hw) ⟨s, q⟩ = .next ⟨(s.hwFail (s.pw.hwBad ++ hw).eraseDups).bringupFail o (s.unitsFailed ++
          (hw.map fun u => (u.1, u.2, 0))), q⟩) ∧
  (∀ (s : Block) (q : List Instr) (p : Nat),
      p < 4 →
      exec (.maRdyNLow p) ⟨s, q⟩ = .next ⟨s.rdyLow p, q⟩) ∧
  (∀ (s : Block) (q : List Instr) (c n : Nat) (ids : List (Word × Word)),
      s.enumAllowed c = true → n ≤ 64 →
      exec (.chainEnum c n ids) ⟨s, q⟩ = .next ⟨(let t := s.enumerate c n ids
      (t.setReg R.CHAIN_CMD (setBit (t.reg R.CHAIN_CMD) c false)).tryReady), q⟩) ∧
  (∀ (s : Block) (q : List Instr) (c n : Nat) (ids : List (Word × Word)),
      c < 4 → (s.chn c).st = 4 → (s.chn c).breakAt + 100000000 ≤ s.now → 1 ≤ n → n ≤ 64 →
      exec (.chainEnumRetry c n ids) ⟨s, q⟩ = .next ⟨(((s.modChn c fun k => { k with breakAt := s.now }).enumerate c n ids).tryReady), q⟩)

/-- The front end of the command ring: each of its commands runs, and what it leaves. TAIL writes within the ring, the
enables, RESYNC, a fetch with the expected CSEQ and a fetch fault each answer a next state: the registers, the status
bits and the events the rules name change, and through the named operations nothing else.  The fetch clause is for a
ring in host memory. (derived: R96, R105, R106, R107, R108, R109, R110, R111) -/
def Obligations.RingCommandsRun : Prop :=
  (∀ (s : Block) (q : List Instr) (v : Word),
      s.hostOk = true → bit (s.reg (R.PAGE_LOCK 4)) 0 = false → (v - s.reg R.RING_CMD_HEAD).toNat ≤ s.cmdEntries →
      exec (.ringCmdTailWrite v) ⟨s, q⟩ = .next ⟨s.setReg R.RING_CMD_TAIL v, q⟩) ∧
  (∀ (s : Block) (q : List Instr) (v : Word),
      s.hostOk = true → bit (s.reg (R.PAGE_LOCK 4)) 0 = false →
      exec (.ringEvtHeadWrite v) ⟨s, q⟩ = .next ⟨s.evtHead v, q⟩) ∧
  (∀ (s : Block) (q : List Instr),
      s.hostOk = true → bit (s.reg (R.PAGE_LOCK 4)) 0 = false → bit (s.reg R.RING_CTRL) 0 = false →
      bit (setBit (s.reg R.RING_CTRL) 0 true) 0 = true → bit (setBit (s.reg R.RING_CTRL) 0 true) 1 = bit (s.reg R.RING_CTRL) 1 →
      exec (.cmdEnSet) ⟨s, q⟩ = .next ⟨(let t := s.setReg R.RING_CTRL (w32 (bits (setBit (s.reg R.RING_CTRL) 0 true) 0 4))
        (t.setReg R.RING_CMD_HEAD (t.reg R.RING_CMD_TAIL)).setFld R.RING_STATUS 1 1 0), q⟩) ∧
  (∀ (s : Block) (q : List Instr),
      s.hostOk = true → bit (s.reg (R.PAGE_LOCK 4)) 0 = false →
      exec (.cmdEnClear) ⟨s, q⟩ = .next ⟨s.ringCtrl (setBit (s.reg R.RING_CTRL) 0 false), q⟩) ∧
  (∀ (s : Block) (q : List Instr),
      s.hostOk = true → bit (s.reg (R.PAGE_LOCK 4)) 0 = false →
      exec (.evtEnSet) ⟨s, q⟩ = .next ⟨s.ringCtrl (setBit (s.reg R.RING_CTRL) 1 true), q⟩) ∧
  (∀ (s : Block) (q : List Instr),
      s.hostOk = true → bit (s.reg (R.PAGE_LOCK 4)) 0 = false →
      exec (.evtEnClear) ⟨s, q⟩ = .next ⟨s.ringCtrl (setBit (s.reg R.RING_CTRL) 1 false), q⟩) ∧
  (∀ (s : Block) (q : List Instr) (v : Word),
      s.hostOk = true →
      exec (.ringCmdResync v) ⟨s, q⟩ = .next ⟨((s.setReg R.RING_CMD_SEQ_EXPECT v).setFld R.RING_STATUS 0 1 0).postCseq 0x00D [s.reg R.RING_CMD_SEQ_EXPECT, v], q⟩) ∧
  (∀ (s : Block) (q : List Instr) (host : Bytes),
      s.fetching = true → bit (s.reg R.RING_CTRL) 2 = false → s.tunnelUp = true →
      exec (.cmdFetch host) ⟨s, q⟩ = .next ⟨(let e := padBytes 64 host
      if w32 (field e 0 4) = s.reg R.RING_CMD_SEQ_EXPECT then (s.take e).calAccept (w32 (field e 0 4)) else s.take e), q⟩) ∧
  (∀ (s : Block) (q : List Instr) (kind : Nat),
      s.fetching = true →
      exec (.cmdFetchFault kind) ⟨s, q⟩ = .next ⟨(s.setFld R.RING_STATUS 1 1 1).post 0x04 0x00E [s.reg R.RING_CMD_HEAD, w32 kind], q⟩)

/-- The event writer and the commands NOP, reserved opcodes and SNAPSHOT run, and what each leaves. EVENT_WRITE, its fault
and the moderation timer run while events are enabled; NOP completes with status 0, a reserved opcode with BAD_OPCODE,
SNAPSHOT with a buffer of 256 KiB or more waits for the next boundary, and a capture dumps the state for each that is due and then
writes the dumps.
(derived: R96, R113, R114, R115, R118, R668) -/
def Obligations.EventRingCommandsRun : Prop :=
  (∀ (s : Block) (q : List Instr),
      s.hostOk = true → bit (s.reg R.RING_CTRL) 1 = true →
      exec (.eventWrite) ⟨s, q⟩ = .next ⟨s.eventWrite, q⟩) ∧
  (∀ (s : Block) (q : List Instr) (e : Event) (l : List Event),
      s.hostOk = true → bit (s.reg R.RING_CTRL) 1 = true → s.nextEvent = some (e, l) →
      exec (.eventWriteFault) ⟨s, q⟩ = .next ⟨({ s with rg := { s.rg with evq := l } } : Block).loseEvent.setFld R.RING_STATUS 5 1 1, q⟩) ∧
  (∀ (s : Block) (q : List Instr) (t : Nat),
      s.rg.modSince = some t → s.fld R.RING_EVT_MOD 16 16 ≠ 0 → s.rg.vec63 = false →
      exec (.evtModTimeout) ⟨s, q⟩ = .next ⟨(s.advance (t + s.fld R.RING_EVT_MOD 16 16 * 1000 - s.now)).raise63, q⟩) ∧
  (∀ (s : Block) (q : List Instr) (cseq : Word) (c : Cmd),
      s.startable cseq 1 = some c →
      exec (.nop cseq) ⟨s, q⟩ = .next ⟨s.complete cseq 0, q⟩) ∧
  (∀ (s : Block) (q : List Instr) (cseq : Word) (c : Cmd),
      s.cmd cseq = some c → (c.opcode = 0 ∨ 0x10 ≤ c.opcode) → c.stage = 0 → s.hkUp = true → c.fence = false →
      exec (.badOpcode cseq) ⟨s, q⟩ = .next ⟨s.complete cseq 1, q⟩) ∧
  (∀ (s : Block) (q : List Instr) (cseq : Word) (c : Cmd),
      s.startable cseq 2 = some c → 262144 ≤ c.par 28 4 →
      exec (.snapshot cseq) ⟨s, q⟩ = .next ⟨({ s with rg := { s.rg with snapWait := s.rg.snapWait ++ [cseq] } } : Block).setStage cseq 2, q⟩) ∧
  (∀ (s : Block) (q : List Instr) (xok : Bool),
      exec (.snapshotCapture xok) ⟨s, q⟩ = .next ⟨(s.rg.snapDue.map fun c => (c, s.snapDump c)).foldl (fun t d => t.snapWrite d.1 d.2 xok)
        { s with rg := { s.rg with snapDue := [] } }, q⟩)

/-- The commands of the fabric links and modules run, and what each leaves. A LINK_CTRL is sent and one that arrives is
applied; an audit sets the account; a time-out replays or retrains; a port aligns or keeps trying; a module is inserted,
polled and removed; a frame arrives with its codewords counted; a frame for the host is stored; a legal FABRIC_SEND
leaves by its route or its tree. (derived: R535, R536, R539, R542, R544, R545, R547, R558, R559) -/
def Obligations.FabricLinkCommandsRun : Prop :=
  (∀ (s : Block) (q : List Instr) (p : Nat),
      s.linkUp p = true → (s.fport p).ackDue = true →
      exec (.linkCtrlSend p) ⟨s, q⟩ = .next ⟨(s.advance ((s.fport p).lastCtrl + 1000 - s.now)).linkCtrl p false false, q⟩) ∧
  (∀ (s : Block) (q : List Instr) (p : Nat),
      s.linkUp p = true → (s.fport p).replay ≠ [] →
      exec (.retryTimeout p) ⟨s, q⟩ = .next ⟨(s.advance ((s.fport p).progressAt + 10 * s.afld (R.WPXP_RETRY_CFG p) 0 16 - s.now)).retry p, q⟩) ∧
  (∀ (s : Block) (q : List Instr) (p : Nat) (d : Bytes),
      s.linkUp p = true →
      exec (.linkCtrl p d) ⟨s, q⟩ = .next ⟨s.linkCtrlIn p d (natBit (field d 2 1) 1), q⟩) ∧
  (∀ (s : Block) (q : List Instr) (p : Nat) (d : Bytes),
      s.linkUp p = true →
      exec (.creditAudit p d) ⟨s, q⟩ = .next ⟨s.linkCtrlIn p d true, q⟩) ∧
  (∀ (s : Block) (q : List Instr) (p : Nat) (nonce : Bytes),
      (s.fport p).st = 3 → s.fEn p = true →
      exec (.fabricLinkUp p nonce) ⟨s, q⟩ = .next ⟨s.fLinkUp p nonce, q⟩) ∧
  (∀ (s : Block) (q : List Instr) (p : Nat),
      (s.fport p).st = 3 →
      exec (.alignmentTimeout p) ⟨s, q⟩ = .next ⟨(let t := s.advance ((s.fport p).since + 500000000 - s.now)
      (t.fGoto p 2).modF p fun k => { k with since := t.now }), q⟩) ∧
  (∀ (s : Block) (q : List Instr) (p id temp : Nat),
      p < 4 → ({ s with pins := { s.pins with modPrsN := setAt s.pins.modPrsN p false } } : Block).hkUp = true →
      exec (.moduleInserted p id temp) ⟨s, q⟩ = .next
        ⟨(let u : Block := { s with pins := { s.pins with modPrsN := setAt s.pins.modPrsN p false } }
          let t := u.modF p fun k => { k with modId := id % 256, modTemp := temp % 256, polled := s.now }
          if t.fEn p then t.fRefresh p else t.moduleFollows p), q⟩) ∧
  (∀ (s : Block) (q : List Instr) (p : Nat) (flags : Word) (temp : Nat),
      s.hkUp = true → s.pins.modPrsN.getD p true = false →
      exec (.modulePoll p flags temp true false) ⟨s, q⟩ = .next ⟨(s.modulePolled p temp true).moduleAlarm p flags, q⟩) ∧
  (∀ (s : Block) (q : List Instr) (p : Nat) (flags : Word) (temp : Nat),
      s.hkUp = true → s.pins.modPrsN.getD p true = false →
      exec (.modulePoll p flags temp false false) ⟨s, q⟩ = .next ⟨(s.modulePolled p temp false).autoClose (0x22 + p) 0x1C9 fun d => decide (d.toNat % 256 = p), q⟩) ∧
  (∀ (s : Block) (q : List Instr) (p : Nat),
      p < 4 →
      exec (.moduleRemoved p) ⟨s, q⟩ = .next ⟨(({ s with pins := { s.pins with modPrsN := setAt s.pins.modPrsN p true } } : Block).modF p fun k => { k with modId := 0, modTemp := 0, modAlarm := false }).fRefresh p, q⟩) ∧
  (∀ (s : Block) (q : List Instr) (frame : Bytes),
      s.fabOn = true → 0x80 ≤ fproto frame →
      exec (.hostFrameRx frame) ⟨s, q⟩ = .next ⟨s.hostRx frame, q⟩) ∧
  (∀ (s : Block) (q : List Instr) (p : Nat) (d : Bytes),
      s.linkUp p = true →
      exec (.fabricFrameReceived p d 0 0) ⟨s, q⟩ = .next ⟨s.frameIn p d false, q⟩) ∧
  (∀ (s : Block) (q : List Instr) (p : Nat) (d : Bytes) (corr uncorr : Nat),
      s.linkUp p = true → s.abit (R.WPXP_CFG p) 1 = true → corr ≠ 0 → uncorr ≠ 0 →
      exec (.fabricFrameReceived p d corr uncorr) ⟨s, q⟩ = .next ⟨
          ((((s.bump (R.WPXP_FEC_CORR p) corr).postTally 0x1D2 p).bump (R.WPXP_FEC_UNCORR p) uncorr).frameIn p d true), q⟩) ∧
  (∀ (s : Block) (q : List Instr) (cseq : Word) (d : Bytes) (c : Cmd) (r : Nat × Bool),
      s.startable cseq 0xC = some c → sendParams c = true → c.par 17 1 = 0 → s.fabOn = true → s.fb.addr ≠ 0 →
      s.routeOf (c.par 18 2) = some r →
      exec (.fabricSend cseq (some d)) ⟨s, q⟩ = .next ⟨s.sendMsg c (padBytes (c.par 20 4) d) (some r), q⟩) ∧
  (∀ (s : Block) (q : List Instr) (cseq : Word) (d : Bytes) (c : Cmd),
      s.startable cseq 0xC = some c → sendParams c = true → c.par 17 1 = 1 → s.fabOn = true → s.fb.addr ≠ 0 →
      exec (.fabricSend cseq (some d)) ⟨s, q⟩ = .next ⟨s.sendMsg c (padBytes (c.par 20 4) d) none, q⟩)

/-- The commands of discovery, routes, fabric time, admission and the boot service run, and what each leaves. A HELLO is
sent and heard; a neighbour that is lost is dropped; traffic moves to ALT; records are originated, taken and aged out;
the root passes and addresses are assigned; the hold expires and the shadow table is swapped in; SYNC and PDELAY run;
admission proceeds and is retried; a boot request is served. (derived: R548, R549, R550, R551, R552, R553, R561, R562,
R566, R567) -/
def Obligations.FabricRouteCommandsRun : Prop :=
  (∀ (s : Block) (q : List Instr) (p : Nat),
      (s.fport p).st = 6 →
      exec (.helloSend p) ⟨s, q⟩ = .next ⟨(let t := s.advance ((s.fport p).lastHello + 10000000 - s.now)
      (t.modF p fun k => { k with lastHello := t.now }).sendLocal p 2 0x10 (t.helloBytes p)), q⟩) ∧
  (∀ (s : Block) (q : List Instr) (p : Nat) (d : Bytes),
      (s.fport p).st = 6 → s.admitMismatch p (field d 0 8) = false →
      exec (.hello p d) ⟨s, q⟩ = .next ⟨s.helloIn p d, q⟩) ∧
  (∀ (s : Block) (q : List Instr) (p : Nat),
      s.linkUp p = true →
      exec (.neighbourDown p true) ⟨s, q⟩ = .next ⟨s.retrain p 1, q⟩) ∧
  (∀ (s : Block) (q : List Instr) (p t : Nat),
      s.linkUp p = true → (s.fport p).heard = some t →
      exec (.neighbourDown p false) ⟨s, q⟩ = .next ⟨(s.advance (t + 40000000 - s.now)).nbrDrop p, q⟩) ∧
  (∀ (s : Block) (q : List Instr) (p : Nat),
      (s.fport p).st ≠ 6 →
      exec (.altFailover p) ⟨s, q⟩ = .next ⟨s.modF p fun k => { k with alt := true }, q⟩) ∧
  (∀ (s : Block) (q : List Instr),
      s.fabOn = true → s.fb.lsaDue = true →
      exec (.lsaOriginate) ⟨s, q⟩ = .next ⟨s.originate, q⟩) ∧
  (∀ (s : Block) (q : List Instr) (p : Nat) (d : Bytes),
      (s.fport p).st = 6 →
      exec (.lsa p d) ⟨s, q⟩ = .next ⟨s.lsaIn p d, q⟩) ∧
  (∀ (s : Block) (q : List Instr) (uid : Nat) (l : Lsa),
      lsaOf s.fb.lsas uid = some l → s.fabOn = true → uid ≠ s.uidNat →
      exec (.lsaAgeOut uid) ⟨s, q⟩ = .next ⟨(s.advance (l.stored + 4 * s.afld R.WPX_ROUTE_CFG 16 8 * 1000000000 - s.now)).lsaDrop uid, q⟩) ∧
  (∀ (s : Block) (q : List Instr),
      s.fabOn = true →
      exec (.rootAndAddresses) ⟨s, q⟩ = .next ⟨s.rootPass, q⟩) ∧
  (∀ (s : Block) (q : List Instr) (p : Nat) (d : Bytes),
      (s.fport p).st = 6 →
      exec (.assign p d) ⟨s, q⟩ = .next ⟨s.assignIn p d, q⟩) ∧
  (∀ (s : Block) (q : List Instr) (t : Nat),
      s.fb.changeAt = some t → s.fb.computing = none →
      exec (.spfHoldExpiry) ⟨s, q⟩ = .next ⟨(let u := s.advance (t + s.afld R.WPX_ROUTE_CFG 0 8 * 1000000 - s.now)
      { u with fb := { u.fb with changeAt := none, computing := some u.now, shadow := some u.compute } }), q⟩) ∧
  (∀ (s : Block) (q : List Instr) (ms since : Nat) (t : RouteTable),
      s.fb.shadow = some t → s.fb.computing = some since →
      exec (.routeSwap ms) ⟨s, q⟩ = .next ⟨(s.advance (since + ms * 1000000 - s.now)).swap ms t, q⟩) ∧
  (∀ (s : Block) (q : List Instr) (r : Nat),
      s.fabOn = true → s.fb.root = some r →
      exec (.syncSend) ⟨s, q⟩ = .next ⟨(s.advance (s.fb.lastSync + 1000000000 / 2 ^ s.afld R.WPX_TIME_CFG 0 4 - s.now)).syncSend, q⟩) ∧
  (∀ (s : Block) (q : List Instr) (p : Nat) (d : Bytes) (stamp : Nat),
      (s.fport p).st = 6 → s.fb.table.parent = some p → s.isRoot = false →
      exec (.sync p d stamp) ⟨s, q⟩ = .next ⟨s.syncHeard p d stamp, q⟩) ∧
  (∀ (s : Block) (q : List Instr) (p kind n t1 t2 t3 t4 : Nat),
      (s.fport p).st = 6 →
      exec (.pdelayExchange p kind n t1 t2 t3 t4) ⟨s, q⟩ = .next ⟨s.pdelay p kind n t1 t2 t3 t4, q⟩) ∧
  (∀ (s : Block) (q : List Instr) (p : Nat) (d : Bytes) (serial : Option Nat) (rsa : Bool) (sig : Bytes),
      s.linkUp p = true → s.hkUp = true → s.afld R.WPX_ADMIT_CFG 0 2 ≠ 0 →
      exec (.admitStream p d serial rsa sig) ⟨s, q⟩ = .next ⟨s.admitIn p d serial rsa sig, q⟩) ∧
  (∀ (s : Block) (q : List Instr) (p : Nat) (nonce : Bytes),
      (s.fport p).st = 5 → s.hkUp = true →
      exec (.admitRetry p nonce) ⟨s, q⟩ = .next ⟨((s.advance ((s.fport p).admitAt + 10000000000 - s.now)).fGoto p 4).admitStart p nonce, q⟩) ∧
  (∀ (s : Block) (q : List Instr) (p : Nat) (d : Bytes),
      s.linkUp p = true → s.abit R.WPX_CFG 2 = true →
      exec (.bootReq p d) ⟨s, q⟩ = .next ⟨s.bootReq p d, q⟩)

/-- The Skidder's commands run, and what each leaves. A write of a TAIL, an enable that is legal, a free mover that takes
its next channel, a saved or fetched descriptor that runs, retires, is preempted or fails on its host side, the four
operations in the states that accept them and a capture each answer a next state with the effect named. (derived: R178,
R179, R180, R184, R185, R186, R187, R188, R192, R193) -/
def Obligations.SkidderCommandsRun : Prop :=
  (∀ (s : Block) (q : List Instr) (c : Nat) (v : Word),
      c < 16 → s.hostOk = true → bit (s.reg (R.PAGE_LOCK 0x05)) 0 = false →
      ¬ s.skdEntries c < (bits v 0 16 + 65536 - (s.skd c).head) % 65536 →
      exec (.skdChTailWrite c v) ⟨s, q⟩ = .next ⟨(let t := bits v 0 16
      let more := (t + 65536 - s.skdTail c) % 65536
      let u : Block := { s.setReg (R.SKD_CH_TAIL c) (w32 t) with sk := { s.sk with stamp := s.sk.stamp + more } }
      let u := u.modSkd c fun k => { k with submitted := k.submitted + w32 more, stamps := k.stamps ++ (List.range more).map fun i => s.sk.stamp + i }
      if (u.skd c).st == .idle && (t + 65536 - (s.skd c).head) % 65536 != 0 then u.modSkd c fun k => { k with st := .queued } else u), q⟩) ∧
  (∀ (s : Block) (q : List Instr) (c : Nat) (v : Word) (host : Bytes) (r : RegRow),
      c < 16 → s.hostOk = true → rowAt (R.SKD_CH_CTRL c) = some r →
      bit (s.reg (R.PAGE_LOCK (pageOf (R.SKD_CH_CTRL c)))) 0 = false → r.legalVal (r.merge (s.reg (R.SKD_CH_CTRL c)) v) = true →
      (s.moverOwner (bits (r.merge (s.reg (R.SKD_CH_CTRL c)) v) 3 2)) = none →
      exec (.skdChEnable c v host) ⟨s, q⟩ = .next ⟨s.skdCtrlWrite c host (r.merge (s.reg (R.SKD_CH_CTRL c)) v), q⟩) ∧
  (∀ (s : Block) (q : List Instr) (m : Nat) (host : Bytes) (c : Nat),
      m < 4 → s.sk.run.getD m none = none → s.skdNext m = some c → (s.skd c).desc.isSome = true →
      exec (.skdDescriptorStart m host) ⟨s, q⟩ = .next ⟨(let t := (s.skdServe m c).modSkd c fun k => { k with st := .active }
      { t with sk := { t.sk with run := setAt t.sk.run m (some c) } }), q⟩) ∧
  (∀ (s : Block) (q : List Instr) (m : Nat) (host : Bytes) (c : Nat) (t : Block) (bs : List Byte),
      m < 4 → s.sk.run.getD m none = none → s.skdNext m = some c → (s.skd c).desc.isSome = false →
      (s.skdServe m c).skdFetch c host = (t, .ok bs) →
      exec (.skdDescriptorStart m host) ⟨s, q⟩ = .next ⟨t.skdAccept m c (parseDesc bs), q⟩) ∧
  (∀ (s : Block) (q : List Instr) (m : Nat) (host : Bytes) (others : Bool) (c : Nat) (d : SkdDesc) (t : Block),
      s.running m = some c → (s.skd c).desc = some d → s.moveTo c d.length host = (t, true) →
      exec (.skdDescDone m host others) ⟨s, q⟩ = .next ⟨t.skdFinish c d (if natBit d.ctrl 8 &&
          w32 (crcEnd 32 true 0xFFFFFFFF (t.skd c).crc) != d.expect then 4 else 0) others, q⟩) ∧
  (∀ (s : Block) (q : List Instr) (m upto : Nat) (host hostDesc : Bytes) (c h : Nat) (d : SkdDesc) (t : Block),
      s.running m = some c → s.skdNext m = some h → (s.skd c).desc = some d → ¬ s.skdPrio h ≤ s.skdPrio c →
      ¬ d.length ≤ cdiv (max upto (s.skd c).offset) 4096 * 4096 →
      s.moveTo c (cdiv (max upto (s.skd c).offset) 4096 * 4096) host = (t, true) →
      exec (.skdPreempt m upto host hostDesc) ⟨s, q⟩ = .next ⟨(let u := (t.skdRelease c).modSkd c fun k => { k with st := .preempted }
      (u.post 0x05 0x02A [w32 (c + 256 * h), (u.skd c).dseq, w32 (u.skd c).offset]).skdStart m hostDesc), q⟩) ∧
  (∀ (s : Block) (q : List Instr) (m upto detail : Nat) (dst : Bool) (host : Bytes) (c : Nat),
      s.running m = some c →
      exec (.skdFault m upto detail dst host) ⟨s, q⟩ = .next ⟨
          (s.bump R.HOST_PCIE_ERR).hostFault m upto 4 (if detail = 9 then 9 else 8) dst host, q⟩) ∧
  (∀ (s : Block) (q : List Instr) (m upto : Nat) (dst : Bool) (host : Bytes) (c : Nat),
      s.running m = some c →
      exec (.skdHostTimeout m upto dst host) ⟨s, q⟩ = .next ⟨(s.bump R.HOST_PCIE_ERR).hostFault m upto 5 0 dst host, q⟩) ∧
  (∀ (s : Block) (q : List Instr) (c : Nat),
      s.hostOk = true → (s.skd c).st = .faulted → (s.skd c).kind ≠ 3 →
      exec (.skdOpResume c) ⟨s, q⟩ = .next ⟨(s.modSkd c fun k => { k with st := .queued, kind := 0, detail := 0, fetch := false,
                                                                          faultAddr := 0 }).opDone c 1 false, q⟩) ∧
  (∀ (s : Block) (q : List Instr) (c : Nat),
      s.hostOk = true → (s.skd c).st = .faulted →
      exec (.skdOpSkip c) ⟨s, q⟩ = .next ⟨(match (s.skd c).desc with
        | some d => s.skdRetire c d 1 true
        | none => (s.skdStep c ((s.skd c).dseq + 1)).sealSweep true).opDone c 2 false, q⟩) ∧
  (∀ (s : Block) (q : List Instr) (c : Nat) (host : Bytes),
      s.hostOk = true → (s.skd c).st ≠ .disabled →
      exec (.skdOpAbort c host) ⟨s, q⟩ = .next ⟨(s.skdAbort c host).opDone c 3 false, q⟩) ∧
  (∀ (s : Block) (q : List Instr) (c : Nat),
      s.hostOk = true → ((s.skd c).st = .seqStop ∨ (s.skd c).st = .disabled) →
      exec (.skdOpResync c) ⟨s, q⟩ = .next ⟨(s.modSkd c fun k => { k with dseq := s.reg R.SKD_SEQ_LOAD, st := s.skdRest c }).opDone c 4 false, q⟩) ∧
  (∀ (s : Block) (q : List Instr) (v : Word),
      s.hostOk = true → bit (s.reg (R.PAGE_LOCK 0x05)) 0 = false →
      exec (.skdCtxCapture v) ⟨s, q⟩ = .next ⟨s.skdCapture v, q⟩)

/-- The commands of device translation run, and what each leaves. An access is translated; an accepted INV_GO starts an
invalidation and its end drops the translations it covers and sets DONE; a write of DTU_PROBE_ADDR_HI captures, and with
GO probes. (derived: R194, R195, R196, R669) -/
def Obligations.DeviceTranslationCommandsRun : Prop :=
  (∀ (s : Block) (q : List Instr) (va : Nat) (write : Bool) (client : Nat),
      exec (.dtuWalk va write client) ⟨s, q⟩ = .next ⟨(s.translate va write client).1, q⟩) ∧
  (∀ (s : Block) (q : List Instr) (v : Word),
      s.hostOk = true → bit v 0 = true → s.dt.inv = none →
      exec (.dtuInvGo v) ⟨s, q⟩ = .next ⟨({ s with dt := { s.dt with inv := some { all := bit v 1, start := s.fld R.DTU_INV_ADDR_HI 0 16 * 0x100000000 + s.fld R.DTU_INV_ADDR_LO 12 20 * 4096, pages := max 1 (s.reg R.DTU_INV_LEN).toNat, since := s.now } } } : Block).setReg R.DTU_INV_STATUS 0, q⟩) ∧
  (∀ (s : Block) (q : List Instr) (i : DtuInv),
      s.dt.inv = some i →
      exec (.dtuInvDone) ⟨s, q⟩ = .next ⟨(({ s with dt := { tlb := s.dt.tlb.filter fun t => !i.covers t,
                                                            inv := none } } : Block).setReg R.DTU_INV_STATUS
        (w32 (1 + 2 * s.fld R.DTU_INV_STATUS 1 1 + 65536 * satN 16 ((s.now - i.since) / 10)))).post 0x06 0x038 [w32 ((s.now - i.since) / 10)], q⟩) ∧
  (∀ (s : Block) (q : List Instr) (v : Word),
      s.hostOk = true → bit (s.reg (R.PAGE_LOCK 0x06)) 0 = false →
      exec (.dtuProbe v) ⟨s, q⟩ = .next ⟨s.probeWrite v, q⟩)

/-- The surface operations and the ingest paths run, and what each leaves. DEFINE, OPEN and CLOSE of a surface that no rule
refuses take the record, open it or close it and report 1; a record is captured; the frames of the DP path, of the
fabric path and of the NVMe container begin, seal or are abandoned, and an expected check value is queued while fewer
than 16 wait. (derived: R170, R173, R204, R205, R206, R216, R217, R219, R220, R222, R224, R226) -/
def Obligations.SurfaceAndIngestCommandsRun : Prop :=
  (∀ (s : Block) (q : List Instr) (i : Nat),
      s.hostOk = true → s.defineReason (i % 64) = 0 →
      exec (.surfDefine i) ⟨s, q⟩ = .next ⟨(s.modSurf (i % 64) fun _ => match s.surfPages s.windowSurf with | some (a, b) => { s.windowSurf with pages := a, hdrPages := b } | none => s.windowSurf).surfOpRes (i % 64) 1 0, q⟩) ∧
  (∀ (s : Block) (q : List Instr) (i : Nat),
      s.hostOk = true → s.openReason (i % 64) (fun t => t == .closed || t == .sealed) = 0 →
      exec (.surfOpen i) ⟨s, q⟩ = .next ⟨(s.modSurf (i % 64) Surface.opened).surfOpRes (i % 64) 2 0, q⟩) ∧
  (∀ (s : Block) (q : List Instr) (i : Nat),
      s.hostOk = true → s.openReason (i % 64) (fun t => t == .opened || t == .sealed) = 0 →
      exec (.surfClose i) ⟨s, q⟩ = .next ⟨(s.modSurf (i % 64) fun u => { u with st := .closed, sealPend := none }).surfOpRes (i % 64) 3 0, q⟩) ∧
  (∀ (s : Block) (q : List Instr) (v : Word),
      s.hostOk = true → bit (s.reg (R.PAGE_LOCK 0x08)) 0 = false →
      exec (.storeSurfSelCapture v) ⟨s, q⟩ = .next ⟨(s.setReg R.STORE_SURF_SEL (w32 (bits v 0 6))).surfCapture (bits v 0 6), q⟩) ∧
  (∀ (s : Block) (q : List Instr) (n i : Nat),
      (s.src n).writing = some i → (s.surf i).cmp = true →
      exec (.cmpOver n) ⟨s, q⟩ = .next ⟨(s.bump R.STORE_CMP_OVER).abandon n 1, q⟩) ∧
  (∀ (s t : Block) (q : List Instr) (a : Nat),
      (if a % 2 = 0 then s.joinStart else s) = t → t.streamRefused (a % 2) = false → (t.dpTake (a % 2)).pairs (a % 2) = false →
      ((t.dpTake (a % 2)).src (t.dpSource (a % 2))).writing = none →
      exec (.dpFrameStart a) ⟨s, q⟩ = .next ⟨(let n := t.dpSource (a % 2)
      let u := (t.dpTake (a % 2)).beginFrame n ((t.dpTake (a % 2)).streamFits (a % 2) n)
      if (u.src n).writing.isSome then u.modSrc n fun k => { k with halves := 2 ^ (2 + a % 2) } else u), q⟩) ∧
  (∀ (s : Block) (q : List Instr) (a : Nat) (pix : Pixels) (bad : List Nat) (vsc : Option Vsc) (i : Nat),
      (s.src (s.dpSource (a % 2))).writing = some i → natBit (s.src (s.dpSource (a % 2))).halves (2 + a % 2) = true →
      exec (.dpFrameSealed a pix bad vsc) ⟨s, q⟩ = .next ⟨s.dpSeal (a % 2) pix bad vsc, q⟩) ∧
  (∀ (s : Block) (q : List Instr) (a i : Nat),
      (s.src (s.dpSource (a % 2))).writing = some i →
      exec (.dpFrameAbandoned a) ⟨s, q⟩ = .next ⟨s.abandon (s.dpSource (a % 2)) 3, q⟩) ∧
  (∀ (s : Block) (q : List Instr) (a : Nat) (t : DpTiming),
      exec (.dpTimingChange a t) ⟨s, q⟩ = .next ⟨s.dpTiming (a % 2) t, q⟩) ∧
  (∀ (s : Block) (q : List Instr) (a : Nat),
      exec (.dscPpsRefused a) ⟨s, q⟩ = .next ⟨s.dscRefuse (a % 2), q⟩) ∧
  (∀ (s : Block) (q : List Instr) (data : Bytes) (pix : Pixels) (f : Nat),
      s.streamOf (field data 0 2) (w32 (field data 4 4)) = some f → field data 2 1 < 2 →
      ((s.src (2 + f)).gone == some (w32 (field data 4 4))) = false →
      field data 16 2 = (s.surf ((s.unitSet f (w32 (field data 4 4))).headD 0)).width →
      field data 18 2 = (s.surf ((s.unitSet f (w32 (field data 4 4))).headD 0)).height →
      field data 3 1 = (s.surf ((s.unitSet f (w32 (field data 4 4))).headD 0)).format →
      exec (.contentUnit data pix) ⟨s, q⟩ = .next ⟨s.contentPart f data pix, q⟩) ∧
  (∀ (s : Block) (q : List Instr) (f : Nat),
      f < 4 →
      exec (.pictureLate f) ⟨s, q⟩ = .next ⟨((s.src (2 + f)).pics.filter fun p => s.lateFor p.target).foldl (fun t p =>
          t.lostPic f 6 p.target) s, q⟩) ∧
  (∀ (s : Block) (q : List Instr) (linkUp : Bool) (id : NvmeIdent),
      s.hostOk = true → bit (s.reg (R.PAGE_LOCK 0x09)) 0 = false → bit (s.reg R.INGEST_CTRL) 0 = false →
      exec (.nvmeEnSet linkUp id) ⟨s, q⟩ = .next ⟨s.nvmeEnable linkUp id, q⟩) ∧
  (∀ (s : Block) (q : List Instr) (data : Bytes) (pix : Pixels) (r : NvmeRead),
      s.sf.nvme.reads = [r] →
      exec (.nvmeReadDone 0 data pix) ⟨s, q⟩ = .next ⟨(s.modNvme fun v => { v with reads := [], buf := v.buf ++
                                                                                     padBytes (r.blocks * v.block) data }).readsDone pix, q⟩) ∧
  (∀ (s : Block) (q : List Instr) (status : Nat) (data : Bytes) (pix : Pixels) (r : NvmeRead) (l : List NvmeRead),
      s.sf.nvme.reads = r :: l → status ≠ 0 → r.tried = false →
      exec (.nvmeReadDone status data pix) ⟨s, q⟩ = .next ⟨(s.modNvme fun v => { v with reads := { r with tried := true } :: l }).emitRead r, q⟩) ∧
  (∀ (s : Block) (q : List Instr) (v : Word),
      s.hostOk = true → (s.src (s.fld R.INGEST_HFC_SRC 0 3)).hfc.length < 16 →
      exec (.hfcPush v) ⟨s, q⟩ = .next ⟨s.modSrc (s.fld R.INGEST_HFC_SRC 0 3) fun k => { k with hfc := k.hfc ++ [(s.reg R.INGEST_HFC_TAG, v)] }, q⟩)

/-- The planner, the table copies, the end of the pipeline, SEQ_CHECK and the P-I check run, and what each leaves. PLAN_GO
starts the planner when it is idle and its end reports what the planned frame spills; a table copy ends for the mesh first;
the sets being written seal; SEQ_CHECK validates the shadows; the P-I check runs. (derived: R241, R246, R285, R360) -/
def Obligations.WarpAndCheckCommandsRun : Prop :=
  (∀ (s : Block) (q : List Instr) (v : Word),
      s.hostOk = true → bit v 0 = true → s.pp.planBusy = false →
      exec (.warpPlanGo v) ⟨s, q⟩ = .next ⟨{ s with pp := { s.pp with planBusy := true, planValid := true, planSince := s.now } }, q⟩) ∧
  (∀ (s : Block) (q : List Instr),
      s.pp.planBusy = true →
      exec (.warpPlanDone) ⟨s, q⟩ = .next ⟨s.planDone, q⟩) ∧
  (∀ (s : Block) (q : List Instr),
      s.pp.mesh.sync = true →
      exec (.tableSyncDone) ⟨s, q⟩ = .next ⟨({ s with pp := { s.pp with mesh := s.pp.mesh.copied } } : Block).post 0x0A 0x052 [0,
          w32 (s.pp.mesh.copyPages 4194304)], q⟩) ∧
  (∀ (s : Block) (q : List Instr),
      s.pp.mesh.sync = false → s.pp.lut.sync = true →
      exec (.tableSyncDone) ⟨s, q⟩ = .next ⟨({ s with pp := { s.pp with lut := s.pp.lut.copied } } : Block).post 0x0B 0x052 [1,
          w32 (s.pp.lut.copyPages 287496)], q⟩) ∧
  (∀ (s : Block) (q : List Instr) (p : Nat) (ps : List Nat) (f : PipeFrame),
      s.writingPorts = p :: ps → s.pp.frame = some f →
      exec (.planesSealed) ⟨s, q⟩ = .next ⟨s.planesSealed, q⟩) ∧
  (∀ (s : Block) (q : List Instr) (v : Word),
      s.hostOk = true → bit v 0 = true →
      exec (.seqCheckGo v) ⟨s, q⟩ = .next ⟨s.seqCheck, q⟩) ∧
  (∀ (s : Block) (q : List Instr),
      s.hostOk = true → bit (s.reg (R.PAGE_LOCK 0x15)) 0 = false →
      exec (.lsgPiCheckGo) ⟨s, q⟩ = .next ⟨s.piCheck, q⟩)

/-- The commands of a mirror port's link, array and backchannel run, and what each leaves. A good IDENT, a link that locks
or changes, the time limits of training, the three requests of MA_CTRL outside RUNNING and DARK, the messages of the
backchannel, its loss and its return, and a plane acknowledged, wrong or missing each answer a next state with the
effect named; a good ECHO_REPLY changes nothing. (derived: R294, R295, R296, R297, R298, R299, R300, R304, R308, R312,
R313, R315) -/
def Obligations.MirrorPortCommandsRun : Prop :=
  (∀ (s : Block) (q : List Instr) (p : Nat) (d : Bytes),
      p < 4 → (s.port p).st = 2 → identOk p d = true →
      exec (.ident p d) ⟨s, q⟩ = .next ⟨s.ident p d, q⟩) ∧
  (∀ (s : Block) (q : List Instr) (p lane skew : Nat) (order : Bool),
      p < 4 → (s.port p).st = 3 → (s.port p).linkState ≠ 2 →
      exec (.linkStatus p 2 lane skew order) ⟨s, q⟩ = .next ⟨(s.modPort p fun k => { k with lane := lane, skew := skew }).lockPort p skew, q⟩) ∧
  (∀ (s : Block) (q : List Instr) (p : Nat),
      p < 4 → (s.port p).attempt ≠ 0 → (s.port p).linkState ≠ 2 → (s.port p).since + 1000000 ≤ s.now →
      exec (.trainingAttemptTimeout p) ⟨s, q⟩ = .next ⟨s.trainTimeout p, q⟩) ∧
  (∀ (s : Block) (q : List Instr) (p : Nat),
      p < 4 → (s.port p).st = 6 → (s.port p).linkState ≠ 2 → (s.port p).darkSince + 10000000 ≤ s.now →
      exec (.darkTrainingTimeout p) ⟨s, q⟩ = .next ⟨(s.modPort p fun q => { q with fail := true }).linkFail p 0, q⟩) ∧
  (∀ (s : Block) (q : List Instr) (p : Nat),
      p < 4 → s.hostOk = true → (s.port p).st ≠ 5 → (s.port p).st ≠ 6 → maEn s.act p = true →
      exec (.arrayReset p) ⟨s, q⟩ = .next ⟨((s.stopPort p).advance 10000).startPort p, q⟩) ∧
  (∀ (s : Block) (q : List Instr) (p : Nat),
      p < 4 → s.hostOk = true → (s.port p).st = 4 →
      exec (.maRetrain p) ⟨s, q⟩ = .next ⟨(s.trainPort p 1).portGoto p 3, q⟩) ∧
  (∀ (s : Block) (q : List Instr) (p : Nat),
      p < 4 → s.hostOk = true → (s.port p).st = 4 →
      exec (.maIdentReq p) ⟨s, q⟩ = .next ⟨(s.modPort p fun k => { k with identReq := true }).smlFree p 6 [], q⟩) ∧
  (∀ (s : Block) (q : List Instr) (p slot plane status : Nat) (fsn arrDiff tapDiff : Word) (l : PlaneLoad),
      p < 4 → ((s.port p).acks.find? fun l => l.slot == slot && l.plane == plane && l.fsn == fsn) = some l →
      exec (.planeAck p slot plane status fsn arrDiff tapDiff) ⟨s, q⟩ = .next ⟨s.planeAck p slot plane fsn arrDiff tapDiff, q⟩) ∧
  (∀ (s : Block) (q : List Instr) (p slot : Nat) (l : PlaneLoad),
      p < 4 → ((s.port p).acks.find? fun l => l.slot == slot && decide (l.endFt + 100000 ≤ s.tm.ft)) = some l →
      exec (.ackMissing p slot) ⟨s, q⟩ = .next ⟨((s.modPort p fun k =>
          { k with acks := k.acks.erase l }).bump (R.MA_ACK_MISSING p)).maEvt p 0x095 [w32 (p + 256 * slot), l.fsn], q⟩) ∧
  (∀ (s : Block) (q : List Instr) (p temp : Nat),
      p < 4 →
      exec (.arrayTemp p temp) ⟨s, q⟩ = .next ⟨(s.setReg (R.MA_ARRAY_TEMP p) (w32 (temp % 65536))).modPort p fun k =>
          { k with tempAt := s.now }, q⟩) ∧
  (∀ (s : Block) (q : List Instr) (p code sev : Nat) (detail : Word),
      p < 4 → code < 65536 → sev < 2 → (s.port p).st ≠ 0 →
      exec (.arrayStatus p code sev detail) ⟨s, q⟩ = .next ⟨
          (s.setReg (R.MA_ARRAY_STATUS p) (w32 (code % 65536 + 65536 * (sev % 4)))).maEvt p 0x097 [w32 (p + 256 * sev + 65536 * code), detail], q⟩) ∧
  (∀ (s : Block) (q : List Instr) (p : Nat) (token : Bytes),
      exec (.echoReply p token) ⟨s, q⟩ = .next ⟨s, q⟩) ∧
  (∀ (s : Block) (q : List Instr) (p : Nat),
      p < 4 →
      exec (.backchannelBadMessage p) ⟨s, q⟩ = .next ⟨s.bump (R.MA_BC_ERR p), q⟩) ∧
  (∀ (s : Block) (q : List Instr) (p : Nat),
      p < 4 → (s.port p).bcLock = true →
      exec (.bcLost p) ⟨s, q⟩ = .next ⟨(s.modPort p fun k =>
          { k with bcLock := false, bcLostAt := some s.now }).maFault p 0x098 1 [w32 p] .auto, q⟩) ∧
  (∀ (s : Block) (q : List Instr) (p t : Nat),
      p < 4 → (s.port p).bcLostAt = some t → t + 1000000000 ≤ s.now →
      exec (.bcLostLong p) ⟨s, q⟩ = .next ⟨s.raise (maPage p) 0x098 2 (w32 p) .auto, q⟩) ∧
  (∀ (s : Block) (q : List Instr) (p : Nat),
      p < 4 → (s.port p).bcLostAt.isSome = true →
      exec (.bcRegained p) ⟨s, q⟩ = .next ⟨((s.modPort p fun k =>
          { k with bcLock := true, bcLostAt := none }).maEvt p 0x098 [w32 (p + 256)]).autoClose (maPage p) 0x098 fun d => d == w32 p, q⟩)

/-- The commands of a port's frame run: preload, loads, slots, kerfs, the last dwell and the dark interval. Preload runs
while TIME runs; a load starts where the calendar has a slot and a place is free, and ends; a slot, a kerf and the last
dwell act on a port in RUNNING at their place in the frame; a load in hand that runs dry aborts its frame; the dark
interval starts where it has a length. (derived: R54, R265, R272, R280, R290, R303, R304, R306, R309) -/
def Obligations.MirrorFrameCommandsRun : Prop :=
  (∀ (s : Block) (q : List Instr),
      s.tm.run = true →
      exec (.preloadStart) ⟨s, q⟩ = .next ⟨s.preload, q⟩) ∧
  (∀ (s : Block) (q : List Instr),
      darkNs s.act ≠ 0 → s.tm.run = true →
      exec (.darkIntervalStart) ⟨s, q⟩ = .next ⟨s.darkStart, q⟩) ∧
  (∀ (s : Block) (q : List Instr) (g : Nat) (ev : List (Nat × Nat × Nat)) (x : Slot),
      g < 4 → (calSlots (s.port g).words)[(s.port g).nextSlot]? = some x → (s.port g).st = 5 → (s.port g).held = 0 → (s.port g).phase = 0 →
      exec (.slotStart g ev) ⟨s, q⟩ = .next ⟨s.slotStart g ev, q⟩) ∧
  (∀ (s : Block) (q : List Instr) (g : Nat) (rdyLow seenHigh : Bool),
      g < 4 → (s.port g).st = 5 → (s.port g).phase = 1 →
      exec (.kerfEnd g rdyLow seenHigh) ⟨s, q⟩ = .next ⟨s.kerfEnd g rdyLow seenHigh, q⟩) ∧
  (∀ (s : Block) (q : List Instr) (g : Nat) (ev : List (Nat × Nat × Nat)),
      g < 4 → (s.port g).st = 5 → (s.port g).phase = 2 → (s.port g).slot + 1 = (calSlots (s.port g).words).length →
      exec (.lastDwellEnd g ev) ⟨s, q⟩ = .next ⟨((ev.foldl Block.evidence (s.toSlot (slotTimes (s.calCfg s.act g) (calSlots (s.port g).words)).2)).modPort g fun k => { k with phase := 3 }).strobes g 2, q⟩) ∧
  (∀ (s : Block) (q : List Instr) (p : Nat) (x : Slot),
      p < 4 → (s.loadFrame p).1[(s.port p).loadNext]? = some x → s.streams p = true → (s.port p).loading = false →
      (s.port p).stage.length < s.stageDepth p →
      exec (.planeLoadStart p) ⟨s, q⟩ = .next ⟨s.loadStart p, q⟩) ∧
  (∀ (s : Block) (q : List Instr) (p : Nat),
      p < 4 → (s.port p).loading = true →
      exec (.planeLoadEnd p) ⟨s, q⟩ = .next ⟨s.loadEnd p, q⟩) ∧
  (∀ (s : Block) (q : List Instr) (p : Nat),
      p < 4 → (s.port p).loading = true →
      exec (.fifoUnderrun p) ⟨s, q⟩ = .next ⟨s.abortPort p 1 (s.port p).loadNext, q⟩)

/-- The commands of the laser members run: trips, faults, spares and probes, and what each leaves. A trip of a lit string is
held for the frame and latches at the third in a second; a fault input latches an enabled string off; a COLD spare
becomes HOT; a takeover acts on a group; a probe falls due, runs when there is an opportunity, and is reported when it
starves for 1 s. (derived: R364, R381, R384, R385, R386, R388, R390) -/
def Obligations.LaserMemberCommandsRun : Prop :=
  (∀ (s : Block) (q : List Instr) (n : Nat),
      n < 48 → s.litMember n = true →
      exec (.overCurrentTrip n) ⟨s, q⟩ = .next ⟨s.ocTrip n, q⟩) ∧
  (∀ (s : Block) (q : List Instr) (n : Nat),
      n < 48 → (memCfg s.act n).en = true →
      exec (.faultInput n) ⟨s, q⟩ = .next ⟨s.latchMember n 5, q⟩) ∧
  (∀ (s : Block) (q : List Instr) (m : Nat),
      (s.member m).hotAt.isSome = true → (s.member m).st = 2 →
      exec (.coldSpareHot m) ⟨s, q⟩ = .next ⟨s.spareHot m, q⟩) ∧
  (∀ (s : Block) (q : List Instr) (g : Nat),
      g < 5 → (s.grp g).waiting ≠ [] →
      exec (.spareTakeover g) ⟨s, q⟩ = .next ⟨s.takeover g, q⟩) ∧
  (∀ (s : Block) (q : List Instr) (m : Nat),
      s.probeNeeded m = true → (s.member m).probeDue = false →
      exec (.probeDue m) ⟨s, q⟩ = .next ⟨s.modMember m fun k => { k with probeDue := true, dueAt := s.now, starved := false }, q⟩) ∧
  (∀ (s : Block) (q : List Instr) (g : Nat) (res : List (Nat × Nat)),
      g < 5 → s.pathCut = false → s.portHold g = false → s.probeTime g = true →
      exec (.probeRun g res) ⟨s, q⟩ = .next ⟨s.probeRun g res, q⟩) ∧
  (∀ (s : Block) (q : List Instr) (m : Nat),
      (s.member m).probeDue = true → (s.member m).dueAt + 1000000000 ≤ s.now → (s.member m).starved = false →
      exec (.probeStarved m) ⟨s, q⟩ = .next ⟨(s.modMember m fun k =>
          { k with starved := true }).faultEv (memPage m) 0x102 1 [w32 (m + 131072), s.tm.fsn, 0] .auto (pageInst (memPage m)), q⟩)

/-- The commands of the loops and of the chains run, and what each leaves. A slot of the wheel that is enabled takes its
sample; a scrub turn visits four records; a wheel fault and a lost ceiling open their C4 record; a chain loads its
tables at a cutoff and takes a completed shift. (derived: R375, R379, R392, R403, R411, R412, R413) -/
def Obligations.LoopAndChainCommandsRun : Prop :=
  (∀ (s : Block) (q : List Instr) (slot y v : Nat),
      s.pw.state.running = true → s.cp.halted = false → s.slotEnabled slot = true → s.beforeFb (s.sampleAt slot) = true → slot < 48 →
      exec (.loopSample slot y v) ⟨s, q⟩ = .next ⟨({ s.toLocal (s.sampleAt slot) with cp := { s.cp with sampled := s.sampleAt slot } } : Block).cutsMet.stringSample slot y v, q⟩) ∧
  (∀ (s : Block) (q : List Instr) (errs : List Nat),
      exec (.stateScrub errs) ⟨s, q⟩ = .next ⟨s.stateScrub errs, q⟩) ∧
  (∀ (s : Block) (q : List Instr) (kind last : Nat),
      s.fl.svRunning = true → kind < 2 →
      exec (.wheelFault kind last) ⟨s, q⟩ = .next ⟨({ s with cp := { s.cp with wheelFault := true, halted := true } } : Block).lightOut.faultEv 0x19 0x121 3 [pk kind last 0 0, s.tm.fsn] .clear (pageInst 0x19), q⟩) ∧
  (∀ (s : Block) (q : List Instr) (g t : Nat) (m : ModelGroup),
      s.th.mg[g]? = some m → m.last = some t → t + 5000000 ≤ s.now →
      exec (.thermCeilingLost g) ⟨s, q⟩ = .next ⟨(({ s with th := { s.th with mg := modAt s.th.mg g fun k => { k with last := none, lost := true } } } : Block).postI 0x2B 0x20D 4 (pageInst 0x2B) false
        [w32 g, s.tm.fsn]).raise 0x19 0x20D 3 (w32 g) .clear, q⟩) ∧
  (∀ (s : Block) (q : List Instr) (c : Nat),
      c < 4 → (s.chn c).st = 2 → s.pw.state.running = true → (s.chn c).clkOff = false →
      exec (.chainTableLoad c) ⟨s, q⟩ = .next ⟨s.tableLoad c, q⟩) ∧
  (∀ (s : Block) (q : List Instr) (c : Nat) (ret : List Nat),
      c < 4 → (s.chn c).st = 2 → (s.chn c).clkOff = false →
      exec (.chainShiftDone c ret) ⟨s, q⟩ = .next ⟨s.shiftDone c ret, q⟩)

/-- The commands of the highlight scanner run: fast axis, Highline, the beam, and what each leaves. Enabling sweeps from
OFF; the FREQ loop takes over at resonance; a time-out tries the sequence once more or ends in FAULT; a met criterion
locks; a crossing is counted in LOCKED; a loss of lock cuts the beam; Highline retargets, arrives, draws rows and drops
them; a DAC sample is taken and a bucket of the zone sums closes. (derived: R319, R321, R322, R324, R325, R329, R340,
R341, R342, R344, R350, R353) -/
def Obligations.ScannerCommandsRun : Prop :=
  (∀ (s : Block) (q : List Instr),
      s.hsfOn = true → s.sc.st = 0 →
      exec (.fastAxisEnable) ⟨s, q⟩ = .next ⟨(s.modSc fun c => { c with attempts := 0 }).sweep, q⟩) ∧
  (∀ (s : Block) (q : List Instr) (freq a b t : Nat),
      s.sc.st = 1 → s.sweepSpan = (a, b, t) → min a b ≤ freq → freq ≤ max a b → s.now < s.sc.enAt + t →
      exec (.resonanceFound freq) ⟨s, q⟩ = .next ⟨(s.toLocal (s.sweepReaches freq)).resonance, q⟩) ∧
  (∀ (s : Block) (q : List Instr),
      s.sc.st = 2 → s.sc.stAt + 10000000 ≤ s.now → s.afld R.CPE_HANDOVER_HS 0 16 * 10 < s.cp.h.natAbs → s.sc.attempts < 2 →
      exec (.handoverTimeout) ⟨s, q⟩ = .next ⟨s.sweep, q⟩) ∧
  (∀ (s : Block) (q : List Instr),
      s.sc.st = 3 → s.sc.enAt + 1500000000 ≤ s.now → s.sc.attempts = 2 →
      exec (.lockFail) ⟨s, q⟩ = .next ⟨((s.modSc fun c =>
          { c with phaseValid := false }).hsfGoto 7).faultEv 0x12 0x0C6 2 [2] .clear (pageInst 0x12), q⟩) ∧
  (∀ (s : Block) (q : List Instr),
      s.lockMet = true → s.sc.st = 4 →
      exec (.fastAxisLocked) ⟨s, q⟩ = .next ⟨((((s.modSc fun c =>
          { c with phaseValid := true, attempts := 0, trim := false, lockTime := (s.now - c.enAt) / 1000000, badRun := 0 }).hsfGoto 5).post 0x12 0x0C1
        [w32 (satN 16 ((s.modSc fun c => { c with phaseValid := true, attempts := 0, trim := false,
                                                  lockTime := (s.now - c.enAt) / 1000000, badRun := 0 }).hsfGoto 5).sc.lockTime),
          w32 ((s.modSc fun c => { c with phaseValid := true, attempts := 0, trim := false,
                                          lockTime := (s.now - c.enAt) / 1000000, badRun := 0 }).hsfGoto 5).sc.sweepHz]).setReg
        R.HSF_LINES 0).autoClose 0x12 0x0C2 fun _ => true, q⟩) ∧
  (∀ (s : Block) (q : List Instr) (cause : Nat),
      natBit s.sc.cutDue cause = true → s.sc.cut = false →
      exec (.beamCut cause) ⟨s, q⟩ = .next ⟨(s.modSc fun c => { c with cutDue := c.cutDue - 2 ^ cause }).recordCut cause, q⟩) ∧
  (∀ (s : Block) (q : List Instr),
      s.sc.st = 5 → 16 ≤ s.sc.badRun →
      exec (.lockLoss 0) ⟨s, q⟩ = .next ⟨s.lockLoss 0, q⟩) ∧
  (∀ (s : Block) (q : List Instr),
      s.sc.st = 5 → s.afld R.HSF_LOCK_CFG 8 8 * 8 < s.sc.angleErr.natAbs →
      exec (.lockLoss 1) ⟨s, q⟩ = .next ⟨s.lockLoss 1, q⟩) ∧
  (∀ (s : Block) (q : List Instr) (e : Nat × FaultRec),
      s.sc.st = 6 → s.sc.lockLostAt + s.afld R.HSF_RELOCK 0 16 * 1000000 ≤ s.now →
      s.fl.recs.find? (fun e => e.2.isOpen && e.2.page == 0x12 && e.2.code == 0x0C2) = some e →
      exec (.relockTimeout) ⟨s, q⟩ = .next ⟨((s.raise 0x12 0x0C2 2 e.2.detail .auto).modSc fun c => { c with attempts := 0 }).sweep, q⟩) ∧
  (∀ (s : Block) (q : List Instr) (a b : Nat) (err : Int),
      s.sc.st = 5 → s.crossErr a b = some err →
      exec (.zeroCrossing a b) ⟨s, q⟩ = .next ⟨(s.modSc fun c => { c with angle := c.angleAtTime s.now, angleAt := s.now, angleErr := err, okCross := if err.natAbs ≤ s.afld R.HSF_LOCK_CFG 8 8 then c.okCross + 1 else 0 }).bump R.HSF_LINES, q⟩) ∧
  (∀ (s : Block) (q : List Instr),
      s.abit R.HSS_CFG 0 = true → s.pw.state.running = true → s.sc.want ≠ s.hssWant →
      exec (.highlineTargetChange) ⟨s, q⟩ = .next ⟨s.retarget, q⟩) ∧
  (∀ (s : Block) (q : List Instr),
      s.sc.hst = 4 →
      exec (.highlineArrival) ⟨s, q⟩ = .next ⟨s.arrive, q⟩) ∧
  (∀ (s : Block) (q : List Instr),
      s.sc.hst = 5 → s.sc.line = true → (s.lineFrom s.sc.lineAt).2 ≤ s.windowEnds →
      exec (.rowDrawn) ⟨s, q⟩ = .next ⟨((((s.toLocal (s.lineFrom s.sc.lineAt).2).beamOff.bump R.HSS_ROWS_DRAWN).postTally 0x0CC (pageInst 0x13)).modSc
        fun c => { c with drawnEnd := (s.lineFrom s.sc.lineAt).2 - s.tm.fbNow }).nextRow, q⟩) ∧
  (∀ (s : Block) (q : List Instr),
      s.sc.hst = 5 → s.sc.line = true → s.sc.redo = false →
      exec (.rowToleranceExit) ⟨s, q⟩ = .next ⟨(s.beamOff.modSc fun c => { c with redo := true, lineAt := s.now }).replan, q⟩) ∧
  (∀ (s : Block) (q : List Instr),
      s.sc.windowEnd = false →
      exec (.drawingWindowEnd) ⟨s, q⟩ = .next ⟨(s.advanceTo s.nextDark).windowEnd.retarget, q⟩) ∧
  (∀ (s : Block) (q : List Instr),
      exec (.zoneBucketBoundary) ⟨s, q⟩ = .next ⟨s.bucketBoundary, q⟩) ∧
  (∀ (s : Block) (q : List Instr),
      exec (.dacSample) ⟨s, q⟩ = .next ⟨s.dacSample, q⟩)

/-- The thermal commands and the Firebreak latch run, and what each leaves. The sensors convert; a heat-sink input of a
valid code that was valid keeps its new reading; the laser model updates every group from STANDBY on; a pending die
shutdown of ten conversions latches Firebreak, writes the shutdown record and removes the core; a pending laser shutdown
of fifty acts on its group. (derived: R450, R452, R454, R457, R464, R465, R467) -/
def Obligations.ThermalCommandsRun : Prop :=
  (∀ (s : Block) (q : List Instr) (t : List Int),
      exec (.tsConversion t) ⟨s, q⟩ = .next ⟨s.tsConversion t, q⟩) ∧
  (∀ (s : Block) (q : List Instr) (j c : Nat) (k : NtcIn),
      s.th.ntc[j]? = some k → s.sensing = true → k.valid = true → 16 ≤ c → c ≤ 4080 →
      exec (.ntcConversion j c) ⟨s, q⟩ = .next ⟨{ s with th := { s.th with ntc := setAt s.th.ntc j { code := c, temp := s.ntcTemp c, valid := true, hist := (s.now, s.ntcTemp c) :: k.hist.filter fun e => s.now < e.1 + 10000000000 } } }, q⟩) ∧
  (∀ (s : Block) (q : List Instr),
      s.pw.state = .ready →
      exec (.laserModelUpdate) ⟨s, q⟩ = .next ⟨((List.range 12).foldl Block.modelUpdate s).modMembers (List.range 48) fun k =>
          { k with pSum := 0, pCnt := 0 }, q⟩) ∧
  (∀ (s : Block) (q : List Instr),
      s.th.lvl.pending = true → 10 ≤ s.th.lvl.sdRun → s.pw.state = .ready → s.pw.coreGated = false →
      exec (.firebreakDie) ⟨s, q⟩ = .next ⟨(s.advance (s.th.lvl.sdAt + 1000000 - s.now)).firebreakDie, q⟩) ∧
  (∀ (s : Block) (q : List Instr) (g : Nat) (k : ModelGroup),
      s.th.mg[g]? = some k → s.pw.state = .ready → k.lvl.pending = true → 50 ≤ k.lvl.sdRun →
      exec (.firebreakLaser g) ⟨s, q⟩ = .next ⟨(s.advance (k.lvl.sdAt + 50000000 - s.now)).firebreakLaser g k, q⟩)

/-- The DRAM commands that carry errors, slack, refresh, trim and self-refresh run, and what each leaves. An uncorrectable
block is poisoned and reported to its client; a corrected one is counted; the scrub reads its next block; a slack sample
is taken; a refresh falls due; a rate is polled; two lanes are trimmed; self-refresh is entered in two steps and left.
(derived: R473, R474, R480, R481, R482, R488, R493, R494) -/
def Obligations.DramErrorAndRefreshCommandsRun : Prop :=
  (∀ (s : Block) (q : List Instr) (addr client : Nat) (errs : List (Nat × Nat)),
      inDram addr = true → client < 8 → eccVerdict errs = .uncorrectable →
      exec (.dramUe addr client errs) ⟨s, q⟩ = .next ⟨(s.uncorrectable addr client).ueClient addr client, q⟩) ∧
  (∀ (s : Block) (q : List Instr) (addr : Nat) (errs : List (Nat × Nat)),
      inDram addr = true → eccVerdict errs = .corrected → s.dc.poison.contains (addr / 64) = false →
      exec (.dramCe addr errs) ⟨s, q⟩ = .next ⟨(((s.bump (R.DMCP_ECC_CE (pairOf addr))).bump R.DMC_ECC_CE).raise 0x1D 0x158 0 0 .fb).postTally 0x158 (pairOf addr), q⟩) ∧
  (∀ (s t : Block) (q : List Instr),
      s.abit R.DMC_SCRUB_CFG 0 = true → (s.pair s.dc.scrubPair).st = 2 → (s.pair s.dc.scrubPair).reqs = [] →
      t = (s.toLocal (s.dc.scrubAt + s.scrubGap)).scrubStamp →
      t.dc.poison.contains ((s.dc.scrubPair * 0x100000000 + 64 * s.dc.scrubBlk) / 64) = false → s.dc.scrubBlk + 1 < pairBlocks →
      exec (.dramScrubRead 0) ⟨s, q⟩ = .next ⟨t.scrubTo s.dc.scrubPair (s.dc.scrubBlk + 1), q⟩) ∧
  (∀ (s : Block) (q : List Instr) (i v : Nat) (arr : List (Bool × Bool × Nat)),
      i < 12 →
      exec (.slackSample i v arr) ⟨s, q⟩ = .next ⟨s.slackSample i v arr, q⟩) ∧
  (∀ (s : Block) (q : List Instr) (ch : Nat) (idle : Bool),
      ch < 24 → (s.pair (ch / 2)).st = 2 →
      exec (.refreshDue ch idle) ⟨s, q⟩ = .next ⟨s.refreshDue ch idle, q⟩) ∧
  (∀ (s : Block) (q : List Instr) (ch v : Nat) (above : Bool),
      ch < 24 → s.pairUp (ch / 2) = true →
      exec (.refreshRatePoll ch v above) ⟨s, q⟩ = .next ⟨s.ratePoll ch v above, q⟩) ∧
  (∀ (s : Block) (q : List Instr) (ch n : Nat),
      ch < 24 → (s.pair (ch / 2)).st = 2 →
      exec (.driftTrim ch n) ⟨s, q⟩ = .next ⟨(s.trimLane (ch / 2) (2 * (ch % 2)) n).trimLane (ch / 2) (2 * (ch % 2) + 1) n, q⟩) ∧
  (∀ (s : Block) (q : List Instr) (i : Nat),
      i < 12 → s.abit (R.DMCP_CFG i) 2 = true → (s.pair i).st = 2 → (s.pair i).reqs = [] →
      exec (.selfRefreshEntry i) ⟨s, q⟩ = .next ⟨(s.toLocal (s.idleAt i)).pairGoto i 3, q⟩) ∧
  (∀ (s : Block) (q : List Instr) (i : Nat),
      i < 12 → s.abit (R.DMCP_CFG i) 2 = true → (s.pair i).st = 3 →
      exec (.selfRefreshEntry i) ⟨s, q⟩ = .next ⟨s.selfRefresh i, q⟩) ∧
  (∀ (s : Block) (q : List Instr) (i : Nat) (held : Bool),
      i < 12 → (s.pair i).st = 3 →
      exec (.selfRefreshExit i held) ⟨s, q⟩ = .next ⟨((s.modPair i fun x => { x with lastReq := s.now }).pairGoto i 2).postTally 0x15C i, q⟩) ∧
  (∀ (s : Block) (q : List Instr) (i : Nat),
      i < 12 → (s.pair i).st = 4 →
      exec (.selfRefreshExit i false) ⟨s, q⟩ = .next ⟨((s.pairGoto i 5).modPair i fun x => { x with held := false }).pairGoto i 2, q⟩)

/-- The DRAM commands that change set points, take pairs out of service and sweep run, and what each leaves. A throttle that
lasts steps the cap down and a cool die steps it up; a change that fell due begins; a pair changes and leaves the set of
those that wait; one that waits is reported; the committed EN and OOS take effect; an accepted sweep starts on its pair
and ends with its masks. (derived: R463, R484, R486, R489, R490, R491) -/
def Obligations.DramSetPointCommandsRun : Prop :=
  (∀ (s : Block) (q : List Instr) (t0 : Nat),
      s.th.thrSince = some t0 → s.abit R.THERM_CTRL 0 = true →
      exec (.dramStepDownRequest) ⟨s, q⟩ = .next ⟨(s.advance (t0 + s.afld R.THERM_DRAM_CFG 0 16 * 1000000 - s.now)).stepDown, q⟩) ∧
  (∀ (s : Block) (q : List Instr) (t0 : Nat),
      s.th.coolSince = some t0 → s.afld R.DMC_FREQ_CFG 0 2 < s.dc.cap →
      exec (.dramStepUpRequest) ⟨s, q⟩ = .next ⟨(s.advance (t0 + s.afld R.THERM_DRAM_CFG 16 16 * 1000000000 - s.now)).stepUp, q⟩) ∧
  (∀ (s : Block) (q : List Instr) (c : Nat),
      s.dc.due = some c →
      exec (.dramFreqChangeStart) ⟨s, q⟩ = .next ⟨s.changeStart c, q⟩) ∧
  (∀ (s : Block) (q : List Instr) (i : Nat) (c : FreqChange),
      i < 12 → s.dc.change = some c → natBit c.left i = true → s.mayChange i = true →
      exec (.pairFreqChange i) ⟨s, q⟩ = .next ⟨(let t := s.modPair i fun x => { x with owed := x.owed.map fun o => min o 0 }
      let t := if (s.pair i).st = 2 then ((t.pairGoto i 6).loadDelays i c.target).pairGoto i 2 else t.loadDelays i c.target
      let t := t.autoClose 0x1E 0x152 fun d => bits d 0 8 == i
      ({ t with dc := { t.dc with change := some { c with left := c.left - 2 ^ i } } } : Block).changeDone), q⟩) ∧
  (∀ (s : Block) (q : List Instr) (i : Nat) (c : FreqChange),
      i < 12 → s.dc.change = some c → natBit c.left i = true → natBit c.late i = false → natBit c.waited i = false →
      exec (.dramFreqWait i) ⟨s, q⟩ = .next ⟨(let t := s.advance (c.since + 10000000 - s.now)
      ({ t with dc := { t.dc with change := some { c with waited := c.waited + 2 ^ i } } } : Block).postI 0x1E 0x152 0 i false
        [pk i 0 0 0, w32 ((t.pair i).slackRep + 16777216 * (t.pair i).rdRep)]), q⟩) ∧
  (∀ (s : Block) (q : List Instr) (i : Nat),
      i < 12 → bit (s.act (R.DMCP_CFG i)) 0 = true → bit (s.act (R.DMCP_CFG i)) 1 = true → (s.pair i).st = 2 →
      exec (.pairOutOfService i) ⟨s, q⟩ = .next ⟨s.pairGoto i 7, q⟩) ∧
  (∀ (s : Block) (q : List Instr) (i : Nat),
      i < 12 → bit (s.act (R.DMCP_CFG i)) 0 = true → bit (s.act (R.DMCP_CFG i)) 1 = false → (s.pair i).st = 7 →
      exec (.pairOutOfService i) ⟨s, q⟩ = .next ⟨s.pairIn i, q⟩) ∧
  (∀ (s : Block) (q : List Instr) (cseq : Word) (xok : Bool) (c : Cmd),
      s.startable cseq 0xE = some c → c.par 16 1 ≤ 10 → c.par 17 1 ≤ 3 → c.par 18 1 ≤ 1 → s.dc.sweep = none → s.ca = none →
      (s.pair (c.par 16 1)).st = 7 →
      exec (.dramSweep cseq [] xok) ⟨s, q⟩ = .next ⟨(let w : Sweep := { cseq := c.cseq, pair := c.par 16 1, sp := c.par 17 1,
                                                                        space := natBit (c.par 18 1) 0, addr := c.par 24 8, calib := false }
      (s.sweepStart w).setStage c.cseq 1), q⟩) ∧
  (∀ (s : Block) (q : List Instr) (cseq : Word) (pass : List Nat) (xok : Bool) (w : Sweep),
      s.startable cseq 0xE = none → s.dc.sweep = some w → w.cseq = cseq → w.calib = false → pass.length = 8 →
      exec (.dramSweep cseq pass xok) ⟨s, q⟩ = .next ⟨s.sweepEnd w pass xok, q⟩)

/-- The colour commands run: the windows, the reports, the set and its digest, and what each leaves. A window of a pair that
is enabled and unsaturated adds its estimate; an offset window gives the ambient; an epoch that ends freezes the report;
the report goes out after the head delay; reports and digests that arrive are judged; the collection closes 120 ms and
the digests 230 ms after the epoch. (derived: R419, R421, R422, R427, R428, R430, R431, R433) -/
def Obligations.ColourCommandsRun : Prop :=
  (∀ (s t : Block) (q : List Instr) (j r code : Nat),
      j < 8 → r < 4 → s.pdEn j = true → s.pw.state.running = true → s.offsetAt j r = some t →
      exec (.offsetWindowClose j r code 0) ⟨s, q⟩ = .next ⟨t.modPd j fun k =>
          { k with amb := (code - ((t.pd j).off.getD r none).getD (Config.pdOffset j r)) * t.pdG j r / 65536 }, q⟩) ∧
  (∀ (s : Block) (q : List Instr) (g i flat filt a b k : Nat) (x : Slot),
      g < 4 → s.pw.state.lightOn = true → s.pairOfGroup g = some (a, b, k) → (calSlots (s.port g).words)[i]? = some x →
      x.measure = true → (s.measureWindow g i a b x).1 < (s.measureWindow g i a b x).2 →
      (s.toSlot (s.measureWindow g i a b x).2).pdEn a = true → (s.toSlot (s.measureWindow g i a b x).2).pdEn b = true →
      exec (.measureWindowClose g i flat filt 0 0) ⟨s, q⟩ = .next ⟨(s.toSlot (s.measureWindow g i a b x).2).measureTake g a b k ((s.measureWindow g i a b x).2 - (s.measureWindow g i a b x).1) x flat filt, q⟩) ∧
  (∀ (s : Block) (q : List Instr) (d : Bytes),
      s.tm.run = true → s.abit R.OPT_CTRL 1 = true →
      exec (.colourReport d) ⟨s, q⟩ = .next ⟨s.reportIn d, q⟩) ∧
  (∀ (s : Block) (q : List Instr) (d : Bytes),
      s.tm.run = true → s.abit R.OPT_CTRL 1 = true →
      exec (.colourDigest d) ⟨s, q⟩ = .next ⟨s.digestIn d, q⟩) ∧
  (∀ (s : Block) (q : List Instr),
      s.tm.run = true →
      exec (.epochEnd) ⟨s, q⟩ = .next ⟨s.epochEnd, q⟩) ∧
  (∀ (s : Block) (q : List Instr) (r : ColReport),
      s.tm.run = true → s.abit R.OPT_CTRL 1 = true → s.co.own = some r →
      exec (.reportSend) ⟨s, q⟩ = .next ⟨(let t := s.advanceTo (s.epochStart + s.headDelay)
      t.sendGroup0 (padBytes 64 (t.consHead 1 r.epoch ++ r.bytes ++ leBytes 2 (t.afld R.OPT_CONS_CFG 16 16)))), q⟩) ∧
  (∀ (s : Block) (q : List Instr),
      s.tm.run = true → s.abit R.OPT_CTRL 1 = true → s.epochLen ≤ s.tm.ft →
      exec (.collectionClose) ⟨s, q⟩ = .next ⟨s.collect, q⟩) ∧
  (∀ (s : Block) (q : List Instr),
      s.tm.run = true → s.abit R.OPT_CTRL 1 = true → s.epochLen ≤ s.tm.ft →
      exec (.digestClose) ⟨s, q⟩ = .next ⟨s.decide_, q⟩)

/-- The CALIBRATE procedures and the commands that end a run run, and what each leaves. Each of PD, PI, SCAN and DRAM starts
where its parameters are legal, nothing else runs, no photodiode is claimed elsewhere and no precondition fails; its
result is judged; a precondition that is lost, an abort, a time-out and a change of the set point end it. (derived:
R435, R436, R437, R438, R443, R444, R445) -/
def Obligations.CalibrateCommandsRun : Prop :=
  (∀ (s : Block) (q : List Instr) (cseq : Word) (c : Cmd),
      s.startable cseq 6 = some c → c.par 16 1 = 1 → calParamsOk c = true → s.ca = none → s.dc.sweep = none →
      s.calFails (s.calRunOf c 1) false = [] →
      exec (.calibratePd cseq) ⟨s, q⟩ = .next ⟨s.calStart (s.calRunOf c 1), q⟩) ∧
  (∀ (s : Block) (q : List Instr) (cseq : Word) (c : Cmd),
      s.startable cseq 6 = some c → c.par 16 1 = 2 → calParamsOk c = true → (memCfg s.act (c.par 18 2)).group ≠ 4 → s.ca = none →
      s.dc.sweep = none → s.calFails (s.calRunOf c 2) false = [] →
      exec (.calibratePi cseq) ⟨s, q⟩ = .next ⟨s.calStart (s.calRunOf c 2), q⟩) ∧
  (∀ (s : Block) (q : List Instr) (cseq : Word) (c : Cmd),
      s.startable cseq 6 = some c → c.par 16 1 = 3 → calParamsOk c = true → s.ca = none → s.dc.sweep = none →
      s.calFails (s.calRunOf c 3) false = [] →
      exec (.calibrateScan cseq) ⟨s, q⟩ = .next ⟨s.calStart (s.calRunOf c 3), q⟩) ∧
  (∀ (s : Block) (q : List Instr) (cseq : Word) (c : Cmd),
      s.startable cseq 6 = some c → c.par 16 1 = 4 → calParamsOk c = true → s.ca = none → s.dc.sweep = none →
      s.calFails (s.calRunOf c 4) false = [] →
      exec (.calibrateDram cseq) ⟨s, q⟩ = .next ⟨s.calStart (s.calRunOf c 4), q⟩) ∧
  (∀ (s : Block) (q : List Instr) (d : CalData) (r : CalRun),
      s.ca = some r → r.phase = 3 → calDataOk r d = true → s.calFails r true = [] →
      exec (.calibrationResult d) ⟨s, q⟩ = .next ⟨s.calibrationResult r d, q⟩) ∧
  (∀ (s : Block) (q : List Instr) (r : CalRun) (d : Nat) (l : List Nat),
      s.ca = some r → r.phase < 7 → s.calFails r true = d :: l →
      exec (.precondLost) ⟨s, q⟩ = .next ⟨s.calStop 0x8002 d, q⟩) ∧
  (∀ (s : Block) (q : List Instr) (v : Word),
      s.hostOk = true → bit v 0 = true →
      exec (.trimAbort v) ⟨s, q⟩ = .next ⟨s.calStop 5 0, q⟩) ∧
  (∀ (s : Block) (q : List Instr) (r : CalRun),
      s.ca = some r →
      exec (.trimTimeout) ⟨s, q⟩ = .next ⟨(s.advance (r.since + s.afld R.TRIM_TIMEOUT 0 16 * 1000000000 - s.now)).calStop 0x8003 0, q⟩) ∧
  (∀ (s : Block) (q : List Instr) (w : Sweep) (c : Nat),
      s.dc.sweep = some w → s.dc.due = some c → w.calib = true →
      exec (.sweepAborted) ⟨s, q⟩ = .next ⟨s.calStop 0x8001 0, q⟩) ∧
  (∀ (s : Block) (q : List Instr) (w : Sweep) (c : Nat),
      s.dc.sweep = some w → s.dc.due = some c → w.calib = false →
      exec (.sweepAborted) ⟨s, q⟩ = .next ⟨((s.sweepOver w).post 0x1D 0x154 [pk w.pair w.sp 1 0, w.cseq]).complete w.cseq 0x8001, q⟩)

/-- The Seedbank commands run: the writer, the reserved copies, the scrub, the slot capture, SEED_STORE and SEED_LOAD, and
what each leaves. The writer takes the oldest request and writes words; a committed record completes its command; a slot
is checked; the oldest reserved copy is written; the scrub reads its next word; the slot of a type is captured; a legal
SEED_STORE without owner policy queues its record; SEED_LOAD of a valid record writes header and payload to the host.
(derived: R504, R506, R507, R510, R512, R513, R514, R515) -/
def Obligations.SeedbankCommandsRun : Prop :=
  (∀ (s : Block) (q : List Instr) (n : Nat),
      exec (.seedRecordWrite n) ⟨s, q⟩ = .next ⟨s.seedStart.seedStep n, q⟩) ∧
  (∀ (s t : Block) (q : List Instr) (w : SeedWrite) (c : Word),
      s.seedCommit = (t, some w) → policyType w.req.ty = false → w.req.why = .store → w.req.cseq = some c →
      exec (.seedWriteDone) ⟨s, q⟩ = .next ⟨t.complete c 0, q⟩) ∧
  (∀ (s : Block) (q : List Instr) (ty slot : Nat),
      (slotTable ty).isSome = true → slot < 2 → s.slotBusy ty slot = false →
      exec (.seedChkOnly ty slot) ⟨s, q⟩ = .next ⟨s.seedCheck ty slot, q⟩) ∧
  (∀ (s : Block) (q : List Instr) (n i : Nat) (r : SeedReq),
      s.se.wr = none → s.se.copyWr = none → s.se.queue.findIdx? (fun r => decide (2 ≤ r.kind)) = some i →
      s.se.queue[i]? = some r → r.kind = 2 →
      exec (.reservedSlotWrite n) ⟨s, q⟩ = .next ⟨({ s with se := { s.se with queue := s.se.queue.eraseIdx i,
                                                                              copyWr := some (s.copyBegin r.ty r.data) } } : Block).copyStep n, q⟩) ∧
  (∀ (s t : Block) (q : List Instr),
      bit (s.reg R.SEED_CTRL) 0 = true → s.se.wr = none → t = (s.toLocal (s.se.scrubAt + seedScrubGap)).scrubWord s.se.scrub →
      t.se.bad.contains s.se.scrub = false →
      exec (.seedScrubRead 0) ⟨s, q⟩ = .next ⟨t, q⟩) ∧
  (∀ (s : Block) (q : List Instr) (v : Word),
      s.hostOk = true → bit (s.reg (R.PAGE_LOCK 0x1F)) 0 = false →
      exec (.seedSelCapture v) ⟨s, q⟩ = .next ⟨s.seedSel v, q⟩) ∧
  (∀ (s : Block) (q : List Instr) (cseq : Word) (d : Bytes) (c : Cmd),
      s.startable cseq 7 = some c → storeType (c.par 16 2) = true → c.par 18 1 = 0 → c.par 20 4 ≠ 0 →
      c.par 20 4 ≤ slotSize (c.par 16 2) - 32 → s.ownerPolicy = false →
      exec (.seedStore cseq (some d)) ⟨s, q⟩ = .next ⟨
          (s.seedAsk (recordReq (c.par 16 2) false (padBytes (c.par 20 4) d) (some c.cseq) .store)).setStage c.cseq 1, q⟩) ∧
  (∀ (s : Block) (q : List Instr) (cseq : Word) (k : Nat) (c : Cmd),
      s.startable cseq 8 = some c → (slotTable (c.par 16 2)).isNone = false → c.par 18 1 = 0 → s.newest (c.par 16 2) = some k →
      (s.slot (c.par 16 2) k).st = 1 → c.par 16 2 ≠ 8 → 16 + (s.slot (c.par 16 2) k).payload.length ≤ c.par 20 4 →
      exec (.seedLoad cseq true) ⟨s, q⟩ = .next ⟨(((s.slotErrors (c.par 16 2) k).emit (.hostWrite (c.par 24 8) ((leBytes 2 (c.par 16 2) ++ leBytes 2 1 ++ leBytes 4 (s.slot (c.par 16 2) k).seq.toNat ++ leBytes 4 (s.slot (c.par 16 2) k).payload.length ++ leBytes 4 0) ++ (s.slot (c.par 16 2) k).payload))).complete c.cseq 0), q⟩)

/-- The trust commands run: ATTEST, the four OWNER_KEY operations and the debug challenge, and what each leaves. ATTEST
captures at acceptance and ends with its signature; an OWNER_KEY whose package is read installs a first key, revokes,
turns the policy on or restores, each where R521 and R522 let it; a new challenge is made, a response is judged, and a
challenge expires after 60 s. (derived: R520, R521, R522, R526, R527, R528) -/
def Obligations.TrustCommandsRun : Prop :=
  (∀ (s : Block) (q : List Instr) (cseq : Word) (xok : Bool) (c : Cmd),
      s.tr.attest = none → s.startable cseq 9 = some c → s.attestWaits cseq = false → c.par 24 1 ≤ 1 →
      768 + 72 * s.bt.mlog.length + 4 + s.tr.cert.length ≤ c.par 28 4 → s.tr.identity = true →
      exec (.attest cseq none xok) ⟨s, q⟩ = .next ⟨(({ s with tr := { s.tr with attest := some { cseq := c.cseq, dev := natBit (c.par 24 1) 0, addr := c.par 16 8, quote := s.quote ((c.param.drop 16).take 32), log := s.logBytes, count := s.bt.mlog.length } } } : Block).setStage c.cseq 1), q⟩) ∧
  (∀ (s : Block) (q : List Instr) (cseq : Word) (g : Bytes) (xok : Bool) (a : Attest),
      s.tr.attest = some a → a.cseq = cseq → s.startable cseq 9 = none →
      exec (.attest cseq (some g) xok) ⟨s, q⟩ = .next ⟨(s.attestEnd a g xok).rsaServe s.tr.rsaWait, q⟩) ∧
  (∀ (s : Block) (q : List Instr) (cseq : Word) (d : Bytes) (c : Cmd),
      s.startable cseq 0xA = some c → c.par 16 1 = 1 → s.pw.state = .ready → c.par 17 1 ≤ 3 → c.par 18 1 = 0 →
      field (padBytes 1040 d) 512 1 = c.par 16 1 → field (padBytes 1040 d) 513 1 = c.par 17 1 →
      s.ownerUsed (ownerOp c (padBytes 1040 d)).slot = false → (List.range 4).any s.ownerUsed = false →
      (ownerOp c (padBytes 1040 d)).auth = 255 → ((padBytes 1040 d).drop 516).take 8 = s.uidBytes →
      exec (.ownerKeyInstall cseq (some d)) ⟨s, q⟩ = .next ⟨s.ownerRecord (ownerOp c (padBytes 1040 d)), q⟩) ∧
  (∀ (s : Block) (q : List Instr) (cseq : Word) (d : Bytes) (c : Cmd),
      s.startable cseq 0xA = some c → c.par 16 1 = 2 → s.pw.state = .ready → c.par 17 1 ≤ 3 → c.par 18 1 = 0 →
      field (padBytes 1040 d) 512 1 = c.par 16 1 → field (padBytes 1040 d) 513 1 = c.par 17 1 →
      s.authOk (ownerOp c (padBytes 1040 d)) (padBytes 1040 d) = true → (s.verified true).fuse 2950 = false →
      exec (.ownerKeyRevoke cseq (some d)) ⟨s, q⟩ = .next ⟨
          (s.verified true).ownerDone (ownerOp c (padBytes 1040 d)) [2944 + (ownerOp c (padBytes 1040 d)).slot], q⟩) ∧
  (∀ (s : Block) (q : List Instr) (cseq : Word) (d : Bytes) (c : Cmd),
      s.startable cseq 0xA = some c → c.par 16 1 = 3 → s.pw.state = .ready → c.par 17 1 ≤ 3 → c.par 18 1 = 0 →
      field (padBytes 1040 d) 512 1 = c.par 16 1 → field (padBytes 1040 d) 513 1 = c.par 17 1 →
      s.authOk (ownerOp c (padBytes 1040 d)) (padBytes 1040 d) = true →
      exec (.ownerKeyPolicyOn cseq (some d)) ⟨s, q⟩ = .next ⟨(s.verified true).ownerDone (ownerOp c (padBytes 1040 d)) [2950], q⟩) ∧
  (∀ (s : Block) (q : List Instr) (cseq : Word) (d : Bytes) (c : Cmd),
      s.startable cseq 0xA = some c → c.par 16 1 = 4 → s.pw.state = .ready → c.par 17 1 ≤ 3 → c.par 18 1 = 0 →
      field (padBytes 1040 d) 512 1 = c.par 16 1 → field (padBytes 1040 d) 513 1 = c.par 17 1 →
      s.ownerUsed (ownerOp c (padBytes 1040 d)).slot = true →
      (sha512 (ownerOp c (padBytes 1040 d)).modulus == s.ownerHash (ownerOp c (padBytes 1040 d)).slot) = true →
      exec (.ownerKeyRestore cseq (some d)) ⟨s, q⟩ = .next ⟨s.ownerRecord (ownerOp c (padBytes 1040 d)), q⟩) ∧
  (∀ (s : Block) (q : List Instr) (random : Bytes),
      s.hostOk = true →
      exec (.jtagNewChallenge random) ⟨s, q⟩ = .next ⟨s.newChallenge random, q⟩) ∧
  (∀ (s : Block) (q : List Instr) (modulus : Bytes) (scope : Word) (sig : Bytes),
      s.hostOk = true →
      exec (.jtagResponse modulus scope sig) ⟨s, q⟩ = .next ⟨s.jtagResponse modulus scope sig, q⟩) ∧
  (∀ (s : Block) (q : List Instr),
      s.tr.chalValid = true →
      exec (.jtagChallengeExpiry) ⟨s, q⟩ = .next ⟨{ s.advance (s.tr.chalAt + 60000000000 - s.now) with tr := { (s.advance (s.tr.chalAt + 60000000000 - s.now)).tr with chalValid := false, jtagResult := 3 } }, q⟩)

/-- The commands of the Almanac run: context writes, CUE_OP, fetching and firing, fine time, cues from the fabric, and what
each leaves. Words 0 to 2 of a context that is not ARMED or FIRED are written, and of one that is they are refused; word 3,
ARM and CANCEL move STATE where Table 18.2 lets them and are refused elsewhere; CANCEL_ALL cancels every ARMED context; the
actions of the next effect frame are fetched once and fired once; the fine-time cue next in turn fires at its tick; a CUE
frame of 20 bytes is carried out and reported. (derived: R573, R574, R575, R578,
R579, R582, R583, R590) -/
def Obligations.CueCommandsRun : Prop :=
  (∀ (s : Block) (q : List Instr) (i : Nat) (v : Word),
      i < 262144 → s.hostOk = true → (s.ctx i).st ≠ 1 → (s.ctx i).st ≠ 2 →
      exec (.cueContextWrite i 0 v) ⟨s, q⟩ = .next ⟨s.setCtx i { s.ctx i with trigger := (s.ctx i).trigger / 0x100000000 * 0x100000000 + v.toNat }, q⟩) ∧
  (∀ (s : Block) (q : List Instr) (i : Nat) (v : Word),
      i < 262144 → s.hostOk = true → (s.ctx i).st ≠ 1 → (s.ctx i).st ≠ 2 →
      exec (.cueContextWrite i 1 v) ⟨s, q⟩ = .next ⟨s.setCtx i { s.ctx i with trigger := (s.ctx i).trigger % 0x100000000 + v.toNat * 0x100000000 }, q⟩) ∧
  (∀ (s : Block) (q : List Instr) (i : Nat) (v : Word),
      i < 262144 → s.hostOk = true → (s.ctx i).st ≠ 1 → (s.ctx i).st ≠ 2 →
      exec (.cueContextWrite i 2 v) ⟨s, q⟩ = .next ⟨s.setCtx i { s.ctx i with action := v.toNat }, q⟩) ∧
  (∀ (s : Block) (q : List Instr) (i w : Nat) (v : Word),
      i < 262144 → s.hostOk = true → w < 3 → (s.ctx i).st = 1 ∨ (s.ctx i).st = 2 →
      exec (.cueContextWrite i w v) ⟨s, q⟩ = .next ⟨s.bump R.CUE_WRITE_REFUSED, q⟩) ∧
  (∀ (s : Block) (q : List Instr) (i : Nat) (v : Word),
      i < 262144 → s.hostOk = true →
      exec (.cueContextWrite i 3 v) ⟨s, q⟩ = .next ⟨if cueMay (s.ctx i).st (bits v 0 3) = true then s.cueGo i ((s.ctx i).withFlags v) (bits v 0 3)
        else (s.setCtx i ((s.ctx i).withFlags v)).bump R.CUE_WRITE_REFUSED, q⟩) ∧
  (∀ (s : Block) (q : List Instr) (v : Word),
      s.hostOk = true →
      exec (.cueOpArm v) ⟨s, q⟩ = .next ⟨if cueMay (s.ctx (bits v 0 18)).st 1 = true then s.cueGo (bits v 0 18) (s.ctx (bits v 0 18)) 1
        else s.bump R.CUE_WRITE_REFUSED, q⟩) ∧
  (∀ (s : Block) (q : List Instr) (v : Word),
      s.hostOk = true →
      exec (.cueOpCancel v) ⟨s, q⟩ = .next ⟨if (s.ctx (bits v 0 18)).st = 1 then s.cueGo (bits v 0 18) (s.ctx (bits v 0 18)) 5
        else s.bump R.CUE_WRITE_REFUSED, q⟩) ∧
  (∀ (s : Block) (q : List Instr) (v : Word),
      s.hostOk = true →
      exec (.cueOpCancelAll v) ⟨s, q⟩ = .next ⟨(s.cu.ctx.filter fun e => e.2.st == 1).foldl (fun t e => t.cueState e.1 5) s, q⟩) ∧
  (∀ (s : Block) (q : List Instr) (bad : List Nat),
      s.cueOn = true → s.cu.firedK ≠ s.cueE → s.tm.cutoffDone = false →
      exec (.cueActionFetch bad) ⟨s, q⟩ = .next ⟨s.cueFetch bad, q⟩) ∧
  (∀ (s : Block) (q : List Instr) (bad : List Nat),
      s.cueOn = true → s.cu.firedK ≠ s.cueE → s.tm.cutoffDone = false →
      exec (.cueFiring bad) ⟨s, q⟩ = .next ⟨s.cueFire bad, q⟩) ∧
  (∀ (s : Block) (q : List Instr) (ref i : Nat) (c : CueCtx) (bad : Bool),
      s.cueOn = true → s.nextFine = some (ref, i, c) → s.fineTick ref ≤ s.nextFb →
      exec (.fineCueTick bad) ⟨s, q⟩ = .next ⟨(s.advanceTo (s.fineTick ref)).fineFire i c ref (s.fineTick ref) bad, q⟩) ∧
  (∀ (s : Block) (q : List Instr) (src : Nat) (d : Bytes),
      s.fabOn = true → d.length = 20 →
      exec (.cueFrame src d) ⟨s, q⟩ = .next ⟨(let t := (s.bump R.CUE_FAB_RX).fabCue d
      t.1.post 0x27 0x1E3 [w32 (src % 65536 + 65536 * field d 0 1 + 16777216 * t.2), w32 (field d 4 4)]), q⟩)

/-- The commands of holdover run: the ring and its player, the library, FORCE_REJOIN, CLEAR_RING and VERIFY, and what each
leaves. The ring records the watched source while it is enabled and holdover is not in force; the player decodes its
next picture; the library reader runs; FORCE_REJOIN is remembered while holdover is in force; CLEAR_RING empties the
ring while it is not; a VERIFY of frames that exist reports how many failed. (derived: R595, R596, R598, R599, R601,
R605) -/
def Obligations.HoldoverCommandsRun : Prop :=
  (∀ (s : Block) (q : List Instr) (coded pps : Bytes) (done : Bool),
      exec (.ringRecord coded pps done) ⟨s, q⟩ = .next ⟨s.ringRecord coded pps done, q⟩) ∧
  (∀ (s : Block) (q : List Instr) (pix : Pixels),
      exec (.ringPlayerDecode pix) ⟨s, q⟩ = .next ⟨s.playDecode pix, q⟩) ∧
  (∀ (s : Block) (q : List Instr),
      exec (.libraryRead) ⟨s, q⟩ = .next ⟨s.libraryRead, q⟩) ∧
  (∀ (s : Block) (q : List Instr),
      s.hostOk = true → s.ho.inForce = true →
      exec (.forceRejoin) ⟨s, q⟩ = .next ⟨s.modHo fun h => { h with force := true }, q⟩) ∧
  (∀ (s : Block) (q : List Instr),
      s.hostOk = true → s.ho.inForce = false →
      exec (.clearRing) ⟨s, q⟩ = .next ⟨(s.ho.slots.foldl (fun t e => t.slotWrite e.1 0 (leBytes 4 0)) s).modHo fun h => { h with slots := [] }, q⟩) ∧
  (∀ (s : Block) (q : List Instr) (cseq : Word) (reads : List (Bytes × Bytes)) (c : Cmd),
      s.startable cseq 0x0D = some c → c.par 16 1 = 1 → s.sf.nvme.st = 3 → c.par 24 4 ≠ 0 →
      c.par 20 4 + c.par 24 4 ≤ field s.sf.nvme.header 8 4 →
      exec (.holdCtrlVerify cseq reads) ⟨s, q⟩ = .next ⟨(((((reads.take (c.par 24 4)).map (·.1)).mapIdx fun k e => (c.par 20 4 + k, e)).foldl
        (fun (s : Block) x => s.verifyReads x.1 x.2) s).postI 0x28 0x1F3 0 (pageInst 0x28) true
        [c.cseq, w32 (c.par 24 4), w32 (verifyFailed (c.par 20 4) (reads.take (c.par 24 4)) + (c.par 24 4 - reads.length))]).complete c.cseq 0, q⟩)

/-- The check-value units and the Tally commands run, and what each leaves. START, MEM and FINISH are writes of CHK_CFG
whose value is legal: the configuration is taken and the operation follows; FEED enters a word in an open unit, MEM_DONE
ends a read, a parameter write stores or captures 64 bits; TALLY_CLEAR, a wrap at 2^48 and the GPIO inputs act on the
counters. (derived: R607, R608, R609, R610, R611, R613, R617, R618, R621) -/
def Obligations.CheckUnitAndTallyCommandsRun : Prop :=
  (∀ (s : Block) (q : List Instr) (u : Nat) (v : Word) (r : RegRow),
      s.hostOk = true → u < 8 → rowAt (R.CHK_CFG u) = some r → bit (s.reg (R.PAGE_LOCK (pageOf (R.CHK_CFG u)))) 0 = false →
      r.legalVal (r.merge (s.reg (R.CHK_CFG u)) (setBits v 28 3 1)) = true → bit (setBits v 28 3 1) 28 = true →
      bit (setBits v 28 3 1) 29 = false → bit (setBits v 28 3 1) 30 = false →
      exec (.chkStart u v) ⟨s, q⟩ = .next ⟨(s.setReg (R.CHK_CFG u) (r.merge (s.reg (R.CHK_CFG u)) (setBits v 28 3 1))).chkStart u, q⟩) ∧
  (∀ (s : Block) (q : List Instr) (u : Nat) (v : Word) (r : RegRow),
      s.hostOk = true → u < 8 → rowAt (R.CHK_CFG u) = some r → bit (s.reg (R.PAGE_LOCK (pageOf (R.CHK_CFG u)))) 0 = false →
      r.legalVal (r.merge (s.reg (R.CHK_CFG u)) (setBits v 28 3 2)) = true → bit (setBits v 28 3 2) 28 = false →
      bit (setBits v 28 3 2) 29 = true → bit (setBits v 28 3 2) 30 = false →
      exec (.chkMem u v) ⟨s, q⟩ = .next ⟨(s.setReg (R.CHK_CFG u) (r.merge (s.reg (R.CHK_CFG u)) (setBits v 28 3 2))).chkMem u, q⟩) ∧
  (∀ (s : Block) (q : List Instr) (u : Nat) (v : Word) (r : RegRow),
      s.hostOk = true → u < 8 → rowAt (R.CHK_CFG u) = some r → bit (s.reg (R.PAGE_LOCK (pageOf (R.CHK_CFG u)))) 0 = false →
      r.legalVal (r.merge (s.reg (R.CHK_CFG u)) (setBits v 28 3 4)) = true → bit (setBits v 28 3 4) 28 = false →
      bit (setBits v 28 3 4) 29 = false → bit (setBits v 28 3 4) 30 = true →
      exec (.chkFinish u v) ⟨s, q⟩ = .next ⟨(s.setReg (R.CHK_CFG u) (r.merge (s.reg (R.CHK_CFG u)) (setBits v 28 3 4))).chkFinish u, q⟩) ∧
  (∀ (s : Block) (q : List Instr) (u : Nat) (v : Word),
      s.hostOk = true → u < 8 → (s.chkU u).isOpen = true → (s.chkU u).busy = false →
      exec (.chkFeed u v) ⟨s, q⟩ = .next ⟨s.modChk u fun k => k.word v, q⟩) ∧
  (∀ (s : Block) (q : List Instr) (u : Nat),
      u < 8 → (s.chkU u).busy = true →
      exec (.chkMemDone u) ⟨s, q⟩ = .next ⟨s.chkMemDone u, q⟩) ∧
  (∀ (s : Block) (q : List Instr) (u : Nat) (v : Word) (r : RegRow),
      s.hostOk = true → u < 8 → rowAt (R.CHK_PHI u) = some r → bit (s.reg (R.PAGE_LOCK (pageOf (R.CHK_PHI u)))) 0 = false →
      r.legalVal (r.merge (s.reg (R.CHK_PHI u)) v) = true →
      exec (.chkParameterWrite u true v) ⟨s, q⟩ = .next ⟨(s.setReg (R.CHK_PHI u) (r.merge (s.reg (R.CHK_PHI u)) v)).modChk u fun k =>
        k.putParam (s.fld (R.CHK_PSEL u) 0 3) ((r.merge (s.reg (R.CHK_PHI u)) v).toNat * 0x100000000 + (s.reg (R.CHK_PLO u)).toNat), q⟩) ∧
  (∀ (s : Block) (q : List Instr) (u : Nat) (v : Word) (r : RegRow),
      s.hostOk = true → u < 8 → rowAt (R.CHK_PSEL u) = some r → bit (s.reg (R.PAGE_LOCK (pageOf (R.CHK_PSEL u)))) 0 = false →
      r.legalVal (r.merge (s.reg (R.CHK_PSEL u)) v) = true →
      exec (.chkParameterWrite u false v) ⟨s, q⟩ = .next ⟨(let x := (s.chkU u).param (bits (r.merge (s.reg (R.CHK_PSEL u)) v) 0 3)
      s.setRegs [(R.CHK_PSEL u, r.merge (s.reg (R.CHK_PSEL u)) v), (R.CHK_PLO u, w32 x), (R.CHK_PHI u, w32 (x / 0x100000000))]), q⟩) ∧
  (∀ (s : Block) (q : List Instr) (v : Word),
      s.hostOk = true → bit v 0 = true →
      exec (.tallyClear v) ⟨s, q⟩ = .next ⟨{ s with ty := { s.ty with clearPending := true } }, q⟩) ∧
  (∀ (s : Block) (q : List Instr) (n : Nat) (c : TallyCnt),
      s.ty.cnt[n]? = some c → 2 ^ 48 ≤ c.count →
      exec (.tallyWrap n) ⟨s, q⟩ = .next ⟨(({ s with ty := { s.ty with cnt := setAt s.ty.cnt n { c with count := c.count % 2 ^ 48,
                                                                                                        wrapped := true } } } : Block).setFld
        R.TALLY_STATUS 0 6 n).post 0x2A 0x1A8 [pk n 0 0 0, s.tm.fsn], q⟩) ∧
  (∀ (s : Block) (q : List Instr) (levels : Word),
      exec (.gpioTallyIn levels) ⟨s, q⟩ = .next ⟨(List.range 32).foldl (fun t i =>
        if !bit s.pins.gpioIn i && bit levels i && t.fld (R.PIN_GPIO_MUX (i / 8)) (4 * (i % 8)) 4 == 5 then t.postTally 0x1B0 i else t)
        { s with pins := { s.pins with gpioIn := levels } }, q⟩)

/-- The safety inputs, the supervisor's dead-man and lockstep, and FAULT_CLEAR run, and what each leaves. In READY an input
that comes to permit light is reported, one that comes to forbid it acts as R634 says; the dead-man and the lockstep
take the light away and open their C4 record while SV runs; FAULT_CLEAR of every record closes those whose condition has
ended. (derived: R629, R630, R633, R634, R635, R636, R637) -/
def Obligations.SafetyAndFaultCommandsRun : Prop :=
  (∀ (s : Block) (q : List Instr) (i : Nat),
      ¬ 3 ≤ i → s.inputForbids i = true → s.pw.state = .ready → s.pw.coreGated = false → s.fl.svRunning = true →
      exec (.safetyInput i true) ⟨s, q⟩ = .next ⟨(s.setInput i true).permit i, q⟩) ∧
  (∀ (s : Block) (q : List Instr) (i : Nat),
      ¬ 3 ≤ i → s.inputForbids i = false → s.pw.state = .ready → s.pw.coreGated = false → s.fl.svRunning = true →
      exec (.safetyInput i false) ⟨s, q⟩ = .next ⟨(s.setInput i false).forbid i, q⟩) ∧
  (∀ (s : Block) (q : List Instr),
      s.fl.svRunning = true →
      exec (.svDeadman) ⟨s, q⟩ = .next ⟨(let f := { s.fl with deadman := true, pathAsserted := true, svRunning := false,
                                                              svSelfTest := true, deadmanTrips := satN 16 (s.fl.deadmanTrips + 1) }
      let t : Block := { s with fl := f }
      (t.lightOut.postI 0x2B 0x205 4 (pageInst 0x2B) false [s.fl.nextFid, s.tm.fsn]).raise 0x2B 0x205 3 s.fl.nextFid .clear), q⟩) ∧
  (∀ (s : Block) (q : List Instr),
      s.fl.svRunning = true →
      exec (.svLockstep) ⟨s, q⟩ = .next ⟨(let n := satN 32 (s.fl.mismatches + 1)
      let t : Block := { s with fl := { s.fl with mismatches := n, lockErr := true, pathAsserted := true, svRunning := false, svSelfTest := true } }
      (t.lightOut.postI 0x2B 0x20B 4 (pageInst 0x2B) false [w32 n, s.tm.fsn]).raise 0x2B 0x20B 3 (w32 n) .clear), q⟩) ∧
  (∀ (s : Block) (q : List Instr) (cseq : Word) (c : Cmd),
      s.startable cseq 0xF = some c → c.par 20 1 = 0 → ((c.param.drop 5).any (· != 0)) = false → w32 (c.par 16 4) = 0xFFFFFFFF →
      exec (.faultClear cseq) ⟨s, q⟩ = .next ⟨s.faultClear c (s.fl.recs.filter fun e => e.2.isOpen && e.2.clearable), q⟩)

/-- Serial numbers half the range apart are not newer. When the difference of two 32-bit serial numbers modulo 2^32 equals 2^31,
the first is treated as not newer than the second. (R8) -/
def Obligations.SerialNumbersHalfwayApartAreNotNewer : Prop :=
  ∀ a b : Word, (a - b).toNat = 2 ^ 31 → newer a b = false

/-- An invalidation GO is refused while one runs. `DTU_STATUS[1]`, as the page presents it when it is not frozen, is 1 exactly while an
invalidation is in progress. A write of DTU_INV_CTRL with GO is then ignored: DONE stays as it is, REFUSED is set, and nothing else of
the block changes. With none in progress, the GO is accepted, and clears DONE and REFUSED. (R669) -/
def Obligations.InvalidationGoIsRefusedWhileOneRuns : Prop :=
  (∀ s : Block, bit (s.presentNow R.DTU_STATUS) 1 = s.dt.inv.isSome) ∧
  (∀ (s : Block) (q : List Instr) (v : Word), exec (.registerWrite R.DTU_INV_CTRL v) ⟨s, q⟩ = exec (.dtuInvGo v) ⟨s, q⟩) ∧
  (∀ (s : Block) (q : List Instr) (v : Word), s.hostOk = true → bit v 0 = true → bit (s.presentNow R.DTU_STATUS) 1 = true →
      ∃ t : Block, exec (.dtuInvGo v) ⟨s, q⟩ = .next ⟨t, q⟩ ∧ t = { s with regs := t.regs } ∧
        bit (t.reg R.DTU_INV_STATUS) 0 = bit (s.reg R.DTU_INV_STATUS) 0 ∧ bit (t.reg R.DTU_INV_STATUS) 1 = true ∧
        (∀ i, i ≠ 1 → bit (t.reg R.DTU_INV_STATUS) i = bit (s.reg R.DTU_INV_STATUS) i) ∧
        ∀ a, a ≠ R.DTU_INV_STATUS → t.reg a = s.reg a) ∧
  (∀ (s : Block) (q : List Instr) (v : Word), s.hostOk = true → bit v 0 = true → bit (s.presentNow R.DTU_STATUS) 1 = false →
      ∃ t : Block, exec (.dtuInvGo v) ⟨s, q⟩ = .next ⟨t, q⟩ ∧ t = { s with regs := t.regs, dt := t.dt } ∧
        bit (t.presentNow R.DTU_STATUS) 1 = true ∧ t.dt.tlb = s.dt.tlb ∧
        bit (t.reg R.DTU_INV_STATUS) 0 = false ∧ bit (t.reg R.DTU_INV_STATUS) 1 = false ∧
        ∀ a, a ≠ R.DTU_INV_STATUS → t.reg a = s.reg a)

/-- A warm reset needs its key, and FORCE while light is on. A write of PWR_RESET_CTRL with another KEY changes nothing. With the key
and WARM, in a state in which light may be on (LIT, and FROST_HOLD within it) and without FORCE, the write only sets
ERR_CAUSE.RESET_REFUSED; with FORCE, or with the light off, the warm reset starts: the device is in BOOT, the cause is recorded and
DRAM keeps its contents. (R137, R138) -/
def Obligations.WarmResetNeedsKeyAndForce : Prop :=
  (∀ (s : Block) (q : List Instr) (v : Word), s.hostOk = true → bits v 16 16 ≠ 0x5752 →
      exec (.warmReset v) ⟨s, q⟩ = .next ⟨s, q⟩) ∧
  (∀ (s : Block) (q : List Instr) (v : Word), s.hostOk = true → bits v 16 16 = 0x5752 → bit v 0 = true →
      (s.pw.state = .lit ∨ s.pw.state = .frostHold) → bit v 1 = false →
      ∃ t : Block, exec (.warmReset v) ⟨s, q⟩ = .next ⟨t, q⟩ ∧ t = { s with regs := t.regs } ∧
        bit (t.reg (R.ERR_CAUSE 1)) 3 = true ∧ (∀ i, i ≠ 3 → bit (t.reg (R.ERR_CAUSE 1)) i = bit (s.reg (R.ERR_CAUSE 1)) i) ∧
        ∀ a, a ≠ R.ERR_CAUSE 1 → t.reg a = s.reg a) ∧
  (∀ (s : Block) (q : List Instr) (v : Word), s.hostOk = true → bits v 16 16 = 0x5752 → bit v 0 = true →
      ((s.pw.state ≠ .lit ∧ s.pw.state ≠ .frostHold) ∨ bit v 1 = true) →
      ∃ t : Block, exec (.warmReset v) ⟨s, q⟩ = .next ⟨t, q⟩ ∧ t.pw.state = .boot ∧ t.pw.prev = s.pw.state ∧
        bit (t.reg R.PWR_RESET_CAUSE) 3 = true ∧ t.dram = s.dram)

/-- Every reset frees every fault record. A warm reset, PORST_N and the supply monitor (a rail out of tolerance, or REFCLK failing)
leave no fault record, and leave the Seedbank's MRAM with its shutdown-cause and power-fail records as it was. (R628) -/
def Obligations.ResetsFreeEveryFaultRecord : Prop :=
  (∀ (s : Block) (q : List Instr) (v : Word), s.hostOk = true → bits v 16 16 = 0x5752 → bit v 0 = true →
      (s.pw.state.lightOn = false ∨ bit v 1 = true) →
      ∃ t : Block, exec (.warmReset v) ⟨s, q⟩ = .next ⟨t, q⟩ ∧ t.fl.recs = [] ∧ t.se.mram = s.se.mram ∧ t.se.bad = s.se.bad) ∧
  (∀ (s : Block) (q : List Instr), s.pw.state ≠ .off → s.pw.state ≠ .aon → s.pw.coreGated = false →
      ∃ t : Block, exec .porstNAssert ⟨s, q⟩ = .next ⟨t, q⟩ ∧ t.fl.recs = [] ∧ t.se.mram = s.se.mram ∧ t.se.bad = s.se.bad) ∧
  (∀ (s : Block) (q : List Instr) (r : Nat), r < 12 → s.pw.state ≠ .off → s.pw.state ≠ .aon → s.pw.coreGated = false →
      ∃ t : Block, exec (.railOutOfTolerance r) ⟨s, q⟩ = .next ⟨t, q⟩ ∧ t.fl.recs = [] ∧ t.se.mram = s.se.mram ∧ t.se.bad = s.se.bad) ∧
  (∀ (s : Block) (q : List Instr), s.pw.state ≠ .off → s.pw.state ≠ .aon → s.pw.coreGated = false →
      ∃ t : Block, exec .refclkFailure ⟨s, q⟩ = .next ⟨t, q⟩ ∧ t.fl.recs = [] ∧ t.se.mram = s.se.mram ∧ t.se.bad = s.se.bad)

/-- Enabling a ring takes its other index. As CMD_EN goes from 0 to 1, RING_CMD_HEAD takes the value of RING_CMD_TAIL; as EVT_EN goes
from 0 to 1, RING_EVT_HEAD takes the value of RING_EVT_TAIL. Neither alters a sequence number: the expected and the last CSEQ, the
newest completed CSEQ, the next ESEQ and the FSN. (R107) -/
def Obligations.EnablingARingTakesItsOtherIndex : Prop :=
  (∀ (s : Block) (q : List Instr), s.hostOk = true → bit (s.reg (R.PAGE_LOCK 4)) 0 = false → bit (s.reg R.RING_CTRL) 0 = false →
      ∃ t : Block, exec .cmdEnSet ⟨s, q⟩ = .next ⟨t, q⟩ ∧ bit (t.reg R.RING_CTRL) 0 = true ∧
        t.reg R.RING_CMD_HEAD = s.reg R.RING_CMD_TAIL ∧ t.reg R.RING_CMD_TAIL = s.reg R.RING_CMD_TAIL ∧
        t.reg R.RING_CMD_SEQ_EXPECT = s.reg R.RING_CMD_SEQ_EXPECT ∧ t.seqDone = s.seqDone ∧ t.rg.lastCseq = s.rg.lastCseq ∧
        t.reg R.RING_EVT_SEQ_NEXT = s.reg R.RING_EVT_SEQ_NEXT ∧ t.tm.fsn = s.tm.fsn) ∧
  (∀ (s : Block) (q : List Instr), s.hostOk = true → bit (s.reg (R.PAGE_LOCK 4)) 0 = false → bit (s.reg R.RING_CTRL) 1 = false →
      ∃ t : Block, exec .evtEnSet ⟨s, q⟩ = .next ⟨t, q⟩ ∧ bit (t.reg R.RING_CTRL) 1 = true ∧
        t.reg R.RING_EVT_HEAD = s.reg R.RING_EVT_TAIL ∧ t.reg R.RING_EVT_TAIL = s.reg R.RING_EVT_TAIL ∧
        t.reg R.RING_CMD_SEQ_EXPECT = s.reg R.RING_CMD_SEQ_EXPECT ∧ t.seqDone = s.seqDone ∧ t.rg.lastCseq = s.rg.lastCseq ∧
        t.reg R.RING_EVT_SEQ_NEXT = s.reg R.RING_EVT_SEQ_NEXT ∧ t.tm.fsn = s.tm.fsn)

/-- A fetch that fails stops consumption. While the front end fetches, a host abort (kind 4) or a timeout (kind 5) sets
RING_STATUS.FETCH_STOP and, with EVT_EN, posts CMD_FETCH_FAULT with the entry's index and the kind; while FETCH_STOP is set no further
entry is fetched, whatever the host returns. Writing CMD_EN to 0 and then to 1 clears the stop. (R111) -/
def Obligations.FetchFaultStopsConsumption : Prop :=
  (∀ (s : Block) (q : List Instr) (k : Nat), s.fetching = true → (k = 4 ∨ k = 5) →
      ∃ t : Block, exec (.cmdFetchFault k) ⟨s, q⟩ = .next ⟨t, q⟩ ∧ bit (t.reg R.RING_STATUS) 1 = true ∧
        t.reg R.RING_CMD_HEAD = s.reg R.RING_CMD_HEAD ∧ t.reg R.RING_CMD_SEQ_EXPECT = s.reg R.RING_CMD_SEQ_EXPECT ∧
        t.rg.inflight = s.rg.inflight ∧
        (bit (s.reg R.RING_CTRL) 1 = true →
          t.rg.evq = s.rg.evq ++ [{ ty := 0x00E, page := 0x04, cls := 0, cmd := false, fsn := s.tm.fsn, ft := s.tm.ft,
                                    data := [s.reg R.RING_CMD_HEAD, w32 k], held := false }])) ∧
  (∀ (s : Block) (q : List Instr) (host : Bytes), bit (s.reg R.RING_STATUS) 1 = true →
      exec (.cmdFetch host) ⟨s, q⟩ = .next ⟨s, q⟩) ∧
  (∀ (s : Block) (q : List Instr), s.hostOk = true → bit (s.reg (R.PAGE_LOCK 4)) 0 = false →
      ∃ t u : Block, exec .cmdEnClear ⟨s, q⟩ = .next ⟨t, q⟩ ∧ bit (t.reg R.RING_CTRL) 0 = false ∧
        exec .cmdEnSet ⟨t, q⟩ = .next ⟨u, q⟩ ∧ bit (u.reg R.RING_CTRL) 0 = true ∧ bit (u.reg R.RING_STATUS) 1 = false)

/-- A soft reset of RING keeps every index, sequence and count. With no commit that names the page on its way, it clears CMD_EN and
EVT_EN, and keeps the indices, the sequence numbers and the counts of both rings. (R142) -/
def Obligations.RingSoftResetKeepsIndices : Prop :=
  ∀ (s : Block) (q : List Instr), s.hostOk = true → bit (s.reg (R.PAGE_LOCK 4)) 0 = false →
    (s.cm.list.all fun c => !natBit c.pages 4) = true →
    ∃ t : Block, exec (.softReset 4) ⟨s, q⟩ = .next ⟨t, q⟩ ∧
      bit (t.reg R.RING_CTRL) 0 = false ∧ bit (t.reg R.RING_CTRL) 1 = false ∧
      t.rg.lastCseq = s.rg.lastCseq ∧ t.rg.inflight = s.rg.inflight ∧ t.rg.lost = s.rg.lost ∧
      ∀ a, a ∈ [R.RING_CMD_TAIL, R.RING_CMD_HEAD, R.RING_CMD_SEQ_EXPECT, R.RING_EVT_HEAD, R.RING_EVT_TAIL, R.RING_EVT_SEQ_NEXT,
          R.RING_EVT_LOST, R.RING_DUP_COUNT] → t.reg a = s.reg a

/-- While the device is lit, the soft resets that would disturb its light are refused. In LIT, and in FROST_HOLD within it, a
SOFT_RESET of TIME, SEQ, LSG, LS0, LS1, CHAIN, CPE, THERM or FAULT, and of an MA page whose port is enabled, only sets
ERR_CAUSE.RESET_REFUSED of the page. (R90) -/
def Obligations.LitSoftResetsAreRefused : Prop :=
  ∀ (s : Block) (q : List Instr) (p : Nat), s.hostOk = true → bit (s.reg (R.PAGE_LOCK p)) 0 = false →
    (s.pw.state = .lit ∨ s.pw.state = .frostHold) →
    (p ∈ [0x07, 0x0D, 0x15, 0x16, 0x17, 0x18, 0x19, 0x1C, 0x2B] ∨ ∃ k, k < 4 ∧ p = 0x0E + k ∧ s.abit (R.MA_CFG k) 0 = true) →
    ∃ t : Block, exec (.softReset p) ⟨s, q⟩ = .next ⟨t, q⟩ ∧ t = { s with regs := t.regs } ∧
      bit (t.reg (R.ERR_CAUSE p)) 3 = true ∧ (∀ i, i ≠ 3 → bit (t.reg (R.ERR_CAUSE p)) i = bit (s.reg (R.ERR_CAUSE p)) i) ∧
      ∀ a, a ≠ R.ERR_CAUSE p → t.reg a = s.reg a

/-- The loss of VDD_AON clears the always-on domain. From any state but OFF the controller reaches OFF, the Firebreak latch is clear,
and the reset cause, the rail fault, the scratch register and the power-fail count read 0. (R129) -/
def Obligations.AlwaysOnPowerLossClearsTheLatch : Prop :=
  ∀ (s : Block) (q : List Instr), s.pw.state ≠ .off →
    ∃ t : Block, exec .vddAonLoss ⟨s, q⟩ = .next ⟨t, q⟩ ∧ t.pw.state = .off ∧ t.pw.coreGated = false ∧
      ∀ a, a ∈ [R.PWR_FIREBREAK, R.PWR_RESET_CAUSE, R.PWR_RAIL_FAULT, R.PWR_AON_SCRATCH, R.PWR_PF_COUNT] → t.reg a = 0

/-- A Skidder TAIL beyond the ring is ignored. A write of SKD_CH_TAIL that would make TAIL - HEAD exceed the entries of the ring leaves
TAIL and SUBMITTED of every channel as they are, and sets SKD_STATUS.TAIL_ERR. (R193) -/
def Obligations.SkidderTailBeyondTheRingIsIgnored : Prop :=
  ∀ (s : Block) (q : List Instr) (c : Nat) (v : Word), c < 16 → s.hostOk = true → bit (s.reg (R.PAGE_LOCK 5)) 0 = false →
    s.skdEntries c < (bits v 0 16 + 65536 - (s.skd c).head) % 65536 →
    ∃ t : Block, exec (.skdChTailWrite c v) ⟨s, q⟩ = .next ⟨t, q⟩ ∧ t = { s with regs := t.regs } ∧
      bit (t.reg R.SKD_STATUS) 1 = true ∧ (∀ d, t.reg (R.SKD_CH_TAIL d) = s.reg (R.SKD_CH_TAIL d)) ∧
      (∀ d, (t.skd d).submitted = (s.skd d).submitted) ∧
      ∀ a, a ≠ R.SKD_STATUS → t.reg a = s.reg a

/-- An armed or fired cue context is protected. While a context is ARMED or FIRED, a write of one of its words 0 to 2 (bytes 0 to 11),
as a context write or through BAR2, steps CUE_WRITE_REFUSED and changes nothing else; a cancel of a context that has FIRED, in bytes 12
to 15 or by CUE_OP, leaves its STATE and steps CUE_WRITE_REFUSED. (R574) -/
def Obligations.ArmedCueContextsAreProtected : Prop :=
  (∀ (s : Block) (q : List Instr) (i w : Nat) (v : Word), s.hostOk = true → i < 262144 → w < 3 → ((s.ctx i).st = 1 ∨ (s.ctx i).st = 2) →
      ∃ t : Block, exec (.cueContextWrite i w v) ⟨s, q⟩ = .next ⟨t, q⟩ ∧ t = { s with regs := t.regs } ∧
        t.reg R.CUE_WRITE_REFUSED = s.reg R.CUE_WRITE_REFUSED + 1 ∧ ∀ a, a ≠ R.CUE_WRITE_REFUSED → t.reg a = s.reg a) ∧
  (∀ (s : Block) (q : List Instr) (i w : Nat) (b0 b1 b2 b3 : Byte), s.hostOk = true → i < 262144 → w < 3 →
      ((s.ctx i).st = 1 ∨ (s.ctx i).st = 2) →
      ∃ t : Block, exec (.windowWrite (0x2000000 + 16 * i + 4 * w) [b0, b1, b2, b3]) ⟨s, q⟩ = .next ⟨t, q⟩ ∧ t = { s with regs := t.regs } ∧
        t.reg R.CUE_WRITE_REFUSED = s.reg R.CUE_WRITE_REFUSED + 1 ∧ ∀ a, a ≠ R.CUE_WRITE_REFUSED → t.reg a = s.reg a) ∧
  (∀ (s : Block) (q : List Instr) (i : Nat) (v : Word), s.hostOk = true → i < 262144 → (s.ctx i).st = 2 → bits v 0 3 = 5 →
      ∃ t : Block, exec (.cueContextWrite i 3 v) ⟨s, q⟩ = .next ⟨t, q⟩ ∧ (t.ctx i).st = 2 ∧
        t.reg R.CUE_WRITE_REFUSED = s.reg R.CUE_WRITE_REFUSED + 1) ∧
  (∀ (s : Block) (q : List Instr) (v : Word), s.hostOk = true → (s.ctx (bits v 0 18)).st = 2 →
      ∃ t : Block, exec (.cueOpCancel v) ⟨s, q⟩ = .next ⟨t, q⟩ ∧ (t.ctx (bits v 0 18)).st = 2 ∧
        t.reg R.CUE_WRITE_REFUSED = s.reg R.CUE_WRITE_REFUSED + 1)

/-- A fault that recurs opens no new record. Where an OPEN record has the page, code and detail, an occurrence adds no record and takes
no FID: RECUR of that record steps, to at most 65,535, every other record is as it was, and FAULT_RECUR is counted in Tally. (R625) -/
def Obligations.RecurringFaultOpensNoRecord : Prop :=
  ∀ (s : Block) (page code cls : Nat) (detail : Word) (way : CloseWay) (i : Nat) (r : FaultRec),
    s.openRec page code detail = some (i, r) →
    (s.record page code cls detail way).fl.nextFid = s.fl.nextFid ∧
    (s.record page code cls detail way).ty = (if r.cls < cls then
      ((s.tally 0x209 0).tally 0x200 0).ty else (s.tally 0x209 0).ty) ∧
    (∀ j, (aget? (s.record page code cls detail way).fl.recs j).isSome = (aget? s.fl.recs j).isSome) ∧
    (∀ j, j ≠ i → aget? (s.record page code cls detail way).fl.recs j = aget? s.fl.recs j) ∧
    ∃ r', aget? (s.record page code cls detail way).fl.recs i = some r' ∧ r'.recur = min 65535 (r.recur + 1) ∧
      r'.fid = r.fid ∧ r'.page = r.page ∧ r'.code = r.code ∧ r'.detail = r.detail ∧ r'.isOpen = true

/-- Frame boundaries fall without drift. FB_k is the epoch plus floor(k x NUM / DEN): it never lies before the exact instant's whole
nanosecond nor a nanosecond beyond it, so no error accumulates; the series does not run backwards; and DEN indices later it lies exactly
NUM nanoseconds later. (derived: R46) -/
def Obligations.FrameBoundariesFallWithoutDrift : Prop :=
  ∀ (s : Block) (j k : Nat), s.tm.den ≠ 0 →
    s.tm.epoch ≤ s.fbAt k ∧
    (s.fbAt k - s.tm.epoch) * s.tm.den ≤ k * s.tm.num ∧ k * s.tm.num < (s.fbAt k - s.tm.epoch + 1) * s.tm.den ∧
    (j ≤ k → s.fbAt j ≤ s.fbAt k) ∧ s.fbAt (k + s.tm.den) = s.fbAt k + s.tm.num

/-- The FSN steps by one at every boundary, or takes the loaded value. With TIME running, FRAME_BOUNDARY adds one to the FSN; where a
commit whose display side applies at the boundary sets TIME_FB_CTRL.FSN_LOAD, the FSN is instead the TIME_FSN_LOAD of the newest such
commit.  Which commits apply is read in the block as it stands when the boundary falls, the cues and the cutoff before it over.
(derived: R48, R49) -/
def Obligations.FrameSequenceSteps : Prop :=
  ∀ (s u : Block) (q : List Instr), s.tm.run = true → u = (s.cueFiring []).cutoff.advanceTo (s.cueFiring []).cutoff.nextFb →
    ∃ t : Block, exec .frameBoundary ⟨s, q⟩ = .next ⟨t, q⟩ ∧
      ((u.cm.list.all fun c => !(c.display && !u.holds c && natBit c.pages 7 && bit (sget regDflt c.vals R.TIME_FB_CTRL) 0)) = true →
        t.tm.fsn = s.tm.fsn + 1) ∧
      (∀ (c : Commit) (l m : List Commit), u.cm.list = l ++ c :: m →
        (c.display && !u.holds c && natBit c.pages 7 && bit (sget regDflt c.vals R.TIME_FB_CTRL) 0) = true →
        (m.all fun d => !(d.display && !u.holds d && natBit d.pages 7 && bit (sget regDflt d.vals R.TIME_FB_CTRL) 0)) = true →
        t.tm.fsn = sget regDflt c.vals R.TIME_FSN_LOAD)

/-- Interrupt messages follow the condition of a page. The condition of a vector is INT_STATUS & INT_ENABLE not zero. INT_FORCE and a
write of INT_ENABLE owe a message exactly where they make the condition true; a W1C write of INT_STATUS owes one exactly where it
leaves the condition true. A message owed is sent where MSI-X is enabled and nothing masks the vector; masked, it sets the vector's
pending bit, which goes when the condition does, as the model reads the MSI-X capability (log entry 169). (derived: R94, R95) -/
def Obligations.InterruptMessagesFollowTheCondition : Prop :=
  (∀ (s : Block) (p : Nat), s.vec p = true ↔ s.reg (R.INT_STATUS p) &&& s.reg (R.INT_ENABLE p) ≠ 0) ∧
  (∀ (s : Block) (q : List Instr) (p : Nat) (v : Word), s.hostOk = true → p ≤ 0x2C →
      ∃ t : Block, exec (.intForce p v) ⟨s, q⟩ = .next ⟨t, q⟩ ∧ t = { s with regs := t.regs, out := t.out, hs := { s.hs with pba := t.hs.pba } } ∧
        t.reg (R.INT_STATUS p) = s.reg (R.INT_STATUS p) ||| v ∧ (∀ a, a ≠ R.INT_STATUS p → t.reg a = s.reg a) ∧
        t.out = s.out ++ (if s.vec p = false ∧ t.vec p = true ∧ s.vecOpen p = true then [.msix p] else []) ∧
      (∀ w, w ∈ t.hs.pba ↔ (w ∈ s.hs.pba ∧ (w = p →
      t.vec p = true)) ∨ (w = p ∧ s.vec p = false ∧ t.vec p = true ∧ s.vecOpen p = false ∧ s.hs.pcie.msix = true))) ∧
  (∀ (s : Block) (q : List Instr) (p : Nat) (v : Word), s.hostOk = true → p ≤ 0x2C →
      ∃ t : Block, exec (.intStatusClear p v) ⟨s, q⟩ = .next ⟨t, q⟩ ∧ t = { s with regs := t.regs, out := t.out,
                                                                                   hs := { s.hs with pba := t.hs.pba } } ∧
        t.reg (R.INT_STATUS p) = s.reg (R.INT_STATUS p) &&& ~~~v ∧ (∀ a, a ≠ R.INT_STATUS p → t.reg a = s.reg a) ∧
        t.out = s.out ++ (if t.vec p = true ∧ s.vecOpen p = true then [.msix p] else []) ∧
      (∀ w, w ∈ t.hs.pba ↔ (w ∈ s.hs.pba ∧ (w = p →
      t.vec p = true)) ∨ (w = p ∧ t.vec p = true ∧ s.vecOpen p = false ∧ s.hs.pcie.msix = true))) ∧
  (∀ (s : Block) (q : List Instr) (p : Nat) (v : Word), s.hostOk = true → p ≤ 0x2C → bit (s.reg (R.PAGE_LOCK p)) 0 = false →
      ∃ t : Block, exec (.registerWrite (0x1000 * p + 0x10) v) ⟨s, q⟩ = .next ⟨t, q⟩ ∧ t = { s with regs := t.regs, out := t.out,
                                                                                                    hs := { s.hs with pba := t.hs.pba } } ∧
        t.reg (R.INT_ENABLE p) = v ∧ (∀ a, a ≠ R.INT_ENABLE p → t.reg a = s.reg a) ∧
        t.out = s.out ++ (if s.vec p = false ∧ t.vec p = true ∧ s.vecOpen p = true then [.msix p] else []) ∧
      (∀ w, w ∈ t.hs.pba ↔ (w ∈ s.hs.pba ∧ (w = p →
      t.vec p = true)) ∨ (w = p ∧ s.vec p = false ∧ t.vec p = true ∧ s.vecOpen p = false ∧ s.hs.pcie.msix = true)))

/-- The device memory window writes only CP7, CP10 and CP11. A write to the window while it is enabled and not read-only stores
each byte whose address is in DRAM and in one of those pairs, and changes no other byte of memory; where a byte lies in another
pair, WR_DENIED is set. No register but DEV_WIN_CTRL changes; of the channel pairs only what waits at them,
and no block becomes poisoned. (derived: R85; that an
address outside DRAM is discarded without WR_DENIED is the model's reading) -/
def Obligations.HostWindowWritesReachOnlyThreePairs : Prop :=
  ∀ (s : Block) (q : List Instr) (off pa : Nat) (bs : List Byte), s.hostOk = true → off + bs.length ≤ 0x2000000 →
    bit (s.reg R.DEV_WIN_CTRL) 0 = true → bit (s.reg R.DEV_WIN_CTRL) 2 = false →
    pa = s.fld R.DEV_WIN_BASE_HI 0 16 * 0x100000000 + s.fld R.DEV_WIN_BASE_LO 25 7 * 0x2000000 + off →
    ∃ t : Block, exec (.windowWrite off bs) ⟨s, q⟩ = .next ⟨t, q⟩ ∧
      t = { s with regs := t.regs, dram := t.dram, ls := t.ls, ca := t.ca, dc := { s.dc with pairs := t.dc.pairs, poison := t.dc.poison } } ∧
      (∀ b ∈ t.dc.poison, b ∈ s.dc.poison) ∧
      (∀ j, t.pair j = { s.pair j with reqs := (t.pair j).reqs, lastReq := (t.pair j).lastReq }) ∧
      (∀ a, a ≠ R.DEV_WIN_CTRL → t.reg a = s.reg a) ∧
      (∀ (i : Nat) (b : Byte), bs[i]? = some b → inDram (pa + i) = true → pairOf (pa + i) ∈ [7, 10, 11] → t.memB (pa + i) = b) ∧
      (∀ x, x < pa ∨ pa + bs.length ≤ x ∨ inDram x = false ∨ pairOf x ∉ [7, 10, 11] → t.memB x = s.memB x) ∧
      (bit (t.reg R.DEV_WIN_CTRL) 1 = true ↔ bit (s.reg R.DEV_WIN_CTRL) 1 = true ∨
        ∃ i, i < bs.length ∧ inDram (pa + i) = true ∧ pairOf (pa + i) ∉ [7, 10, 11])

/-- What the writes of the command and event rings leave alone. A write of RING_CMD_TAIL changes at most that register, RING_STATUS and
the page's ERR_CAUSE; RING_CMD_RESYNC at most RING_CMD_SEQ_EXPECT and RING_STATUS, besides the event and its Tally count; CMD_EN at most
RING_CTRL, RING_CMD_HEAD, RING_STATUS and ERR_CAUSE; EVT_EN at most RING_CTRL, RING_EVT_HEAD and ERR_CAUSE, besides the events, their
counts and the records a first EVT_EN reports. No byte of memory changes. (derived: R92, R106, R107, R110, R163) -/
def Obligations.RingCommandsFrame : Prop :=
  (∀ (s t : State) (v : Word), exec (.ringCmdTailWrite v) s = .next t →
      t = { s with regs := t.regs } ∧
      ∀ a, a ∉ [R.RING_CMD_TAIL, R.RING_STATUS, R.ERR_CAUSE 4] → t.reg a = s.reg a) ∧
  (∀ (s t : State) (v : Word), exec (.ringCmdResync v) s = .next t →
      t = { s with regs := t.regs, rg := t.rg, ty := t.ty } ∧ t.rg.inflight = s.rg.inflight ∧
      ∀ a, a ∉ [R.RING_CMD_SEQ_EXPECT, R.RING_STATUS] → t.reg a = s.reg a) ∧
  (∀ (s t : State) (c : Instr), c = .cmdEnSet ∨ c = .cmdEnClear → exec c s = .next t →
      t = { s with regs := t.regs } ∧
      ∀ a, a ∉ [R.RING_CTRL, R.RING_CMD_HEAD, R.RING_STATUS, R.ERR_CAUSE 4] → t.reg a = s.reg a) ∧
  (∀ (s t : State) (c : Instr), c = .evtEnSet ∨ c = .evtEnClear → exec c s = .next t →
      t = { s with regs := t.regs, rg := t.rg, ty := t.ty, se := t.se } ∧ t.rg.inflight = s.rg.inflight ∧
      t.se = { s.se with queue := t.se.queue } ∧
      ∀ a, a ∉ [R.RING_CTRL, R.RING_EVT_HEAD, R.ERR_CAUSE 4] → t.reg a = s.reg a)

/-- What the page controls leave alone. PAGE_LOCK changes at most the page's PAGE_LOCK; a W1C write of INT_STATUS and INT_FORCE at
most its INT_STATUS and the messages sent or pending; FREEZE at most its PAGE_CTRL and ERR_CAUSE and the values held; the end of a
soft reset at most its PAGE_CTRL. No byte of memory changes. (derived: R91, R92, R94, R95, R141) -/
def Obligations.HostPageCommandsFrame : Prop :=
  (∀ (s t : State) (p : Nat) (v : Word), exec (.pageLockWrite p v) s = .next t →
      t = { s with regs := t.regs } ∧ ∀ a, a ≠ R.PAGE_LOCK p → t.reg a = s.reg a) ∧
  (∀ (s t : State) (p : Nat) (v : Word) (c : Instr), c = .intStatusClear p v ∨ c = .intForce p v → exec c s = .next t →
      t = { s with regs := t.regs, out := t.out, hs := { s.hs with pba := t.hs.pba } } ∧ ∀ a, a ≠ R.INT_STATUS p → t.reg a = s.reg a) ∧
  (∀ (s t : State) (p : Nat) (on : Bool), exec (.pageFreeze p on) s = .next t →
      t = { s with regs := t.regs, frozen := t.frozen } ∧ (∀ r, r ≠ p → aget? t.frozen r = aget? s.frozen r) ∧
      ∀ a, a ∉ [R.PAGE_CTRL p, R.ERR_CAUSE p] → t.reg a = s.reg a) ∧
  (∀ (s t : State) (p : Nat), exec (.softResetDone p) s = .next t →
      t = { s with regs := t.regs } ∧ ∀ a, a ≠ R.PAGE_CTRL p → t.reg a = s.reg a)

/-- What the commands of DTU and of the check-value units leave alone. An invalidation GO changes at most DTU_INV_STATUS and the
invalidation in progress; a probe at most its own registers and ERR_CAUSE; a word fed to a check-value unit that unit alone; a parameter
write the unit and its PSEL, PLO and PHI and the page's ERR_CAUSE. No byte of memory changes, and no other unit. (derived: R196, R607,
R613, R669) -/
def Obligations.DtuAndCheckUnitFrame : Prop :=
  (∀ (s t : State) (v : Word), exec (.dtuInvGo v) s = .next t →
      t = { s with regs := t.regs, dt := t.dt } ∧ t.dt.tlb = s.dt.tlb ∧ ∀ a, a ≠ R.DTU_INV_STATUS → t.reg a = s.reg a) ∧
  (∀ (s t : State) (v : Word), exec (.dtuProbe v) s = .next t →
      t = { s with regs := t.regs } ∧
      ∀ a, a ∉ [R.DTU_PROBE_ADDR_HI, R.DTU_PROBE_RES_LO, R.DTU_PROBE_RES_HI, R.ERR_CAUSE 6] → t.reg a = s.reg a) ∧
  (∀ (s t : State) (u : Nat) (v : Word), exec (.chkFeed u v) s = .next t →
      t = { s with chk := t.chk } ∧ ∀ x, x ≠ u → t.chkU x = s.chkU x) ∧
  (∀ (s t : State) (u : Nat) (phi : Bool) (v : Word), exec (.chkParameterWrite u phi v) s = .next t →
      t = { s with regs := t.regs, chk := t.chk } ∧ (∀ x, x ≠ u → t.chkU x = s.chkU x) ∧
      ∀ a, a ∉ [R.CHK_PSEL u, R.CHK_PLO u, R.CHK_PHI u, R.ERR_CAUSE 0x29] → t.reg a = s.reg a)

/-- What the commands on cue contexts leave alone. A write of a context, and an ARM or a CANCEL by CUE_OP, change at most that context,
what was fetched of it, and the count CUE_WRITE_REFUSED. No other context and no byte of memory changes. (derived: R573, R574, R575) -/
def Obligations.CueContextFrame : Prop :=
  (∀ (s t : State) (i w : Nat) (v : Word), exec (.cueContextWrite i w v) s = .next t →
      t = { s with regs := t.regs, cu := t.cu } ∧ t.cu = { s.cu with ctx := t.cu.ctx, fetched := t.cu.fetched } ∧
      (∀ j, j ≠ i → t.ctx j = s.ctx j) ∧ (∀ f, f.idx ≠ i → (f ∈ t.cu.fetched ↔ f ∈ s.cu.fetched)) ∧
      ∀ a, a ≠ R.CUE_WRITE_REFUSED → t.reg a = s.reg a) ∧
  (∀ (s t : State) (v : Word) (c : Instr), c = .cueOpArm v ∨ c = .cueOpCancel v → exec c s = .next t →
      t = { s with regs := t.regs, cu := t.cu } ∧ t.cu = { s.cu with ctx := t.cu.ctx, fetched := t.cu.fetched } ∧
      (∀ j, j ≠ bits v 0 18 → t.ctx j = s.ctx j) ∧ (∀ f, f.idx ≠ bits v 0 18 → (f ∈ t.cu.fetched ↔ f ∈ s.cu.fetched)) ∧
      ∀ a, a ≠ R.CUE_WRITE_REFUSED → t.reg a = s.reg a)

/-- Every step answers a next state, and takes at most one command. From every state the step goes on, whatever command stands in
front, and the queue is left without its front.  That no command stops is the model's own reading (log entry 6). (derived: R112) -/
def Obligations.EveryStepAnswersNext : Prop :=
  ∀ s : State, ∃ t : State, step s = .next t ∧ t.pending = s.pending.tail

/-- The queue runs in order, first in, first out. As many steps as a row of commands is long leave the block as those commands' effects
leave it, one after the other, and the commands behind them waiting as before.  The queue is the model's own form (log entry 1).
(derived: R112) -/
def Obligations.QueueRunsInOrder : Prop :=
  ∀ (b : Block) (l m : List Instr), Host.Core.run Sys2Proof.core l.length ⟨b, l ++ m⟩ = .next ⟨effects l b, m⟩

/-- Every step keeps the stores canonical. From every state whose register store and DRAM list their entries in rising order and none at
the value an unlisted one reads as, the step leaves them so; equal contents are then equal data.  The form is the model's own, over the
register file and the memory map of the spec. (derived: R81, R470) -/
def Obligations.StepKeepsStoresCanonical : Prop :=
  ∀ s t : State, step s = .next t → s.regsWf = true → s.dramWf = true → t.regsWf = true ∧ t.dramWf = true

/-- The state after reset is well formed. Its register store and DRAM are canonical, every unit of the block is there as often as the
spec gives it, and no command waits. (derived: R81, R470) -/
def Obligations.ResetIsWellFormed : Prop :=
  State.reset.regsWf = true ∧ State.reset.dramWf = true ∧ State.reset.toBlock.sized ∧ State.reset.queueWf = true ∧ State.reset.pending = []

/-- Every step keeps the number of every unit. There are 4 mirror ports, 5 light groups, 16 channels of Skidder, 64 surfaces, 8
sources, 64 Tally counters, 8 check-value units and 12 channel pairs, from every state that has them. (derived: R607, R614) -/
def Obligations.StepKeepsUnitCounts : Prop :=
  ∀ s t : State, step s = .next t → s.toBlock.sized → t.toBlock.sized

/-- A bit once blown stays blown. Whatever the step, a reset and the loss of every supply among them, each OTP bit that was blown before
it is blown after it. (derived: R516) -/
def Obligations.BlownFusesStayBlown : Prop :=
  ∀ (s t : State) (i : Nat), step s = .next t → s.fuse i = true → t.fuse i = true

/-- Fabric time never runs backwards. A step leaves FT at or after what it was, or at 0, as a reset and the end of boot do, from where
FT starts again. (derived: R38) -/
def Obligations.FabricTimeRunsForward : Prop :=
  ∀ s t : State, step s = .next t → s.tm.ft ≤ t.tm.ft ∨ t.tm.ft = 0
end

