-- ==== Sys2Proof/Laws/Bits.lean ====
section
/-!
SUPPORT. What a bit field reads after it, or another one, has been replaced.
-/
namespace Sys2Proof.Machine

/-- A natural number as the part above a field, the field, and the part below it. -/
theorem split_field (V lo w : Nat) :
    V = V / 2 ^ (lo + w) * 2 ^ (lo + w) + natBits V lo w * 2 ^ lo + V % 2 ^ lo := by
  have h1 := Nat.div_add_mod V (2 ^ lo)
  have h2 := Nat.div_add_mod (V / 2 ^ lo) (2 ^ w)
  rw [Nat.div_div_eq_div_mul, ← pow_add] at h2
  unfold natBits
  calc V = 2 ^ lo * (V / 2 ^ lo) + V % 2 ^ lo := h1.symm
    _ = 2 ^ lo * (2 ^ w * (V / 2 ^ (lo + w)) + V / 2 ^ lo % 2 ^ w) + V % 2 ^ lo := by rw [h2]
    _ = _ := by rw [pow_add]; ring

/-- The value of a word with a field replaced. -/
theorem setBits_toNat (v : Word) {lo w : Nat} (x : Nat) (h : lo + w ≤ 32) :
    (setBits v lo w x).toNat =
      v.toNat / 2 ^ (lo + w) * 2 ^ (lo + w) + x % 2 ^ w * 2 ^ lo + v.toNat % 2 ^ lo := by
  have hs := split_field v.toNat lo w
  have hlo : v.toNat % 2 ^ lo < 2 ^ lo := Nat.mod_lt _ (by positivity)
  have hx : x % 2 ^ w < 2 ^ w := Nat.mod_lt _ (by positivity)
  have ha : v.toNat / 2 ^ (lo + w) < 2 ^ (32 - (lo + w)) := by
    rw [Nat.div_lt_iff_lt_mul (by positivity), ← pow_add]
    have : 32 - (lo + w) + (lo + w) = 32 := by omega
    rw [this]; exact v.isLt
  have hb : x % 2 ^ w * 2 ^ lo + v.toNat % 2 ^ lo < 2 ^ (lo + w) := by
    have : (x % 2 ^ w + 1) * 2 ^ lo ≤ 2 ^ w * 2 ^ lo := Nat.mul_le_mul_right _ hx
    rw [pow_add]; nlinarith
  have hc : v.toNat / 2 ^ (lo + w) * 2 ^ (lo + w) + 2 ^ (lo + w) ≤ 2 ^ 32 := by
    have : (v.toNat / 2 ^ (lo + w) + 1) * 2 ^ (lo + w) ≤ 2 ^ (32 - (lo + w)) * 2 ^ (lo + w) := Nat.mul_le_mul_right _ ha
    rw [← pow_add] at this
    have e : 32 - (lo + w) + (lo + w) = 32 := by omega
    rw [e] at this; nlinarith
  unfold setBits
  rw [BitVec.toNat_ofNat]
  have e : v.toNat - natBits v.toNat lo w * 2 ^ lo + x % 2 ^ w * 2 ^ lo =
      v.toNat / 2 ^ (lo + w) * 2 ^ (lo + w) + x % 2 ^ w * 2 ^ lo + v.toNat % 2 ^ lo := by omega
  rw [e, Nat.mod_eq_of_lt (by omega)]

/-- A field reads the value it was given, cut to its width. -/
theorem bits_setBits_same (v : Word) {lo w : Nat} (x : Nat) (h : lo + w ≤ 32) : bits (setBits v lo w x) lo w = x % 2 ^ w := by
  have hlo : v.toNat % 2 ^ lo < 2 ^ lo := Nat.mod_lt _ (by positivity)
  have hx : x % 2 ^ w < 2 ^ w := Nat.mod_lt _ (by positivity)
  unfold bits natBits
  rw [setBits_toNat v x h]
  have e : v.toNat / 2 ^ (lo + w) * 2 ^ (lo + w) + x % 2 ^ w * 2 ^ lo + v.toNat % 2 ^ lo =
      v.toNat % 2 ^ lo + 2 ^ lo * (x % 2 ^ w + 2 ^ w * (v.toNat / 2 ^ (lo + w))) := by rw [pow_add]; ring
  rw [e, Nat.add_mul_div_left _ _ (by positivity), Nat.div_eq_of_lt hlo, Nat.zero_add, Nat.add_mul_mod_self_left, Nat.mod_eq_of_lt hx]

/-- A field below the one replaced reads as before. -/
theorem bits_setBits_below (v : Word) {lo w lo' w' : Nat} (x : Nat) (h : lo + w ≤ 32) (hb : lo' + w' ≤ lo) :
    bits (setBits v lo w x) lo' w' = bits v lo' w' := by
  unfold bits natBits
  have key : ∀ n : Nat, n / 2 ^ lo' % 2 ^ w' = n % 2 ^ lo / 2 ^ lo' % 2 ^ w' := by
    intro n
    rw [← Nat.mod_mul_right_div_self, ← Nat.mod_mul_right_div_self, ← pow_add, Nat.mod_mod_of_dvd _ (pow_dvd_pow 2 hb)]
  rw [key, key v.toNat, setBits_toNat v x h]
  congr 2
  have e : v.toNat / 2 ^ (lo + w) * 2 ^ (lo + w) + x % 2 ^ w * 2 ^ lo + v.toNat % 2 ^ lo =
      v.toNat % 2 ^ lo + 2 ^ lo * (x % 2 ^ w + 2 ^ w * (v.toNat / 2 ^ (lo + w))) := by rw [pow_add]; ring
  rw [e, Nat.add_mul_mod_self_left, Nat.mod_mod]

/-- A field above the one replaced reads as before. -/
theorem bits_setBits_above (v : Word) {lo w lo' w' : Nat} (x : Nat) (h : lo + w ≤ 32) (ha : lo + w ≤ lo') :
    bits (setBits v lo w x) lo' w' = bits v lo' w' := by
  unfold bits natBits
  have key : ∀ n : Nat, n / 2 ^ lo' = n / 2 ^ (lo + w) / 2 ^ (lo' - (lo + w)) := by
    intro n; rw [Nat.div_div_eq_div_mul, ← pow_add]; congr 2; omega
  rw [key, key v.toNat, setBits_toNat v x h]
  congr 2
  have hlo : v.toNat % 2 ^ lo < 2 ^ lo := Nat.mod_lt _ (by positivity)
  have hx : x % 2 ^ w < 2 ^ w := Nat.mod_lt _ (by positivity)
  have hb : x % 2 ^ w * 2 ^ lo + v.toNat % 2 ^ lo < 2 ^ (lo + w) := by
    have : (x % 2 ^ w + 1) * 2 ^ lo ≤ 2 ^ w * 2 ^ lo := Nat.mul_le_mul_right _ hx
    rw [pow_add]; nlinarith
  rw [Nat.add_assoc, Nat.add_comm, Nat.add_mul_div_right _ _ (by positivity), Nat.div_eq_of_lt hb, Nat.zero_add]

/-- A bit is a field of width 1. -/
theorem bit_eq_bits (v : Word) (i : Nat) : bit v i = (bits v i 1 == 1) := by simp [bit, natBit, bits, natBits]

theorem bit_setBits_same (v : Word) {i : Nat} (x : Nat) (h : i < 32) : bit (setBits v i 1 x) i = (x % 2 == 1) := by
  rw [bit_eq_bits, bits_setBits_same v x (by omega)]; rfl

theorem bit_setBits_below (v : Word) {lo w i : Nat} (x : Nat) (h : lo + w ≤ 32) (hb : i < lo) :
    bit (setBits v lo w x) i = bit v i := by
  rw [bit_eq_bits, bit_eq_bits, bits_setBits_below v x h (by omega)]

theorem bit_setBits_above (v : Word) {lo w i : Nat} (x : Nat) (h : lo + w ≤ 32) (ha : lo + w ≤ i) :
    bit (setBits v lo w x) i = bit v i := by
  rw [bit_eq_bits, bit_eq_bits, bits_setBits_above v x h ha]

theorem bit_setBit_same (v : Word) {i : Nat} (b : Bool) (h : i < 32) : bit (setBit v i b) i = b := by
  rw [setBit, bit_setBits_same v _ h]; cases b <;> rfl

theorem bit_setBit_ne (v : Word) {i j : Nat} (b : Bool) (h : i < 32) (hj : j ≠ i) : bit (setBit v i b) j = bit v j := by
  rw [setBit]
  rcases Nat.lt_or_gt_of_ne hj with h' | h'
  · exact bit_setBits_below v _ (by omega) h'
  · exact bit_setBits_above v _ (by omega) (by omega)

/-- A bit of a number, as Lean names it. -/
theorem natBit_testBit (v i : Nat) : natBit v i = v.testBit i := by
  rw [natBit, Nat.testBit_eq_decide_div_mod_eq]; rfl

/-- A low field of a word keeps its bits. -/
theorem bit_w32_bits (v : Word) (i n : Nat) (h : i < n) (hn : n ≤ 32) : bit (w32 (bits v 0 n)) i = bit v i := by
  have hv : bits v 0 n < 2 ^ 32 := by
    simp only [bits, natBits]
    exact lt_of_lt_of_le (Nat.mod_lt _ (by positivity)) (Nat.pow_le_pow_right (by omega) hn)
  simp only [bit, w32, BitVec.toNat_ofNat, Nat.mod_eq_of_lt hv, natBit_testBit]
  simp only [bits, natBits, pow_zero, Nat.div_one, Nat.testBit_mod_two_pow, h, decide_true, Bool.true_and]

end Sys2Proof.Machine
end

