-- ==== Sys2Proof/Laws/Sparse.lean ====
section
/-!
SUPPORT. What a sparse store does, said once: reading after a write, the canonical form kept, and the tables by key.
-/
namespace Sys2Proof.Machine

section Store
variable {α : Type} (dflt : Nat → α)

@[simp] theorem sget_nil (k : Nat) : sget dflt [] k = dflt k := rfl

theorem sget_sdel_same (m : List (Nat × α)) (k : Nat) : sget dflt (sdel m k) k = dflt k := by
  induction m with
  | nil => rfl
  | cons e m ih =>
    obtain ⟨j, u⟩ := e
    by_cases h : k = j <;> simp [sdel, sget, h]
    · simpa [h] using ih
    · exact ih

theorem sget_sdel_ne (m : List (Nat × α)) {k a : Nat} (h : a ≠ k) : sget dflt (sdel m k) a = sget dflt m a := by
  induction m with
  | nil => rfl
  | cons e m ih =>
    obtain ⟨j, u⟩ := e
    by_cases hk : k = j
    · subst hk; simp [sdel, sget, h, ih]
    · by_cases ha : a = j
      · subst ha; simp [sdel, sget, hk]
      · simp [sdel, sget, hk, ha, ih]

theorem sget_sput_same (m : List (Nat × α)) (k : Nat) (v : α) : sget dflt (sput m k v) k = v := by
  induction m with
  | nil => simp [sput, sget]
  | cons e m ih =>
    obtain ⟨j, u⟩ := e
    by_cases h : k = j
    · simp [sput, sget, h]
    · by_cases hl : k < j <;> simp [sput, sget, h, hl, ih]

theorem sget_sput_ne (m : List (Nat × α)) {k a : Nat} (v : α) (h : a ≠ k) : sget dflt (sput m k v) a = sget dflt m a := by
  induction m with
  | nil => simp [sput, sget, h]
  | cons e m ih =>
    obtain ⟨j, u⟩ := e
    by_cases hk : k = j
    · subst hk; simp [sput, sget, h]
    · by_cases hl : k < j
      · simp [sput, sget, hk, hl, h]
      · by_cases ha : a = j <;> simp [sput, sget, hk, hl, ha, ih]

variable [DecidableEq α]

/-- A key reads what was written to it, and every other key what it read before. -/
theorem sget_sset (m : List (Nat × α)) (k a : Nat) (v : α) :
    sget dflt (sset dflt m k v) a = if a = k then v else sget dflt m a := by
  unfold sset
  by_cases hv : v = dflt k <;> by_cases ha : a = k
  · subst ha; simp [hv, sget_sdel_same]
  · simp [hv, ha, sget_sdel_ne]
  · subst ha; simp [hv, sget_sput_same]
  · simp [hv, ha, sget_sput_ne]

@[simp] theorem sget_sset_same (m : List (Nat × α)) (k : Nat) (v : α) : sget dflt (sset dflt m k v) k = v := by
  simp [sget_sset]

theorem sget_sset_ne (m : List (Nat × α)) {k a : Nat} (v : α) (h : a ≠ k) :
    sget dflt (sset dflt m k v) a = sget dflt m a := by simp [sget_sset, h]

/-! ## The canonical form -/

theorem swfFrom_mono {b c : Nat} (h : b ≤ c) : ∀ {m : List (Nat × α)}, swfFrom dflt c m = true → swfFrom dflt b m = true
  | [], _ => rfl
  | (j, v) :: m, hm => by
    simp only [swfFrom, Bool.and_eq_true, decide_eq_true_eq] at hm ⊢
    exact ⟨⟨h.trans hm.1.1, hm.1.2⟩, hm.2⟩

theorem swfFrom_sdel (k : Nat) : ∀ {b : Nat} {m : List (Nat × α)}, swfFrom dflt b m = true → swfFrom dflt b (sdel m k) = true
  | _, [], _ => rfl
  | b, (j, v) :: m, hm => by
    simp only [swfFrom, Bool.and_eq_true, decide_eq_true_eq] at hm
    by_cases hk : k = j
    · simp only [sdel, hk, if_true]
      exact swfFrom_mono dflt (by omega) (hk ▸ swfFrom_sdel k hm.2)
    · simp only [sdel, hk, if_false, swfFrom, Bool.and_eq_true, decide_eq_true_eq]
      exact ⟨hm.1, swfFrom_sdel k hm.2⟩

theorem swfFrom_sput {k : Nat} {v : α} (hv : v ≠ dflt k) :
    ∀ {b : Nat} {m : List (Nat × α)}, b ≤ k → swfFrom dflt b m = true → swfFrom dflt b (sput m k v) = true
  | b, [], hb, _ => by simp [sput, swfFrom, hb, hv]
  | b, (j, u) :: m, hb, hm => by
    simp only [swfFrom, Bool.and_eq_true, decide_eq_true_eq] at hm
    by_cases hk : k = j
    · subst hk; simp [sput, swfFrom, hb, hv, hm.2]
    · by_cases hl : k < j
      · simp [sput, swfFrom, hk, hl, hb, hv, hm.1.2, hm.2, Nat.succ_le_of_lt hl]
      · simp only [sput, hk, hl, if_false, swfFrom, Bool.and_eq_true, decide_eq_true_eq]
        exact ⟨hm.1, swfFrom_sput hv (by omega) hm.2⟩

/-- A write keeps the canonical form. -/
theorem swf_sset {m : List (Nat × α)} (h : swf dflt m = true) (k : Nat) (v : α) : swf dflt (sset dflt m k v) = true := by
  unfold sset swf
  split
  · exact swfFrom_sdel dflt k h
  · exact swfFrom_sput dflt ‹_› (Nat.zero_le _) h

/-- Several writes keep the canonical form. -/
theorem swf_ssets (ws : List (Nat × α)) : ∀ {m : List (Nat × α)}, swf dflt m = true → swf dflt (ssets dflt m ws) = true := by
  induction ws with
  | nil => intro m h; exact h
  | cons w ws ih => intro m h; exact ih (swf_sset dflt h w.1 w.2)

/-- Leaving entries out keeps the canonical form. -/
theorem swfFrom_filter (p : Nat × α → Bool) :
    ∀ {b : Nat} {m : List (Nat × α)}, swfFrom dflt b m = true → swfFrom dflt b (m.filter p) = true
  | _, [], _ => rfl
  | b, (j, v) :: m, hm => by
    simp only [swfFrom, Bool.and_eq_true, decide_eq_true_eq] at hm
    by_cases hp : p (j, v) = true
    · simp only [List.filter_cons, hp, if_true, swfFrom, Bool.and_eq_true, decide_eq_true_eq]
      exact ⟨hm.1, swfFrom_filter p hm.2⟩
    · simp only [List.filter_cons, hp]
      exact swfFrom_mono dflt (by omega) (swfFrom_filter p hm.2)

theorem swf_filter {m : List (Nat × α)} (h : swf dflt m = true) (p : Nat × α → Bool) : swf dflt (m.filter p) = true :=
  swfFrom_filter dflt p h

end Store

/-! ## Tables by key -/

section Table
variable {α : Type}

theorem aget?_aput (m : List (Nat × α)) (k a : Nat) (v : α) :
    aget? (aput m k v) a = if a = k then some v else aget? m a := by
  induction m with
  | nil => by_cases h : a = k <;> simp [aput, aget?, h]
  | cons e m ih =>
    obtain ⟨j, u⟩ := e
    by_cases hk : k = j
    · subst hk; by_cases ha : a = k <;> simp [aput, aget?, ha]
    · by_cases hl : k < j
      · simp [aput, aget?, hk, hl]
      · by_cases ha : a = j
        · subst ha
          have hne : a ≠ k := fun h => hk h.symm
          simp [aput, aget?, hk, hl, hne]
        · simp [aput, aget?, hk, hl, ha, ih]

@[simp] theorem aget?_aput_same (m : List (Nat × α)) (k : Nat) (v : α) : aget? (aput m k v) k = some v := by
  simp [aget?_aput]

theorem aget?_aput_ne (m : List (Nat × α)) {k a : Nat} (v : α) (h : a ≠ k) : aget? (aput m k v) a = aget? m a := by
  simp [aget?_aput, h]

end Table

/-! ## Lists of units -/

@[simp] theorem length_modAt {α : Type} (l : List α) (i : Nat) (f : α → α) : (modAt l i f).length = l.length := by
  unfold modAt; split <;> simp

theorem getElem?_modAt {α : Type} (l : List α) (i j : Nat) (f : α → α) :
    (modAt l i f)[j]? = if i = j then (l[j]?).map f else l[j]? := by
  unfold modAt
  by_cases h : i = j
  · subst h; cases hl : l[i]? <;> simp [hl, List.getElem?_set]
    have := (List.getElem?_eq_some_iff.mp hl).1; omega
  · cases hl : l[i]? <;> simp [h]

/-- What a store filtered by its keys reads. -/
theorem sget_filter {α : Type} (d : Nat → α) (P : Nat → Bool) (m : List (Nat × α)) (a : Nat) :
    sget d (m.filter fun e => P e.1) a = if P a then sget d m a else d a := by
  induction m with
  | nil => simp [sget]
  | cons e m ih =>
    obtain ⟨j, v⟩ := e
    by_cases hj : P j
    · simp only [List.filter_cons, hj, if_true, sget]
      by_cases ha : a = j
      · subst ha; simp [hj]
      · simp [ha, ih]
    · simp only [List.filter_cons, hj, sget]
      by_cases ha : a = j
      · subst ha; simp [ih, hj]
      · simp [ha, ih]

/-- Removing one key leaves the others as they were. -/
theorem aget?_adel_ne {α : Type} (m : List (Nat × α)) {k a : Nat} (h : a ≠ k) : aget? (adel m k) a = aget? m a := by
  induction m with
  | nil => rfl
  | cons e m ih =>
    obtain ⟨j, u⟩ := e
    unfold adel
    split
    · next hk => subst hk; simp [aget?, h]
    · simp [aget?, ih]

end Sys2Proof.Machine
end

