-- ==== Sys2Proof/Laws/State.lean ====
section
/-!
SUPPORT. What each shared update of the block leaves as it was: one lemma per field per update, so that no later proof unfolds a
record update.  An update that is missing beside a field is the one that changes it (Laws/Ops.lean says how).
-/
namespace Sys2Proof.Machine

variable (s : Block)


/-! ## setReg -/

@[simp] theorem Block.setReg_frozen (a : Nat) (v : Word) : (s.setReg a v).frozen = s.frozen := rfl
@[simp] theorem Block.setReg_now (a : Nat) (v : Word) : (s.setReg a v).now = s.now := rfl
@[simp] theorem Block.setReg_free (a : Nat) (v : Word) : (s.setReg a v).free = s.free := rfl
@[simp] theorem Block.setReg_out (a : Nat) (v : Word) : (s.setReg a v).out = s.out := rfl
@[simp] theorem Block.setReg_tm (a : Nat) (v : Word) : (s.setReg a v).tm = s.tm := rfl
@[simp] theorem Block.setReg_cm (a : Nat) (v : Word) : (s.setReg a v).cm = s.cm := rfl
@[simp] theorem Block.setReg_rg (a : Nat) (v : Word) : (s.setReg a v).rg = s.rg := rfl
@[simp] theorem Block.setReg_pw (a : Nat) (v : Word) : (s.setReg a v).pw = s.pw := rfl
@[simp] theorem Block.setReg_bt (a : Nat) (v : Word) : (s.setReg a v).bt = s.bt := rfl
@[simp] theorem Block.setReg_fl (a : Nat) (v : Word) : (s.setReg a v).fl = s.fl := rfl
@[simp] theorem Block.setReg_pins (a : Nat) (v : Word) : (s.setReg a v).pins = s.pins := rfl
@[simp] theorem Block.setReg_ty (a : Nat) (v : Word) : (s.setReg a v).ty = s.ty := rfl
@[simp] theorem Block.setReg_chk (a : Nat) (v : Word) : (s.setReg a v).chk = s.chk := rfl
@[simp] theorem Block.setReg_hs (a : Nat) (v : Word) : (s.setReg a v).hs = s.hs := rfl
@[simp] theorem Block.setReg_sk (a : Nat) (v : Word) : (s.setReg a v).sk = s.sk := rfl
@[simp] theorem Block.setReg_dt (a : Nat) (v : Word) : (s.setReg a v).dt = s.dt := rfl
@[simp] theorem Block.setReg_dram (a : Nat) (v : Word) : (s.setReg a v).dram = s.dram := rfl
@[simp] theorem Block.setReg_sf (a : Nat) (v : Word) : (s.setReg a v).sf = s.sf := rfl
@[simp] theorem Block.setReg_pp (a : Nat) (v : Word) : (s.setReg a v).pp = s.pp := rfl
@[simp] theorem Block.setReg_ma (a : Nat) (v : Word) : (s.setReg a v).ma = s.ma := rfl
@[simp] theorem Block.setReg_sc (a : Nat) (v : Word) : (s.setReg a v).sc = s.sc := rfl
@[simp] theorem Block.setReg_ls (a : Nat) (v : Word) : (s.setReg a v).ls = s.ls := rfl
@[simp] theorem Block.setReg_cp (a : Nat) (v : Word) : (s.setReg a v).cp = s.cp := rfl
@[simp] theorem Block.setReg_th (a : Nat) (v : Word) : (s.setReg a v).th = s.th := rfl
@[simp] theorem Block.setReg_dc (a : Nat) (v : Word) : (s.setReg a v).dc = s.dc := rfl
@[simp] theorem Block.setReg_se (a : Nat) (v : Word) : (s.setReg a v).se = s.se := rfl
@[simp] theorem Block.setReg_tr (a : Nat) (v : Word) : (s.setReg a v).tr = s.tr := rfl
@[simp] theorem Block.setReg_ca (a : Nat) (v : Word) : (s.setReg a v).ca = s.ca := rfl
@[simp] theorem Block.setReg_fb (a : Nat) (v : Word) : (s.setReg a v).fb = s.fb := rfl
@[simp] theorem Block.setReg_cu (a : Nat) (v : Word) : (s.setReg a v).cu = s.cu := rfl
@[simp] theorem Block.setReg_ho (a : Nat) (v : Word) : (s.setReg a v).ho = s.ho := rfl
@[simp] theorem Block.setReg_co (a : Nat) (v : Word) : (s.setReg a v).co = s.co := rfl

/-! ## setRegs -/

@[simp] theorem Block.setRegs_frozen (l : List (Nat × Word)) : (s.setRegs l).frozen = s.frozen := rfl
@[simp] theorem Block.setRegs_now (l : List (Nat × Word)) : (s.setRegs l).now = s.now := rfl
@[simp] theorem Block.setRegs_free (l : List (Nat × Word)) : (s.setRegs l).free = s.free := rfl
@[simp] theorem Block.setRegs_out (l : List (Nat × Word)) : (s.setRegs l).out = s.out := rfl
@[simp] theorem Block.setRegs_tm (l : List (Nat × Word)) : (s.setRegs l).tm = s.tm := rfl
@[simp] theorem Block.setRegs_cm (l : List (Nat × Word)) : (s.setRegs l).cm = s.cm := rfl
@[simp] theorem Block.setRegs_rg (l : List (Nat × Word)) : (s.setRegs l).rg = s.rg := rfl
@[simp] theorem Block.setRegs_pw (l : List (Nat × Word)) : (s.setRegs l).pw = s.pw := rfl
@[simp] theorem Block.setRegs_bt (l : List (Nat × Word)) : (s.setRegs l).bt = s.bt := rfl
@[simp] theorem Block.setRegs_fl (l : List (Nat × Word)) : (s.setRegs l).fl = s.fl := rfl
@[simp] theorem Block.setRegs_pins (l : List (Nat × Word)) : (s.setRegs l).pins = s.pins := rfl
@[simp] theorem Block.setRegs_ty (l : List (Nat × Word)) : (s.setRegs l).ty = s.ty := rfl
@[simp] theorem Block.setRegs_chk (l : List (Nat × Word)) : (s.setRegs l).chk = s.chk := rfl
@[simp] theorem Block.setRegs_hs (l : List (Nat × Word)) : (s.setRegs l).hs = s.hs := rfl
@[simp] theorem Block.setRegs_sk (l : List (Nat × Word)) : (s.setRegs l).sk = s.sk := rfl
@[simp] theorem Block.setRegs_dt (l : List (Nat × Word)) : (s.setRegs l).dt = s.dt := rfl
@[simp] theorem Block.setRegs_dram (l : List (Nat × Word)) : (s.setRegs l).dram = s.dram := rfl
@[simp] theorem Block.setRegs_sf (l : List (Nat × Word)) : (s.setRegs l).sf = s.sf := rfl
@[simp] theorem Block.setRegs_pp (l : List (Nat × Word)) : (s.setRegs l).pp = s.pp := rfl
@[simp] theorem Block.setRegs_ma (l : List (Nat × Word)) : (s.setRegs l).ma = s.ma := rfl
@[simp] theorem Block.setRegs_sc (l : List (Nat × Word)) : (s.setRegs l).sc = s.sc := rfl
@[simp] theorem Block.setRegs_ls (l : List (Nat × Word)) : (s.setRegs l).ls = s.ls := rfl
@[simp] theorem Block.setRegs_cp (l : List (Nat × Word)) : (s.setRegs l).cp = s.cp := rfl
@[simp] theorem Block.setRegs_th (l : List (Nat × Word)) : (s.setRegs l).th = s.th := rfl
@[simp] theorem Block.setRegs_dc (l : List (Nat × Word)) : (s.setRegs l).dc = s.dc := rfl
@[simp] theorem Block.setRegs_se (l : List (Nat × Word)) : (s.setRegs l).se = s.se := rfl
@[simp] theorem Block.setRegs_tr (l : List (Nat × Word)) : (s.setRegs l).tr = s.tr := rfl
@[simp] theorem Block.setRegs_ca (l : List (Nat × Word)) : (s.setRegs l).ca = s.ca := rfl
@[simp] theorem Block.setRegs_fb (l : List (Nat × Word)) : (s.setRegs l).fb = s.fb := rfl
@[simp] theorem Block.setRegs_cu (l : List (Nat × Word)) : (s.setRegs l).cu = s.cu := rfl
@[simp] theorem Block.setRegs_ho (l : List (Nat × Word)) : (s.setRegs l).ho = s.ho := rfl
@[simp] theorem Block.setRegs_co (l : List (Nat × Word)) : (s.setRegs l).co = s.co := rfl

/-! ## setFld -/

@[simp] theorem Block.setFld_frozen (a lo w x : Nat) : (s.setFld a lo w x).frozen = s.frozen := rfl
@[simp] theorem Block.setFld_now (a lo w x : Nat) : (s.setFld a lo w x).now = s.now := rfl
@[simp] theorem Block.setFld_free (a lo w x : Nat) : (s.setFld a lo w x).free = s.free := rfl
@[simp] theorem Block.setFld_out (a lo w x : Nat) : (s.setFld a lo w x).out = s.out := rfl
@[simp] theorem Block.setFld_tm (a lo w x : Nat) : (s.setFld a lo w x).tm = s.tm := rfl
@[simp] theorem Block.setFld_cm (a lo w x : Nat) : (s.setFld a lo w x).cm = s.cm := rfl
@[simp] theorem Block.setFld_rg (a lo w x : Nat) : (s.setFld a lo w x).rg = s.rg := rfl
@[simp] theorem Block.setFld_pw (a lo w x : Nat) : (s.setFld a lo w x).pw = s.pw := rfl
@[simp] theorem Block.setFld_bt (a lo w x : Nat) : (s.setFld a lo w x).bt = s.bt := rfl
@[simp] theorem Block.setFld_fl (a lo w x : Nat) : (s.setFld a lo w x).fl = s.fl := rfl
@[simp] theorem Block.setFld_pins (a lo w x : Nat) : (s.setFld a lo w x).pins = s.pins := rfl
@[simp] theorem Block.setFld_ty (a lo w x : Nat) : (s.setFld a lo w x).ty = s.ty := rfl
@[simp] theorem Block.setFld_chk (a lo w x : Nat) : (s.setFld a lo w x).chk = s.chk := rfl
@[simp] theorem Block.setFld_hs (a lo w x : Nat) : (s.setFld a lo w x).hs = s.hs := rfl
@[simp] theorem Block.setFld_sk (a lo w x : Nat) : (s.setFld a lo w x).sk = s.sk := rfl
@[simp] theorem Block.setFld_dt (a lo w x : Nat) : (s.setFld a lo w x).dt = s.dt := rfl
@[simp] theorem Block.setFld_dram (a lo w x : Nat) : (s.setFld a lo w x).dram = s.dram := rfl
@[simp] theorem Block.setFld_sf (a lo w x : Nat) : (s.setFld a lo w x).sf = s.sf := rfl
@[simp] theorem Block.setFld_pp (a lo w x : Nat) : (s.setFld a lo w x).pp = s.pp := rfl
@[simp] theorem Block.setFld_ma (a lo w x : Nat) : (s.setFld a lo w x).ma = s.ma := rfl
@[simp] theorem Block.setFld_sc (a lo w x : Nat) : (s.setFld a lo w x).sc = s.sc := rfl
@[simp] theorem Block.setFld_ls (a lo w x : Nat) : (s.setFld a lo w x).ls = s.ls := rfl
@[simp] theorem Block.setFld_cp (a lo w x : Nat) : (s.setFld a lo w x).cp = s.cp := rfl
@[simp] theorem Block.setFld_th (a lo w x : Nat) : (s.setFld a lo w x).th = s.th := rfl
@[simp] theorem Block.setFld_dc (a lo w x : Nat) : (s.setFld a lo w x).dc = s.dc := rfl
@[simp] theorem Block.setFld_se (a lo w x : Nat) : (s.setFld a lo w x).se = s.se := rfl
@[simp] theorem Block.setFld_tr (a lo w x : Nat) : (s.setFld a lo w x).tr = s.tr := rfl
@[simp] theorem Block.setFld_ca (a lo w x : Nat) : (s.setFld a lo w x).ca = s.ca := rfl
@[simp] theorem Block.setFld_fb (a lo w x : Nat) : (s.setFld a lo w x).fb = s.fb := rfl
@[simp] theorem Block.setFld_cu (a lo w x : Nat) : (s.setFld a lo w x).cu = s.cu := rfl
@[simp] theorem Block.setFld_ho (a lo w x : Nat) : (s.setFld a lo w x).ho = s.ho := rfl
@[simp] theorem Block.setFld_co (a lo w x : Nat) : (s.setFld a lo w x).co = s.co := rfl

/-! ## bump -/

@[simp] theorem Block.bump_frozen (a n : Nat) : (s.bump a n).frozen = s.frozen := rfl
@[simp] theorem Block.bump_now (a n : Nat) : (s.bump a n).now = s.now := rfl
@[simp] theorem Block.bump_free (a n : Nat) : (s.bump a n).free = s.free := rfl
@[simp] theorem Block.bump_out (a n : Nat) : (s.bump a n).out = s.out := rfl
@[simp] theorem Block.bump_tm (a n : Nat) : (s.bump a n).tm = s.tm := rfl
@[simp] theorem Block.bump_cm (a n : Nat) : (s.bump a n).cm = s.cm := rfl
@[simp] theorem Block.bump_rg (a n : Nat) : (s.bump a n).rg = s.rg := rfl
@[simp] theorem Block.bump_pw (a n : Nat) : (s.bump a n).pw = s.pw := rfl
@[simp] theorem Block.bump_bt (a n : Nat) : (s.bump a n).bt = s.bt := rfl
@[simp] theorem Block.bump_fl (a n : Nat) : (s.bump a n).fl = s.fl := rfl
@[simp] theorem Block.bump_pins (a n : Nat) : (s.bump a n).pins = s.pins := rfl
@[simp] theorem Block.bump_ty (a n : Nat) : (s.bump a n).ty = s.ty := rfl
@[simp] theorem Block.bump_chk (a n : Nat) : (s.bump a n).chk = s.chk := rfl
@[simp] theorem Block.bump_hs (a n : Nat) : (s.bump a n).hs = s.hs := rfl
@[simp] theorem Block.bump_sk (a n : Nat) : (s.bump a n).sk = s.sk := rfl
@[simp] theorem Block.bump_dt (a n : Nat) : (s.bump a n).dt = s.dt := rfl
@[simp] theorem Block.bump_dram (a n : Nat) : (s.bump a n).dram = s.dram := rfl
@[simp] theorem Block.bump_sf (a n : Nat) : (s.bump a n).sf = s.sf := rfl
@[simp] theorem Block.bump_pp (a n : Nat) : (s.bump a n).pp = s.pp := rfl
@[simp] theorem Block.bump_ma (a n : Nat) : (s.bump a n).ma = s.ma := rfl
@[simp] theorem Block.bump_sc (a n : Nat) : (s.bump a n).sc = s.sc := rfl
@[simp] theorem Block.bump_ls (a n : Nat) : (s.bump a n).ls = s.ls := rfl
@[simp] theorem Block.bump_cp (a n : Nat) : (s.bump a n).cp = s.cp := rfl
@[simp] theorem Block.bump_th (a n : Nat) : (s.bump a n).th = s.th := rfl
@[simp] theorem Block.bump_dc (a n : Nat) : (s.bump a n).dc = s.dc := rfl
@[simp] theorem Block.bump_se (a n : Nat) : (s.bump a n).se = s.se := rfl
@[simp] theorem Block.bump_tr (a n : Nat) : (s.bump a n).tr = s.tr := rfl
@[simp] theorem Block.bump_ca (a n : Nat) : (s.bump a n).ca = s.ca := rfl
@[simp] theorem Block.bump_fb (a n : Nat) : (s.bump a n).fb = s.fb := rfl
@[simp] theorem Block.bump_cu (a n : Nat) : (s.bump a n).cu = s.cu := rfl
@[simp] theorem Block.bump_ho (a n : Nat) : (s.bump a n).ho = s.ho := rfl
@[simp] theorem Block.bump_co (a n : Nat) : (s.bump a n).co = s.co := rfl

/-! ## bumpSat -/

@[simp] theorem Block.bumpSat_frozen (a lo w : Nat) : (s.bumpSat a lo w).frozen = s.frozen := rfl
@[simp] theorem Block.bumpSat_now (a lo w : Nat) : (s.bumpSat a lo w).now = s.now := rfl
@[simp] theorem Block.bumpSat_free (a lo w : Nat) : (s.bumpSat a lo w).free = s.free := rfl
@[simp] theorem Block.bumpSat_out (a lo w : Nat) : (s.bumpSat a lo w).out = s.out := rfl
@[simp] theorem Block.bumpSat_tm (a lo w : Nat) : (s.bumpSat a lo w).tm = s.tm := rfl
@[simp] theorem Block.bumpSat_cm (a lo w : Nat) : (s.bumpSat a lo w).cm = s.cm := rfl
@[simp] theorem Block.bumpSat_rg (a lo w : Nat) : (s.bumpSat a lo w).rg = s.rg := rfl
@[simp] theorem Block.bumpSat_pw (a lo w : Nat) : (s.bumpSat a lo w).pw = s.pw := rfl
@[simp] theorem Block.bumpSat_bt (a lo w : Nat) : (s.bumpSat a lo w).bt = s.bt := rfl
@[simp] theorem Block.bumpSat_fl (a lo w : Nat) : (s.bumpSat a lo w).fl = s.fl := rfl
@[simp] theorem Block.bumpSat_pins (a lo w : Nat) : (s.bumpSat a lo w).pins = s.pins := rfl
@[simp] theorem Block.bumpSat_ty (a lo w : Nat) : (s.bumpSat a lo w).ty = s.ty := rfl
@[simp] theorem Block.bumpSat_chk (a lo w : Nat) : (s.bumpSat a lo w).chk = s.chk := rfl
@[simp] theorem Block.bumpSat_hs (a lo w : Nat) : (s.bumpSat a lo w).hs = s.hs := rfl
@[simp] theorem Block.bumpSat_sk (a lo w : Nat) : (s.bumpSat a lo w).sk = s.sk := rfl
@[simp] theorem Block.bumpSat_dt (a lo w : Nat) : (s.bumpSat a lo w).dt = s.dt := rfl
@[simp] theorem Block.bumpSat_dram (a lo w : Nat) : (s.bumpSat a lo w).dram = s.dram := rfl
@[simp] theorem Block.bumpSat_sf (a lo w : Nat) : (s.bumpSat a lo w).sf = s.sf := rfl
@[simp] theorem Block.bumpSat_pp (a lo w : Nat) : (s.bumpSat a lo w).pp = s.pp := rfl
@[simp] theorem Block.bumpSat_ma (a lo w : Nat) : (s.bumpSat a lo w).ma = s.ma := rfl
@[simp] theorem Block.bumpSat_sc (a lo w : Nat) : (s.bumpSat a lo w).sc = s.sc := rfl
@[simp] theorem Block.bumpSat_ls (a lo w : Nat) : (s.bumpSat a lo w).ls = s.ls := rfl
@[simp] theorem Block.bumpSat_cp (a lo w : Nat) : (s.bumpSat a lo w).cp = s.cp := rfl
@[simp] theorem Block.bumpSat_th (a lo w : Nat) : (s.bumpSat a lo w).th = s.th := rfl
@[simp] theorem Block.bumpSat_dc (a lo w : Nat) : (s.bumpSat a lo w).dc = s.dc := rfl
@[simp] theorem Block.bumpSat_se (a lo w : Nat) : (s.bumpSat a lo w).se = s.se := rfl
@[simp] theorem Block.bumpSat_tr (a lo w : Nat) : (s.bumpSat a lo w).tr = s.tr := rfl
@[simp] theorem Block.bumpSat_ca (a lo w : Nat) : (s.bumpSat a lo w).ca = s.ca := rfl
@[simp] theorem Block.bumpSat_fb (a lo w : Nat) : (s.bumpSat a lo w).fb = s.fb := rfl
@[simp] theorem Block.bumpSat_cu (a lo w : Nat) : (s.bumpSat a lo w).cu = s.cu := rfl
@[simp] theorem Block.bumpSat_ho (a lo w : Nat) : (s.bumpSat a lo w).ho = s.ho := rfl
@[simp] theorem Block.bumpSat_co (a lo w : Nat) : (s.bumpSat a lo w).co = s.co := rfl

/-! ## errCause -/

@[simp] theorem Block.errCause_frozen (p i : Nat) : (s.errCause p i).frozen = s.frozen := rfl
@[simp] theorem Block.errCause_now (p i : Nat) : (s.errCause p i).now = s.now := rfl
@[simp] theorem Block.errCause_free (p i : Nat) : (s.errCause p i).free = s.free := rfl
@[simp] theorem Block.errCause_out (p i : Nat) : (s.errCause p i).out = s.out := rfl
@[simp] theorem Block.errCause_tm (p i : Nat) : (s.errCause p i).tm = s.tm := rfl
@[simp] theorem Block.errCause_cm (p i : Nat) : (s.errCause p i).cm = s.cm := rfl
@[simp] theorem Block.errCause_rg (p i : Nat) : (s.errCause p i).rg = s.rg := rfl
@[simp] theorem Block.errCause_pw (p i : Nat) : (s.errCause p i).pw = s.pw := rfl
@[simp] theorem Block.errCause_bt (p i : Nat) : (s.errCause p i).bt = s.bt := rfl
@[simp] theorem Block.errCause_fl (p i : Nat) : (s.errCause p i).fl = s.fl := rfl
@[simp] theorem Block.errCause_pins (p i : Nat) : (s.errCause p i).pins = s.pins := rfl
@[simp] theorem Block.errCause_ty (p i : Nat) : (s.errCause p i).ty = s.ty := rfl
@[simp] theorem Block.errCause_chk (p i : Nat) : (s.errCause p i).chk = s.chk := rfl
@[simp] theorem Block.errCause_hs (p i : Nat) : (s.errCause p i).hs = s.hs := rfl
@[simp] theorem Block.errCause_sk (p i : Nat) : (s.errCause p i).sk = s.sk := rfl
@[simp] theorem Block.errCause_dt (p i : Nat) : (s.errCause p i).dt = s.dt := rfl
@[simp] theorem Block.errCause_dram (p i : Nat) : (s.errCause p i).dram = s.dram := rfl
@[simp] theorem Block.errCause_sf (p i : Nat) : (s.errCause p i).sf = s.sf := rfl
@[simp] theorem Block.errCause_pp (p i : Nat) : (s.errCause p i).pp = s.pp := rfl
@[simp] theorem Block.errCause_ma (p i : Nat) : (s.errCause p i).ma = s.ma := rfl
@[simp] theorem Block.errCause_sc (p i : Nat) : (s.errCause p i).sc = s.sc := rfl
@[simp] theorem Block.errCause_ls (p i : Nat) : (s.errCause p i).ls = s.ls := rfl
@[simp] theorem Block.errCause_cp (p i : Nat) : (s.errCause p i).cp = s.cp := rfl
@[simp] theorem Block.errCause_th (p i : Nat) : (s.errCause p i).th = s.th := rfl
@[simp] theorem Block.errCause_dc (p i : Nat) : (s.errCause p i).dc = s.dc := rfl
@[simp] theorem Block.errCause_se (p i : Nat) : (s.errCause p i).se = s.se := rfl
@[simp] theorem Block.errCause_tr (p i : Nat) : (s.errCause p i).tr = s.tr := rfl
@[simp] theorem Block.errCause_ca (p i : Nat) : (s.errCause p i).ca = s.ca := rfl
@[simp] theorem Block.errCause_fb (p i : Nat) : (s.errCause p i).fb = s.fb := rfl
@[simp] theorem Block.errCause_cu (p i : Nat) : (s.errCause p i).cu = s.cu := rfl
@[simp] theorem Block.errCause_ho (p i : Nat) : (s.errCause p i).ho = s.ho := rfl
@[simp] theorem Block.errCause_co (p i : Nat) : (s.errCause p i).co = s.co := rfl

/-! ## applyVals -/

@[simp] theorem Block.applyVals_frozen (side : Nat → Bool) (pages : Nat) (l : List (Nat × Word)) : (s.applyVals side pages l).frozen = s.frozen := rfl
@[simp] theorem Block.applyVals_now (side : Nat → Bool) (pages : Nat) (l : List (Nat × Word)) : (s.applyVals side pages l).now = s.now := rfl
@[simp] theorem Block.applyVals_free (side : Nat → Bool) (pages : Nat) (l : List (Nat × Word)) : (s.applyVals side pages l).free = s.free := rfl
@[simp] theorem Block.applyVals_out (side : Nat → Bool) (pages : Nat) (l : List (Nat × Word)) : (s.applyVals side pages l).out = s.out := rfl
@[simp] theorem Block.applyVals_tm (side : Nat → Bool) (pages : Nat) (l : List (Nat × Word)) : (s.applyVals side pages l).tm = s.tm := rfl
@[simp] theorem Block.applyVals_cm (side : Nat → Bool) (pages : Nat) (l : List (Nat × Word)) : (s.applyVals side pages l).cm = s.cm := rfl
@[simp] theorem Block.applyVals_rg (side : Nat → Bool) (pages : Nat) (l : List (Nat × Word)) : (s.applyVals side pages l).rg = s.rg := rfl
@[simp] theorem Block.applyVals_pw (side : Nat → Bool) (pages : Nat) (l : List (Nat × Word)) : (s.applyVals side pages l).pw = s.pw := rfl
@[simp] theorem Block.applyVals_bt (side : Nat → Bool) (pages : Nat) (l : List (Nat × Word)) : (s.applyVals side pages l).bt = s.bt := rfl
@[simp] theorem Block.applyVals_fl (side : Nat → Bool) (pages : Nat) (l : List (Nat × Word)) : (s.applyVals side pages l).fl = s.fl := rfl
@[simp] theorem Block.applyVals_pins (side : Nat → Bool) (pages : Nat) (l : List (Nat × Word)) : (s.applyVals side pages l).pins = s.pins := rfl
@[simp] theorem Block.applyVals_ty (side : Nat → Bool) (pages : Nat) (l : List (Nat × Word)) : (s.applyVals side pages l).ty = s.ty := rfl
@[simp] theorem Block.applyVals_chk (side : Nat → Bool) (pages : Nat) (l : List (Nat × Word)) : (s.applyVals side pages l).chk = s.chk := rfl
@[simp] theorem Block.applyVals_hs (side : Nat → Bool) (pages : Nat) (l : List (Nat × Word)) : (s.applyVals side pages l).hs = s.hs := rfl
@[simp] theorem Block.applyVals_sk (side : Nat → Bool) (pages : Nat) (l : List (Nat × Word)) : (s.applyVals side pages l).sk = s.sk := rfl
@[simp] theorem Block.applyVals_dt (side : Nat → Bool) (pages : Nat) (l : List (Nat × Word)) : (s.applyVals side pages l).dt = s.dt := rfl
@[simp] theorem Block.applyVals_dram (side : Nat → Bool) (pages : Nat) (l : List (Nat × Word)) : (s.applyVals side pages l).dram = s.dram := rfl
@[simp] theorem Block.applyVals_sf (side : Nat → Bool) (pages : Nat) (l : List (Nat × Word)) : (s.applyVals side pages l).sf = s.sf := rfl
@[simp] theorem Block.applyVals_pp (side : Nat → Bool) (pages : Nat) (l : List (Nat × Word)) : (s.applyVals side pages l).pp = s.pp := rfl
@[simp] theorem Block.applyVals_ma (side : Nat → Bool) (pages : Nat) (l : List (Nat × Word)) : (s.applyVals side pages l).ma = s.ma := rfl
@[simp] theorem Block.applyVals_sc (side : Nat → Bool) (pages : Nat) (l : List (Nat × Word)) : (s.applyVals side pages l).sc = s.sc := rfl
@[simp] theorem Block.applyVals_ls (side : Nat → Bool) (pages : Nat) (l : List (Nat × Word)) : (s.applyVals side pages l).ls = s.ls := rfl
@[simp] theorem Block.applyVals_cp (side : Nat → Bool) (pages : Nat) (l : List (Nat × Word)) : (s.applyVals side pages l).cp = s.cp := rfl
@[simp] theorem Block.applyVals_th (side : Nat → Bool) (pages : Nat) (l : List (Nat × Word)) : (s.applyVals side pages l).th = s.th := rfl
@[simp] theorem Block.applyVals_dc (side : Nat → Bool) (pages : Nat) (l : List (Nat × Word)) : (s.applyVals side pages l).dc = s.dc := rfl
@[simp] theorem Block.applyVals_se (side : Nat → Bool) (pages : Nat) (l : List (Nat × Word)) : (s.applyVals side pages l).se = s.se := rfl
@[simp] theorem Block.applyVals_tr (side : Nat → Bool) (pages : Nat) (l : List (Nat × Word)) : (s.applyVals side pages l).tr = s.tr := rfl
@[simp] theorem Block.applyVals_ca (side : Nat → Bool) (pages : Nat) (l : List (Nat × Word)) : (s.applyVals side pages l).ca = s.ca := rfl
@[simp] theorem Block.applyVals_fb (side : Nat → Bool) (pages : Nat) (l : List (Nat × Word)) : (s.applyVals side pages l).fb = s.fb := rfl
@[simp] theorem Block.applyVals_cu (side : Nat → Bool) (pages : Nat) (l : List (Nat × Word)) : (s.applyVals side pages l).cu = s.cu := rfl
@[simp] theorem Block.applyVals_ho (side : Nat → Bool) (pages : Nat) (l : List (Nat × Word)) : (s.applyVals side pages l).ho = s.ho := rfl
@[simp] theorem Block.applyVals_co (side : Nat → Bool) (pages : Nat) (l : List (Nat × Word)) : (s.applyVals side pages l).co = s.co := rfl

/-! ## emit -/

@[simp] theorem Block.emit_regs (o : Out) : (s.emit o).regs = s.regs := rfl
@[simp] theorem Block.emit_frozen (o : Out) : (s.emit o).frozen = s.frozen := rfl
@[simp] theorem Block.emit_now (o : Out) : (s.emit o).now = s.now := rfl
@[simp] theorem Block.emit_free (o : Out) : (s.emit o).free = s.free := rfl
@[simp] theorem Block.emit_tm (o : Out) : (s.emit o).tm = s.tm := rfl
@[simp] theorem Block.emit_cm (o : Out) : (s.emit o).cm = s.cm := rfl
@[simp] theorem Block.emit_rg (o : Out) : (s.emit o).rg = s.rg := rfl
@[simp] theorem Block.emit_pw (o : Out) : (s.emit o).pw = s.pw := rfl
@[simp] theorem Block.emit_bt (o : Out) : (s.emit o).bt = s.bt := rfl
@[simp] theorem Block.emit_fl (o : Out) : (s.emit o).fl = s.fl := rfl
@[simp] theorem Block.emit_pins (o : Out) : (s.emit o).pins = s.pins := rfl
@[simp] theorem Block.emit_ty (o : Out) : (s.emit o).ty = s.ty := rfl
@[simp] theorem Block.emit_chk (o : Out) : (s.emit o).chk = s.chk := rfl
@[simp] theorem Block.emit_hs (o : Out) : (s.emit o).hs = s.hs := rfl
@[simp] theorem Block.emit_sk (o : Out) : (s.emit o).sk = s.sk := rfl
@[simp] theorem Block.emit_dt (o : Out) : (s.emit o).dt = s.dt := rfl
@[simp] theorem Block.emit_dram (o : Out) : (s.emit o).dram = s.dram := rfl
@[simp] theorem Block.emit_sf (o : Out) : (s.emit o).sf = s.sf := rfl
@[simp] theorem Block.emit_pp (o : Out) : (s.emit o).pp = s.pp := rfl
@[simp] theorem Block.emit_ma (o : Out) : (s.emit o).ma = s.ma := rfl
@[simp] theorem Block.emit_sc (o : Out) : (s.emit o).sc = s.sc := rfl
@[simp] theorem Block.emit_ls (o : Out) : (s.emit o).ls = s.ls := rfl
@[simp] theorem Block.emit_cp (o : Out) : (s.emit o).cp = s.cp := rfl
@[simp] theorem Block.emit_th (o : Out) : (s.emit o).th = s.th := rfl
@[simp] theorem Block.emit_dc (o : Out) : (s.emit o).dc = s.dc := rfl
@[simp] theorem Block.emit_se (o : Out) : (s.emit o).se = s.se := rfl
@[simp] theorem Block.emit_tr (o : Out) : (s.emit o).tr = s.tr := rfl
@[simp] theorem Block.emit_ca (o : Out) : (s.emit o).ca = s.ca := rfl
@[simp] theorem Block.emit_fb (o : Out) : (s.emit o).fb = s.fb := rfl
@[simp] theorem Block.emit_cu (o : Out) : (s.emit o).cu = s.cu := rfl
@[simp] theorem Block.emit_ho (o : Out) : (s.emit o).ho = s.ho := rfl
@[simp] theorem Block.emit_co (o : Out) : (s.emit o).co = s.co := rfl

/-! ## tally -/

@[simp] theorem Block.tally_regs (t i : Nat) : (s.tally t i).regs = s.regs := rfl
@[simp] theorem Block.tally_frozen (t i : Nat) : (s.tally t i).frozen = s.frozen := rfl
@[simp] theorem Block.tally_now (t i : Nat) : (s.tally t i).now = s.now := rfl
@[simp] theorem Block.tally_free (t i : Nat) : (s.tally t i).free = s.free := rfl
@[simp] theorem Block.tally_out (t i : Nat) : (s.tally t i).out = s.out := rfl
@[simp] theorem Block.tally_tm (t i : Nat) : (s.tally t i).tm = s.tm := rfl
@[simp] theorem Block.tally_cm (t i : Nat) : (s.tally t i).cm = s.cm := rfl
@[simp] theorem Block.tally_rg (t i : Nat) : (s.tally t i).rg = s.rg := rfl
@[simp] theorem Block.tally_pw (t i : Nat) : (s.tally t i).pw = s.pw := rfl
@[simp] theorem Block.tally_bt (t i : Nat) : (s.tally t i).bt = s.bt := rfl
@[simp] theorem Block.tally_fl (t i : Nat) : (s.tally t i).fl = s.fl := rfl
@[simp] theorem Block.tally_pins (t i : Nat) : (s.tally t i).pins = s.pins := rfl
@[simp] theorem Block.tally_chk (t i : Nat) : (s.tally t i).chk = s.chk := rfl
@[simp] theorem Block.tally_hs (t i : Nat) : (s.tally t i).hs = s.hs := rfl
@[simp] theorem Block.tally_sk (t i : Nat) : (s.tally t i).sk = s.sk := rfl
@[simp] theorem Block.tally_dt (t i : Nat) : (s.tally t i).dt = s.dt := rfl
@[simp] theorem Block.tally_dram (t i : Nat) : (s.tally t i).dram = s.dram := rfl
@[simp] theorem Block.tally_sf (t i : Nat) : (s.tally t i).sf = s.sf := rfl
@[simp] theorem Block.tally_pp (t i : Nat) : (s.tally t i).pp = s.pp := rfl
@[simp] theorem Block.tally_ma (t i : Nat) : (s.tally t i).ma = s.ma := rfl
@[simp] theorem Block.tally_sc (t i : Nat) : (s.tally t i).sc = s.sc := rfl
@[simp] theorem Block.tally_ls (t i : Nat) : (s.tally t i).ls = s.ls := rfl
@[simp] theorem Block.tally_cp (t i : Nat) : (s.tally t i).cp = s.cp := rfl
@[simp] theorem Block.tally_th (t i : Nat) : (s.tally t i).th = s.th := rfl
@[simp] theorem Block.tally_dc (t i : Nat) : (s.tally t i).dc = s.dc := rfl
@[simp] theorem Block.tally_se (t i : Nat) : (s.tally t i).se = s.se := rfl
@[simp] theorem Block.tally_tr (t i : Nat) : (s.tally t i).tr = s.tr := rfl
@[simp] theorem Block.tally_ca (t i : Nat) : (s.tally t i).ca = s.ca := rfl
@[simp] theorem Block.tally_fb (t i : Nat) : (s.tally t i).fb = s.fb := rfl
@[simp] theorem Block.tally_cu (t i : Nat) : (s.tally t i).cu = s.cu := rfl
@[simp] theorem Block.tally_ho (t i : Nat) : (s.tally t i).ho = s.ho := rfl
@[simp] theorem Block.tally_co (t i : Nat) : (s.tally t i).co = s.co := rfl

/-! ## postTally -/

@[simp] theorem Block.postTally_regs (t i : Nat) : (s.postTally t i).regs = s.regs := rfl
@[simp] theorem Block.postTally_frozen (t i : Nat) : (s.postTally t i).frozen = s.frozen := rfl
@[simp] theorem Block.postTally_now (t i : Nat) : (s.postTally t i).now = s.now := rfl
@[simp] theorem Block.postTally_free (t i : Nat) : (s.postTally t i).free = s.free := rfl
@[simp] theorem Block.postTally_out (t i : Nat) : (s.postTally t i).out = s.out := rfl
@[simp] theorem Block.postTally_tm (t i : Nat) : (s.postTally t i).tm = s.tm := rfl
@[simp] theorem Block.postTally_cm (t i : Nat) : (s.postTally t i).cm = s.cm := rfl
@[simp] theorem Block.postTally_rg (t i : Nat) : (s.postTally t i).rg = s.rg := rfl
@[simp] theorem Block.postTally_pw (t i : Nat) : (s.postTally t i).pw = s.pw := rfl
@[simp] theorem Block.postTally_bt (t i : Nat) : (s.postTally t i).bt = s.bt := rfl
@[simp] theorem Block.postTally_fl (t i : Nat) : (s.postTally t i).fl = s.fl := rfl
@[simp] theorem Block.postTally_pins (t i : Nat) : (s.postTally t i).pins = s.pins := rfl
@[simp] theorem Block.postTally_chk (t i : Nat) : (s.postTally t i).chk = s.chk := rfl
@[simp] theorem Block.postTally_hs (t i : Nat) : (s.postTally t i).hs = s.hs := rfl
@[simp] theorem Block.postTally_sk (t i : Nat) : (s.postTally t i).sk = s.sk := rfl
@[simp] theorem Block.postTally_dt (t i : Nat) : (s.postTally t i).dt = s.dt := rfl
@[simp] theorem Block.postTally_dram (t i : Nat) : (s.postTally t i).dram = s.dram := rfl
@[simp] theorem Block.postTally_sf (t i : Nat) : (s.postTally t i).sf = s.sf := rfl
@[simp] theorem Block.postTally_pp (t i : Nat) : (s.postTally t i).pp = s.pp := rfl
@[simp] theorem Block.postTally_ma (t i : Nat) : (s.postTally t i).ma = s.ma := rfl
@[simp] theorem Block.postTally_sc (t i : Nat) : (s.postTally t i).sc = s.sc := rfl
@[simp] theorem Block.postTally_ls (t i : Nat) : (s.postTally t i).ls = s.ls := rfl
@[simp] theorem Block.postTally_cp (t i : Nat) : (s.postTally t i).cp = s.cp := rfl
@[simp] theorem Block.postTally_th (t i : Nat) : (s.postTally t i).th = s.th := rfl
@[simp] theorem Block.postTally_dc (t i : Nat) : (s.postTally t i).dc = s.dc := rfl
@[simp] theorem Block.postTally_se (t i : Nat) : (s.postTally t i).se = s.se := rfl
@[simp] theorem Block.postTally_tr (t i : Nat) : (s.postTally t i).tr = s.tr := rfl
@[simp] theorem Block.postTally_ca (t i : Nat) : (s.postTally t i).ca = s.ca := rfl
@[simp] theorem Block.postTally_fb (t i : Nat) : (s.postTally t i).fb = s.fb := rfl
@[simp] theorem Block.postTally_cu (t i : Nat) : (s.postTally t i).cu = s.cu := rfl
@[simp] theorem Block.postTally_ho (t i : Nat) : (s.postTally t i).ho = s.ho := rfl
@[simp] theorem Block.postTally_co (t i : Nat) : (s.postTally t i).co = s.co := rfl

/-! ## setMemB -/

@[simp] theorem Block.setMemB_regs (a : Nat) (b : Byte) : (s.setMemB a b).regs = s.regs := rfl
@[simp] theorem Block.setMemB_frozen (a : Nat) (b : Byte) : (s.setMemB a b).frozen = s.frozen := rfl
@[simp] theorem Block.setMemB_now (a : Nat) (b : Byte) : (s.setMemB a b).now = s.now := rfl
@[simp] theorem Block.setMemB_free (a : Nat) (b : Byte) : (s.setMemB a b).free = s.free := rfl
@[simp] theorem Block.setMemB_out (a : Nat) (b : Byte) : (s.setMemB a b).out = s.out := rfl
@[simp] theorem Block.setMemB_tm (a : Nat) (b : Byte) : (s.setMemB a b).tm = s.tm := rfl
@[simp] theorem Block.setMemB_cm (a : Nat) (b : Byte) : (s.setMemB a b).cm = s.cm := rfl
@[simp] theorem Block.setMemB_rg (a : Nat) (b : Byte) : (s.setMemB a b).rg = s.rg := rfl
@[simp] theorem Block.setMemB_pw (a : Nat) (b : Byte) : (s.setMemB a b).pw = s.pw := rfl
@[simp] theorem Block.setMemB_bt (a : Nat) (b : Byte) : (s.setMemB a b).bt = s.bt := rfl
@[simp] theorem Block.setMemB_fl (a : Nat) (b : Byte) : (s.setMemB a b).fl = s.fl := rfl
@[simp] theorem Block.setMemB_pins (a : Nat) (b : Byte) : (s.setMemB a b).pins = s.pins := rfl
@[simp] theorem Block.setMemB_ty (a : Nat) (b : Byte) : (s.setMemB a b).ty = s.ty := rfl
@[simp] theorem Block.setMemB_chk (a : Nat) (b : Byte) : (s.setMemB a b).chk = s.chk := rfl
@[simp] theorem Block.setMemB_hs (a : Nat) (b : Byte) : (s.setMemB a b).hs = s.hs := rfl
@[simp] theorem Block.setMemB_sk (a : Nat) (b : Byte) : (s.setMemB a b).sk = s.sk := rfl
@[simp] theorem Block.setMemB_dt (a : Nat) (b : Byte) : (s.setMemB a b).dt = s.dt := rfl
@[simp] theorem Block.setMemB_sf (a : Nat) (b : Byte) : (s.setMemB a b).sf = s.sf := rfl
@[simp] theorem Block.setMemB_pp (a : Nat) (b : Byte) : (s.setMemB a b).pp = s.pp := rfl
@[simp] theorem Block.setMemB_ma (a : Nat) (b : Byte) : (s.setMemB a b).ma = s.ma := rfl
@[simp] theorem Block.setMemB_sc (a : Nat) (b : Byte) : (s.setMemB a b).sc = s.sc := rfl
@[simp] theorem Block.setMemB_ls (a : Nat) (b : Byte) : (s.setMemB a b).ls = s.ls := rfl
@[simp] theorem Block.setMemB_cp (a : Nat) (b : Byte) : (s.setMemB a b).cp = s.cp := rfl
@[simp] theorem Block.setMemB_th (a : Nat) (b : Byte) : (s.setMemB a b).th = s.th := rfl
@[simp] theorem Block.setMemB_dc (a : Nat) (b : Byte) : (s.setMemB a b).dc = s.dc := rfl
@[simp] theorem Block.setMemB_se (a : Nat) (b : Byte) : (s.setMemB a b).se = s.se := rfl
@[simp] theorem Block.setMemB_tr (a : Nat) (b : Byte) : (s.setMemB a b).tr = s.tr := rfl
@[simp] theorem Block.setMemB_ca (a : Nat) (b : Byte) : (s.setMemB a b).ca = s.ca := rfl
@[simp] theorem Block.setMemB_fb (a : Nat) (b : Byte) : (s.setMemB a b).fb = s.fb := rfl
@[simp] theorem Block.setMemB_cu (a : Nat) (b : Byte) : (s.setMemB a b).cu = s.cu := rfl
@[simp] theorem Block.setMemB_ho (a : Nat) (b : Byte) : (s.setMemB a b).ho = s.ho := rfl
@[simp] theorem Block.setMemB_co (a : Nat) (b : Byte) : (s.setMemB a b).co = s.co := rfl

/-! ## postI -/

@[simp] theorem Block.postI_regs (p t c i : Nat) (b : Bool) (d : List Word) : (s.postI p t c i b d).regs = s.regs := by
  unfold Block.postI; dsimp only; split <;> rfl
@[simp] theorem Block.postI_frozen (p t c i : Nat) (b : Bool) (d : List Word) : (s.postI p t c i b d).frozen = s.frozen := by
  unfold Block.postI; dsimp only; split <;> rfl
@[simp] theorem Block.postI_now (p t c i : Nat) (b : Bool) (d : List Word) : (s.postI p t c i b d).now = s.now := by
  unfold Block.postI; dsimp only; split <;> rfl
@[simp] theorem Block.postI_free (p t c i : Nat) (b : Bool) (d : List Word) : (s.postI p t c i b d).free = s.free := by
  unfold Block.postI; dsimp only; split <;> rfl
@[simp] theorem Block.postI_out (p t c i : Nat) (b : Bool) (d : List Word) : (s.postI p t c i b d).out = s.out := by
  unfold Block.postI; dsimp only; split <;> rfl
@[simp] theorem Block.postI_tm (p t c i : Nat) (b : Bool) (d : List Word) : (s.postI p t c i b d).tm = s.tm := by
  unfold Block.postI; dsimp only; split <;> rfl
@[simp] theorem Block.postI_cm (p t c i : Nat) (b : Bool) (d : List Word) : (s.postI p t c i b d).cm = s.cm := by
  unfold Block.postI; dsimp only; split <;> rfl
@[simp] theorem Block.postI_pw (p t c i : Nat) (b : Bool) (d : List Word) : (s.postI p t c i b d).pw = s.pw := by
  unfold Block.postI; dsimp only; split <;> rfl
@[simp] theorem Block.postI_bt (p t c i : Nat) (b : Bool) (d : List Word) : (s.postI p t c i b d).bt = s.bt := by
  unfold Block.postI; dsimp only; split <;> rfl
@[simp] theorem Block.postI_fl (p t c i : Nat) (b : Bool) (d : List Word) : (s.postI p t c i b d).fl = s.fl := by
  unfold Block.postI; dsimp only; split <;> rfl
@[simp] theorem Block.postI_pins (p t c i : Nat) (b : Bool) (d : List Word) : (s.postI p t c i b d).pins = s.pins := by
  unfold Block.postI; dsimp only; split <;> rfl
@[simp] theorem Block.postI_chk (p t c i : Nat) (b : Bool) (d : List Word) : (s.postI p t c i b d).chk = s.chk := by
  unfold Block.postI; dsimp only; split <;> rfl
@[simp] theorem Block.postI_hs (p t c i : Nat) (b : Bool) (d : List Word) : (s.postI p t c i b d).hs = s.hs := by
  unfold Block.postI; dsimp only; split <;> rfl
@[simp] theorem Block.postI_sk (p t c i : Nat) (b : Bool) (d : List Word) : (s.postI p t c i b d).sk = s.sk := by
  unfold Block.postI; dsimp only; split <;> rfl
@[simp] theorem Block.postI_dt (p t c i : Nat) (b : Bool) (d : List Word) : (s.postI p t c i b d).dt = s.dt := by
  unfold Block.postI; dsimp only; split <;> rfl
@[simp] theorem Block.postI_dram (p t c i : Nat) (b : Bool) (d : List Word) : (s.postI p t c i b d).dram = s.dram := by
  unfold Block.postI; dsimp only; split <;> rfl
@[simp] theorem Block.postI_sf (p t c i : Nat) (b : Bool) (d : List Word) : (s.postI p t c i b d).sf = s.sf := by
  unfold Block.postI; dsimp only; split <;> rfl
@[simp] theorem Block.postI_pp (p t c i : Nat) (b : Bool) (d : List Word) : (s.postI p t c i b d).pp = s.pp := by
  unfold Block.postI; dsimp only; split <;> rfl
@[simp] theorem Block.postI_ma (p t c i : Nat) (b : Bool) (d : List Word) : (s.postI p t c i b d).ma = s.ma := by
  unfold Block.postI; dsimp only; split <;> rfl
@[simp] theorem Block.postI_sc (p t c i : Nat) (b : Bool) (d : List Word) : (s.postI p t c i b d).sc = s.sc := by
  unfold Block.postI; dsimp only; split <;> rfl
@[simp] theorem Block.postI_ls (p t c i : Nat) (b : Bool) (d : List Word) : (s.postI p t c i b d).ls = s.ls := by
  unfold Block.postI; dsimp only; split <;> rfl
@[simp] theorem Block.postI_cp (p t c i : Nat) (b : Bool) (d : List Word) : (s.postI p t c i b d).cp = s.cp := by
  unfold Block.postI; dsimp only; split <;> rfl
@[simp] theorem Block.postI_th (p t c i : Nat) (b : Bool) (d : List Word) : (s.postI p t c i b d).th = s.th := by
  unfold Block.postI; dsimp only; split <;> rfl
@[simp] theorem Block.postI_dc (p t c i : Nat) (b : Bool) (d : List Word) : (s.postI p t c i b d).dc = s.dc := by
  unfold Block.postI; dsimp only; split <;> rfl
@[simp] theorem Block.postI_se (p t c i : Nat) (b : Bool) (d : List Word) : (s.postI p t c i b d).se = s.se := by
  unfold Block.postI; dsimp only; split <;> rfl
@[simp] theorem Block.postI_tr (p t c i : Nat) (b : Bool) (d : List Word) : (s.postI p t c i b d).tr = s.tr := by
  unfold Block.postI; dsimp only; split <;> rfl
@[simp] theorem Block.postI_ca (p t c i : Nat) (b : Bool) (d : List Word) : (s.postI p t c i b d).ca = s.ca := by
  unfold Block.postI; dsimp only; split <;> rfl
@[simp] theorem Block.postI_fb (p t c i : Nat) (b : Bool) (d : List Word) : (s.postI p t c i b d).fb = s.fb := by
  unfold Block.postI; dsimp only; split <;> rfl
@[simp] theorem Block.postI_cu (p t c i : Nat) (b : Bool) (d : List Word) : (s.postI p t c i b d).cu = s.cu := by
  unfold Block.postI; dsimp only; split <;> rfl
@[simp] theorem Block.postI_ho (p t c i : Nat) (b : Bool) (d : List Word) : (s.postI p t c i b d).ho = s.ho := by
  unfold Block.postI; dsimp only; split <;> rfl
@[simp] theorem Block.postI_co (p t c i : Nat) (b : Bool) (d : List Word) : (s.postI p t c i b d).co = s.co := by
  unfold Block.postI; dsimp only; split <;> rfl

/-! ## post -/

@[simp] theorem Block.post_regs (p t : Nat) (d : List Word) : (s.post p t d).regs = s.regs := Block.postI_regs ..
@[simp] theorem Block.post_frozen (p t : Nat) (d : List Word) : (s.post p t d).frozen = s.frozen := Block.postI_frozen ..
@[simp] theorem Block.post_now (p t : Nat) (d : List Word) : (s.post p t d).now = s.now := Block.postI_now ..
@[simp] theorem Block.post_free (p t : Nat) (d : List Word) : (s.post p t d).free = s.free := Block.postI_free ..
@[simp] theorem Block.post_out (p t : Nat) (d : List Word) : (s.post p t d).out = s.out := Block.postI_out ..
@[simp] theorem Block.post_tm (p t : Nat) (d : List Word) : (s.post p t d).tm = s.tm := Block.postI_tm ..
@[simp] theorem Block.post_cm (p t : Nat) (d : List Word) : (s.post p t d).cm = s.cm := Block.postI_cm ..
@[simp] theorem Block.post_pw (p t : Nat) (d : List Word) : (s.post p t d).pw = s.pw := Block.postI_pw ..
@[simp] theorem Block.post_bt (p t : Nat) (d : List Word) : (s.post p t d).bt = s.bt := Block.postI_bt ..
@[simp] theorem Block.post_fl (p t : Nat) (d : List Word) : (s.post p t d).fl = s.fl := Block.postI_fl ..
@[simp] theorem Block.post_pins (p t : Nat) (d : List Word) : (s.post p t d).pins = s.pins := Block.postI_pins ..
@[simp] theorem Block.post_chk (p t : Nat) (d : List Word) : (s.post p t d).chk = s.chk := Block.postI_chk ..
@[simp] theorem Block.post_hs (p t : Nat) (d : List Word) : (s.post p t d).hs = s.hs := Block.postI_hs ..
@[simp] theorem Block.post_sk (p t : Nat) (d : List Word) : (s.post p t d).sk = s.sk := Block.postI_sk ..
@[simp] theorem Block.post_dt (p t : Nat) (d : List Word) : (s.post p t d).dt = s.dt := Block.postI_dt ..
@[simp] theorem Block.post_dram (p t : Nat) (d : List Word) : (s.post p t d).dram = s.dram := Block.postI_dram ..
@[simp] theorem Block.post_sf (p t : Nat) (d : List Word) : (s.post p t d).sf = s.sf := Block.postI_sf ..
@[simp] theorem Block.post_pp (p t : Nat) (d : List Word) : (s.post p t d).pp = s.pp := Block.postI_pp ..
@[simp] theorem Block.post_ma (p t : Nat) (d : List Word) : (s.post p t d).ma = s.ma := Block.postI_ma ..
@[simp] theorem Block.post_sc (p t : Nat) (d : List Word) : (s.post p t d).sc = s.sc := Block.postI_sc ..
@[simp] theorem Block.post_ls (p t : Nat) (d : List Word) : (s.post p t d).ls = s.ls := Block.postI_ls ..
@[simp] theorem Block.post_cp (p t : Nat) (d : List Word) : (s.post p t d).cp = s.cp := Block.postI_cp ..
@[simp] theorem Block.post_th (p t : Nat) (d : List Word) : (s.post p t d).th = s.th := Block.postI_th ..
@[simp] theorem Block.post_dc (p t : Nat) (d : List Word) : (s.post p t d).dc = s.dc := Block.postI_dc ..
@[simp] theorem Block.post_se (p t : Nat) (d : List Word) : (s.post p t d).se = s.se := Block.postI_se ..
@[simp] theorem Block.post_tr (p t : Nat) (d : List Word) : (s.post p t d).tr = s.tr := Block.postI_tr ..
@[simp] theorem Block.post_ca (p t : Nat) (d : List Word) : (s.post p t d).ca = s.ca := Block.postI_ca ..
@[simp] theorem Block.post_fb (p t : Nat) (d : List Word) : (s.post p t d).fb = s.fb := Block.postI_fb ..
@[simp] theorem Block.post_cu (p t : Nat) (d : List Word) : (s.post p t d).cu = s.cu := Block.postI_cu ..
@[simp] theorem Block.post_ho (p t : Nat) (d : List Word) : (s.post p t d).ho = s.ho := Block.postI_ho ..
@[simp] theorem Block.post_co (p t : Nat) (d : List Word) : (s.post p t d).co = s.co := Block.postI_co ..

/-! ## message -/

@[simp] theorem Block.message_regs (v : Nat) : (s.message v).regs = s.regs := by
  unfold Block.message; split
  · rfl
  · split <;> rfl
@[simp] theorem Block.message_frozen (v : Nat) : (s.message v).frozen = s.frozen := by
  unfold Block.message; split
  · rfl
  · split <;> rfl
@[simp] theorem Block.message_now (v : Nat) : (s.message v).now = s.now := by
  unfold Block.message; split
  · rfl
  · split <;> rfl
@[simp] theorem Block.message_free (v : Nat) : (s.message v).free = s.free := by
  unfold Block.message; split
  · rfl
  · split <;> rfl
@[simp] theorem Block.message_tm (v : Nat) : (s.message v).tm = s.tm := by
  unfold Block.message; split
  · rfl
  · split <;> rfl
@[simp] theorem Block.message_cm (v : Nat) : (s.message v).cm = s.cm := by
  unfold Block.message; split
  · rfl
  · split <;> rfl
@[simp] theorem Block.message_rg (v : Nat) : (s.message v).rg = s.rg := by
  unfold Block.message; split
  · rfl
  · split <;> rfl
@[simp] theorem Block.message_pw (v : Nat) : (s.message v).pw = s.pw := by
  unfold Block.message; split
  · rfl
  · split <;> rfl
@[simp] theorem Block.message_bt (v : Nat) : (s.message v).bt = s.bt := by
  unfold Block.message; split
  · rfl
  · split <;> rfl
@[simp] theorem Block.message_fl (v : Nat) : (s.message v).fl = s.fl := by
  unfold Block.message; split
  · rfl
  · split <;> rfl
@[simp] theorem Block.message_pins (v : Nat) : (s.message v).pins = s.pins := by
  unfold Block.message; split
  · rfl
  · split <;> rfl
@[simp] theorem Block.message_ty (v : Nat) : (s.message v).ty = s.ty := by
  unfold Block.message; split
  · rfl
  · split <;> rfl
@[simp] theorem Block.message_chk (v : Nat) : (s.message v).chk = s.chk := by
  unfold Block.message; split
  · rfl
  · split <;> rfl
@[simp] theorem Block.message_sk (v : Nat) : (s.message v).sk = s.sk := by
  unfold Block.message; split
  · rfl
  · split <;> rfl
@[simp] theorem Block.message_dt (v : Nat) : (s.message v).dt = s.dt := by
  unfold Block.message; split
  · rfl
  · split <;> rfl
@[simp] theorem Block.message_dram (v : Nat) : (s.message v).dram = s.dram := by
  unfold Block.message; split
  · rfl
  · split <;> rfl
@[simp] theorem Block.message_sf (v : Nat) : (s.message v).sf = s.sf := by
  unfold Block.message; split
  · rfl
  · split <;> rfl
@[simp] theorem Block.message_pp (v : Nat) : (s.message v).pp = s.pp := by
  unfold Block.message; split
  · rfl
  · split <;> rfl
@[simp] theorem Block.message_ma (v : Nat) : (s.message v).ma = s.ma := by
  unfold Block.message; split
  · rfl
  · split <;> rfl
@[simp] theorem Block.message_sc (v : Nat) : (s.message v).sc = s.sc := by
  unfold Block.message; split
  · rfl
  · split <;> rfl
@[simp] theorem Block.message_ls (v : Nat) : (s.message v).ls = s.ls := by
  unfold Block.message; split
  · rfl
  · split <;> rfl
@[simp] theorem Block.message_cp (v : Nat) : (s.message v).cp = s.cp := by
  unfold Block.message; split
  · rfl
  · split <;> rfl
@[simp] theorem Block.message_th (v : Nat) : (s.message v).th = s.th := by
  unfold Block.message; split
  · rfl
  · split <;> rfl
@[simp] theorem Block.message_dc (v : Nat) : (s.message v).dc = s.dc := by
  unfold Block.message; split
  · rfl
  · split <;> rfl
@[simp] theorem Block.message_se (v : Nat) : (s.message v).se = s.se := by
  unfold Block.message; split
  · rfl
  · split <;> rfl
@[simp] theorem Block.message_tr (v : Nat) : (s.message v).tr = s.tr := by
  unfold Block.message; split
  · rfl
  · split <;> rfl
@[simp] theorem Block.message_ca (v : Nat) : (s.message v).ca = s.ca := by
  unfold Block.message; split
  · rfl
  · split <;> rfl
@[simp] theorem Block.message_fb (v : Nat) : (s.message v).fb = s.fb := by
  unfold Block.message; split
  · rfl
  · split <;> rfl
@[simp] theorem Block.message_cu (v : Nat) : (s.message v).cu = s.cu := by
  unfold Block.message; split
  · rfl
  · split <;> rfl
@[simp] theorem Block.message_ho (v : Nat) : (s.message v).ho = s.ho := by
  unfold Block.message; split
  · rfl
  · split <;> rfl
@[simp] theorem Block.message_co (v : Nat) : (s.message v).co = s.co := by
  unfold Block.message; split
  · rfl
  · split <;> rfl

/-! ## setInt -/

@[simp] theorem Block.setInt_frozen (p : Nat) (m : Word) : (s.setInt p m).frozen = s.frozen := by
  unfold Block.setInt Block.withInt; dsimp only; split
  · split
    · rfl
    · simp only [Block.message_frozen]; rfl
  · rfl
@[simp] theorem Block.setInt_now (p : Nat) (m : Word) : (s.setInt p m).now = s.now := by
  unfold Block.setInt Block.withInt; dsimp only; split
  · split
    · rfl
    · simp only [Block.message_now]; rfl
  · rfl
@[simp] theorem Block.setInt_free (p : Nat) (m : Word) : (s.setInt p m).free = s.free := by
  unfold Block.setInt Block.withInt; dsimp only; split
  · split
    · rfl
    · simp only [Block.message_free]; rfl
  · rfl
@[simp] theorem Block.setInt_tm (p : Nat) (m : Word) : (s.setInt p m).tm = s.tm := by
  unfold Block.setInt Block.withInt; dsimp only; split
  · split
    · rfl
    · simp only [Block.message_tm]; rfl
  · rfl
@[simp] theorem Block.setInt_cm (p : Nat) (m : Word) : (s.setInt p m).cm = s.cm := by
  unfold Block.setInt Block.withInt; dsimp only; split
  · split
    · rfl
    · simp only [Block.message_cm]; rfl
  · rfl
@[simp] theorem Block.setInt_rg (p : Nat) (m : Word) : (s.setInt p m).rg = s.rg := by
  unfold Block.setInt Block.withInt; dsimp only; split
  · split
    · rfl
    · simp only [Block.message_rg]; rfl
  · rfl
@[simp] theorem Block.setInt_pw (p : Nat) (m : Word) : (s.setInt p m).pw = s.pw := by
  unfold Block.setInt Block.withInt; dsimp only; split
  · split
    · rfl
    · simp only [Block.message_pw]; rfl
  · rfl
@[simp] theorem Block.setInt_bt (p : Nat) (m : Word) : (s.setInt p m).bt = s.bt := by
  unfold Block.setInt Block.withInt; dsimp only; split
  · split
    · rfl
    · simp only [Block.message_bt]; rfl
  · rfl
@[simp] theorem Block.setInt_fl (p : Nat) (m : Word) : (s.setInt p m).fl = s.fl := by
  unfold Block.setInt Block.withInt; dsimp only; split
  · split
    · rfl
    · simp only [Block.message_fl]; rfl
  · rfl
@[simp] theorem Block.setInt_pins (p : Nat) (m : Word) : (s.setInt p m).pins = s.pins := by
  unfold Block.setInt Block.withInt; dsimp only; split
  · split
    · rfl
    · simp only [Block.message_pins]; rfl
  · rfl
@[simp] theorem Block.setInt_ty (p : Nat) (m : Word) : (s.setInt p m).ty = s.ty := by
  unfold Block.setInt Block.withInt; dsimp only; split
  · split
    · rfl
    · simp only [Block.message_ty]; rfl
  · rfl
@[simp] theorem Block.setInt_chk (p : Nat) (m : Word) : (s.setInt p m).chk = s.chk := by
  unfold Block.setInt Block.withInt; dsimp only; split
  · split
    · rfl
    · simp only [Block.message_chk]; rfl
  · rfl
@[simp] theorem Block.setInt_sk (p : Nat) (m : Word) : (s.setInt p m).sk = s.sk := by
  unfold Block.setInt Block.withInt; dsimp only; split
  · split
    · rfl
    · simp only [Block.message_sk]; rfl
  · rfl
@[simp] theorem Block.setInt_dt (p : Nat) (m : Word) : (s.setInt p m).dt = s.dt := by
  unfold Block.setInt Block.withInt; dsimp only; split
  · split
    · rfl
    · simp only [Block.message_dt]; rfl
  · rfl
@[simp] theorem Block.setInt_dram (p : Nat) (m : Word) : (s.setInt p m).dram = s.dram := by
  unfold Block.setInt Block.withInt; dsimp only; split
  · split
    · rfl
    · simp only [Block.message_dram]; rfl
  · rfl
@[simp] theorem Block.setInt_sf (p : Nat) (m : Word) : (s.setInt p m).sf = s.sf := by
  unfold Block.setInt Block.withInt; dsimp only; split
  · split
    · rfl
    · simp only [Block.message_sf]; rfl
  · rfl
@[simp] theorem Block.setInt_pp (p : Nat) (m : Word) : (s.setInt p m).pp = s.pp := by
  unfold Block.setInt Block.withInt; dsimp only; split
  · split
    · rfl
    · simp only [Block.message_pp]; rfl
  · rfl
@[simp] theorem Block.setInt_ma (p : Nat) (m : Word) : (s.setInt p m).ma = s.ma := by
  unfold Block.setInt Block.withInt; dsimp only; split
  · split
    · rfl
    · simp only [Block.message_ma]; rfl
  · rfl
@[simp] theorem Block.setInt_sc (p : Nat) (m : Word) : (s.setInt p m).sc = s.sc := by
  unfold Block.setInt Block.withInt; dsimp only; split
  · split
    · rfl
    · simp only [Block.message_sc]; rfl
  · rfl
@[simp] theorem Block.setInt_ls (p : Nat) (m : Word) : (s.setInt p m).ls = s.ls := by
  unfold Block.setInt Block.withInt; dsimp only; split
  · split
    · rfl
    · simp only [Block.message_ls]; rfl
  · rfl
@[simp] theorem Block.setInt_cp (p : Nat) (m : Word) : (s.setInt p m).cp = s.cp := by
  unfold Block.setInt Block.withInt; dsimp only; split
  · split
    · rfl
    · simp only [Block.message_cp]; rfl
  · rfl
@[simp] theorem Block.setInt_th (p : Nat) (m : Word) : (s.setInt p m).th = s.th := by
  unfold Block.setInt Block.withInt; dsimp only; split
  · split
    · rfl
    · simp only [Block.message_th]; rfl
  · rfl
@[simp] theorem Block.setInt_dc (p : Nat) (m : Word) : (s.setInt p m).dc = s.dc := by
  unfold Block.setInt Block.withInt; dsimp only; split
  · split
    · rfl
    · simp only [Block.message_dc]; rfl
  · rfl
@[simp] theorem Block.setInt_se (p : Nat) (m : Word) : (s.setInt p m).se = s.se := by
  unfold Block.setInt Block.withInt; dsimp only; split
  · split
    · rfl
    · simp only [Block.message_se]; rfl
  · rfl
@[simp] theorem Block.setInt_tr (p : Nat) (m : Word) : (s.setInt p m).tr = s.tr := by
  unfold Block.setInt Block.withInt; dsimp only; split
  · split
    · rfl
    · simp only [Block.message_tr]; rfl
  · rfl
@[simp] theorem Block.setInt_ca (p : Nat) (m : Word) : (s.setInt p m).ca = s.ca := by
  unfold Block.setInt Block.withInt; dsimp only; split
  · split
    · rfl
    · simp only [Block.message_ca]; rfl
  · rfl
@[simp] theorem Block.setInt_fb (p : Nat) (m : Word) : (s.setInt p m).fb = s.fb := by
  unfold Block.setInt Block.withInt; dsimp only; split
  · split
    · rfl
    · simp only [Block.message_fb]; rfl
  · rfl
@[simp] theorem Block.setInt_cu (p : Nat) (m : Word) : (s.setInt p m).cu = s.cu := by
  unfold Block.setInt Block.withInt; dsimp only; split
  · split
    · rfl
    · simp only [Block.message_cu]; rfl
  · rfl
@[simp] theorem Block.setInt_ho (p : Nat) (m : Word) : (s.setInt p m).ho = s.ho := by
  unfold Block.setInt Block.withInt; dsimp only; split
  · split
    · rfl
    · simp only [Block.message_ho]; rfl
  · rfl
@[simp] theorem Block.setInt_co (p : Nat) (m : Word) : (s.setInt p m).co = s.co := by
  unfold Block.setInt Block.withInt; dsimp only; split
  · split
    · rfl
    · simp only [Block.message_co]; rfl
  · rfl

/-! ## giveBackClaim -/

@[simp] theorem Block.giveBackClaim_frozen (c : Cmd) (n : Nat) (v : Word) : (s.giveBackClaim c n v).frozen = s.frozen := by
  unfold Block.giveBackClaim; split <;> rfl
@[simp] theorem Block.giveBackClaim_now (c : Cmd) (n : Nat) (v : Word) : (s.giveBackClaim c n v).now = s.now := by
  unfold Block.giveBackClaim; split <;> rfl
@[simp] theorem Block.giveBackClaim_free (c : Cmd) (n : Nat) (v : Word) : (s.giveBackClaim c n v).free = s.free := by
  unfold Block.giveBackClaim; split <;> rfl
@[simp] theorem Block.giveBackClaim_out (c : Cmd) (n : Nat) (v : Word) : (s.giveBackClaim c n v).out = s.out := by
  unfold Block.giveBackClaim; split <;> rfl
@[simp] theorem Block.giveBackClaim_tm (c : Cmd) (n : Nat) (v : Word) : (s.giveBackClaim c n v).tm = s.tm := by
  unfold Block.giveBackClaim; split <;> rfl
@[simp] theorem Block.giveBackClaim_cm (c : Cmd) (n : Nat) (v : Word) : (s.giveBackClaim c n v).cm = s.cm := by
  unfold Block.giveBackClaim; split <;> rfl
@[simp] theorem Block.giveBackClaim_pw (c : Cmd) (n : Nat) (v : Word) : (s.giveBackClaim c n v).pw = s.pw := by
  unfold Block.giveBackClaim; split <;> rfl
@[simp] theorem Block.giveBackClaim_bt (c : Cmd) (n : Nat) (v : Word) : (s.giveBackClaim c n v).bt = s.bt := by
  unfold Block.giveBackClaim; split <;> rfl
@[simp] theorem Block.giveBackClaim_fl (c : Cmd) (n : Nat) (v : Word) : (s.giveBackClaim c n v).fl = s.fl := by
  unfold Block.giveBackClaim; split <;> rfl
@[simp] theorem Block.giveBackClaim_pins (c : Cmd) (n : Nat) (v : Word) : (s.giveBackClaim c n v).pins = s.pins := by
  unfold Block.giveBackClaim; split <;> rfl
@[simp] theorem Block.giveBackClaim_ty (c : Cmd) (n : Nat) (v : Word) : (s.giveBackClaim c n v).ty = s.ty := by
  unfold Block.giveBackClaim; split <;> rfl
@[simp] theorem Block.giveBackClaim_chk (c : Cmd) (n : Nat) (v : Word) : (s.giveBackClaim c n v).chk = s.chk := by
  unfold Block.giveBackClaim; split <;> rfl
@[simp] theorem Block.giveBackClaim_hs (c : Cmd) (n : Nat) (v : Word) : (s.giveBackClaim c n v).hs = s.hs := by
  unfold Block.giveBackClaim; split <;> rfl
@[simp] theorem Block.giveBackClaim_sk (c : Cmd) (n : Nat) (v : Word) : (s.giveBackClaim c n v).sk = s.sk := by
  unfold Block.giveBackClaim; split <;> rfl
@[simp] theorem Block.giveBackClaim_dt (c : Cmd) (n : Nat) (v : Word) : (s.giveBackClaim c n v).dt = s.dt := by
  unfold Block.giveBackClaim; split <;> rfl
@[simp] theorem Block.giveBackClaim_dram (c : Cmd) (n : Nat) (v : Word) : (s.giveBackClaim c n v).dram = s.dram := by
  unfold Block.giveBackClaim; split <;> rfl
@[simp] theorem Block.giveBackClaim_sf (c : Cmd) (n : Nat) (v : Word) : (s.giveBackClaim c n v).sf = s.sf := by
  unfold Block.giveBackClaim; split <;> rfl
@[simp] theorem Block.giveBackClaim_pp (c : Cmd) (n : Nat) (v : Word) : (s.giveBackClaim c n v).pp = s.pp := by
  unfold Block.giveBackClaim; split <;> rfl
@[simp] theorem Block.giveBackClaim_ma (c : Cmd) (n : Nat) (v : Word) : (s.giveBackClaim c n v).ma = s.ma := by
  unfold Block.giveBackClaim; split <;> rfl
@[simp] theorem Block.giveBackClaim_sc (c : Cmd) (n : Nat) (v : Word) : (s.giveBackClaim c n v).sc = s.sc := by
  unfold Block.giveBackClaim; split <;> rfl
@[simp] theorem Block.giveBackClaim_ls (c : Cmd) (n : Nat) (v : Word) : (s.giveBackClaim c n v).ls = s.ls := by
  unfold Block.giveBackClaim; split <;> rfl
@[simp] theorem Block.giveBackClaim_cp (c : Cmd) (n : Nat) (v : Word) : (s.giveBackClaim c n v).cp = s.cp := by
  unfold Block.giveBackClaim; split <;> rfl
@[simp] theorem Block.giveBackClaim_th (c : Cmd) (n : Nat) (v : Word) : (s.giveBackClaim c n v).th = s.th := by
  unfold Block.giveBackClaim; split <;> rfl
@[simp] theorem Block.giveBackClaim_dc (c : Cmd) (n : Nat) (v : Word) : (s.giveBackClaim c n v).dc = s.dc := by
  unfold Block.giveBackClaim; split <;> rfl
@[simp] theorem Block.giveBackClaim_se (c : Cmd) (n : Nat) (v : Word) : (s.giveBackClaim c n v).se = s.se := by
  unfold Block.giveBackClaim; split <;> rfl
@[simp] theorem Block.giveBackClaim_tr (c : Cmd) (n : Nat) (v : Word) : (s.giveBackClaim c n v).tr = s.tr := by
  unfold Block.giveBackClaim; split <;> rfl
@[simp] theorem Block.giveBackClaim_ca (c : Cmd) (n : Nat) (v : Word) : (s.giveBackClaim c n v).ca = s.ca := by
  unfold Block.giveBackClaim; split <;> rfl
@[simp] theorem Block.giveBackClaim_fb (c : Cmd) (n : Nat) (v : Word) : (s.giveBackClaim c n v).fb = s.fb := by
  unfold Block.giveBackClaim; split <;> rfl
@[simp] theorem Block.giveBackClaim_cu (c : Cmd) (n : Nat) (v : Word) : (s.giveBackClaim c n v).cu = s.cu := by
  unfold Block.giveBackClaim; split <;> rfl
@[simp] theorem Block.giveBackClaim_ho (c : Cmd) (n : Nat) (v : Word) : (s.giveBackClaim c n v).ho = s.ho := by
  unfold Block.giveBackClaim; split <;> rfl
@[simp] theorem Block.giveBackClaim_co (c : Cmd) (n : Nat) (v : Word) : (s.giveBackClaim c n v).co = s.co := by
  unfold Block.giveBackClaim; split <;> rfl

/-! ## giveBackAll -/

@[simp] theorem Block.giveBackAll_frozen (c : Cmd) (l : List (Nat × Word)) : (s.giveBackAll c l).frozen = s.frozen := by
  induction l generalizing s with
  | nil => rfl
  | cons e l ih => exact (ih _).trans (Block.giveBackClaim_frozen ..)
@[simp] theorem Block.giveBackAll_now (c : Cmd) (l : List (Nat × Word)) : (s.giveBackAll c l).now = s.now := by
  induction l generalizing s with
  | nil => rfl
  | cons e l ih => exact (ih _).trans (Block.giveBackClaim_now ..)
@[simp] theorem Block.giveBackAll_free (c : Cmd) (l : List (Nat × Word)) : (s.giveBackAll c l).free = s.free := by
  induction l generalizing s with
  | nil => rfl
  | cons e l ih => exact (ih _).trans (Block.giveBackClaim_free ..)
@[simp] theorem Block.giveBackAll_out (c : Cmd) (l : List (Nat × Word)) : (s.giveBackAll c l).out = s.out := by
  induction l generalizing s with
  | nil => rfl
  | cons e l ih => exact (ih _).trans (Block.giveBackClaim_out ..)
@[simp] theorem Block.giveBackAll_tm (c : Cmd) (l : List (Nat × Word)) : (s.giveBackAll c l).tm = s.tm := by
  induction l generalizing s with
  | nil => rfl
  | cons e l ih => exact (ih _).trans (Block.giveBackClaim_tm ..)
@[simp] theorem Block.giveBackAll_cm (c : Cmd) (l : List (Nat × Word)) : (s.giveBackAll c l).cm = s.cm := by
  induction l generalizing s with
  | nil => rfl
  | cons e l ih => exact (ih _).trans (Block.giveBackClaim_cm ..)
@[simp] theorem Block.giveBackAll_pw (c : Cmd) (l : List (Nat × Word)) : (s.giveBackAll c l).pw = s.pw := by
  induction l generalizing s with
  | nil => rfl
  | cons e l ih => exact (ih _).trans (Block.giveBackClaim_pw ..)
@[simp] theorem Block.giveBackAll_bt (c : Cmd) (l : List (Nat × Word)) : (s.giveBackAll c l).bt = s.bt := by
  induction l generalizing s with
  | nil => rfl
  | cons e l ih => exact (ih _).trans (Block.giveBackClaim_bt ..)
@[simp] theorem Block.giveBackAll_fl (c : Cmd) (l : List (Nat × Word)) : (s.giveBackAll c l).fl = s.fl := by
  induction l generalizing s with
  | nil => rfl
  | cons e l ih => exact (ih _).trans (Block.giveBackClaim_fl ..)
@[simp] theorem Block.giveBackAll_pins (c : Cmd) (l : List (Nat × Word)) : (s.giveBackAll c l).pins = s.pins := by
  induction l generalizing s with
  | nil => rfl
  | cons e l ih => exact (ih _).trans (Block.giveBackClaim_pins ..)
@[simp] theorem Block.giveBackAll_ty (c : Cmd) (l : List (Nat × Word)) : (s.giveBackAll c l).ty = s.ty := by
  induction l generalizing s with
  | nil => rfl
  | cons e l ih => exact (ih _).trans (Block.giveBackClaim_ty ..)
@[simp] theorem Block.giveBackAll_chk (c : Cmd) (l : List (Nat × Word)) : (s.giveBackAll c l).chk = s.chk := by
  induction l generalizing s with
  | nil => rfl
  | cons e l ih => exact (ih _).trans (Block.giveBackClaim_chk ..)
@[simp] theorem Block.giveBackAll_hs (c : Cmd) (l : List (Nat × Word)) : (s.giveBackAll c l).hs = s.hs := by
  induction l generalizing s with
  | nil => rfl
  | cons e l ih => exact (ih _).trans (Block.giveBackClaim_hs ..)
@[simp] theorem Block.giveBackAll_sk (c : Cmd) (l : List (Nat × Word)) : (s.giveBackAll c l).sk = s.sk := by
  induction l generalizing s with
  | nil => rfl
  | cons e l ih => exact (ih _).trans (Block.giveBackClaim_sk ..)
@[simp] theorem Block.giveBackAll_dt (c : Cmd) (l : List (Nat × Word)) : (s.giveBackAll c l).dt = s.dt := by
  induction l generalizing s with
  | nil => rfl
  | cons e l ih => exact (ih _).trans (Block.giveBackClaim_dt ..)
@[simp] theorem Block.giveBackAll_dram (c : Cmd) (l : List (Nat × Word)) : (s.giveBackAll c l).dram = s.dram := by
  induction l generalizing s with
  | nil => rfl
  | cons e l ih => exact (ih _).trans (Block.giveBackClaim_dram ..)
@[simp] theorem Block.giveBackAll_sf (c : Cmd) (l : List (Nat × Word)) : (s.giveBackAll c l).sf = s.sf := by
  induction l generalizing s with
  | nil => rfl
  | cons e l ih => exact (ih _).trans (Block.giveBackClaim_sf ..)
@[simp] theorem Block.giveBackAll_pp (c : Cmd) (l : List (Nat × Word)) : (s.giveBackAll c l).pp = s.pp := by
  induction l generalizing s with
  | nil => rfl
  | cons e l ih => exact (ih _).trans (Block.giveBackClaim_pp ..)
@[simp] theorem Block.giveBackAll_ma (c : Cmd) (l : List (Nat × Word)) : (s.giveBackAll c l).ma = s.ma := by
  induction l generalizing s with
  | nil => rfl
  | cons e l ih => exact (ih _).trans (Block.giveBackClaim_ma ..)
@[simp] theorem Block.giveBackAll_sc (c : Cmd) (l : List (Nat × Word)) : (s.giveBackAll c l).sc = s.sc := by
  induction l generalizing s with
  | nil => rfl
  | cons e l ih => exact (ih _).trans (Block.giveBackClaim_sc ..)
@[simp] theorem Block.giveBackAll_ls (c : Cmd) (l : List (Nat × Word)) : (s.giveBackAll c l).ls = s.ls := by
  induction l generalizing s with
  | nil => rfl
  | cons e l ih => exact (ih _).trans (Block.giveBackClaim_ls ..)
@[simp] theorem Block.giveBackAll_cp (c : Cmd) (l : List (Nat × Word)) : (s.giveBackAll c l).cp = s.cp := by
  induction l generalizing s with
  | nil => rfl
  | cons e l ih => exact (ih _).trans (Block.giveBackClaim_cp ..)
@[simp] theorem Block.giveBackAll_th (c : Cmd) (l : List (Nat × Word)) : (s.giveBackAll c l).th = s.th := by
  induction l generalizing s with
  | nil => rfl
  | cons e l ih => exact (ih _).trans (Block.giveBackClaim_th ..)
@[simp] theorem Block.giveBackAll_dc (c : Cmd) (l : List (Nat × Word)) : (s.giveBackAll c l).dc = s.dc := by
  induction l generalizing s with
  | nil => rfl
  | cons e l ih => exact (ih _).trans (Block.giveBackClaim_dc ..)
@[simp] theorem Block.giveBackAll_se (c : Cmd) (l : List (Nat × Word)) : (s.giveBackAll c l).se = s.se := by
  induction l generalizing s with
  | nil => rfl
  | cons e l ih => exact (ih _).trans (Block.giveBackClaim_se ..)
@[simp] theorem Block.giveBackAll_tr (c : Cmd) (l : List (Nat × Word)) : (s.giveBackAll c l).tr = s.tr := by
  induction l generalizing s with
  | nil => rfl
  | cons e l ih => exact (ih _).trans (Block.giveBackClaim_tr ..)
@[simp] theorem Block.giveBackAll_ca (c : Cmd) (l : List (Nat × Word)) : (s.giveBackAll c l).ca = s.ca := by
  induction l generalizing s with
  | nil => rfl
  | cons e l ih => exact (ih _).trans (Block.giveBackClaim_ca ..)
@[simp] theorem Block.giveBackAll_fb (c : Cmd) (l : List (Nat × Word)) : (s.giveBackAll c l).fb = s.fb := by
  induction l generalizing s with
  | nil => rfl
  | cons e l ih => exact (ih _).trans (Block.giveBackClaim_fb ..)
@[simp] theorem Block.giveBackAll_cu (c : Cmd) (l : List (Nat × Word)) : (s.giveBackAll c l).cu = s.cu := by
  induction l generalizing s with
  | nil => rfl
  | cons e l ih => exact (ih _).trans (Block.giveBackClaim_cu ..)
@[simp] theorem Block.giveBackAll_ho (c : Cmd) (l : List (Nat × Word)) : (s.giveBackAll c l).ho = s.ho := by
  induction l generalizing s with
  | nil => rfl
  | cons e l ih => exact (ih _).trans (Block.giveBackClaim_ho ..)
@[simp] theorem Block.giveBackAll_co (c : Cmd) (l : List (Nat × Word)) : (s.giveBackAll c l).co = s.co := by
  induction l generalizing s with
  | nil => rfl
  | cons e l ih => exact (ih _).trans (Block.giveBackClaim_co ..)

/-! ## complete -/

@[simp] theorem Block.complete_frozen (q : Word) (n : Nat) (r : Option Word) : (s.complete q n r).frozen = s.frozen := by
  unfold Block.complete; split
  · rfl
  · simp only [Block.postComplete, Block.postI_frozen, Block.giveBackAll_frozen]
@[simp] theorem Block.complete_now (q : Word) (n : Nat) (r : Option Word) : (s.complete q n r).now = s.now := by
  unfold Block.complete; split
  · rfl
  · simp only [Block.postComplete, Block.postI_now, Block.giveBackAll_now]
@[simp] theorem Block.complete_free (q : Word) (n : Nat) (r : Option Word) : (s.complete q n r).free = s.free := by
  unfold Block.complete; split
  · rfl
  · simp only [Block.postComplete, Block.postI_free, Block.giveBackAll_free]
@[simp] theorem Block.complete_out (q : Word) (n : Nat) (r : Option Word) : (s.complete q n r).out = s.out := by
  unfold Block.complete; split
  · rfl
  · simp only [Block.postComplete, Block.postI_out, Block.giveBackAll_out]
@[simp] theorem Block.complete_tm (q : Word) (n : Nat) (r : Option Word) : (s.complete q n r).tm = s.tm := by
  unfold Block.complete; split
  · rfl
  · simp only [Block.postComplete, Block.postI_tm, Block.giveBackAll_tm]
@[simp] theorem Block.complete_cm (q : Word) (n : Nat) (r : Option Word) : (s.complete q n r).cm = s.cm := by
  unfold Block.complete; split
  · rfl
  · simp only [Block.postComplete, Block.postI_cm, Block.giveBackAll_cm]
@[simp] theorem Block.complete_pw (q : Word) (n : Nat) (r : Option Word) : (s.complete q n r).pw = s.pw := by
  unfold Block.complete; split
  · rfl
  · simp only [Block.postComplete, Block.postI_pw, Block.giveBackAll_pw]
@[simp] theorem Block.complete_bt (q : Word) (n : Nat) (r : Option Word) : (s.complete q n r).bt = s.bt := by
  unfold Block.complete; split
  · rfl
  · simp only [Block.postComplete, Block.postI_bt, Block.giveBackAll_bt]
@[simp] theorem Block.complete_fl (q : Word) (n : Nat) (r : Option Word) : (s.complete q n r).fl = s.fl := by
  unfold Block.complete; split
  · rfl
  · simp only [Block.postComplete, Block.postI_fl, Block.giveBackAll_fl]
@[simp] theorem Block.complete_pins (q : Word) (n : Nat) (r : Option Word) : (s.complete q n r).pins = s.pins := by
  unfold Block.complete; split
  · rfl
  · simp only [Block.postComplete, Block.postI_pins, Block.giveBackAll_pins]
@[simp] theorem Block.complete_chk (q : Word) (n : Nat) (r : Option Word) : (s.complete q n r).chk = s.chk := by
  unfold Block.complete; split
  · rfl
  · simp only [Block.postComplete, Block.postI_chk, Block.giveBackAll_chk]
@[simp] theorem Block.complete_hs (q : Word) (n : Nat) (r : Option Word) : (s.complete q n r).hs = s.hs := by
  unfold Block.complete; split
  · rfl
  · simp only [Block.postComplete, Block.postI_hs, Block.giveBackAll_hs]
@[simp] theorem Block.complete_sk (q : Word) (n : Nat) (r : Option Word) : (s.complete q n r).sk = s.sk := by
  unfold Block.complete; split
  · rfl
  · simp only [Block.postComplete, Block.postI_sk, Block.giveBackAll_sk]
@[simp] theorem Block.complete_dt (q : Word) (n : Nat) (r : Option Word) : (s.complete q n r).dt = s.dt := by
  unfold Block.complete; split
  · rfl
  · simp only [Block.postComplete, Block.postI_dt, Block.giveBackAll_dt]
@[simp] theorem Block.complete_dram (q : Word) (n : Nat) (r : Option Word) : (s.complete q n r).dram = s.dram := by
  unfold Block.complete; split
  · rfl
  · simp only [Block.postComplete, Block.postI_dram, Block.giveBackAll_dram]
@[simp] theorem Block.complete_sf (q : Word) (n : Nat) (r : Option Word) : (s.complete q n r).sf = s.sf := by
  unfold Block.complete; split
  · rfl
  · simp only [Block.postComplete, Block.postI_sf, Block.giveBackAll_sf]
@[simp] theorem Block.complete_pp (q : Word) (n : Nat) (r : Option Word) : (s.complete q n r).pp = s.pp := by
  unfold Block.complete; split
  · rfl
  · simp only [Block.postComplete, Block.postI_pp, Block.giveBackAll_pp]
@[simp] theorem Block.complete_ma (q : Word) (n : Nat) (r : Option Word) : (s.complete q n r).ma = s.ma := by
  unfold Block.complete; split
  · rfl
  · simp only [Block.postComplete, Block.postI_ma, Block.giveBackAll_ma]
@[simp] theorem Block.complete_sc (q : Word) (n : Nat) (r : Option Word) : (s.complete q n r).sc = s.sc := by
  unfold Block.complete; split
  · rfl
  · simp only [Block.postComplete, Block.postI_sc, Block.giveBackAll_sc]
@[simp] theorem Block.complete_ls (q : Word) (n : Nat) (r : Option Word) : (s.complete q n r).ls = s.ls := by
  unfold Block.complete; split
  · rfl
  · simp only [Block.postComplete, Block.postI_ls, Block.giveBackAll_ls]
@[simp] theorem Block.complete_cp (q : Word) (n : Nat) (r : Option Word) : (s.complete q n r).cp = s.cp := by
  unfold Block.complete; split
  · rfl
  · simp only [Block.postComplete, Block.postI_cp, Block.giveBackAll_cp]
@[simp] theorem Block.complete_th (q : Word) (n : Nat) (r : Option Word) : (s.complete q n r).th = s.th := by
  unfold Block.complete; split
  · rfl
  · simp only [Block.postComplete, Block.postI_th, Block.giveBackAll_th]
@[simp] theorem Block.complete_dc (q : Word) (n : Nat) (r : Option Word) : (s.complete q n r).dc = s.dc := by
  unfold Block.complete; split
  · rfl
  · simp only [Block.postComplete, Block.postI_dc, Block.giveBackAll_dc]
@[simp] theorem Block.complete_se (q : Word) (n : Nat) (r : Option Word) : (s.complete q n r).se = s.se := by
  unfold Block.complete; split
  · rfl
  · simp only [Block.postComplete, Block.postI_se, Block.giveBackAll_se]
@[simp] theorem Block.complete_tr (q : Word) (n : Nat) (r : Option Word) : (s.complete q n r).tr = s.tr := by
  unfold Block.complete; split
  · rfl
  · simp only [Block.postComplete, Block.postI_tr, Block.giveBackAll_tr]
@[simp] theorem Block.complete_ca (q : Word) (n : Nat) (r : Option Word) : (s.complete q n r).ca = s.ca := by
  unfold Block.complete; split
  · rfl
  · simp only [Block.postComplete, Block.postI_ca, Block.giveBackAll_ca]
@[simp] theorem Block.complete_fb (q : Word) (n : Nat) (r : Option Word) : (s.complete q n r).fb = s.fb := by
  unfold Block.complete; split
  · rfl
  · simp only [Block.postComplete, Block.postI_fb, Block.giveBackAll_fb]
@[simp] theorem Block.complete_cu (q : Word) (n : Nat) (r : Option Word) : (s.complete q n r).cu = s.cu := by
  unfold Block.complete; split
  · rfl
  · simp only [Block.postComplete, Block.postI_cu, Block.giveBackAll_cu]
@[simp] theorem Block.complete_ho (q : Word) (n : Nat) (r : Option Word) : (s.complete q n r).ho = s.ho := by
  unfold Block.complete; split
  · rfl
  · simp only [Block.postComplete, Block.postI_ho, Block.giveBackAll_ho]
@[simp] theorem Block.complete_co (q : Word) (n : Nat) (r : Option Word) : (s.complete q n r).co = s.co := by
  unfold Block.complete; split
  · rfl
  · simp only [Block.postComplete, Block.postI_co, Block.giveBackAll_co]

end Sys2Proof.Machine
end

