-- ==== Sys2Proof/Laws/Ops.lean ====
section
/-!
SUPPORT. What the shared operations do, said once: registers and their fields, outward actions, events, interrupt conditions, memory,
and the canonical forms each of them keeps.
-/
namespace Sys2Proof.Machine

variable (s : Block)

/-! ## Registers -/

/-- A register takes the value it is given, and no other changes. -/
theorem Block.reg_setReg (a b : Nat) (v : Word) : (s.setReg a v).reg b = if b = a then v else s.reg b := sget_sset ..

@[simp] theorem Block.reg_setReg_same (a : Nat) (v : Word) : (s.setReg a v).reg a = v := by simp [Block.reg_setReg]

theorem Block.reg_setReg_ne {a b : Nat} (v : Word) (h : b ≠ a) : (s.setReg a v).reg b = s.reg b := by simp [Block.reg_setReg, h]

theorem Block.setRegs_cons (a : Nat) (v : Word) (l : List (Nat × Word)) : s.setRegs ((a, v) :: l) = (s.setReg a v).setRegs l := rfl

@[simp] theorem Block.setRegs_nil : s.setRegs [] = s := rfl

/-- A register that a list of writes does not name reads as before. -/
theorem Block.reg_setRegs_ne (l : List (Nat × Word)) {b : Nat} (h : ∀ e ∈ l, b ≠ e.1) : (s.setRegs l).reg b = s.reg b := by
  induction l generalizing s with
  | nil => rfl
  | cons e l ih =>
    rw [show s.setRegs (e :: l) = (s.setReg e.1 e.2).setRegs l from rfl, ih _ fun x hx => h x (List.mem_cons_of_mem _ hx),
      Block.reg_setReg_ne _ _ (h e List.mem_cons_self)]

/-- Blocks with one register store present the same registers and active copies. -/
theorem Block.reg_congr {s t : Block} (h : t.regs = s.regs) (a : Nat) : t.reg a = s.reg a := by rw [Block.reg, Block.reg, h]

theorem Block.reg_setFld (a lo w x b : Nat) :
    (s.setFld a lo w x).reg b = if b = a then setBits (s.reg a) lo w x else s.reg b := Block.reg_setReg ..

theorem Block.fld_setFld_same (a : Nat) {lo w : Nat} (x : Nat) (h : lo + w ≤ 32) : (s.setFld a lo w x).fld a lo w = x % 2 ^ w := by
  simp [Block.fld, Block.reg_setFld, bits_setBits_same, h]

theorem Block.reg_bump (a b n : Nat) : (s.bump a n).reg b = if b = a then s.reg a + w32 n else s.reg b := Block.reg_setReg ..

theorem Block.reg_errCause (p i b : Nat) :
    (s.errCause p i).reg b = if b = R.ERR_CAUSE p then setBit (s.reg b) i true else s.reg b := by
  unfold Block.errCause; rw [Block.reg_setReg]; split <;> simp_all

@[simp] theorem Block.reg_emit (o : Out) (a : Nat) : (s.emit o).reg a = s.reg a := rfl
@[simp] theorem Block.reg_tally (t i a : Nat) : (s.tally t i).reg a = s.reg a := rfl
@[simp] theorem Block.reg_postTally (t i a : Nat) : (s.postTally t i).reg a = s.reg a := rfl
@[simp] theorem Block.reg_setMemB (x : Nat) (b : Byte) (a : Nat) : (s.setMemB x b).reg a = s.reg a := rfl
@[simp] theorem Block.reg_postI (p t c i : Nat) (b : Bool) (d : List Word) (a : Nat) : (s.postI p t c i b d).reg a = s.reg a :=
  Block.reg_congr (by simp) a
@[simp] theorem Block.reg_post (p t : Nat) (d : List Word) (a : Nat) : (s.post p t d).reg a = s.reg a := Block.reg_congr (by simp) a

/-- Giving back what was claimed changes no register but the PIN_OWN of what is given back. -/
theorem Block.reg_giveBackAll (c : Cmd) (a : Nat) (l : List (Nat × Word)) (h : ∀ e ∈ l, a ≠ R.PIN_OWN e.1) :
    (s.giveBackAll c l).reg a = s.reg a := by
  induction l generalizing s with
  | nil => rfl
  | cons e l ih =>
    refine (ih _ fun x hx => h x (.tail _ hx)).trans ?_
    dsimp only [Block.giveBackClaim]
    split
    · rfl
    · rw [Block.reg_setReg, if_neg (h e (.head _))]

/-- A completion changes no register but the PIN_OWN of what its command claimed (R102). -/
theorem Block.reg_complete (q : Word) (n : Nat) (r : Option Word) (a : Nat)
    (h : ∀ c, s.cmd q = some c → ∀ e ∈ c.claims, a ≠ R.PIN_OWN e.1) : (s.complete q n r).reg a = s.reg a := by
  unfold Block.complete
  split
  · rfl
  · rename_i c hc
    dsimp only [Block.postComplete]
    rw [Block.reg_postI, Block.reg_giveBackAll _ _ _ _ (h c hc)]
    rfl

/-! ## Events and interrupts -/

/-- An event joins the queue of the event writer while EVT_EN is 1, and nothing else of the ring's state changes. -/
theorem Block.postI_rg (p t c i : Nat) (b : Bool) (d : List Word) :
    (s.postI p t c i b d).rg = if bit (s.reg R.RING_CTRL) 1 then
      { s.rg with
        evq := s.rg.evq ++ [{ ty := t, page := p, cls := c, cmd := b, fsn := s.tm.fsn, ft := s.tm.ft, data := d, held := s.heldEvent t }] }
    else s.rg := by
  unfold Block.postI; dsimp only
  by_cases h : bit (s.reg R.RING_CTRL) 1 = true
  · have h' : bit ((s.tally t i).reg R.RING_CTRL) 1 = true := h
    rw [if_pos h', if_pos h]; rfl
  · have h' : ¬ bit ((s.tally t i).reg R.RING_CTRL) 1 = true := h
    rw [if_neg h', if_neg h]; rfl

/-- An event is counted in Tally alone. -/
theorem Block.postI_ty (p t c i : Nat) (b : Bool) (d : List Word) : (s.postI p t c i b d).ty = (s.tally t i).ty := by
  unfold Block.postI; dsimp only; split <;> rfl

/-- INT_STATUS takes the bits, and a message is due exactly where the condition becomes true (R94, R95). -/
theorem Block.setInt_cases (p : Nat) (m : Word) :
    s.setInt p m = (let t := s.setReg (R.INT_STATUS p) (s.reg (R.INT_STATUS p) ||| m)
      if t.vec p then (if s.vec p then t else t.message p) else t.unpend p) := rfl

/-- A message owed goes out, or waits in the pending bits, and is nothing else (R95). -/
theorem Block.message_frame (v : Nat) :
    s.message v = { s with out := (s.message v).out, hs := { s.hs with pba := (s.message v).hs.pba } } := by
  unfold Block.message; split
  · rfl
  · split <;> rfl

/-- It goes out where MSI-X is enabled and nothing masks the vector. -/
theorem Block.message_sent (v : Nat) : (s.message v).out = s.out ++ if s.vecOpen v = true then [.msix v] else [] := by
  unfold Block.message
  by_cases h : s.vecOpen v = true
  · simp only [h, if_true]; rfl
  · simp only [h, Bool.false_eq_true, if_false, List.append_nil]; split <;> rfl

/-- It waits where MSI-X is enabled and the vector or the function is masked. -/
theorem Block.mem_message_pba (v w : Nat) :
    w ∈ (s.message v).hs.pba ↔ w ∈ s.hs.pba ∨ (w = v ∧ s.vecOpen v = false ∧ s.hs.pcie.msix = true) := by
  unfold Block.message
  by_cases h : s.vecOpen v = true
  · simp only [h, if_true]; simp [Block.emit]
  · simp only [h, Bool.false_eq_true, if_false]
    simp only [Bool.not_eq_true] at h
    by_cases m : s.hs.pcie.msix = true
    · simp only [m, if_true]
      split
      · rename_i c; rw [List.contains_iff_mem] at c; simp; rintro rfl; exact c
      · simp
    · simp [m]

/-! ## Memory -/

theorem Block.memB_setMemB (a b : Nat) (v : Byte) : (s.setMemB a v).memB b = if b = a then v else s.memB b := sget_sset ..

@[simp] theorem Block.freshBlock_dram (a n : Nat) : (s.freshBlock a n).dram = s.dram := by unfold Block.freshBlock; split <;> rfl

@[simp] theorem Block.freshBlock_regs (a n : Nat) : (s.freshBlock a n).regs = s.regs := by unfold Block.freshBlock; split <;> rfl

@[simp] theorem Block.memB_freshBlock (a n b : Nat) : (s.freshBlock a n).memB b = s.memB b := by simp [Block.memB]

/-- Bytes written from an address on leave every byte outside them. -/
theorem Block.memB_setMem_ne (l : List Byte) : ∀ (s : Block) (a b : Nat), b < a ∨ a + l.length ≤ b → (s.setMem a l).memB b = s.memB b := by
  induction l with
  | nil => intros; rfl
  | cons v l ih =>
    intro s a b h
    simp only [List.length_cons] at h
    rw [Block.setMem, ih _ _ _ (by omega), Block.memB_freshBlock, Block.memB_setMemB, if_neg (by omega)]

/-- Bytes written from an address on read as written. -/
theorem Block.memB_setMem (l : List Byte) : ∀ (s : Block) (a i : Nat) (v : Byte), l[i]? = some v → (s.setMem a l).memB (a + i) = v := by
  induction l with
  | nil => intro s a i v h; simp at h
  | cons x l ih =>
    intro s a i v h
    cases i with
    | zero =>
      simp only [List.getElem?_cons_zero, Option.some.injEq] at h
      rw [Block.setMem, Block.memB_setMem_ne _ _ _ _ (by omega), Block.memB_freshBlock, Block.memB_setMemB, Nat.add_zero, if_pos rfl, h]
    | succ i => rw [Block.setMem, show a + (i + 1) = a + 1 + i by omega]; exact ih _ _ _ _ (by simpa using h)

/-! ## The canonical forms -/

theorem Block.regsWf_setReg {s : Block} (h : s.regsWf = true) (a : Nat) (v : Word) : (s.setReg a v).regsWf = true := swf_sset _ h a v

theorem Block.regsWf_setRegs {s : Block} (h : s.regsWf = true) (l : List (Nat × Word)) : (s.setRegs l).regsWf = true := swf_ssets _ l h

theorem Block.regsWf_applyVals {s : Block} (h : s.regsWf = true) (side : Nat → Bool) (pages : Nat) (l : List (Nat × Word)) :
    (s.applyVals side pages l).regsWf = true := swf_ssets _ _ (swf_filter _ h _)

theorem Block.regsWf_congr {s t : Block} (h : s.regsWf = true) (e : t.regs = s.regs) : t.regsWf = true := by
  rw [Block.regsWf, e]; exact h

theorem Block.dramWf_setMemB {s : Block} (h : s.dramWf = true) (a : Nat) (b : Byte) : (s.setMemB a b).dramWf = true := swf_sset _ h a b

theorem Block.dramWf_setMem (l : List Byte) : ∀ {s : Block} (a : Nat), s.dramWf = true → (s.setMem a l).dramWf = true := by
  induction l with
  | nil => intro s a h; exact h
  | cons b l ih =>
    intro s a h
    refine ih _ ?_
    rw [Block.dramWf, Block.freshBlock_dram]
    exact Block.dramWf_setMemB h a b

theorem Block.dramWf_congr {s t : Block} (h : s.dramWf = true) (e : t.dram = s.dram) : t.dramWf = true := by
  rw [Block.dramWf, e]; exact h

theorem State.reset_dramWf : State.reset.dramWf = true := rfl
theorem State.reset_regsWf : State.reset.regsWf = true := rfl

/-! ## Outcomes -/

/-- A meaning that acts on the block answers a next state with the queue as it stood. -/
theorem State.does_next (s : State) (f : Block → Block) : s.does f = .next ⟨f s.toBlock, s.pending⟩ := rfl

/-- A write served by the host side, and one to a page that is not locked, takes its effect. -/
theorem Block.onStrobe_served {s : Block} (h : s.hostOk = true) (f : Block → Block) : s.onStrobe f = f s := by simp [Block.onStrobe, h]

theorem Block.onWrite_unlocked {s : Block} {p : Nat} (h : s.hostOk = true) (hl : bit (s.reg (R.PAGE_LOCK p)) 0 = false)
    (f : Block → Block) : s.onWrite p f = f s := by simp [Block.onWrite, h, hl]

/-- A write to a locked page changes nothing but ERR_CAUSE.LOCKED_WRITE (R92). -/
theorem Block.onWrite_locked {s : Block} {p : Nat} (h : s.hostOk = true) (hl : bit (s.reg (R.PAGE_LOCK p)) 0 = true)
    (f : Block → Block) : s.onWrite p f = s.errCause p 2 := by simp [Block.onWrite, h, hl]

/-- The pulse of a second only acts outwards. -/
theorem Block.secPulse_frame (s : Block) (old : Nat) : s.secPulse old = { s with out := (s.secPulse old).out } := by
  unfold Block.secPulse; split <;> rfl

/-- Time passing changes the clock, TIME, the Tally counts and what was sent. -/
theorem Block.advance_frame (s : Block) (n : Nat) :
    s.advance n = { s with now := (s.advance n).now, tm := (s.advance n).tm, ty := (s.advance n).ty, out := (s.advance n).out } := by
  unfold Block.advance
  by_cases h : n = 0
  · rw [if_pos h]
  · rw [if_neg h]; dsimp only; rw [Block.secPulse_frame]; rfl

/-- Claims of pins change only the owner registers. -/
theorem Block.updateOwners_frame (s : Block) : s.updateOwners = { s with regs := s.updateOwners.regs } ∧
    ∀ a, (∀ n, n < 15 → a ≠ R.PIN_OWN n) → s.updateOwners.reg a = s.reg a := by
  unfold Block.updateOwners
  have : ∀ (l : List Nat) (f : Block → Nat → Block) (t : Block), (∀ n ∈ l, n < 15) →
      (∀ t n, f t n = t ∨ ∃ v, f t n = t.setReg (R.PIN_OWN n) v) →
      (l.foldl f t) = { t with regs := (l.foldl f t).regs } ∧
      ∀ a, (∀ n, n < 15 → a ≠ R.PIN_OWN n) → (l.foldl f t).reg a = t.reg a := by
    intro l f
    induction l with
    | nil => intro t _ _; exact ⟨rfl, fun _ _ => rfl⟩
    | cons n l ih =>
      intro t hl hf
      obtain ⟨h1, h2⟩ := ih (f t n) (fun m hm => hl m (List.mem_cons_of_mem _ hm)) hf
      rcases hf t n with h | ⟨v, h⟩
      · rw [h] at h1 h2; simp only [List.foldl_cons, h]; exact ⟨h1, h2⟩
      · rw [h] at h1 h2; simp only [List.foldl_cons, h]
        refine ⟨by rw [h1]; rfl, fun a ha => ?_⟩
        rw [h2 a ha, Block.reg_setReg_ne _ _ (ha n (hl n List.mem_cons_self))]
  refine this (List.range 15) _ s (fun n hn => List.mem_range.1 hn) ?_
  intro t n
  dsimp only
  split
  · exact .inl rfl
  · split
    · exact .inr ⟨_, rfl⟩
    · split
      · exact .inl rfl
      · exact .inr ⟨_, rfl⟩

/-- A write that touches a P-I image changes only what is known of it, and a calibration in progress. -/
theorem Block.piTouch_frame (s : Block) (a n : Nat) : s.piTouch a n = { s with ls := (s.piTouch a n).ls, ca := (s.piTouch a n).ca } := by
  unfold Block.piTouch; split <;> rfl

end Sys2Proof.Machine
end

