-- ==== Sys2Proof/Laws/Seedbank.lean ====
section
/-!
SUPPORT. What a slot of the Seedbank reads as: a record written whole reads back, with both its copies good, and a slot whose first word is
0 holds none.
-/
namespace Sys2Proof.Machine

/-- The low four of eight bytes of a number. -/
theorem leNat_take4 (c : Nat) : leNat ((leBytes 8 c).take 4) = c % 4294967296 := by
  simp [leBytes, leNat]; omega

/-- Four bytes of a number. -/
theorem leNat_four (c : Nat) : leNat (leBytes 4 c) = c % 4294967296 := by
  simp [leBytes, leNat]; omega

/-- A record CRC fits its four bytes. -/
theorem recordCrc_lt (a : Nat) (h p : List Byte) : recordCrc a h p < 4294967296 := Nat.mod_lt _ (by decide)

/-- Bytes of zeros make 0. -/
theorem leNat_zeros : ∀ l : List Byte, (∀ b ∈ l, b = 0) → leNat l = 0
  | [], _ => rfl
  | b :: l, h => by
    rw [leNat, h b List.mem_cons_self, leNat_zeros l fun y hy => h y (List.mem_cons_of_mem _ hy)]; rfl

/-- The length of a record whose payload is whole words. -/
theorem recordBytes_length (ty : Nat) (q : Word) (a : Nat) (data : List Byte) (h : data.length % 8 = 0) :
    (recordBytes ty false q a data).length = 32 + data.length := by
  have h8 : cdiv data.length 8 * 8 = data.length := by simp [cdiv]; omega
  simp [recordBytes, leBytes, h8, padBytes]; omega

/-- What a slot reads as that holds a record of a payload, with SEQ 1. -/
def readsAs (data : List Byte) : SlotInfo := { st := 1, seq := 1, len := data.length, signed := false, reason := 0, copy := 2, payload := data }

/-- A record written whole, with SEQ 1 and a payload of whole words, reads back as both its copies being good. -/
theorem slotRead_record (s : Block) (ty : Nat) (data : List Byte) (hty : ty < 65536) (h8 : data.length % 8 = 0) (h0 : data.length ≠ 0)
    (hl : data.length ≤ slotSize ty - 32) (hs : data.length < 4294967296) (hbad : s.se.bad = [])
    (hb : ∀ o n, o + n ≤ 32 + data.length →
      s.seedBytes (slotAddr ty 0 + o) n = ((recordBytes ty false 1 (slotAddr ty 0) data).drop o).take n) :
    s.slotRead ty 0 = readsAs data := by
  generalize ha : slotAddr ty 0 = a at hb
  have hp : 8 * cdiv data.length 8 = data.length := by simp [cdiv]; omega
  have hpad : padBytes (cdiv data.length 8 * 8) data = data := by
    rw [Nat.mul_comm, hp]; simp [padBytes]
  have hh : ∃ h : List Byte, h.length = 16 ∧ h = leBytes 4 (ty + 65536 * false.toNat) ++ leBytes 4 data.length ++
      leBytes 4 (1 : Word).toNat ++ leBytes 4 0 :=
    ⟨_, by simp [leBytes], rfl⟩
  obtain ⟨h, hlen, hdef⟩ := hh
  have hrec : recordBytes ty false 1 a data = h ++ (data ++ (leBytes 8 (recordCrc a h data) ++ (leBytes 4 1 ++ leBytes 4 (recordCrc a h data)))) := by
    simp only [recordBytes, hpad, ← hdef]; simp [List.append_assoc]
  rw [hrec] at hb
  have e0 : s.seedBytes a 8 = leBytes 4 ty ++ leBytes 4 data.length := by
    rw [← Nat.add_zero a, hb 0 8 (by omega), hdef]; simp [leBytes]
  have e8 : s.seedBytes (a + 8) 4 = leBytes 4 1 := by rw [hb 8 4 (by omega), hdef]; simp [leBytes]
  have e12 : s.seedBytes (a + 12) 4 = leBytes 4 0 := by rw [hb 12 4 (by omega), hdef]; simp [leBytes]
  have eh : s.seedBytes a 16 = h := by rw [← Nat.add_zero a, hb 0 16 (by omega), List.drop_zero, List.take_left' hlen]
  have ed : s.seedBytes (a + 16) data.length = data := by
    rw [hb 16 _ (by omega), List.drop_left' hlen, List.take_left' rfl]
  have et (o n : Nat) (ho : o + n ≤ 16) : s.seedBytes (a + 16 + data.length + o) n =
      ((leBytes 8 (recordCrc a h data) ++ (leBytes 4 1 ++ leBytes 4 (recordCrc a h data))).drop o).take n := by
    rw [Nat.add_assoc, Nat.add_assoc, hb _ n (by omega), ← Nat.add_assoc, ← List.drop_drop, ← List.drop_drop,
        List.drop_left' hlen, List.drop_left' rfl]
  have e1 : s.seedNat (a + 16 + data.length) 4 = recordCrc a h data := by
    unfold Block.seedNat
    rw [← Nat.add_zero (a + 16 + data.length), et 0 4 (by omega), List.drop_zero, List.take_append_of_le_length (by simp [leBytes]), leNat_take4,
      Nat.mod_eq_of_lt (recordCrc_lt _ _ _)]
  have e2 : s.seedNat (a + 16 + data.length + 8) 4 = 1 := by
    unfold Block.seedNat; rw [et 8 4 (by omega), List.drop_left' (by simp [leBytes]), List.take_left' (by simp [leBytes])]; rfl
  have e3 : s.seedNat (a + 16 + data.length + 8 + 4) 4 = recordCrc a h data := by
    unfold Block.seedNat
    rw [Nat.add_assoc _ 8 4, et 12 4 (by omega), show 12 = 8 + 4 from rfl, ← List.drop_drop, List.drop_left' (by simp [leBytes]),
      List.drop_left' (by simp [leBytes]), List.take_of_length_le (by simp [leBytes]), leNat_four, Nat.mod_eq_of_lt (recordCrc_lt _ _ _)]
  have w0 : s.seedNat a 8 = ty + data.length * 4294967296 := by
    unfold Block.seedNat; rw [e0]; simp [leBytes, leNat]; omega
  have w8 : s.seedNat (a + 8) 4 = 1 := by unfold Block.seedNat; rw [e8]; rfl
  have w12 : s.seedNat (a + 12) 4 = 0 := by unfold Block.seedNat; rw [e12]; rfl
  have hq : (ty + data.length * 4294967296) / 4294967296 = data.length := by omega
  have hb0 : natBits (ty + data.length * 4294967296) 0 16 = ty := by unfold natBits; omega
  have hb1 : natBits (ty + data.length * 4294967296) 17 15 = 0 := by unfold natBits; omega
  have hb2 : natBit (ty + data.length * 4294967296) 16 = false := by
    unfold natBit; simp; omega
  have hne : (data.length == 0) = false := by simpa using h0
  have hle : decide (slotSize ty - 32 < data.length) = false := by simpa using hl
  have hnb : ∀ x, s.badWord x = false := fun x => by simp [Block.badWord, hbad]
  unfold Block.slotRead
  simp [readsAs, ha, w0, w8, w12, hq, hb0, hb1, hb2, hne, hle, hnb, hp, e1, e2, e3, eh, ed, w32]

/-- A slot whose first word is 0 holds no record. -/
theorem slotRead_blank (s : Block) (ty slot : Nat) (h : s.seedNat (slotAddr ty slot) 8 = 0) (ht : ty ≠ 0) : (s.slotRead ty slot).st = 0 := by
  have hty : (natBits 0 0 16 != ty) = true := by simp [natBits, Ne.symm ht]
  unfold Block.slotRead
  simp [h, hty]

/-- The newest record is the one in slot A where slot B holds none. -/
theorem newestData_slotA (s : Block) (ty : Nat) (data : List Byte) (ha : s.slot ty 0 = readsAs data) (hb : (s.slot ty 1).st = 0) :
    s.newestData ty = some data := by
  simp [Block.newestData, Block.newest, ha, hb, readsAs]

end Sys2Proof.Machine
end

