-- ==== Sys2Proof/Laws/Step.lean ====
section
/-!
SUPPORT. A step in terms of the effect of its command.
-/
namespace Sys2Proof.Machine

/-- A command that is `State.does` of a function of the block leaves that function's value, whatever waits behind it. -/
theorem does_next (f : Block → Block) (b : Block) (q : List Instr) :
    State.does ⟨b, q⟩ f = .next ⟨(match State.does ⟨b, []⟩ f with | .next t => t.toBlock | _ => b), q⟩ := rfl

/-- A command leaves its effect on the block, and the queue as it stood. -/
theorem exec_next (c : Instr) (b : Block) (q : List Instr) : exec c ⟨b, q⟩ = .next ⟨effect c b, q⟩ := by
  cases c
  case frameBoundary => exact does_next Block.frameBoundary b q
  case dramScrubRead r => exact does_next (fun s => s.scrubStep r) b q
  all_goals rfl

/-- A step with a command in front leaves its effect and the commands behind it. -/
theorem step_cons (c : Instr) (b : Block) (q : List Instr) : step ⟨b, c :: q⟩ = .next ⟨effect c b, q⟩ := exec_next c b q

/-- A step from an empty queue leaves the block one nanosecond later. -/
theorem step_nil (b : Block) : step ⟨b, []⟩ = .next ⟨b.advance 1, []⟩ := rfl

/-- What a step can do: run the command in front, or let a nanosecond pass. -/
theorem step_cases {s t : State} (h : step s = .next t) :
    (∃ c q, s.pending = c :: q ∧ t = ⟨effect c s.toBlock, q⟩) ∨ (s.pending = [] ∧ t = ⟨s.toBlock.advance 1, []⟩) := by
  obtain ⟨b, p⟩ := s
  cases p with
  | nil => exact .inr ⟨rfl, by rw [step_nil] at h; cases h; rfl⟩
  | cons c q => exact .inl ⟨c, q, rfl, by rw [step_cons] at h; cases h; rfl⟩

end Sys2Proof.Machine
end

