-- ==== Sys2Proof/Machine/Pins.lean ====
section
/-!
DEFINITION. What the block drives at its pins as its state stands (R97, Table 3.13, R632, R651), and the facts of the package and the
supplies the spec gives by formula or table (R648, R656).
-/
namespace Sys2Proof.Machine

/-! ## Driven levels -/

/-- IRQ_N (R97): low while a summary bit selected by DEV_IRQN_MASK0 or 1 is set. -/
def Block.irqN (s : Block) : Bool :=
  (s.summary false &&& s.reg R.DEV_IRQN_MASK0) == 0 && (s.summary true &&& s.reg R.DEV_IRQN_MASK1) == 0

/-- The function code of a GPIO pin (Table 3.12). -/
def Block.gpioFn (s : Block) (i : Nat) : Nat := s.fld (R.PIN_GPIO_MUX (i / 8)) (4 * (i % 8)) 4

/-- The level a GPIO pin drives between pulses, none where it drives nothing (Table 3.13); reserved codes drive nothing. -/
def Block.gpioLevel (s : Block) (i : Nat) : Option Bool :=
  match s.gpioFn i with
  | 0 => if bit (s.reg R.PIN_GPIO_DIR) i then some (bit (s.reg R.PIN_GPIO_OUT) i) else none
  | 1 => some false
  | 2 => some (bit s.pins.cueOut i)
  | 3 => some s.pw.state.lightOn
  | 4 => some (s.fl.recs.any fun e => e.2.isOpen && decide (2 ≤ e.2.cls))
  | 6 => some false
  | _ => none

/-- What a lane of LG3 carries: a lane of MA3, W2 or W3, electrical idle, or a termination (Table 21.7). -/
inductive Lane | ma3 (l : Nat) | fabric (w l : Nat) | idle | terminated
  deriving DecidableEq, Repr

/-- LG3_TX[l] by the owner recorded in PIN_OWN[0] (R651). -/
def Block.lg3Tx (s : Block) (l : Nat) : Lane :=
  match s.owner 0 with
  | 1 => .ma3 l
  | 2 => if l < 4 then .fabric 2 l else if l < 8 then .fabric 3 (l - 4) else .idle
  | _ => .idle

/-- LG3_RX[l] by the owner recorded in PIN_OWN[0] (R651). -/
def Block.lg3Rx (s : Block) (l : Nat) : Lane :=
  if s.owner 0 = 2 then (if l < 4 then .fabric 2 l else .fabric 3 (l - 4)) else .terminated

/-! ## Balls (R648, Tables 21.2 to 21.6) -/

/-- What a ball carries: signal `i` of a name; a ball of differential pair `i`, its N ball where `neg`; a supply, by its place in
`railLimits`; VSS; or nothing, being reserved (R649). -/
inductive Ball | sig (name : String) (i : Nat) | pair (name : String) (i : Nat) (neg : Bool) | supply (rail : Nat) | vss | reserved
  deriving DecidableEq, Repr

/-- Regions A to D (Table 21.3): eight pairs to a row from column `c0`, one column apart; `lane` numbers the row's first. -/
def ballLane (name : String) (c0 lane col : Nat) : Ball :=
  if col < c0 || (col - c0) % 3 = 2 || c0 + 24 ≤ col then .vss else .pair name (lane + (col - c0) / 3) ((col - c0) % 3 == 1)

/-- The lane rows, at rows 1, 3, 5 and 7 and 52, 50, 48 and 46. -/
def ballLanes (row col : Nat) : Ball :=
  let left := decide (col ≤ 26)
  let c0 := if left then 2 else 28
  if row ≤ 8 then
    if row % 2 = 0 then .vss else ballLane (if left then "MA0_TX" else "MA1_TX") c0 (8 * ((row - 1) / 2)) col
  else if row % 2 = 1 then .vss
  else if left then ballLane "MA2_TX" c0 (8 * ((52 - row) / 2)) col
  else if 50 ≤ row then ballLane "LG3_TX" c0 (8 * ((52 - row) / 2)) col
  else if row = 48 then ballLane "LG3_RX" c0 0 col
  else .vss

/-- The pairs of Table 21.4 by row from row 10 on, every second row, for the columns 2 and 3, 5 and 6, 48 and 49, 51 and 52: name and
index. -/
def ballPairs : List (List (String × Nat)) :=
  [[("W0_TX", 0), ("W0_RX", 0), ("DC_CLK", 0), ("HS_DRV_X", 0)], [("W0_TX", 1), ("W0_RX", 1), ("DC_DATA", 0), ("HS_DRV_Y", 0)],
   [("W0_TX", 2), ("W0_RX", 2), ("DC_LATCH", 0), ("HS_POS_X", 0)], [("W0_TX", 3), ("W0_RX", 3), ("DC_RET", 0), ("HS_POS_Y", 0)],
   [("W1_TX", 0), ("W1_RX", 0), ("DC_CLK", 1), ("HL_DAC_R", 0)], [("W1_TX", 1), ("W1_RX", 1), ("DC_DATA", 1), ("HL_DAC_G", 0)],
   [("W1_TX", 2), ("W1_RX", 2), ("DC_LATCH", 1), ("HL_DAC_B", 0)], [("W1_TX", 3), ("W1_RX", 3), ("DC_RET", 1), ("PD", 0)],
   [("USB4_TX", 0), ("USB4_RX", 0), ("DC_CLK", 2), ("PD", 1)], [("USB4_TX", 1), ("USB4_RX", 1), ("DC_DATA", 2), ("PD", 2)]] ++
  [[("NVME_TX", 0), ("NVME_RX", 0), ("DC_LATCH", 2), ("PD", 3)], [("NVME_TX", 1), ("NVME_RX", 1), ("DC_RET", 2), ("PD", 4)],
   [("NVME_TX", 2), ("NVME_RX", 2), ("DC_CLK", 3), ("PD", 5)], [("NVME_TX", 3), ("NVME_RX", 3), ("DC_DATA", 3), ("PD", 6)],
   [("NVME_REFCLK", 0), ("REFCLK", 0), ("DC_LATCH", 3), ("PD", 7)], [("USB2", 0), ("MA_BC", 0), ("DC_RET", 3), ("", 0)],
   [("MA_BC", 3), ("MA_BC", 1), ("", 0), ("", 0)], [("", 0), ("MA_BC", 2), ("", 0), ("", 0)]]

/-- A ball of the column pair `k` of Table 21.4.  A photodiode's pair is its anode and its cathode bias; USB2's is DP and DN. -/
def ballPair (row k : Nat) (neg : Bool) : Ball :=
  if row < 10 || row % 2 = 1 then .vss
  else match (ballPairs.getD ((row - 10) / 2) []).getD k ("", 0) with
    | ("", _) => .vss
    | ("PD", i) => .sig (if neg then "PD_K" else "PD_A") i
    | ("USB2", i) => .sig (if neg then "USB2_DN" else "USB2_DP") i
    | (n, i) => .pair n i neg

/-- Regions E and F: the pairs, and the single balls in columns 4 and 50. -/
def ballSides (row col : Nat) : Ball :=
  if col = 2 || col = 3 then ballPair row 0 (col == 3)
  else if col = 5 || col = 6 then ballPair row 1 (col == 6)
  else if col = 48 || col = 49 then ballPair row 2 (col == 49)
  else if col = 51 || col = 52 then ballPair row 3 (col == 52)
  else if col = 4 then
    (if row = 27 then .sig "USB4_SBTX" 0 else if row = 29 then .sig "USB4_SBRX" 0
     else if row = 33 then .sig "NVME_PERST_N" 0 else if row = 35 then .sig "NVME_CLKREQ_N" 0 else .vss)
  else if col = 50 then
    (if row = 19 then .sig "HL_EN_R" 0 else if row = 21 then .sig "HL_EN_G" 0 else if row = 23 then .sig "HL_EN_B" 0
     else if 25 ≤ row && row ≤ 39 && row % 2 = 1 then .sig "NTC" ((row - 25) / 2) else if 41 ≤ row then .supply 11 else .vss)
  else .vss

/-- A signal of string `n` (Table 21.5). -/
def ballString (k n : Nat) : Ball := .sig (["LS_GATE", "LS_SHUNT", "LS_ISP", "LS_ISN", "LS_VS", "LS_FLT_N"].getD k "") n

/-- Regions G1 and G2 (Table 21.5). -/
def ballStrings (row col : Nat) : Ball :=
  if 15 ≤ col && col ≤ 38 then (if row ≤ 14 then ballString (row - 9) (col - 15) else ballString (44 - row) (col + 9))
  else if row ≤ 14 then
    (if col ≤ 9 || 44 ≤ col then .supply 5 else if col ≤ 11 || (42 ≤ col && col ≤ 43) then .supply 6
     else if col ≤ 14 then .supply 4 else .supply 7)
  else if col ≤ 10 || 43 ≤ col then .supply 1 else .vss

/-- The always-on domain's signals in the order of Table 21.6, from ball 15/12 on. -/
def ballAon : List (String × Nat) :=
  [("PORST_N", 0), ("PWR_FAIL_N", 0), ("BOOT_SRC", 0), ("BOOT_SRC", 1), ("XTAL25_IN", 0), ("XTAL25_OUT", 0), ("ILK_IN_N", 0), ("LASER_EN_N", 0),
   ("ESTOP_N", 0), ("SAFE_OUT", 0), ("FSYNC_IN", 0), ("FSYNC_OUT", 0), ("MA_RDY_N", 0), ("MA_RST_N", 0), ("MA_RDY_N", 1), ("MA_RST_N", 1),
   ("MA_RDY_N", 2), ("MA_RST_N", 2), ("MA_RDY_N", 3), ("MA_RST_N", 3)]

/-- Region G3 (Table 21.6). -/
def ballG3 (row col : Nat) : Ball :=
  if col ≤ 8 then .supply 2
  else if col = 9 then (if row ≤ 30 then .supply 2 else .supply 3)
  else if col = 10 then .supply 3
  else if col = 11 then (if row ≤ 18 then .supply 10 else .vss)
  else match ballAon[row - 15]? with
    | some e => .sig e.1 e.2
    | none => .vss

/-- Region G4 (Table 21.6); a signal of a cage is numbered by its cage, one of the management buses by its bus. -/
def ballG4 (row col : Nat) : Ball :=
  let k := row - 15
  if col = 46 then .sig "GPIO" k
  else if col = 45 then
    (if k < 8 then .sig "GPIO" (k + 24)
     else if k < 16 then .sig (["TCK", "TMS", "TDI", "TDO", "TRST_N", "UART_TX", "UART_RX", "IRQ_N"].getD (k - 8) "") 0
     else .supply 8)
  else if col = 44 then
    (if k < 20 then .sig (["W_MODSEL_N", "W_RESET_N", "W_LPMODE", "W_MODPRS_N", "W_INT_N"].getD (k % 5) "") (k / 5)
     else .sig (if k % 2 = 0 then "WPX_SCL" else "WPX_SDA") ((k - 20) / 2))
  else if col = 43 then (if k < 4 then .supply 9 else .vss)
  else if col = 42 || k < 5 then .reserved
  else .vss

/-- The ball at a row and a column, 1 to 52 each (R648). -/
def ballAt (row col : Nat) : Ball :=
  if row ≤ 8 || 45 ≤ row then ballLanes row col
  else if col ≤ 6 || 47 ≤ col then ballSides row col
  else if row ≤ 14 || 39 ≤ row then ballStrings row col
  else if col ≤ 12 then ballG3 row col
  else if 41 ≤ col then ballG4 row col
  else if (row + col) % 2 = 0 then .supply 0 else .vss

/-! ## Supplies (R656, Table 21.10) -/

/-- A rail's limits in units of 0.1 mV: minimum, nominal, maximum, in the order VDD_CORE, VDD_SRAM, VDD_SERDES, VDDA_SERDES, VDD1,
VDD2H, VDD2L, VDDQ, VDD_IO18, VDD_IO33, VDD_AON, VDDA_ADC. -/
def railLimits : List (Nat × Nat × Nat) :=
  [(7275, 7500, 7725), (7760, 8000, 8240), (8730, 9000, 9270), (11640, 12000, 12360), (17000, 18000, 19500), (10100, 10500, 11200),
   (8700, 9000, 9700), (4700, 5000, 5700), (17100, 18000, 18900), (31350, 33000, 34650), (17100, 18000, 18900), (17100, 18000, 18900)]

/-- Does a rail at a voltage in 0.1 mV stay within Table 21.10, so that it is never counted out of tolerance (R656)? -/
def railWithin (rail v : Nat) : Bool :=
  match railLimits[rail]? with
  | some (lo, _, hi) => decide (lo ≤ v) && decide (v ≤ hi)
  | none => false

end Sys2Proof.Machine
end

