-- ==== Sys2Proof/Tests/Slice0.lean ====
section
/-!
SUPPORT. The model's own tests: ill-formed commands, worked examples of the spec, and for each statement with hypotheses the states and
operands that meet them.  The theorems are elaborated one after the other, since each evaluates a block.
-/
namespace Sys2Proof.Tests

open Sys2Proof.Machine

set_option Elab.async false

/-! ## Small states -/

/-- The block in a device state, with TIME, housekeeping and the supervisor running. -/
def on (d : DevState) : Block :=
  { Block.reset with
    pw := { Block.reset.pw with state := d }, tm := { Block.reset.tm with run := true, nextK := 1 },
    bt := { Block.reset.bt with hkRunning := 15 }, fl := { Block.reset.fl with svRunning := true } }

/-- The block in READY. -/
def up : Block := on .ready

/-- The block in READY, its MSI-X enabled with nothing masked. -/
def messaging : Block := { up with hs := { up.hs with pcie := { up.hs.pcie with msix := true, funcMask := false, vecMask := 0 } } }

/-- A ring command of an opcode with its parameter bytes, from offset 16 on. -/
def cmdOf (op : Nat) (param : Bytes) : Cmd :=
  { cseq := 1, opcode := op, ack := false, fence := false, len := 48, tag := 0, param := param, prev := 0, stage := 0 }

/-- A block with one ring command in flight. -/
def ring (s : Block) (op : Nat) (param : Bytes) : Block := { s with rg := { s.rg with inflight := [cmdOf op param] } }

/-- The active copy of a register holds a value. -/
def live (s : Block) (a : Nat) (v : Word) : Block := s.setReg (actOf a) v

/-- Slots of an image kind with an image staged in slot B. -/
def staged : ImageSlots :=
  { a := none, b := some { version := 1, rollback := 0, length := 100, svCompat := 0xFFFF0000, digest := [], valid := true },
    running := 0, selector := 0, staged := true, trial := false }

/-- An event that waits. -/
def event : Event := { ty := 1, page := 2, cls := 0, cmd := false, fsn := 0, ft := 0, data := [], held := false }

/-- The advertisement of the node with UID 7. -/
def lsa7 : Lsa := { uid := 7, seq := 1, elig := true, named := 0, links := [], groups := [], stored := 0 }

/-- The block on its own clock, with a fabric source heard again for long enough. -/
def heardAgain : Block :=
  { up with tm := { up.tm with src := .refclk, fabricQual := true, fabricLast := some 100000000000, fabricSince := some 0 } }

/-- The block in READY with everything that group 0 needs to light. -/
def litable : Block :=
  let b := ((up.setReg (actOf R.SEQ_CTRL) 1).setReg (actOf R.LSG_CFG) 1).setReg (actOf (R.LS_STR_CFG 0)) 1
  let b := b.setReg (actOf (R.MA_CFG 0)) 1
  let b := (b.modPort 0 fun q => { q with st := 4, usable := true }).modPair 11 fun q => { q with st := 2 }
  let b := (b.modPair 0 fun q => { q with st := 2 }).modPair 1 fun q => { q with st := 2 }
  { b with pins := { b.pins with ilkInN := false, laserEnN := false, estopN := true } }

/-- A descriptor that moves nothing. -/
def desc0 : SkdDesc := { dseq := 0, ctrl := 0, surf := 0, src := 0, dst := 0, length := 0, expect := 0 }

/-- Channel 0 with a descriptor to fetch from a ring in the host's memory. -/
def queued : Block :=
  (((up.setReg R.SKD_CTRL 1).setReg (R.SKD_CH_CTRL 0) 1).setReg R.HOST_LINK_STATUS 0x100).modSkd 0 fun k => { k with st := .queued }

/-- Channel 0 on mover 0. -/
def moving : Block :=
  { up.modSkd 0 fun k => { k with st := .active, desc := some desc0 } with
    sk := { (up.modSkd 0 fun k => { k with st := .active, desc := some desc0 }).sk with run := [some 0, none, none, none] } }

/-- Channel 0 on mover 0, and channel 1 of a higher priority queued behind it. -/
def preempting : Block :=
  let b := ((up.setReg R.SKD_CTRL 1).setReg (R.SKD_CH_CTRL 0) 1).setReg (R.SKD_CH_CTRL 1) 3
  let b := (b.modSkd 0 fun k => { k with st := .active, desc := some { desc0 with length := 4096 } }).modSkd 1 fun k =>
    { k with st := .queued }
  { b with sk := { b.sk with run := [some 0, none, none, none] } }

/-- The first GiB of device memory mapped to pair 8, and the record of a surface of 64 by 32 there. -/
def mapped : Block :=
  let b := (up.setMem 0xB00000000 [1, 0x10, 0, 0, 0xB]).setMem 0xB00001000 [15, 0, 0, 0, 8]
  b.setRegs [(R.DTU_CTRL, 1), (R.DTU_ROOT_HI, 0xB), (R.STORE_SURF_REC 2, 0x00200040), (R.STORE_SURF_REC 3, 2)]

/-- A frame of the pipeline. -/
def frame0 : PipeFrame :=
  { surf := 0, rcd := Surface.reset, fsn := 0, startFt := 0, dram := [], view := [], mesh := [], lut := [], zone := [], dec := [],
    hlm := [], width := 0, height := 0, codes := [], blendPages := [], unifPages := [], spillPages := [],
    lbPages := [], later := [], cut := 0 }

/-- Port 0 with a set being written. -/
def writing : Block :=
  let b := (live up (R.BUCK_PORT_CFG 0) 1).modPort 0 fun k =>
    { k with sets := [{ PlaneSet.reset with st := 1 }] }
  { b with pp := { b.pp with frame := some frame0 } }

/-- An identity of a mirror module that port 0 can use. -/
def identBytes : Bytes := [1, 0, 1, 0, 1, 1, 16, 2, 1, 1, 0, 0, 0, 0, 8, 0x20, 0, 0] ++ List.replicate 14 0

/-- A laser model's group whose last update is at 0 ns. -/
def modelled : ModelGroup := { x := [0, 0, 0], tmg := 0, o := 0x8000, lvl := Levels.reset, last := some 0, lost := false }

/-- A laser model's group on its way to shutdown. -/
def hotGroup : ModelGroup :=
  { x := [0, 0, 0], tmg := 0, o := 0x8000, lvl := { Levels.reset with pending := true, sdRun := 50 }, last := none, lost := false }

/-- An NTC input in range. -/
def ntcIn : NtcIn := { code := 0, temp := 0, valid := true, hist := [] }

/-- The open record of a lost lock. -/
def lockRec : FaultRec :=
  { fid := 1, cls := 1, clearable := false, page := 0x12, code := 0x0C2, fsnOpen := 0, ftOpen := 0, detail := 0, recur := 0,
    isOpen := true, close := 0, fsnClose := 0, way := .auto }

/-- A change of the set point that pair 11 still waits for. -/
def freq : FreqChange := { target := 1, prev := 0, cause := 0, since := 0, left := 0x800, waited := 0, late := 0 }

/-- Photodiodes 0 and 1 watch mirror group 0, which measures in slot 0. -/
def watched : Block :=
  let b := (on .lit).setRegs [(actOf (R.OPT_PAIR 0), 0x10), (actOf (R.OPT_PD_CFG 0), 1), (actOf (R.OPT_PD_CFG 1), 1)]
  b.modPort 0 fun k => { k with words := [1, 0, 0, 0, 0x80001000, 0] }

/-- Photodiode 7 on, and a dark interval of 40 us. -/
def darkened : Block := (on .lit).setRegs [(actOf (R.OPT_PD_CFG 7), 1), (actOf R.TIME_DARK_LEN, 40000)]

/-- A DRAM scrubber that reads pair 0. -/
def scrubbing : Block := live (up.modPair 0 fun k => { k with st := 2 }) R.DMC_SCRUB_CFG 1

/-- A recovered stage-1 image with the last rollback index. -/
def recovered : Block :=
  { up with bt := { up.bt with
      recovered := some { version := 1, rollback := 64, length := 100, svCompat := 0, digest := [], valid := true } } }

/-- A report of the colour consensus. -/
def report : ColReport := { uid := 0, epoch := 0, prim := [], peak := 0, bytes := [] }

/-- Member 0 of group 0 lit and steady, so that its P-I record may be calibrated. -/
def piReady : Block :=
  let b := (on .lit).setRegs [(actOf (R.LS_STR_CFG 0), 1), (actOf R.TIME_DARK_LEN, 0x10000), (actOf (R.MA_CFG 0), 0x20)]
  let b := (b.modGrp 0 fun k => { k with lit := true }).modPort 0 fun k => { k with words := [0] }
  { b with th := { b.th with ntc := List.replicate 8 ntcIn } }

/-- The scanner locked and its group lit. -/
def scanReady : Block :=
  let b := (on .lit).modGrp 4 fun k => { k with lit := true }
  { b with sc := { b.sc with st := 5 } }

/-- A DRAM calibration of pair 0 whose passes are over. -/
def calRun : CalRun :=
  { cseq := 1, proc := 4, flags := 0, target := 0, cpd := 0, top := 0, phase := 3, spare := none, since := 0, piWritten := false,
    lost := false, points := 0 }

/-- A record that the writer of the Seedbank writes for a SEED_STORE. -/
def seedWrite : SeedWrite :=
  { req := { kind := 0, ty := 16, signed := false, data := [], addr := 0, cseq := some 1, why := .store }, slot := 0, seq := 1,
    addr := 0, bytes := [], done := 0,
    old := { st := 0, seq := 0, len := 0, signed := false, reason := 0, copy := 0, payload := [] } }

/-- A write of a reserved copy that waits. -/
def chkReq : SeedReq := { kind := 2, ty := 0, signed := false, data := [], addr := 0, cseq := none, why := .none }

/-- The parameters of an ATTEST with a buffer of 64 KiB. -/
def attestPar : Bytes := List.replicate 14 0 ++ [1, 0]

/-- An attestation in progress. -/
def attest : Attest := { cseq := 1, dev := false, addr := 0, quote := [], log := [], count := 0 }

/-- An armed fine-time cue at FT 1000. -/
def armed : CueCtx := { CueCtx.reset with trigger := 1000, st := 1, fine := true }

/-- The Seedbank with a record of type 9 in slot A. -/
def stored : Block := up.seedPut (slotAddr 9 0) (recordBytes 9 false 1 (slotAddr 9 0) [1])

/-- The block in READY as a state, with nothing behind the command that runs. -/
def upState : State := ⟨up, []⟩

/-- A commit of page 7 that loads the FSN at the next boundary. -/
def fsnCommit : Commit :=
  { pages := 0x80, group := false, page := 7, arrival := 0, skip := 0, late := false, merged := false, waitSeal := false, cues := [],
    stage := .sourced, target := 0, major := false, vals := [(R.TIME_FB_CTRL, 1), (R.TIME_FSN_LOAD, 100)] }

/-- The block in READY with that commit. -/
def loadsFsn : Block := { up with cm := { up.cm with list := [fsnCommit] } }

/-- A computed routing table whose parent port is 0. -/
def routes : RouteTable := { entries := [], reach := 0, parent := some 0, children := [], beyond := [] }

/-! ## A key, its signatures, and what the Seedbank and the fuses hold of them -/

/-- The modulus of a key of RSA-4096 that OpenSSL made for these tests. -/
@[irreducible] def testKey : Bytes :=
  beBytes 64 0xc33c8701e4c532eed2a7798efa4e425c693dd3c9d0d6773773f8c9c3659886f2d7c732fbbe6764afd0a0427da38e8606a9597e431a36c998a89becc197000bf0 ++
  beBytes 64 0x7ff6037af7d59ed3854a99a17c1a2cb23ad804001e5c14cfdcdfd512abef21e5f6bc19fc4658b27f53b0e2a6d951f8bafe1d0b10155889f69552c1919434b828 ++
  beBytes 64 0xd22a67118c4257e4999c1ea1c686f6da5e856c9d7732e91f3aafea10ad37577d8394030b314234925198eab928e0a1aaabb810270fb378ea94fde73f8d7e6af6 ++
  beBytes 64 0x93cd3b671709070738af5745f691ec14d58803e96dd58146c6873aefca2ac127fde5812013cd55d0dfa15ec03568de7448bae2ce618c97065bf0a4824dfa5c31 ++
  beBytes 64 0x7e24424e9e8adf7dcd808c3b6183376e0507a6b1a640fe336e1a5c3ba26df88f052f4bcab5b4cdb7133c9d99acd4591a87938b7a34b0b4ed1df99f4b33716bae ++
  beBytes 64 0x163c61690407f2ac88f1128b35e5fd6179bf4c4512da897a722173bb7ded25aaf27d5f010fa1531922598981aa1d3b11f15f458c428cf03c7333cd2848906c23 ++
  beBytes 64 0x39f925f440a52ecc1d1f0eff956f7fe903aa7c1c3592fd6861f23e8d6051d43a98e5d7e44c2e4f03640e5bdac65a61ddde53d5c28ff172a46f613544e2286eb0 ++
  beBytes 64 0xc6bbfc4c65e1b298d597be322ee6daade0a89a402df92930a40f34d5bc4b8583c0f2a2f77eb3904e205c618805183a7b1549e284b369afa033bb8b4589373301

/-- OpenSSL's signature of the stage-1 image `image 0`. -/
@[irreducible] def sigImage0 : Bytes :=
  beBytes 64 0x968ccc90e7b81149b3091a00dad5e57953538b45a0286d347d3a87ce50922089b95cf2bc48a62a5764daa01a11885dac073a119d68992440378f6c696e752114 ++
  beBytes 64 0xe46d6032e4980ac5cbcd1d4c6304c97cd195e402bd9a8259213f8f2ea3dcee2f7555366ad09cc1f9e8d5b21b70d58e78dbbcd94262e79629d5f3e6ee1af5abf6 ++
  beBytes 64 0x44d881f7a0c88d2bae04941158bf9406db2b65d6bf9044a2bee0b1e3eadb0a2614e84680f5c14e11f6bff8fbf6a3505bbcee14212600fdb274d0dbce9fe3dc89 ++
  beBytes 64 0xce7710f5fce684fdc5119bde2fef64a0449919124f20d42079d069832a25750f85965c1f14a3f4ac1838c146d03fba730981eab7a4433cfbb0a32100b16381fb ++
  beBytes 64 0x69538d034c7ea4c6bca0ab6c7849b549c44ae6f170a337dfcce5ddfd5063c53fbf7244030fcf52f570431878017d9cf741043471601608d597962bddef89b7f4 ++
  beBytes 64 0x9da265b8a033a5c9ce86fd717f868adb64d47ea3189f789e016cc6a53552d3b9b27d687e653f3ef7bfa30028eafff96a2d598962df4733dc6d3b766a3999a828 ++
  beBytes 64 0x481386825cb34fd5c1ee1a0225a83e7fff9953ee265bc81aaa2b749a18849df8f6d52a1fc902cf5c696fa0999f2d8cf6f83a86dd18aa5cecac96a015ebecd0a1 ++
  beBytes 64 0xfbec4e4e4be6271852a81672101e8f51bf5b9a09ba0af6378f83bd75ef13083f4651cad8d5fb6617cbfbf4ab50005594bc718edd7613b84263adef2696177d24

/-- OpenSSL's signature of the HK image `image 1`. -/
@[irreducible] def sigImage1 : Bytes :=
  beBytes 64 0xa6bc24ff10ccde7dd9f60ef3975cc287c1464e44765f50fb72493ecce3399d0995cd9c97d2b00f27da44787134d2980b86a70eb54eca69d79058544d1a248423 ++
  beBytes 64 0x659847351db4401824890c6cd7f74a37f950c7dd4715fb75e6394990b7b4321ea3b861d7cf2f2733b3d39747a3fc217f86a6aa22c33073790aaacb91bdf01de4 ++
  beBytes 64 0x5fbeef6282c103937975aa75e87af2e887ed669481bcfe4dbeb403d83ce9ad2d1bc4c57f6fe4246ed45fc8569b580fe83d5fa8064a25a9e1a901eed6a355e37a ++
  beBytes 64 0xb8efcf9e68120025400c5acbf3e1dd1183b35b4d84c494ab9ec0f0b346532d7f9aa14f4061adf84bfc9e382645194eecc5f8ff52d44f8aaef02d022b8b086954 ++
  beBytes 64 0xee81ea3624ddff7a4eb1c6737ca012748461069a3adf7ad80e66ac67ec667a012f9620327aef9cdd2027bcad01dc2294aed3667994c0039016287d9a31be4a24 ++
  beBytes 64 0xdd960a96e9962db5d9c6a11a8fed580036e01b76cf37865331e4cb4fb097cbd3fa0bb96f42bf1654ceb3e4a656d18a5c51d965c4d4eceefd1dc51e25d23988d4 ++
  beBytes 64 0xca5f30810ab55d2e14957b3cbc5abf589bc71f19eca5368ed201e0db186e72e5de1c324b451e5d10cc278f822cfabe4dfe25704b5918001746e8aa55c0806618 ++
  beBytes 64 0x1161e653568ef6bd212b1d71860f406497c7b328730cad3b5b7cfc56b5259b0bdd994fec5c234be2a14ca5b7ae727c3c4e4293d6b2894dd347eb46948c39aa67

/-- OpenSSL's signature of the SV image `image 2`. -/
@[irreducible] def sigImage2 : Bytes :=
  beBytes 64 0x4d7b0fa5a542c2456af6bbcd3d37975529b7e9cad60389436cb20c22cdb39b7568c9066e9c0174f77c5c82fa16afb4498df35339bccfb1b4e60adffba712e0b7 ++
  beBytes 64 0x3766c044379228a3d0adbf2e92a235aa2dce414f7a469ac42ecbad7432d1f557e117b3325c4fdce1e7103f5fb44a8e51c28e8bed8d88d1c913c4791462f1b855 ++
  beBytes 64 0x072ec48c10a1355566e27042dfd4b24abcb4c072965f4ec0122fa897a19dbfdec120b126218a2248ac06d76e6a91533cd8284d73049c0fc9b44af13162f67afd ++
  beBytes 64 0xc60c06b60aa06a27b0373824a657c62a4d0275804faa89ad5df990e9682bf92440fb38237a345f723c321f9a1004e1c6f4a8609a01f4e0a75fe8f22d9ef7b9ca ++
  beBytes 64 0x5ad3f5eea295afccae8df85103ef017dab9af7a205ceb93828a3bbdbaa8096966efc92d23578dac53757a472607be35f3fa6dd0fc2537edc74d2c5878bb2888f ++
  beBytes 64 0xefd6982bdb603b573df9237fbef1d06eb0b1fae3644e534e5f1bbb4badc70734810260719baf9f4bf054f49fe9c65f7781b5dd776a0b78fde51dbd71e4080ee4 ++
  beBytes 64 0x1c42e07515f54d30102c0e68baf6add2b919a63e19b6cd41218d9f4b66b83a7055a5df7b0c074e5d054be2609fe3c5181fefba17d24aaa75950e842598a8354c ++
  beBytes 64 0x2870920d361626a29f68a86082b20cc0ac6269a49ae9c6368d0eb4d1397f05885ecbf21858eaa19452771a455fc70ed5c93d14a35400b878fae565dadae82161

/-- OpenSSL's signature of the REVOKE package of owner slot 0. -/
@[irreducible] def sigOwner2 : Bytes :=
  beBytes 64 0x354d5879af23633ba05cf4a0c05f785e266d7f951e00e53fd2f9cda2124de019056c50e8be320ad6a4b15dc2b4c52ae68b372638cbb0c2e3e6cbcc71e8353941 ++
  beBytes 64 0x2af2d2f962952eecbd7cca8fcf2a80cf46090a999641ee825a8122a0fdca377745c4dad764ac3000fc99494fac63cd93cb55433a665db3224ff56def320911e4 ++
  beBytes 64 0x0b1a774dd3210825ac853659965aca1d9462a9124ad5d8231761cba7712e8fa3148ff13d3094f026f227367117dbc5998a6995c9a5e244787e43e3a34a60cdde ++
  beBytes 64 0xb5762d9b2c68a489c37f7cc5abad1ab6a752fb4163eb16da9fb51330f32c68c551507230f66deec874cef64321b7224b7d27bd347e765472c10ba0918b532398 ++
  beBytes 64 0x8814e1e1943aa2a52e26da81671dc2dcf275ed2b81f72312f9ae5f92541366315151de6785a89e91b36f99669fab0b283de79ea88ccce4113991439aee4b42d7 ++
  beBytes 64 0xd485db769c0c09114175574ec83d4bcb9dd55ab979a10b5e6cea29a9d43b55ceb5eea836f3d1003d8b815ee742e9591a7c39403664a5dbec1e08b4e0f3fedb77 ++
  beBytes 64 0xd2418a67ea2febe4e9bfec0e26d08c4859541cc8ca289bf0725da3a7fa4ef949073d865534c1a033d400e154d3012c50c348019661527c15b89ffb524972c316 ++
  beBytes 64 0xebc84ebde72554f545f99bd8b97fc758514862aa2c338e6c55832ed79b6580286b1873d5450ecb7086f45a06e797bc769ae7b01202a02642694bbbe3aae87911

/-- OpenSSL's signature of the POLICY_ON package of owner slot 0. -/
@[irreducible] def sigOwner3 : Bytes :=
  beBytes 64 0x050db17b53396514404e8b25a745e2dadb5ac3bab5edbae46bbc15f072f4ac5d441b9f0c75e8dc09a75e5adfcee3fad3c3b7ce3686ad13dc1cfd1da44490751f ++
  beBytes 64 0xaa12e693c7800e9cb94cc26f33880d1806c8b186ae381dfc6d4580ba0883dbb3523231370e79e2a76289d455d9cb08f9bf217e01c80ad5fdbd5c3c920f6dc5d1 ++
  beBytes 64 0xb494d9d042b0f0b97356f1764e7358b4b19ea4169127c59c626e801a1a7e22ef1c9e8e5763589867922e9223d4ebabbe7ccee86d29225d866bb428b0d0428375 ++
  beBytes 64 0xe4eb7e9bc77bed22ee79dbf60ddaa6131fbae2970eb7b9c56be42a8637342a5647ffadaad3f346eecc2a9ed4cd5836fbe182144a277b0b898ea97ccd283c70d2 ++
  beBytes 64 0x2bf84ea45e0399d0c8c39268fe0e4f91a4b680ec9056573f4b968d62f359efa2547f9ec7dfd9cb7d85f043190c1965227398ac88cd1dc2f2298b7ad965d34814 ++
  beBytes 64 0x5bf078aff48110438aa0eb84b8bd613ca9cb77bfe939dab195ee4e141a62c8a876b1cb459593ecdb630b33906dbe2c14c697b1b8964a10e4b8dd749ecdda5431 ++
  beBytes 64 0x001008bcfa7bafb05a7ca9b71c10294b67f2c00a3466de077fa810fc1537cc9066765950dbf3e6c92ee17f004e772860ed863392a5172ec8d28893fbb1dab25b ++
  beBytes 64 0x51240407fd942fab8156480ae7d8f301121c58108652b576513ceacc51ae339009ee4633aaa9738e40f58f25b21394985baa106d4f8fc6a482b8c7b2554ed00e

/-- Bytes as the entries of a store, from an address on. -/
def entries (a : Nat) (l : Bytes) : List (Nat × Byte) := l.mapIdx fun i b => (a + i, b)

/-- The first entry and the rest. -/
theorem entries_cons (a : Nat) (b : Byte) (l : Bytes) : entries a (b :: l) = (a, b) :: entries (a + 1) l := by
  simp [entries, List.mapIdx_cons, Nat.add_assoc, Nat.add_comm 1]

/-- Entries read back. -/
theorem sget_entries (d : Nat → Byte) (m : List (Nat × Byte)) : ∀ (l : Bytes) (a k : Nat), k < l.length →
    sget d (entries a l ++ m) (a + k) = l.getD k 0
  | b :: l, a, 0, _ => by simp [entries, sget]
  | b :: l, a, k + 1, h => by
    rw [entries_cons, List.cons_append, sget, if_neg (by omega), ← Nat.add_assoc, Nat.add_right_comm,
      sget_entries d m l (a + 1) k (by simpa using h)]
    rfl

/-- Entries leave every other address as it was. -/
theorem sget_entries_other (d : Nat → Byte) (m : List (Nat × Byte)) (x : Nat) : ∀ (l : Bytes) (a : Nat), x < a ∨ a + l.length ≤ x →
    sget d (entries a l ++ m) x = sget d m x
  | [], a, _ => rfl
  | b :: l, a, h => by
    rw [entries_cons, List.cons_append, sget, if_neg (by simp at h; omega), sget_entries_other d m x l (a + 1) (by simp at h; omega)]

/-- A part of a list, read place by place. -/
theorem map_getD (l : Bytes) (n o : Nat) (h : o + n ≤ l.length) : ((List.range n).map fun i => l.getD (o + i) 0) = (l.drop o).take n := by
  refine List.ext_getElem (by simp; omega) fun i h1 h2 => ?_
  have : o + i < l.length := by simp at h1; omega
  simp [List.getD, this]

/-- A Seedbank with a row of records, each in slot A of its type. -/
def seeded : List (Nat × Bytes) → List (Nat × Byte)
  | [] => []
  | (ty, data) :: l => entries (slotAddr ty 0) (recordBytes ty false 1 (slotAddr ty 0) data) ++ seeded l

/-- A record's payload is whole words, and the record lies clear of the bytes from `a` on. -/
def clearOf (a n : Nat) (r : Nat × Bytes) : Prop :=
  r.2.length % 8 = 0 ∧ (a + n ≤ slotAddr r.1 0 ∨ slotAddr r.1 0 + 32 + r.2.length ≤ a)

/-- An address clear of every record reads as what stands behind them. -/
theorem sget_seeded (x : Nat) (m : List (Nat × Bytes)) : ∀ l : List (Nat × Bytes), (∀ r ∈ l, clearOf x 1 r) →
    sget zeroByte (seeded (l ++ m)) x = sget zeroByte (seeded m) x
  | [], _ => rfl
  | r :: l, h => by
    have hr := h r List.mem_cons_self
    rw [List.cons_append, seeded, sget_entries_other _ _ _ _ _ (by rw [recordBytes_length _ _ _ _ hr.1]; have := hr.2; omega)]
    exact sget_seeded x m l fun y hy => h y (List.mem_cons_of_mem _ hy)

/-- A record of a seeded Seedbank reads back. -/
theorem seeded_slot (s : Block) (l m : List (Nat × Bytes)) (ty : Nat) (data : Bytes) (hm : s.se.mram = seeded (l ++ (ty, data) :: m))
    (hw : s.se.wr = none) (hb : s.se.bad = []) (hty : ty < 65536) (h8 : data.length % 8 = 0) (h0 : data.length ≠ 0)
    (hl : data.length ≤ slotSize ty - 32) (hs : data.length < 4294967296)
    (hc : ∀ r ∈ l, clearOf (slotAddr ty 0) (32 + data.length) r) : s.slot ty 0 = readsAs data := by
  have hr : s.slot ty 0 = s.slotRead ty 0 := by unfold Block.slot; rw [hw]
  rw [hr]
  refine slotRead_record s ty data hty h8 h0 hl hs hb fun o n h => ?_
  rw [← map_getD _ _ _ (by rw [recordBytes_length _ _ _ _ h8]; exact h)]
  unfold Block.seedBytes
  refine List.map_congr_left fun i hi => ?_
  rw [List.mem_range] at hi
  rw [hm, sget_seeded _ _ l fun r hr => ⟨(hc r hr).1, by have := (hc r hr).2; omega⟩, seeded, Nat.add_assoc,
    sget_entries _ _ _ _ _ (by rw [recordBytes_length _ _ _ _ h8]; omega)]

/-- A slot clear of every record of a seeded Seedbank holds none. -/
theorem seeded_blank (s : Block) (l : List (Nat × Bytes)) (ty slot : Nat) (hm : s.se.mram = seeded l) (hw : s.se.wr = none) (ht : ty ≠ 0)
    (hc : ∀ r ∈ l, clearOf (slotAddr ty slot) 8 r) : (s.slot ty slot).st = 0 := by
  have hr : s.slot ty slot = s.slotRead ty slot := by unfold Block.slot; rw [hw]
  rw [hr]
  refine slotRead_blank _ _ _ (leNat_zeros _ fun b hb => ?_) ht
  obtain ⟨i, hi, rfl⟩ := List.mem_map.1 hb
  rw [List.mem_range] at hi
  rw [hm, ← List.append_nil l, sget_seeded _ [] l fun r hr => ⟨(hc r hr).1, by have := (hc r hr).2; omega⟩]
  rfl

/-- Fuses with a digest of 64 bytes from a byte on. -/
def fused (a : Nat) (d : Bytes) : List (Nat × Byte) := entries a d ++ []

/-- The digest reads back. -/
theorem fused_bytes (s : Block) (a : Nat) (d : Bytes) (ho : s.se.otp = fused a d) (hd : d.length = 64) : s.otpBytes (8 * a) 64 = d := by
  unfold Block.otpBytes
  have h := map_getD d 64 0 (by omega)
  rw [List.drop_zero, List.take_of_length_le (by omega)] at h
  refine Eq.trans (List.map_congr_left fun i hi => ?_) h
  rw [List.mem_range] at hi
  rw [ho, Nat.mul_div_cancel_left _ (by decide), fused, sget_entries _ _ _ _ _ (by omega), Nat.zero_add]

/-- Every fuse outside it is whole. -/
theorem fused_fuse (s : Block) (a : Nat) (d : Bytes) (ho : s.se.otp = fused a d) (i : Nat) (h : i / 8 < a ∨ a + d.length ≤ i / 8) :
    s.fuse i = false := by
  rw [Block.fuse, ho, fused, sget_entries_other _ _ _ _ _ h]
  simp [sget, zeroByte, natBit]

/-- The test key and its digest are as long as the spec has them. -/
theorem testKey_length : testKey.length = 512 := by decide +kernel
theorem testKey_digest_length : (sha512 testKey).length = 64 := by decide +kernel

/-! ## A boot -/

/-- An image of a kind that the boot accepts (Table 4.8): without a body, and an HK image that takes any SV image. -/
@[irreducible] def image (kind : Nat) : Bytes :=
  leBytes 4 0x47535753 ++ leBytes 4 kind ++ List.replicate 12 0 ++ (if kind = 1 then [0, 0, 0xFF, 0xFF] else [0, 0, 0, 0]) ++
    List.replicate 104 0 ++ testKey ++ (match kind with | 0 => sigImage0 | 1 => sigImage1 | _ => sigImage2)

/-- The three images in slots A, and the vendor key hash in the fuses. -/
def bootSlots : List (Nat × Bytes) := [(1, image 0), (2, image 1), (3, image 2)]

/-- A controller in BOOT that holds them. -/
@[irreducible] def booting : Block :=
  { Block.reset with
    pw := { Block.reset.pw with state := .boot }
    se := { Block.reset.se with mram := seeded bootSlots, otp := fused 0 (sha512 testKey) } }

theorem booting_mram : booting.se.mram = seeded bootSlots := by unfold booting; rfl
theorem booting_otp : booting.se.otp = fused 0 (sha512 testKey) := by unfold booting; rfl
theorem booting_rest : booting.se.wr = none ∧ booting.se.bad = [] ∧ booting.pw.state = .boot ∧ booting.bootSource = 0 := by
  unfold booting; exact ⟨rfl, rfl, rfl, rfl⟩

theorem image_length (k : Nat) : (image k).length = 1152 := by
  have h0 := testKey_length
  have h1 : sigImage0.length = 512 ∧ sigImage1.length = 512 ∧ sigImage2.length = 512 := by decide +kernel
  unfold image; split <;> split <;> simp [leBytes, h0, h1]

/-- The model takes OpenSSL's signatures (R147). -/
theorem test_image_signatures_verify : ∀ k, k < 3 → imageSig (image k) = true := by decide +kernel

/-- The worked balls of R648: MA1_TX[13] at 3/43 and 3/44, LG3_RX[7] at 48/49. -/
theorem test_balls : ballAt 3 43 = .pair "MA1_TX" 13 false ∧ ballAt 3 44 = .pair "MA1_TX" 13 true ∧
    ballAt 48 49 = .pair "LG3_RX" 7 false := by decide +kernel

/-- An image one of whose signed bytes differs does not verify (R147). -/
theorem test_changed_image_fails : imageSig ((image 0).take 16 ++ 1 :: (image 0).drop 17) = false := by decide +kernel

/-- The fields of the images that the boot reads. -/
theorem image_fields : ∀ k, k < 3 → imageKey (image k) = testKey ∧ field (image k) 0 4 = 0x47535753 ∧ field (image k) 4 1 = k ∧
    field (image k) 8 4 = 0 ∧ field (image k) 12 2 = 0 ∧ field (image k) 16 4 = 0 ∧ (k = 1 → field (image k) 20 4 = 0xFFFF0000) := by
  decide +kernel

/-- A slot of `booting` that holds nothing. -/
theorem booting_blank (ty slot : Nat) (ht : ty ≠ 0) (h : ∀ k, k < 3 →
    slotAddr ty slot + 8 ≤ slotAddr (k + 1) 0 ∨ slotAddr (k + 1) 0 + 1184 ≤ slotAddr ty slot) : (booting.slot ty slot).st = 0 := by
  refine seeded_blank _ _ _ _ booting_mram booting_rest.1 ht fun r hr => ?_
  simp only [bootSlots, List.mem_cons, List.not_mem_nil, or_false] at hr
  unfold clearOf
  obtain rfl | rfl | rfl := hr <;> rw [image_length]
  · exact ⟨rfl, h 0 (by decide)⟩
  · exact ⟨rfl, h 1 (by decide)⟩
  · exact ⟨rfl, h 2 (by decide)⟩

/-- No selector and no mirror is recorded. -/
theorem booting_newest (ty : Nat) (h : ty = 4 ∨ ty = 5 ∨ ty = 6) : booting.newestData ty = none := by
  have h0 : (booting.slot ty 0).st = 0 ∧ (booting.slot ty 1).st = 0 := by
    obtain rfl | rfl | rfl := h <;> constructor <;> refine booting_blank _ _ (by decide) fun k hk => ?_ <;>
      obtain rfl | rfl | rfl : k = 0 ∨ k = 1 ∨ k = 2 := by omega
    all_goals simp [slotAddr, slotTable]
  simp [Block.newestData, Block.newest, h0]

/-- Each image reads back, and is valid. -/
theorem booting_image (k : Nat) (hk : k < 3) : booting.goodAt 0 k 0 = some (booting.imageOf k 0 (image k)) := by
  have hs : booting.slot (k + 1) 0 = readsAs (image k) := by
    have hi := image_length
    refine seeded_slot booting (bootSlots.take k) (bootSlots.drop (k + 1)) (k + 1) (image k) ?_ booting_rest.1 booting_rest.2.1 (by omega)
      (by rw [hi]) (by rw [hi]; decide) ?_ (by rw [hi]; decide) ?_
    all_goals obtain rfl | rfl | rfl : k = 0 ∨ k = 1 ∨ k = 2 := by omega
    any_goals exact booting_mram
    all_goals simp [bootSlots, clearOf, hi, slotAddr, slotSize, slotTable]
  have hv : booting.imageFault k 0 (image k) = 0 := by
    have hh : booting.otpBytes 0 64 = sha512 testKey := fused_bytes booting 0 _ booting_otp testKey_digest_length
    simp [Block.imageFault, image_fields k hk, test_image_signatures_verify k hk, hh]
  simp [Block.goodAt, Block.imageAt, hs, readsAs, Block.imageOf, hv]

/-- Its HK image takes its SV image in. -/
theorem booting_compat : compat (booting.imageOf 1 0 (image 1)) (booting.imageOf 2 0 (image 2)) = true := by
  have h1 := (image_fields 1 (by decide)).2.2.2.2.2.2 rfl
  have h2 := (image_fields 2 (by decide)).2.2.2.1
  unfold compat Block.imageOf
  simp only [h1, h2]
  decide

/-- Nothing is rolled back. -/
theorem booting_effective : booting.effective = 0 := by
  have hr : booting.otpRollback = 0 := by
    unfold Block.otpRollback
    rw [List.length_eq_zero_iff, List.filter_eq_nil_iff]
    intro i _
    have hk := testKey_digest_length
    simp [fused_fuse booting 0 _ booting_otp (832 + i) (.inr (by omega))]
  have hm : booting.mirror = none := by simp [Block.mirror, booting_newest]
  unfold Block.effective
  simp [hm, hr]

/-- A block with no selector record and a good image of each kind in slots A boots those, where the images suit each other. -/
theorem bootPick_slotA (s : Block) (a b c : Image) (he : s.effective = 0) (hs : s.bootSource = 0) (h4 : s.newestData 4 = none)
    (h5 : s.newestData 5 = none) (ha : s.goodAt 0 0 0 = some a) (hn : (s.slot 1 1).st = 0) (hb : s.goodAt 0 1 0 = some b)
    (hc : s.goodAt 0 2 0 = some c) (hk : compat b c = true) : s.bootPick = some (some 0, 0, 0) := by
  have hn : s.goodAt 0 0 1 = none := by simp [Block.goodAt, Block.imageAt, hn]
  simp [Block.bootPick, he, hs, Block.s1Pick, Block.svPick, Block.hkPick, Block.selected, h4, h5, pickSlot, ha, hn, hb, hc, hk]

/-- R148: the controller boots its three images. -/
theorem test_boot_picks : booting.bootPick = some (some 0, 0, 0) := by
  refine bootPick_slotA booting _ _ _ booting_effective booting_rest.2.2.2 (booting_newest 4 (.inl rfl)) (booting_newest 5 (.inr (.inl rfl)))
    (booting_image 0 (by decide)) (booting_blank 1 1 (by decide) fun k hk => ?_) (booting_image 1 (by decide)) (booting_image 2 (by decide))
    booting_compat
  obtain rfl | rfl | rfl : k = 0 ∨ k = 1 ∨ k = 2 := by omega
  all_goals simp [slotAddr, slotTable]

/-! ## An owner key -/

/-- Owner key 0 installed: the test key. -/
@[irreducible] def owned : Block := { up with se := { up.se with mram := seeded [(7, testKey)], otp := fused 112 (sha512 testKey) } }

theorem owned_mram : owned.se.mram = seeded [(7, testKey)] := by unfold owned; rfl
theorem owned_otp : owned.se.otp = fused 112 (sha512 testKey) := by unfold owned; rfl
theorem owned_rest : owned.se.wr = none ∧ owned.se.bad = [] := by unfold owned; exact ⟨rfl, rfl⟩

/-- The hash and the modulus of owner key 0 read back. -/
theorem owned_hash : owned.ownerHash 0 = sha512 testKey := fused_bytes owned 112 _ owned_otp testKey_digest_length
theorem owned_modulus : owned.ownerModulus 0 = testKey := by
  have hl := testKey_length
  have h0 : owned.slot 7 0 = readsAs testKey :=
    seeded_slot owned [] [] 7 testKey owned_mram owned_rest.1 owned_rest.2 (by decide) (by rw [hl]) (by rw [hl]; decide)
      (by rw [hl]; decide) (by rw [hl]; decide) (by simp)
  have h1 : (owned.slot 7 1).st = 0 := by
    refine seeded_blank _ _ _ _ owned_mram owned_rest.1 (by decide) fun r hr => ?_
    rw [List.mem_singleton] at hr
    subst hr
    simp [clearOf, hl, slotAddr, slotTable]
  simp only [Block.ownerModulus, newestData_slotA _ _ _ h0 h1, Option.getD_some, Nat.mul_zero, List.drop_zero, padBytes, hl, Nat.sub_self,
    List.replicate_zero, List.append_nil]
  rw [List.take_of_length_le (by omega)]

/-- Owner key 0 answers for its modulus. -/
theorem owned_ownerOk : owned.ownerOk 0 = true := by
  have hz : (sha512 testKey != List.replicate 64 0) = true := by decide +kernel
  have hr : owned.ownerRevoked 0 = false := by
    have hk := testKey_digest_length
    exact fused_fuse owned 112 _ owned_otp _ (.inr (by omega))
  rw [Block.ownerOk, Block.ownerUsed, owned_modulus, owned_hash, hr, hz, beq_self_eq_true]
  rfl

/-- A package on owner slot 0, authorised by key 0 (Table 16.5). -/
@[irreducible] def package (op : Byte) (modulus sig : Bytes) : Bytes := modulus ++ [op, 0] ++ List.replicate 14 0 ++ sig

/-- A REVOKE and a POLICY_ON, signed; a RESTORE, which needs no signature. -/
@[irreducible] def revokePackage : Bytes := padBytes 1040 (package 2 (List.replicate 512 0) sigOwner2)
@[irreducible] def policyPackage : Bytes := padBytes 1040 (package 3 (List.replicate 512 0) sigOwner3)
@[irreducible] def restorePackage : Bytes := padBytes 1040 (package 4 testKey [])

/-- The parameters of an operation on owner slot 0 with its record in host memory. -/
def ownerCmd (op : Byte) : Cmd := cmdOf 0xA [op, 0, 0]

/-- The fields of the packages that the operations check. -/
theorem package_fields :
    (field (padBytes 1040 revokePackage) 512 1 = (ownerCmd 2).par 16 1 ∧ field (padBytes 1040 revokePackage) 513 1 = (ownerCmd 2).par 17 1 ∧
      field (padBytes 1040 revokePackage) 524 1 = 0) ∧
    (field (padBytes 1040 policyPackage) 512 1 = (ownerCmd 3).par 16 1 ∧ field (padBytes 1040 policyPackage) 513 1 = (ownerCmd 3).par 17 1 ∧
      field (padBytes 1040 policyPackage) 524 1 = 0) ∧
    (field (padBytes 1040 restorePackage) 512 1 = (ownerCmd 4).par 16 1 ∧ field (padBytes 1040 restorePackage) 513 1 = (ownerCmd 4).par 17 1 ∧
      padBytes 512 (padBytes 1040 restorePackage) = testKey) := by decide +kernel

/-- The model takes OpenSSL's signatures of the two packages (R521, R522). -/
theorem test_package_signatures_verify :
    pssVerify testKey ((padBytes 1040 revokePackage).take 528) (((padBytes 1040 revokePackage).drop 528).take 512) = true ∧
    pssVerify testKey ((padBytes 1040 policyPackage).take 528) (((padBytes 1040 policyPackage).drop 528).take 512) = true := by decide +kernel

/-- A package whose key is owner key 0 and whose signature verifies is authorised. -/
theorem owned_authOk (op : Byte) (p : Bytes) (h : field p 524 1 = 0)
    (hs : pssVerify testKey (p.take 528) ((p.drop 528).take 512) = true) :
    (ring owned 0xA [op, 0, 0]).authOk (ownerOp (ownerCmd op) p) p = true := by
  have ha : (ownerOp (ownerCmd op) p).auth = 0 := h
  have hk : (ring owned 0xA [op, 0, 0]).ownerOk 0 = true := owned_ownerOk
  have hm : (ring owned 0xA [op, 0, 0]).ownerModulus 0 = testKey := owned_modulus
  rw [Block.authOk, ha, hk, hm, hs]
  rfl

/-- Owner key 0 is in use, and no owner policy is blown. -/
theorem owned_used (op : Byte) : (ring owned 0xA [op, 0, 0]).ownerUsed 0 = true := by
  have hz : (sha512 testKey != List.replicate 64 0) = true := by decide +kernel
  have hh : (ring owned 0xA [op, 0, 0]).ownerHash 0 = sha512 testKey := owned_hash
  rw [Block.ownerUsed, hh, hz]
theorem owned_policy (op : Byte) : ((ring owned 0xA [op, 0, 0]).verified true).fuse 2950 = false := by
  have hk := testKey_digest_length
  exact fused_fuse owned 112 _ owned_otp _ (.inr (by omega))
theorem owned_runs : ∀ op ∈ [(2 : Byte), 3, 4], (ring owned 0xA [op, 0, 0]).startable 1 0xA = some (ownerCmd op) ∧
    (ring owned 0xA [op, 0, 0]).pw.state = .ready := by
  unfold owned
  decide +kernel

/-- The RESTORE package carries the modulus whose hash is held. -/
theorem owned_restores :
    (sha512 (ownerOp (ownerCmd 4) (padBytes 1040 restorePackage)).modulus ==
      (ring owned 0xA [4, 0, 0]).ownerHash (ownerOp (ownerCmd 4) (padBytes 1040 restorePackage)).slot) = true := by
  have hm : (ownerOp (ownerCmd 4) (padBytes 1040 restorePackage)).modulus = testKey := package_fields.2.2.2.2
  have hh : (ring owned 0xA [4, 0, 0]).ownerHash (ownerOp (ownerCmd 4) (padBytes 1040 restorePackage)).slot = sha512 testKey := owned_hash
  rw [hm, hh, beq_self_eq_true]

/-! ## Well-formed commands -/

/-- A link with every field 0. -/
def link0 : LinkState :=
  { gen := 0, x2 := false, state := 0, enumerated := false, pcie := false, dp0 := false, dp1 := false, bwMode := false, bw := 0 }

/-- A configuration space with every field 0. -/
def pcie0 : PcieCfg := { payload := 0, readReq := 0, master := false, msix := false, funcMask := false, vecMask := 0, bars := [0, 0, 0], msgs := [] }

/-- A timing with every field 0. -/
def timing0 : DpTiming :=
  { hact := 0, htot := 0, vact := 0, vtot := 0, khz := 0, fmt := 0, bpc := 0, dsc := false, bpp16 := 0, slices := 0, lanes := 0, rate := 0,
    fec := false }

/-- A USB 2.0 request with every field 0. -/
def usb0 : UsbRequest := { op := 0, tag := 0, offset := 0, len := 0, data := [] }

/-- Each check of `Instr.wf` refuses a command with one operand just outside what the block has (1). -/
theorem test_ill_formed_refused_1 : (
    [.slotStart 4 [], .kerfEnd 4 false false, .lastDwellEnd 4 [], .planeLoadStart 4, .planeLoadEnd 4, .fifoUnderrun 4,
      .measureWindowClose 4 127 65535 65535 0 0, .measureWindowClose 3 128 65535 65535 0 0,
      .measureWindowClose 3 127 65536 65535 0 0, .measureWindowClose 3 127 65535 65536 0 0, .offsetWindowClose 8 3 65535 0,
      .offsetWindowClose 7 4 65535 0, .offsetWindowClose 7 3 65536 0, .loopSample 128 0 0, .wheelFault 2 0, .thermCeilingLost 5,
      .overCurrentTrip 48, .faultInput 48, .spareTakeover 5, .coldSpareHot 2112, .probeDue 2112, .probeRun 5 [], .probeStarved 2112,
      .chainTableLoad 4, .chainShiftDone 4 [], .chainEnum 4 0 []] : List Instr).all (fun i => !i.wf) = true := by
  decide +kernel

/-- Each check of `Instr.wf` refuses a command with one operand just outside what the block has (2). -/
theorem test_ill_formed_refused_2 : (
    [.chainEnumRetry 4 0 [], .pageCommitReq 64 false, .pageCommitAbort 64, .registerWrite 0x40000 0, .registerWrite 2 0,
      .windowWrite 0x4000000 (List.replicate 128 0), .windowWrite 0x3ffffff (List.replicate 129 0), .windowDataAccess 0x40000 none,
      .windowDataAccess 2 none, .tallySnapLoRead 64, .pageEnableWrite 64 false, .softReset 64, .softResetDone 64,
      .pageFreeze 64 false, .pageLockWrite 64 0, .intStatusClear 64 0, .intForce 64 0, .cmdFetchFault 3, .cmdFetchFault 6,
      .porstNRelease 4, .railOutOfTolerance 12, .railsRestored 4, .fabricResetReq 4 0 [],
      .usb4LinkChange { link0 with gen := 2, state := 3, bw := 0xffff }, .usb4LinkChange { link0 with gen := 3, state := 2, bw := 0xffff },
      .usb4LinkChange { link0 with gen := 2, state := 2, bw := 0x100000000 }, .unsupportedOffer 0 0, .unsupportedOffer 10 0,
      .unsupportedOffer 1 2, .pciePowerStateChange false { pcie0 with payload := 2 }, .pciePowerStateChange false { pcie0 with readReq := 3 },
      .pciePowerStateChange false { pcie0 with vecMask := 2 ^ 64 }] : List Instr).all (fun i => !i.wf) = true := by
  decide +kernel

/-- Each check of `Instr.wf` refuses a command with one operand just outside what the block has (3). -/
theorem test_ill_formed_refused_3 : (
    [.dpFrameStart 2, .dpFrameSealed 2 [] [] none, .dpFrameAbandoned 2, .dpTimingChange 2 timing0, .dscPpsRefused 2,
      .panelReplayEntry 2, .panelReplayUpdate 2,
      .usb2Request { usb0 with op := 256, tag := 0xffff, offset := 0xffffffff, len := 0xffffffff },
      .usb2Request { usb0 with op := 255, tag := 0x10000, offset := 0xffffffff, len := 0xffffffff },
      .usb2Request { usb0 with op := 255, tag := 0xffff, offset := 0x100000000, len := 0xffffffff },
      .usb2Request { usb0 with op := 255, tag := 0xffff, offset := 0xffffffff, len := 0x100000000 }, .skdChTailWrite 16 0,
      .skdDescriptorStart 4 [], .skdPreempt 4 0 [] [], .skdFault 4 0 0 false [], .skdHostTimeout 4 0 false [],
      .skdDescDone 4 [] false, .skdOpResume 16, .skdOpSkip 16, .skdOpAbort 16 [], .skdOpResync 16, .skdChEnable 16 0 [], .surfDefine 64,
      .surfOpen 64, .surfClose 64, .cmpOver 8] : List Instr).all (fun i => !i.wf) = true := by
  decide +kernel

/-- Each check of `Instr.wf` refuses a command with one operand just outside what the block has (4). -/
theorem test_ill_formed_refused_4 : (
    [.pictureLate 4, .ident 4 [], .linkStatus 4 2 0 0 false, .linkStatus 3 3 0 0 false, .planeAck 4 127 23 0 0 0 0,
      .planeAck 3 128 23 0 0 0 0, .planeAck 3 127 24 0 0 0 0, .arrayTemp 4 0, .arrayStatus 4 0 0 0, .echoReply 4 [],
      .backchannelBadMessage 4, .ackMissing 4 127, .ackMissing 3 128, .bcLost 4, .bcLostLong 4, .maRdyNLow 4, .arrayReset 4,
      .maRetrain 4, .maIdentReq 4, .trainingAttemptTimeout 4, .darkTrainingTimeout 4, .lockLoss 3, .beamCut 0, .beamCut 6,
      .tsConversion (List.replicate 15 0), .ntcConversion 8 0] : List Instr).all (fun i => !i.wf) = true := by
  decide +kernel

/-- Each check of `Instr.wf` refuses a command with one operand just outside what the block has (5). -/
theorem test_ill_formed_refused_5 : (
    [.zeroCrossing 65536 0, .zeroCrossing 0 65536, .firebreakLaser 12, .pairFreqChange 12, .dramFreqWait 12, .slackSample 12 0 [],
      .refreshDue 24 false, .refreshRatePoll 24 0 false, .driftTrim 24 0, .dramScrubRead 3, .selfRefreshEntry 12,
      .selfRefreshExit 12 false, .pairOutOfService 12, .seedScrubRead 3, .jtagNewChallenge (List.replicate 31 0),
      .fabricFrameReceived 4 [] 0 0, .linkCtrl 4 [], .linkCtrlSend 4, .retryTimeout 4, .fabricLinkUp 4 [], .creditAudit 4 [],
      .alignmentTimeout 4, .moduleInserted 4 0 0, .modulePoll 4 0 0 false false, .hello 4 [], .helloSend 4,
          .neighbourDown 4 false] : List Instr).all (fun i => !i.wf) = true := by
  decide +kernel

/-- Each check of `Instr.wf` refuses a command with one operand just outside what the block has (6). -/
theorem test_ill_formed_refused_6 : (
    [.lsa 4 [], .assign 4 [], .altFailover 4, .sync 4 [] 0, .pdelayExchange 4 2 0 0 0 0 0, .pdelayExchange 3 3 0 0 0 0 0,
      .admitStream 4 [] none false [], .admitRetry 4 [], .bootReq 4 [], .cueContextWrite 262144 7 0,
      .cueContextWrite 262143 8 0, .chkStart 8 0, .chkFeed 8 0, .chkMem 8 0, .chkMemDone 8, .chkFinish 8 0,
      .chkParameterWrite 8 false 0, .tallyWrap 64, .safetyInput 3 false, .refclkRecovered 4, .bcRegained 4, .moduleRemoved 4,
      .xtal25Recovered 4] : List Instr).all (fun i => !i.wf) = true := by
  decide +kernel

/-- A command with every operand at the last value the block has is well formed (1). -/
theorem test_last_operands_accepted_1 : (
    [.slotStart 3 [], .kerfEnd 3 false false, .lastDwellEnd 3 [], .planeLoadStart 3, .planeLoadEnd 3, .fifoUnderrun 3,
      .measureWindowClose 3 127 65535 65535 0 0, .offsetWindowClose 7 3 65535 0, .loopSample 127 0 0, .wheelFault 1 0,
      .thermCeilingLost 4, .overCurrentTrip 47, .faultInput 47, .spareTakeover 4, .coldSpareHot 2111, .probeDue 2111, .probeRun 4 [],
      .probeStarved 2111, .chainTableLoad 3, .chainShiftDone 3 [], .chainEnum 3 0 [], .chainEnumRetry 3 0 [],
      .pageCommitReq 63 false, .pageCommitAbort 63, .registerWrite 0x3FFFC 0,
          .windowWrite 0x3ffffff (List.replicate 128 0)] : List Instr).all Instr.wf = true := by
  decide +kernel

/-- A command with every operand at the last value the block has is well formed (2). -/
theorem test_last_operands_accepted_2 : (
    [.windowDataAccess 0x3FFFC none, .tallySnapLoRead 63, .pageEnableWrite 63 false, .softReset 63, .softResetDone 63,
      .pageFreeze 63 false, .pageLockWrite 63 0, .intStatusClear 63 0, .intForce 63 0, .cmdFetchFault 5, .porstNRelease 3,
      .railOutOfTolerance 11, .railsRestored 3, .fabricResetReq 3 0 [],
      .usb4LinkChange { link0 with gen := 2, state := 2, bw := 0xffffffff }, .unsupportedOffer 9 1,
      .pciePowerStateChange true { pcie0 with payload := 1, readReq := 2, vecMask := 2 ^ 64 - 1 }, .dpFrameStart 1, .dpFrameSealed 1 [] [] none,
      .dpFrameAbandoned 1, .dpTimingChange 1 timing0, .dscPpsRefused 1, .panelReplayEntry 1, .panelReplayUpdate 1,
      .usb2Request { usb0 with op := 255, tag := 0xffff, offset := 0xffffffff, len := 0xffffffff }, .skdChTailWrite 15 0,
      .skdDescriptorStart 3 [], .skdPreempt 3 0 [] []] : List Instr).all Instr.wf = true := by
  decide +kernel

/-- A command with every operand at the last value the block has is well formed (3). -/
theorem test_last_operands_accepted_3 : (
    [.skdFault 3 0 0 false [], .skdHostTimeout 3 0 false [], .skdDescDone 3 [] false, .skdOpResume 15, .skdOpSkip 15,
      .skdOpAbort 15 [], .skdOpResync 15, .skdChEnable 15 0 [], .surfDefine 63, .surfOpen 63, .surfClose 63, .cmpOver 7, .pictureLate 3,
      .ident 3 [], .linkStatus 3 2 0 0 false, .planeAck 3 127 23 0 0 0 0, .arrayTemp 3 0, .arrayStatus 3 0 0 0, .echoReply 3 [],
      .backchannelBadMessage 3, .ackMissing 3 127, .bcLost 3, .bcLostLong 3, .maRdyNLow 3, .arrayReset 3,
          .maRetrain 3] : List Instr).all Instr.wf = true := by
  decide +kernel

/-- A command with every operand at the last value the block has is well formed (4). -/
theorem test_last_operands_accepted_4 : (
    [.maIdentReq 3, .trainingAttemptTimeout 3, .darkTrainingTimeout 3, .lockLoss 2, .beamCut 5,
      .tsConversion (List.replicate 16 0), .ntcConversion 7 0, .laserModelUpdate, .zeroCrossing 65535 65535, .firebreakLaser 11,
      .pairFreqChange 11, .dramFreqWait 11, .slackSample 11 0 [], .refreshDue 23 false, .refreshRatePoll 23 0 false, .driftTrim 23 0,
      .dramScrubRead 2, .selfRefreshEntry 11, .selfRefreshExit 11 false, .pairOutOfService 11, .seedScrubRead 2,
      .jtagNewChallenge (List.replicate 32 0), .fabricFrameReceived 3 [] 0 0, .linkCtrl 3 [], .linkCtrlSend 3, .retryTimeout 3,
      .fabricLinkUp 3 []] : List Instr).all Instr.wf = true := by
  decide +kernel

/-- A command with every operand at the last value the block has is well formed (5). -/
theorem test_last_operands_accepted_5 : (
    [.creditAudit 3 [], .alignmentTimeout 3, .moduleInserted 3 0 0, .modulePoll 3 0 0 false false, .hello 3 [], .helloSend 3,
      .neighbourDown 3 false, .lsa 3 [], .assign 3 [], .altFailover 3, .sync 3 [] 0, .pdelayExchange 3 2 0 0 0 0 0,
      .admitStream 3 [] none false [], .admitRetry 3 [], .bootReq 3 [], .cueContextWrite 262143 7 0, .chkStart 7 0,
      .chkFeed 7 0, .chkMem 7 0, .chkMemDone 7, .chkFinish 7 0, .chkParameterWrite 7 false 0, .tallyWrap 63, .safetyInput 2 false,
      .refclkRecovered 3, .bcRegained 3] : List Instr).all Instr.wf = true := by
  decide +kernel

/-- A command with every operand at the last value the block has is well formed (6). -/
theorem test_last_operands_accepted_6 : (
    [.moduleRemoved 3, .xtal25Recovered 3] : List Instr).all Instr.wf = true := by
  decide +kernel

/-! ## Worked examples -/

/-- The bytes of the check values of Table 19.2. -/
def digits : Bytes := [0x31, 0x32, 0x33, 0x34, 0x35, 0x36, 0x37, 0x38, 0x39]

/-- Table 19.2: CRC-32C. -/
theorem test_crc32c : crc32c digits = 0xE3069283 := by decide +kernel

/-- Table 19.2: CRC-32. -/
theorem test_crc32 : crc32 digits = 0xCBF43926 := by decide +kernel

/-- Table 19.2: CRC-16 of SML and the chains. -/
theorem test_crc16 : crc16 digits = 0x29B1 := by decide +kernel

/-- Table 19.2: CRC-64, by the general procedure of R607. -/
theorem test_crc64 :
    crcEnd 64 true (2 ^ 64 - 1) (crcFold 64 0x42F0E1EBA9EA3693 true (2 ^ 64 - 1) digits) = 0x995DC9BBDF1939FA := by decide +kernel

/-- Table 19.2: CRC-8, by the general procedure of R607. -/
theorem test_crc8 : crcEnd 8 false 0 (crcFold 8 0x07 false 0 digits) = 0xF4 := by decide +kernel

/-- The example after R50: the boundaries at 120 Hz. -/
theorem test_boundaries_at_120_hz :
    (up.fbAt 1, up.fbAt 2, up.fbAt 3, up.fbAt 1000000) = (8333333, 16666666, 25000000, 8333333333333) := by decide +kernel

/-- The example after R50: FB_24000 at 23.976 Hz is 1,001 s. -/
theorem test_boundary_at_23_976_hz :
    ({ up with tm := { up.tm with num := 125125000, den := 3 } } : Block).fbAt 24000 = 1001000000000 := by decide +kernel

/-- R48: a boundary adds one to the FSN, and the next boundary is the second of the series. -/
theorem test_frame_boundary : (effect .frameBoundary up).tm.fsn = 1 ∧ (effect .frameBoundary up).tm.nextK = 2 := by decide +kernel

/-- R95: forcing a bit whose enable is set sends the page's message. -/
theorem test_forced_interrupt_sends_its_message :
    (effect (.intForce 5 1) (messaging.setReg (R.INT_ENABLE 5) 1)).out = [.msix 5] := by decide +kernel

/-- R92: a value outside its legal range is not stored, and the page's ERR_CAUSE says so. -/
theorem test_illegal_value_is_refused :
    (effect (.registerWrite R.TIME_CTRL 0) up).reg R.TIME_CTRL = up.reg R.TIME_CTRL ∧
    (effect (.registerWrite R.TIME_CTRL 0) up).reg (R.ERR_CAUSE 7) ≠ 0 := by decide +kernel

/-- R137: in LIT the key without FORCE does nothing but record the refusal. -/
theorem test_warm_reset_without_force : (effect (.warmReset 0x57520001) (on .lit)).pw.state = .lit := by decide +kernel

/-- R669: GO starts an invalidation. -/
theorem test_invalidation_starts : (effect (.dtuInvGo 1) up).dt.inv.isSome = true := by decide +kernel

/-- R574: an armed context keeps its words, and the refusal is counted. -/
theorem test_armed_context_is_protected :
    (effect (.cueContextWrite 0 0 7) (up.setCtx 0 armed)).ctx 0 = armed ∧
    (effect (.cueContextWrite 0 0 7) (up.setCtx 0 armed)).reg R.CUE_WRITE_REFUSED = 1 := by decide +kernel

/-- LIT, with every safety input permitting light. -/
def showing : Block := { on .lit with pins := { up.pins with ilkInN := false, laserEnN := false, estopN := true } }

/-- Table 20.5: an opened interlock takes LIT to SAFE with reason 0x04, and opens one record. -/
theorem test_interlock_opened_during_a_show :
    (effect (.safetyInput 0 false) showing).pw.state = .safe ∧ (effect (.safetyInput 0 false) showing).pw.reason = 4 ∧
    (effect (.safetyInput 0 false) showing).fl.recs.length = 1 := by decide +kernel

/-- R85: a write of the host to device memory through an open window lands at the byte it names. -/
theorem test_window_write_lands :
    (effect (.windowWrite 4 [0xAB]) ((up.setReg R.DEV_WIN_CTRL 1).setReg R.DEV_WIN_BASE_HI 7)).memB 0x700000004 = 0xAB := by decide +kernel

/-- The table gives no bits, so no word spells a command (log entry 1). -/
theorem test_no_word_spells_a_command : decodeTableWord 32 0x12345678 = none := by decide +kernel

/-- R112: two commands take effect in the order they came. -/
theorem test_queue_is_first_in_first_out :
    effects [.timeFtSetHiWrite 1, .timeFtSetHiWrite 2] up = { up with tm := { up.tm with ftSetHi := 2 } } := by decide +kernel

/-- The log's own choice of entry 4: with no command waiting, one nanosecond passes. -/
theorem test_empty_queue_lets_time_pass : ∃ t : State, step upState = .next t ∧ t.now = 1 ∧ t.tm.ft = 1 :=
  ⟨⟨up.advance 1, []⟩, rfl, by decide +kernel⟩

/-! ## Witnesses: completion -/

/-- States and operands that meet the hypotheses of each clause of `FrameAndCommitCommandsRun`. -/
theorem witness_FrameAndCommitCommandsRun :
    (∃ (s : Block), s.tm.run = true) ∧
    (∃ (s : Block), s.tm.run = true ∧ s.tm.cutoffDone = false) ∧
    (∃ (s : Block) (p : Nat), s.hostOk = true ∧ shPages.contains p = true) ∧
    (∃ (s : Block), s.hostOk = true) :=
  ⟨⟨up, by decide +kernel⟩,
    ⟨up, by decide +kernel⟩,
    ⟨up, 5, by decide +kernel⟩,
    ⟨up, by decide +kernel⟩⟩

/-- States and operands that meet the hypotheses of each clause of `TimeCommandsRun`. -/
theorem witness_TimeCommandsRun :
    (∃ (s : Block), s.hostOk = true) ∧
    (∃ (s : Block), s.hostOk = true ∧ s.tm.run = true) ∧
    (∃ (s : Block) (n : Nat) (c : TallyCnt), s.hostOk = true ∧ s.ty.cnt[n]? = some c) ∧
    (∃ (s : Block), s.hostOk = true ∧ s.tm.run = true ∧ s.ftSettable = true) ∧
    (∃ (s : Block) (v : Word) (r : RegRow), s.hostOk = true ∧ rowAt R.TIME_CTRL = some r ∧ bit (s.reg (R.PAGE_LOCK (pageOf R.TIME_CTRL)))
    0 = false ∧ r.legalVal (r.merge (s.reg R.TIME_CTRL) v) = true) ∧
    (∃ (s : Block) (at_ : Nat), s.tm.src = .wipex ∧ s.tm.fabricLast = some at_ ∧ s.tm.run = true ∧ (s.advance (at_ + s.lossBound .wipex -
    s.now)).tm.src = .wipex) ∧
    (∃ (s : Block) (u : Block) (at_ : Nat), s.tm.run = true ∧ s.fld R.TIME_CTRL 0 2 = 0 ∧ s.tm.fabricSince = some at_ ∧ s.above .wipex =
    true ∧ s.qualified .wipex = true ∧ u = s.advance (at_ + s.fld R.TIME_SRC_QUALIFY 0 16 * 1000000 - s.now) ∧ u.qualified .wipex = true) ∧
    (∃ (s : Block) (after : Nat), (s.advance after).tm.run = true ∧ ((s.advance after).fld R.TIME_CTRL 2 2 = 1 ∨ (s.advance after).fld
    R.TIME_CTRL 2 2 = 2)) ∧
    (∃ (s : Block), s.tm.tcValid = true) ∧
    (∃ (s : Block) (cseq : Word) (c : Cmd), s.startable cseq 0x000B = some c ∧ tcOk (s.fld R.TIME_TC_CFG 0 2) (w32 (c.par 16 4)) = true ∧
    s.fld R.TIME_TC_CFG 2 2 = 2 ∧ (s.tcAnchor (w32 (c.par 16 4)) (c.par 24 8)).fabOn = false) :=
  ⟨⟨up, by decide +kernel⟩,
    ⟨up, by decide +kernel⟩,
    ⟨up, 3, { count := 0, snap := 0, wrapped := false, snapWrap := false }, by decide +kernel⟩,
    ⟨{ up with tm := { up.tm with src := .refclk } }, by decide +kernel⟩,
    ⟨up, 2560, (rowAt R.TIME_CTRL).get (by decide +kernel), by decide +kernel⟩,
    ⟨{ up with tm := { up.tm with fabricLast := some 0 } }, 0, by decide +kernel⟩,
    ⟨heardAgain, heardAgain.advance (0 + heardAgain.fld R.TIME_SRC_QUALIFY 0 16 * 1000000 - heardAgain.now), 0, by decide +kernel⟩,
    ⟨up.setReg R.TIME_CTRL 4, 0, by decide +kernel⟩,
    ⟨{ up with tm := { up.tm with tcValid := true } }, by decide +kernel⟩,
    ⟨ring (up.setReg R.TIME_TC_CFG 8) 0xB [0, 0, 0, 0], 1, cmdOf 0xB [0, 0, 0, 0], by decide +kernel⟩⟩

/-- States and operands that meet the hypotheses of each clause of `RegisterAccessCommandsRun`. -/
theorem witness_RegisterAccessCommandsRun :
    (∃ (s : Block) (a : Nat), s.hostOk = true ∧ a % 4 = 0) ∧
    (∃ (s : Block) (a : Nat), s.hostOk = true ∧ a % 8 = 0) ∧
    (∃ (s : Block) (a : Nat) (size : Nat), s.hostOk = true ∧ ¬ (size = 4 ∧ a % 4 = 0) ∧ ¬ (size = 8 ∧ a % 8 = 0)) ∧
    (∃ (s : Block), s.hostOk = true) ∧
    (∃ (s : Block) (a : Nat) (d : Nat), s.hostOk = true ∧ windowReg a = some (d, false)) ∧
    (∃ (s : Block) (a : Nat) (d : Nat) (act : Bool), s.hostOk = true ∧ windowReg a = some (d, act)) ∧
    (∃ (s : Block) (p : Nat), s.hostOk = true ∧ ¬ 0x2C < p ∧ bit (s.reg (R.PAGE_LOCK p)) 0 = false ∧ s.disableRefused p = false) ∧
    (∃ (s : Block) (p : Nat), s.hostOk = true ∧ ¬ 0x2C < p ∧ bit (s.reg (R.PAGE_LOCK p)) 0 = false ∧ s.resetRefused p = false ∧
    ((s.cm.list.filter fun c => !(c.stage == .pending && natBit c.pages p)).any fun c => natBit c.pages p) = false) ∧
    (∃ (s : Block) (p : Nat), ¬ 0x2C < p ∧ bit (s.reg (R.PAGE_CTRL p)) 1 = true ∧ s.cm.resetWait.contains p = false) ∧
    (∃ (s : Block) (p : Nat), s.hostOk = true ∧ ¬ 0x2C < p ∧ bit (s.reg (R.PAGE_LOCK p)) 0 = false) ∧
    (∃ (s : Block) (p : Nat), s.hostOk = true ∧ ¬ 0x2C < p ∧ bit (s.reg (R.PAGE_LOCK p)) 0 = false ∧ bit (s.reg (R.PAGE_CTRL p)) 2 =
    false) ∧
    (∃ (s : Block) (p : Nat), s.hostOk = true ∧ ¬ 0x2C < p ∧ bit (s.reg (R.PAGE_LOCK p)) 1 = false) ∧
    (∃ (s : Block) (p : Nat), s.hostOk = true ∧ ¬ 0x2C < p) :=
  ⟨⟨up, 0x1000, by decide +kernel⟩,
    ⟨up, 0x1000, by decide +kernel⟩,
    ⟨up, 0x1001, 4, by decide +kernel⟩,
    ⟨up, by decide +kernel⟩,
    ⟨up, R.SEQ_CAL_DATA, R.SEQ_CAL_DATA, by decide +kernel⟩,
    ⟨up, R.SEQ_CAL_DATA + 0x800, R.SEQ_CAL_DATA, true, by decide +kernel⟩,
    ⟨up, 4, by decide +kernel⟩,
    ⟨up, 4, by decide +kernel⟩,
    ⟨up.setReg (R.PAGE_CTRL 4) 3, 4, by decide +kernel⟩,
    ⟨up, 0x2C, by decide +kernel⟩,
    ⟨up, 0x2C, by decide +kernel⟩,
    ⟨up, 4, by decide +kernel⟩,
    ⟨up, 0x2C, by decide +kernel⟩⟩

/-- States and operands that meet the hypotheses of each clause of `HostLinkCommandsRun`. -/
theorem witness_HostLinkCommandsRun :
    (∃ (code : Nat), code ≠ 0 ∧ ¬ 9 < code ∧ code ≠ 6) ∧
    (∃ (s : Block) (a : Nat), ¬ 2 ≤ a ∧ s.fld (R.HOST_DP_STATUS a) 0 3 = 3 ∧ bit (s.dpCaps a) 9 = true) ∧
    (∃ (s : Block) (a : Nat), ¬ 2 ≤ a ∧ s.hs.prIn.getD a false = true) ∧
    (∃ (s : Block), (s.setFld R.HOST_STATUS 2 1 0).hostOk = true) ∧
    (∃ (s : Block), ¬ (s.summary false = s.hs.sum0 ∧ s.summary true = s.hs.sum1) ∧ s.hs.usbAt ≠ some (s.now / 125000)) ∧
    (∃ (s : Block), s.holdable = true) :=
  ⟨⟨4, by decide +kernel⟩,
    ⟨{ up.setReg (R.HOST_DP_STATUS 1) 3 with hs := { up.hs with dpCfg := [0x334, 0x334] } }, 1, by decide +kernel⟩,
    ⟨{ up with hs := { up.hs with prIn := [true, true] } }, 1, by decide +kernel⟩,
    ⟨up.setReg R.HOST_STATUS 4, by decide +kernel⟩,
    ⟨{ up with hs := { up.hs with sum0 := 5 } }, by decide +kernel⟩,
    ⟨up, by decide +kernel⟩⟩

/-- States and operands that meet the hypotheses of each clause of `PowerCommandsRun`. -/
theorem witness_PowerCommandsRun :
    (∃ (s : Block), s.pw.state = .off) ∧
    (∃ (s : Block), s.pw.state ≠ .off) ∧
    (∃ (s : Block), s.pw.state ≠ .off ∧ s.pw.state ≠ .aon ∧ s.pw.coreGated = false) ∧
    (∃ (s : Block), s.pw.state = .aon ∧ s.pw.heldReset = false ∧ s.pw.coreGated = false ∧ s.clocksOk = true) ∧
    (∃ (s : Block) (rail : Nat), ¬ 12 ≤ rail ∧ s.holdable = true) ∧
    (∃ (s : Block), s.pw.state = .aon ∧ s.pw.heldReset = true) ∧
    (∃ (s : Block) (v : Word), s.hostOk = true ∧ bits v 16 16 = 0x5752 ∧ bit v 0 = true ∧ s.pw.state.lightOn = false) ∧
    (∃ (s : Block) (v : Word), s.hostOk = true ∧ bits v 16 16 = 0x5752 ∧ bit v 0 = true ∧ bit v 1 = true) ∧
    (∃ (s : Block) (p : Nat) (d : Bytes), s.fabOn = true ∧ ¬ 4 ≤ p ∧ padBytes 8 d = s.uidBytes ∧ bit (s.reg R.PWR_FABRIC_RESET) 0 = true ∧
    s.afld R.WPX_ADMIT_CFG 0 2 = 0 ∧ s.pw.state.lightOn = false) ∧
    (∃ (s : Block), s.pw.pfAsserted = false ∧ s.pw.state ≠ .off ∧ s.pw.state ≠ .aon ∧ s.pw.coreGated = false ∧ s.se.wr = none) ∧
    (∃ (s : Block), s.pw.pfAsserted = true ∧ s.pw.pfActed = false ∧ s.pw.coreGated = false ∧ (s.advance (s.pw.pfSince + s.fld R.PWR_PF_CFG 0
    8 * 1000 - s.now)).pw.state = .lit) ∧
    (∃ (s : Block), s.pw.pfAsserted = true ∧ s.pw.pfActed = false) ∧
    (∃ (s : Block), s.pw.pfRecovering = true ∧ s.pw.pfAsserted = false) :=
  ⟨⟨on .off, by decide +kernel⟩,
    ⟨up, by decide +kernel⟩,
    ⟨up, by decide +kernel⟩,
    ⟨on .aon, by decide +kernel⟩,
    ⟨up, 3, by decide +kernel⟩,
    ⟨{ on .aon with pw := { (on .aon).pw with heldReset := true } }, by decide +kernel⟩,
    ⟨up, 0x57520001, by decide +kernel⟩,
    ⟨on .lit, 0x57520003, by decide +kernel⟩,
    ⟨(live up R.WPX_CFG 1).setReg R.PWR_FABRIC_RESET 1, 0, up.uidBytes, by decide +kernel⟩,
    ⟨up, by decide +kernel⟩,
    ⟨{ on .lit with pw := { (on .lit).pw with pfAsserted := true } }, by decide +kernel⟩,
    ⟨{ up with pw := { up.pw with pfAsserted := true } }, by decide +kernel⟩,
    ⟨{ up with pw := { up.pw with pfRecovering := true } }, by decide +kernel⟩⟩

/-- States and operands that meet the hypotheses of each clause of `BootAndFirmwareCommandsRun`. -/
theorem witness_BootAndFirmwareCommandsRun :
    (∃ (s : Block), s.pw.state = .boot ∧ s.bootSource ≠ 1) ∧
    (∃ (s : Block) (s1 : Option Nat) (hk : Nat) (sv : Nat), s.pw.state = .boot ∧ s.bootPick = some (s1, hk, sv)) ∧
    (∃ (s : Block) (cseq : Word) (host : Option Bytes) (c : Cmd) (t : Block) (bs : List Byte), s.startable cseq 4 = some c ∧ c.par 16 1 ≤
    2 ∧ c.par 17 1 ≤ 2 ∧ 1152 ≤ c.par 20 4 ∧ c.par 20 4 ≤ slotSize (c.par 16 1 + 1) - 32 ∧ s.bt.fwStage = none ∧ (c.par 17 1 = 1 ∨
    host.isSome = true) ∧ s.readBuf (c.par 17 1 == 1) (c.par 24 8) (c.par 20 4) (host.getD []) = (t, some bs)) ∧
    (∃ (s : Block) (cseq : Word) (c : Cmd), s.startable cseq 5 = some c ∧ c.par 16 1 = 1 ∧ (((c.param.take 16).drop 1).any (· != 0)) =
    false ∧ s.bt.hk.ready = true) ∧
    (∃ (s : Block) (cseq : Word) (c : Cmd), s.startable cseq 5 = some c ∧ c.par 16 1 = 2 ∧ (((c.param.take 16).drop 1).any (· != 0)) =
    false ∧ s.pw.stateSet = none ∧ s.pw.state = .standby ∧ s.bt.sv.ready = true) ∧
    (∃ (s : Block) (cseq : Word) (c : Cmd), s.startable cseq 5 = some c ∧ c.par 16 1 = 3 ∧ (((c.param.take 16).drop 1).any (· != 0)) =
    false ∧ ¬ s.runningRollback ≤ s.fld R.BOOT_ROLLBACK 0 7 ∧ ¬ 64 < s.runningRollback) ∧
    (∃ (s : Block) (h : HkRestart), s.bt.hkRestart = some h ∧ s.bt.hk.trial = true ∧ ¬ h.since + 300000000 < s.now) ∧
    (∃ (s : Block) (h : HkRestart), s.bt.hkRestart = some h ∧ s.bt.hk.trial = true) ∧
    (∃ (s : Block), s.bt.svTrial = false ∧ s.fl.svSelfTest = true) ∧
    (∃ (s : Block) (v : Word), s.hostOk = true ∧ bits v 16 16 = 0x4852 ∧ s.hkMay = true) ∧
    (∃ (s : Block), s.hkMay = true) ∧
    (∃ (s : Block), s.bt.hk.trial = false) ∧
    (∃ (s : Block) (h : HkRestart), s.bt.hkRestart = some h ∧ s.bt.mgmtLost = false) :=
  ⟨⟨booting, booting_rest.2.2.1, by rw [booting_rest.2.2.2]; decide⟩,
    ⟨booting, some 0, 0, 0, booting_rest.2.2.1, test_boot_picks⟩,
    ⟨ring up 4 [0, 0, 0, 0, 0x80, 4, 0, 0], 1, some [], cmdOf 4 [0, 0, 0, 0, 0x80, 4, 0, 0], ring up 4 [0, 0, 0, 0, 0x80, 4, 0, 0],
    padBytes ((cmdOf 4 [0, 0, 0, 0, 0x80, 4, 0, 0]).par 20 4) [], by decide +kernel⟩,
    ⟨ring { up with bt := { up.bt with hk := staged } } 5 [1], 1, cmdOf 5 [1], by decide +kernel⟩,
    ⟨ring { on .standby with bt := { up.bt with sv := staged } } 5 [2], 1, cmdOf 5 [2], by decide +kernel⟩,
    ⟨ring recovered 5 [3], 1, cmdOf 5 [3], by decide +kernel⟩,
    ⟨{ up with bt := { up.bt with hkRestart := some ⟨0, 0, none⟩, hk := { up.bt.hk with trial := true } } }, ⟨0, 0, none⟩,
    by decide +kernel⟩,
    ⟨{ up with bt := { up.bt with hkRestart := some ⟨0, 0, none⟩, hk := { staged with trial := true } } }, ⟨0, 0, none⟩,
    by decide +kernel⟩,
    ⟨{ up with fl := { up.fl with svSelfTest := true } }, by decide +kernel⟩,
    ⟨up, 0x48520000, by decide +kernel⟩,
    ⟨up, by decide +kernel⟩,
    ⟨up, by decide +kernel⟩,
    ⟨{ up with bt := { up.bt with hkRestart := some ⟨0, 0, none⟩ } }, ⟨0, 0, none⟩, by decide +kernel⟩⟩

/-- States and operands that meet the hypotheses of each clause of `StateSetAndBringUpCommandsRun`. -/
theorem witness_StateSetAndBringUpCommandsRun :
    (∃ (s : Block) (cseq : Word) (c : Cmd), s.startable cseq 3 = some c ∧ s.ssRow c = 0 ∧ ¬ 32 ≤ c.ssMask ∧ s.pw.stateSet = none ∧
    s.pw.state = .standby ∧ (s.fl.recs.any fun e => e.2.isOpen && e.2.page == 0x02 && e.2.code == 0x193) = false) ∧
    (∃ (s : Block) (cseq : Word) (c : Cmd), s.startable cseq 3 = some c ∧ s.ssRow c = 1 ∧ ¬ 32 ≤ c.ssMask ∧ s.pw.stateSet = none ∧
    s.pw.state = .ready) ∧
    (∃ (s : Block) (cseq : Word) (c : Cmd), s.startable cseq 3 = some c ∧ s.ssRow c = 2 ∧ ¬ 32 ≤ c.ssMask ∧ s.pw.stateSet = none ∧
    s.mayLight = true ∧ (maskBits 5 c.ssMask).any s.groupLacks = false ∧ ((maskBits 5 c.ssMask).all fun g => (s.grp g).lit && !(s.grp
    g).starting) = false) ∧
    (∃ (s : Block) (cseq : Word) (c : Cmd), s.startable cseq 3 = some c ∧ s.ssRow c = 3 ∧ ¬ 32 ≤ c.ssMask ∧ s.pw.stateSet = none) ∧
    (∃ (s : Block) (hw : List (Nat × Nat)) (o : StateSetOp), s.bringing = some o ∧ s.unitsFailed ++ (hw.map fun u => (u.1, u.2, 0)) ≠ []) ∧
    (∃ (p : Nat), p < 4) ∧
    (∃ (s : Block) (c : Nat) (n : Nat), s.enumAllowed c = true ∧ n ≤ 64) ∧
    (∃ (s : Block) (c : Nat) (n : Nat), c < 4 ∧ (s.chn c).st = 4 ∧ (s.chn c).breakAt + 100000000 ≤ s.now ∧ 1 ≤ n ∧ n ≤ 64) :=
  ⟨⟨ring (on .standby) 3 [4], 1, cmdOf 3 [4], by decide +kernel⟩,
    ⟨ring up 3 [3], 1, cmdOf 3 [3], by decide +kernel⟩,
    ⟨ring litable 3 [5, 0, 0, 0, 1], 1, cmdOf 3 [5, 0, 0, 0, 1], by decide +kernel⟩,
    ⟨ring (on .lit) 3 [4], 1, cmdOf 3 [4], by decide +kernel⟩,
    ⟨{ on .standby with pw := { (on .standby).pw with stateSet := some ⟨1, 4, 0, 0, 0⟩ }, fl := Block.reset.fl }, [], ⟨1, 4, 0, 0, 0⟩,
    by decide +kernel⟩,
    ⟨3, by decide +kernel⟩,
    ⟨live up R.CHAIN_CFG 1, 0, 64, by decide +kernel⟩,
    ⟨{ live (up.modChn 0 fun k => { k with st := 4 }) R.CHAIN_CFG 0x31 with now := 100000000 }, 0, 3, by decide +kernel⟩⟩

/-- States and operands that meet the hypotheses of each clause of `RingCommandsRun`. -/
theorem witness_RingCommandsRun :
    (∃ (s : Block) (v : Word), s.hostOk = true ∧ bit (s.reg (R.PAGE_LOCK 4)) 0 = false ∧ (v - s.reg R.RING_CMD_HEAD).toNat ≤ s.cmdEntries) ∧
    (∃ (s : Block), s.hostOk = true ∧ bit (s.reg (R.PAGE_LOCK 4)) 0 = false) ∧
    (∃ (s : Block), s.hostOk = true ∧ bit (s.reg (R.PAGE_LOCK 4)) 0 = false ∧ bit (s.reg R.RING_CTRL) 0 = false ∧ bit (setBit (s.reg
    R.RING_CTRL) 0 true) 0 = true ∧ bit (setBit (s.reg R.RING_CTRL) 0 true) 1 = bit (s.reg R.RING_CTRL) 1) ∧
    (∃ (s : Block), s.hostOk = true) ∧
    (∃ (s : Block), s.fetching = true ∧ bit (s.reg R.RING_CTRL) 2 = false ∧ s.tunnelUp = true) ∧
    (∃ (s : Block), s.fetching = true) :=
  ⟨⟨up, 0, by decide +kernel⟩,
    ⟨up, by decide +kernel⟩,
    ⟨up, by decide +kernel⟩,
    ⟨up, by decide +kernel⟩,
    ⟨(up.setReg R.RING_CTRL 1).setRegs [(R.RING_CMD_TAIL, 1), (R.HOST_LINK_STATUS, 0x100)], by decide +kernel⟩,
    ⟨(up.setReg R.RING_CTRL 1).setReg R.RING_CMD_TAIL 1, by decide +kernel⟩⟩

/-- States and operands that meet the hypotheses of each clause of `EventRingCommandsRun`. -/
theorem witness_EventRingCommandsRun :
    (∃ (s : Block), s.hostOk = true ∧ bit (s.reg R.RING_CTRL) 1 = true) ∧
    (∃ (s : Block) (e : Event) (l : List Event), s.hostOk = true ∧ bit (s.reg R.RING_CTRL) 1 = true ∧ s.nextEvent = some (e, l)) ∧
    (∃ (s : Block) (t : Nat), s.rg.modSince = some t ∧ s.fld R.RING_EVT_MOD 16 16 ≠ 0 ∧ s.rg.vec63 = false) ∧
    (∃ (s : Block) (cseq : Word) (c : Cmd), s.startable cseq 1 = some c) ∧
    (∃ (s : Block) (cseq : Word) (c : Cmd), s.cmd cseq = some c ∧ (c.opcode = 0 ∨ 0x10 ≤ c.opcode) ∧ c.stage = 0 ∧ s.hkUp = true ∧ c.fence
    = false) ∧
    (∃ (s : Block) (cseq : Word) (c : Cmd), s.startable cseq 2 = some c ∧ 262144 ≤ c.par 28 4) :=
  ⟨⟨up.setReg R.RING_CTRL 2, by decide +kernel⟩,
    ⟨{ up.setReg R.RING_CTRL 2 with rg := { up.rg with evq := [event] } }, event, [], by decide +kernel⟩,
    ⟨{ up.setReg R.RING_EVT_MOD 0x10000 with rg := { up.rg with modSince := some 0 } }, 0, by decide +kernel⟩,
    ⟨ring up 1 [], 1, cmdOf 1 [], by decide +kernel⟩,
    ⟨ring up 0 [], 1, cmdOf 0 [], by decide +kernel⟩,
    ⟨ring up 2 [0, 0, 0, 0, 0, 0, 0, 0, 0, 0, 0, 0, 0, 0, 4, 0], 1, cmdOf 2 [0, 0, 0, 0, 0, 0, 0, 0, 0, 0, 0, 0, 0, 0, 4, 0],
    by decide +kernel⟩⟩

/-- States and operands that meet the hypotheses of each clause of `FabricLinkCommandsRun`. -/
theorem witness_FabricLinkCommandsRun :
    (∃ (s : Block) (p : Nat), s.linkUp p = true ∧ (s.fport p).ackDue = true) ∧
    (∃ (s : Block) (p : Nat), s.linkUp p = true ∧ (s.fport p).replay ≠ []) ∧
    (∃ (s : Block) (p : Nat), s.linkUp p = true) ∧
    (∃ (s : Block) (p : Nat), (s.fport p).st = 3 ∧ s.fEn p = true) ∧
    (∃ (s : Block) (p : Nat), (s.fport p).st = 3) ∧
    (∃ (s : Block) (p : Nat), p < 4 ∧ ({ s with pins := { s.pins with modPrsN := setAt s.pins.modPrsN p false } } : Block).hkUp = true) ∧
    (∃ (s : Block) (p : Nat), s.hkUp = true ∧ s.pins.modPrsN.getD p true = false) ∧
    (∃ (p : Nat), p < 4) ∧
    (∃ (s : Block) (frame : Bytes), s.fabOn = true ∧ 0x80 ≤ fproto frame) ∧
    (∃ (s : Block) (p : Nat) (corr : Nat) (uncorr : Nat),
    s.linkUp p = true ∧ s.abit (R.WPXP_CFG p) 1 = true ∧ corr ≠ 0 ∧ uncorr ≠ 0) ∧
    (∃ (s : Block) (cseq : Word) (c : Cmd) (r : Nat × Bool), s.startable cseq 0xC = some c ∧ sendParams c = true ∧ c.par 17 1 = 0 ∧
    s.fabOn = true ∧ s.fb.addr ≠ 0 ∧ s.routeOf (c.par 18 2) = some r) ∧
    (∃ (s : Block) (cseq : Word) (c : Cmd), s.startable cseq 0xC = some c ∧ sendParams c = true ∧ c.par 17 1 = 1 ∧ s.fabOn = true ∧
    s.fb.addr ≠ 0) :=
  ⟨⟨up.modF 0 fun f => { f with st := 4, ackDue := true }, 0, by decide +kernel⟩,
    ⟨up.modF 0 fun f => { f with st := 4, replay := [(0, ⟨0, [], none, none⟩)] }, 0, by decide +kernel⟩,
    ⟨up.modF 0 fun f => { f with st := 4 }, 0, by decide +kernel⟩,
    ⟨live (live (up.modF 0 fun f => { f with st := 3 }) R.WPX_CFG 1) (R.WPXP_CFG 0) 1, 0, by decide +kernel⟩,
    ⟨up.modF 0 fun f => { f with st := 3 }, 0, by decide +kernel⟩,
    ⟨up, 3, by decide +kernel⟩,
    ⟨{ up with pins := { up.pins with modPrsN := [false, true, true, true] } }, 0, by decide +kernel⟩,
    ⟨3, by decide +kernel⟩,
    ⟨live up R.WPX_CFG 1, List.replicate 64 0xFF, by decide +kernel⟩,
    ⟨live (up.modF 0 fun f => { f with st := 4 }) (R.WPXP_CFG 0) 2, 0, 1, 1, by decide +kernel⟩,
    ⟨ring { live up R.WPX_CFG 1 with fb := { up.fb with addr := 5 } } 0xC [2, 0, 5, 0, 0, 0, 0, 0, 0, 0, 0, 0, 0, 0, 0, 0, 0, 0, 0x80], 1,
    cmdOf 0xC [2, 0, 5, 0, 0, 0, 0, 0, 0, 0, 0, 0, 0, 0, 0, 0, 0, 0, 0x80], (4, false), by decide +kernel⟩,
    ⟨ring { live up R.WPX_CFG 1 with fb := { up.fb with addr := 5 } } 0xC [2, 1, 5, 0, 0, 0, 0, 0, 0, 0, 0, 0, 0, 0, 0, 0, 0, 0, 0x80], 1,
    cmdOf 0xC [2, 1, 5, 0, 0, 0, 0, 0, 0, 0, 0, 0, 0, 0, 0, 0, 0, 0, 0x80], by decide +kernel⟩⟩

/-- States and operands that meet the hypotheses of each clause of `FabricRouteCommandsRun`. -/
theorem witness_FabricRouteCommandsRun :
    (∃ (s : Block) (p : Nat), (s.fport p).st = 6) ∧
    (∃ (s : Block) (p : Nat) (d : Bytes), (s.fport p).st = 6 ∧ s.admitMismatch p (field d 0 8) = false) ∧
    (∃ (s : Block) (p : Nat), s.linkUp p = true) ∧
    (∃ (s : Block) (p : Nat) (t : Nat), s.linkUp p = true ∧ (s.fport p).heard = some t) ∧
    (∃ (s : Block) (p : Nat), (s.fport p).st ≠ 6) ∧
    (∃ (s : Block), s.fabOn = true ∧ s.fb.lsaDue = true) ∧
    (∃ (s : Block) (uid : Nat) (l : Lsa), lsaOf s.fb.lsas uid = some l ∧ s.fabOn = true ∧ uid ≠ s.uidNat) ∧
    (∃ (s : Block), s.fabOn = true) ∧
    (∃ (s : Block) (t : Nat), s.fb.changeAt = some t ∧ s.fb.computing = none) ∧
    (∃ (s : Block) (since : Nat) (t : RouteTable), s.fb.shadow = some t ∧ s.fb.computing = some since) ∧
    (∃ (s : Block) (r : Nat), s.fabOn = true ∧ s.fb.root = some r) ∧
    (∃ (s : Block) (p : Nat), (s.fport p).st = 6 ∧ s.fb.table.parent = some p ∧ s.isRoot = false) ∧
    (∃ (s : Block) (p : Nat), s.linkUp p = true ∧ s.hkUp = true ∧ s.afld R.WPX_ADMIT_CFG 0 2 ≠ 0) ∧
    (∃ (s : Block) (p : Nat), (s.fport p).st = 5 ∧ s.hkUp = true) ∧
    (∃ (s : Block) (p : Nat), s.linkUp p = true ∧ s.abit R.WPX_CFG 2 = true) :=
  ⟨⟨up.modF 0 fun f => { f with st := 6 }, 0, by decide +kernel⟩,
    ⟨up.modF 0 fun f => { f with st := 6 }, 0, [], by decide +kernel⟩,
    ⟨up.modF 0 fun f => { f with st := 4 }, 0, by decide +kernel⟩,
    ⟨up.modF 0 fun f => { f with st := 4, heard := some 0 }, 0, 0, by decide +kernel⟩,
    ⟨up, 0, by decide +kernel⟩,
    ⟨{ live up R.WPX_CFG 1 with fb := { up.fb with lsaDue := true } }, by decide +kernel⟩,
    ⟨{ live up R.WPX_CFG 1 with fb := { up.fb with lsas := [lsa7] } }, 7, lsa7, by decide +kernel⟩,
    ⟨live up R.WPX_CFG 1, by decide +kernel⟩,
    ⟨{ up with fb := { up.fb with changeAt := some 0 } }, 0, by decide +kernel⟩,
    ⟨{ up with fb := { up.fb with shadow := some routes, computing := some 0 } }, 0, routes, by decide +kernel⟩,
    ⟨{ live up R.WPX_CFG 1 with fb := { up.fb with root := some 3 } }, 3, by decide +kernel⟩,
    ⟨{ up with fb := { (up.modF 0 fun f => { f with st := 6 }).fb with table := routes } }, 0, by decide +kernel⟩,
    ⟨live (up.modF 0 fun f => { f with st := 4 }) R.WPX_ADMIT_CFG 1, 0, by decide +kernel⟩,
    ⟨up.modF 0 fun f => { f with st := 5 }, 0, by decide +kernel⟩,
    ⟨live (up.modF 0 fun f => { f with st := 4 }) R.WPX_CFG 4, 0, by decide +kernel⟩⟩

/-- States and operands that meet the hypotheses of each clause of `SkidderCommandsRun`. -/
theorem witness_SkidderCommandsRun :
    (∃ (s : Block) (c : Nat) (v : Word), c < 16 ∧ s.hostOk = true ∧ bit (s.reg (R.PAGE_LOCK 0x05)) 0 = false ∧ ¬ s.skdEntries c < (bits v
    0 16 + 65536 - (s.skd c).head) % 65536) ∧
    (∃ (s : Block) (c : Nat) (v : Word) (r : RegRow), c < 16 ∧ s.hostOk = true ∧ rowAt (R.SKD_CH_CTRL c) = some r ∧ bit (s.reg
    (R.PAGE_LOCK (pageOf (R.SKD_CH_CTRL c)))) 0 = false ∧ r.legalVal (r.merge (s.reg (R.SKD_CH_CTRL c)) v) = true ∧ (s.moverOwner (bits
    (r.merge (s.reg (R.SKD_CH_CTRL c)) v) 3 2)) = none) ∧
    (∃ (s : Block) (m : Nat) (c : Nat), m < 4 ∧ s.sk.run.getD m none = none ∧ s.skdNext m = some c ∧ (s.skd c).desc.isSome = true) ∧
    (∃ (s : Block) (m : Nat) (host : Bytes) (c : Nat) (t : Block) (bs : List Byte), m < 4 ∧ s.sk.run.getD m none = none ∧ s.skdNext m =
    some c ∧ (s.skd c).desc.isSome = false ∧ (s.skdServe m c).skdFetch c host = (t, .ok bs)) ∧
    (∃ (s : Block) (m : Nat) (host : Bytes) (c : Nat) (d : SkdDesc) (t : Block), s.running m = some c ∧ (s.skd c).desc = some d ∧ s.moveTo
    c d.length host = (t, true)) ∧
    (∃ (s : Block) (m : Nat) (upto : Nat) (host : Bytes) (c : Nat) (h : Nat) (d : SkdDesc) (t : Block), s.running m = some c ∧ s.skdNext m
    = some h ∧ (s.skd c).desc = some d ∧ ¬ s.skdPrio h ≤ s.skdPrio c ∧ ¬ d.length ≤ cdiv (max upto (s.skd c).offset) 4096 * 4096 ∧
    s.moveTo c (cdiv (max upto (s.skd c).offset) 4096 * 4096) host = (t, true)) ∧
    (∃ (s : Block) (m : Nat) (c : Nat), s.running m = some c) ∧
    (∃ (s : Block) (c : Nat), s.hostOk = true ∧ (s.skd c).st = .faulted ∧ (s.skd c).kind ≠ 3) ∧
    (∃ (s : Block) (c : Nat), s.hostOk = true ∧ (s.skd c).st = .faulted) ∧
    (∃ (s : Block) (c : Nat), s.hostOk = true ∧ (s.skd c).st ≠ .disabled) ∧
    (∃ (s : Block) (c : Nat), s.hostOk = true ∧ ((s.skd c).st = .seqStop ∨ (s.skd c).st = .disabled)) ∧
    (∃ (s : Block), s.hostOk = true ∧ bit (s.reg (R.PAGE_LOCK 0x05)) 0 = false) :=
  ⟨⟨up, 0, 0, by decide +kernel⟩,
    ⟨up, 0, 0x100, (rowAt (R.SKD_CH_CTRL 0)).get (by decide +kernel), by decide +kernel⟩,
    ⟨(((up.setReg R.SKD_CTRL 1).setReg (R.SKD_CH_CTRL 0) 1)).modSkd 0 fun k => { k with st := .queued, desc := some desc0 }, 0, 0,
    by decide +kernel⟩,
    ⟨queued, 0, [], 0, queued.skdServe 0 0, padBytes 64 [], by decide +kernel⟩,
    ⟨moving, 0, [], 0, desc0, moving, by decide +kernel⟩,
    ⟨preempting, 0, 0, [], 0, 1, { desc0 with length := 4096 }, preempting, by decide +kernel⟩,
    ⟨moving, 0, 0, by decide +kernel⟩,
    ⟨(up).modSkd 3 fun k => { k with st := .faulted }, 3, by decide +kernel⟩,
    ⟨(up).modSkd 3 fun k => { k with st := .faulted }, 3, by decide +kernel⟩,
    ⟨(up).modSkd 3 fun k => { k with st := .idle }, 3, by decide +kernel⟩,
    ⟨up, 3, by decide +kernel⟩,
    ⟨up, by decide +kernel⟩⟩

/-- States and operands that meet the hypotheses of each clause of `DeviceTranslationCommandsRun`. -/
theorem witness_DeviceTranslationCommandsRun :
    (∃ (s : Block) (v : Word), s.hostOk = true ∧ bit v 0 = true ∧ s.dt.inv = none) ∧
    (∃ (s : Block) (i : DtuInv), s.dt.inv = some i) ∧
    (∃ (s : Block), s.hostOk = true ∧ bit (s.reg (R.PAGE_LOCK 0x06)) 0 = false) :=
  ⟨⟨up, 1, by decide +kernel⟩,
    ⟨{ up with dt := { up.dt with inv := some ⟨true, 0, 0, 0⟩ } }, ⟨true, 0, 0, 0⟩, by decide +kernel⟩,
    ⟨up, by decide +kernel⟩⟩

/-- States and operands that meet the hypotheses of each clause of `SurfaceAndIngestCommandsRun`. -/
theorem witness_SurfaceAndIngestCommandsRun :
    (∃ (s : Block) (i : Nat), s.hostOk = true ∧ s.defineReason (i % 64) = 0) ∧
    (∃ (s : Block) (i : Nat), s.hostOk = true ∧ s.openReason (i % 64) (fun t => t == .closed || t == .sealed) = 0) ∧
    (∃ (s : Block) (i : Nat), s.hostOk = true ∧ s.openReason (i % 64) (fun t => t == .opened || t == .sealed) = 0) ∧
    (∃ (s : Block), s.hostOk = true ∧ bit (s.reg (R.PAGE_LOCK 0x08)) 0 = false) ∧
    (∃ (s : Block) (n : Nat) (i : Nat), (s.src n).writing = some i ∧ (s.surf i).cmp = true) ∧
    (∃ (s : Block) (t : Block) (a : Nat), (if a % 2 = 0 then s.joinStart else s) = t ∧ t.streamRefused (a % 2) = false ∧ (t.dpTake (a %
    2)).pairs (a % 2) = false ∧ ((t.dpTake (a % 2)).src (t.dpSource (a % 2))).writing = none) ∧
    (∃ (s : Block) (a : Nat) (i : Nat), (s.src (s.dpSource (a % 2))).writing = some i ∧ natBit (s.src (s.dpSource (a % 2))).halves (2 + a
    % 2) = true) ∧
    (∃ (s : Block) (a : Nat) (i : Nat), (s.src (s.dpSource (a % 2))).writing = some i) ∧
    (∃ (s : Block) (data : Bytes) (f : Nat), s.streamOf (field data 0 2) (w32 (field data 4 4)) = some f ∧ field data 2 1 < 2 ∧
        ((s.src (2 + f)).gone == some
    (w32 (field data 4 4))) = false ∧ field data 16 2 = (s.surf ((s.unitSet f (w32 (field data 4 4))).headD 0)).width ∧
    field data 18 2 = (s.surf ((s.unitSet f (w32 (field data 4 4))).headD 0)).height ∧
    field data 3 1 = (s.surf ((s.unitSet f (w32 (field data 4 4))).headD 0)).format) ∧
    (∃ (f : Nat), f < 4) ∧
    (∃ (s : Block), s.hostOk = true ∧ bit (s.reg (R.PAGE_LOCK 0x09)) 0 = false ∧ bit (s.reg R.INGEST_CTRL) 0 = false) ∧
    (∃ (s : Block) (r : NvmeRead), s.sf.nvme.reads = [r]) ∧
    (∃ (s : Block) (status : Nat) (r : NvmeRead) (l : List NvmeRead), s.sf.nvme.reads = r :: l ∧ status ≠ 0 ∧ r.tried = false) ∧
    (∃ (s : Block), s.hostOk = true ∧ (s.src (s.fld R.INGEST_HFC_SRC 0 3)).hfc.length < 16) :=
  ⟨⟨mapped, 5, by decide +kernel⟩,
    ⟨(up).modSurf 5 fun k => { k with st := .sealed }, 5, by decide +kernel⟩,
    ⟨(up).modSurf 5 fun k => { k with st := .opened }, 5, by decide +kernel⟩,
    ⟨up, by decide +kernel⟩,
    ⟨(up.modSrc 0 fun k => { k with writing := some 5 }).modSurf 5 fun k => { k with cmp := true }, 0, 5, by decide +kernel⟩,
    ⟨up.setReg (R.HOST_DP_STATUS 1) 3, up.setReg (R.HOST_DP_STATUS 1) 3, 1, rfl, by decide +kernel⟩,
    ⟨(up).modSrc 1 fun k => { k with writing := some 5, halves := 8 }, 1, 5, by decide +kernel⟩,
    ⟨(up).modSrc 1 fun k => { k with writing := some 5 }, 1, 5, by decide +kernel⟩,
    ⟨(live (up.setReg (R.PAGE_CTRL 0x09) 1) (R.INGEST_SRC_CFG 2) 1).modSurf 0 fun k => { k with width := 64, height := 32 }, [0, 0, 0, 0,
    0, 0, 0, 0, 0, 0, 0, 0, 0, 0, 0, 0, 64, 0, 32, 0], 0, by decide +kernel⟩,
    ⟨3, by decide +kernel⟩,
    ⟨up, by decide +kernel⟩,
    ⟨up.modNvme fun v => { v with reads := [⟨7, 1, false⟩] }, ⟨7, 1, false⟩, by decide +kernel⟩,
    ⟨up.modNvme fun v => { v with reads := [⟨7, 1, false⟩] }, 2, ⟨7, 1, false⟩, [], by decide +kernel⟩,
    ⟨up, by decide +kernel⟩⟩

/-- States and operands that meet the hypotheses of each clause of `WarpAndCheckCommandsRun`. -/
theorem witness_WarpAndCheckCommandsRun :
    (∃ (s : Block) (v : Word), s.hostOk = true ∧ bit v 0 = true ∧ s.pp.planBusy = false) ∧
    (∃ (s : Block), s.pp.planBusy = true) ∧
    (∃ (s : Block), s.pp.mesh.sync = true) ∧
    (∃ (s : Block), s.pp.mesh.sync = false ∧ s.pp.lut.sync = true) ∧
    (∃ (s : Block) (p : Nat) (ps : List Nat) (f : PipeFrame), s.writingPorts = p :: ps ∧ s.pp.frame = some f) ∧
    (∃ (s : Block) (v : Word), s.hostOk = true ∧ bit v 0 = true) ∧
    (∃ (s : Block), s.hostOk = true ∧ bit (s.reg (R.PAGE_LOCK 0x15)) 0 = false) :=
  ⟨⟨up, 1, by decide +kernel⟩,
    ⟨{ up with pp := { up.pp with planBusy := true } }, by decide +kernel⟩,
    ⟨{ up with pp := { up.pp with mesh := { up.pp.mesh with sync := true } } }, by decide +kernel⟩,
    ⟨{ up with pp := { up.pp with lut := { up.pp.lut with sync := true } } }, by decide +kernel⟩,
    ⟨writing, 0, [], frame0, by decide +kernel⟩,
    ⟨up, 1, by decide +kernel⟩,
    ⟨up, by decide +kernel⟩⟩

/-- States and operands that meet the hypotheses of each clause of `MirrorPortCommandsRun`. -/
theorem witness_MirrorPortCommandsRun :
    (∃ (s : Block) (p : Nat) (d : Bytes), p < 4 ∧ (s.port p).st = 2 ∧ identOk p d = true) ∧
    (∃ (s : Block) (p : Nat), p < 4 ∧ (s.port p).st = 3 ∧ (s.port p).linkState ≠ 2) ∧
    (∃ (s : Block) (p : Nat), p < 4 ∧ (s.port p).attempt ≠ 0 ∧ (s.port p).linkState ≠ 2 ∧ (s.port p).since + 1000000 ≤ s.now) ∧
    (∃ (s : Block) (p : Nat), p < 4 ∧ (s.port p).st = 6 ∧ (s.port p).linkState ≠ 2 ∧ (s.port p).darkSince + 10000000 ≤ s.now) ∧
    (∃ (s : Block) (p : Nat), p < 4 ∧ s.hostOk = true ∧ (s.port p).st ≠ 5 ∧ (s.port p).st ≠ 6 ∧ maEn s.act p = true) ∧
    (∃ (s : Block) (p : Nat), p < 4 ∧ s.hostOk = true ∧ (s.port p).st = 4) ∧
    (∃ (s : Block) (p : Nat) (slot : Nat) (plane : Nat) (fsn : Word) (l : PlaneLoad), p < 4 ∧ ((s.port p).acks.find? fun l => l.slot ==
    slot && l.plane == plane && l.fsn == fsn) = some l) ∧
    (∃ (s : Block) (p : Nat) (slot : Nat) (l : PlaneLoad), p < 4 ∧ ((s.port p).acks.find? fun l => l.slot == slot && decide (l.endFt +
    100000 ≤ s.tm.ft)) = some l) ∧
    (∃ (p : Nat), p < 4) ∧
    (∃ (s : Block) (p : Nat) (code : Nat) (sev : Nat), p < 4 ∧ code < 65536 ∧ sev < 2 ∧ (s.port p).st ≠ 0) ∧
    (∃ (s : Block) (p : Nat), p < 4 ∧ (s.port p).bcLock = true) ∧
    (∃ (s : Block) (p : Nat) (t : Nat), p < 4 ∧ (s.port p).bcLostAt = some t ∧ t + 1000000000 ≤ s.now) ∧
    (∃ (s : Block) (p : Nat), p < 4 ∧ (s.port p).bcLostAt.isSome = true) :=
  ⟨⟨(up).modPort 0 fun k => { k with st := 2 }, 0, identBytes, by decide +kernel⟩,
    ⟨(up).modPort 0 fun k => { k with st := 3 }, 0, by decide +kernel⟩,
    ⟨{ up.modPort 0 fun k => { k with attempt := 1 } with now := 1000000 }, 0, by decide +kernel⟩,
    ⟨{ up.modPort 0 fun k => { k with st := 6 } with now := 10000000 }, 0, by decide +kernel⟩,
    ⟨live ((up).modPort 0 fun k => { k with st := 4 }) (R.MA_CFG 0) 1, 0, by decide +kernel⟩,
    ⟨(up).modPort 0 fun k => { k with st := 4 }, 0, by decide +kernel⟩,
    ⟨(up).modPort 0 fun k => { k with acks := [⟨2, 3, 7, 0⟩] }, 0, 2, 3, 7, ⟨2, 3, 7, 0⟩, by decide +kernel⟩,
    ⟨{ up.modPort 0 fun k => { k with acks := [⟨2, 3, 7, 0⟩] } with tm := { up.tm with ft := 100000 } }, 0, 2, ⟨2, 3, 7, 0⟩,
    by decide +kernel⟩,
    ⟨3, by decide +kernel⟩,
    ⟨(up).modPort 3 fun k => { k with st := 4 }, 3, 0xFFFF, 1, by decide +kernel⟩,
    ⟨(up).modPort 3 fun k => { k with bcLock := true }, 3, by decide +kernel⟩,
    ⟨{ up.modPort 3 fun k => { k with bcLostAt := some 0 } with now := 1000000000 }, 3, 0, by decide +kernel⟩,
    ⟨(up).modPort 3 fun k => { k with bcLostAt := some 0 }, 3, by decide +kernel⟩⟩

/-- States and operands that meet the hypotheses of each clause of `MirrorFrameCommandsRun`. -/
theorem witness_MirrorFrameCommandsRun :
    (∃ (s : Block), s.tm.run = true) ∧
    (∃ (s : Block), darkNs s.act ≠ 0 ∧ s.tm.run = true) ∧
    (∃ (s : Block) (g : Nat) (x : Slot), g < 4 ∧ (calSlots (s.port g).words)[(s.port g).nextSlot]? = some x ∧ (s.port g).st = 5 ∧ (s.port
    g).held = 0 ∧ (s.port g).phase = 0) ∧
    (∃ (s : Block) (g : Nat), g < 4 ∧ (s.port g).st = 5 ∧ (s.port g).phase = 1) ∧
    (∃ (s : Block) (g : Nat), g < 4 ∧ (s.port g).st = 5 ∧ (s.port g).phase = 2 ∧ (s.port g).slot + 1 = (calSlots (s.port g).words).length) ∧
    (∃ (s : Block) (p : Nat) (x : Slot), p < 4 ∧ (s.loadFrame p).1[(s.port p).loadNext]? = some x ∧ s.streams p = true ∧ (s.port
    p).loading = false ∧ (s.port p).stage.length < s.stageDepth p) ∧
    (∃ (s : Block) (p : Nat), p < 4 ∧ (s.port p).loading = true) :=
  ⟨⟨up, by decide +kernel⟩,
    ⟨live up R.TIME_DARK_LEN 100, by decide +kernel⟩,
    ⟨(up).modPort 0 fun k => { k with st := 5, words := [1, 0, 0, 0, 7, 0] }, 0, slotOf 7 0, by decide +kernel⟩,
    ⟨(up).modPort 0 fun k => { k with st := 5, phase := 1 }, 0, by decide +kernel⟩,
    ⟨(up).modPort 0 fun k => { k with st := 5, phase := 2, words := [1, 0, 0, 0, 7, 0] }, 0, by decide +kernel⟩,
    ⟨(up).modPort 0 fun k => { k with st := 5, words := [1, 0, 0, 0, 7, 0], ident := some (parseIdent identBytes) }, 0, slotOf 7 0,
    by decide +kernel⟩,
    ⟨(up).modPort 0 fun k => { k with loading := true }, 0, by decide +kernel⟩⟩

/-- States and operands that meet the hypotheses of each clause of `LaserMemberCommandsRun`. -/
theorem witness_LaserMemberCommandsRun :
    (∃ (s : Block) (n : Nat), n < 48 ∧ s.litMember n = true) ∧
    (∃ (s : Block) (n : Nat), n < 48 ∧ (memCfg s.act n).en = true) ∧
    (∃ (s : Block) (m : Nat), (s.member m).hotAt.isSome = true ∧ (s.member m).st = 2) ∧
    (∃ (s : Block) (g : Nat), g < 5 ∧ (s.grp g).waiting ≠ []) ∧
    (∃ (s : Block) (m : Nat), s.probeNeeded m = true ∧ (s.member m).probeDue = false) ∧
    (∃ (s : Block) (g : Nat), g < 5 ∧ s.pathCut = false ∧ s.portHold g = false ∧ s.probeTime g = true) ∧
    (∃ (s : Block) (m : Nat), (s.member m).probeDue = true ∧ (s.member m).dueAt + 1000000000 ≤ s.now ∧ (s.member m).starved = false) :=
  ⟨⟨(live (up.modGrp 0 fun k => { k with lit := true }) (R.LS_STR_CFG 0) 1).modMember 0 fun k => { k with st := 1, acting := true }, 0,
    by decide +kernel⟩,
    ⟨live up (R.LS_STR_CFG 47) 1, 47, by decide +kernel⟩,
    ⟨(up).modMember 64 fun k => { k with hotAt := some 0, st := 2 }, 64, by decide +kernel⟩,
    ⟨(up).modGrp 4 fun k => { k with waiting := [3] }, 4, by decide +kernel⟩,
    ⟨(live (up.modGrp 0 fun k => { k with lit := true }) (R.LS_STR_CFG 0) 1).modMember 0 fun k => { k with suspect := true }, 0,
    by decide +kernel⟩,
    ⟨live (live (up.modPort 0 fun k => { k with phase := 1, words := [0] }) R.SEQ_PROBE_CFG 0x10fff) R.TIME_DARK_LEN 10, 0,
    by decide +kernel⟩,
    ⟨{ up.modMember 0 fun k => { k with probeDue := true } with now := 1000000000 }, 0, by decide +kernel⟩⟩

/-- States and operands that meet the hypotheses of each clause of `LoopAndChainCommandsRun`. -/
theorem witness_LoopAndChainCommandsRun :
    (∃ (s : Block) (slot : Nat), s.pw.state.running = true ∧ s.cp.halted = false ∧ s.slotEnabled slot = true ∧ s.beforeFb (s.sampleAt
    slot) = true ∧ slot < 48) ∧
    (∃ (s : Block) (kind : Nat), s.fl.svRunning = true ∧ kind < 2) ∧
    (∃ (s : Block) (g : Nat) (t : Nat) (m : ModelGroup), s.th.mg[g]? = some m ∧ m.last = some t ∧ t + 5000000 ≤ s.now) ∧
    (∃ (s : Block) (c : Nat), c < 4 ∧ (s.chn c).st = 2 ∧ s.pw.state.running = true ∧ (s.chn c).clkOff = false) ∧
    (∃ (s : Block) (c : Nat), c < 4 ∧ (s.chn c).st = 2 ∧ (s.chn c).clkOff = false) :=
  ⟨⟨live up (R.LS_STR_CFG 3) 1, 3, by decide +kernel⟩,
    ⟨up, 1, by decide +kernel⟩,
    ⟨{ up with th := { up.th with mg := [modelled] }, now := 5000000 }, 0, 0, modelled, by decide +kernel⟩,
    ⟨(up).modChn 0 fun k => { k with st := 2 }, 0, by decide +kernel⟩,
    ⟨(up).modChn 3 fun k => { k with st := 2 }, 3, by decide +kernel⟩⟩

/-- States and operands that meet the hypotheses of each clause of `ScannerCommandsRun`. -/
theorem witness_ScannerCommandsRun :
    (∃ (s : Block), s.hsfOn = true ∧ s.sc.st = 0) ∧
    (∃ (s : Block) (freq a b t : Nat), s.sc.st = 1 ∧ s.sweepSpan = (a, b, t) ∧ min a b ≤ freq ∧ freq ≤ max a b ∧ s.now < s.sc.enAt + t) ∧
    (∃ (s : Block), s.sc.st = 2 ∧ s.sc.stAt + 10000000 ≤ s.now ∧ s.afld R.CPE_HANDOVER_HS 0 16 * 10 < s.cp.h.natAbs ∧ s.sc.attempts < 2) ∧
    (∃ (s : Block), s.sc.st = 3 ∧ s.sc.enAt + 1500000000 ≤ s.now ∧ s.sc.attempts = 2) ∧
    (∃ (s : Block), s.lockMet = true ∧ s.sc.st = 4) ∧
    (∃ (s : Block) (cause : Nat), natBit s.sc.cutDue cause = true ∧ s.sc.cut = false) ∧
    (∃ (s : Block), s.sc.st = 5 ∧ 16 ≤ s.sc.badRun) ∧
    (∃ (s : Block), s.sc.st = 5 ∧ s.afld R.HSF_LOCK_CFG 8 8 * 8 < s.sc.angleErr.natAbs) ∧
    (∃ (s : Block) (e : Nat × FaultRec), s.sc.st = 6 ∧ s.sc.lockLostAt + s.afld R.HSF_RELOCK 0 16 * 1000000 ≤ s.now ∧ s.fl.recs.find? (fun
    e => e.2.isOpen && e.2.page == 0x12 && e.2.code == 0x0C2) = some e) ∧
    (∃ (s : Block) (a : Nat) (b : Nat) (err : Int), s.sc.st = 5 ∧ s.crossErr a b = some err) ∧
    (∃ (s : Block), s.abit R.HSS_CFG 0 = true ∧ s.pw.state.running = true ∧ s.sc.want ≠ s.hssWant) ∧
    (∃ (s : Block), s.sc.hst = 4) ∧
    (∃ (s : Block), s.sc.hst = 5 ∧ s.sc.line = true ∧ (s.lineFrom s.sc.lineAt).2 ≤ s.windowEnds) ∧
    (∃ (s : Block), s.sc.hst = 5 ∧ s.sc.line = true ∧ s.sc.redo = false) ∧
    (∃ (s : Block), s.sc.windowEnd = false) :=
  ⟨⟨live up R.HSF_CFG 1, by decide +kernel⟩,
    ⟨{ up with sc := { up.sc with st := 1, enAt := up.now } }, 22000000, 26000000, 22000000, 800000000, by decide +kernel⟩,
    ⟨{ up with sc := { up.sc with st := 2 }, now := 10000000, cp := { up.cp with h := 1000000 } }, by decide +kernel⟩,
    ⟨{ up with sc := { up.sc with st := 3, attempts := 2 }, now := 1500000000 }, by decide +kernel⟩,
    ⟨{ up with sc := { up.sc with st := 4, okRun := 1024, okCross := 64 } }, by decide +kernel⟩,
    ⟨{ up with sc := { up.sc with cutDue := 32 } }, 5, by decide +kernel⟩,
    ⟨{ up with sc := { up.sc with st := 5, badRun := 16 } }, by decide +kernel⟩,
    ⟨{ up with sc := { up.sc with st := 5, angleErr := -1000000 } }, by decide +kernel⟩,
    ⟨{ up with sc := { up.sc with st := 6 }, now := 1000000000000, fl := { up.fl with recs := [(3, lockRec)] } }, (3, lockRec),
    by decide +kernel⟩,
    ⟨{ up with sc := { up.sc with st := 5 } }, 0, 10, _, rfl, (Option.some_get (h := (by decide +kernel : (({ up with sc := { up.sc with
    st := 5 } } : Block).crossErr 0 10).isSome = true))).symm⟩,
    ⟨live { up with sc := { up.sc with want := -1 } } R.HSS_CFG 1, by decide +kernel⟩,
    ⟨{ up with sc := { up.sc with hst := 4 } }, by decide +kernel⟩,
    ⟨{ up with sc := { up.sc with hst := 5, line := true, pinc := 2 ^ 40 } }, by decide +kernel⟩,
    ⟨{ up with sc := { up.sc with hst := 5, line := true } }, by decide +kernel⟩,
    ⟨up, by decide +kernel⟩⟩

/-- States and operands that meet the hypotheses of each clause of `ThermalCommandsRun`. -/
theorem witness_ThermalCommandsRun :
    (∃ (s : Block) (j : Nat) (c : Nat) (k : NtcIn), s.th.ntc[j]? = some k ∧ s.sensing = true ∧ k.valid = true ∧ 16 ≤ c ∧ c ≤ 4080) ∧
    (∃ (s : Block), s.pw.state = .ready) ∧
    (∃ (s : Block), s.th.lvl.pending = true ∧ 10 ≤ s.th.lvl.sdRun ∧ s.pw.state = .ready ∧ s.pw.coreGated = false) ∧
    (∃ (s : Block) (g : Nat) (k : ModelGroup), s.th.mg[g]? = some k ∧ s.pw.state = .ready ∧ k.lvl.pending = true ∧ 50 ≤ k.lvl.sdRun) :=
  ⟨⟨{ up with th := { up.th with ntc := [ntcIn] } }, 0, 4080, ntcIn, by decide +kernel⟩,
    ⟨up, by decide +kernel⟩,
    ⟨{ up with th := { up.th with lvl := { Levels.reset with pending := true, sdRun := 10 } } }, by decide +kernel⟩,
    ⟨{ up with th := { up.th with mg := [hotGroup] } }, 0, hotGroup, by decide +kernel⟩⟩

/-- States and operands that meet the hypotheses of each clause of `DramErrorAndRefreshCommandsRun`. -/
theorem witness_DramErrorAndRefreshCommandsRun :
    (∃ (addr : Nat) (client : Nat) (errs : List (Nat × Nat)), inDram addr = true ∧ client < 8 ∧ eccVerdict errs = .uncorrectable) ∧
    (∃ (s : Block) (addr : Nat) (errs : List (Nat × Nat)), inDram addr = true ∧ eccVerdict errs = .corrected ∧ s.dc.poison.contains (addr
    / 64) = false) ∧
    (∃ (s : Block) (t : Block), s.abit R.DMC_SCRUB_CFG 0 = true ∧ (s.pair s.dc.scrubPair).st = 2 ∧ (s.pair s.dc.scrubPair).reqs = [] ∧ t =
    (s.toLocal (s.dc.scrubAt + s.scrubGap)).scrubStamp ∧ t.dc.poison.contains ((s.dc.scrubPair * 0x100000000 + 64 * s.dc.scrubBlk) / 64) =
    false ∧ s.dc.scrubBlk + 1 < pairBlocks) ∧
    (∃ (i : Nat), i < 12) ∧
    (∃ (s : Block) (ch : Nat), ch < 24 ∧ (s.pair (ch / 2)).st = 2) ∧
    (∃ (s : Block) (ch : Nat), ch < 24 ∧ s.pairUp (ch / 2) = true) ∧
    (∃ (s : Block) (i : Nat), i < 12 ∧ s.abit (R.DMCP_CFG i) 2 = true ∧ (s.pair i).st = 2 ∧ (s.pair i).reqs = []) ∧
    (∃ (s : Block) (i : Nat), i < 12 ∧ s.abit (R.DMCP_CFG i) 2 = true ∧ (s.pair i).st = 3) ∧
    (∃ (s : Block) (i : Nat), i < 12 ∧ (s.pair i).st = 3) ∧
    (∃ (s : Block) (i : Nat), i < 12 ∧ (s.pair i).st = 4) :=
  ⟨⟨0xBEFFFFFFF, 7, [(0, 1), (1, 1), (2, 1)], by decide +kernel⟩,
    ⟨up, 0xBEFFFFFFF, [(0, 1)], by decide +kernel⟩,
    ⟨scrubbing, (scrubbing.toLocal (scrubbing.dc.scrubAt + scrubbing.scrubGap)).scrubStamp, by decide +kernel, by decide +kernel,
    by decide +kernel, rfl, by decide +kernel, by decide +kernel⟩,
    ⟨11, by decide +kernel⟩,
    ⟨(up).modPair 11 fun k => { k with st := 2 }, 23, by decide +kernel⟩,
    ⟨(up).modPair 11 fun k => { k with st := 2 }, 23, by decide +kernel⟩,
    ⟨live (up.modPair 11 fun k => { k with st := 2 }) (R.DMCP_CFG 11) 4, 11, by decide +kernel⟩,
    ⟨live (up.modPair 11 fun k => { k with st := 3 }) (R.DMCP_CFG 11) 4, 11, by decide +kernel⟩,
    ⟨(up).modPair 11 fun k => { k with st := 3 }, 11, by decide +kernel⟩,
    ⟨(up).modPair 11 fun k => { k with st := 4 }, 11, by decide +kernel⟩⟩

/-- States and operands that meet the hypotheses of each clause of `DramSetPointCommandsRun`. -/
theorem witness_DramSetPointCommandsRun :
    (∃ (s : Block) (t0 : Nat), s.th.thrSince = some t0 ∧ s.abit R.THERM_CTRL 0 = true) ∧
    (∃ (s : Block) (t0 : Nat), s.th.coolSince = some t0 ∧ s.afld R.DMC_FREQ_CFG 0 2 < s.dc.cap) ∧
    (∃ (s : Block) (c : Nat), s.dc.due = some c) ∧
    (∃ (s : Block) (i : Nat) (c : FreqChange), i < 12 ∧ s.dc.change = some c ∧ natBit c.left i = true ∧ s.mayChange i = true) ∧
    (∃ (s : Block) (i : Nat) (c : FreqChange), i < 12 ∧ s.dc.change = some c ∧ natBit c.left i = true ∧ natBit c.late i = false ∧ natBit
    c.waited i = false) ∧
    (∃ (s : Block) (i : Nat), i < 12 ∧ bit (s.act (R.DMCP_CFG i)) 0 = true ∧ bit (s.act (R.DMCP_CFG i)) 1 = true ∧ (s.pair i).st = 2) ∧
    (∃ (s : Block) (i : Nat), i < 12 ∧ bit (s.act (R.DMCP_CFG i)) 0 = true ∧ bit (s.act (R.DMCP_CFG i)) 1 = false ∧ (s.pair i).st = 7) ∧
    (∃ (s : Block) (cseq : Word) (c : Cmd), s.startable cseq 0xE = some c ∧ c.par 16 1 ≤ 10 ∧ c.par 17 1 ≤ 3 ∧ c.par 18 1 ≤ 1 ∧ s.dc.sweep
    = none ∧ s.ca = none ∧ (s.pair (c.par 16 1)).st = 7) ∧
    (∃ (s : Block) (cseq : Word) (pass : List Nat) (w : Sweep), s.startable cseq 0xE = none ∧ s.dc.sweep = some w ∧ w.cseq = cseq ∧
    w.calib = false ∧ pass.length = 8) :=
  ⟨⟨live { up with th := { up.th with thrSince := some 0 } } R.THERM_CTRL 1, 0, by decide +kernel⟩,
    ⟨{ live up R.DMC_FREQ_CFG 0 with th := { up.th with coolSince := some 0 }, dc := { up.dc with cap := 2 } }, 0, by decide +kernel⟩,
    ⟨{ up with dc := { up.dc with due := some 1 } }, 1, by decide +kernel⟩,
    ⟨{ up with dc := { up.dc with change := some freq } }, 11, freq, by decide +kernel⟩,
    ⟨{ up with dc := { up.dc with change := some freq } }, 11, freq, by decide +kernel⟩,
    ⟨live (up.modPair 0 fun k => { k with st := 2 }) (R.DMCP_CFG 0) 3, 0, by decide +kernel⟩,
    ⟨live (up.modPair 0 fun k => { k with st := 7 }) (R.DMCP_CFG 0) 1, 0, by decide +kernel⟩,
    ⟨ring (up.modPair 0 fun k => { k with st := 7 }) 0xE [], 1, cmdOf 0xE [], by decide +kernel⟩,
    ⟨{ up with dc := { up.dc with sweep := some ⟨1, 0, 0, false, 0, false⟩ } }, 1, List.replicate 8 0, ⟨1, 0, 0, false, 0, false⟩,
    by decide +kernel⟩⟩

/-- States and operands that meet the hypotheses of each clause of `ColourCommandsRun`. -/
theorem witness_ColourCommandsRun :
    (∃ (s : Block) (t : Block) (j : Nat) (r : Nat), j < 8 ∧ r < 4 ∧ s.pdEn j = true ∧ s.pw.state.running = true ∧ s.offsetAt j r = some t) ∧
    (∃ (s : Block) (g : Nat) (i : Nat) (a : Nat) (b : Nat) (k : Nat) (x : Slot), g < 4 ∧ s.pw.state.lightOn = true ∧ s.pairOfGroup g =
    some (a, b, k) ∧ (calSlots (s.port g).words)[i]? = some x ∧ x.measure = true ∧ (s.measureWindow g i a b x).1 < (s.measureWindow g i a
    b x).2 ∧ (s.toSlot (s.measureWindow g i a b x).2).pdEn a = true ∧ (s.toSlot (s.measureWindow g i a b x).2).pdEn b = true) ∧
    (∃ (s : Block), s.tm.run = true ∧ s.abit R.OPT_CTRL 1 = true) ∧
    (∃ (s : Block), s.tm.run = true) ∧
    (∃ (s : Block) (r : ColReport), s.tm.run = true ∧ s.abit R.OPT_CTRL 1 = true ∧ s.co.own = some r) ∧
    (∃ (s : Block), s.tm.run = true ∧ s.abit R.OPT_CTRL 1 = true ∧ s.epochLen ≤ s.tm.ft) :=
  ⟨⟨darkened, darkened.advanceTo (darkened.nextDark + 14000), 7, 3, by decide +kernel, by decide +kernel, by decide +kernel,
    by decide +kernel, if_pos (by decide +kernel)⟩,
    ⟨watched, 0, 0, 0, 1, 0, slotOf 0x80001000 0, by decide +kernel⟩,
    ⟨live up R.OPT_CTRL 2, by decide +kernel⟩,
    ⟨up, by decide +kernel⟩,
    ⟨{ live up R.OPT_CTRL 2 with co := { up.co with own := some report } }, report, by decide +kernel⟩,
    ⟨{ live up R.OPT_CTRL 2 with tm := { up.tm with ft := 10000000000 } }, by decide +kernel⟩⟩

/-- States and operands that meet the hypotheses of each clause of `CalibrateCommandsRun`. -/
theorem witness_CalibrateCommandsRun :
    (∃ (s : Block) (cseq : Word) (c : Cmd), s.startable cseq 6 = some c ∧ c.par 16 1 = 1 ∧ calParamsOk c = true ∧ s.ca = none ∧ s.dc.sweep
    = none ∧ s.calFails (s.calRunOf c 1) false = []) ∧
    (∃ (s : Block) (cseq : Word) (c : Cmd), s.startable cseq 6 = some c ∧ c.par 16 1 = 2 ∧ calParamsOk c = true ∧ (memCfg s.act (c.par 18
    2)).group ≠ 4 ∧ s.ca = none ∧ s.dc.sweep = none ∧ s.calFails (s.calRunOf c 2) false = []) ∧
    (∃ (s : Block) (cseq : Word) (c : Cmd), s.startable cseq 6 = some c ∧ c.par 16 1 = 3 ∧ calParamsOk c = true ∧ s.ca = none ∧ s.dc.sweep
    = none ∧ s.calFails (s.calRunOf c 3) false = []) ∧
    (∃ (s : Block) (cseq : Word) (c : Cmd), s.startable cseq 6 = some c ∧ c.par 16 1 = 4 ∧ calParamsOk c = true ∧ s.ca = none ∧ s.dc.sweep
    = none ∧ s.calFails (s.calRunOf c 4) false = []) ∧
    (∃ (s : Block) (d : CalData) (r : CalRun), s.ca = some r ∧ r.phase = 3 ∧ calDataOk r d = true ∧ s.calFails r true = []) ∧
    (∃ (s : Block) (r : CalRun) (d : Nat) (l : List Nat), s.ca = some r ∧ r.phase < 7 ∧ s.calFails r true = d :: l) ∧
    (∃ (s : Block) (v : Word), s.hostOk = true ∧ bit v 0 = true) ∧
    (∃ (s : Block) (r : CalRun), s.ca = some r) ∧
    (∃ (s : Block) (w : Sweep) (c : Nat), s.dc.sweep = some w ∧ s.dc.due = some c ∧ w.calib = true) ∧
    (∃ (s : Block) (w : Sweep) (c : Nat), s.dc.sweep = some w ∧ s.dc.due = some c ∧ w.calib = false) :=
  ⟨⟨ring up 6 [1, 0, 1, 0, 0, 0], 1, cmdOf 6 [1, 0, 1, 0, 0, 0], by decide +kernel⟩,
    ⟨ring piReady 6 [2], 1, cmdOf 6 [2], by decide +kernel⟩,
    ⟨ring scanReady 6 [3], 1, cmdOf 6 [3], by decide +kernel⟩,
    ⟨ring (up.modPair 0 fun k => { k with st := 7 }) 6 [4], 1, cmdOf 6 [4], by decide +kernel⟩,
    ⟨{ up.modPair 0 fun k => { k with st := 8 } with ca := some calRun }, ⟨List.replicate 32 0, List.replicate 32 0, []⟩, calRun,
    by decide +kernel⟩,
    ⟨{ up with ca := some calRun }, calRun, 10, [], by decide +kernel⟩,
    ⟨up, 1, by decide +kernel⟩,
    ⟨{ up with ca := some calRun }, calRun, by decide +kernel⟩,
    ⟨{ up with dc := { up.dc with sweep := some ⟨1, 0, 0, false, 0, true⟩, due := some 1 } }, ⟨1, 0, 0, false, 0, true⟩, 1,
    by decide +kernel⟩,
    ⟨{ up with dc := { up.dc with sweep := some ⟨1, 0, 0, false, 0, false⟩, due := some 1 } }, ⟨1, 0, 0, false, 0, false⟩, 1,
    by decide +kernel⟩⟩

/-- States and operands that meet the hypotheses of each clause of `SeedbankCommandsRun`. -/
theorem witness_SeedbankCommandsRun :
    (∃ (s : Block) (t : Block) (w : SeedWrite) (c : Word), s.seedCommit = (t, some w) ∧ policyType w.req.ty = false ∧ w.req.why = .store ∧
    w.req.cseq = some c) ∧
    (∃ (s : Block) (ty : Nat) (slot : Nat), (slotTable ty).isSome = true ∧ slot < 2 ∧ s.slotBusy ty slot = false) ∧
    (∃ (s : Block) (i : Nat) (r : SeedReq), s.se.wr = none ∧ s.se.copyWr = none ∧ s.se.queue.findIdx? (fun r => decide (2 ≤ r.kind)) =
    some i ∧ s.se.queue[i]? = some r ∧ r.kind = 2) ∧
    (∃ (s : Block) (t : Block), bit (s.reg R.SEED_CTRL) 0 = true ∧ s.se.wr = none ∧ t = (s.toLocal (s.se.scrubAt +
    seedScrubGap)).scrubWord s.se.scrub ∧ t.se.bad.contains s.se.scrub = false) ∧
    (∃ (s : Block), s.hostOk = true ∧ bit (s.reg (R.PAGE_LOCK 0x1F)) 0 = false) ∧
    (∃ (s : Block) (cseq : Word) (c : Cmd), s.startable cseq 7 = some c ∧ storeType (c.par 16 2) = true ∧ c.par 18 1 = 0 ∧ c.par 20 4 ≠ 0
    ∧ c.par 20 4 ≤ slotSize (c.par 16 2) - 32 ∧ s.ownerPolicy = false) ∧
    (∃ (s : Block) (cseq : Word) (k : Nat) (c : Cmd), s.startable cseq 8 = some c ∧ (slotTable (c.par 16 2)).isNone = false ∧ c.par 18 1 =
    0 ∧ s.newest (c.par 16 2) = some k ∧ (s.slot (c.par 16 2) k).st = 1 ∧ c.par 16 2 ≠ 8 ∧ 16 + (s.slot (c.par 16 2) k).payload.length ≤
    c.par 20 4) :=
  ⟨⟨{ up with se := { up.se with wr := some seedWrite } }, ({ up with se := { up.se with wr := some seedWrite } } : Block).seedCommit.1,
    seedWrite, 1, rfl, by decide +kernel⟩,
    ⟨up, 15, 1, by decide +kernel⟩,
    ⟨{ up with se := { up.se with queue := [chkReq] } }, 0, chkReq, by decide +kernel⟩,
    ⟨up.setReg R.SEED_CTRL 1, _, by decide +kernel, by decide +kernel, rfl, by decide +kernel⟩,
    ⟨up, by decide +kernel⟩,
    ⟨ring up 7 [9, 0, 0, 0, 32], 1, cmdOf 7 [9, 0, 0, 0, 32], by decide +kernel⟩,
    ⟨ring stored 8 [9, 0, 0, 0, 255], 1, 0, cmdOf 8 [9, 0, 0, 0, 255], by decide +kernel⟩⟩

/-- States and operands that meet the hypotheses of each clause of `TrustCommandsRun`. -/
theorem witness_TrustCommandsRun :
    (∃ (s : Block) (cseq : Word) (c : Cmd), s.tr.attest = none ∧ s.startable cseq 9 = some c ∧ s.attestWaits cseq = false ∧ c.par 24 1 ≤ 1
    ∧ 768 + 72 * s.bt.mlog.length + 4 + s.tr.cert.length ≤ c.par 28 4 ∧ s.tr.identity = true) ∧
    (∃ (s : Block) (cseq : Word) (a : Attest), s.tr.attest = some a ∧ a.cseq = cseq ∧ s.startable cseq 9 = none) ∧
    (∃ (s : Block) (cseq : Word) (d : Bytes) (c : Cmd), s.startable cseq 0xA = some c ∧ c.par 16 1 = 1 ∧ s.pw.state = .ready ∧ c.par 17 1
    ≤ 3 ∧ c.par 18 1 = 0 ∧ field (padBytes 1040 d) 512 1 = c.par 16 1 ∧ field (padBytes 1040 d) 513 1 = c.par 17 1 ∧ s.ownerUsed (ownerOp
    c (padBytes 1040 d)).slot = false ∧ (List.range 4).any s.ownerUsed = false ∧ (ownerOp c (padBytes 1040 d)).auth = 255 ∧ ((padBytes
    1040 d).drop 516).take 8 = s.uidBytes) ∧
    (∃ (s : Block) (cseq : Word) (d : Bytes) (c : Cmd), s.startable cseq 0xA = some c ∧ c.par 16 1 = 2 ∧ s.pw.state = .ready ∧ c.par 17 1
    ≤ 3 ∧ c.par 18 1 = 0 ∧ field (padBytes 1040 d) 512 1 = c.par 16 1 ∧ field (padBytes 1040 d) 513 1 = c.par 17 1 ∧ s.authOk (ownerOp c
    (padBytes 1040 d)) (padBytes 1040 d) = true ∧ (s.verified true).fuse 2950 = false) ∧
    (∃ (s : Block) (cseq : Word) (d : Bytes) (c : Cmd), s.startable cseq 0xA = some c ∧ c.par 16 1 = 3 ∧ s.pw.state = .ready ∧ c.par 17 1
    ≤ 3 ∧ c.par 18 1 = 0 ∧ field (padBytes 1040 d) 512 1 = c.par 16 1 ∧ field (padBytes 1040 d) 513 1 = c.par 17 1 ∧ s.authOk (ownerOp c
    (padBytes 1040 d)) (padBytes 1040 d) = true) ∧
    (∃ (s : Block) (cseq : Word) (d : Bytes) (c : Cmd), s.startable cseq 0xA = some c ∧ c.par 16 1 = 4 ∧ s.pw.state = .ready ∧ c.par 17 1
    ≤ 3 ∧ c.par 18 1 = 0 ∧ field (padBytes 1040 d) 512 1 = c.par 16 1 ∧ field (padBytes 1040 d) 513 1 = c.par 17 1 ∧ s.ownerUsed (ownerOp
    c (padBytes 1040 d)).slot = true ∧ (sha512 (ownerOp c (padBytes 1040 d)).modulus == s.ownerHash (ownerOp c (padBytes 1040 d)).slot) =
    true) ∧
    (∃ (s : Block), s.hostOk = true) ∧
    (∃ (s : Block), s.tr.chalValid = true) :=
  ⟨⟨ring { up with tr := { up.tr with identity := true } } 9 attestPar, 1, cmdOf 9 attestPar, by decide +kernel⟩,
    ⟨{ up with tr := { up.tr with attest := some attest } }, 1, attest, by decide +kernel⟩,
    ⟨ring up 0xA [1, 0, 0], 1, List.replicate 512 0 ++ [1, 0] ++ List.replicate 10 0 ++ [255], cmdOf 0xA [1, 0, 0], by decide +kernel⟩,
    ⟨ring owned 0xA [2, 0, 0], 1, revokePackage, ownerCmd 2, (owned_runs 2 (by decide)).1, rfl, (owned_runs 2 (by decide)).2, by decide,
    rfl, package_fields.1.1, package_fields.1.2.1, owned_authOk 2 _ package_fields.1.2.2 test_package_signatures_verify.1, owned_policy 2⟩,
    ⟨ring owned 0xA [3, 0, 0], 1, policyPackage, ownerCmd 3, (owned_runs 3 (by decide)).1, rfl, (owned_runs 3 (by decide)).2, by decide,
    rfl, package_fields.2.1.1, package_fields.2.1.2.1, owned_authOk 3 _ package_fields.2.1.2.2 test_package_signatures_verify.2⟩,
    ⟨ring owned 0xA [4, 0, 0], 1, restorePackage, ownerCmd 4, (owned_runs 4 (by decide)).1, rfl, (owned_runs 4 (by decide)).2, by decide,
    rfl, package_fields.2.2.1, package_fields.2.2.2.1, owned_used 4, owned_restores⟩,
    ⟨up, by decide +kernel⟩,
    ⟨{ up with tr := { up.tr with chalValid := true } }, by decide +kernel⟩⟩

/-- States and operands that meet the hypotheses of each clause of `CueCommandsRun`. -/
theorem witness_CueCommandsRun :
    (∃ (s : Block) (i : Nat), i < 262144 ∧ s.hostOk = true ∧ (s.ctx i).st ≠ 1 ∧ (s.ctx i).st ≠ 2) ∧
    (∃ (s : Block) (i : Nat) (w : Nat), i < 262144 ∧ s.hostOk = true ∧ w < 3 ∧ ((s.ctx i).st = 1 ∨ (s.ctx i).st = 2)) ∧
    (∃ (s : Block) (i : Nat), i < 262144 ∧ s.hostOk = true) ∧
    (∃ (s : Block), s.hostOk = true) ∧
    (∃ (s : Block), s.cueOn = true ∧ s.cu.firedK ≠ s.cueE ∧ s.tm.cutoffDone = false) ∧
    (∃ (s : Block) (ref : Nat) (i : Nat) (c : CueCtx), s.cueOn = true ∧ s.nextFine = some (ref, i, c) ∧ s.fineTick ref ≤ s.nextFb) ∧
    (∃ (s : Block) (d : Bytes), s.fabOn = true ∧ d.length = 20) :=
  ⟨⟨up, 262143, by decide +kernel⟩,
    ⟨up.setCtx 0 armed, 0, 2, by decide +kernel⟩,
    ⟨up.setCtx 262143 { armed with st := 2 }, 262143, by decide +kernel⟩,
    ⟨up, by decide +kernel⟩,
    ⟨live up R.CUE_CFG 1, by decide +kernel⟩,
    ⟨live (up.setCtx 0 armed) R.CUE_CFG 1, 1000, 0, armed, by decide +kernel⟩,
    ⟨live up R.WPX_CFG 1, List.replicate 20 0, by decide +kernel⟩⟩

/-- States and operands that meet the hypotheses of each clause of `HoldoverCommandsRun`. -/
theorem witness_HoldoverCommandsRun :
    (∃ (s : Block), s.hostOk = true ∧ s.ho.inForce = true) ∧
    (∃ (s : Block), s.hostOk = true ∧ s.ho.inForce = false) ∧
    (∃ (s : Block) (cseq : Word) (c : Cmd), s.startable cseq 0x0D = some c ∧ c.par 16 1 = 1 ∧ s.sf.nvme.st = 3 ∧ c.par 24 4 ≠ 0 ∧ c.par 20
    4 + c.par 24 4 ≤ field s.sf.nvme.header 8 4) :=
  ⟨⟨{ up with ho := { up.ho with inForce := true } }, by decide +kernel⟩,
    ⟨up, by decide +kernel⟩,
    ⟨ring { up with sf := { up.sf with nvme := { up.sf.nvme with st := 3, header := [0, 0, 0, 0, 0, 0, 0, 0, 9] } } } 0xD [1, 0, 0, 0, 0,
    0, 0, 0, 3], 1, cmdOf 0xD [1, 0, 0, 0, 0, 0, 0, 0, 3], by decide +kernel⟩⟩

/-- States and operands that meet the hypotheses of each clause of `CheckUnitAndTallyCommandsRun`. -/
theorem witness_CheckUnitAndTallyCommandsRun :
    (∃ (s : Block) (u : Nat) (v : Word) (r : RegRow), s.hostOk = true ∧ u < 8 ∧ rowAt (R.CHK_CFG u) = some r ∧ bit (s.reg (R.PAGE_LOCK
    (pageOf (R.CHK_CFG u)))) 0 = false ∧ r.legalVal (r.merge (s.reg (R.CHK_CFG u)) (setBits v 28 3 1)) = true ∧ bit (setBits v 28 3 1) 28
    = true ∧ bit (setBits v 28 3 1) 29 = false ∧ bit (setBits v 28 3 1) 30 = false) ∧
    (∃ (s : Block) (u : Nat) (v : Word) (r : RegRow), s.hostOk = true ∧ u < 8 ∧ rowAt (R.CHK_CFG u) = some r ∧ bit (s.reg (R.PAGE_LOCK
    (pageOf (R.CHK_CFG u)))) 0 = false ∧ r.legalVal (r.merge (s.reg (R.CHK_CFG u)) (setBits v 28 3 2)) = true ∧ bit (setBits v 28 3 2) 28
    = false ∧ bit (setBits v 28 3 2) 29 = true ∧ bit (setBits v 28 3 2) 30 = false) ∧
    (∃ (s : Block) (u : Nat) (v : Word) (r : RegRow), s.hostOk = true ∧ u < 8 ∧ rowAt (R.CHK_CFG u) = some r ∧ bit (s.reg (R.PAGE_LOCK
    (pageOf (R.CHK_CFG u)))) 0 = false ∧ r.legalVal (r.merge (s.reg (R.CHK_CFG u)) (setBits v 28 3 4)) = true ∧ bit (setBits v 28 3 4) 28
    = false ∧ bit (setBits v 28 3 4) 29 = false ∧ bit (setBits v 28 3 4) 30 = true) ∧
    (∃ (s : Block) (u : Nat), s.hostOk = true ∧ u < 8 ∧ (s.chkU u).isOpen = true ∧ (s.chkU u).busy = false) ∧
    (∃ (s : Block) (u : Nat), u < 8 ∧ (s.chkU u).busy = true) ∧
    (∃ (s : Block) (u : Nat) (v : Word) (r : RegRow), s.hostOk = true ∧ u < 8 ∧ rowAt (R.CHK_PHI u) = some r ∧ bit (s.reg (R.PAGE_LOCK
    (pageOf (R.CHK_PHI u)))) 0 = false ∧ r.legalVal (r.merge (s.reg (R.CHK_PHI u)) v) = true) ∧
    (∃ (s : Block) (u : Nat) (v : Word) (r : RegRow), s.hostOk = true ∧ u < 8 ∧ rowAt (R.CHK_PSEL u) = some r ∧ bit (s.reg (R.PAGE_LOCK
    (pageOf (R.CHK_PSEL u)))) 0 = false ∧ r.legalVal (r.merge (s.reg (R.CHK_PSEL u)) v) = true) ∧
    (∃ (s : Block) (v : Word), s.hostOk = true ∧ bit v 0 = true) ∧
    (∃ (s : Block) (n : Nat) (c : TallyCnt), s.ty.cnt[n]? = some c ∧ 2 ^ 48 ≤ c.count) :=
  ⟨⟨up, 7, 8, (rowAt (R.CHK_CFG 7)).get (by decide +kernel), by decide +kernel⟩,
    ⟨up, 7, 8, (rowAt (R.CHK_CFG 7)).get (by decide +kernel), by decide +kernel⟩,
    ⟨up, 7, 8, (rowAt (R.CHK_CFG 7)).get (by decide +kernel), by decide +kernel⟩,
    ⟨(up).modChk 7 fun k => { k with isOpen := true }, 7, by decide +kernel⟩,
    ⟨(up).modChk 7 fun k => { k with busy := true }, 7, by decide +kernel⟩,
    ⟨up, 7, 9, (rowAt (R.CHK_PHI 7)).get (by decide +kernel), by decide +kernel⟩,
    ⟨up, 7, 0, (rowAt (R.CHK_PSEL 7)).get (by decide +kernel), by decide +kernel⟩,
    ⟨up, 1, by decide +kernel⟩,
    ⟨{ up with ty := { up.ty with cnt := [⟨2 ^ 48, 0, false, false⟩] } }, 0, ⟨2 ^ 48, 0, false, false⟩, by decide +kernel⟩⟩

/-- States and operands that meet the hypotheses of each clause of `SafetyAndFaultCommandsRun`. -/
theorem witness_SafetyAndFaultCommandsRun :
    (∃ (s : Block) (i : Nat), ¬ 3 ≤ i ∧ s.inputForbids i = true ∧ s.pw.state = .ready ∧ s.pw.coreGated = false ∧ s.fl.svRunning = true) ∧
    (∃ (s : Block) (i : Nat), ¬ 3 ≤ i ∧ s.inputForbids i = false ∧ s.pw.state = .ready ∧ s.pw.coreGated = false ∧ s.fl.svRunning = true) ∧
    (∃ (s : Block), s.fl.svRunning = true) ∧
    (∃ (s : Block) (cseq : Word) (c : Cmd), s.startable cseq 0xF = some c ∧ c.par 20 1 = 0 ∧ ((c.param.drop 5).any (· != 0)) = false ∧ w32
    (c.par 16 4) = 0xFFFFFFFF) :=
  ⟨⟨up, 0, by decide +kernel⟩,
    ⟨{ up with pins := { up.pins with estopN := true } }, 2, by decide +kernel⟩,
    ⟨up, by decide +kernel⟩,
    ⟨ring up 0xF [255, 255, 255, 255], 1, cmdOf 0xF [255, 255, 255, 255], by decide +kernel⟩⟩

/-! ## Witnesses: rules, frames and invariants -/

/-- Two serial numbers half the range apart. -/
theorem witness_SerialNumbersHalfwayApartAreNotNewer : ∃ a b : Word, (a - b).toNat = 2 ^ 31 := ⟨0x80000005, 5, by decide +kernel⟩

/-- GO at 0, GO while an invalidation runs, and GO while none does. -/
theorem witness_InvalidationGoIsRefusedWhileOneRuns :
    (∃ v : Word, up.hostOk = true ∧ bit v 0 = false) ∧
    (∃ s : Block, ∃ v : Word, s.hostOk = true ∧ bit v 0 = true ∧ bit (s.presentNow R.DTU_STATUS) 1 = true) ∧
    ∃ s : Block, ∃ v : Word, s.hostOk = true ∧ bit v 0 = true ∧ bit (s.presentNow R.DTU_STATUS) 1 = false :=
  ⟨⟨0, by decide +kernel⟩, ⟨{ up with dt := { up.dt with inv := some ⟨true, 0, 0, 0⟩ } }, 1, by decide +kernel⟩, ⟨up, 1, by decide +kernel⟩⟩

/-- A wrong key; the key without FORCE in LIT; the key in READY, and with FORCE in FROST_HOLD. -/
theorem witness_WarmResetNeedsKeyAndForce :
    (∃ s : Block, ∃ v : Word, s.hostOk = true ∧ bits v 16 16 ≠ 0x5752) ∧
    (∃ s : Block, ∃ v : Word, s.hostOk = true ∧ bits v 16 16 = 0x5752 ∧ bit v 0 = true ∧
      (s.pw.state = .lit ∨ s.pw.state = .frostHold) ∧ bit v 1 = false) ∧
    (∃ s : Block, ∃ v : Word, s.hostOk = true ∧ bits v 16 16 = 0x5752 ∧ bit v 0 = true ∧ s.pw.state ≠ .lit ∧ s.pw.state ≠ .frostHold) ∧
    ∃ s : Block, ∃ v : Word, s.hostOk = true ∧ bits v 16 16 = 0x5752 ∧ bit v 0 = true ∧ s.pw.state = .frostHold ∧ bit v 1 = true :=
  ⟨⟨up, 0x57530001, by decide +kernel⟩, ⟨on .lit, 0x57520001, by decide +kernel⟩, ⟨up, 0x57520001, by decide +kernel⟩,
    ⟨on .frostHold, 0x57520003, by decide +kernel⟩⟩

/-- A block with an open fault record, whose resets free it. -/
def faulted : Block := { up with fl := { up.fl with recs := [(3, lockRec)] } }

/-- Each reset of `ResetsFreeEveryFaultRecord` meets a record to free. -/
theorem witness_ResetsFreeEveryFaultRecord : faulted.fl.recs ≠ [] ∧ faulted.hostOk = true ∧ bits (0x57520001 : Word) 16 16 = 0x5752 ∧
    bit (0x57520001 : Word) 0 = true ∧ faulted.pw.state.lightOn = false ∧ faulted.pw.state ≠ .off ∧ faulted.pw.state ≠ .aon ∧
    faulted.pw.coreGated = false ∧ (11 : Nat) < 12 := by decide +kernel

/-- The rings stopped, in READY. -/
theorem witness_EnablingARingTakesItsOtherIndex : up.hostOk = true ∧ bit (up.reg (R.PAGE_LOCK 4)) 0 = false ∧
    bit (up.reg R.RING_CTRL) 0 = false ∧ bit (up.reg R.RING_CTRL) 1 = false := by decide +kernel

/-- The command ring running with an entry to fetch, both rings on; the ring stopped by a fault. -/
theorem witness_FetchFaultStopsConsumption :
    (∃ s : Block, ∃ k : Nat, s.fetching = true ∧ (k = 4 ∨ k = 5) ∧ bit (s.reg R.RING_CTRL) 1 = true) ∧
    (∃ s : Block, bit (s.reg R.RING_STATUS) 1 = true) ∧
    ∃ s : Block, s.hostOk = true ∧ bit (s.reg (R.PAGE_LOCK 4)) 0 = false :=
  ⟨⟨(up.setReg R.RING_CTRL 3).setReg R.RING_CMD_TAIL 1, 5, by decide +kernel⟩, ⟨up.setReg R.RING_STATUS 2, by decide +kernel⟩,
    ⟨up, by decide +kernel⟩⟩

/-- Both rings on and no commit on the page. -/
theorem witness_RingSoftResetKeepsIndices : ∃ s : Block, s.hostOk = true ∧ bit (s.reg (R.PAGE_LOCK 4)) 0 = false ∧
    (s.cm.list.all fun c => !natBit c.pages 4) = true ∧ s.reg R.RING_CTRL = 3 := ⟨up.setReg R.RING_CTRL 3, by decide +kernel⟩

/-- A listed page in LIT, and port 3's page in FROST_HOLD while its port is enabled. -/
theorem witness_LitSoftResetsAreRefused :
    (∃ s : Block, ∃ p : Nat, s.hostOk = true ∧ bit (s.reg (R.PAGE_LOCK p)) 0 = false ∧ s.pw.state = .lit ∧
      p ∈ [0x07, 0x0D, 0x15, 0x16, 0x17, 0x18, 0x19, 0x1C, 0x2B]) ∧
    ∃ s : Block, s.hostOk = true ∧ bit (s.reg (R.PAGE_LOCK 0x11)) 0 = false ∧ s.pw.state = .frostHold ∧
      s.abit (R.MA_CFG 3) 0 = true :=
  ⟨⟨on .lit, 0x2B, by decide +kernel⟩, ⟨live (on .frostHold) (R.MA_CFG 3) 1, by decide +kernel⟩⟩

/-- The block in READY, its latch set. -/
theorem witness_AlwaysOnPowerLossClearsTheLatch : ∃ s : Block, s.pw.state ≠ .off ∧ bit (s.reg R.PWR_FIREBREAK) 0 = true :=
  ⟨up.setReg R.PWR_FIREBREAK 1, by decide +kernel⟩

/-- A ring of 16 entries and a tail 17 ahead of its head. -/
theorem witness_SkidderTailBeyondTheRingIsIgnored : ∃ s : Block, ∃ v : Word, (15 : Nat) < 16 ∧ s.hostOk = true ∧
    bit (s.reg (R.PAGE_LOCK 5)) 0 = false ∧ s.skdEntries 15 = 16 ∧ s.skdEntries 15 < (bits v 0 16 + 65536 - (s.skd 15).head) % 65536 :=
  ⟨up.setReg (R.SKD_CH_CTRL 15) 0x101, 17, by decide +kernel⟩

/-- An armed context, and a fired one, at the ends of the table. -/
theorem witness_ArmedCueContextsAreProtected :
    (∃ s : Block, ∃ i w : Nat, s.hostOk = true ∧ i < 262144 ∧ w < 3 ∧ (s.ctx i).st = 1) ∧
    (∃ s : Block, ∃ i w : Nat, s.hostOk = true ∧ i < 262144 ∧ w < 3 ∧ (s.ctx i).st = 2) ∧
    (∃ s : Block, ∃ i : Nat, ∃ v : Word, s.hostOk = true ∧ i < 262144 ∧ (s.ctx i).st = 2 ∧ bits v 0 3 = 5) ∧
    ∃ s : Block, ∃ v : Word, s.hostOk = true ∧ (s.ctx (bits v 0 18)).st = 2 :=
  ⟨⟨up.setCtx 262143 armed, 262143, 2, by decide +kernel⟩, ⟨up.setCtx 0 { armed with st := 2 }, 0, 0, by decide +kernel⟩,
    ⟨up.setCtx 0 { armed with st := 2 }, 0, 5, by decide +kernel⟩, ⟨up.setCtx 262143 { armed with st := 2 }, 262143, by decide +kernel⟩⟩

/-- The record of the lost lock is open. -/
theorem witness_RecurringFaultOpensNoRecord : faulted.openRec 0x12 0x0C2 0 = some (3, lockRec) := by decide +kernel

/-- The frame period of reset is 25,000,000 / 3 ns. -/
theorem witness_FrameBoundariesFallWithoutDrift : up.tm.den ≠ 0 ∧ up.fbAt 3 = 25000000 := by decide +kernel

/-- A boundary to come, with TIME running; a newest commit that loads the FSN at it. -/
theorem witness_FrameSequenceSteps :
    (∃ s : Block, s.tm.run = true) ∧
    ∃ s : Block, s.tm.run = true ∧
      (let u := (s.cueFiring []).cutoff.advanceTo (s.cueFiring []).cutoff.nextFb
       ∃ c : Commit, u.cm.list = [] ++ c :: [] ∧
        (c.display && !u.holds c && natBit c.pages 7 && bit (sget regDflt c.vals R.TIME_FB_CTRL) 0) = true) :=
  ⟨⟨up, rfl⟩, loadsFsn, by decide +kernel, fsnCommit, by decide +kernel⟩

/-- The last page that has an interrupt vector. -/
theorem witness_InterruptMessagesFollowTheCondition : up.hostOk = true ∧ (0x2C : Nat) ≤ 0x2C ∧ bit (up.reg (R.PAGE_LOCK 0x2C)) 0 = false :=
  by decide +kernel

/-- The window open on the last bytes it reaches, in pair 7 and in pair 6. -/
theorem witness_HostWindowWritesReachOnlyThreePairs (hi : Word) (h : hi = 7 ∨ hi = 6) : ∃ s : Block, ∃ off pa : Nat, ∃ bs : List Byte,
    s.hostOk = true ∧ off + bs.length ≤ 0x2000000 ∧ bit (s.reg R.DEV_WIN_CTRL) 0 = true ∧ bit (s.reg R.DEV_WIN_CTRL) 2 = false ∧
    pa = s.fld R.DEV_WIN_BASE_HI 0 16 * 0x100000000 + s.fld R.DEV_WIN_BASE_LO 25 7 * 0x2000000 + off ∧ inDram pa = true ∧
    pairOf pa = hi.toNat := by
  rcases h with rfl | rfl
  · exact ⟨(up.setReg R.DEV_WIN_CTRL 1).setReg R.DEV_WIN_BASE_HI 7, 0x1FFFFFE, 0x701FFFFFE, [1, 2], by decide +kernel⟩
  · exact ⟨(up.setReg R.DEV_WIN_CTRL 1).setReg R.DEV_WIN_BASE_HI 6, 0x1FFFFFE, 0x601FFFFFE, [1, 2], by decide +kernel⟩

/-- Every command the frame of the rings names answers a next state. -/
theorem witness_RingCommandsFrame : ∀ c ∈ [Instr.ringCmdTailWrite 3, .ringCmdResync 1, .cmdEnSet, .cmdEnClear, .evtEnSet, .evtEnClear],
    ∃ t : State, exec c upState = .next t := fun c _ => ⟨_, exec_next c up []⟩

/-- Every command the frame of the page controls names answers a next state. -/
theorem witness_HostPageCommandsFrame : ∀ c ∈ [Instr.pageLockWrite 4 1, .intStatusClear 4 1, .intForce 4 1, .pageFreeze 4 true, .softResetDone 4],
    ∃ t : State, exec c upState = .next t := fun c _ => ⟨_, exec_next c up []⟩

/-- Every command of the frame of translation and the check-value units answers a next state. -/
theorem witness_DtuAndCheckUnitFrame : ∀ c ∈ [Instr.dtuInvGo 1, .dtuProbe 0, .chkFeed 0 1, .chkParameterWrite 0 true 1],
    ∃ t : State, exec c upState = .next t := fun c _ => ⟨_, exec_next c up []⟩

/-- Every command of the frame of the cue contexts answers a next state. -/
theorem witness_CueContextFrame : ∀ c ∈ [Instr.cueContextWrite 5 3 1, .cueOpArm 5, .cueOpCancel 5],
    ∃ t : State, exec c upState = .next t := fun c _ => ⟨_, exec_next c up []⟩

/-- A step from a state whose stores are canonical. -/
theorem witness_StepKeepsStoresCanonical : ∃ s t : State, step s = .next t ∧ s.regsWf = true ∧ s.dramWf = true :=
  ⟨⟨up, [.timeFtSetHiWrite 1]⟩, _, step_cons _ up [], by decide +kernel, by decide +kernel⟩

/-- A step from a state that has every unit. -/
theorem witness_StepKeepsUnitCounts : ∃ s t : State, step s = .next t ∧ s.toBlock.sized :=
  ⟨⟨up, [.timeFtSetHiWrite 1]⟩, _, step_cons _ up [], ⟨rfl, rfl, rfl, rfl, rfl, rfl, rfl, rfl⟩⟩

/-- A step from a state with a blown fuse. -/
theorem witness_BlownFusesStayBlown : ∃ s t : State, ∃ i : Nat, step s = .next t ∧ s.fuse i = true :=
  ⟨⟨{ up with se := { up.se with otp := [(112, 1)] } }, [.pfWarn]⟩, _, 896, step_cons _ _ [], by decide +kernel⟩

/-- A step that lets FT run. -/
theorem witness_FabricTimeRunsForward : ∃ s t : State, step s = .next t ∧ s.tm.ft < t.tm.ft :=
  ⟨⟨up, [.frameBoundary]⟩, ⟨effect .frameBoundary up, []⟩, step_cons _ up [], by decide +kernel⟩

end Sys2Proof.Tests
end

namespace Sys2Proof.Machine

/-- The window of R7: the distance from `b` up to `a`, modulo 2³², lies in the half-open interval from 1 to 2³¹. -/
theorem newer_iff (a b : Word) : newer a b = true ↔ 1 ≤ (a - b).toNat ∧ (a - b).toNat < 2 ^ 31 := by
  simp [newer]

/-- Settles O34: the distance 2³¹ is the excluded upper end of the window of R7. -/
theorem serialNumbersHalfwayApartAreNotNewer : Obligations.SerialNumbersHalfwayApartAreNotNewer := by
  intro a b hdist
  have hout : ¬ newer a b = true := fun hnew => (newer_iff a b).mp hnew |>.2.ne hdist
  exact Bool.eq_false_of_not_eq_true hout

end Sys2Proof.Machine

namespace Sys2Proof.Machine

/-- FW_ACTIVATE of a kind, its reserved bytes 0, is judged by the rules of that kind alone (R158). -/
theorem Block.fwActivate_accepted {s : Block} {cseq : Word} {kind : Nat} {c : Cmd} (hstart : s.startable cseq 5 = some c)
    (hkind : c.par 16 1 = kind) (hres : (((c.param.take 16).drop 1).any (· != 0)) = false) (f : Block → Cmd → Block) :
    s.fwActivate cseq kind f = f s c := by
  simp only [Block.fwActivate, hstart, hkind, hres, ne_eq, not_true_eq_false, false_and, false_or, Bool.false_eq_true, if_false]

/-- Settles O8: `exec` gives each command its own meaning, and a clause's hypotheses pick that meaning's one branch.  The clauses with a
`match` in their conclusion end in `rfl`, which also identifies their matcher with the model's where the two stand in different files. -/
theorem bootAndFirmwareCommandsRun : Obligations.BootAndFirmwareCommandsRun := by
  refine ⟨?sourceFails, ?bootEnds, ?stage, ?activateHk, ?activateSv, ?activateRollback, ?trialPasses, ?trialFails, ?selfTest,
    ?restartAsked, ?watchdog, ?restartEnds, ?managementLost⟩
  case sourceFails =>
    intro s q hboot hsource
    change execBootSourceTimeout false ⟨s, q⟩ = _
    simp only [execBootSourceTimeout, State.does_next, hboot, ne_eq, not_true_eq_false, if_false, Bool.false_eq_true, if_neg hsource]
  case bootEnds =>
    intro s q f s1 hk sv hboot hpick
    change execBootComplete f ⟨s, q⟩ = _
    simp only [execBootComplete, State.does_next, hboot, hpick, ne_eq, not_true_eq_false, if_false]
  case stage =>
    intro s q cseq host c t bs hstart hkind hsrc hmin hmax hfree hhost hread
    have hparams : ¬ (2 < c.par 16 1 ∨ 2 < c.par 17 1 ∨ c.par 20 4 < 1152 ∨ slotSize (c.par 16 1 + 1) - 32 < c.par 20 4) := by omega
    have htransfer : ¬ (c.par 17 1 ≠ 1 ∧ host.isNone = true) := by
      rcases hhost with hbus | hgiven
      · simp [hbus]
      · simp [Option.isNone_eq_false_iff.mpr hgiven]
    change execFwStage cseq host ⟨s, q⟩ = _
    simp only [execFwStage, State.does_next, hstart, Block.fwStageStart, if_neg hparams, hfree, Option.isSome_none, Bool.false_eq_true,
      if_false, if_neg htransfer, hread] <;> rfl
  case activateHk =>
    intro s q cseq c hstart hkind hres hready
    change execFwActivateHk cseq ⟨s, q⟩ = _
    simp only [execFwActivateHk, State.does_next, Block.fwActivate_accepted hstart hkind hres, hready, Bool.not_true, Bool.false_eq_true,
      if_false] <;> rfl
  case activateSv =>
    intro s q cseq c hstart hkind hres hset hstandby hready
    change execFwActivateSv cseq ⟨s, q⟩ = _
    simp only [execFwActivateSv, State.does_next, Block.fwActivate_accepted hstart hkind hres, hstandby, hset, hready, ne_eq,
      not_true_eq_false, Option.isSome_none, Bool.not_true, Bool.false_eq_true, if_false] <;> rfl
  case activateRollback =>
    intro s q cseq c hstart hkind hres hnew hfits
    change execFwActivateRollback cseq ⟨s, q⟩ = _
    simp only [execFwActivateRollback, State.does_next, Block.fwActivate_accepted hstart hkind hres, if_neg hnew, if_neg hfits]
  case trialPasses =>
    intro s q h hrestart htrial hintime
    change execFwTrialPass ⟨s, q⟩ = _
    simp only [execFwTrialPass, State.does_next, hrestart, htrial, hintime, Bool.true_eq_false, or_self, if_false]
  case trialFails =>
    intro s q h hrestart htrial
    change execFwTrialFail ⟨s, q⟩ = _
    simp only [execFwTrialFail, State.does_next, hrestart, htrial, Bool.true_eq_false, if_false]
  case selfTest =>
    intro s q hactivation htest
    change execSvSelftestDone true ⟨s, q⟩ = _
    simp only [execSvSelftestDone, State.does_next, hactivation, htest, Bool.false_eq_true, if_false, if_true]
  case restartAsked =>
    intro s q v hhost hkey hmay
    change execHkRestartRequest v ⟨s, q⟩ = _
    rw [execHkRestartRequest, State.does_next, Block.onStrobe_served hhost, Block.hkStrobe, if_pos ⟨hkey, hmay⟩]
  case watchdog =>
    intro s q hmay
    change execHkWatchdogExpiry ⟨s, q⟩ = _
    rw [execHkWatchdogExpiry, State.does_next, if_pos hmay]
  case restartEnds =>
    intro s q htrial
    change execHkRestartEnd ⟨s, q⟩ = _
    simp only [execHkRestartEnd, State.does_next, htrial, Bool.false_eq_true, if_false]
  case managementLost =>
    intro s q h hrestart hheld
    change execMgmtLost ⟨s, q⟩ = _
    simp only [execMgmtLost, State.does_next, hrestart, hheld, Bool.false_eq_true, if_false]

end Sys2Proof.Machine

namespace Sys2Proof.Machine

/-- Settles O2: the model's step on an empty queue. -/
theorem stepIdles : Obligations.StepIdles := step_nil

/-- How far FB_k lies behind the epoch: the whole part of k periods (R46). -/
theorem Block.fbAt_sub_epoch (s : Block) (k : Nat) : s.fbAt k - s.tm.epoch = k * s.tm.num / s.tm.den := by
  rw [Block.fbAt, Nat.add_sub_cancel_left]

/-- The series does not run backwards. -/
theorem Block.fbAt_mono (s : Block) {j k : Nat} (hjk : j ≤ k) : s.fbAt j ≤ s.fbAt k :=
  Nat.add_le_add_left (Nat.div_le_div_right (Nat.mul_le_mul_right _ hjk)) _

/-- DEN boundaries take NUM nanoseconds. -/
theorem Block.fbAt_add_den (s : Block) (k : Nat) (hden : s.tm.den ≠ 0) : s.fbAt (k + s.tm.den) = s.fbAt k + s.tm.num := by
  rw [Block.fbAt, Nat.add_mul, Nat.add_mul_div_left _ _ (Nat.pos_of_ne_zero hden), ← Nat.add_assoc, Block.fbAt]

/-- Settles O46: the epoch is added to a quotient rounded down, and DEN divides what DEN more indices add to its dividend. -/
theorem frameBoundariesFallWithoutDrift : Obligations.FrameBoundariesFallWithoutDrift := by
  intro s j k hden
  refine ⟨Nat.le_add_right _ _, ?_, ?_, s.fbAt_mono, s.fbAt_add_den k hden⟩
  · rw [s.fbAt_sub_epoch]
    exact Nat.div_mul_le_self _ _
  · rw [s.fbAt_sub_epoch, Nat.mul_comm _ s.tm.den]
    exact Nat.lt_mul_div_succ _ (Nat.pos_of_ne_zero hden)

/-- Settles O3: a clause's hypotheses are the tests its command makes. -/
theorem frameAndCommitCommandsRun : Obligations.FrameAndCommitCommandsRun := by
  refine ⟨?boundary, ?cutoff, ?pageCommit, ?pageAbort, ?deviceCommit, ?deviceAbort⟩
  case boundary =>
    intro s q _
    change execFrameBoundary ⟨s, q⟩ = _
    rw [execFrameBoundary, State.does_next]
  case cutoff =>
    intro s q hrun hnew
    change execCommitCutoff ⟨s, q⟩ = _
    have hdue : ¬ (s.tm.cutoffDone || !s.tm.run) = true := by simp [hnew, hrun]
    rw [execCommitCutoff, State.does_next, Block.cutoff, if_neg hdue]
  case pageCommit =>
    intro s q p abort hhost hpage
    change execPageCommitReq p abort ⟨s, q⟩ = _
    rw [execPageCommitReq, State.does_next, Block.onStrobe_served hhost, if_pos hpage]
  case pageAbort =>
    intro s q p hhost hpage
    change execPageCommitAbort p ⟨s, q⟩ = _
    rw [execPageCommitAbort, State.does_next, Block.onStrobe_served hhost, if_pos hpage]
  case deviceCommit =>
    intro s q abort hhost
    change execDevCommitReq abort ⟨s, q⟩ = _
    rw [execDevCommitReq, State.does_next, Block.onStrobe_served hhost]
  case deviceAbort =>
    intro s q hhost
    change execDevCommitAbort ⟨s, q⟩ = _
    rw [execDevCommitAbort, State.does_next, Block.onStrobe_served hhost]
end Sys2Proof.Machine

namespace Sys2Proof.Machine

/-- Settles O19: each command tests the place in the frame that its clause names; the end of the last dwell is then its own body. -/
theorem mirrorFrameCommandsRun : Obligations.MirrorFrameCommandsRun := by
  refine ⟨?preload, ?dark, ?slot, ?kerf, ?lastDwell, ?loadStarts, ?loadEnds, ?underrun⟩
  case preload =>
    intro s q hrun
    change execPreloadStart ⟨s, q⟩ = _
    rw [execPreloadStart, State.does_next, if_pos hrun]
  case dark =>
    intro s q _ _
    change execDarkIntervalStart ⟨s, q⟩ = _
    rw [execDarkIntervalStart, State.does_next]
  case slot =>
    intro s q g ev x hg _ _ _ _
    change execSlotStart g ev ⟨s, q⟩ = _
    rw [execSlotStart, State.does_next, if_pos hg]
  case kerf =>
    intro s q g rdyLow seenHigh hg _ _
    change execKerfEnd g rdyLow seenHigh ⟨s, q⟩ = _
    rw [execKerfEnd, State.does_next, if_pos hg]
  case lastDwell =>
    intro s q g ev hg hst hphase hlast
    have hplace : ¬ ((s.port g).st ≠ 5 || (s.port g).phase ≠ 2 || (s.port g).slot + 1 ≠ (calSlots (s.port g).words).length) = true := by
      simp [hst, hphase, hlast]
    change execLastDwellEnd g ev ⟨s, q⟩ = _
    rw [execLastDwellEnd, State.does_next, if_pos hg, Block.lastDwellEnd, if_neg hplace]
  case loadStarts =>
    intro s q p x hp _ _ _ _
    change execPlaneLoadStart p ⟨s, q⟩ = _
    rw [execPlaneLoadStart, State.does_next, if_pos hp]
  case loadEnds =>
    intro s q p hp _
    change execPlaneLoadEnd p ⟨s, q⟩ = _
    rw [execPlaneLoadEnd, State.does_next, if_pos hp]
  case underrun =>
    intro s q p hp hloading
    change execFifoUnderrun p ⟨s, q⟩ = _
    rw [execFifoUnderrun, State.does_next, if_pos ⟨hp, hloading⟩]

/-- A write to an RW register that the host reaches, on a page not locked and of a legal value, has the register's effect. -/
theorem Block.rwWrite_legal {s : Block} {a : Nat} {v : Word} {r : RegRow} (hhost : s.hostOk = true) (hrow : rowAt a = some r)
    (hlock : bit (s.reg (R.PAGE_LOCK (pageOf a))) 0 = false) (hlegal : r.legalVal (r.merge (s.reg a) v) = true) (f : Block → Word → Block) :
    s.rwWrite a v f = f s (r.merge (s.reg a) v) := by
  simp only [Block.rwWrite, hhost, Block.rwTake, hrow, hlock, hlegal, if_true, Bool.false_eq_true, if_false]

/-- A source that is still qualified once TIME_SRC_QUALIFY has passed is selected (R40). -/
theorem Block.requalify_some {s : Block} {c : TimeSrc} {t : Nat} (hsince : s.srcSince c = some t) (habove : s.above c = true)
    (hqual : s.qualified c = true) (hkept : (s.advance (t + s.fld R.TIME_SRC_QUALIFY 0 16 * 1000000 - s.now)).qualified c = true) :
    s.requalify c = some ((s.advance (t + s.fld R.TIME_SRC_QUALIFY 0 16 * 1000000 - s.now)).goSrc c) := by
  simp only [Block.requalify, hsince, habove, hqual, hkept, and_self, if_true]

/-- Settles O4: a clause's hypotheses are the tests its command makes. -/
theorem timeCommandsRun : Obligations.TimeCommandsRun := by
  refine ⟨?ftLo, ?cutoffLo, ?snapLo, ?ftSetHi, ?ftSetLo, ?ctrl, ?lost, ?requalified, ?edge, ?freewheel, ?timecode⟩
  case ftLo =>
    intro s q hhost
    change execTimeFtLoRead ⟨s, q⟩ = _
    rw [execTimeFtLoRead, State.does_next, if_pos hhost]
  case cutoffLo =>
    intro s q hhost hrun
    change execTimeCutoffLoRead ⟨s, q⟩ = _
    rw [execTimeCutoffLoRead, State.does_next, if_pos hhost, if_pos hrun]
  case snapLo =>
    intro s q n c hhost hcnt
    change execTallySnapLoRead n ⟨s, q⟩ = _
    simp only [execTallySnapLoRead, State.does_next, hhost, if_true, hcnt]
  case ftSetHi =>
    intro s q v hhost
    change execTimeFtSetHiWrite v ⟨s, q⟩ = _
    rw [execTimeFtSetHiWrite, State.does_next, if_pos hhost]
  case ftSetLo =>
    intro s q v hhost hrun hsettable
    change execTimeFtSetLoWrite v ⟨s, q⟩ = _
    simp only [execTimeFtSetLoWrite, State.does_next, hhost, if_true, Block.ftSet, hrun, hsettable, Bool.not_true, Bool.false_eq_true,
      if_false]
  case ctrl =>
    intro s q v r hhost hrow hlock hlegal
    change execTimeCtrlWrite v ⟨s, q⟩ = _
    rw [execTimeCtrlWrite, State.does_next, Block.rwWrite_legal hhost hrow hlock hlegal]
  case lost =>
    intro s q t hsrc hlast hrun hstill
    have hgoes : ¬ (s.tm.src = .refclk ∨ (!s.tm.run) = true) := by simp [hsrc, hrun]
    change execTimeSourceLost ⟨s, q⟩ = _
    rw [hsrc] at hgoes
    simp only [execTimeSourceLost, State.does_next, hsrc, Block.srcLast, hlast, if_neg hgoes, hstill, if_true]
  case requalified =>
    intro s q u t hrun hauto hsince habove hqual hu hkept
    subst hu
    change execTimeSourceRequalified ⟨s, q⟩ = _
    rw [execTimeSourceRequalified, State.does_next, if_pos ⟨hrun, hauto⟩, @Block.requalify_some s .wipex t hsince habove hqual hkept]
  case edge =>
    intro s q after hrun hmode
    change execFsyncInEdge after ⟨s, q⟩ = _
    rw [execFsyncInEdge, State.does_next, if_pos ⟨hrun, hmode⟩]
  case freewheel =>
    intro s q hvalid
    change execTcFreewheelExpiry ⟨s, q⟩ = _
    rw [execTcFreewheelExpiry, State.does_next, if_pos hvalid]
  case timecode =>
    intro s q cseq c hstart hok hsource hoff
    change execTimecode cseq ⟨s, q⟩ = _
    simp only [execTimecode, State.does_next, hstart, Block.timecode, hok, hsource, hoff, Bool.not_true, Bool.false_eq_true, if_false, if_true,
      Bool.false_and]
end Sys2Proof.Machine

namespace Sys2Proof.Machine

/-!
SUPPORT. What leaves the time state alone. One lemma for each operation of the model that does not write it, in the order of the
model; a lemma about a loop or a wrapper asks the same of what it runs.
-/

@[simp] theorem Block.tm_ite (c : Prop) [Decidable c] (a b : Block) : (if c then a else b).tm = if c then a.tm else b.tm := apply_ite ..

@[simp] theorem foldl_tm {α : Type} {f : Block → α → Block} (hf : ∀ t x, (f t x).tm = t.tm) (l : List α) (s : Block) :
    (l.foldl f s).tm = s.tm := by
  induction l generalizing s with
  | nil => rfl
  | cons x l ih => rw [List.foldl_cons, ih, hf]

theorem foldl_fst_tm {α β : Type} {f : Block × β → α → Block × β} (hf : ∀ a x, (f a x).1.tm = a.1.tm)
    (l : List α) (a : Block × β) : (l.foldl f a).1.tm = a.1.tm := by
  induction l generalizing a with
  | nil => rfl
  | cons x l ih => rw [List.foldl_cons, ih, hf]

theorem foldl_snd_tm {α β : Type} {f : β × Block → α → β × Block} (hf : ∀ a x, (f a x).2.tm = a.2.tm)
    (l : List α) (a : β × Block) : (l.foldl f a).2.tm = a.2.tm := by
  induction l generalizing a with
  | nil => rfl
  | cons x l ih => rw [List.foldl_cons, ih, hf]

section
variable (s : Block)

/-! Machine/Ops.lean -/

@[simp] theorem Block.takeBelow_tm (n : Nat) : (s.takeBelow n).2.tm = s.tm := by simp only [Block.takeBelow]
@[simp] theorem Block.takeBytes_tm (n : Nat) : (s.takeBytes n).2.tm = s.tm := by simp only [Block.takeBytes]
@[simp] theorem Block.unpend_tm (v : Nat) : (s.unpend v).tm = s.tm := by simp only [Block.unpend]
@[simp] theorem Block.withInt_tm (p : Nat) (f : Block → Block) (hf : ∀ t, (f t).tm = t.tm) : (s.withInt p f).tm = s.tm := by
  grind [Block.withInt, Block.message_tm, Block.unpend_tm]
@[simp] theorem Block.postComplete_tm (c : Cmd) (status : Nat) (res : Option Word) : (s.postComplete c status res).tm = s.tm := by
  simp [Block.postComplete]
@[simp] theorem Block.goto_tm (dst : DevState) (reason us : Nat) : (s.goto dst reason us).tm = s.tm := by simp [Block.goto]
@[simp] theorem Block.postOpen_tm (r : FaultRec) : (s.postOpen r).tm = s.tm := by simp [Block.postOpen]
@[simp] theorem Block.record_tm (page code cls : Nat) (detail : Word) (way : CloseWay) : (s.record page code cls detail way).tm = s.tm := by
  grind [Block.record, Block.postOpen_tm, Block.postTally_tm, Block.bump_tm]
@[simp] theorem Block.closeAt_tm (i how : Nat) : (s.closeAt i how).tm = s.tm := by grind [Block.closeAt, Block.post_tm]
@[simp] theorem Block.closeWhere_tm (how : Nat) (p : FaultRec → Bool) : (s.closeWhere how p).tm = s.tm := by simp [Block.closeWhere]
@[simp] theorem Block.autoClose_tm (page code : Nat) (detail : Word → Bool) : (s.autoClose page code detail).tm = s.tm := by
  simp [Block.autoClose]

/-! Machine/Line.lean -/

@[simp] theorem Block.modPort_tm (p : Nat) (f : Port → Port) : (s.modPort p f).tm = s.tm := by simp only [Block.modPort]
@[simp] theorem Block.smlAt_tm (p first code : Nat) (args : List Nat) : (s.smlAt p first code args).tm = s.tm := by simp [Block.smlAt]
@[simp] theorem Block.sml_tm (p code : Nat) (args due : List Nat) : (s.sml p code args due).tm = s.tm := by simp [Block.sml]

/-! Machine/Safe.lean -/

@[simp] theorem Block.portGoto_tm (p st : Nat) : (s.portGoto p st).tm = s.tm := by simp [Block.portGoto]
@[simp] theorem Block.gpioPulse_tm (f : Nat) (us : Option Nat) : (s.gpioPulse f us).tm = s.tm := by simp [Block.gpioPulse]
@[simp] theorem Block.parkPort_tm (p : Nat) : (s.parkPort p).tm = s.tm := by simp [Block.parkPort]
@[simp] theorem Block.beamLow_tm : (s.beamLow).tm = s.tm := by simp only [Block.beamLow]
@[simp] theorem Block.chainsZero_tm (s : Block) : (s.chainsZero).tm = s.tm := by
  refine foldl_tm (fun t c => ?_) _ _
  split
  · split <;> rfl
  · rfl
@[simp] theorem Block.lightOut_tm : (s.lightOut).tm = s.tm := by simp [Block.lightOut]
@[simp] theorem Block.groupsOut_tm : (s.groupsOut).tm = s.tm := by simp only [Block.groupsOut]
@[simp] theorem Block.parkAll_tm : (s.parkAll).tm = s.tm := by simp [Block.parkAll]
@[simp] theorem Block.safeOutputs_tm : (s.safeOutputs).tm = s.tm := by simp [Block.safeOutputs]
@[simp] theorem Block.interrupt_tm : (s.interrupt).tm = s.tm := by grind [Block.interrupt, Block.complete_tm]
@[simp] theorem Block.enterSafe_tm (reason : Nat) (fid : Word) : (s.enterSafe reason fid).tm = s.tm := by
  grind [Block.enterSafe, Block.setReg_tm, Block.interrupt_tm, Block.safeOutputs_tm, Block.goto_tm, Block.postI_tm]
@[simp] theorem Block.raise_tm (page code cls : Nat) (detail : Word) (way : CloseWay) (reason : Nat) :
    (s.raise page code cls detail way reason).tm = s.tm := by
  simp [Block.raise]
@[simp] theorem Block.faultEv_tm (page ty cls : Nat) (data : List Word) (way : CloseWay) (inst : Nat) :
    (s.faultEv page ty cls data way inst).tm = s.tm := by
  simp [Block.faultEv]

/-! Machine/Regwrite.lean -/

@[simp] theorem Block.onWrite_tm (page : Nat) (f : Block → Block) (hf : ∀ t, (f t).tm = t.tm) : (s.onWrite page f).tm = s.tm := by
  grind [Block.onWrite, Block.errCause_tm]
@[simp] theorem Block.onStrobe_tm (f : Block → Block) (hf : ∀ t, (f t).tm = t.tm) : (s.onStrobe f).tm = s.tm := by grind [Block.onStrobe]
@[simp] theorem Block.rwTake_tm (a : Nat) (v : Word) (f : Block → Word → Block) (hf : ∀ t x0, (f t x0).tm = t.tm) :
    (s.rwTake a v f).tm = s.tm := by
  grind [Block.rwTake, Block.errCause_tm]
@[simp] theorem Block.rwWrite_tm (a : Nat) (v : Word) (f : Block → Word → Block) (hf : ∀ t x0, (f t x0).tm = t.tm) :
    (s.rwWrite a v f).tm = s.tm := by
  grind [Block.rwWrite, Block.rwTake_tm]
@[simp] theorem Block.shTake_tm (a key : Nat) (v : Word) : (s.shTake a key v).tm = s.tm := by
  grind [Block.shTake, Block.errCause_tm, Block.setReg_tm]

/-! Machine/Frame.lean -/

@[simp] theorem Block.modGrp_tm (g : Nat) (f : Group → Group) : (s.modGrp g f).tm = s.tm := by simp only [Block.modGrp]
@[simp] theorem Block.countCycles_tm (ns old : Nat) : (s.countCycles ns old).tm = s.tm := by simp only [Block.countCycles]
@[simp] theorem Block.secPulse_tm (old : Nat) : (s.secPulse old).tm = s.tm := by simp [Block.secPulse]

/-! Machine/Sched.lean -/

@[simp] theorem Block.modPair_tm (q : Nat) (f : Pair → Pair) : (s.modPair q f).tm = s.tm := by simp only [Block.modPair]
@[simp] theorem Block.dramReq_tm (pa n : Nat) (write guest : Bool) : (s.dramReq pa n write guest).tm = s.tm := by simp [Block.dramReq]
@[simp] theorem Block.schedule_tm (s : Block) (q : Nat) : (s.schedule q).tm = s.tm := by
  simp only [Block.schedule]
  split
  · rfl
  · exact foldl_tm (fun t _ => t.postTally_tm ..) _ _

/-! Machine/Memory.lean -/

@[simp] theorem Block.freshBlock_tm (pa left : Nat) : (s.freshBlock pa left).tm = s.tm := by simp [Block.freshBlock]
@[simp] theorem Block.setMem_tm (s : Block) (pa : Nat) (bs : List Byte) : (s.setMem pa bs).tm = s.tm := by
  induction bs generalizing s pa with
  | nil => rfl
  | cons b bs ih => rw [Block.setMem, ih]; simp
@[simp] theorem Block.installTlb_tm (t : TlbEntry) : (s.installTlb t).tm = s.tm := by simp [Block.installTlb]
@[simp] theorem Block.dtuFault_tm (va : Nat) (f : AccFault) (write : Bool) (client : Nat) : (s.dtuFault va f write client).tm = s.tm := by
  simp [Block.dtuFault]
@[simp] theorem Block.translate_tm (s : Block) (va : Nat) (write : Bool) (client : Nat) : (s.translate va write client).1.tm = s.tm := by
  fun_cases Block.translate s va write client
  all_goals simp +zetaDelta only [Block.dtuFault_tm, Block.installTlb_tm, Block.post_tm, Block.bump_tm]
@[simp] theorem Block.access_tm (client va n : Nat) (write : Bool) : (s.access client va n write).1.tm = s.tm := by
  grind [Block.access, Block.translate_tm, Block.dramReq_tm]
@[simp] theorem Block.beat_tm (s : Block) (client va left : Nat) (write : Bool) (cur : Option Nat) :
    (s.beat client va left write cur).1.tm = s.tm := by
  unfold Block.beat
  split
  · split <;> simp
  · simp
@[simp] theorem Block.readVirt_tm (s : Block) (client va n : Nat) (cur : Option Nat) (acc : List Byte) :
    (s.readVirt client va n cur acc).1.tm = s.tm := by
  induction n generalizing s va cur acc with
  | zero => rfl
  | succ n ih => grind [Block.readVirt, Block.beat_tm]
@[simp] theorem Block.setCap_tm (s : Block) (ps : List Nat) (off : Nat) (bs : List Byte) : (s.setCap ps off bs).tm = s.tm := by
  induction bs generalizing s off with
  | nil => rfl
  | cons b bs ih => rw [Block.setCap, ih]; split <;> simp
@[simp] theorem Block.piTouch_tm (pa n : Nat) : (s.piTouch pa n).tm = s.tm := by simp [Block.piTouch]
@[simp] theorem Block.writeVirt_tm (s : Block) (client va : Nat) (cur : Option Nat) (bs : List Byte) :
    (s.writeVirt client va cur bs).1.tm = s.tm := by
  induction bs generalizing s va cur with
  | nil => rfl
  | cons b bs ih => grind [Block.writeVirt, Block.beat_tm, Block.setMemB_tm, Block.freshBlock_tm, Block.piTouch_tm]

/-! Machine/Surface.lean -/

@[simp] theorem Block.modSurf_tm (i : Nat) (f : Surface → Surface) : (s.modSurf i f).tm = s.tm := by simp only [Block.modSurf]
@[simp] theorem Block.surfWrite_tm (s : Block) (i off : Nat) (bs : List Byte) : (s.surfWrite i off bs).tm = s.tm := by
  induction bs generalizing s off with
  | nil => rfl
  | cons b bs ih => rw [Block.surfWrite, ih]; simp
@[simp] theorem Block.setPaged_tm (s : Block) (pages : List Nat) (off : Nat) (bs : List Byte) : (s.setPaged pages off bs).tm = s.tm := by
  induction bs generalizing s off with
  | nil => rfl
  | cons b bs ih => rw [Block.setPaged, ih]; simp
@[simp] theorem Block.putTile_tm (u : Surface) (t : Nat) (tile : List Byte) (h : Nat × List Byte) : (s.putTile u t tile h).tm = s.tm := by
  simp [Block.putTile]
@[simp] theorem Block.putTiles_tm (s : Block) (i budget : Nat) (l : List Nat) (total : Nat) :
    (s.putTiles i budget l total).1.tm = s.tm := by
  induction l generalizing s total with
  | nil => rfl
  | cons t l ih => grind [Block.putTiles, Block.putTile_tm]
@[simp] theorem Block.surfOpRes_tm (i op reason : Nat) : (s.surfOpRes i op reason).tm = s.tm := by simp [Block.surfOpRes]
@[simp] theorem Block.surfDefine_tm (i : Nat) : (s.surfDefine i).tm = s.tm := by
  simp only [Block.surfDefine]
  split <;> simp
@[simp] theorem Block.surfOpen_tm (i : Nat) : (s.surfOpen i).tm = s.tm := by simp [Block.surfOpen]
@[simp] theorem Block.surfClose_tm (i : Nat) : (s.surfClose i).tm = s.tm := by simp [Block.surfClose]
@[simp] theorem Block.compress_tm (i : Nat) : (s.compress i).1.tm = s.tm := by grind [Block.compress, Block.putTiles_tm]
@[simp] theorem Block.sealSurf_tm (i source : Nat) (tag : Word) : (s.sealSurf i source tag).tm = s.tm := by simp [Block.sealSurf]
@[simp] theorem Block.surfCapture_tm (i : Nat) : (s.surfCapture i).tm = s.tm := by simp [Block.surfCapture]

/-! Machine/Deck.lean -/

@[simp] theorem Block.beginSets_tm (f : PipeFrame) (fsn : Word) (wait : Nat) : (s.beginSets f fsn wait).tm = s.tm := by
  rw [Block.beginSets]
  refine foldl_tm (fun t x => ?_) _ _
  grind [Block.modPort_tm]
@[simp] theorem Block.supersede_tm (p i : Nat) : (s.supersede p i).tm = s.tm := by simp [Block.supersede]
@[simp] theorem Block.sealSet_tm (p : Nat) : (s.sealSet p).tm = s.tm := by
  grind [Block.sealSet, Block.supersede_tm, Block.modPort_tm, Block.post_tm, Block.bump_tm]
@[simp] theorem Block.descCapture_tm (v : Word) : (s.descCapture v).tm = s.tm := by simp [Block.descCapture]

/-! Machine/Laser.lean -/

@[simp] theorem Block.modMember_tm (m : Nat) (f : Member → Member) : (s.modMember m f).tm = s.tm := by simp [Block.modMember]
@[simp] theorem Block.modMembers_tm (l : List Nat) (f : Member → Member) : (s.modMembers l f).tm = s.tm := by simp [Block.modMembers]
@[simp] theorem Block.piCheck_tm : (s.piCheck).tm = s.tm := by simp only [Block.piCheck]
@[simp] theorem Block.configFirst_tm (m : Nat) : (s.configFirst m).tm = s.tm := by simp [Block.configFirst]
@[simp] theorem Block.callSlice_tm (m : Nat) : (s.callSlice m).tm = s.tm := by simp [Block.callSlice]
@[simp] theorem Block.refreshMembers_tm : (s.refreshMembers).tm = s.tm := by simp [Block.refreshMembers]
@[simp] theorem Block.latchMember_tm (m cause : Nat) : (s.latchMember m cause).tm = s.tm := by
  grind [Block.latchMember, Block.modMember_tm, Block.configFirst_tm, Block.modGrp_tm, Block.callSlice_tm, Block.faultEv_tm,
    Block.takeBelow_tm, Block.post_tm]
@[simp] theorem Block.ocTrip_tm (n : Nat) : (s.ocTrip n).tm = s.tm := by simp [Block.ocTrip]
@[simp] theorem Block.callCold_tm (g : Nat) : (s.callCold g).tm = s.tm := by grind [Block.callCold, Block.modMember_tm]
@[simp] theorem Block.spareActs_tm (m : Nat) : (s.spareActs m).tm = s.tm := by simp [Block.spareActs]
@[simp] theorem Block.giveBack_tm (g : Nat) : (s.giveBack g).tm = s.tm := by grind [Block.giveBack, Block.modGrp_tm, Block.modMember_tm]
@[simp] theorem Block.calTakeover_tm (g : Nat) : (s.calTakeover g).tm = s.tm := by
  grind [Block.calTakeover, Block.giveBack_tm, Block.callSlice_tm, Block.modMember_tm, Block.spareActs_tm, Block.callCold_tm]
@[simp] theorem Block.calSpare_tm (f : Nat) (new : Option Nat) : (s.calSpare f new).tm = s.tm := by
  grind [Block.calSpare, Block.modMember_tm]
@[simp] theorem Block.takeover_tm (g : Nat) : (s.takeover g).tm = s.tm := by
  grind [Block.takeover, Block.calTakeover_tm, Block.callSlice_tm, Block.calSpare_tm, Block.spareActs_tm, Block.modGrp_tm, Block.post_tm,
    Block.callCold_tm, Block.faultEv_tm]
@[simp] theorem Block.probeEnd_tm (m cur : Nat) : (s.probeEnd m cur).tm = s.tm := by simp [Block.probeEnd]
@[simp] theorem Block.spareHot_tm (m : Nat) : (s.spareHot m).tm = s.tm := by simp [Block.spareHot]
@[simp] theorem Block.setBucks_tm : (s.setBucks).tm = s.tm := by simp [Block.setBucks]
@[simp] theorem Block.comingBlock_tm (s : Block) : s.comingBlock.tm = s.tm := by
  have hvals : ∀ l : List Commit, (l.foldl (fun s c => s.applyVals (fun a => c.major || !sourceSide a) c.pages c.vals) s).tm = s.tm :=
    fun l => foldl_tm (fun t _ => t.applyVals_tm ..) l s
  grind [Block.comingBlock, Block.refreshMembers_tm]
@[simp] theorem Block.raiseBucks_tm : (s.raiseBucks).tm = s.tm := by simp [Block.raiseBucks]
@[simp] theorem Block.levelFb_tm (g : Nat) : (s.levelFb g).tm = s.tm := by
  grind [Block.levelFb, Block.post_tm, Block.modGrp_tm, Block.postTally_tm]
@[simp] theorem Block.startGroup_tm (g : Nat) : (s.startGroup g).tm = s.tm := by simp [Block.startGroup]
@[simp] theorem Block.darkenGroup_tm (g : Nat) : (s.darkenGroup g).tm = s.tm := by simp [Block.darkenGroup]

/-! Machine/Scanner.lean -/

@[simp] theorem Block.modSc_tm (f : ScanState → ScanState) : (s.modSc f).tm = s.tm := by simp only [Block.modSc]
@[simp] theorem Block.driveMark_tm : (s.driveMark).tm = s.tm := by simp [Block.driveMark]
@[simp] theorem Block.driveHs_tm : (s.driveHs).tm = s.tm := by simp only [Block.driveHs]
@[simp] theorem Block.hsfGoto_tm (st : Nat) : (s.hsfGoto st).tm = s.tm := by simp [Block.hsfGoto]
@[simp] theorem Block.sweep_tm : (s.sweep).tm = s.tm := by simp [Block.sweep]
@[simp] theorem Block.fastAxisStart_tm : (s.fastAxisStart).tm = s.tm := by simp [Block.fastAxisStart]
@[simp] theorem Block.resonance_tm : (s.resonance).tm = s.tm := by simp [Block.resonance]
@[simp] theorem Block.lockFail_tm (stage : Nat) : (s.lockFail stage).tm = s.tm := by simp [Block.lockFail]
@[simp] theorem Block.locked_tm : (s.locked).tm = s.tm := by simp [Block.locked]
@[simp] theorem Block.beamOff_tm : (s.beamOff).tm = s.tm := by simp only [Block.beamOff]
@[simp] theorem Block.recordCut_tm (cause : Nat) : (s.recordCut cause).tm = s.tm := by simp [Block.recordCut]
@[simp] theorem Block.beamCut_tm (cause : Nat) : (s.beamCut cause).tm = s.tm := by simp [Block.beamCut]
@[simp] theorem Block.cutMet_tm (cause : Nat) : (s.cutMet cause).tm = s.tm := by simp [Block.cutMet]
@[simp] theorem Block.cutsMet_tm : (s.cutsMet).tm = s.tm := by simp [Block.cutsMet]
@[simp] theorem Block.lockLoss_tm (cause : Nat) : (s.lockLoss cause).tm = s.tm := by simp [Block.lockLoss]
@[simp] theorem Block.crossing_tm (a b : Nat) : (s.crossing a b).tm = s.tm := by grind [Block.crossing, Block.modSc_tm, Block.bump_tm]
@[simp] theorem Block.replan_tm : (s.replan).tm = s.tm := by simp [Block.replan]
@[simp] theorem Block.beginRow_tm (t : Nat) : (s.beginRow t).tm = s.tm := by simp [Block.beginRow]
@[simp] theorem Block.retarget_tm : (s.retarget).tm = s.tm := by simp [Block.retarget]
@[simp] theorem Block.nextRow_tm : (s.nextRow).tm = s.tm := by simp [Block.nextRow]
@[simp] theorem Block.windowEnd_tm : (s.windowEnd).tm = s.tm := by
  rw [Block.windowEnd]
  refine foldl_tm (fun t x => ?_) _ _
  grind [Block.postTally_tm, Block.bump_tm, Block.modSc_tm, Block.beamOff_tm]
@[simp] theorem Block.rowsFb_tm (shown : Bool) : (s.rowsFb shown).tm = s.tm := by simp [Block.rowsFb]
@[simp] theorem Block.writeHl_tm (f : PipeFrame) (set : Nat) : (s.writeHl f set).tm = s.tm := by simp [Block.writeHl]
@[simp] theorem Block.zoneCheck_tm (z : Nat) : (s.zoneCheck z).tm = s.tm := by simp [Block.zoneCheck]
@[simp] theorem Block.zoneAdd_tm (z e : Nat) : (s.zoneAdd z e).tm = s.tm := by simp [Block.zoneAdd]
@[simp] theorem Block.litIn_tm (w : Nat × Nat) : (s.litIn w).tm = s.tm := by simp [Block.litIn]
@[simp] theorem Block.dacSample_tm (s : Block) : s.dacSample.tm = s.tm := by
  unfold Block.dacSample
  grind [Block.beamOff_tm, Block.zoneCheck_tm, Block.modSc_tm, Block.litIn_tm, Block.zoneAdd_tm]
@[simp] theorem Block.beamResume_tm : (s.beamResume).tm = s.tm := by simp [Block.beamResume]

/-! Machine/Coppice.lean -/

@[simp] theorem Block.modRec_tm (r : Nat) (f : LoopRec → LoopRec) : (s.modRec r f).tm = s.tm := by simp only [Block.modRec]
@[simp] theorem Block.runLaw_tm (slot r : Nat) (law : LoopRec → LoopRec × Bool) : (s.runLaw slot r law).tm = s.tm := by simp [Block.runLaw]
@[simp] theorem Block.holdRec_tm (r : Nat) : (s.holdRec r).tm = s.tm := by simp [Block.holdRec]
@[simp] theorem Block.measInvalid_tm (r : Nat) : (s.measInvalid r).tm = s.tm := by simp [Block.measInvalid]
@[simp] theorem Block.tallyWin_tm (win inst : Nat) : (s.tallyWin win inst).tm = s.tm := by
  simp only [Block.tallyWin]
  split <;> simp
@[simp] theorem Block.overVoltage_tm (n : Nat) : (s.overVoltage n).tm = s.tm := by simp [Block.overVoltage]
@[simp] theorem Block.sampleFaults_tm (n : Nat) : (s.sampleFaults n).tm = s.tm := by simp [Block.sampleFaults]
@[simp] theorem Block.handOver_tm (n : Nat) (inp : LawIn) : (s.handOver n inp).tm = s.tm := by simp [Block.handOver]
@[simp] theorem Block.modeKerf_tm (n : Nat) : (s.modeKerf n).tm = s.tm := by
  simp only [Block.modeKerf, Block.modRec_tm, Block.modMember_tm, Block.tm_ite, ite_self]
@[simp] theorem Block.buckLaw_tm (n : Nat) (y : Int) (v : Nat) : (s.buckLaw n y v).tm = s.tm := by simp [Block.buckLaw]
@[simp] theorem Block.stringSample_tm (s : Block) (n ys v : Nat) : (s.stringSample n ys v).tm = s.tm := by
  fun_cases Block.stringSample s n ys v <;> simp +zetaDelta
@[simp] theorem Block.evidence_tm (e : Nat × Nat × Nat) : (s.evidence e).tm = s.tm := by simp [Block.evidence]
@[simp] theorem Block.opticalSample_tm (s : Block) (j y : Nat) : (s.opticalSample j y).tm = s.tm := by
  fun_cases Block.opticalSample s j y <;> simp +zetaDelta
@[simp] theorem Block.supplySample_tm (d : Nat) : (s.supplySample d).tm = s.tm := by simp [Block.supplySample]
@[simp] theorem Block.freqSample_tm (y : Int) : (s.freqSample y).tm = s.tm := by simp [Block.freqSample]
@[simp] theorem Block.takeY_tm (y : Nat) : (s.takeY y).tm = s.tm := by simp [Block.takeY]
@[simp] theorem Block.ampSample_tm (y : Nat) : (s.ampSample y).tm = s.tm := by simp [Block.ampSample]
@[simp] theorem Block.angleSample_tm : (s.angleSample).tm = s.tm := by simp [Block.angleSample]
@[simp] theorem Block.slowSample_tm (ys : Nat) : (s.slowSample ys).tm = s.tm := by
  simp only [Block.slowSample, Block.modSc_tm, Block.takeY_tm, Block.holdRec_tm, Block.measInvalid_tm, Block.runLaw_tm, Block.tm_ite,
    ite_self]
@[simp] theorem Block.loopFault_tm (r : Nat) : (s.loopFault r).tm = s.tm := by simp [Block.loopFault]
@[simp] theorem Block.stateScrub_tm (errs : List Nat) : (s.stateScrub errs).tm = s.tm := by
  rw [Block.stateScrub]
  refine foldl_tm (fun t x => ?_) _ _
  grind [Block.raise_tm, Block.bump_tm, Block.loopFault_tm]
@[simp] theorem Block.reloadRecs_tm : (s.reloadRecs).tm = s.tm := by simp only [Block.reloadRecs]
@[simp] theorem Block.wheelFault_tm (kind last : Nat) : (s.wheelFault kind last).tm = s.tm := by simp [Block.wheelFault]
@[simp] theorem Block.ceilingLost_tm (s : Block) (g : Nat) : (s.ceilingLost g).tm = s.tm := by
  fun_cases Block.ceilingLost s g <;> simp +zetaDelta

/-! Machine/Chain.lean -/

@[simp] theorem Block.modChn_tm (c : Nat) (f : Chain → Chain) : (s.modChn c f).tm = s.tm := by simp only [Block.modChn]
@[simp] theorem Block.chnGoto_tm (c st : Nat) : (s.chnGoto c st).tm = s.tm := by simp [Block.chnGoto]
@[simp] theorem Block.strobe_tm (c width : Nat) : (s.strobe c width).tm = s.tm := by simp [Block.strobe]
@[simp] theorem Block.strobes_tm (g width : Nat) : (s.strobes g width).tm = s.tm := by simp [Block.strobes]
@[simp] theorem Block.zeroChains_tm (p : Nat → Bool) : (s.zeroChains p).tm = s.tm := by simp [Block.zeroChains]
@[simp] theorem Block.chnBreak_tm (c : Nat) : (s.chnBreak c).tm = s.tm := by simp [Block.chnBreak]
@[simp] theorem Block.sliceStatus_tm (c sl seg : Nat) : (s.sliceStatus c sl seg).tm = s.tm := by simp [Block.sliceStatus]
@[simp] theorem Block.sliceUpdate_tm (c ty e : Nat) : (s.sliceUpdate c ty e).tm = s.tm := by
  simp only [Block.sliceUpdate]
  split <;> simp
@[simp] theorem Block.shiftDone_tm (s : Block) (c : Nat) (ret : List Nat) : (s.shiftDone c ret).tm = s.tm := by
  have hbad : ∀ (u : Block) (n : Nat),
      ((List.range n).foldl (fun s _ => (s.bump (R.CHAIN_CRC_ERR c)).postTally 0x111 (pageInst 0x18)) u).tm = u.tm :=
    fun u n => foldl_tm (fun u _ => by simp) _ _
  have hstatus : ∀ (u : Block) (l : List Nat), (l.foldl (fun s sl => s.sliceStatus c sl (ret.getD sl 0)) u).tm = u.tm :=
    fun u l => foldl_tm (fun u _ => by simp) _ _
  rw [Block.shiftDone]
  grind [Block.emit_tm, Block.strobe_tm, Block.modChn_tm, Block.sliceUpdate_tm, Block.chnBreak_tm, Block.chnGoto_tm]
@[simp] theorem Block.chainFrame_tm (c : Nat) : (s.chainFrame c).tm = s.tm := by
  simp only [Block.chainFrame, Block.modChn_tm, Block.strobe_tm, Block.faultEv_tm, Block.bump_tm, Block.tm_ite, ite_self, foldl_tm,
    implies_true]
@[simp] theorem Block.enumSends_tm (c n : Nat) : (s.enumSends c n).tm = s.tm := by simp [Block.enumSends]
@[simp] theorem Block.enumerate_tm (c n : Nat) (ids : List (Word × Word)) : (s.enumerate c n ids).tm = s.tm := by simp [Block.enumerate]

/-! Machine/Mirror.lean -/

@[simp] theorem Block.maEvt_tm (p ty : Nat) (data : List Word) : (s.maEvt p ty data).tm = s.tm := by simp [Block.maEvt]
@[simp] theorem Block.maFault_tm (p ty cls : Nat) (data : List Word) (way : CloseWay) : (s.maFault p ty cls data way).tm = s.tm := by
  simp [Block.maFault]
@[simp] theorem Block.lineTo_tm (p k : Nat) : (s.lineTo p k).tm = s.tm := by simp [Block.lineTo]
@[simp] theorem Block.cutLoad_tm (p : Nat) : (s.cutLoad p).tm = s.tm := by simp [Block.cutLoad]
@[simp] theorem Block.smlFree_tm (p code : Nat) (args : List Nat) : (s.smlFree p code args).tm = s.tm := by simp [Block.smlFree]
@[simp] theorem Block.smlMode_tm (p : Nat) : (s.smlMode p).tm = s.tm := by simp [Block.smlMode]
@[simp] theorem Block.smlReset_tm (p : Nat) (args : List Nat) : (s.smlReset p args).tm = s.tm := by simp [Block.smlReset]
@[simp] theorem Block.smlPlane_tm (p slot plane : Nat) (tag : Word) (blocks : Nat) : (s.smlPlane p slot plane tag blocks).tm = s.tm := by
  simp [Block.smlPlane]
@[simp] theorem Block.lineTrain_tm (p : Nat) : (s.lineTrain p).tm = s.tm := by simp [Block.lineTrain]
@[simp] theorem Block.lineStart_tm (s : Block) (p : Nat) : (s.lineStart p).tm = s.tm := by
  rw [Block.lineStart]
  exact @foldl_snd_tm _ _ (fun (a : List Nat × Block) _ => let (x, s) := a.2.takeBelow (2 ^ 58 - 1); (a.1 ++ [x], s)) (fun a _ => rfl)
    (List.range (portLanes p)) ([], s)
@[simp] theorem Block.startPort_tm (p : Nat) : (s.startPort p).tm = s.tm := by simp [Block.startPort]
@[simp] theorem Block.stopPort_tm (p : Nat) : (s.stopPort p).tm = s.tm := by simp [Block.stopPort]
@[simp] theorem Block.abortPark_tm (p : Nat) : (s.abortPark p).tm = s.tm := by simp [Block.abortPark]
@[simp] theorem Block.portEn_tm (p : Nat) : (s.portEn p).tm = s.tm := by simp [Block.portEn]
@[simp] theorem Block.trainPort_tm (p why : Nat) : (s.trainPort p why).tm = s.tm := by simp [Block.trainPort]
@[simp] theorem Block.ident_tm (p : Nat) (d : List Byte) : (s.ident p d).tm = s.tm := by simp [Block.ident]
@[simp] theorem Block.linkFail_tm (p cause : Nat) : (s.linkFail p cause).tm = s.tm := by simp [Block.linkFail]
@[simp] theorem Block.lockPort_tm (p skew : Nat) : (s.lockPort p skew).tm = s.tm := by
  grind [Block.lockPort, Block.modPort_tm, Block.smlMode_tm, Block.portGoto_tm, Block.maEvt_tm]
@[simp] theorem Block.abortOne_tm (p cause slot plane : Nat) (tag : Word) (lit cloneOnly : Bool) :
    (s.abortOne p cause slot plane tag lit cloneOnly).tm = s.tm := by
  grind [Block.abortOne, Block.takeBelow_tm, Block.modPort_tm, Block.bump_tm, Block.setRegs_tm, Block.maFault_tm, Block.beamLow_tm,
    Block.zeroChains_tm, Block.modSc_tm]
@[simp] theorem Block.abortPort_tm (p cause slot : Nat) : (s.abortPort p cause slot).tm = s.tm := by simp [Block.abortPort]
@[simp] theorem Block.linkStatus_tm (p state lane skew : Nat) (_order : Bool) : (s.linkStatus p state lane skew _order).tm = s.tm := by
  simp [Block.linkStatus]
@[simp] theorem Block.trainTimeout_tm (p : Nat) : (s.trainTimeout p).tm = s.tm := by simp [Block.trainTimeout]
@[simp] theorem Block.maCtrl_tm (p : Nat) (f : Block → Block) (hf : ∀ t, (f t).tm = t.tm) : (s.maCtrl p f).tm = s.tm := by
  grind [Block.maCtrl, Block.errCause_tm]
@[simp] theorem Block.maRetrain_tm (p : Nat) : (s.maRetrain p).tm = s.tm := by simp [Block.maRetrain]
@[simp] theorem Block.maIdentReq_tm (p : Nat) : (s.maIdentReq p).tm = s.tm := by simp [Block.maIdentReq]
@[simp] theorem Block.takeSets_tm (p : Nat) : (s.takeSets p).tm = s.tm := by simp [Block.takeSets]
@[simp] theorem Block.leaveDark_tm (p k : Nat) : (s.leaveDark p k).tm = s.tm := by simp [Block.leaveDark]
@[simp] theorem Block.preloadPort_tm (p k : Nat) : (s.preloadPort p k).tm = s.tm := by
  grind [Block.preloadPort, Block.leaveDark_tm, Block.portGoto_tm, Block.modPort_tm, Block.maEvt_tm, Block.bump_tm, Block.postI_tm]
@[simp] theorem Block.preloadClone_tm (p k : Nat) : (s.preloadClone p k).tm = s.tm := by simp [Block.preloadClone]
@[simp] theorem Block.portFb_tm (p k : Nat) : (s.portFb p k).1.tm = s.tm := by
  grind [Block.portFb, Block.portGoto_tm, Block.modPort_tm, Block.postI_tm, Block.bump_tm, Block.raise_tm, Block.autoClose_tm]
@[simp] theorem Block.staged_tm (p : Nat) (l : PlaneLoad) : (s.staged p l).tm = s.tm := by simp [Block.staged]
@[simp] theorem Block.resetOn_tm (args : List Nat) (r : Nat) : (Block.resetOn args s r).tm = s.tm := by simp [Block.resetOn]
@[simp] theorem Block.planeAck_tm (p slot plane : Nat) (fsn arrDiff tapDiff : Word) :
    (s.planeAck p slot plane fsn arrDiff tapDiff).tm = s.tm := by
  grind [Block.planeAck, Block.modPort_tm, Block.maFault_tm, Block.bump_tm]
@[simp] theorem Block.ackMissing_tm (p slot : Nat) : (s.ackMissing p slot).tm = s.tm := by
  simp only [Block.ackMissing]
  split <;> simp
@[simp] theorem Block.arrayStatus_tm (p code sev : Nat) (detail : Word) : (s.arrayStatus p code sev detail).tm = s.tm := by
  simp [Block.arrayStatus]
@[simp] theorem Block.darkPort_tm (p oldRate oldMode : Nat) : (s.darkPort p oldRate oldMode).tm = s.tm := by simp [Block.darkPort]

/-! Machine/Thermal.lean -/

@[simp] theorem Block.levelEvents_tm (cl idx : Nat) (old new : Levels) (v : Int) : (s.levelEvents cl idx old new v).tm = s.tm := by
  simp [Block.levelEvents]
@[simp] theorem Block.tsConversion_tm (s : Block) (t : List Int) : (s.tsConversion t).tm = s.tm := by
  rw [Block.tsConversion]
  split
  · rfl
  simp only [Block.levelEvents_tm, Block.tm_ite, Block.raise_tm, Block.postI_tm, Block.autoClose_tm, ite_self]
  refine (foldl_tm (fun u i => ?_) _ _).trans rfl
  split
  · simp
  · rfl
@[simp] theorem Block.ntcConversion_tm (j c : Nat) : (s.ntcConversion j c).tm = s.tm := by
  simp only [Block.ntcConversion]
  split <;> simp
@[simp] theorem Block.modelUpdate_tm (g : Nat) : (s.modelUpdate g).tm = s.tm := by grind [Block.modelUpdate, Block.levelEvents_tm]
@[simp] theorem Block.thermApplied_tm (s : Block) : s.thermApplied.tm = s.tm := by
  refine (foldl_tm (fun t g => ?_) _ _).trans (by simp)
  split
  · simp
  · rfl

/-! Machine/Ring.lean -/

@[simp] theorem Block.setStage_tm (cseq : Word) (st : Nat) : (s.setStage cseq st).tm = s.tm := by simp only [Block.setStage]
@[simp] theorem Block.cmdTail_tm (v : Word) : (s.cmdTail v).tm = s.tm := by simp [Block.cmdTail]
@[simp] theorem Block.fetchFault_tm (kind : Nat) : (s.fetchFault kind).tm = s.tm := by simp [Block.fetchFault]
@[simp] theorem Block.postCseq_tm (ty : Nat) (data : List Word) : (s.postCseq ty data).tm = s.tm := by simp [Block.postCseq]
@[simp] theorem Block.take_tm (e : List Byte) : (s.take e).tm = s.tm := by simp [Block.take]
@[simp] theorem Block.cmdEntry_tm (s : Block) (host : Bytes) : (s.cmdEntry host).1.tm = s.tm := by
  unfold Block.cmdEntry
  have hread := s.readVirt_tm 0x10 (s.ringAddr R.RING_CMD_BASE_LO R.RING_CMD_BASE_HI (s.reg R.RING_CMD_HEAD).toNat s.cmdEntries 64) 64 none []
  split
  · split <;> simp_all
  · split <;> rfl
@[simp] theorem Block.ringResync_tm (v : Word) : (s.ringResync v).tm = s.tm := by simp [Block.ringResync]
@[simp] theorem Block.postCause_tm : (s.postCause).tm = s.tm := by simp [Block.postCause]
@[simp] theorem Block.ringCtrl_tm (v : Word) : (s.ringCtrl v).tm = s.tm := by simp [Block.ringCtrl]
@[simp] theorem Block.raise63_tm : (s.raise63).tm = s.tm := by simp [Block.raise63]
@[simp] theorem Block.modCheck_tm : (s.modCheck).tm = s.tm := by simp [Block.modCheck]
@[simp] theorem Block.evtStepped_tm : (s.evtStepped).tm = s.tm := by simp [Block.evtStepped]
@[simp] theorem Block.putEvent_tm (s : Block) (e : Event) : (s.putEvent e).1.tm = s.tm := by
  unfold Block.putEvent
  extract_lets a bs
  have hwrite := s.writeVirt_tm 0x10 a none bs
  split
  · split <;> simp_all
  · split <;> simp
@[simp] theorem Block.loseEvent_tm : (s.loseEvent).tm = s.tm := by simp [Block.loseEvent]
@[simp] theorem Block.putOverflow_tm : (s.putOverflow).tm = s.tm := by grind [Block.putOverflow, Block.putEvent_tm, Block.setFld_tm]
@[simp] theorem Block.eventWrite_tm : (s.eventWrite).tm = s.tm := by
  grind [Block.eventWrite, Block.putOverflow_tm, Block.loseEvent_tm, Block.putEvent_tm, Block.setFld_tm]
@[simp] theorem Block.eventWriteFault_tm : (s.eventWriteFault).tm = s.tm := by
  grind [Block.eventWriteFault, Block.setFld_tm, Block.loseEvent_tm]
@[simp] theorem Block.evtHead_tm (v : Word) : (s.evtHead v).tm = s.tm := by simp [Block.evtHead]

/-! Machine/Budget.lean -/

@[simp] theorem Block.guestGrants_tm (old : Nat → Word) : (s.guestGrants old).tm = s.tm := by simp [Block.guestGrants]

/-! Machine/Dram.lean -/

@[simp] theorem Block.pairGoto_tm (q st : Nat) : (s.pairGoto q st).tm = s.tm := by simp [Block.pairGoto]
@[simp] theorem Block.uncorrectable_tm (addr client : Nat) : (s.uncorrectable addr client).tm = s.tm := by simp [Block.uncorrectable]
@[simp] theorem Block.ueClient_tm (addr client : Nat) : (s.ueClient addr client).tm = s.tm := by simp [Block.ueClient]
@[simp] theorem Block.corrected_tm (addr : Nat) : (s.corrected addr).tm = s.tm := by simp [Block.corrected]
@[simp] theorem Block.scrubStamp_tm : (s.scrubStamp).tm = s.tm := by simp only [Block.scrubStamp]
@[simp] theorem Block.scrubRead_tm (addr result : Nat) : (s.scrubRead addr result).tm = s.tm := by simp [Block.scrubRead]
@[simp] theorem Block.scrubTo_tm (q b : Nat) : (s.scrubTo q b).tm = s.tm := by simp only [Block.scrubTo]
@[simp] theorem Block.dramFrame_tm : (s.dramFrame).tm = s.tm := by simp [Block.dramFrame]
@[simp] theorem Block.refreshDue_tm (ch : Nat) (idle : Bool) : (s.refreshDue ch idle).tm = s.tm := by
  simp only [Block.refreshDue, Block.modPair_tm, Block.postTally_tm, Block.tm_ite, ite_self]
@[simp] theorem Block.ratePoll_tm (ch val : Nat) (above : Bool) : (s.ratePoll ch val above).tm = s.tm := by simp [Block.ratePoll]
@[simp] theorem Block.loadDelays_tm (q sp : Nat) : (s.loadDelays q sp).tm = s.tm := by simp [Block.loadDelays]
@[simp] theorem Block.trimLane_tm (q lane n : Nat) : (s.trimLane q lane n).tm = s.tm := by
  simp only [Block.trimLane, Block.modPair_tm, Block.faultEv_tm, Block.autoClose_tm, Block.tm_ite, ite_self]
@[simp] theorem Block.stepEvent_tm (dir : Nat) : (s.stepEvent dir).tm = s.tm := by simp [Block.stepEvent]
@[simp] theorem Block.changeDue_tm (cause : Nat) : (s.changeDue cause).tm = s.tm := by simp [Block.changeDue]
@[simp] theorem Block.stepDown_tm : (s.stepDown).tm = s.tm := by simp [Block.stepDown]
@[simp] theorem Block.stepUp_tm : (s.stepUp).tm = s.tm := by simp [Block.stepUp]
@[simp] theorem Block.changeDone_tm : (s.changeDone).tm = s.tm := by grind [Block.changeDone, Block.post_tm, Block.bump_tm]
@[simp] theorem Block.changeStart_tm (cause : Nat) : (s.changeStart cause).tm = s.tm := by simp [Block.changeStart]
@[simp] theorem Block.dramFallbackEntry_tm : (s.dramFallbackEntry).tm = s.tm := by grind [Block.dramFallbackEntry, Block.changeStart_tm]
@[simp] theorem Block.pairChange_tm (q : Nat) : (s.pairChange q).tm = s.tm := by
  grind [Block.pairChange, Block.modPair_tm, Block.pairGoto_tm, Block.loadDelays_tm, Block.autoClose_tm, Block.changeDone_tm]
@[simp] theorem Block.selfRefresh_tm (q : Nat) : (s.selfRefresh q).tm = s.tm := by simp [Block.selfRefresh]
@[simp] theorem Block.leaveRefresh_tm (q : Nat) : (s.leaveRefresh q).tm = s.tm := by simp [Block.leaveRefresh]
@[simp] theorem Block.pairIn_tm (q : Nat) : (s.pairIn q).tm = s.tm := by simp [Block.pairIn]
@[simp] theorem Block.pairService_tm (q : Nat) : (s.pairService q).tm = s.tm := by simp [Block.pairService]
@[simp] theorem Block.eyeBytes_tm (mask : Nat) : (s.eyeBytes mask).1.tm = s.tm := by
  simp only [Block.eyeBytes]
  split <;> simp
@[simp] theorem Block.writeBuf_tm (dev : Bool) (addr : Nat) (bs : List Byte) : (s.writeBuf dev addr bs).1.tm = s.tm := by
  grind [Block.writeBuf, Block.writeVirt_tm, Block.emit_tm]
@[simp] theorem Block.readBuf_tm (dev : Bool) (addr n : Nat) (host : Bytes) : (s.readBuf dev addr n host).1.tm = s.tm := by
  grind [Block.readBuf, Block.readVirt_tm]
@[simp] theorem Block.sweepOver_tm (w : Sweep) : (s.sweepOver w).tm = s.tm := by simp [Block.sweepOver]
@[simp] theorem Block.sweepStart_tm (w : Sweep) : (s.sweepStart w).tm = s.tm := by simp [Block.sweepStart]
@[simp] theorem Block.sweepAccept_tm (c : Cmd) : (s.sweepAccept c).tm = s.tm := by simp [Block.sweepAccept]
@[simp] theorem Block.sweepEnd_tm (s : Block) (w : Sweep) (pass : List Nat) (xok : Bool) : (s.sweepEnd w pass xok).tm = s.tm := by
  unfold Block.sweepEnd
  extract_lets masks
  have heyes := @foldl_fst_tm _ _ (fun (a : Block × List Byte) m => let (t, b) := a.1.eyeBytes m; (t, a.2 ++ b))
    (fun a m => a.1.eyeBytes_tm m) masks (s, [])
  simp [heyes]

/-! Machine/Seedbank.lean -/

@[simp] theorem Block.seedPut_tm (a : Nat) (bs : List Byte) : (s.seedPut a bs).tm = s.tm := by simp only [Block.seedPut]
@[simp] theorem Block.seedAsk_tm (r : SeedReq) : (s.seedAsk r).tm = s.tm := by simp only [Block.seedAsk]
@[simp] theorem Block.seedAbandon_tm (result : Nat) : (s.seedAbandon result).tm = s.tm := by
  grind [Block.seedAbandon, Block.post_tm, Block.bump_tm, Block.complete_tm]
@[simp] theorem Block.seedUncorr_tm (w : Nat) : (s.seedUncorr w).tm = s.tm := by simp [Block.seedUncorr]
@[simp] theorem Block.slotErrors_tm (ty slot : Nat) : (s.slotErrors ty slot).tm = s.tm := by simp [Block.slotErrors]
@[simp] theorem Block.reservedPut_tm (kind : Nat) (bs : List Byte) : (s.reservedPut kind bs).tm = s.tm := by simp [Block.reservedPut]
@[simp] theorem Block.reservedAsk_tm (kind : Nat) (bs : List Byte) : (s.reservedAsk kind bs).tm = s.tm := by simp [Block.reservedAsk]
@[simp] theorem Block.copyStart_tm : (s.copyStart).tm = s.tm := by grind [Block.copyStart]
@[simp] theorem Block.scrubWord_tm (w : Nat) : (s.scrubWord w).tm = s.tm := by simp only [Block.scrubWord]
@[simp] theorem Block.seedSel_tm (v : Word) : (s.seedSel v).tm = s.tm := by simp [Block.seedSel]
@[simp] theorem Block.blow_tm (i : Nat) : (s.blow i).tm = s.tm := by simp only [Block.blow]
@[simp] theorem Block.blowAll_tm (l : List Nat) : (s.blowAll l).tm = s.tm := by simp [Block.blowAll]
@[simp] theorem Block.blowHeld_tm : (s.blowHeld).tm = s.tm := by simp [Block.blowHeld]
@[simp] theorem Block.verified_tm (ok : Bool) : (s.verified ok).tm = s.tm := by simp [Block.verified]
@[simp] theorem Block.seedStore_tm (c : Cmd) (host : Option Bytes) : (s.seedStore c host).tm = s.tm := by
  grind [Block.seedStore, Block.complete_tm, Block.readBuf_tm, Block.verified_tm, Block.post_tm, Block.setStage_tm, Block.seedAsk_tm]
@[simp] theorem Block.seedLoad_tm (c : Cmd) (xok : Bool) : (s.seedLoad c xok).tm = s.tm := by simp [Block.seedLoad]

/-! Machine/Trust.lean -/

@[simp] theorem Block.measure_tm (ty : Nat) (digest : List Byte) : (s.measure ty digest).tm = s.tm := by simp [Block.measure]
@[simp] theorem Block.rsaQueue_tm (q : RsaReq) : (s.rsaQueue q).tm = s.tm := by simp only [Block.rsaQueue]
@[simp] theorem Block.rsaWaited_tm (since : Nat) : (s.rsaWaited since).tm = s.tm := by simp only [Block.rsaWaited]
@[simp] theorem Block.attestStart_tm (c : Cmd) : (s.attestStart c).tm = s.tm := by simp [Block.attestStart]
@[simp] theorem Block.attestEnd_tm (a : Attest) (sig : Bytes) (xok : Bool) : (s.attestEnd a sig xok).tm = s.tm := by simp [Block.attestEnd]
@[simp] theorem Block.ownerPackage_tm (c : Cmd) (host : Option Bytes) : (s.ownerPackage c host).1.tm = s.tm := by
  grind [Block.ownerPackage, Block.readBuf_tm]
@[simp] theorem Block.ownerDone_tm (o : OwnerOp) (fuses : List Nat) : (s.ownerDone o fuses).tm = s.tm := by simp [Block.ownerDone]
@[simp] theorem Block.ownerRecord_tm (o : OwnerOp) : (s.ownerRecord o).tm = s.tm := by simp [Block.ownerRecord]
@[simp] theorem Block.authorised_tm (o : OwnerOp) (p : List Byte) : (s.authorised o p).1.tm = s.tm := by simp [Block.authorised]
@[simp] theorem Block.ownerInstall_tm (c : Cmd) (p : List Byte) : (s.ownerInstall c p).tm = s.tm := by
  grind [Block.ownerInstall, Block.complete_tm, Block.authorised_tm, Block.ownerRecord_tm]
@[simp] theorem Block.ownerRevoke_tm (c : Cmd) (p : List Byte) : (s.ownerRevoke c p).tm = s.tm := by simp [Block.ownerRevoke]
@[simp] theorem Block.ownerPolicyOn_tm (c : Cmd) (p : List Byte) : (s.ownerPolicyOn c p).tm = s.tm := by simp [Block.ownerPolicyOn]
@[simp] theorem Block.ownerRestore_tm (c : Cmd) (p : List Byte) : (s.ownerRestore c p).tm = s.tm := by simp [Block.ownerRestore]
@[simp] theorem Block.ownerWritten_tm : (s.ownerWritten).tm = s.tm := by grind [Block.ownerWritten, Block.ownerDone_tm]
@[simp] theorem Block.ownerKey_tm (cseq : Word) (op : Nat) (host : Option Bytes) (f : Block → Cmd → List Byte → Block)
    (hf : ∀ t x0 x1, (f t x0 x1).tm = t.tm) :
    (s.ownerKey cseq op host f).tm = s.tm := by
  grind [Block.ownerKey, Block.complete_tm, Block.ownerPackage_tm]
@[simp] theorem Block.newChallenge_tm (random : Bytes) : (s.newChallenge random).tm = s.tm := by simp only [Block.newChallenge]
@[simp] theorem Block.jtagResponse_tm (modulus : Bytes) (scope : Word) (sig : Bytes) : (s.jtagResponse modulus scope sig).tm = s.tm := by
  simp [Block.jtagResponse]

/-! Machine/Time.lean -/

@[simp] theorem Block.postStep_tm (off : Nat) : (s.postStep off).tm = s.tm := by simp [Block.postStep]
@[simp] theorem Block.putOffset_tm (off : Int) : (s.putOffset off).tm = s.tm := by simp [Block.putOffset]

/-! Machine/Fabric.lean -/

@[simp] theorem Block.modF_tm (p : Nat) (f : FabPort → FabPort) : (s.modF p f).tm = s.tm := by simp only [Block.modF]
@[simp] theorem Block.postF_tm (p ty : Nat) (data : List Word) : (s.postF p ty data).tm = s.tm := by simp [Block.postF]
@[simp] theorem Block.fGoto_tm (p st : Nat) : (s.fGoto p st).tm = s.tm := by simp [Block.fGoto]
@[simp] theorem Block.putFrame_tm (p cls : Nat) (b : List Byte) : (s.putFrame p cls b).tm = s.tm := by simp [Block.putFrame]
@[simp] theorem Block.freeCells_tm (p c n : Nat) : (s.freeCells p c n).tm = s.tm := by simp [Block.freeCells]
@[simp] theorem Block.unhold_tm (id : Nat) : (s.unhold id).tm = s.tm := by grind [Block.unhold, Block.freeCells_tm]
@[simp] theorem Block.sendOne_tm (p i : Nat) : (s.sendOne p i).tm = s.tm := by
  grind [Block.sendOne, Block.modF_tm, Block.putFrame_tm, Block.unhold_tm]
@[simp] theorem Block.pumpN_tm (s : Block) (p n : Nat) : (s.pumpN p n).tm = s.tm := by
  induction n generalizing s with
  | zero => rfl
  | succ n ih => rw [Block.pumpN]; split <;> simp [ih]
@[simp] theorem Block.pump_tm (p : Nat) : (s.pump p).tm = s.tm := by simp [Block.pump]
@[simp] theorem Block.enqueue_tm (p : Nat) (t : FabTx) : (s.enqueue p t).tm = s.tm := by simp [Block.enqueue]
@[simp] theorem Block.sendLocal_tm (p cls proto : Nat) (pay : List Byte) : (s.sendLocal p cls proto pay).tm = s.tm := by
  simp [Block.sendLocal]
@[simp] theorem Block.flood_tm (proto : Nat) (pay : List Byte) (but : Nat) : (s.flood proto pay but).tm = s.tm := by simp [Block.flood]
@[simp] theorem Block.linkCtrl_tm (p : Nat) (nak audit : Bool) : (s.linkCtrl p nak audit).tm = s.tm := by simp [Block.linkCtrl]
@[simp] theorem Block.resend_tm (p : Nat) : (s.resend p).tm = s.tm := by simp [Block.resend]
@[simp] theorem Block.nbrDrop_tm (p : Nat) : (s.nbrDrop p).tm = s.tm := by simp [Block.nbrDrop]
@[simp] theorem Block.retrain_tm (p cause : Nat) : (s.retrain p cause).tm = s.tm := by simp [Block.retrain]
@[simp] theorem Block.retry_tm (p : Nat) : (s.retry p).tm = s.tm := by simp [Block.retry]
@[simp] theorem Block.sendAcked_tm (cseq : Word) : (s.sendAcked cseq).tm = s.tm := by grind [Block.sendAcked, Block.complete_tm]
@[simp] theorem Block.acknowledge_tm (s : Block) (p ack : Nat) : (s.acknowledge p ack).tm = s.tm := by
  unfold Block.acknowledge
  refine (foldl_tm (fun t e => ?_) _ _).trans (by simp)
  split
  · simp
  · rfl
@[simp] theorem Block.auditIn_tm (p : Nat) (d : List Byte) : (s.auditIn p d).tm = s.tm := by simp [Block.auditIn]
@[simp] theorem Block.creditIn_tm (p : Nat) (d : List Byte) : (s.creditIn p d).tm = s.tm := by simp [Block.creditIn]
@[simp] theorem Block.linkCtrlIn_tm (p : Nat) (d : List Byte) (audit : Bool) : (s.linkCtrlIn p d audit).tm = s.tm := by
  simp [Block.linkCtrlIn]
@[simp] theorem Block.imagePut_tm (off : Nat) (bs : List Byte) : (s.imagePut off bs).tm = s.tm := by simp only [Block.imagePut]
@[simp] theorem Block.bootAsk_tm (p off : Nat) : (s.bootAsk p off).tm = s.tm := by simp [Block.bootAsk]
@[simp] theorem Block.bootData_tm (p : Nat) (d : List Byte) : (s.bootData p d).tm = s.tm := by simp [Block.bootData]
@[simp] theorem Block.romTrain_tm : (s.romTrain).tm = s.tm := by simp [Block.romTrain]
@[simp] theorem Block.admitStart_tm (p : Nat) (nonce : List Byte) : (s.admitStart p nonce).tm = s.tm := by simp [Block.admitStart]
@[simp] theorem Block.fLinkUp_tm (p : Nat) (nonce : List Byte) : (s.fLinkUp p nonce).tm = s.tm := by simp [Block.fLinkUp]
@[simp] theorem Block.moduleFollows_tm (p : Nat) : (s.moduleFollows p).tm = s.tm := by simp [Block.moduleFollows]
@[simp] theorem Block.fRefresh_tm (p : Nat) : (s.fRefresh p).tm = s.tm := by simp [Block.fRefresh]
@[simp] theorem Block.fabricApply_tm : (s.fabricApply).tm = s.tm := by simp [Block.fabricApply]
@[simp] theorem Block.moduleAlarm_tm (p : Nat) (flags : Word) : (s.moduleAlarm p flags).tm = s.tm := by simp [Block.moduleAlarm]
@[simp] theorem Block.awaitReplay_tm (p c cells lseq : Nat) : (s.awaitReplay p c cells lseq).tm = s.tm := by simp [Block.awaitReplay]
@[simp] theorem Block.drift_tm (p : Nat) (rem : List Nat) : (s.drift p rem).tm = s.tm := by simp [Block.drift]
@[simp] theorem Block.acceptSeq_tm (p c cells lseq : Nat) : (s.acceptSeq p c cells lseq).tm = s.tm := by simp [Block.acceptSeq]
@[simp] theorem Block.flowIn_tm (b : List Byte) : (s.flowIn b).1.tm = s.tm := by grind [Block.flowIn, Block.post_tm]
theorem Block.putCP11_tm {s t : Block} {va : Nat} {bs : List Byte} {cur : Option Nat} (h : s.putCP11 va bs cur = some t) : t.tm = s.tm := by
  induction bs generalizing s va cur with
  | nil => cases h; rfl
  | cons b bs ih => cases cur <;> grind [Block.putCP11, Block.setMemB_tm, Block.freshBlock_tm]
@[simp] theorem Block.hostRx_tm (s : Block) (b : List Byte) : (s.hostRx b).tm = s.tm := by
  grind [Block.hostRx, Block.postTally_tm, Block.bump_tm, Block.post_tm, Block.setReg_tm, Block.putCP11_tm]
@[simp] theorem Block.forward_tm (p c cells : Nat) (b : List Byte) (out : List Nat) : (s.forward p c cells b out).tm = s.tm := by
  simp [Block.forward]
@[simp] theorem Block.badCrc_tm (p c cells : Nat) : (s.badCrc p c cells).tm = s.tm := by simp [Block.badCrc]
@[simp] theorem Block.sendOn_tm (cseq : Word) (frames : List (List Byte)) (out : List Nat) : (s.sendOn cseq frames out).tm = s.tm := by
  simp [Block.sendOn]
@[simp] theorem Block.sendMsg_tm (c : Cmd) (msg : List Byte) (r : Option (Nat × Bool)) : (s.sendMsg c msg r).tm = s.tm := by
  simp only [Block.sendMsg]
  split <;> simp
@[simp] theorem Block.creditCapture_tm (p : Nat) (v : Word) : (s.creditCapture p v).tm = s.tm := by simp [Block.creditCapture]

/-! Machine/Route.lean -/

@[simp] theorem Block.fChange_tm : (s.fChange).tm = s.tm := by simp only [Block.fChange]
@[simp] theorem Block.helloIn_tm (p : Nat) (d : List Byte) : (s.helloIn p d).tm = s.tm := by simp [Block.helloIn]
@[simp] theorem Block.lsaFollows_tm : (s.lsaFollows).tm = s.tm := by simp [Block.lsaFollows]
@[simp] theorem Block.lsaStore_tm (l : Lsa) : (s.lsaStore l).tm = s.tm := by simp [Block.lsaStore]
@[simp] theorem Block.originate_tm : (s.originate).tm = s.tm := by simp [Block.originate]
@[simp] theorem Block.lsaDrop_tm (u : Nat) : (s.lsaDrop u).tm = s.tm := by simp [Block.lsaDrop]
@[simp] theorem Block.lsaIn_tm (p : Nat) (d : List Byte) : (s.lsaIn p d).tm = s.tm := by simp [Block.lsaIn]
@[simp] theorem Block.takeAddr_tm : (s.takeAddr).tm = s.tm := by simp [Block.takeAddr]
@[simp] theorem Block.noteAbsent_tm : (s.noteAbsent).tm = s.tm := by simp only [Block.noteAbsent]
@[simp] theorem Block.assignFlood_tm (root : Nat) : (s.assignFlood root).tm = s.tm := by simp [Block.assignFlood]
@[simp] theorem Block.takeRoot_tm : (s.takeRoot).tm = s.tm := by simp [Block.takeRoot]
@[simp] theorem Block.rootPass_tm : (s.rootPass).tm = s.tm := by
  grind [Block.rootPass, Block.takeRoot_tm, Block.noteAbsent_tm, Block.post_tm, Block.assignFlood_tm, Block.fChange_tm, Block.takeAddr_tm]
@[simp] theorem Block.assignPart_tm (root : Nat) (seq : Word) (part all : Nat) (l : List (Nat × Nat)) :
    (s.assignPart root seq part all l).tm = s.tm := by
  simp [Block.assignPart]
@[simp] theorem Block.assignIn_tm (p : Nat) (d : List Byte) : (s.assignIn p d).tm = s.tm := by simp [Block.assignIn]
@[simp] theorem Block.postParent_tm : (s.postParent).tm = s.tm := by simp [Block.postParent]
@[simp] theorem Block.swap_tm (ms : Nat) (t : RouteTable) : (s.swap ms t).tm = s.tm := by simp [Block.swap]
@[simp] theorem Block.syncSend_tm : (s.syncSend).tm = s.tm := by simp [Block.syncSend]
@[simp] theorem Block.admitJudge_tm (p : Nat) (proof : Bool) : (s.admitJudge p proof).tm = s.tm := by simp [Block.admitJudge]
@[simp] theorem Block.proofSend_tm (p : Nat) (sig : List Byte) : (s.proofSend p sig).tm = s.tm := by simp [Block.proofSend]
@[simp] theorem Block.proofIn_tm (p : Nat) (ok : Bool) : (s.proofIn p ok).tm = s.tm := by simp [Block.proofIn]
@[simp] theorem Block.rsaServe_tm (s : Block) (l : List (Nat × RsaReq)) : (s.rsaServe l).tm = s.tm := by
  induction l generalizing s with
  | nil => rfl
  | cons e l ih => rcases e with ⟨t, _ | _ | _⟩ <;> simp [Block.rsaServe, ih]
@[simp] theorem Block.rsaAsk_tm (q : RsaReq) : (s.rsaAsk q).tm = s.tm := by simp [Block.rsaAsk]
@[simp] theorem Block.rsaDrop_tm : (s.rsaDrop).tm = s.tm := by simp [Block.rsaDrop]
@[simp] theorem Block.admitIn_tm (p : Nat) (d : List Byte) (serial : Option Nat) (rsa : Bool) (sig : List Byte) :
    (s.admitIn p d serial rsa sig).tm = s.tm := by
  grind [Block.admitIn, Block.modF_tm, Block.rsaAsk_tm]
@[simp] theorem Block.bootReq_tm (p : Nat) (d : List Byte) : (s.bootReq p d).tm = s.tm := by grind [Block.bootReq, Block.sendLocal_tm]

/-! Machine/Colour.lean -/

@[simp] theorem Block.modPd_tm (j : Nat) (f : PdState → PdState) : (s.modPd j f).tm = s.tm := by simp only [Block.modPd]
@[simp] theorem Block.saturated_tm (j n : Nat) : (s.saturated j n).tm = s.tm := by simp [Block.saturated]
@[simp] theorem Block.offsetClose_tm (j r code sat : Nat) : (s.offsetClose j r code sat).tm = s.tm := by simp [Block.offsetClose]
@[simp] theorem Block.modEst_tm (g : Nat) (f : Est → Est) : (s.modEst g f).tm = s.tm := by simp only [Block.modEst]
@[simp] theorem Block.measureTake_tm (g a b q len : Nat) (x : Slot) (flat filt : Nat) :
    (s.measureTake g a b q len x flat filt).tm = s.tm := by
  grind [Block.measureTake, Block.modPd_tm, Block.modEst_tm, Block.postI_tm]
@[simp] theorem Block.estFrame_tm (g : Nat) : (s.estFrame g).tm = s.tm := by simp [Block.estFrame]
@[simp] theorem Block.matrixStep_tm (new : List Int) (fresh : Bool) : (s.matrixStep new fresh).tm = s.tm := by
  simp only [Block.matrixStep, Block.postTally_tm, Block.tm_ite, ite_self]
@[simp] theorem Block.hmUpdate_tm : (s.hmUpdate).tm = s.tm := by grind [Block.hmUpdate]
@[simp] theorem Block.matrixRow3_tm : (s.matrixRow3).tm = s.tm := by simp only [Block.matrixRow3]
@[simp] theorem Block.colourMatrix_tm : (s.colourMatrix).tm = s.tm := by
  grind [Block.colourMatrix, Block.hmUpdate_tm, Block.matrixRow3_tm, Block.matrixStep_tm]
@[simp] theorem Block.targetApply_tm : (s.targetApply).tm = s.tm := by grind [Block.targetApply, Block.post_tm]
@[simp] theorem Block.colourPb_tm : (s.colourPb).tm = s.tm := by simp [Block.colourPb]
@[simp] theorem Block.localTarget_tm : (s.localTarget).tm = s.tm := by grind [Block.localTarget]
@[simp] theorem Block.sendGroup0_tm (pay : List Byte) : (s.sendGroup0 pay).tm = s.tm := by simp [Block.sendGroup0]
@[simp] theorem Block.postExcluded_tm (uid reason : Nat) : (s.postExcluded uid reason).tm = s.tm := by simp [Block.postExcluded]
@[simp] theorem Block.reportIn_tm (s : Block) (d : List Byte) : (s.reportIn d).tm = s.tm := by
  unfold Block.reportIn
  extract_lets
  repeat' split
  all_goals simp
@[simp] theorem Block.digestIn_tm (d : List Byte) : (s.digestIn d).tm = s.tm := by simp [Block.digestIn]
@[simp] theorem Block.setEvents_tm (n : Word) : (s.setEvents n).tm = s.tm := by simp [Block.setEvents]
@[simp] theorem Block.estCapture_tm (g : Nat) : (s.estCapture g).tm = s.tm := by simp [Block.estCapture]
@[simp] theorem Block.targetCapture_tm (k : Nat) : (s.targetCapture k).tm = s.tm := by
  simp only [Block.targetCapture]
  split <;> simp
@[simp] theorem Block.matCapture_tm (v : Word) : (s.matCapture v).tm = s.tm := by simp [Block.matCapture]
@[simp] theorem Block.pdCapture_tm (j : Nat) : (s.pdCapture j).tm = s.tm := by simp [Block.pdCapture]

/-! Machine/Chk.lean -/

@[simp] theorem Block.modChk_tm (u : Nat) (f : ChkUnit → ChkUnit) : (s.modChk u f).tm = s.tm := by simp only [Block.modChk]
@[simp] theorem Block.chkSeqErr_tm (u : Nat) : (s.chkSeqErr u).tm = s.tm := by simp [Block.chkSeqErr]
@[simp] theorem Block.chkStart_tm (u : Nat) : (s.chkStart u).tm = s.tm := by simp [Block.chkStart]
@[simp] theorem Block.chkFeed_tm (u : Nat) (v : Word) : (s.chkFeed u v).tm = s.tm := by simp [Block.chkFeed]
@[simp] theorem Block.chkMem_tm (u : Nat) : (s.chkMem u).tm = s.tm := by simp [Block.chkMem]
@[simp] theorem Block.chkFinal_tm (u : Nat) : (s.chkFinal u).tm = s.tm := by simp [Block.chkFinal]
@[simp] theorem Block.chkFinish_tm (u : Nat) : (s.chkFinish u).tm = s.tm := by simp [Block.chkFinish]
@[simp] theorem Block.chkBeat_tm (u : Nat) (phys : Bool) (a left : Nat) (cur : Option Nat) : (s.chkBeat u phys a left cur).1.tm = s.tm := by
  grind [Block.chkBeat, Block.dramReq_tm, Block.beat_tm]
@[simp] theorem Block.chkRead_tm (s : Block) (u : Nat) (phys : Bool) (a n : Nat) (cur : Option Nat) (k : ChkUnit) :
    (s.chkRead u phys a n cur k).1.tm = s.tm := by
  induction n generalizing s a cur k with
  | zero => rfl
  | succ n ih => grind [Block.chkRead, Block.chkBeat_tm, Block.uncorrectable_tm]
@[simp] theorem Block.chkMemDone_tm (u : Nat) : (s.chkMemDone u).tm = s.tm := by
  grind [Block.chkMemDone, Block.chkRead_tm, Block.modChk_tm, Block.chkFinal_tm, Block.post_tm, Block.setInt_tm]
@[simp] theorem Block.chkCfg_tm (u : Nat) (v : Word) : (s.chkCfg u v).tm = s.tm := by simp [Block.chkCfg]
@[simp] theorem Block.chkPsel_tm (u : Nat) (v : Word) : (s.chkPsel u v).tm = s.tm := by
  grind [Block.chkPsel, Block.rwWrite_tm, Block.setRegs_tm]
@[simp] theorem Block.chkPhi_tm (u : Nat) (v : Word) : (s.chkPhi u v).tm = s.tm := by simp [Block.chkPhi]
@[simp] theorem Block.tallyCtrl_tm (v : Word) : (s.tallyCtrl v).tm = s.tm := by simp [Block.tallyCtrl]
@[simp] theorem Block.tallyWrap_tm (n : Nat) : (s.tallyWrap n).tm = s.tm := by grind [Block.tallyWrap, Block.post_tm, Block.setFld_tm]
@[simp] theorem Block.tallyWraps_tm : (s.tallyWraps).tm = s.tm := by simp [Block.tallyWraps]
@[simp] theorem Block.tallySnap_tm (fsn : Word) (ft : Nat) : (s.tallySnap fsn ft).tm = s.tm := by simp [Block.tallySnap]
@[simp] theorem Block.tallyRestart_tm (old : Nat → Word) : (s.tallyRestart old).tm = s.tm := by simp only [Block.tallyRestart]

/-! Machine/Validate.lean -/

@[simp] theorem Block.denyClaim_tm (d : Nat × Nat × Nat × Nat) : (s.denyClaim d).tm = s.tm := by simp [Block.denyClaim]
@[simp] theorem Block.ownersOf_tm (l : List Nat) : (s.ownersOf l).tm = s.tm := by
  rw [Block.ownersOf]
  refine foldl_tm (fun t x => ?_) _ _
  grind [Block.setReg_tm]
@[simp] theorem Block.updateOwners_tm : (s.updateOwners).tm = s.tm := by simp [Block.updateOwners]
@[simp] theorem Block.failDetail_tm (f : Fail) : (s.failDetail f).2.tm = s.tm := by grind [Block.failDetail, Block.takeBelow_tm]
@[simp] theorem Block.valTime_tm : (s.valTime).tm = s.tm := by simp [Block.valTime]
@[simp] theorem Block.seqCheck_tm (s : Block) : s.seqCheck.tm = s.tm := by
  unfold Block.seqCheck
  dsimp only
  split <;> simp

/-! Machine/Pipeline.lean -/

@[simp] theorem Block.syncDone_tm : (s.syncDone).tm = s.tm := by simp [Block.syncDone]
@[simp] theorem Block.mapsApply_tm (pages : Nat) : (s.mapsApply pages).tm = s.tm := by simp only [Block.mapsApply]
@[simp] theorem Block.tablesApply_tm (pages : Nat) : (s.tablesApply pages).tm = s.tm := by simp only [Block.tablesApply]
@[simp] theorem Block.planGo_tm (v : Word) : (s.planGo v).tm = s.tm := by simp [Block.planGo]
@[simp] theorem Block.planStale_tm : (s.planStale).tm = s.tm := by simp only [Block.planStale]
@[simp] theorem Block.planDone_tm : (s.planDone).tm = s.tm := by grind [Block.planDone, Block.post_tm, Block.setFld_tm, Block.setRegs_tm]
@[simp] theorem Block.takeSurface_tm (sel : Option Nat) (src : Nat) (set : List Nat) (byTag : Bool) :
    (s.takeSurface sel src set byTag).tm = s.tm := by
  simp only [Block.takeSurface]
  split <;> simp
@[simp] theorem Block.clockPb_tm (begins : Bool) : (s.clockPb begins).tm = s.tm := by simp [Block.clockPb]
@[simp] theorem Block.overrun_tm : (s.overrun).tm = s.tm := by simp [Block.overrun]
@[simp] theorem Block.pipeBegin_tm : (s.pipeBegin).1.tm = s.tm := by
  simp only [Block.pipeBegin]
  split <;> simp
@[simp] theorem Block.stallPb_tm (began : Bool) : (s.stallPb began).tm = s.tm := by simp [Block.stallPb]
@[simp] theorem Block.tallyTimes_tm (s : Block) (ty inst n : Nat) : (s.tallyTimes ty inst n).tm = s.tm := by
  induction n with
  | zero => rfl
  | succ n ih => rw [Block.tallyTimes, Block.postTally_tm, ih]
@[simp] theorem Block.splitReport_tm (f : PipeFrame) : (s.splitReport f).tm = s.tm := by
  grind [Block.splitReport, Block.takeBelow_tm, Block.tallyTimes_tm, Block.setRegs_tm]
@[simp] theorem Block.warpCounts_tm (f : PipeFrame) : (s.warpCounts f).tm = s.tm := by simp [Block.warpCounts]
@[simp] theorem Block.lateMaps_tm : (s.lateMaps).tm = s.tm := by
  simp only [Block.lateMaps]
  split <;> simp
@[simp] theorem Block.pipeCount_tm (f : PipeFrame) : (s.pipeCount f).tm = s.tm := by simp [Block.pipeCount]
@[simp] theorem Block.planesSealed_tm (s : Block) : s.planesSealed.tm = s.tm := by
  have hseal : ∀ (u : Block) (l : List Nat), (l.foldl Block.sealSet u).tm = u.tm := fun u l => foldl_tm (fun u p => u.sealSet_tm p) l u
  grind [Block.planesSealed, Block.lateMaps_tm, Block.splitReport_tm, Block.warpCounts_tm, Block.pipeCount_tm, Block.writeHl_tm,
    Block.setReg_tm, Block.autoClose_tm]

/-! Machine/Almanac.lean -/

@[simp] theorem Block.setCtx_tm (i : Nat) (c : CueCtx) : (s.setCtx i c).tm = s.tm := by simp only [Block.setCtx]
@[simp] theorem Block.cueEvent_tm (ty i : Nat) (fsn : Word) : (s.cueEvent ty i fsn).tm = s.tm := by simp [Block.cueEvent]
@[simp] theorem Block.cueMiss_tm (i res : Nat) (fsn : Word) : (s.cueMiss i res fsn).tm = s.tm := by simp [Block.cueMiss]
@[simp] theorem Block.cueDone_tm (i : Nat) : (s.cueDone i).tm = s.tm := by simp [Block.cueDone]
@[simp] theorem Block.cuesRejected_tm (l : List Nat) (fsn : Word) : (s.cuesRejected l fsn).tm = s.tm := by simp [Block.cuesRejected]
@[simp] theorem Block.cuesApplied_tm (l : List Nat) : (s.cuesApplied l).tm = s.tm := by simp [Block.cuesApplied]

/-! Machine/Ingest.lean -/

@[simp] theorem Block.modSrc_tm (n : Nat) (f : Source → Source) : (s.modSrc n f).tm = s.tm := by simp only [Block.modSrc]
@[simp] theorem Block.lostFrame_tm (n : Nat) (surf : Option Nat) (cause : Nat) (tag : Word) : (s.lostFrame n surf cause tag).tm = s.tm := by
  simp [Block.lostFrame]
@[simp] theorem Block.abandonAs_tm (n cause : Nat) (tag : Word) : (s.abandonAs n cause tag).tm = s.tm := by
  grind [Block.abandonAs, Block.modSurf_tm, Block.modSrc_tm, Block.lostFrame_tm]
@[simp] theorem Block.abandon_tm (n cause : Nat) : (s.abandon n cause).tm = s.tm := by simp [Block.abandon]
@[simp] theorem Block.mismatch_tm (n : Nat) (tag : Word) : (s.mismatch n tag).tm = s.tm := by simp [Block.mismatch]
@[simp] theorem Block.beginFrame_tm (n : Nat) (fits : Bool) : (s.beginFrame n fits).tm = s.tm := by
  grind [Block.beginFrame, Block.mismatch_tm, Block.lostFrame_tm, Block.modSrc_tm, Block.modSurf_tm]
@[simp] theorem Block.hfc_tm (n i : Nat) (tag : Word) : (s.hfc n i tag).tm = s.tm := by simp [Block.hfc]
@[simp] theorem Block.sealFor_tm (n i : Nat) (tag : Word) : (s.sealFor n i tag).tm = s.tm := by simp [Block.sealFor]
@[simp] theorem Block.freshSurf_tm (i : Nat) : (s.freshSurf i).tm = s.tm := by simp only [Block.freshSurf]
@[simp] theorem Block.endFrame_tm (n : Nat) (tag : Word) : (s.endFrame n tag).tm = s.tm := by
  grind [Block.endFrame, Block.compress_tm, Block.freshSurf_tm, Block.abandonAs_tm, Block.bump_tm, Block.hfc_tm, Block.sealFor_tm]
@[simp] theorem Block.joinStart_tm : (s.joinStart).tm = s.tm := by
  simp only [Block.joinStart, Block.abandon_tm, Block.setFld_tm, Block.tm_ite, ite_self]
@[simp] theorem Block.dpTake_tm (a : Nat) : (s.dpTake a).tm = s.tm := by simp only [Block.dpTake]
@[simp] theorem Block.unpaired_tm : (s.unpaired).tm = s.tm := by simp [Block.unpaired]
@[simp] theorem Block.dpStart_tm (a : Nat) : (s.dpStart a).tm = s.tm := by simp [Block.dpStart]
@[simp] theorem Block.storePixel_tm (i bpc x y : Nat) (ycc : Bool) (cs : List Nat) : (s.storePixel i bpc x y ycc cs).tm = s.tm := by
  simp [Block.storePixel]
@[simp] theorem Block.storeRaster_tm (i bpc x0 w : Nat) (ycc : Bool) (pix : List (List Nat)) :
    (s.storeRaster i bpc x0 w ycc pix).tm = s.tm := by
  simp [Block.storeRaster]
@[simp] theorem Block.repeatLine_tm (i j x0 w y : Nat) : (s.repeatLine i j x0 w y).tm = s.tm := by simp [Block.repeatLine]
@[simp] theorem Block.badLines_tm (s : Block) (a n i x0 w : Nat) (bad : List Nat) : (s.badLines a n i x0 w bad).tm = s.tm := by
  rw [Block.badLines]
  split
  · rfl
  · simp only [Block.post_tm, Block.bumpSat_tm, Block.bump_tm]
    split
    · exact foldl_tm (fun t y => t.repeatLine_tm ..) _ _
    · rfl
@[simp] theorem Block.dpSeal_tm (a : Nat) (pix : Pixels) (bad : List Nat) (vsc : Option Vsc) : (s.dpSeal a pix bad vsc).tm = s.tm := by
  grind [Block.dpSeal, Block.badLines_tm, Block.storeRaster_tm, Block.modSrc_tm, Block.modSurf_tm, Block.endFrame_tm]
@[simp] theorem Block.dpAbandon_tm (a : Nat) : (s.dpAbandon a).tm = s.tm := by simp [Block.dpAbandon]
@[simp] theorem Block.postStream_tm (a : Nat) : (s.postStream a).tm = s.tm := by simp [Block.postStream]
@[simp] theorem Block.unsupported_tm (code : Nat) : (s.unsupported code).tm = s.tm := by simp [Block.unsupported]
@[simp] theorem Block.dscRefuse_tm (a : Nat) : (s.dscRefuse a).tm = s.tm := by simp [Block.dscRefuse]
@[simp] theorem Block.dpTiming_tm (a : Nat) (t : DpTiming) : (s.dpTiming a t).tm = s.tm := by simp [Block.dpTiming]
@[simp] theorem Block.dropPic_tm (f : Nat) (target : Word) : (s.dropPic f target).tm = s.tm := by simp [Block.dropPic]
@[simp] theorem Block.lostPic_tm (f cause : Nat) (target : Word) : (s.lostPic f cause target).tm = s.tm := by simp [Block.lostPic]
@[simp] theorem Block.writePic_tm (n i hfc kind width : Nat) (tag : Word) (pps bytes : List Byte) (ycc : Bool) (decoded : List (List Nat)) :
    (s.writePic n i hfc kind width tag pps bytes ycc decoded).tm = s.tm := by
  simp [Block.writePic]
@[simp] theorem Block.picDone_tm (s : Block) (f : Nat) (p : Picture) (decoded : List (List Nat)) : (s.picDone f p decoded).tm = s.tm := by
  rw [Block.picDone]
  split
  · exact s.lostPic_tm ..
  · split
    · rw [Block.modSrc_tm, Block.lostPic_tm]
    · split
      · exact s.lostPic_tm ..
      · rw [Block.writePic_tm, Block.dropPic_tm]
@[simp] theorem Block.contentPart_tm (f : Nat) (bs : List Byte) (decoded : List (List Nat)) : (s.contentPart f bs decoded).tm = s.tm := by
  grind [Block.contentPart, Block.lostPic_tm, Block.modSrc_tm, Block.picDone_tm]
@[simp] theorem Block.content_tm (bs : List Byte) (decoded : List (List Nat)) : (s.content bs decoded).tm = s.tm := by
  grind [Block.content, Block.modSrc_tm, Block.contentPart_tm, Block.lostPic_tm]
@[simp] theorem Block.pictureLate_tm (f : Nat) : (s.pictureLate f).tm = s.tm := by simp [Block.pictureLate]
@[simp] theorem Block.nvmeGoto_tm (st status : Nat) : (s.nvmeGoto st status).tm = s.tm := by simp [Block.nvmeGoto]
@[simp] theorem Block.modNvme_tm (f : NvmeState → NvmeState) : (s.modNvme f).tm = s.tm := by simp only [Block.modNvme]
@[simp] theorem Block.emitRead_tm (r : NvmeRead) : (s.emitRead r).tm = s.tm := by simp [Block.emitRead]
@[simp] theorem Block.nvmeRead_tm (phase lba blocks : Nat) : (s.nvmeRead phase lba blocks).tm = s.tm := by simp [Block.nvmeRead]
@[simp] theorem Block.readUnit_tm (phase unit : Nat) : (s.readUnit phase unit).tm = s.tm := by simp [Block.readUnit]
@[simp] theorem Block.nvmeAdmin_tm : (s.nvmeAdmin).tm = s.tm := by simp [Block.nvmeAdmin]
@[simp] theorem Block.nvmeOff_tm : (s.nvmeOff).tm = s.tm := by simp [Block.nvmeOff]
@[simp] theorem Block.nvmeEnable_tm (linkUp : Bool) (id : NvmeIdent) : (s.nvmeEnable linkUp id).tm = s.tm := by simp [Block.nvmeEnable]
@[simp] theorem Block.headerRead_tm (h : List Byte) : (s.headerRead h).tm = s.tm := by
  grind [Block.headerRead, Block.post_tm, Block.setFld_tm, Block.nvmeGoto_tm, Block.modNvme_tm]
@[simp] theorem Block.hfcPush_tm (v : Word) : (s.hfcPush v).tm = s.tm := by simp [Block.hfcPush]
@[simp] theorem Block.surfOpWrite_tm (v : Word) : (s.surfOpWrite v).tm = s.tm := by
  grind [Block.surfOpWrite, Block.surfDefine_tm, Block.surfOpen_tm, Block.surfClose_tm]
@[simp] theorem Block.surfSelWrite_tm (v : Word) : (s.surfSelWrite v).tm = s.tm := by simp [Block.surfSelWrite]
@[simp] theorem Block.libraryFrame_tm (s : Block) (i : Nat) (target : Word) (entry payload : Bytes) (pix : Pixels) :
    (s.libraryFrame i target entry payload pix).tm = s.tm := by
  fun_cases Block.libraryFrame s i target entry payload pix <;> simp +zetaDelta
@[simp] theorem Block.readsDone_tm (s : Block) (pix : Pixels) : (s.readsDone pix).tm = s.tm := by
  fun_cases Block.readsDone s pix <;> simp +zetaDelta
@[simp] theorem Block.readsFailed_tm (status : Nat) : (s.readsFailed status).tm = s.tm := by simp [Block.readsFailed]

/-! Machine/Commit.lean -/

@[simp] theorem Block.commitEvent_tm (ty : Nat) (c : Commit) (cause page : Nat) : (s.commitEvent ty c cause page).tm = s.tm := by
  simp [Block.commitEvent]
@[simp] theorem Block.reject_tm (s : Block) (c : Commit) (f : Fail) : (s.reject c f).tm = s.tm := by
  have hfold : ∀ (l : List Nat) (i : Word) (t : Block),
      (l.foldl (fun t p => (t.errCause p 0).setReg (R.ERR_INFO p) i) t).tm = t.tm :=
    fun l i t => foldl_tm (fun u p => (Block.setReg_tm ..).trans (u.errCause_tm p 0)) l t
  rw [Block.reject, Block.commitEvent_tm, Block.cuesRejected_tm, Block.setReg_tm, hfold, Block.failDetail_tm]
@[simp] theorem Block.waitSeal_tm (c : Commit) : (s.waitSeal c).1.tm = s.tm := by simp [Block.waitSeal]
@[simp] theorem Block.latch_tm (s : Block) (c : Commit) : (s.latch c).tm = s.tm := by
  fun_cases Block.latch s c <;> grind [Block.valTime_tm, Block.denyClaim_tm, Block.reject_tm, Block.waitSeal_tm]
@[simp] theorem Block.retest_tm : (s.retest).tm = s.tm := by simp [Block.retest]
@[simp] theorem Block.cutoffReads_tm : (s.cutoffReads).tm = s.tm := by simp [Block.cutoffReads]
@[simp] theorem Block.withdraw_tm (s : Block) (pages : Nat) (group : Bool) : (s.withdraw pages group).tm = s.tm := by
  have hlate : ∀ (t : Block) (l : List Nat), (l.foldl (fun s p => s.errCause p 1) t).tm = t.tm :=
    fun t l => foldl_tm (fun u p => u.errCause_tm p 1) l t
  grind [Block.withdraw, Block.errCause_tm]
@[simp] theorem Block.recapture_tm (pages : Nat) : (s.recapture pages).tm = s.tm := by
  simp only [Block.recapture]
  refine foldl_tm (fun t x => ?_) _ _
  grind [Block.modSurf_tm]
@[simp] theorem Block.sourceApplied_tm (old : Nat → Word) (pages : Nat) : (s.sourceApplied old pages).tm = s.tm := by
  simp [Block.sourceApplied]
@[simp] theorem Block.tablesTaken_tm (c : Commit) : (s.tablesTaken c).tm = s.tm := by simp only [Block.tablesTaken]
@[simp] theorem Block.scanApplied_tm (old : Nat → Word) (pages : Nat) : (s.scanApplied old pages).tm = s.tm := by simp [Block.scanApplied]
@[simp] theorem Block.lightApplied_tm (old : Nat → Word) (pages : Nat) : (s.lightApplied old pages).tm = s.tm := by
  simp [Block.lightApplied]
@[simp] theorem Block.ingestApplied_tm : (s.ingestApplied).tm = s.tm := by simp [Block.ingestApplied]
@[simp] theorem Block.displayApplied_tm (old : Nat → Word) (oldSp pages : Nat) : (s.displayApplied old oldSp pages).tm = s.tm := by
  simp [Block.displayApplied]
@[simp] theorem Block.darkGroup_tm (g : Nat) : (s.darkGroup g).tm = s.tm := by simp [Block.darkGroup]
@[simp] theorem Block.commitDone_tm (lit : Nat) (c : Commit) : (Block.commitDone lit s c).tm = s.tm := by simp [Block.commitDone]
@[simp] theorem Block.makeUsable_tm : (s.makeUsable).tm = s.tm := by simp [Block.makeUsable]

/-! Machine/Hold.lean -/

@[simp] theorem Block.modHo_tm (f : HoldState → HoldState) : (s.modHo f).tm = s.tm := by simp only [Block.modHo]
@[simp] theorem Block.enterFrost_tm (reason us : Nat) : (s.enterFrost reason us).tm = s.tm := by simp [Block.enterFrost]
@[simp] theorem Block.thaw_tm (us : Nat) : (s.thaw us).tm = s.tm := by simp [Block.thaw]
@[simp] theorem Block.slotWrite_tm (k off : Nat) (bs : List Byte) : (s.slotWrite k off bs).tm = s.tm := by simp [Block.slotWrite]
@[simp] theorem Block.ringRecord_tm (s : Block) (coded pps : List Byte) (done : Bool) : (s.ringRecord coded pps done).tm = s.tm := by
  fun_cases Block.ringRecord s coded pps done <;> simp +zetaDelta
@[simp] theorem Block.clearRing_tm : (s.clearRing).tm = s.tm := by simp [Block.clearRing]
@[simp] theorem Block.remap_tm : (s.remap).tm = s.tm := by simp [Block.remap]
@[simp] theorem Block.libraryRead_tm : (s.libraryRead).tm = s.tm := by
  simp only [Block.libraryRead, Block.remap_tm, Block.modNvme_tm, Block.readUnit_tm, Block.modSrc_tm, Block.modHo_tm, Block.tm_ite,
    ite_self]
@[simp] theorem Block.verifyReads_tm (i : Nat) (e : Bytes) : (s.verifyReads i e).tm = s.tm := by simp [Block.verifyReads]
@[simp] theorem Block.holdVerify_tm (c : Cmd) (reads : List (Bytes × Bytes)) : (s.holdVerify c reads).tm = s.tm := by
  simp [Block.holdVerify]
@[simp] theorem Block.policyStart_tm : (s.policyStart).tm = s.tm := by simp [Block.policyStart]
@[simp] theorem Block.holdEnter_tm (src : Nat) : (s.holdEnter src).tm = s.tm := by simp [Block.holdEnter]
@[simp] theorem Block.holdExit_tm (how : Nat) : (s.holdExit how).tm = s.tm := by simp [Block.holdExit]
@[simp] theorem Block.watch_tm (n : Nat) (sealed_ : Bool) : (s.watch n sealed_).tm = s.tm := by simp [Block.watch]
@[simp] theorem Block.holding_tm (sealed_ : Bool) : (s.holding sealed_).tm = s.tm := by simp [Block.holding]
@[simp] theorem Block.holdPb_tm : (s.holdPb).tm = s.tm := by
  grind [Block.holdPb, Block.remap_tm, Block.modHo_tm, Block.holding_tm, Block.watch_tm, Block.postTally_tm, Block.bump_tm]
@[simp] theorem Block.forceRejoin_tm : (s.forceRejoin).tm = s.tm := by simp [Block.forceRejoin]

/-! Machine/Power.lean -/

@[simp] theorem Block.forbid_tm (i : Nat) : (s.forbid i).tm = s.tm := by simp [Block.forbid]
@[simp] theorem Block.standbyInputs_tm : (s.standbyInputs).tm = s.tm := by simp [Block.standbyInputs]
@[simp] theorem Block.safeAtReady_tm : (s.safeAtReady).tm = s.tm := by grind [Block.safeAtReady, Block.enterSafe_tm]
@[simp] theorem Block.litSync_tm : (s.litSync).tm = s.tm := by simp only [Block.litSync]
@[simp] theorem Block.lightGroups_tm (mask reason us : Nat) : (s.lightGroups mask reason us).tm = s.tm := by simp [Block.lightGroups]
@[simp] theorem Block.stopGroups_tm (mask at_ : Nat) : (s.stopGroups mask at_).tm = s.tm := by simp [Block.stopGroups]
@[simp] theorem Block.dropGroups_tm (gs : List Nat) : (s.dropGroups gs).tm = s.tm := by simp [Block.dropGroups]
@[simp] theorem Block.unlit_tm (reason us : Nat) : (s.unlit reason us).tm = s.tm := by simp [Block.unlit]
@[simp] theorem Block.pairsUp_tm : (s.pairsUp).tm = s.tm := by simp [Block.pairsUp]
@[simp] theorem Block.standDown_tm : (s.standDown).tm = s.tm := by simp [Block.standDown]
@[simp] theorem Block.closeUp_tm : (s.closeUp).tm = s.tm := by
  simp only [Block.closeUp, Block.autoClose_tm]
@[simp] theorem Block.hwFail_tm (l : List (Nat × Nat)) : (s.hwFail l).tm = s.tm := by simp only [Block.hwFail]
@[simp] theorem Block.tryReady_tm : (s.tryReady).tm = s.tm := by
  grind [Block.tryReady, Block.closeUp_tm, Block.hwFail_tm, Block.complete_tm, Block.reloadRecs_tm, Block.refreshMembers_tm, Block.goto_tm,
    Block.fastAxisStart_tm, Block.safeAtReady_tm]
@[simp] theorem Block.bringupFail_tm (o : StateSetOp) (units : List (Nat × Nat × Nat)) : (s.bringupFail o units).tm = s.tm := by
  simp [Block.bringupFail]
/-- The event and the validation stay variables: checking the proof would evaluate them otherwise. -/
@[simp] theorem Block.portReady_tm (s : Block) (p : Nat) : (s.portReady p).tm = s.tm := by
  obtain ⟨post, hpost, hdef⟩ : ∃ F, (∀ s p e l, (F s p e l).tm = Block.tm s) ∧ F = Block.maEvt :=
    ⟨_, Block.maEvt_tm, rfl⟩
  obtain ⟨validate, hval⟩ : ∃ F, F = Block.validateActive := ⟨_, rfl⟩
  have hset := Block.setRegs_tm
  unfold Block.portReady
  rw [← hdef, ← hval]
  extract_lets t
  have ht : t.tm = s.tm := (Block.portGoto_tm ..).trans (Block.modPort_tm ..)
  clear_value t
  cases validate t with
  | none => exact (Block.tryReady_tm ..).trans ((Block.modPort_tm ..).trans ht)
  | some f =>
    dsimp only
    split <;> simp only [Block.bringupFail_tm, hpost, hset, Block.failDetail_tm, ht]
@[simp] theorem Block.rdyLow_tm (p : Nat) : (s.rdyLow p).tm = s.tm := by
  grind [Block.rdyLow, Block.portGoto_tm, Block.portReady_tm, Block.modPort_tm]
@[simp] theorem Block.stateSet_tm (cseq : Word) (row : Nat) (f : Block → Cmd → Block) (hf : ∀ t x0, (f t x0).tm = t.tm) :
    (s.stateSet cseq row f).tm = s.tm := by
  grind [Block.stateSet, Block.complete_tm]
@[simp] theorem Block.stateSetRuns_tm (o : StateSetOp) : (s.stateSetRuns o).tm = s.tm := by simp [Block.stateSetRuns]
@[simp] theorem Block.setReady_tm (c : Cmd) : (s.setReady c).tm = s.tm := by simp [Block.setReady]
@[simp] theorem Block.setStandby_tm (c : Cmd) : (s.setStandby c).tm = s.tm := by simp [Block.setStandby]
@[simp] theorem Block.setLit_tm (c : Cmd) : (s.setLit c).tm = s.tm := by simp [Block.setLit]
@[simp] theorem Block.setExtinguish_tm (c : Cmd) : (s.setExtinguish c).tm = s.tm := by simp [Block.setExtinguish]
@[simp] theorem Block.stateSetStart_tm : (s.stateSetStart).tm = s.tm := by grind [Block.stateSetStart, Block.lightGroups_tm]
@[simp] theorem Block.stateSetEnd_tm : (s.stateSetEnd).tm = s.tm := by grind [Block.stateSetEnd, Block.complete_tm]

/-! Machine/Calib.lean -/

@[simp] theorem Block.claimAll_tm (cseq : Word) (l : List Nat) : (s.claimAll cseq l).tm = s.tm := by simp [Block.claimAll]
@[simp] theorem Block.calClaim_tm (r : CalRun) : (s.calClaim r).tm = s.tm := by simp [Block.calClaim]
@[simp] theorem Block.calRelease_tm (r : CalRun) : (s.calRelease r).tm = s.tm := by simp [Block.calRelease]
@[simp] theorem Block.calFinish_tm (r : CalRun) (status detail : Nat) : (s.calFinish r status detail).tm = s.tm := by
  grind [Block.calFinish, Block.setReg_tm, Block.sweepOver_tm, Block.calRelease_tm, Block.modGrp_tm, Block.giveBack_tm, Block.bump_tm,
    Block.postI_tm, Block.ownersOf_tm, Block.complete_tm]
@[simp] theorem Block.calStop_tm (status detail : Nat) : (s.calStop status detail).tm = s.tm := by grind [Block.calStop, Block.calFinish_tm]
@[simp] theorem Block.calAccept_tm (cseq : Word) : (s.calAccept cseq).tm = s.tm := by
  grind [Block.calAccept, Block.complete_tm, Block.denyClaim_tm, Block.claimAll_tm]
@[simp] theorem Block.calStart_tm (r : CalRun) : (s.calStart r).tm = s.tm := by simp [Block.calStart]
@[simp] theorem Block.calibrate_tm (cseq : Word) (proc : Nat) : (s.calibrate cseq proc).tm = s.tm := by
  grind [Block.calibrate, Block.complete_tm, Block.setReg_tm, Block.calStart_tm]
@[simp] theorem Block.copyPi_tm : (s.copyPi).tm = s.tm := by
  rw [Block.copyPi]
  refine foldl_tm (fun t x => ?_) _ _
  grind [Block.setMem_tm]
@[simp] theorem Block.putPi_tm (m : Nat) (pts : List (Nat × Nat)) : (s.putPi m pts).tm = s.tm := by simp [Block.putPi]
@[simp] theorem Block.pdFb_tm : (s.pdFb).tm = s.tm := by simp [Block.pdFb]
@[simp] theorem Block.calLoad_tm (ty : Nat) (bs : List Byte) : (s.calLoad ty bs).tm = s.tm := by
  simp only [Block.calLoad]
  split <;> simp
@[simp] theorem Block.calStore_tm (r : CalRun) (pi : List (Nat × Nat)) : (s.calStore r pi).tm = s.tm := by simp [Block.calStore]
@[simp] theorem Block.calStored_tm (ok : Bool) : (s.calStored ok).tm = s.tm := by
  grind [Block.calStored, Block.calFinish_tm, Block.postI_tm]
@[simp] theorem Block.pointsFb_tm : (s.pointsFb).tm = s.tm := by grind [Block.pointsFb]
@[simp] theorem Block.trimCtrl_tm (v : Word) : (s.trimCtrl v).tm = s.tm := by simp [Block.trimCtrl]

/-! Machine/Boot.lean -/

@[simp] theorem Block.cause_tm (i : Nat) : (s.cause i).tm = s.tm := by simp [Block.cause]
@[simp] theorem Block.place_tm (dst prev : DevState) (reason : Nat) : (s.place dst prev reason).tm = s.tm := by simp only [Block.place]
@[simp] theorem Block.startBoot_tm (reason : Nat) (src : Option Nat) : (s.startBoot reason src).tm = s.tm := by simp [Block.startBoot]
@[simp] theorem Block.resetRelease_tm (src : Nat) : (s.resetRelease src).tm = s.tm := by simp [Block.resetRelease]
@[simp] theorem Block.numRecord_tm (ty n : Nat) (cseq : Option Word) (why : SeedWhy) : (s.numRecord ty n cseq why).tm = s.tm := by
  simp [Block.numRecord]
@[simp] theorem Block.mirrorCheck_tm : (s.mirrorCheck).tm = s.tm := by
  grind [Block.mirrorCheck, Block.setReg_tm, Block.blowAll_tm, Block.numRecord_tm, Block.raise_tm, Block.postI_tm]
@[simp] theorem Block.bootRegs_tm : (s.bootRegs).tm = s.tm := by simp [Block.bootRegs]
@[simp] theorem Block.recordsAtBoot_tm (s : Block) : s.recordsAtBoot.tm = s.tm := by
  unfold Block.recordsAtBoot
  refine (foldl_tm (fun t ty => ?_) _ _).trans (by simp)
  split
  · rfl
  · split <;> simp
@[simp] theorem Block.identityAtBoot_tm (f : BootFacts) : (s.identityAtBoot f).tm = s.tm := by simp [Block.identityAtBoot]
@[simp] theorem Block.reportAtBoot_tm (kind : Nat) : (s.reportAtBoot kind).tm = s.tm := by grind [Block.reportAtBoot, Block.setRegs_tm]
@[simp] theorem Block.laserCut_tm : (s.laserCut).tm = s.tm := by simp [Block.laserCut]
@[simp] theorem Block.relight_tm : (s.relight).tm = s.tm := by simp [Block.relight]
@[simp] theorem Block.hkRestart_tm (s : Block) (reason : Nat) : (s.hkRestart reason).tm = s.tm := by
  unfold Block.hkRestart
  refine (foldl_tm (fun t _ => t.complete_tm ..) _ _).trans ?_
  grind [Block.rsaDrop_tm, Block.seedAbandon_tm, Block.sweepOver_tm, Block.calStop_tm, Block.post_tm, Block.bump_tm, Block.setReg_tm]
@[simp] theorem Block.hkStrobe_tm (v : Word) : (s.hkStrobe v).tm = s.tm := by simp [Block.hkStrobe]
@[simp] theorem Block.hkEnd_tm : (s.hkEnd).tm = s.tm := by grind [Block.hkEnd, Block.autoClose_tm, Block.post_tm]
@[simp] theorem Block.modSlots_tm (kind : Nat) (f : ImageSlots → ImageSlots) : (s.modSlots kind f).tm = s.tm := by
  simp only [Block.modSlots]
  split <;> simp
@[simp] theorem Block.fwStageStart_tm (c : Cmd) (host : Option Bytes) : (s.fwStageStart c host).tm = s.tm := by
  grind [Block.fwStageStart, Block.complete_tm, Block.readBuf_tm, Block.bootRegs_tm, Block.modSlots_tm, Block.setStage_tm, Block.seedAsk_tm]
@[simp] theorem Block.fwStaged_tm (w : SeedWrite) : (s.fwStaged w).tm = s.tm := by
  grind [Block.fwStaged, Block.modSlots_tm, Block.verified_tm, Block.bootRegs_tm, Block.complete_tm, Block.post_tm]
@[simp] theorem Block.fwActivate_tm (cseq : Word) (kind : Nat) (f : Block → Cmd → Block) (hf : ∀ t x0, (f t x0).tm = t.tm) :
    (s.fwActivate cseq kind f).tm = s.tm := by
  grind [Block.fwActivate, Block.complete_tm]
@[simp] theorem Block.svUp_tm : (s.svUp).tm = s.tm := by simp [Block.svUp]
@[simp] theorem Block.selfTestFail_tm (why slot : Nat) : (s.selfTestFail why slot).tm = s.tm := by simp [Block.selfTestFail]
@[simp] theorem Block.rollbackWritten_tm (w : SeedWrite) : (s.rollbackWritten w).tm = s.tm := by
  grind [Block.rollbackWritten, Block.blowAll_tm, Block.setFld_tm, Block.post_tm, Block.setStage_tm, Block.complete_tm]
@[simp] theorem Block.dropPf_tm : (s.dropPf).tm = s.tm := by simp only [Block.dropPf]
@[simp] theorem Block.firebreakLaser_tm (g : Nat) (q : ModelGroup) : (s.firebreakLaser g q).tm = s.tm := by
  grind [Block.firebreakLaser, Block.dropPf_tm, Block.cause_tm, Block.setReg_tm, Block.interrupt_tm, Block.groupsOut_tm, Block.lightOut_tm,
    Block.complete_tm, Block.refreshMembers_tm, Block.goto_tm, Block.reservedAsk_tm, Block.seedAsk_tm, Block.raise_tm, Block.postI_tm]

/-! Machine/Dtu.lean -/

@[simp] theorem Block.invGo_tm (v : Word) : (s.invGo v).tm = s.tm := by simp [Block.invGo]
@[simp] theorem Block.probeWrite_tm (v : Word) : (s.probeWrite v).tm = s.tm := by
  grind [Block.probeWrite, Block.setReg_tm, Block.setRegs_tm]

/-! Machine/Faults.lean -/

@[simp] theorem Block.setInput_tm (i : Nat) (permits : Bool) : (s.setInput i permits).tm = s.tm := by
  simp only [Block.setInput]
  split <;> simp
@[simp] theorem Block.permit_tm (i : Nat) : (s.permit i).tm = s.tm := by simp [Block.permit]
@[simp] theorem Block.released_tm (r : FaultRec) : (s.released r).tm = s.tm := by simp [Block.released]
@[simp] theorem Block.pathRelease_tm : (s.pathRelease).tm = s.tm := by simp [Block.pathRelease]
@[simp] theorem Block.closeCleared_tm (l : List (Nat × FaultRec)) : (s.closeCleared l).tm = s.tm := by simp [Block.closeCleared]
@[simp] theorem Block.faultClear_tm (c : Cmd) (named : List (Nat × FaultRec)) : (s.faultClear c named).tm = s.tm := by
  simp [Block.faultClear]

/-! Machine/Skidder.lean -/

@[simp] theorem Block.modSkd_tm (c : Nat) (f : SkdChan → SkdChan) : (s.modSkd c f).tm = s.tm := by simp only [Block.modSkd]
@[simp] theorem Block.skdServe_tm (m c : Nat) : (s.skdServe m c).tm = s.tm := by simp only [Block.skdServe]
@[simp] theorem Block.skdRelease_tm (c : Nat) : (s.skdRelease c).tm = s.tm := by simp only [Block.skdRelease]
@[simp] theorem Block.skdFault_tm (c kind detail : Nat) (dst fetch : Bool) (addr : Nat) :
    (s.skdFault c kind detail dst fetch addr).tm = s.tm := by
  simp [Block.skdFault]
@[simp] theorem Block.beatSrc_tm (c : Nat) (d : SkdDesc) (off hoff : Nat) (host : Bytes) : (s.beatSrc c d off hoff host).1.tm = s.tm := by
  grind [Block.beatSrc, Block.access_tm, Block.uncorrectable_tm]
@[simp] theorem Block.blockPoison_tm (pa : Nat) (bad : Bool) : (s.blockPoison pa bad).tm = s.tm := by simp only [Block.blockPoison]
@[simp] theorem Block.beatDst_tm (c : Nat) (d : SkdDesc) (off : Nat) (bs : List Byte) (bad : Bool) :
    (s.beatDst c d off bs bad).1.tm = s.tm := by
  grind [Block.beatDst, Block.access_tm, Block.piTouch_tm, Block.blockPoison_tm, Block.setMem_tm, Block.emit_tm]
@[simp] theorem Block.beats_tm (s : Block) (c : Nat) (d : SkdDesc) (host : Bytes) (from0 n : Nat) :
    (s.beats c d host from0 n).1.tm = s.tm := by
  induction n generalizing s with
  | zero => rfl
  | succ n ih => grind [Block.beats, Block.beatSrc_tm, Block.beatDst_tm, Block.skdFault_tm, Block.modSkd_tm]
@[simp] theorem Block.moveTo_tm (c upto : Nat) (host : Bytes) : (s.moveTo c upto host).1.tm = s.tm := by
  grind [Block.moveTo, Block.beats_tm]
@[simp] theorem Block.writeBack_tm (c : Nat) (area : List Byte) : (s.writeBack c area).1.tm = s.tm := by
  grind [Block.writeBack, Block.writeVirt_tm, Block.emit_tm]
@[simp] theorem Block.postSeal_tm (surf result : Nat) (dseq : Word) : (s.postSeal surf result dseq).tm = s.tm := by simp [Block.postSeal]
@[simp] theorem Block.hostSeal_tm (i : Nat) (dseq : Word) : (s.hostSeal i dseq).tm = s.tm := by simp [Block.hostSeal]
@[simp] theorem Block.sealSweep_tm (hint : Bool) : (s.sealSweep hint).tm = s.tm := by
  rw [Block.sealSweep]
  refine foldl_tm (fun t x => ?_) _ _
  grind [Block.hostSeal_tm]
@[simp] theorem Block.sealStep_tm (c : Nat) (d : SkdDesc) (status : Nat) : (s.sealStep c d status).tm = s.tm := by
  grind [Block.sealStep, Block.postSeal_tm, Block.modSurf_tm]
@[simp] theorem Block.skdStep_tm (c : Nat) (dseq : Word) : (s.skdStep c dseq).tm = s.tm := by simp [Block.skdStep]
@[simp] theorem Block.skdEnd_tm (c : Nat) (d : SkdDesc) (status : Nat) (hint : Bool) : (s.skdEnd c d status hint).tm = s.tm := by
  simp [Block.skdEnd]
@[simp] theorem Block.skdRetire_tm (c : Nat) (d : SkdDesc) (status : Nat) (hint : Bool) : (s.skdRetire c d status hint).tm = s.tm := by
  simp [Block.skdRetire]
@[simp] theorem Block.skdFinish_tm (c : Nat) (d : SkdDesc) (status : Nat) (hint : Bool) : (s.skdFinish c d status hint).tm = s.tm := by
  grind [Block.skdFinish, Block.writeBack_tm, Block.skdEnd_tm, Block.skdFault_tm]
@[simp] theorem Block.skdFetch_tm (c : Nat) (host : Bytes) : (s.skdFetch c host).1.tm = s.tm := by grind [Block.skdFetch, Block.readVirt_tm]
@[simp] theorem Block.skdAccept_tm (m c : Nat) (d : SkdDesc) : (s.skdAccept m c d).tm = s.tm := by
  grind [Block.skdAccept, Block.modSkd_tm, Block.skdFault_tm, Block.sealSweep_tm, Block.post_tm, Block.setInt_tm, Block.skdRetire_tm]
@[simp] theorem Block.skdStart_tm (m : Nat) (host : Bytes) : (s.skdStart m host).tm = s.tm := by
  grind [Block.skdStart, Block.skdServe_tm, Block.modSkd_tm, Block.skdFetch_tm, Block.skdFault_tm, Block.skdAccept_tm]
@[simp] theorem Block.hostFault_tm (m upto kind detail : Nat) (dst : Bool) (host : Bytes) :
    (s.hostFault m upto kind detail dst host).tm = s.tm := by
  grind [Block.hostFault, Block.skdFault_tm, Block.skdServe_tm, Block.moveTo_tm]
@[simp] theorem Block.opDone_tm (c op : Nat) (ignored : Bool) : (s.opDone c op ignored).tm = s.tm := by simp [Block.opDone]
@[simp] theorem Block.skdResume_tm (c : Nat) : (s.skdResume c).tm = s.tm := by simp [Block.skdResume]
@[simp] theorem Block.skdSkip_tm (c : Nat) : (s.skdSkip c).tm = s.tm := by
  grind [Block.skdSkip, Block.skdRetire_tm, Block.sealSweep_tm, Block.skdStep_tm, Block.opDone_tm]
@[simp] theorem Block.skdProgress_tm (c : Nat) : (s.skdProgress c).tm = s.tm := by
  grind [Block.skdProgress, Block.takeBelow_tm, Block.takeBytes_tm, Block.moveTo_tm]
@[simp] theorem Block.skdDrop_tm (s : Block) (c n : Nat) (host : Bytes) : (s.skdDrop c n host).tm = s.tm := by
  induction n generalizing s host with
  | zero => rfl
  | succ n ih => grind [Block.skdDrop, Block.readVirt_tm, Block.skdRetire_tm, Block.skdStep_tm, Block.sealSweep_tm]
@[simp] theorem Block.skdAbort_tm (c : Nat) (host : Bytes) : (s.skdAbort c host).tm = s.tm := by
  grind [Block.skdAbort, Block.skdProgress_tm, Block.skdRelease_tm, Block.skdRetire_tm, Block.skdDrop_tm, Block.setFld_tm, Block.modSkd_tm]
@[simp] theorem Block.skdOpAbort_tm (c : Nat) (host : Bytes) : (s.skdOpAbort c host).tm = s.tm := by simp [Block.skdOpAbort]
@[simp] theorem Block.skdResync_tm (c : Nat) : (s.skdResync c).tm = s.tm := by simp [Block.skdResync]
@[simp] theorem Block.skdOpWrite_tm (v : Word) : (s.skdOpWrite v).tm = s.tm := by
  grind [Block.skdOpWrite, Block.skdResume_tm, Block.skdSkip_tm, Block.skdOpAbort_tm, Block.skdResync_tm, Block.opDone_tm]
@[simp] theorem Block.skdCtrlWrite_tm (c : Nat) (host : Bytes) (v : Word) : (s.skdCtrlWrite c host v).tm = s.tm := by
  grind [Block.skdCtrlWrite, Block.errCause_tm, Block.setReg_tm, Block.modSkd_tm, Block.skdAbort_tm, Block.setFld_tm]
@[simp] theorem Block.skdTailWrite_tm (c : Nat) (v : Word) : (s.skdTailWrite c v).tm = s.tm := by simp [Block.skdTailWrite]
@[simp] theorem Block.skdCapture_tm (v : Word) : (s.skdCapture v).tm = s.tm := by simp [Block.skdCapture]

/-! Machine/Windows.lean -/

@[simp] theorem Block.winStep_tm (a : Nat) : (s.winStep a).tm = s.tm := by grind [Block.winStep, Block.setReg_tm]
@[simp] theorem Block.winWrite_tm (a : Nat) (v : Word) : (s.winWrite a v).tm = s.tm := by
  simp only [Block.winWrite]
  split <;> simp
@[simp] theorem Block.recCapture_tm (i : Nat) : (s.recCapture i).tm = s.tm := by simp [Block.recCapture]
@[simp] theorem Block.chkLogCapture_tm (p i : Nat) : (s.chkLogCapture p i).tm = s.tm := by simp [Block.chkLogCapture]
@[simp] theorem Block.zoneCapture_tm (z : Nat) : (s.zoneCapture z).tm = s.tm := by simp [Block.zoneCapture]
@[simp] theorem Block.groupCapture_tm (g : Nat) : (s.groupCapture g).tm = s.tm := by simp [Block.groupCapture]
@[simp] theorem Block.probeRoute_tm (v : Word) : (s.probeRoute v).tm = s.tm := by simp [Block.probeRoute]
@[simp] theorem Block.hlCapture_tm (q : Nat) : (s.hlCapture q).tm = s.tm := by simp [Block.hlCapture]
@[simp] theorem Block.shEffect_tm (a : Nat) (v : Word) : (s.shEffect a v).tm = s.tm := by simp [Block.shEffect]

/-! Machine/Cue.lean -/

@[simp] theorem Block.cueGo_tm (i : Nat) (c : CueCtx) (st : Nat) : (s.cueGo i c st).tm = s.tm := by simp [Block.cueGo]
@[simp] theorem Block.cueState_tm (i st : Nat) : (s.cueState i st).tm = s.tm := by simp [Block.cueState]
@[simp] theorem Block.ctxWrite_tm (s : Block) (i w : Nat) (v : Word) : (s.ctxWrite i w v).tm = s.tm := by
  fun_cases Block.ctxWrite s i w v <;> simp +zetaDelta
@[simp] theorem Block.cancelAll_tm : (s.cancelAll).tm = s.tm := by simp [Block.cancelAll]
@[simp] theorem Block.cueOp_tm (v : Word) : (s.cueOp v).tm = s.tm := by grind [Block.cueOp, Block.cueState_tm, Block.cancelAll_tm]
@[simp] theorem Block.actUe_tm (r pa : Nat) : (s.actUe r pa).tm = s.tm := by simp [Block.actUe]
@[simp] theorem Block.cueFetch_tm (s : Block) (bad : List Nat) : (s.cueFetch bad).tm = s.tm := by
  unfold Block.cueFetch
  exact foldl_fst_tm (fun a x => a.1.actUe_tm ..) _ _
@[simp] theorem Block.cueFired_tm (i res : Nat) (fsn : Word) : (s.cueFired i res fsn).tm = s.tm := by simp [Block.cueFired]
@[simp] theorem Block.sceneRun_tm (x : CueScene) : (s.sceneRun x).tm = s.tm := by simp [Block.sceneRun]
@[simp] theorem Block.scenesFb_tm : (s.scenesFb).tm = s.tm := by simp [Block.scenesFb]
@[simp] theorem Block.fabCue_tm (d : List Byte) : (s.fabCue d).1.tm = s.tm := by grind [Block.fabCue, Block.bump_tm, Block.cueGo_tm]
@[simp] theorem Block.cueFrame_tm (src : Nat) (d : List Byte) : (s.cueFrame src d).tm = s.tm := by simp [Block.cueFrame]
@[simp] theorem Block.cueSend_tm (mc : Bool) (dst proto : Nat) (pay : List Byte) (out : List Nat) (here : Bool) :
    (s.cueSend mc dst proto pay out here).tm = s.tm := by
  simp [Block.cueSend]
@[simp] theorem Block.cueMsg_tm (b : List Byte) : (s.cueMsg b).1.tm = s.tm := by
  grind [Block.cueMsg, Block.cueSend_tm, Block.postTally_tm, Block.bump_tm]
@[simp] theorem Block.cueOut_tm (s : Block) (b : List Byte) : (s.cueOut b).tm = s.tm := by
  unfold Block.cueOut
  extract_lets
  split
  · rfl
  · exact foldl_tm (fun t _ => t.emit_tm _) _ _
@[simp] theorem Block.fineAct_tm (i ty : Nat) (b : List Byte) : (s.fineAct i ty b).1.tm = s.tm := by
  simp only [Block.fineAct]
  split <;> simp
@[simp] theorem Block.fineFire_tm (s : Block) (i : Nat) (c : CueCtx) (ref tick : Nat) (bad : Bool) :
    (s.fineFire i c ref tick bad).tm = s.tm := by
  fun_cases Block.fineFire s i c ref tick bad <;>
    grind [Block.cueMiss_tm, Block.actUe_tm, Block.fineAct_tm, Block.cueFired_tm, Block.postTally_tm, Block.cueDone_tm]

/-! Machine/View.lean -/

@[simp] theorem Block.readEffect_tm (s : Block) (a : Nat) : (s.readEffect a).tm = s.tm := by
  fun_cases Block.readEffect s a <;> simp +zetaDelta

/-! Machine/HostAccess.lean -/

@[simp] theorem Block.blockFollows_tm (s : Block) (p : Nat) (old : Nat → Word) (oldSp : Nat) : (s.blockFollows p old oldSp).tm = s.tm := by
  fun_cases Block.blockFollows s p old oldSp <;> simp +zetaDelta
@[simp] theorem Block.enableWrite_tm (p : Nat) (en : Bool) : (s.enableWrite p en).tm = s.tm := by simp [Block.enableWrite]
@[simp] theorem Block.freezeWrite_tm (p : Nat) (on : Bool) : (s.freezeWrite p on).tm = s.tm := by simp [Block.freezeWrite]
@[simp] theorem Block.sourceReset_tm (n : Nat) : (s.sourceReset n).tm = s.tm := by
  grind [Block.sourceReset, Block.modSurf_tm, Block.modSrc_tm]
@[simp] theorem Block.seedDrop_tm : (s.seedDrop).tm = s.tm := by simp [Block.seedDrop]
@[simp] theorem Block.stateSetDrop_tm : (s.stateSetDrop).tm = s.tm := by grind [Block.stateSetDrop, Block.complete_tm, Block.standDown_tm]
@[simp] theorem Block.stageDrop_tm : (s.stageDrop).tm = s.tm := by grind [Block.stageDrop, Block.seedAbandon_tm, Block.complete_tm]
@[simp] theorem Block.activateDrop_tm (s : Block) : s.activateDrop.tm = s.tm := by
  have hend : ∀ (t : Block) (l : List Word), (l.foldl (fun s c => s.complete c 5) t).tm = t.tm :=
    fun t l => foldl_tm (fun u c => u.complete_tm c 5 _) l t
  grind [Block.activateDrop, Block.seedAbandon_tm, Block.modSlots_tm, Block.bootRegs_tm]
@[simp] theorem Block.cueDrop_tm : (s.cueDrop).tm = s.tm := by simp [Block.cueDrop]
@[simp] theorem Block.sweepDrop_tm : (s.sweepDrop).tm = s.tm := by
  grind [Block.sweepDrop, Block.calStop_tm, Block.sweepOver_tm, Block.complete_tm]
@[simp] theorem Block.trustDrop_tm : (s.trustDrop).tm = s.tm := by simp [Block.trustDrop]
@[simp] theorem Block.abandonOps_tm (s : Block) (p : Nat) : (s.abandonOps p).tm = s.tm := by
  fun_cases Block.abandonOps s p <;> simp +zetaDelta
@[simp] theorem Block.softResetEnd_tm (p : Nat) : (s.softResetEnd p).tm = s.tm := by simp [Block.softResetEnd]
@[simp] theorem Block.intClear_tm (p : Nat) (v : Word) : (s.intClear p v).tm = s.tm := by simp [Block.intClear]
@[simp] theorem Block.lockWrite_tm (p : Nat) (v : Word) : (s.lockWrite p v).tm = s.tm := by simp [Block.lockWrite]
@[simp] theorem Block.holdCmdWrite_tm (v : Word) : (s.holdCmdWrite v).tm = s.tm := by simp [Block.holdCmdWrite]
@[simp] theorem Block.clearBits_tm (a : Nat) (m v : Word) : (s.clearBits a m v).tm = s.tm := by simp [Block.clearBits]
theorem Block.chkWrite_tm {s t : Block} {a : Nat} {v : Word} (h : s.chkWrite a v = some t) : t.tm = s.tm := by
  grind [Block.chkWrite, Block.chkCfg_tm, Block.chkPsel_tm, Block.chkPhi_tm]
@[simp] theorem Block.barRead_tm (a : Nat) : (s.barRead a).2.tm = s.tm := by simp [Block.barRead]
@[simp] theorem Block.windowMem_tm (off : Nat) (bs : List Byte) : (s.windowMem off bs).tm = s.tm := by simp [Block.windowMem]
@[simp] theorem Block.windowCue_tm (off : Nat) (bs : List Byte) : (s.windowCue off bs).tm = s.tm := by simp [Block.windowCue]
@[simp] theorem Block.barWrite2_tm (off : Nat) (bs : List Byte) : (s.barWrite2 off bs).tm = s.tm := by simp [Block.barWrite2]
@[simp] theorem Block.windowAsk_tm (off n : Nat) : (s.windowAsk off n).tm = s.tm := by simp [Block.windowAsk]

/-! Machine/Boundary.lean -/

@[simp] theorem Block.availability_tm (s : Block) : s.availability.tm = s.tm := by
  have hlost : ∀ (t : Block) (l : List Nat), (l.foldl (fun s g => s.postTally 0x208 g) t).tm = t.tm :=
    fun t l => foldl_tm (fun u g => u.postTally_tm ..) l t
  grind [Block.availability, Block.bump_tm]
@[simp] theorem Block.conserve_tm : (s.conserve).tm = s.tm := by simp [Block.conserve]
@[simp] theorem Block.wheelFb_tm : (s.wheelFb).tm = s.tm := by simp [Block.wheelFb]
@[simp] theorem Block.softReturn_tm (g : Nat) : (s.softReturn g).tm = s.tm := by simp [Block.softReturn]
@[simp] theorem Block.softReturns_tm (groups : Nat) : (s.softReturns groups).tm = s.tm := by simp [Block.softReturns]
@[simp] theorem Block.portsFb_tm (s : Block) : s.portsFb.tm = s.tm := by
  unfold Block.portsFb
  extract_lets k t
  have hticks : t.tm = s.tm := foldl_tm (fun u p => u.modPort_tm ..) _ _
  have hports := @foldl_fst_tm _ _ (fun (a : Block × Bool) p => let r := a.1.portFb p k; (r.1, a.2 || r.2))
    (fun a p => a.1.portFb_tm p k) (List.range 4) (t, t.tm.dark != [])
  split
  simp_all
@[simp] theorem Block.frostEnter_tm (r : Nat) : (s.frostEnter r).tm = s.tm := by simp [Block.frostEnter]
@[simp] theorem Block.stallFrost_tm : (s.stallFrost).tm = s.tm := by simp [Block.stallFrost]
@[simp] theorem Block.frostFb_tm (s : Block) : s.frostFb.tm = s.tm := by
  fun_cases Block.frostFb s <;>
    grind [Block.frostEnter_tm, Block.enterFrost_tm, Block.setFld_tm, Block.bumpSat_tm, Block.post_tm]
@[simp] theorem Block.thawFb_tm : (s.thawFb).tm = s.tm := by simp [Block.thawFb]
@[simp] theorem Block.pipePb_tm (s : Block) : s.pipePb.tm = s.tm := by
  grind [Block.pipePb, Block.holdPb_tm, Block.clockPb_tm, Block.overrun_tm, Block.takeSurface_tm, Block.pipeBegin_tm, Block.stallPb_tm]
@[simp] theorem Block.extinguishFb_tm : (s.extinguishFb).tm = s.tm := by simp [Block.extinguishFb]
@[simp] theorem Block.hlStringsFb_tm : (s.hlStringsFb).tm = s.tm := by simp [Block.hlStringsFb]
@[simp] theorem Block.lightFb_tm : (s.lightFb).tm = s.tm := by simp [Block.lightFb]
@[simp] theorem Block.scanFb_tm : (s.scanFb).tm = s.tm := by simp [Block.scanFb]
@[simp] theorem Block.pulsesFb_tm : (s.pulsesFb).tm = s.tm := by simp [Block.pulsesFb]
@[simp] theorem Block.snapWrite_tm (cseq : Word) (d : List Byte) (xok : Bool) : (s.snapWrite cseq d xok).tm = s.tm := by
  grind [Block.snapWrite, Block.setStage_tm, Block.complete_tm, Block.writeBuf_tm]

/-! Machine/HostLink.lean -/

@[simp] theorem Block.linkDown_tm : (s.linkDown).tm = s.tm := by
  rw [Block.linkDown]
  refine foldl_tm (fun t x => ?_) _ _
  grind [Block.hostFault_tm]
@[simp] theorem Block.linkLoss_tm : (s.linkLoss).tm = s.tm := by
  rw [Block.linkLoss]
  refine foldl_tm (fun t x => ?_) _ _
  grind [Block.skdProgress_tm]
@[simp] theorem Block.dpPath_tm (a : Nat) (up : Bool) : (s.dpPath a up).tm = s.tm := by simp [Block.dpPath]
@[simp] theorem Block.linkChange_tm (l : LinkState) : (s.linkChange l).tm = s.tm := by simp [Block.linkChange]
@[simp] theorem Block.configure_tm (c : PcieCfg) : (s.configure c).tm = s.tm := by
  rw [Block.configure]
  refine foldl_tm (fun t x => ?_) _ _
  grind [Block.emit_tm]
@[simp] theorem Block.flr_tm : (s.flr).tm = s.tm := by simp [Block.flr]
@[simp] theorem Block.usbRead_tm (s : Block) (off n : Nat) : (s.usbRead off n).2.tm = s.tm := by
  induction n generalizing s off with
  | zero => rfl
  | succ n ih => exact (ih ..).trans (s.barRead_tm off)
end

end Sys2Proof.Machine

namespace Sys2Proof.Machine

/-!
SUPPORT. How an operation that lets time pass, or changes a source, the lock or the series, moves the time state: FT forwards, the FSN
and whether TIME runs not at all. The premise about the state before lets the lemmas chain.
-/

/-- How the time state may move within a command other than a frame boundary or a reset: FT does not run backwards and
stands still while TIME does not run; the FSN and whether TIME runs are left as they were. -/
structure TimeState.Flows (a b : TimeState) : Prop where
  ft_le : a.ft ≤ b.ft
  fsn_eq : b.fsn = a.fsn
  run_eq : b.run = a.run
  held : a.run = false → b.ft = a.ft

@[simp] theorem TimeState.Flows.refl (a : TimeState) : a.Flows a := ⟨Nat.le_refl _, rfl, rfl, fun _ => rfl⟩

theorem TimeState.Flows.trans {a b c : TimeState} (h : a.Flows b) (h' : b.Flows c) : a.Flows c where
  ft_le := h.ft_le.trans h'.ft_le
  fsn_eq := h'.fsn_eq.trans h.fsn_eq
  run_eq := h'.run_eq.trans h.run_eq
  held hr := (h'.held (h.run_eq.trans hr)).trans (h.held hr)

/-- An update of the other fields of the time state is no movement of time. -/
theorem TimeState.Flows.update {τ b : TimeState} (h : τ.Flows b) {frac curK nextK num den epoch lastFb fbNow cutoffDone src lock
    fsyncQual fabricQual fsyncLast fabricLast fsyncSince fabricSince fsyncGood fabricHad fsyncHad offsets slew stepDue ftSetHi dark
    resetMajor tcValid tcCount tcFt tcAt} :
    τ.Flows ⟨b.run, b.ft, frac, b.fsn, curK, nextK, num, den, epoch, lastFb, fbNow, cutoffDone, src, lock, fsyncQual, fabricQual,
      fsyncLast, fabricLast, fsyncSince, fabricSince, fsyncGood, fabricHad, fsyncHad, offsets, slew, stepDue, ftSetHi, dark, resetMajor,
      tcValid, tcCount, tcFt, tcAt⟩ :=
  h.trans ⟨Nat.le_refl _, rfl, rfl, fun _ => rfl⟩

theorem TimeState.Flows.ite {τ : TimeState} {c : Prop} [Decidable c] {s t : Block} (hs : τ.Flows s.tm) (ht : τ.Flows t.tm) :
    τ.Flows (if c then s else t).tm := by
  split
  · exact hs
  · exact ht

theorem TimeState.Flows.ite_pair {τ : TimeState} {α : Type} {c : Prop} [Decidable c] {s t : Block} {x y : α} (hs : τ.Flows s.tm)
    (ht : τ.Flows t.tm) : τ.Flows (if c then (s, x) else (t, y)).1.tm := by
  split
  · exact hs
  · exact ht

theorem TimeState.Flows.ite_fst {τ : TimeState} {α : Type} {c : Prop} [Decidable c] {x y : Block × α} (hx : τ.Flows x.1.tm)
    (hy : τ.Flows y.1.tm) :
    τ.Flows (if c then x else y).1.tm := by
  split
  · exact hx
  · exact hy

theorem TimeState.Flows.foldl {α : Type} {τ : TimeState} {f : Block → α → Block}
    (hf : ∀ (t : Block) (x : α), t.tm.Flows (f t x).tm) (l : List α) {s : Block} (h : τ.Flows s.tm) : τ.Flows (l.foldl f s).tm := by
  induction l generalizing s with
  | nil => exact h
  | cons x l ih => exact ih (h.trans (hf s x))

theorem TimeState.Flows.foldl_fst {α β : Type} {τ : TimeState} {f : Block × β → α → Block × β}
    (hf : ∀ (r : Block × β) (x : α), r.1.tm.Flows (f r x).1.tm) (l : List α) {r : Block × β} (h : τ.Flows r.1.tm) :
    τ.Flows (l.foldl f r).1.tm := by
  induction l generalizing r with
  | nil => exact h
  | cons x l ih => exact ih (h.trans (hf r x))

theorem ft_le_stepped (ft frac off : Nat) : ft ≤ (ft * 2 ^ 32 + frac + off * 2 ^ 24) / 2 ^ 32 := by
  rw [Nat.le_div_iff_mul_le (Nat.two_pow_pos 32)]
  omega

section
variable {τ : TimeState} {s : Block}

/-! Where a lemma first obtains the block after time has passed as a variable, it is so that checking an update of that block does not
evaluate it. -/

theorem Block.ft_le_ftAfter (s : Block) (ns : Nat) : s.tm.ft ≤ (s.ftAfter ns).1 := by
  simp only [Block.ftAfter]; exact Nat.le_add_right ..

@[simp] theorem Block.advance_flows (h : τ.Flows s.tm) (ns : Nat) : τ.Flows (s.advance ns).tm := by
  refine h.trans ?_
  rw [Block.advance]
  split
  · exact .refl _
  · dsimp only
    rw [Block.secPulse_tm, Block.countCycles_tm]
    cases hr : s.tm.run with
    | true => exact ⟨s.ft_le_ftAfter ns, rfl, hr ▸ rfl, by simp [hr]⟩
    | false => exact ⟨Nat.le_refl _, rfl, hr ▸ rfl, by simp⟩

@[simp] theorem Block.advanceTo_flows (h : τ.Flows s.tm) (ft : Nat) : τ.Flows (s.advanceTo ft).tm := by
  refine h.trans ?_
  rw [Block.advanceTo]
  split
  next hlt =>
    obtain ⟨hrun, hft⟩ := hlt
    have hadv := Block.advance_flows (.refl s.tm) (s.localFor (ft - s.tm.ft))
    exact ⟨hft.le, hadv.fsn_eq, hadv.run_eq, by simp [hrun]⟩
  next => exact .refl _

@[simp] theorem Block.toLocal_flows (h : τ.Flows s.tm) (t : Nat) : τ.Flows (s.toLocal t).tm :=
  Block.advance_flows h _

@[simp] theorem Block.toSlot_flows (h : τ.Flows s.tm) (off : Int) : τ.Flows (s.toSlot off).tm :=
  Block.toLocal_flows h _

theorem Block.rwTake_flows (h : τ.Flows s.tm) (a : Nat) (v : Word) {f : Block → Word → Block}
    (hf : ∀ w, τ.Flows (f s w).tm) : τ.Flows (s.rwTake a v f).tm := by
  rw [Block.rwTake]
  split
  · exact h
  · simp only [Block.tm_ite, Block.errCause_tm]
    split
    · exact h
    · split
      · exact hf _
      · exact h

@[simp] theorem Block.arrive_flows (h : τ.Flows s.tm) : τ.Flows s.arrive.tm := by fun_cases Block.arrive s <;> simp +zetaDelta [h]

@[simp] theorem Block.rowDrawn_flows (h : τ.Flows s.tm) : τ.Flows s.rowDrawn.tm := by fun_cases Block.rowDrawn s <;> simp +zetaDelta [h]

@[simp] theorem Block.bucketBoundary_flows (h : τ.Flows s.tm) : τ.Flows s.bucketBoundary.tm := by simp [Block.bucketBoundary, h]

@[simp] theorem Block.loopSample_flows (h : τ.Flows s.tm) (slot y v : Nat) : τ.Flows (s.loopSample slot y v).tm := by
  fun_cases Block.loopSample s slot y v <;> simp +zetaDelta [h]

@[simp] theorem Block.tableLoad_flows (h : τ.Flows s.tm) (c : Nat) : τ.Flows (s.tableLoad c).tm := by
  fun_cases Block.tableLoad s c <;> simp +zetaDelta [h]

@[simp] theorem Block.probeRun_flows (h : τ.Flows s.tm) (g : Nat) (res : List (Nat × Nat)) : τ.Flows (s.probeRun g res).tm := by
  rw [Block.probeRun]
  refine .ite h ?_
  simp only [foldl_tm, Block.strobes_tm, Block.probeEnd_tm, implies_true]
  refine .ite (Block.advanceTo_flows ?_ _) (Block.toSlot_flows ?_ _) <;>
    simp only [foldl_tm, Block.strobes_tm, Block.modMember_tm, implies_true] <;>
    exact .ite (Block.advanceTo_flows h _) (Block.toSlot_flows h _)

@[simp] theorem Block.arrayReset_flows (h : τ.Flows s.tm) (p : Nat) : τ.Flows (s.arrayReset p).tm := by
  rw [Block.arrayReset, Block.maCtrl]
  refine .ite h (.ite ?_ (.ite ?_ h))
  · rw [Block.errCause_tm]
    exact h
  · rw [Block.startPort_tm]
    refine Block.advance_flows ?_ _
    rw [Block.stopPort_tm]
    exact h

@[simp] theorem Block.preload_flows (h : τ.Flows s.tm) : τ.Flows s.preload.tm := by simp [Block.preload, h]

@[simp] theorem Block.toLoad_flows (h : τ.Flows s.tm) (p : Nat) (off : Int) : τ.Flows (s.toLoad p off).tm := by
  fun_cases Block.toLoad s p off <;> simp +zetaDelta [h]

@[simp] theorem Block.loadStart_flows (h : τ.Flows s.tm) (p : Nat) : τ.Flows (s.loadStart p).tm := by
  fun_cases Block.loadStart s p <;> simp +zetaDelta [h]

@[simp] theorem Block.loadEnd_flows (h : τ.Flows s.tm) (p : Nat) : τ.Flows (s.loadEnd p).tm := by
  rw [Block.loadEnd]
  refine .ite h ?_
  rw [Block.staged_tm, foldl_tm]
  · exact Block.toLoad_flows h _ _
  · intro t r
    split
    · exact Block.lineTo_tm ..
    · rfl

@[simp] theorem Block.slotStart_flows (h : τ.Flows s.tm) (g : Nat) (ev : List (Nat × Nat × Nat)) : τ.Flows (s.slotStart g ev).tm := by
  fun_cases Block.slotStart s g ev <;> simp +zetaDelta [h]

@[simp] theorem Block.kerfEnd_flows (h : τ.Flows s.tm) (g : Nat) (rdyLow seenHigh : Bool) : τ.Flows (s.kerfEnd g rdyLow seenHigh).tm := by
  fun_cases Block.kerfEnd s g rdyLow seenHigh <;> simp +zetaDelta [h]

@[simp] theorem Block.lastDwellEnd_flows (h : τ.Flows s.tm) (g : Nat) (ev : List (Nat × Nat × Nat)) : τ.Flows (s.lastDwellEnd g ev).tm := by
  fun_cases Block.lastDwellEnd s g ev <;> simp +zetaDelta [h]

@[simp] theorem Block.darkStart_flows (h : τ.Flows s.tm) : τ.Flows s.darkStart.tm := by fun_cases Block.darkStart s <;> simp +zetaDelta [h]

@[simp] theorem Block.scrubStep_flows (h : τ.Flows s.tm) (result : Nat) : τ.Flows (s.scrubStep result).tm := by
  fun_cases Block.scrubStep s result <;> simp +zetaDelta [h]

@[simp] theorem Block.slackSample_flows (h : τ.Flows s.tm) (q v : Nat) (arr : List (Bool × Bool × Nat)) :
    τ.Flows (s.slackSample q v arr).tm := by
  simp [Block.slackSample, h]

@[simp] theorem Block.freqWait_flows (h : τ.Flows s.tm) (q : Nat) : τ.Flows (s.freqWait q).tm := by
  rw [Block.freqWait]
  cases s.dc.change with
  | none => exact h
  | some c =>
    obtain ⟨t, hdef, ht⟩ : ∃ t, t = s.advance (c.since + 10000000 - s.now) ∧ τ.Flows t.tm := ⟨_, rfl, Block.advance_flows h _⟩
    obtain ⟨u, hdef', hu⟩ : ∃ u, u = s.advance (c.since + 100000000 - s.now) ∧ τ.Flows u.tm := ⟨_, rfl, Block.advance_flows h _⟩
    dsimp only
    rw [← hdef, ← hdef']
    refine .ite h (.ite ?_ ?_)
    · rw [Block.postI_tm]
      exact ht.update
    · rw [Block.raise_tm]
      exact hu.update

@[simp] theorem Block.seedStep_flows (h : τ.Flows s.tm) (n : Nat) : τ.Flows (s.seedStep n).tm := by
  fun_cases Block.seedStep s n <;> simp +zetaDelta [h]

@[simp] theorem Block.chkRewrite_flows (h : τ.Flows s.tm) (ty slot : Nat) : τ.Flows (s.chkRewrite ty slot).tm := by
  fun_cases Block.chkRewrite s ty slot <;> simp +zetaDelta [h]

@[simp] theorem Block.seedStart_flows (h : τ.Flows s.tm) : τ.Flows s.seedStart.tm := by fun_cases Block.seedStart s <;> simp +zetaDelta [h]

@[simp] theorem Block.seedCommit_flows (h : τ.Flows s.tm) : τ.Flows s.seedCommit.1.tm := by
  fun_cases Block.seedCommit s <;> simp +zetaDelta [h]

@[simp] theorem Block.chkAsk_flows (h : τ.Flows s.tm) (ty slot : Nat) : τ.Flows (s.chkAsk ty slot).tm := by
  fun_cases Block.chkAsk s ty slot <;> simp +zetaDelta [h]

@[simp] theorem Block.seedCheck_flows (h : τ.Flows s.tm) (ty slot : Nat) : τ.Flows (s.seedCheck ty slot).tm := by
  fun_cases Block.seedCheck s ty slot <;> simp +zetaDelta [h]

@[simp] theorem Block.copyStep_flows (h : τ.Flows s.tm) (n : Nat) : τ.Flows (s.copyStep n).tm := by
  fun_cases Block.copyStep s n <;> simp +zetaDelta [h]

@[simp] theorem Block.stepFt_flows (h : τ.Flows s.tm) (hr : s.tm.run = true) (off : Nat) :
    τ.Flows (s.stepFt off).tm := by
  obtain ⟨ft, hdef, hft⟩ : ∃ ft, ft = (s.tm.ft * 2 ^ 32 + s.tm.frac + off * 2 ^ 24) / 2 ^ 32 ∧ s.tm.ft ≤ ft :=
    ⟨_, rfl, ft_le_stepped ..⟩
  rw [Block.stepFt, Block.postStep_tm, ← hdef]
  exact h.trans ⟨hft, rfl, rfl, by simp [hr]⟩

@[simp] theorem Block.correct_flows (h : τ.Flows s.tm) (hr : s.tm.run = true) (off : Int) : τ.Flows (s.correct off).tm := by
  have hstay := TimeState.Flows.refl s.tm
  unfold Block.correct
  extract_lets _ slewed
  refine .ite ?_ (.ite (Block.stepFt_flows ?_ ?_ _) (.ite ?_ ?_))
  · exact h.update
  · exact h.update
  · exact hstay.update.run_eq.trans hr
  · exact h.update
  · exact h.update

@[simp] theorem Block.goSrc_flows (h : τ.Flows s.tm) (c : TimeSrc) : τ.Flows (s.goSrc c).tm := by
  rw [Block.goSrc]
  refine .ite (.ite h h.update) ?_
  rw [Block.post_tm]
  exact h.update

@[simp] theorem Block.srcUp_flows (h : τ.Flows s.tm) (c : TimeSrc) : τ.Flows (s.srcUp c).tm := by
  fun_cases Block.srcUp s c <;> simp +zetaDelta [h]

@[simp] theorem Block.stamp_flows (h : τ.Flows s.tm) (hr : s.tm.run = true) (c : TimeSrc) (off : Int) : τ.Flows (s.stamp c off).tm := by
  rw [Block.stamp]
  refine .ite h (Block.correct_flows ?_ ?_ off)
  all_goals rw [Block.setReg_tm, Block.putOffset_tm]
  · exact h.update
  · exact (TimeState.Flows.refl s.tm).update.run_eq.trans hr

theorem Block.requalify_flows {τ : TimeState} {s u : Block} (h : τ.Flows s.tm) (c : TimeSrc) (he : s.requalify c = some u) :
    τ.Flows u.tm := by
  grind [Block.requalify, Block.advance_flows, Block.goSrc_flows]

@[simp] theorem Block.goodEdge_flows (h : τ.Flows s.tm) : τ.Flows s.goodEdge.tm := by
  unfold Block.goodEdge
  extract_lets run q was _ t
  have ht : τ.Flows t.tm := h.update
  exact .ite (Block.srcUp_flows ht _) ht

@[simp] theorem Block.fsyncEdge_flows (h : τ.Flows s.tm) (hr : s.tm.run = true) : τ.Flows s.fsyncEdge.tm := by
  obtain ⟨t, hdef, hedge⟩ : ∃ t, t = s.goodEdge ∧ s.tm.Flows t.tm := ⟨_, rfl, Block.goodEdge_flows (.refl _)⟩
  rw [Block.fsyncEdge, ← hdef]
  refine .ite (.ite h ?_) (.ite (Block.stamp_flows ?_ ?_ _ _) (h.trans hedge))
  · exact h.update
  · exact (h.trans hedge).update
  · exact hedge.update.run_eq.trans hr

@[simp] theorem Block.fabricStamp_flows (h : τ.Flows s.tm) (hr : s.tm.run = true) (off : Int) : τ.Flows (s.fabricStamp off).tm := by
  unfold Block.fabricStamp
  extract_lets kept _ t u
  have ht : s.tm.Flows t.tm := (TimeState.Flows.refl s.tm).update
  have hu : s.tm.Flows u.tm := TimeState.Flows.ite ht (Block.srcUp_flows ht _)
  exact Block.stamp_flows (h.trans hu) (hu.run_eq.trans hr) _ _

@[simp] theorem Block.ftSet_flows (h : τ.Flows s.tm) (v : Word) : τ.Flows (s.ftSet v).tm := by
  grind [Block.ftSet, Block.correct_flows, Block.errCause_tm, Block.putOffset_tm]

@[simp] theorem Block.fsyncDrop_flows (h : τ.Flows s.tm) : τ.Flows s.fsyncDrop.tm :=
  h.update

@[simp] theorem Block.timeCtrl_flows (h : τ.Flows s.tm) (v : Word) : τ.Flows (s.timeCtrl v).tm := by
  grind [Block.timeCtrl, Block.fsyncDrop_flows, Block.goSrc_flows, Block.errCause_tm, Block.setReg_tm]

@[simp] theorem Block.tcAnchor_flows (h : τ.Flows s.tm) (v : Word) (ft : Nat) : τ.Flows (s.tcAnchor v ft).tm := by
  rw [Block.tcAnchor]
  refine .ite ?_ h.update
  rw [Block.post_tm]
  exact h.update

@[simp] theorem Block.tcFabric_flows (h : τ.Flows s.tm) (d : List Byte) : τ.Flows (s.tcFabric d).tm := by
  fun_cases Block.tcFabric s d <;> simp +zetaDelta [h]

@[simp] theorem Block.modulePolled_flows (h : τ.Flows s.tm) (p temp : Nat) (alarm : Bool) : τ.Flows (s.modulePolled p temp alarm).tm := by
  simp [Block.modulePolled, h]

@[simp] theorem Block.deliver_flows (h : τ.Flows s.tm) (b : List Byte) : τ.Flows (s.deliver b).tm := by
  grind [Block.deliver, Block.tcFabric_flows, Block.flowIn_tm]

@[simp] theorem Block.dispatch_flows (h : τ.Flows s.tm) (p c cells : Nat) (b : List Byte) : τ.Flows (s.dispatch p c cells b).tm := by
  grind [Block.dispatch, Block.deliver_flows, Block.freeCells_tm, Block.bootData_tm, Block.postTally_tm, Block.bump_tm, Block.forward_tm]

@[simp] theorem Block.frameIn_flows (h : τ.Flows s.tm) (p : Nat) (data : List Byte) (bad : Bool) : τ.Flows (s.frameIn p data bad).tm := by
  fun_cases Block.frameIn s p data bad <;> simp +zetaDelta [h]

@[simp] theorem Block.timecode_flows (h : τ.Flows s.tm) (c : Cmd) : τ.Flows (s.timecode c).tm := by
  rw [Block.timecode]
  refine .ite ?_ ?_
  · rw [Block.complete_tm]
    exact h
  · rw [Block.complete_tm, Block.tm_ite, foldl_tm fun t p => Block.enqueue_tm .., ite_self]
    exact .ite (Block.tcAnchor_flows h _ _) h

@[simp] theorem Block.syncIn_flows (h : τ.Flows s.tm) (p : Nat) (d : List Byte) (stamp : Nat) : τ.Flows (s.syncIn p d stamp).tm := by
  grind [Block.syncIn, Block.fabricStamp_flows]

@[simp] theorem Block.syncHeard_flows (h : τ.Flows s.tm) (p : Nat) (d : List Byte) (stamp : Nat) : τ.Flows (s.syncHeard p d stamp).tm := by
  fun_cases Block.syncHeard s p d stamp <;> simp +zetaDelta [h]

@[simp] theorem Block.pdelay_flows (h : τ.Flows s.tm) (p kind pseq t1 t2 t3 t4 : Nat) : τ.Flows (s.pdelay p kind pseq t1 t2 t3 t4).tm := by
  fun_cases Block.pdelay s p kind pseq t1 t2 t3 t4 <;> simp +zetaDelta [h]

theorem Block.offsetAt_flows {τ : TimeState} {s u : Block} (h : τ.Flows s.tm) (j r : Nat) (he : s.offsetAt j r = some u) :
    τ.Flows u.tm := by
  grind [Block.offsetAt, Block.advanceTo_flows, Block.toSlot_flows]

@[simp] theorem Block.measureClose_flows (h : τ.Flows s.tm) (g i flat filt satA satB : Nat) :
    τ.Flows (s.measureClose g i flat filt satA satB).tm := by
  grind [Block.measureClose, Block.toSlot_flows, Block.saturated_tm, Block.measureTake_tm]

@[simp] theorem Block.epochEnd_flows (h : τ.Flows s.tm) : τ.Flows s.epochEnd.tm := by simp [Block.epochEnd, h]

@[simp] theorem Block.collect_flows (h : τ.Flows s.tm) : τ.Flows s.collect.tm := by
  rw [Block.collect, Block.sendGroup0_tm]
  refine Block.advanceTo_flows ?_ _
  rw [foldl_tm fun t r => Block.postExcluded_tm .., Block.setEvents_tm]
  exact Block.advanceTo_flows h _

@[simp] theorem Block.decide_flows (h : τ.Flows s.tm) : τ.Flows s.decide_.tm := by fun_cases Block.decide_ s <;> simp +zetaDelta [h]

@[simp] theorem Block.cutoff_flows (h : τ.Flows s.tm) : τ.Flows s.cutoff.tm := by
  have hto : τ.Flows (s.advanceTo s.nextCutoff).retest.tm := by simp [h]
  unfold Block.cutoff
  extract_lets t u _ v
  have hu : u.tm = t.tm := by
    simp only [u]
    split <;> simp
  have hv : τ.Flows v.tm := (hu ▸ hto : τ.Flows u.tm).update
  refine .ite h ?_
  rw [Block.cutoffReads_tm]
  exact hv

@[simp] theorem Block.commitIn_flows (h : τ.Flows s.tm) (pages : Nat) (group : Bool) (cues : List Nat) :
    τ.Flows (s.commitIn pages group cues).tm := by
  grind [Block.commitIn, Block.cutoff_flows, Block.setRegs_tm, Block.commitEvent_tm]

@[simp] theorem Block.newSeries_flows (h : τ.Flows s.tm) : τ.Flows s.newSeries.tm := by
  rw [Block.newSeries]
  exact .ite h h.update

@[simp] theorem Block.stepAtFb_flows (h : τ.Flows s.tm) (hr : s.tm.run = true) : τ.Flows s.stepAtFb.tm := by
  obtain ⟨t, hdef, hstep⟩ : ∃ t, t = s.stepFt s.tm.stepDue ∧ τ.Flows t.tm := ⟨_, rfl, Block.stepFt_flows h hr _⟩
  rw [Block.stepAtFb, ← hdef]
  exact .ite h hstep.update

@[simp] theorem Block.transition_flows (h : τ.Flows s.tm) (hr : s.tm.run = true) (old : Nat → Word) (all : Bool) :
    τ.Flows (s.transition old all).1.tm := by
  obtain ⟨t, hdef, hser⟩ : ∃ t, t = s.newSeries ∧ s.tm.Flows t.tm := ⟨_, rfl, Block.newSeries_flows (.refl _)⟩
  have hdark (u : Block) (l : List Nat) :
      (l.foldl (fun s p => if maEn s.act p && maEn old p then s.darkPort p (maRate old p) (maMode old p) else s) u).tm = u.tm :=
    foldl_tm (fun t p => by rw [Block.tm_ite, Block.darkPort_tm, ite_self]) l u
  rw [Block.transition, ← hdef]
  refine .ite_pair (Block.stepAtFb_flows ?_ ?_) (Block.stepAtFb_flows ?_ ?_)
  · exact (h.trans hser).update
  · exact hser.update.run_eq.trans hr
  all_goals
    rw [Block.tm_ite, Block.beamLow_tm, ite_self, foldl_tm fun t p => Block.darkGroup_tm .., hdark,
      foldl_tm fun t p => Block.modPort_tm ..]
  · exact (h.trans hser).update
  · exact hser.update.run_eq.trans hr

@[simp] theorem Block.commitFb_flows (h : τ.Flows s.tm) (hr : s.tm.run = true) : τ.Flows s.commitFb.tm := by
  unfold Block.commitFb
  extract_lets old oldSp due src list all _ u v w srcMask dueMask x y
  have hv : v.tm = s.tm := foldl_tm (fun t c => Block.applyVals_tm ..) _ _
  have hw : w.tm = v.tm := foldl_tm (fun t c => Block.applyVals_tm ..) _ _
  have hx : x.tm = s.tm := (Block.sourceApplied_tm ..).trans (hw.trans hv)
  have hy : y.tm = s.tm := by
    simp only [y, Block.displayApplied_tm, foldl_tm, Block.tablesTaken_tm, implies_true, Block.tm_ite, ite_self, hx]
  have hpair : τ.Flows (if all || (due.any fun c => c.major) then y.transition old all else (y, 0)).1.tm :=
    TimeState.Flows.ite_fst (Block.transition_flows (hy ▸ h) (hy ▸ hr) _ _) (hy ▸ h)
  generalize (if all || (due.any fun c => c.major) then y.transition old all else (y, 0)) = r at hpair ⊢
  obtain ⟨z, lit⟩ := r
  have hdone : ∀ u, (due.foldl (Block.commitDone lit) u).tm = u.tm := foldl_tm (fun t c => Block.commitDone_tm ..) _
  dsimp only at hpair ⊢
  refine .ite ?_ ?_
  · rw [hdone]
    exact hpair.update
  · rw [Block.makeUsable_tm, hdone]
    exact hpair.update

@[simp] theorem Block.playDecode_flows (h : τ.Flows s.tm) (pix : Pixels) : τ.Flows (s.playDecode pix).tm := by
  fun_cases Block.playDecode s pix <;>
    grind [Block.advanceTo_flows, Block.modHo_tm, Block.bump_tm, Block.modSurf_tm, Block.storeRaster_tm, Block.compress_tm,
      Block.sealSurf_tm, Block.post_tm]

@[simp] theorem Block.calApply_flows (h : τ.Flows s.tm) (r : CalRun) (d : CalData) (pi : List (Nat × Nat)) (sc : List ScanColour) :
    τ.Flows (s.calApply r d pi sc).tm := by
  fun_cases Block.calApply s r d pi sc <;> simp +zetaDelta [h]

@[simp] theorem Block.calibrationResult_flows (h : τ.Flows s.tm) (r : CalRun) (d : CalData) : τ.Flows (s.calibrationResult r d).tm := by
  grind [Block.calibrationResult, Block.calApply_flows, Block.calStop_tm, Block.setRegs_tm, Block.calFinish_tm, Block.calStore_tm]

@[simp] theorem Block.mgmtGone_flows (h : τ.Flows s.tm) (since : Nat) : τ.Flows (s.mgmtGone since).tm := by
  obtain ⟨t, hdef, ht⟩ : ∃ t, t = s.advance (since + 1000000000 - s.now) ∧ τ.Flows t.tm := ⟨_, rfl, Block.advance_flows h _⟩
  rw [Block.mgmtGone, ← hdef, Block.raise_tm, Block.postI_tm]
  exact ht.update

@[simp] theorem Block.rwEffect_flows (h : τ.Flows s.tm) (a : Nat) (w : Word) : τ.Flows (s.rwEffect a w).tm := by
  fun_cases Block.rwEffect s a w <;> simp +zetaDelta [h]

@[simp] theorem Block.put_flows (h : τ.Flows s.tm) (a : Nat) (v : Word) : τ.Flows (s.put a v).tm := by
  rw [Block.put]
  split
  · exact h
  · split
    · rw [Block.shEffect_tm]
      exact h
    · refine .ite (.ite ?_ (.ite ?_ (.ite ?_ h))) ?_
      · rwa [Block.errCause_tm]
      · rwa [Block.probeWrite_tm]
      · rwa [Block.piCheck_tm]
      · exact Block.rwTake_flows h _ _ fun w => Block.rwEffect_flows h _ _
    · exact h

@[simp] theorem Block.actWrites_flows (h : τ.Flows s.tm) (f : CueFetched) : τ.Flows (s.actWrites f).1.tm := by
  rw [Block.actWrites]
  split
  · exact .foldl (fun t e => Block.put_flows (.refl _) _ _) _ h
  · exact .foldl (fun t e => Block.put_flows (.refl _) _ _) _ h
  · dsimp only
    split
    · exact Block.put_flows (Block.put_flows h _ _) _ _
    · exact Block.put_flows h _ _
  · dsimp only
    split
    · exact h
    · exact .foldl (fun t e => Block.put_flows (.refl _) _ _) _ h
  · exact Block.put_flows h _ _
  · exact h

@[simp] theorem Block.cueFire1_flows (h : τ.Flows s.tm) (f : CueFetched) (fsn : Word) : τ.Flows (s.cueFire1 f fsn).1.tm := by
  grind [Block.cueFire1, Block.actWrites_flows, Block.cueMiss_tm, Block.cueFired_tm]

@[simp] theorem Block.cueFire_flows (h : τ.Flows s.tm) (bad : List Nat) : τ.Flows (s.cueFire bad).tm := by
  unfold Block.cueFire
  extract_lets t u fsn
  have ht : τ.Flows t.tm := Block.advanceTo_flows h _
  have hu : τ.Flows u.tm := TimeState.Flows.ite ht (by rwa [Block.cueFetch_tm])
  generalize hr : List.foldl _ (u, 0, []) u.cu.fetched = r
  have hfired : τ.Flows r.1.tm := by
    rw [← hr]
    refine .foldl_fst ?_ _ ?_
    · exact fun r f => Block.cueFire1_flows (.refl _) f fsn
    · exact hu
  obtain ⟨v, pages, cues⟩ := r
  refine .ite ?_ (Block.commitIn_flows ?_ _ _ _)
  · rw [Block.cuesApplied_tm]
    exact hfired.update
  · exact hfired.update

@[simp] theorem Block.cueFiring_flows (h : τ.Flows s.tm) (bad : List Nat) : τ.Flows (s.cueFiring bad).tm := by
  fun_cases Block.cueFiring s bad <;> simp +zetaDelta [h]

@[simp] theorem Block.fineCue_flows (h : τ.Flows s.tm) (bad : Bool) : τ.Flows (s.fineCue bad).tm := by
  fun_cases Block.fineCue s bad <;> simp +zetaDelta [h]

@[simp] theorem Block.timeReset_flows (h : τ.Flows s.tm) : τ.Flows s.timeReset.tm := by
  have hdrop : τ.Flows ({ s with tm := { s.tm with ftSetHi := 0, resetMajor := s.tm.resetMajor || s.tm.run } } : Block).fsyncDrop.tm :=
    Block.fsyncDrop_flows h.update
  rw [Block.timeReset]
  exact .ite (Block.goSrc_flows hdrop _) hdrop

@[simp] theorem Block.softResetGo_flows (h : τ.Flows s.tm) (p : Nat) : τ.Flows (s.softResetGo p).tm := by
  grind [Block.softResetGo, Block.timeReset_flows, Block.abandonOps_tm, Block.unpend_tm, Block.setReg_tm, Block.thermApplied_tm,
    Block.blockFollows_tm]

@[simp] theorem Block.softReset_flows (h : τ.Flows s.tm) (p : Nat) : τ.Flows (s.softReset p).tm := by
  fun_cases Block.softReset s p <;> simp +zetaDelta [h]

@[simp] theorem Block.softResetWaiting_flows (h : τ.Flows s.tm) : τ.Flows s.softResetWaiting.tm := by
  rw [Block.softResetWaiting]
  exact .foldl (fun t p => Block.softResetGo_flows (.refl _) p) _ h.update

@[simp] theorem Block.pageCtrlWrite_flows (h : τ.Flows s.tm) (p : Nat) (v : Word) : τ.Flows (s.pageCtrlWrite p v).tm := by
  fun_cases Block.pageCtrlWrite s p v <;> simp +zetaDelta [h]

@[simp] theorem Block.commitWrite_flows (h : τ.Flows s.tm) (p : Nat) (v : Word) : τ.Flows (s.commitWrite p v).tm := by
  fun_cases Block.commitWrite s p v <;> simp +zetaDelta [h]

@[simp] theorem Block.headWrite_flows (h : τ.Flows s.tm) (p off : Nat) (v : Word) : τ.Flows (s.headWrite p off v).tm := by
  fun_cases Block.headWrite s p off v <;>
    grind [Block.pageCtrlWrite_flows, Block.commitWrite_flows, Block.intClear_tm, Block.errCause_tm, Block.withInt_tm, Block.setReg_tm,
      Block.setInt_tm, Block.lockWrite_tm]

@[simp] theorem Block.devCommitWrite_flows (h : τ.Flows s.tm) (v : Word) : τ.Flows (s.devCommitWrite v).tm := by
  fun_cases Block.devCommitWrite s v <;> simp +zetaDelta [h]

@[simp] theorem Block.maCtrlWrite_flows (h : τ.Flows s.tm) (p : Nat) (v : Word) : τ.Flows (s.maCtrlWrite p v).tm := by
  grind [Block.maCtrlWrite, Block.arrayReset_flows, Block.maRetrain_tm, Block.maIdentReq_tm]

@[simp] theorem Block.darkEnd_flows (h : τ.Flows s.tm) : τ.Flows s.darkEnd.1.tm :=
  h.update

end

end Sys2Proof.Machine

namespace Sys2Proof.Machine

/-!
The frame boundary and the FSN (R48, R49).
-/

theorem Block.seriesFb_fsn (s : Block) : s.seriesFb.tm.fsn = s.fsnNext := by
  rw [Block.seriesFb]
  simp only [Block.tm_ite, Block.post_tm, Block.postTally_tm, ite_self]

theorem Block.seriesFb_ft (s : Block) : s.seriesFb.tm.ft = s.tm.ft := by
  rw [Block.seriesFb]
  simp only [Block.tm_ite, Block.post_tm, Block.postTally_tm, ite_self, Block.availability_tm, Block.tallySnap_tm]

theorem Block.seriesFb_run (s : Block) : s.seriesFb.tm.run = s.tm.run := by
  rw [Block.seriesFb]
  simp only [Block.tm_ite, Block.post_tm, Block.postTally_tm, ite_self, Block.availability_tm, Block.tallySnap_tm]

/-- The block as it stands when the boundary falls: the cues and the cutoff before it are over, and FT is that of the boundary. -/
def Block.atBoundary (s : Block) : Block := (s.cueFiring []).cutoff.advanceTo (s.cueFiring []).cutoff.nextFb

theorem Block.atBoundary_flows (s : Block) : s.tm.Flows s.atBoundary.tm :=
  Block.advanceTo_flows (Block.cutoff_flows (Block.cueFiring_flows (.refl _) [])) _

theorem Block.frameBoundary_flows {s : Block} (hr : s.tm.run = true) : s.atBoundary.seriesFb.tm.Flows s.frameBoundary.tm := by
  have hrun : s.atBoundary.seriesFb.tm.run = true := by rw [Block.seriesFb_run, s.atBoundary_flows.run_eq, hr]
  rw [Block.frameBoundary, if_neg (by simp [hr])]
  simp only [Block.pulsesFb_tm, Block.conserve_tm, Block.reloadRecs_tm, Block.dramFrame_tm, Block.scanFb_tm, Block.lightFb_tm,
    Block.stallFrost_tm, Block.pipePb_tm, Block.dramFallbackEntry_tm, Block.targetApply_tm, Block.pdFb_tm, Block.pointsFb_tm,
    Block.thawFb_tm, Block.frostFb_tm, Block.portsFb_tm]
  rw [← Block.atBoundary]
  have hseries : s.atBoundary.seriesFb.tm.Flows (List.foldl Block.estFrame
      (s.atBoundary.seriesFb.wheelFb.closeWhere 1 fun r => r.way == .fb) (List.range 4)).tm := by
    rw [foldl_tm fun t p => Block.estFrame_tm .., Block.closeWhere_tm, Block.wheelFb_tm]
    exact .refl _
  generalize List.foldl Block.estFrame (s.atBoundary.seriesFb.wheelFb.closeWhere 1 fun r => r.way == .fb) (List.range 4) = t at hseries ⊢
  have hend := Block.darkEnd_flows hseries
  refine Block.softResetWaiting_flows ?_
  rw [Block.softReturns_tm]
  exact Block.commitFb_flows hend (hend.run_eq.trans hrun)

/-- Does a commit load the FSN at the coming boundary (R49)? -/
def Block.loadsFsn (s : Block) (c : Commit) : Bool :=
  c.display && !s.holds c && natBit c.pages 7 && bit (sget regDflt c.vals R.TIME_FB_CTRL) 0

theorem Block.fsnNext_of_no_load {s : Block} (h : ∀ c ∈ s.cm.list, s.loadsFsn c = false) : s.fsnNext = s.tm.fsn + 1 := by
  have hnone : s.cm.list.reverse.find? s.loadsFsn = none := by
    simpa [List.find?_eq_none] using h
  change (match s.cm.list.reverse.find? s.loadsFsn with | some c => _ | none => _) = _
  rw [hnone]

theorem Block.fsnNext_of_newest_load {s : Block} {c : Commit} {l m : List Commit} (hlist : s.cm.list = l ++ c :: m)
    (hload : s.loadsFsn c = true) (hnewer : ∀ d ∈ m, s.loadsFsn d = false) : s.fsnNext = sget regDflt c.vals R.TIME_FSN_LOAD := by
  have hnone : m.reverse.find? s.loadsFsn = none := by
    simpa [List.find?_eq_none] using hnewer
  have hfound : s.cm.list.reverse.find? s.loadsFsn = some c := by
    simp [hlist, hnone, hload]
  change (match s.cm.list.reverse.find? s.loadsFsn with | some c => _ | none => _) = _
  rw [hfound]

theorem Block.frameBoundary_fsn {s : Block} (hr : s.tm.run = true) : s.frameBoundary.tm.fsn = s.atBoundary.fsnNext :=
  (Block.frameBoundary_flows hr).fsn_eq.trans (Block.seriesFb_fsn _)

/-- Settles O47. The FSN of the boundary is the one `fsnNext` gives for the block at the boundary; everything else the boundary does
leaves it alone. -/
theorem frameSequenceSteps : Obligations.FrameSequenceSteps := by
  intro s u q hrun hu
  have hat : u = s.atBoundary := hu
  have hfsn : s.frameBoundary.tm.fsn = u.fsnNext := by rw [hat, Block.frameBoundary_fsn hrun]
  have hkeep : u.tm.fsn = s.tm.fsn := by rw [hat, s.atBoundary_flows.fsn_eq]
  refine ⟨s.frameBoundary, ?_, fun hnone => ?_, fun c l m hlist hload hnewer => ?_⟩
  · change execFrameBoundary ⟨s, q⟩ = _
    rw [execFrameBoundary, State.does_next]
  · rw [hfsn, ← hkeep]
    refine Block.fsnNext_of_no_load fun c hc => ?_
    exact (Bool.not_eq_true' _).mp (List.all_eq_true.1 hnone c hc)
  · rw [hfsn]
    refine Block.fsnNext_of_newest_load hlist hload fun d hd => ?_
    exact (Bool.not_eq_true' _).mp (List.all_eq_true.1 hnewer d hd)

end Sys2Proof.Machine

namespace Sys2Proof.Machine

/-!
Fabric time over a step (R38): what a reset leaves, what each command does to FT, and the step lemma.
-/

/-- Does the outcome of a command leave fabric time where a step may leave it: at or after what it was, or at 0? -/
def State.Forward (s : State) (r : Res) : Prop := ∀ t, r = .next t → s.tm.ft ≤ t.tm.ft ∨ t.tm.ft = 0

theorem State.forward_of_flows {s : State} {f : Block → Block} (h : s.tm.Flows (f s.toBlock).tm) : s.Forward (s.does f) := by
  rintro t ⟨⟩
  exact .inl h.ft_le

theorem State.forward_of_zero {s : State} {f : Block → Block} (h : (f s.toBlock).tm.ft = 0) : s.Forward (s.does f) := by
  rintro t ⟨⟩
  exact .inr h

/-- How a register access from outside moves the time state: as any other operation, or as a reset asked for by it leaves it. -/
def TimeState.Runs (a b : TimeState) : Prop := a.Flows b ∨ (b.ft = 0 ∧ b.run = false)

theorem TimeState.Flows.runs {a b : TimeState} (h : a.Flows b) : a.Runs b := .inl h

theorem TimeState.Runs.trans {a b c : TimeState} (h : a.Runs b) (h' : b.Runs c) : a.Runs c := by
  rcases h' with h' | h'
  · rcases h with h | ⟨hft, hrun⟩
    · exact .inl (h.trans h')
    · exact .inr ⟨(h'.held hrun).trans hft, h'.run_eq.trans hrun⟩
  · exact .inr h'

theorem TimeState.Runs.ite {τ : TimeState} {c : Prop} [Decidable c] {s t : Block} (hs : τ.Runs s.tm) (ht : τ.Runs t.tm) :
    τ.Runs (if c then s else t).tm := by
  split
  · exact hs
  · exact ht

theorem State.forward_of_runs {s : State} {f : Block → Block} (h : s.tm.Runs (f s.toBlock).tm) : s.Forward (s.does f) :=
  h.elim State.forward_of_flows fun h => State.forward_of_zero h.1

theorem Block.resetKeep_tm (s : Block) (warm : Bool) : (s.resetKeep warm).tm = Block.reset.tm := by
  rw [Block.resetKeep, Block.setRegs_tm]

theorem Block.reset_ft : Block.reset.tm.ft = 0 := rfl

theorem Block.reset_run : Block.reset.tm.run = false := rfl

theorem Block.resetKeep_runs (τ : TimeState) (s : Block) (warm : Bool) : τ.Runs (s.resetKeep warm).tm := by
  rw [Block.resetKeep_tm]
  exact .inr ⟨Block.reset_ft, Block.reset_run⟩

theorem Block.warmReset_runs (τ : TimeState) (s : Block) (b : Nat) : τ.Runs (s.warmReset b).tm := by
  rw [Block.warmReset, Block.romTrain_tm, Block.place_tm, Block.cause_tm]
  exact Block.resetKeep_runs ..

theorem Block.resetCtrl_runs {τ : TimeState} {s : Block} (h : τ.Flows s.tm) (v : Word) : τ.Runs (s.resetCtrl v).tm := by
  rw [Block.resetCtrl]
  refine .ite h.runs (.ite ?_ (Block.warmReset_runs ..))
  rw [Block.errCause_tm]
  exact h.runs

theorem Block.resetHold_runs {τ : TimeState} {s : Block} (h : τ.Flows s.tm) (why : Option Nat) : τ.Runs (s.resetHold why).tm := by
  have hzero : τ.Runs ((match why with
      | some i => ((s.advance 2000).resetKeep false).cause i
      | none => (s.advance 2000).resetKeep false).place .aon s.pw.state 0x12).tm := by
    rw [Block.place_tm]
    cases why with
    | none => exact Block.resetKeep_runs ..
    | some i =>
      dsimp only
      rw [Block.cause_tm]
      exact Block.resetKeep_runs ..
  rw [Block.resetHold]
  exact @TimeState.Runs.ite τ (s.pw.state = .aon) _ s _ h.runs hzero

theorem Block.firebreakDie_runs (τ : TimeState) (s : Block) : τ.Runs s.firebreakDie.tm := by
  simp only [Block.firebreakDie, Block.place_tm, Block.resetKeep_tm]
  exact .inr ⟨Block.reset_ft, Block.reset_run⟩

theorem Block.goSrc_ft (s : Block) (c : TimeSrc) : (s.goSrc c).tm.ft = s.tm.ft := by
  rw [Block.goSrc]
  simp only [apply_ite Block.tm, apply_ite TimeState.ft, Block.post_tm, ite_self]

theorem Block.startTime_ft (s : Block) : s.startTime.tm.ft = 0 := by
  rw [Block.startTime, Block.goSrc_ft]
  exact Block.reset_ft

theorem Block.ite_ft {c : Prop} [Decidable c] {s t : Block} {n : Nat} (hs : s.tm.ft = n) (ht : t.tm.ft = n) :
    (if c then s else t).tm.ft = n := by
  split
  · exact hs
  · exact ht

theorem Block.bootDone_ft (s : Block) (f : BootFacts) (s1 : Option Nat) (hk sv : Nat) : (s.bootDone f s1 hk sv).tm.ft = 0 := by
  rw [Block.bootDone]
  refine Block.ite_ft (Block.startTime_ft _) ?_
  rw [Block.standbyInputs_tm]
  exact Block.startTime_ft _

theorem Block.strobe0_runs {τ : TimeState} {s : Block} (h : τ.Flows s.tm) (a : Nat) (v : Word) : τ.Runs (s.strobe0 a v).tm := by
  by_cases hreset : a = R.PWR_RESET_CTRL
  · subst hreset
    rw [Block.strobe0, if_neg (by decide), if_pos rfl]
    exact Block.resetCtrl_runs h v
  · refine .inl ?_
    fun_cases Block.strobe0 s a v <;> simp_all +zetaDelta [h.update]

theorem Block.barWrite_runs {τ : TimeState} {s : Block} (h : τ.Flows s.tm) (a : Nat) (v : Word) : τ.Runs (s.barWrite a v).tm := by
  rw [Block.barWrite]
  refine .ite (.ite ?_ h.runs) (.ite (Block.headWrite_flows h _ _ _).runs ?_)
  · rw [Block.readEffect_tm]
    exact h.runs
  · split
    · exact h.runs
    · split
      case h_1 | h_2 | h_3 =>
        rw [Block.clearBits_tm]
        exact h.runs
      case h_4 | h_5 => exact Block.strobe0_runs h _ _
      case h_6 | h_7 =>
        split
        next t htaken =>
          rw [Block.chkWrite_tm htaken]
          exact h.runs
        next => exact (Block.put_flows h _ _).runs

theorem Block.oddAccess_runs {τ : TimeState} {s : Block} (h : τ.Flows s.tm) (a size : Nat) (w : Option Bytes) :
    τ.Runs (s.oddAccess a size w).tm := by
  unfold Block.oddAccess
  refine .ite h.runs ?_
  split
  · exact .ite ((Block.barWrite_runs h _ _).trans (Block.barWrite_runs (.refl _) _ _)) h.runs
  · refine .ite ?_ ?_ <;> simp only [Block.emit_tm, Block.barRead_tm] <;> exact h.runs

theorem Block.usbWrite_runs {τ : TimeState} {s : Block} (h : τ.Runs s.tm) (l : List (Nat × Word)) : τ.Runs (s.usbWrite l).1.tm := by
  induction l generalizing s with
  | nil => exact h
  | cons e l ih => exact ih (h.trans (Block.barWrite_runs (.refl _) _ _))

theorem Block.usbServe_runs {τ : TimeState} {s : Block} (h : τ.Flows s.tm) (r : UsbRequest) : τ.Runs (s.usbServe r).2.2.tm := by
  fun_cases Block.usbServe s r
  case case4 => exact Block.usbWrite_runs h.runs _
  all_goals simpa +zetaDelta using h.runs

theorem Block.usb2_runs {τ : TimeState} {s : Block} (h : τ.Flows s.tm) (r : UsbRequest) : τ.Runs (s.usb2 r).tm := by
  have hserve : τ.Runs ((s.setFld R.HOST_STATUS 2 1 0).usbServe r).2.2.tm := by
    refine Block.usbServe_runs ?_ r
    rwa [Block.setFld_tm]
  rw [Block.usb2]
  refine .ite h.runs ?_
  simp only [Block.tm_ite, Block.bump_tm, Block.emit_tm, Block.setFld_tm, ite_self]
  exact hserve

theorem Block.onStrobe_flows {τ : TimeState} {s : Block} (h : τ.Flows s.tm) {f : Block → Block} (hf : τ.Flows (f s).tm) :
    τ.Flows (s.onStrobe f).tm := by
  rw [Block.onStrobe]
  exact .ite hf h

theorem Block.onStrobe_runs {τ : TimeState} {s : Block} (h : τ.Flows s.tm) {f : Block → Block} (hf : τ.Runs (f s).tm) :
    τ.Runs (s.onStrobe f).tm := by
  rw [Block.onStrobe]
  exact .ite hf h.runs

theorem Block.onWrite_flows {τ : TimeState} {s : Block} (h : τ.Flows s.tm) (page : Nat) {f : Block → Block} (hf : τ.Flows (f s).tm) :
    τ.Flows (s.onWrite page f).tm := by
  rw [Block.onWrite]
  refine .ite h (.ite ?_ hf)
  rwa [Block.errCause_tm]

theorem Block.frameBoundary_ft_le (s : Block) : s.tm.ft ≤ s.frameBoundary.tm.ft := by
  cases hrun : s.tm.run with
  | false => rw [Block.frameBoundary, if_pos (by simp [hrun])]
  | true =>
    calc s.tm.ft ≤ s.atBoundary.tm.ft := s.atBoundary_flows.ft_le
      _ = s.atBoundary.seriesFb.tm.ft := (Block.seriesFb_ft _).symm
      _ ≤ s.frameBoundary.tm.ft := (Block.frameBoundary_flows hrun).ft_le

/-! Machine/Laser.lean -/

theorem execLsgPiCheckGo_forward (s : State) : s.Forward (execLsgPiCheckGo s) := State.forward_of_flows (by simp)

theorem execOverCurrentTrip_forward (n : Nat) (s : State) : s.Forward (execOverCurrentTrip n s) := State.forward_of_flows (by simp)

theorem execFaultInput_forward (n : Nat) (s : State) : s.Forward (execFaultInput n s) := State.forward_of_flows (by simp)

theorem execSpareTakeover_forward (g : Nat) (s : State) : s.Forward (execSpareTakeover g s) := State.forward_of_flows (by simp)

theorem execProbeDue_forward (m : Nat) (s : State) : s.Forward (execProbeDue m s) := State.forward_of_flows (by simp)

theorem execProbeStarved_forward (m : Nat) (s : State) : s.Forward (execProbeStarved m s) := State.forward_of_flows (by simp)

theorem execColdSpareHot_forward (m : Nat) (s : State) : s.Forward (execColdSpareHot m s) := State.forward_of_flows (by simp)

/-! Machine/Scanner.lean -/

theorem execFastAxisEnable_forward (s : State) : s.Forward (execFastAxisEnable s) := State.forward_of_flows (by simp)

theorem execResonanceFound_forward (freq : Nat) (s : State) : s.Forward (execResonanceFound freq s) := by
  rw [execResonanceFound]
  refine State.forward_of_flows ?_
  dsimp only
  split <;> simp

theorem execHandoverTimeout_forward (s : State) : s.Forward (execHandoverTimeout s) := State.forward_of_flows (by simp)

theorem execLockFail_forward (s : State) : s.Forward (execLockFail s) := State.forward_of_flows (by simp)

theorem execFastAxisLocked_forward (s : State) : s.Forward (execFastAxisLocked s) := State.forward_of_flows (by simp)

theorem execBeamCut_forward (cause : Nat) (s : State) : s.Forward (execBeamCut cause s) := State.forward_of_flows (by simp)

theorem execLockLoss_forward (cause : Nat) (s : State) : s.Forward (execLockLoss cause s) := State.forward_of_flows (by simp)

theorem execRelockTimeout_forward (s : State) : s.Forward (execRelockTimeout s) := State.forward_of_flows (by simp)

theorem execZeroCrossing_forward (before after : Nat) (s : State) : s.Forward (execZeroCrossing before after s) :=
  State.forward_of_flows (by simp)

theorem execHighlineTargetChange_forward (s : State) : s.Forward (execHighlineTargetChange s) := State.forward_of_flows (by simp)

theorem execHighlineArrival_forward (s : State) : s.Forward (execHighlineArrival s) := State.forward_of_flows (by simp)

theorem execRowDrawn_forward (s : State) : s.Forward (execRowDrawn s) := State.forward_of_flows (by simp)

theorem execRowToleranceExit_forward (s : State) : s.Forward (execRowToleranceExit s) := State.forward_of_flows (by simp)

theorem execDrawingWindowEnd_forward (s : State) : s.Forward (execDrawingWindowEnd s) :=
  State.forward_of_flows (by grind [Block.retarget_tm, Block.windowEnd_tm, Block.advanceTo_flows, TimeState.Flows.refl])

theorem execZoneBucketBoundary_forward (s : State) : s.Forward (execZoneBucketBoundary s) := State.forward_of_flows (by simp)

theorem execDacSample_forward (s : State) : s.Forward (execDacSample s) := State.forward_of_flows (by simp)

/-! Machine/Coppice.lean -/

theorem execLoopSample_forward (slot y v : Nat) (s : State) : s.Forward (execLoopSample slot y v s) := State.forward_of_flows (by simp)

theorem execStateScrub_forward (errs : List Nat) (s : State) : s.Forward (execStateScrub errs s) := State.forward_of_flows (by simp)

theorem execWheelFault_forward (kind last : Nat) (s : State) : s.Forward (execWheelFault kind last s) := State.forward_of_flows (by simp)

theorem execThermCeilingLost_forward (g : Nat) (s : State) : s.Forward (execThermCeilingLost g s) := State.forward_of_flows (by simp)

/-! Machine/Chain.lean -/

theorem execChainTableLoad_forward (c : Nat) (s : State) : s.Forward (execChainTableLoad c s) :=
  State.forward_of_flows (by grind [Block.tableLoad_flows, TimeState.Flows.refl])

theorem execProbeRun_forward (g : Nat) (res : List (Nat × Nat)) (s : State) : s.Forward (execProbeRun g res s) :=
  State.forward_of_flows (by grind [Block.probeRun_flows, TimeState.Flows.refl])

theorem execChainShiftDone_forward (c : Nat) (ret : List Nat) (s : State) : s.Forward (execChainShiftDone c ret s) :=
  State.forward_of_flows (by simp)

/-! Machine/Mirror.lean -/

theorem execIdent_forward (p : Nat) (d : Bytes) (s : State) : s.Forward (execIdent p d s) := State.forward_of_flows (by simp)

theorem execFifoUnderrun_forward (p : Nat) (s : State) : s.Forward (execFifoUnderrun p s) := State.forward_of_flows (by simp)

theorem execLinkStatus_forward (p state lane skew : Nat) (order : Bool) (s : State) :
    s.Forward (execLinkStatus p state lane skew order s) :=
  State.forward_of_flows (by simp)

theorem execTrainingAttemptTimeout_forward (p : Nat) (s : State) : s.Forward (execTrainingAttemptTimeout p s) :=
  State.forward_of_flows (by simp)

theorem execDarkTrainingTimeout_forward (p : Nat) (s : State) : s.Forward (execDarkTrainingTimeout p s) := State.forward_of_flows (by simp)

theorem execArrayReset_forward (p : Nat) (s : State) : s.Forward (execArrayReset p s) :=
  State.forward_of_flows (by grind [Block.arrayReset_flows, TimeState.Flows.refl])

theorem execMaRetrain_forward (p : Nat) (s : State) : s.Forward (execMaRetrain p s) := State.forward_of_flows (by simp)

theorem execMaIdentReq_forward (p : Nat) (s : State) : s.Forward (execMaIdentReq p s) := State.forward_of_flows (by simp)

theorem execPreloadStart_forward (s : State) : s.Forward (execPreloadStart s) :=
  State.forward_of_flows (by grind [Block.preload_flows, TimeState.Flows.refl])

theorem execPlaneLoadStart_forward (p : Nat) (s : State) : s.Forward (execPlaneLoadStart p s) :=
  State.forward_of_flows (by grind [Block.loadStart_flows, TimeState.Flows.refl])

theorem execPlaneLoadEnd_forward (p : Nat) (s : State) : s.Forward (execPlaneLoadEnd p s) :=
  State.forward_of_flows (by grind [Block.loadEnd_flows, TimeState.Flows.refl])

theorem execSlotStart_forward (g : Nat) (ev : List (Nat × Nat × Nat)) (s : State) : s.Forward (execSlotStart g ev s) :=
  State.forward_of_flows (by grind [Block.slotStart_flows, TimeState.Flows.refl])

theorem execKerfEnd_forward (g : Nat) (rdyLow seenHigh : Bool) (s : State) : s.Forward (execKerfEnd g rdyLow seenHigh s) :=
  State.forward_of_flows (by grind [Block.kerfEnd_flows, TimeState.Flows.refl])

theorem execLastDwellEnd_forward (g : Nat) (ev : List (Nat × Nat × Nat)) (s : State) : s.Forward (execLastDwellEnd g ev s) :=
  State.forward_of_flows (by grind [Block.lastDwellEnd_flows, TimeState.Flows.refl])

theorem execDarkIntervalStart_forward (s : State) : s.Forward (execDarkIntervalStart s) := State.forward_of_flows (by simp)

theorem execPlaneAck_forward (p slot plane _status : Nat) (fsn arrDiff tapDiff : Word) (s : State) :
    s.Forward (execPlaneAck p slot plane _status fsn arrDiff tapDiff s) :=
  State.forward_of_flows (by simp)

theorem execAckMissing_forward (p slot : Nat) (s : State) : s.Forward (execAckMissing p slot s) := State.forward_of_flows (by simp)

theorem execArrayTemp_forward (p temp : Nat) (s : State) : s.Forward (execArrayTemp p temp s) := State.forward_of_flows (by simp)

theorem execArrayStatus_forward (p code sev : Nat) (detail : Word) (s : State) : s.Forward (execArrayStatus p code sev detail s) :=
  State.forward_of_flows (by simp)

theorem execEchoReply_forward (_p : Nat) (_token : Bytes) (s : State) : s.Forward (execEchoReply _p _token s) :=
  State.forward_of_flows (by simp)

theorem execBackchannelBadMessage_forward (p : Nat) (s : State) : s.Forward (execBackchannelBadMessage p s) :=
  State.forward_of_flows (by simp)

theorem execBcLost_forward (p : Nat) (s : State) : s.Forward (execBcLost p s) := State.forward_of_flows (by simp)

theorem execBcLostLong_forward (p : Nat) (s : State) : s.Forward (execBcLostLong p s) :=
  State.forward_of_flows (by grind [Block.raise_tm, TimeState.Flows.refl])

theorem execBcRegained_forward (p : Nat) (s : State) : s.Forward (execBcRegained p s) := State.forward_of_flows (by simp)

/-! Machine/Thermal.lean -/

theorem execTsConversion_forward (t : List Int) (s : State) : s.Forward (execTsConversion t s) := State.forward_of_flows (by simp)

theorem execNtcConversion_forward (j c : Nat) (s : State) : s.Forward (execNtcConversion j c s) := State.forward_of_flows (by simp)

theorem execLaserModelUpdate_forward (s : State) : s.Forward (execLaserModelUpdate s) := by
  rw [execLaserModelUpdate]
  refine State.forward_of_flows ?_
  split
  case h_4 =>
    rw [Block.modMembers_tm, foldl_tm fun t g => t.modelUpdate_tm g]
    exact .refl _
  all_goals exact .refl _

/-! Machine/Ring.lean -/

theorem execRingCmdTailWrite_forward (v : Word) (s : State) : s.Forward (execRingCmdTailWrite v s) := State.forward_of_flows (by simp)

theorem execCmdFetchFault_forward (kind : Nat) (s : State) : s.Forward (execCmdFetchFault kind s) := State.forward_of_flows (by simp)

theorem execRingCmdResync_forward (v : Word) (s : State) : s.Forward (execRingCmdResync v s) := State.forward_of_flows (by simp)

theorem execCmdEnSet_forward (s : State) : s.Forward (execCmdEnSet s) := State.forward_of_flows (by simp)

theorem execCmdEnClear_forward (s : State) : s.Forward (execCmdEnClear s) := State.forward_of_flows (by simp)

theorem execEvtEnSet_forward (s : State) : s.Forward (execEvtEnSet s) := State.forward_of_flows (by simp)

theorem execEvtEnClear_forward (s : State) : s.Forward (execEvtEnClear s) := State.forward_of_flows (by simp)

theorem execEventWrite_forward (s : State) : s.Forward (execEventWrite s) := State.forward_of_flows (by simp)

theorem execEventWriteFault_forward (s : State) : s.Forward (execEventWriteFault s) := State.forward_of_flows (by simp)

theorem execEvtModTimeout_forward (s : State) : s.Forward (execEvtModTimeout s) :=
  State.forward_of_flows (by grind [Block.raise63_tm, Block.advance_flows, TimeState.Flows.refl])

theorem execRingEvtHeadWrite_forward (v : Word) (s : State) : s.Forward (execRingEvtHeadWrite v s) := State.forward_of_flows (by simp)

theorem execNop_forward (cseq : Word) (s : State) : s.Forward (execNop cseq s) :=
  State.forward_of_flows (by grind [Block.complete_tm, TimeState.Flows.refl])

theorem execBadOpcode_forward (cseq : Word) (s : State) : s.Forward (execBadOpcode cseq s) :=
  State.forward_of_flows (by grind [Block.complete_tm, TimeState.Flows.refl])

theorem execSnapshot_forward (cseq : Word) (s : State) : s.Forward (execSnapshot cseq s) := by
  rw [execSnapshot]
  refine State.forward_of_flows ?_
  dsimp only
  split <;> simp

/-! Machine/Dram.lean -/

theorem execDramUe_forward (addr client : Nat) (errs : List (Nat × Nat)) (s : State) : s.Forward (execDramUe addr client errs s) :=
  State.forward_of_flows (by simp)

theorem execDramCe_forward (addr : Nat) (errs : List (Nat × Nat)) (s : State) : s.Forward (execDramCe addr errs s) :=
  State.forward_of_flows (by simp)

theorem execDramScrubRead_forward (result : Nat) (s : State) : s.Forward (execDramScrubRead result s) := State.forward_of_flows (by simp)

theorem execSlackSample_forward (q v : Nat) (arr : List (Bool × Bool × Nat)) (s : State) : s.Forward (execSlackSample q v arr s) :=
  State.forward_of_flows (by grind [Block.slackSample_flows, TimeState.Flows.refl])

theorem execRefreshDue_forward (ch : Nat) (idle : Bool) (s : State) : s.Forward (execRefreshDue ch idle s) :=
  State.forward_of_flows (by simp)

theorem execRefreshRatePoll_forward (ch val : Nat) (above : Bool) (s : State) : s.Forward (execRefreshRatePoll ch val above s) :=
  State.forward_of_flows (by simp)

theorem execDriftTrim_forward (ch n : Nat) (s : State) : s.Forward (execDriftTrim ch n s) := State.forward_of_flows (by simp)

theorem execDramStepDownRequest_forward (s : State) : s.Forward (execDramStepDownRequest s) :=
  State.forward_of_flows (by grind [Block.stepDown_tm, Block.advance_flows, TimeState.Flows.refl])

theorem execDramStepUpRequest_forward (s : State) : s.Forward (execDramStepUpRequest s) :=
  State.forward_of_flows (by grind [Block.stepUp_tm, Block.advance_flows, TimeState.Flows.refl])

theorem execDramFreqChangeStart_forward (s : State) : s.Forward (execDramFreqChangeStart s) :=
  State.forward_of_flows (by grind [Block.changeStart_tm, TimeState.Flows.refl])

theorem execPairFreqChange_forward (q : Nat) (s : State) : s.Forward (execPairFreqChange q s) := State.forward_of_flows (by simp)

theorem execDramFreqWait_forward (q : Nat) (s : State) : s.Forward (execDramFreqWait q s) :=
  State.forward_of_flows (by grind [Block.freqWait_flows, TimeState.Flows.refl])

theorem execSelfRefreshEntry_forward (q : Nat) (s : State) : s.Forward (execSelfRefreshEntry q s) :=
  State.forward_of_flows (by grind [Block.pairGoto_tm, Block.toLocal_flows, Block.selfRefresh_tm, TimeState.Flows.refl])

theorem execSelfRefreshExit_forward (q : Nat) (held : Bool) (s : State) : s.Forward (execSelfRefreshExit q held s) :=
  State.forward_of_flows (by simp)

theorem execPairOutOfService_forward (q : Nat) (s : State) : s.Forward (execPairOutOfService q s) := State.forward_of_flows (by simp)

theorem execDramSweep_forward (cseq : Word) (pass : List Nat) (xok : Bool) (s : State) : s.Forward (execDramSweep cseq pass xok s) :=
  State.forward_of_flows (by grind [Block.sweepAccept_tm, Block.sweepEnd_tm, TimeState.Flows.refl])

/-! Machine/Seedbank.lean -/

theorem execSeedRecordWrite_forward (n : Nat) (s : State) : s.Forward (execSeedRecordWrite n s) := State.forward_of_flows (by simp)

theorem execSeedChkOnly_forward (ty slot : Nat) (s : State) : s.Forward (execSeedChkOnly ty slot s) :=
  State.forward_of_flows (by grind [Block.seedCheck_flows, TimeState.Flows.refl])

theorem execReservedSlotWrite_forward (n : Nat) (s : State) : s.Forward (execReservedSlotWrite n s) := State.forward_of_flows (by simp)

theorem execSeedScrubRead_forward (result : Nat) (s : State) : s.Forward (execSeedScrubRead result s) :=
  State.forward_of_flows (by grind [Block.scrubWord_tm, Block.toLocal_flows, Block.seedUncorr_tm, Block.postTally_tm, Block.raise_tm,
    Block.bump_tm, TimeState.Flows.refl])

theorem execSeedSelCapture_forward (v : Word) (s : State) : s.Forward (execSeedSelCapture v s) := State.forward_of_flows (by simp)

theorem execSeedStore_forward (cseq : Word) (host : Option Bytes) (s : State) : s.Forward (execSeedStore cseq host s) :=
  State.forward_of_flows (by grind [Block.seedStore_tm, TimeState.Flows.refl])

theorem execSeedLoad_forward (cseq : Word) (xok : Bool) (s : State) : s.Forward (execSeedLoad cseq xok s) :=
  State.forward_of_flows (by grind [Block.seedLoad_tm, TimeState.Flows.refl])

/-! Machine/Trust.lean -/

theorem execOwnerKeyInstall_forward (cseq : Word) (host : Option Bytes) (s : State) : s.Forward (execOwnerKeyInstall cseq host s) :=
  State.forward_of_flows (by simp)

theorem execOwnerKeyRevoke_forward (cseq : Word) (host : Option Bytes) (s : State) : s.Forward (execOwnerKeyRevoke cseq host s) :=
  State.forward_of_flows (by simp)

theorem execOwnerKeyPolicyOn_forward (cseq : Word) (host : Option Bytes) (s : State) : s.Forward (execOwnerKeyPolicyOn cseq host s) :=
  State.forward_of_flows (by simp)

theorem execOwnerKeyRestore_forward (cseq : Word) (host : Option Bytes) (s : State) : s.Forward (execOwnerKeyRestore cseq host s) :=
  State.forward_of_flows (by simp)

theorem execJtagNewChallenge_forward (random : Bytes) (s : State) : s.Forward (execJtagNewChallenge random s) :=
  State.forward_of_flows (by simp)

theorem execJtagResponse_forward (modulus : Bytes) (scope : Word) (sig : Bytes) (s : State) :
    s.Forward (execJtagResponse modulus scope sig s) :=
  State.forward_of_flows (by simp)

theorem execJtagChallengeExpiry_forward (s : State) : s.Forward (execJtagChallengeExpiry s) := by
  obtain ⟨t, hdef, ht⟩ : ∃ t, t = s.advance (s.tr.chalAt + 60000000000 - s.now) ∧ s.tm.Flows t.tm :=
    ⟨_, rfl, Block.advance_flows (.refl _) _⟩
  rw [execJtagChallengeExpiry]
  refine State.forward_of_flows ?_
  rw [← hdef]
  exact .ite ht.update (.refl _)

/-! Machine/Time.lean -/

theorem execTimeSourceLost_forward (s : State) : s.Forward (execTimeSourceLost s) := by
  rw [execTimeSourceLost]
  refine State.forward_of_flows ?_
  dsimp only
  split
  next t _ =>
    obtain ⟨u, hdef, hu⟩ : ∃ u, u = s.advance (t + s.lossBound s.tm.src - s.now) ∧ s.tm.Flows u.tm :=
      ⟨_, rfl, Block.advance_flows (.refl _) _⟩
    rw [← hdef]
    refine .ite (.refl _) (Block.goSrc_flows (.ite ?_ ?_) _)
    · exact hu.update
    · exact hu.update
  next => exact .refl _

theorem execTimeSourceRequalified_forward (s : State) : s.Forward (execTimeSourceRequalified s) := by
  rw [execTimeSourceRequalified]
  refine State.forward_of_flows (.ite ?_ (.refl _))
  split
  next t htaken => exact Block.requalify_flows (.refl _) _ htaken
  next =>
    cases hfsync : s.requalify .fsync with
    | some t => exact Block.requalify_flows (.refl _) _ hfsync
    | none => exact .refl _

theorem execFsyncInEdge_forward (after : Nat) (s : State) : s.Forward (execFsyncInEdge after s) :=
  State.forward_of_flows (by grind [Block.advance_flows, Block.fsyncEdge_flows, TimeState.Flows.refl])

theorem execTimeFtSetHiWrite_forward (v : Word) (s : State) : s.Forward (execTimeFtSetHiWrite v s) := by
  rw [execTimeFtSetHiWrite]
  refine State.forward_of_flows (.ite ?_ (.refl _))
  exact (TimeState.Flows.refl s.tm).update

theorem execTimeFtSetLoWrite_forward (v : Word) (s : State) : s.Forward (execTimeFtSetLoWrite v s) :=
  State.forward_of_flows (by grind [Block.ftSet_flows, TimeState.Flows.refl])

theorem execTimeCtrlWrite_forward (v : Word) (s : State) : s.Forward (execTimeCtrlWrite v s) := by
  rw [execTimeCtrlWrite]
  refine State.forward_of_flows ?_
  rw [Block.rwWrite]
  exact .ite (Block.rwTake_flows (.refl _) _ _ fun w => Block.timeCtrl_flows (.refl _) w) (.refl _)

theorem execTcFreewheelExpiry_forward (s : State) : s.Forward (execTcFreewheelExpiry s) := by
  obtain ⟨t, hdef, ht⟩ : ∃ t, t = s.advance (s.tm.tcAt + s.fld R.TIME_TC_CFG 8 8 * 100000000 - s.now) ∧ s.tm.Flows t.tm :=
    ⟨_, rfl, Block.advance_flows (.refl _) _⟩
  rw [execTcFreewheelExpiry]
  refine State.forward_of_flows ?_
  dsimp only
  rw [← hdef]
  exact .ite ht.update (.refl _)

theorem execTimeFtLoRead_forward (s : State) : s.Forward (execTimeFtLoRead s) := State.forward_of_flows (by simp)

theorem execTimeCutoffLoRead_forward (s : State) : s.Forward (execTimeCutoffLoRead s) := State.forward_of_flows (by simp)

theorem execTallySnapLoRead_forward (n : Nat) (s : State) : s.Forward (execTallySnapLoRead n s) :=
  State.forward_of_flows (by grind [Block.setReg_tm, TimeState.Flows.refl])

/-! Machine/Fabric.lean -/

theorem execLinkCtrlSend_forward (p : Nat) (s : State) : s.Forward (execLinkCtrlSend p s) := by
  rw [execLinkCtrlSend]
  refine State.forward_of_flows ?_
  dsimp only
  split <;> simp

theorem execRetryTimeout_forward (p : Nat) (s : State) : s.Forward (execRetryTimeout p s) := by
  rw [execRetryTimeout]
  refine State.forward_of_flows ?_
  dsimp only
  split <;> simp

theorem execLinkCtrl_forward (p : Nat) (d : Bytes) (s : State) : s.Forward (execLinkCtrl p d s) := State.forward_of_flows (by simp)

theorem execCreditAudit_forward (p : Nat) (d : Bytes) (s : State) : s.Forward (execCreditAudit p d s) := State.forward_of_flows (by simp)

theorem execFabricLinkUp_forward (p : Nat) (nonce : Bytes) (s : State) : s.Forward (execFabricLinkUp p nonce s) :=
  State.forward_of_flows (by grind [Block.fLinkUp_tm, Block.bootAsk_tm, TimeState.Flows.refl])

theorem execAlignmentTimeout_forward (p : Nat) (s : State) : s.Forward (execAlignmentTimeout p s) := by
  rw [execAlignmentTimeout]
  refine State.forward_of_flows ?_
  dsimp only
  split <;> simp

theorem execModuleInserted_forward (p id temp : Nat) (s : State) : s.Forward (execModuleInserted p id temp s) :=
  State.forward_of_flows (by simp)

theorem execModulePoll_forward (p : Nat) (flags : Word) (temp : Nat) (alarm los : Bool) (s : State) :
    s.Forward (execModulePoll p flags temp alarm los s) := by
  rw [execModulePoll]
  refine State.forward_of_flows ?_
  dsimp only
  split <;> simp

theorem execModuleRemoved_forward (p : Nat) (s : State) : s.Forward (execModuleRemoved p s) := State.forward_of_flows (by simp)

theorem execHostFrameRx_forward (frame : Bytes) (s : State) : s.Forward (execHostFrameRx frame s) := State.forward_of_flows (by simp)

theorem execFabricFrameReceived_forward (p : Nat) (data : Bytes) (corr uncorr : Nat) (s : State) :
    s.Forward (execFabricFrameReceived p data corr uncorr s) := by
  rw [execFabricFrameReceived]
  refine State.forward_of_flows ?_
  dsimp only
  split <;> simp

theorem execFabricSend_forward (cseq : Word) (host : Option Bytes) (s : State) : s.Forward (execFabricSend cseq host s) :=
  State.forward_of_flows (by grind [Block.complete_tm, Block.readBuf_tm, Block.sendMsg_tm, TimeState.Flows.refl])

theorem execTimecode_forward (cseq : Word) (s : State) : s.Forward (execTimecode cseq s) :=
  State.forward_of_flows (by grind [Block.timecode_flows, TimeState.Flows.refl])

/-! Machine/Route.lean -/

theorem execHelloSend_forward (p : Nat) (s : State) : s.Forward (execHelloSend p s) := by
  rw [execHelloSend]
  refine State.forward_of_flows ?_
  dsimp only
  split <;> simp

theorem execHello_forward (p : Nat) (d : Bytes) (s : State) : s.Forward (execHello p d s) := State.forward_of_flows (by simp)

theorem execNeighbourDown_forward (p : Nat) (loss : Bool) (s : State) : s.Forward (execNeighbourDown p loss s) :=
  State.forward_of_flows (by grind [Block.retrain_tm, Block.nbrDrop_tm, Block.advance_flows, TimeState.Flows.refl])

theorem execAltFailover_forward (p : Nat) (s : State) : s.Forward (execAltFailover p s) := State.forward_of_flows (by simp)

theorem execLsaOriginate_forward (s : State) : s.Forward (execLsaOriginate s) :=
  State.forward_of_flows (by grind [Block.originate_tm, Block.advance_flows, TimeState.Flows.refl])

theorem execLsa_forward (p : Nat) (d : Bytes) (s : State) : s.Forward (execLsa p d s) := State.forward_of_flows (by simp)

theorem execLsaAgeOut_forward (uid : Nat) (s : State) : s.Forward (execLsaAgeOut uid s) :=
  State.forward_of_flows (by grind [Block.lsaDrop_tm, Block.advance_flows, TimeState.Flows.refl])

theorem execRootAndAddresses_forward (s : State) : s.Forward (execRootAndAddresses s) := State.forward_of_flows (by simp)

theorem execAssign_forward (p : Nat) (d : Bytes) (s : State) : s.Forward (execAssign p d s) := State.forward_of_flows (by simp)

theorem execSpfHoldExpiry_forward (s : State) : s.Forward (execSpfHoldExpiry s) :=
  State.forward_of_flows (by grind [Block.advance_flows, TimeState.Flows.refl])

theorem execRouteSwap_forward (ms : Nat) (s : State) : s.Forward (execRouteSwap ms s) :=
  State.forward_of_flows (by grind [Block.swap_tm, Block.advance_flows, TimeState.Flows.refl])

theorem execSyncSend_forward (s : State) : s.Forward (execSyncSend s) :=
  State.forward_of_flows (by grind [Block.syncSend_tm, Block.advance_flows, TimeState.Flows.refl])

theorem execSync_forward (p : Nat) (d : Bytes) (stamp : Nat) (s : State) : s.Forward (execSync p d stamp s) :=
  State.forward_of_flows (by grind [Block.syncHeard_flows, TimeState.Flows.refl])

theorem execPdelayExchange_forward (p kind pseq t1 t2 t3 t4 : Nat) (s : State) : s.Forward (execPdelayExchange p kind pseq t1 t2 t3 t4 s) :=
  State.forward_of_flows (by grind [Block.pdelay_flows, TimeState.Flows.refl])

theorem execAttest_forward (cseq : Word) (sig : Option Bytes) (xok : Bool) (s : State) : s.Forward (execAttest cseq sig xok s) :=
  State.forward_of_flows (by grind [Block.attestStart_tm, Block.rsaServe_tm, Block.attestEnd_tm, TimeState.Flows.refl])

theorem execAdmitStream_forward (p : Nat) (d : Bytes) (serial : Option Nat) (rsa : Bool) (sig : Bytes) (s : State) :
    s.Forward (execAdmitStream p d serial rsa sig s) :=
  State.forward_of_flows (by simp)

theorem execAdmitRetry_forward (p : Nat) (nonce : Bytes) (s : State) : s.Forward (execAdmitRetry p nonce s) := by
  rw [execAdmitRetry]
  refine State.forward_of_flows ?_
  dsimp only
  split <;> simp

theorem execBootReq_forward (p : Nat) (d : Bytes) (s : State) : s.Forward (execBootReq p d s) := State.forward_of_flows (by simp)

/-! Machine/Colour.lean -/

theorem execOffsetWindowClose_forward (j r code sat : Nat) (s : State) : s.Forward (execOffsetWindowClose j r code sat s) :=
  State.forward_of_flows (by grind [Block.offsetAt_flows, Block.offsetClose_tm, TimeState.Flows.refl])

theorem execMeasureWindowClose_forward (g i flat filt satA satB : Nat) (s : State) :
    s.Forward (execMeasureWindowClose g i flat filt satA satB s) :=
  State.forward_of_flows (by grind [Block.measureClose_flows, TimeState.Flows.refl])

theorem execEpochEnd_forward (s : State) : s.Forward (execEpochEnd s) :=
  State.forward_of_flows (by grind [Block.epochEnd_flows, TimeState.Flows.refl])

theorem execReportSend_forward (s : State) : s.Forward (execReportSend s) :=
  State.forward_of_flows (by grind [Block.advanceTo_flows, Block.sendGroup0_tm, TimeState.Flows.refl])

theorem execColourReport_forward (d : Bytes) (s : State) : s.Forward (execColourReport d s) := State.forward_of_flows (by simp)

theorem execColourDigest_forward (d : Bytes) (s : State) : s.Forward (execColourDigest d s) := State.forward_of_flows (by simp)

theorem execCollectionClose_forward (s : State) : s.Forward (execCollectionClose s) :=
  State.forward_of_flows (by grind [Block.collect_flows, TimeState.Flows.refl])

theorem execDigestClose_forward (s : State) : s.Forward (execDigestClose s) := by
  rw [execDigestClose]
  exact State.forward_of_flows (.ite (Block.decide_flows (.refl _)) (.refl _))

/-! Machine/Chk.lean -/

theorem execChkStart_forward (u : Nat) (v : Word) (s : State) : s.Forward (execChkStart u v s) := State.forward_of_flows (by simp)

theorem execChkMem_forward (u : Nat) (v : Word) (s : State) : s.Forward (execChkMem u v s) := State.forward_of_flows (by simp)

theorem execChkFinish_forward (u : Nat) (v : Word) (s : State) : s.Forward (execChkFinish u v s) := State.forward_of_flows (by simp)

theorem execChkFeed_forward (u : Nat) (v : Word) (s : State) : s.Forward (execChkFeed u v s) := State.forward_of_flows (by simp)

theorem execChkMemDone_forward (u : Nat) (s : State) : s.Forward (execChkMemDone u s) := State.forward_of_flows (by simp)

theorem execChkParameterWrite_forward (u : Nat) (phi : Bool) (v : Word) (s : State) : s.Forward (execChkParameterWrite u phi v s) :=
  State.forward_of_flows (by simp)

theorem execTallyClear_forward (v : Word) (s : State) : s.Forward (execTallyClear v s) := State.forward_of_flows (by simp)

theorem execTallyWrap_forward (n : Nat) (s : State) : s.Forward (execTallyWrap n s) := State.forward_of_flows (by simp)

theorem execGpioTallyIn_forward (levels : Word) (s : State) : s.Forward (execGpioTallyIn levels s) := State.forward_of_flows (by simp)

/-! Machine/Validate.lean -/

theorem execSeqCheckGo_forward (v : Word) (s : State) : s.Forward (execSeqCheckGo v s) := State.forward_of_flows (by simp)

/-! Machine/Pipeline.lean -/

theorem execTableSyncDone_forward (s : State) : s.Forward (execTableSyncDone s) := State.forward_of_flows (by simp)

theorem execWarpPlanGo_forward (v : Word) (s : State) : s.Forward (execWarpPlanGo v s) := State.forward_of_flows (by simp)

theorem execWarpPlanDone_forward (s : State) : s.Forward (execWarpPlanDone s) := State.forward_of_flows (by simp)

theorem execPlanesSealed_forward (s : State) : s.Forward (execPlanesSealed s) := State.forward_of_flows (by simp)

/-! Machine/Ingest.lean -/

theorem execSurfDefine_forward (i : Nat) (s : State) : s.Forward (execSurfDefine i s) := State.forward_of_flows (by simp)

theorem execSurfOpen_forward (i : Nat) (s : State) : s.Forward (execSurfOpen i s) := State.forward_of_flows (by simp)

theorem execSurfClose_forward (i : Nat) (s : State) : s.Forward (execSurfClose i s) := State.forward_of_flows (by simp)

theorem execStoreSurfSelCapture_forward (v : Word) (s : State) : s.Forward (execStoreSurfSelCapture v s) := State.forward_of_flows (by simp)

theorem execCmpOver_forward (n : Nat) (s : State) : s.Forward (execCmpOver n s) :=
  State.forward_of_flows (by grind [Block.abandon_tm, Block.bump_tm, TimeState.Flows.refl])

theorem execDpFrameStart_forward (a : Nat) (s : State) : s.Forward (execDpFrameStart a s) := State.forward_of_flows (by simp)

theorem execDpFrameSealed_forward (a : Nat) (pix : Pixels) (bad : List Nat) (vsc : Option Vsc) (s : State) :
    s.Forward (execDpFrameSealed a pix bad vsc s) :=
  State.forward_of_flows (by simp)

theorem execDpFrameAbandoned_forward (a : Nat) (s : State) : s.Forward (execDpFrameAbandoned a s) := State.forward_of_flows (by simp)

theorem execDpTimingChange_forward (a : Nat) (t : DpTiming) (s : State) : s.Forward (execDpTimingChange a t s) :=
  State.forward_of_flows (by simp)

theorem execDscPpsRefused_forward (a : Nat) (s : State) : s.Forward (execDscPpsRefused a s) := State.forward_of_flows (by simp)

theorem execContentUnit_forward (data : Bytes) (pix : Pixels) (s : State) : s.Forward (execContentUnit data pix s) :=
  State.forward_of_flows (by simp)

theorem execPictureLate_forward (f : Nat) (s : State) : s.Forward (execPictureLate f s) := State.forward_of_flows (by simp)

theorem execNvmeEnSet_forward (linkUp : Bool) (id : NvmeIdent) (s : State) : s.Forward (execNvmeEnSet linkUp id s) :=
  State.forward_of_flows (by simp)

theorem execHfcPush_forward (v : Word) (s : State) : s.Forward (execHfcPush v s) := State.forward_of_flows (by simp)

theorem execNvmeReadDone_forward (status : Nat) (data : Bytes) (pix : Pixels) (s : State) :
    s.Forward (execNvmeReadDone status data pix s) := by
  rw [execNvmeReadDone]
  refine State.forward_of_flows ?_
  dsimp only
  split <;> simp

/-! Machine/Commit.lean -/

theorem execCommitCutoff_forward (s : State) : s.Forward (execCommitCutoff s) := State.forward_of_flows (by simp)

theorem execPageCommitReq_forward (p : Nat) (abort : Bool) (s : State) : s.Forward (execPageCommitReq p abort s) := by
  rw [execPageCommitReq]
  refine State.forward_of_flows (Block.onStrobe_flows (.refl _) (.ite (Block.commitIn_flows ?_ _ _ _) (.refl _)))
  rw [Block.tm_ite, Block.withdraw_tm, ite_self]
  exact .refl _

theorem execPageCommitAbort_forward (p : Nat) (s : State) : s.Forward (execPageCommitAbort p s) := State.forward_of_flows (by simp)

theorem execDevCommitReq_forward (abort : Bool) (s : State) : s.Forward (execDevCommitReq abort s) := by
  rw [execDevCommitReq]
  refine State.forward_of_flows (Block.onStrobe_flows (.refl _) (Block.commitIn_flows ?_ _ _ _))
  rw [Block.tm_ite, Block.withdraw_tm, ite_self]
  exact .refl _

theorem execDevCommitAbort_forward (s : State) : s.Forward (execDevCommitAbort s) := State.forward_of_flows (by simp)

/-! Machine/Hold.lean -/

theorem execRingRecord_forward (coded pps : Bytes) (done : Bool) (s : State) : s.Forward (execRingRecord coded pps done s) :=
  State.forward_of_flows (by simp)

theorem execClearRing_forward (s : State) : s.Forward (execClearRing s) := State.forward_of_flows (by simp)

theorem execRingPlayerDecode_forward (pix : Pixels) (s : State) : s.Forward (execRingPlayerDecode pix s) := State.forward_of_flows (by simp)

theorem execLibraryRead_forward (s : State) : s.Forward (execLibraryRead s) := State.forward_of_flows (by simp)

theorem execHoldCtrlVerify_forward (cseq : Word) (reads : List (Bytes × Bytes)) (s : State) : s.Forward (execHoldCtrlVerify cseq reads s) :=
  State.forward_of_flows (by grind [Block.holdVerify_tm, TimeState.Flows.refl])

theorem execForceRejoin_forward (s : State) : s.Forward (execForceRejoin s) := State.forward_of_flows (by simp)

/-! Machine/Power.lean -/

theorem execBringupFailed_forward (hw : List (Nat × Nat)) (s : State) : s.Forward (execBringupFailed hw s) := by
  rw [execBringupFailed]
  refine State.forward_of_flows ?_
  dsimp only
  (repeat' split) <;> simp

theorem execMaRdyNLow_forward (p : Nat) (s : State) : s.Forward (execMaRdyNLow p s) := State.forward_of_flows (by simp)

theorem execChainEnum_forward (c n : Nat) (ids : List (Word × Word)) (s : State) : s.Forward (execChainEnum c n ids s) :=
  State.forward_of_flows (by simp)

theorem execChainEnumRetry_forward (c n : Nat) (ids : List (Word × Word)) (s : State) : s.Forward (execChainEnumRetry c n ids s) :=
  State.forward_of_flows (by simp)

theorem execStateSetReady_forward (cseq : Word) (s : State) : s.Forward (execStateSetReady cseq s) := State.forward_of_flows (by simp)

theorem execStateSetStandby_forward (cseq : Word) (s : State) : s.Forward (execStateSetStandby cseq s) := State.forward_of_flows (by simp)

theorem execStateSetLit_forward (cseq : Word) (s : State) : s.Forward (execStateSetLit cseq s) := State.forward_of_flows (by simp)

theorem execStateSetExtinguish_forward (cseq : Word) (s : State) : s.Forward (execStateSetExtinguish cseq s) :=
  State.forward_of_flows (by simp)

/-! Machine/Calib.lean -/

theorem execCmdFetch_forward (host : Bytes) (s : State) : s.Forward (execCmdFetch host s) :=
  State.forward_of_flows (by grind [Block.cmdEntry_tm, Block.take_tm, Block.calAccept_tm, Block.fetchFault_tm, TimeState.Flows.refl])

theorem execCalibratePd_forward (cseq : Word) (s : State) : s.Forward (execCalibratePd cseq s) := State.forward_of_flows (by simp)

theorem execCalibratePi_forward (cseq : Word) (s : State) : s.Forward (execCalibratePi cseq s) := State.forward_of_flows (by simp)

theorem execCalibrateScan_forward (cseq : Word) (s : State) : s.Forward (execCalibrateScan cseq s) := State.forward_of_flows (by simp)

theorem execCalibrateDram_forward (cseq : Word) (s : State) : s.Forward (execCalibrateDram cseq s) := State.forward_of_flows (by simp)

theorem execCalibrationResult_forward (d : CalData) (s : State) : s.Forward (execCalibrationResult d s) :=
  State.forward_of_flows (by grind [Block.calibrationResult_flows, TimeState.Flows.refl])

theorem execPrecondLost_forward (s : State) : s.Forward (execPrecondLost s) :=
  State.forward_of_flows (by grind [Block.calStop_tm, TimeState.Flows.refl])

theorem execTrimAbort_forward (v : Word) (s : State) : s.Forward (execTrimAbort v s) := State.forward_of_flows (by simp)

theorem execTrimTimeout_forward (s : State) : s.Forward (execTrimTimeout s) :=
  State.forward_of_flows (by grind [Block.calStop_tm, Block.advance_flows, TimeState.Flows.refl])

theorem execSweepAborted_forward (s : State) : s.Forward (execSweepAborted s) :=
  State.forward_of_flows (by grind [Block.calStop_tm, Block.complete_tm, Block.post_tm, Block.sweepOver_tm, TimeState.Flows.refl])

/-! Machine/Boot.lean -/

theorem execVddAonValid_forward (s : State) : s.Forward (execVddAonValid s) := by
  rw [execVddAonValid]
  refine State.forward_of_runs (.ite (.inl (.refl _)) ?_)
  simp only [Block.place_tm, Block.cause_tm, Block.setRegs_tm]
  exact Block.resetKeep_runs ..

theorem execVddAonLoss_forward (s : State) : s.Forward (execVddAonLoss s) := by
  rw [execVddAonLoss]
  refine State.forward_of_runs (.ite (.inl (.refl _)) ?_)
  simp only [Block.place_tm, Block.setRegs_tm]
  exact Block.resetKeep_runs ..

theorem execPorstNAssert_forward (s : State) : s.Forward (execPorstNAssert s) := by
  rw [execPorstNAssert]
  refine State.forward_of_runs (.ite (.inl (.refl _)) ?_)
  rw [Block.place_tm, Block.cause_tm]
  exact Block.resetKeep_runs ..

theorem execPorstNRelease_forward (src : Nat) (s : State) : s.Forward (execPorstNRelease src s) := State.forward_of_flows (by simp)

theorem execRailOutOfTolerance_forward (rail : Nat) (s : State) : s.Forward (execRailOutOfTolerance rail s) := by
  rw [execRailOutOfTolerance]
  refine State.forward_of_runs (.ite (.inl (.refl _)) ?_)
  rw [Block.setFld_tm, Block.setFld_tm]
  exact Block.resetHold_runs (.refl _) _

theorem execRailsRestored_forward (src : Nat) (s : State) : s.Forward (execRailsRestored src s) := State.forward_of_flows (by simp)

theorem execWarmReset_forward (v : Word) (s : State) : s.Forward (execWarmReset v s) := by
  rw [execWarmReset]
  exact State.forward_of_runs (Block.onStrobe_runs (.refl _) (Block.resetCtrl_runs (.refl _) v))

theorem execFabricResetReq_forward (p src : Nat) (d : Bytes) (s : State) : s.Forward (execFabricResetReq p src d s) := by
  have hrefuse (w : Word) : s.tm.Runs ((s.bumpSat R.PWR_FABRIC_RESET 16 16).post 0x01 0x018 [w]).tm := by
    rw [Block.post_tm, Block.bumpSat_tm]
    exact .inl (.refl _)
  rw [execFabricResetReq]
  exact State.forward_of_runs (.ite (.inl (.refl _)) (.ite (hrefuse _) (.ite (hrefuse _) (.ite (hrefuse _) (Block.warmReset_runs ..)))))

theorem execBootSourceTimeout_forward (timeout : Bool) (s : State) : s.Forward (execBootSourceTimeout timeout s) :=
  State.forward_of_flows (by grind [Block.advance_flows, Block.setReg_tm, Block.setFld_tm, TimeState.Flows.refl])

theorem execBootComplete_forward (f : BootFacts) (s : State) : s.Forward (execBootComplete f s) := by
  rw [execBootComplete]
  rintro t ⟨⟩
  dsimp only
  split
  · exact .inl (Nat.le_refl _)
  · split
    · exact .inr (Block.bootDone_ft ..)
    · exact .inl (Nat.le_refl _)

theorem execPfWarn_forward (s : State) : s.Forward (execPfWarn s) := State.forward_of_flows (by simp)

theorem execPfLaserCut_forward (s : State) : s.Forward (execPfLaserCut s) :=
  State.forward_of_flows (by grind [Block.advance_flows, Block.laserCut_tm, TimeState.Flows.refl])

theorem execPfDeassert_forward (s : State) : s.Forward (execPfDeassert s) := State.forward_of_flows (by simp)

theorem execPfRecovered_forward (s : State) : s.Forward (execPfRecovered s) :=
  State.forward_of_flows (by grind [Block.advance_flows, TimeState.Flows.refl])

theorem execHkRestartRequest_forward (v : Word) (s : State) : s.Forward (execHkRestartRequest v s) := State.forward_of_flows (by simp)

theorem execHkWatchdogExpiry_forward (s : State) : s.Forward (execHkWatchdogExpiry s) := State.forward_of_flows (by simp)

theorem execHkRestartEnd_forward (s : State) : s.Forward (execHkRestartEnd s) := State.forward_of_flows (by simp)

theorem execMgmtLost_forward (s : State) : s.Forward (execMgmtLost s) :=
  State.forward_of_flows (by grind [Block.mgmtGone_flows, TimeState.Flows.refl])

theorem execFwStage_forward (cseq : Word) (host : Option Bytes) (s : State) : s.Forward (execFwStage cseq host s) :=
  State.forward_of_flows (by grind [Block.fwStageStart_tm, TimeState.Flows.refl])

theorem execFwActivateHk_forward (cseq : Word) (s : State) : s.Forward (execFwActivateHk cseq s) := State.forward_of_flows (by simp)

theorem execFwTrialPass_forward (s : State) : s.Forward (execFwTrialPass s) := by
  rw [execFwTrialPass]
  refine State.forward_of_flows ?_
  dsimp only
  split <;> simp

theorem execFwTrialFail_forward (s : State) : s.Forward (execFwTrialFail s) := by
  rw [execFwTrialFail]
  refine State.forward_of_flows ?_
  dsimp only
  split
  next h _ =>
    obtain ⟨t, hdef, ht⟩ : ∃ t, t = s.advance (h.since + 300000000 - s.now) ∧ s.tm.Flows t.tm :=
      ⟨_, rfl, Block.advance_flows (.refl _) _⟩
    rw [← hdef]
    refine .ite (.refl _) ?_
    rw [Block.bootRegs_tm, Block.modSlots_tm]
    exact ht.update
  next => exact .refl _

theorem execFwActivateSv_forward (cseq : Word) (s : State) : s.Forward (execFwActivateSv cseq s) := State.forward_of_flows (by simp)

theorem execSvSelftestDone_forward (ok : Bool) (s : State) : s.Forward (execSvSelftestDone ok s) := State.forward_of_flows (by simp)

theorem execFwActivateRollback_forward (cseq : Word) (s : State) : s.Forward (execFwActivateRollback cseq s) :=
  State.forward_of_flows (by simp)

theorem execSeedWriteDone_forward (s : State) : s.Forward (execSeedWriteDone s) :=
  State.forward_of_flows (by grind [Block.seedCommit_flows, Block.autoClose_tm, Block.complete_tm, Block.calStored_tm, Block.fwStaged_tm,
    Block.ownerWritten_tm, Block.rollbackWritten_tm, TimeState.Flows.refl])

theorem execFirebreakDie_forward (s : State) : s.Forward (execFirebreakDie s) := by
  rw [execFirebreakDie]
  exact State.forward_of_runs (.ite (Block.firebreakDie_runs ..) (.inl (.refl _)))

theorem execFirebreakLaser_forward (g : Nat) (s : State) : s.Forward (execFirebreakLaser g s) :=
  State.forward_of_flows (by grind [Block.firebreakLaser_tm, Block.advance_flows, TimeState.Flows.refl])

/-! Machine/Dtu.lean -/

theorem execDtuWalk_forward (va : Nat) (write : Bool) (client : Nat) (s : State) : s.Forward (execDtuWalk va write client s) :=
  State.forward_of_flows (by simp)

theorem execDtuInvGo_forward (v : Word) (s : State) : s.Forward (execDtuInvGo v s) := State.forward_of_flows (by simp)

theorem execDtuInvDone_forward (s : State) : s.Forward (execDtuInvDone s) := by
  rw [execDtuInvDone]
  refine State.forward_of_flows ?_
  dsimp only
  split <;> simp

theorem execDtuProbe_forward (v : Word) (s : State) : s.Forward (execDtuProbe v s) := State.forward_of_flows (by simp)

/-! Machine/Faults.lean -/

theorem execSafetyInput_forward (i : Nat) (permits : Bool) (s : State) : s.Forward (execSafetyInput i permits s) :=
  State.forward_of_flows (by simp)

theorem execSvDeadman_forward (s : State) : s.Forward (execSvDeadman s) := State.forward_of_flows (by simp)

theorem execSvLockstep_forward (s : State) : s.Forward (execSvLockstep s) := State.forward_of_flows (by simp)

theorem execFaultClear_forward (cseq : Word) (s : State) : s.Forward (execFaultClear cseq s) :=
  State.forward_of_flows (by grind [Block.complete_tm, Block.faultClear_tm, TimeState.Flows.refl])

/-! Machine/Skidder.lean -/

theorem execSkdDescriptorStart_forward (m : Nat) (host : Bytes) (s : State) : s.Forward (execSkdDescriptorStart m host s) :=
  State.forward_of_flows (by simp)

theorem execSkdDescDone_forward (m : Nat) (host : Bytes) (others : Bool) (s : State) : s.Forward (execSkdDescDone m host others s) :=
  State.forward_of_flows (by grind [Block.moveTo_tm, Block.skdFinish_tm, TimeState.Flows.refl])

theorem execSkdPreempt_forward (m upto : Nat) (host hostDesc : Bytes) (s : State) : s.Forward (execSkdPreempt m upto host hostDesc s) :=
  State.forward_of_flows (by grind [Block.moveTo_tm, Block.modSkd_tm, Block.skdRelease_tm, Block.skdStart_tm, Block.post_tm,
    TimeState.Flows.refl])

theorem execSkdFault_forward (m upto detail : Nat) (dst : Bool) (host : Bytes) (s : State) :
    s.Forward (execSkdFault m upto detail dst host s) :=
  State.forward_of_flows (by simp)

theorem execSkdHostTimeout_forward (m upto : Nat) (dst : Bool) (host : Bytes) (s : State) :
    s.Forward (execSkdHostTimeout m upto dst host s) :=
  State.forward_of_flows (by simp)

theorem execSkdOpResume_forward (c : Nat) (s : State) : s.Forward (execSkdOpResume c s) := State.forward_of_flows (by simp)

theorem execSkdOpSkip_forward (c : Nat) (s : State) : s.Forward (execSkdOpSkip c s) := State.forward_of_flows (by simp)

theorem execSkdOpAbort_forward (c : Nat) (host : Bytes) (s : State) : s.Forward (execSkdOpAbort c host s) :=
  State.forward_of_flows (by simp)

theorem execSkdOpResync_forward (c : Nat) (s : State) : s.Forward (execSkdOpResync c s) := State.forward_of_flows (by simp)

theorem execSkdChEnable_forward (c : Nat) (v : Word) (host : Bytes) (s : State) : s.Forward (execSkdChEnable c v host s) :=
  State.forward_of_flows (by simp)

theorem execSkdChTailWrite_forward (c : Nat) (v : Word) (s : State) : s.Forward (execSkdChTailWrite c v s) :=
  State.forward_of_flows (by simp)

theorem execSkdCtxCapture_forward (v : Word) (s : State) : s.Forward (execSkdCtxCapture v s) := State.forward_of_flows (by simp)

/-! Machine/Cue.lean -/

theorem execCueContextWrite_forward (i w : Nat) (v : Word) (s : State) : s.Forward (execCueContextWrite i w v s) :=
  State.forward_of_flows (by simp)

theorem execCueOpArm_forward (v : Word) (s : State) : s.Forward (execCueOpArm v s) := State.forward_of_flows (by simp)

theorem execCueOpCancel_forward (v : Word) (s : State) : s.Forward (execCueOpCancel v s) := State.forward_of_flows (by simp)

theorem execCueOpCancelAll_forward (v : Word) (s : State) : s.Forward (execCueOpCancelAll v s) := by
  rw [execCueOpCancelAll]
  refine State.forward_of_flows (Block.onStrobe_flows (.refl _) ?_)
  rw [Block.cancelAll_tm]
  exact .refl _

theorem execCueActionFetch_forward (bad : List Nat) (s : State) : s.Forward (execCueActionFetch bad s) := State.forward_of_flows (by simp)

theorem execCueFiring_forward (bad : List Nat) (s : State) : s.Forward (execCueFiring bad s) := State.forward_of_flows (by simp)

theorem execCueFrame_forward (src : Nat) (d : Bytes) (s : State) : s.Forward (execCueFrame src d s) := State.forward_of_flows (by simp)

theorem execFineCueTick_forward (bad : Bool) (s : State) : s.Forward (execFineCueTick bad s) :=
  State.forward_of_flows (by grind [Block.fineCue_flows, TimeState.Flows.refl])

/-! Machine/HostAccess.lean -/

theorem execRegisterWrite_forward (a : Nat) (v : Word) (s : State) : s.Forward (execRegisterWrite a v s) := by
  rw [execRegisterWrite]
  exact State.forward_of_runs (Block.onStrobe_runs (.refl _) (.ite (Block.barWrite_runs (.refl _) a v) (.inl (.refl _))))

theorem execUnsupportedAccess_forward (a size : Nat) (w : Option Bytes) (s : State) : s.Forward (execUnsupportedAccess a size w s) := by
  rw [execUnsupportedAccess]
  refine State.forward_of_runs (.ite (Block.oddAccess_runs (.refl _) a size w) (.ite ?_ (.inl (.refl _))))
  rw [Block.emit_tm]
  exact .inl (.refl _)

theorem execWindowWrite_forward (off : Nat) (data : Bytes) (s : State) : s.Forward (execWindowWrite off data s) :=
  State.forward_of_flows (by simp)

theorem execWindowDataAccess_forward (a : Nat) (w : Option Word) (s : State) : s.Forward (execWindowDataAccess a w s) := by
  rw [execWindowDataAccess]
  refine State.forward_of_flows (Block.onStrobe_flows (.refl _) ?_)
  split
  · exact Block.put_flows (.refl _) _ _
  · rw [Block.winStep_tm]
    exact .refl _
  · exact .refl _

theorem execPageEnableWrite_forward (p : Nat) (en : Bool) (s : State) : s.Forward (execPageEnableWrite p en s) :=
  State.forward_of_flows (by simp)

theorem execSoftReset_forward (p : Nat) (s : State) : s.Forward (execSoftReset p s) := by
  rw [execSoftReset]
  exact State.forward_of_flows (.ite (.refl _) (Block.onWrite_flows (.refl _) _ (Block.softReset_flows (.refl _) p)))

theorem execSoftResetDone_forward (p : Nat) (s : State) : s.Forward (execSoftResetDone p s) := State.forward_of_flows (by simp)

theorem execPageFreeze_forward (p : Nat) (on : Bool) (s : State) : s.Forward (execPageFreeze p on s) := State.forward_of_flows (by simp)

theorem execPageLockWrite_forward (p : Nat) (v : Word) (s : State) : s.Forward (execPageLockWrite p v s) := State.forward_of_flows (by simp)

theorem execIntStatusClear_forward (p : Nat) (v : Word) (s : State) : s.Forward (execIntStatusClear p v s) :=
  State.forward_of_flows (by simp)

theorem execIntForce_forward (p : Nat) (v : Word) (s : State) : s.Forward (execIntForce p v s) := State.forward_of_flows (by simp)

/-! Machine/Boundary.lean -/

theorem execFrameBoundary_forward (s : State) : s.Forward (execFrameBoundary s) := by
  rintro t ⟨⟩
  exact .inl s.frameBoundary_ft_le

theorem execSnapshotCapture_forward (xok : Bool) (s : State) : s.Forward (execSnapshotCapture xok s) := State.forward_of_flows (by simp)

/-! Machine/HostLink.lean -/

theorem execUsb4LinkChange_forward (l : LinkState) (s : State) : s.Forward (execUsb4LinkChange l s) := State.forward_of_flows (by simp)

theorem execUnsupportedOffer_forward (code a : Nat) (s : State) : s.Forward (execUnsupportedOffer code a s) :=
  State.forward_of_flows (by simp)

theorem execFunctionLevelReset_forward (s : State) : s.Forward (execFunctionLevelReset s) := State.forward_of_flows (by simp)

theorem execPciePowerStateChange_forward (d3 : Bool) (cfg : PcieCfg) (s : State) : s.Forward (execPciePowerStateChange d3 cfg s) :=
  State.forward_of_flows (by simp)

theorem execPanelReplayEntry_forward (a : Nat) (s : State) : s.Forward (execPanelReplayEntry a s) := State.forward_of_flows (by simp)

theorem execPanelReplayUpdate_forward (a : Nat) (s : State) : s.Forward (execPanelReplayUpdate a s) := State.forward_of_flows (by simp)

theorem execUsb2Request_forward (r : UsbRequest) (s : State) : s.Forward (execUsb2Request r s) := by
  rw [execUsb2Request]
  exact State.forward_of_runs (Block.usb2_runs (.refl _) r)

theorem execUsb2SummaryDelivery_forward (s : State) : s.Forward (execUsb2SummaryDelivery s) := State.forward_of_flows (by simp)

theorem execRefclkFailure_forward (s : State) : s.Forward (execRefclkFailure s) := by
  rw [execRefclkFailure]
  exact State.forward_of_runs (.ite (Block.resetHold_runs (.refl _) (some 2)) (.inl (.refl _)))

theorem execRefclkRecovered_forward (src : Nat) (s : State) : s.Forward (execRefclkRecovered src s) := State.forward_of_flows (by simp)

theorem execXtal25Fault_forward (s : State) : s.Forward (execXtal25Fault s) := by
  rw [execXtal25Fault]
  exact State.forward_of_runs (.ite (Block.resetHold_runs (.refl _) none) (.inl (.refl _)))

theorem execXtal25Recovered_forward (src : Nat) (s : State) : s.Forward (execXtal25Recovered src s) := State.forward_of_flows (by simp)

/-- The dispatcher runs one of these commands. -/
theorem exec_forward (c : Instr) (s : State) : s.Forward (exec c s) :=
  match c with
  | .frameBoundary => execFrameBoundary_forward s
  | .commitCutoff => execCommitCutoff_forward s
  | .preloadStart => execPreloadStart_forward s
  | .darkIntervalStart => execDarkIntervalStart_forward s
  | .slotStart g ev => execSlotStart_forward g ev s
  | .kerfEnd g rdyLow seenHigh => execKerfEnd_forward g rdyLow seenHigh s
  | .lastDwellEnd g ev => execLastDwellEnd_forward g ev s
  | .planeLoadStart p => execPlaneLoadStart_forward p s
  | .planeLoadEnd p => execPlaneLoadEnd_forward p s
  | .fifoUnderrun p => execFifoUnderrun_forward p s
  | .measureWindowClose g idx flat filt satA satB => execMeasureWindowClose_forward g idx flat filt satA satB s
  | .offsetWindowClose j r code sat => execOffsetWindowClose_forward j r code sat s
  | .loopSample slot y v => execLoopSample_forward slot y v s
  | .stateScrub errs => execStateScrub_forward errs s
  | .wheelFault kind last => execWheelFault_forward kind last s
  | .thermCeilingLost g => execThermCeilingLost_forward g s
  | .overCurrentTrip n => execOverCurrentTrip_forward n s
  | .faultInput n => execFaultInput_forward n s
  | .spareTakeover g => execSpareTakeover_forward g s
  | .coldSpareHot m => execColdSpareHot_forward m s
  | .probeDue m => execProbeDue_forward m s
  | .probeRun g res => execProbeRun_forward g res s
  | .probeStarved m => execProbeStarved_forward m s
  | .chainTableLoad c => execChainTableLoad_forward c s
  | .chainShiftDone c ret => execChainShiftDone_forward c ret s
  | .chainEnum c n ids => execChainEnum_forward c n ids s
  | .chainEnumRetry c n ids => execChainEnumRetry_forward c n ids s
  | .pageCommitReq p abort => execPageCommitReq_forward p abort s
  | .pageCommitAbort p => execPageCommitAbort_forward p s
  | .devCommitReq abort => execDevCommitReq_forward abort s
  | .devCommitAbort => execDevCommitAbort_forward s
  | .registerWrite a v => execRegisterWrite_forward a v s
  | .unsupportedAccess a size w => execUnsupportedAccess_forward a size w s
  | .windowWrite off data => execWindowWrite_forward off data s
  | .windowDataAccess a w => execWindowDataAccess_forward a w s
  | .timeFtLoRead => execTimeFtLoRead_forward s
  | .timeCutoffLoRead => execTimeCutoffLoRead_forward s
  | .tallySnapLoRead n => execTallySnapLoRead_forward n s
  | .pageEnableWrite p en => execPageEnableWrite_forward p en s
  | .softReset p => execSoftReset_forward p s
  | .softResetDone p => execSoftResetDone_forward p s
  | .pageFreeze p on => execPageFreeze_forward p on s
  | .pageLockWrite p v => execPageLockWrite_forward p v s
  | .intStatusClear p v => execIntStatusClear_forward p v s
  | .intForce p v => execIntForce_forward p v s
  | .evtModTimeout => execEvtModTimeout_forward s
  | .ringEvtHeadWrite v => execRingEvtHeadWrite_forward v s
  | .ringCmdTailWrite v => execRingCmdTailWrite_forward v s
  | .cmdEnSet => execCmdEnSet_forward s
  | .cmdEnClear => execCmdEnClear_forward s
  | .evtEnSet => execEvtEnSet_forward s
  | .evtEnClear => execEvtEnClear_forward s
  | .ringCmdResync v => execRingCmdResync_forward v s
  | .cmdFetch host => execCmdFetch_forward host s
  | .cmdFetchFault kind => execCmdFetchFault_forward kind s
  | .eventWrite => execEventWrite_forward s
  | .eventWriteFault => execEventWriteFault_forward s
  | .nop cseq => execNop_forward cseq s
  | .badOpcode cseq => execBadOpcode_forward cseq s
  | .snapshot cseq => execSnapshot_forward cseq s
  | .snapshotCapture xok => execSnapshotCapture_forward xok s
  | .stateSetReady cseq => execStateSetReady_forward cseq s
  | .bringupFailed hw => execBringupFailed_forward hw s
  | .stateSetStandby cseq => execStateSetStandby_forward cseq s
  | .stateSetLit cseq => execStateSetLit_forward cseq s
  | .stateSetExtinguish cseq => execStateSetExtinguish_forward cseq s
  | .fwStage cseq host => execFwStage_forward cseq host s
  | .fwActivateHk cseq => execFwActivateHk_forward cseq s
  | .fwActivateSv cseq => execFwActivateSv_forward cseq s
  | .fwActivateRollback cseq => execFwActivateRollback_forward cseq s
  | .fwTrialPass => execFwTrialPass_forward s
  | .fwTrialFail => execFwTrialFail_forward s
  | .svSelftestDone ok => execSvSelftestDone_forward ok s
  | .hkRestartRequest v => execHkRestartRequest_forward v s
  | .hkWatchdogExpiry => execHkWatchdogExpiry_forward s
  | .hkRestartEnd => execHkRestartEnd_forward s
  | .mgmtLost => execMgmtLost_forward s
  | .calibratePd cseq => execCalibratePd_forward cseq s
  | .calibratePi cseq => execCalibratePi_forward cseq s
  | .calibrateScan cseq => execCalibrateScan_forward cseq s
  | .calibrateDram cseq => execCalibrateDram_forward cseq s
  | .calibrationResult d => execCalibrationResult_forward d s
  | .precondLost => execPrecondLost_forward s
  | .trimAbort v => execTrimAbort_forward v s
  | .trimTimeout => execTrimTimeout_forward s
  | .seedStore cseq host => execSeedStore_forward cseq host s
  | .seedLoad cseq xok => execSeedLoad_forward cseq xok s
  | .attest cseq sig xok => execAttest_forward cseq sig xok s
  | .ownerKeyInstall cseq host => execOwnerKeyInstall_forward cseq host s
  | .ownerKeyRevoke cseq host => execOwnerKeyRevoke_forward cseq host s
  | .ownerKeyPolicyOn cseq host => execOwnerKeyPolicyOn_forward cseq host s
  | .ownerKeyRestore cseq host => execOwnerKeyRestore_forward cseq host s
  | .timecode cseq => execTimecode_forward cseq s
  | .tcFreewheelExpiry => execTcFreewheelExpiry_forward s
  | .fabricSend cseq host => execFabricSend_forward cseq host s
  | .holdCtrlVerify cseq reads => execHoldCtrlVerify_forward cseq reads s
  | .dramSweep cseq pass xok => execDramSweep_forward cseq pass xok s
  | .sweepAborted => execSweepAborted_forward s
  | .faultClear cseq => execFaultClear_forward cseq s
  | .timeFtSetHiWrite v => execTimeFtSetHiWrite_forward v s
  | .timeFtSetLoWrite v => execTimeFtSetLoWrite_forward v s
  | .timeCtrlWrite v => execTimeCtrlWrite_forward v s
  | .timeSourceLost => execTimeSourceLost_forward s
  | .timeSourceRequalified => execTimeSourceRequalified_forward s
  | .fsyncInEdge after => execFsyncInEdge_forward after s
  | .vddAonValid => execVddAonValid_forward s
  | .vddAonLoss => execVddAonLoss_forward s
  | .porstNAssert => execPorstNAssert_forward s
  | .porstNRelease src => execPorstNRelease_forward src s
  | .bootSourceTimeout timeout => execBootSourceTimeout_forward timeout s
  | .bootComplete f => execBootComplete_forward f s
  | .railOutOfTolerance rail => execRailOutOfTolerance_forward rail s
  | .railsRestored src => execRailsRestored_forward src s
  | .pfWarn => execPfWarn_forward s
  | .pfLaserCut => execPfLaserCut_forward s
  | .pfDeassert => execPfDeassert_forward s
  | .pfRecovered => execPfRecovered_forward s
  | .warmReset v => execWarmReset_forward v s
  | .fabricResetReq p src d => execFabricResetReq_forward p src d s
  | .usb4LinkChange l => execUsb4LinkChange_forward l s
  | .unsupportedOffer code a => execUnsupportedOffer_forward code a s
  | .functionLevelReset => execFunctionLevelReset_forward s
  | .dpFrameStart a => execDpFrameStart_forward a s
  | .dpFrameSealed a pix bad vsc => execDpFrameSealed_forward a pix bad vsc s
  | .dpFrameAbandoned a => execDpFrameAbandoned_forward a s
  | .dpTimingChange a t => execDpTimingChange_forward a t s
  | .dscPpsRefused a => execDscPpsRefused_forward a s
  | .panelReplayEntry a => execPanelReplayEntry_forward a s
  | .panelReplayUpdate a => execPanelReplayUpdate_forward a s
  | .usb2Request r => execUsb2Request_forward r s
  | .usb2SummaryDelivery => execUsb2SummaryDelivery_forward s
  | .skdChTailWrite c v => execSkdChTailWrite_forward c v s
  | .skdDescriptorStart m host => execSkdDescriptorStart_forward m host s
  | .skdPreempt m upto host hostDesc => execSkdPreempt_forward m upto host hostDesc s
  | .skdFault m upto detail dst host => execSkdFault_forward m upto detail dst host s
  | .skdHostTimeout m upto dst host => execSkdHostTimeout_forward m upto dst host s
  | .skdDescDone m host others => execSkdDescDone_forward m host others s
  | .skdOpResume c => execSkdOpResume_forward c s
  | .skdOpSkip c => execSkdOpSkip_forward c s
  | .skdOpAbort c host => execSkdOpAbort_forward c host s
  | .skdOpResync c => execSkdOpResync_forward c s
  | .skdChEnable c v host => execSkdChEnable_forward c v host s
  | .skdCtxCapture v => execSkdCtxCapture_forward v s
  | .dtuWalk va write client => execDtuWalk_forward va write client s
  | .dtuInvGo v => execDtuInvGo_forward v s
  | .dtuInvDone => execDtuInvDone_forward s
  | .dtuProbe v => execDtuProbe_forward v s
  | .surfDefine idx => execSurfDefine_forward idx s
  | .surfOpen idx => execSurfOpen_forward idx s
  | .surfClose idx => execSurfClose_forward idx s
  | .storeSurfSelCapture v => execStoreSurfSelCapture_forward v s
  | .cmpOver n => execCmpOver_forward n s
  | .contentUnit data pix => execContentUnit_forward data pix s
  | .pictureLate f => execPictureLate_forward f s
  | .nvmeEnSet linkUp id => execNvmeEnSet_forward linkUp id s
  | .nvmeReadDone status data pix => execNvmeReadDone_forward status data pix s
  | .hfcPush v => execHfcPush_forward v s
  | .warpPlanGo v => execWarpPlanGo_forward v s
  | .warpPlanDone => execWarpPlanDone_forward s
  | .tableSyncDone => execTableSyncDone_forward s
  | .planesSealed => execPlanesSealed_forward s
  | .seqCheckGo v => execSeqCheckGo_forward v s
  | .lsgPiCheckGo => execLsgPiCheckGo_forward s
  | .ident p d => execIdent_forward p d s
  | .linkStatus p state lane skew order => execLinkStatus_forward p state lane skew order s
  | .planeAck p slot plane status fsn arrDiff tapDiff => execPlaneAck_forward p slot plane status fsn arrDiff tapDiff s
  | .arrayTemp p temp => execArrayTemp_forward p temp s
  | .arrayStatus p code sev detail => execArrayStatus_forward p code sev detail s
  | .echoReply p token => execEchoReply_forward p token s
  | .backchannelBadMessage p => execBackchannelBadMessage_forward p s
  | .ackMissing p slot => execAckMissing_forward p slot s
  | .bcLost p => execBcLost_forward p s
  | .bcLostLong p => execBcLostLong_forward p s
  | .maRdyNLow p => execMaRdyNLow_forward p s
  | .arrayReset p => execArrayReset_forward p s
  | .maRetrain p => execMaRetrain_forward p s
  | .maIdentReq p => execMaIdentReq_forward p s
  | .trainingAttemptTimeout p => execTrainingAttemptTimeout_forward p s
  | .darkTrainingTimeout p => execDarkTrainingTimeout_forward p s
  | .fastAxisEnable => execFastAxisEnable_forward s
  | .resonanceFound freq => execResonanceFound_forward freq s
  | .handoverTimeout => execHandoverTimeout_forward s
  | .fastAxisLocked => execFastAxisLocked_forward s
  | .lockFail => execLockFail_forward s
  | .lockLoss cause => execLockLoss_forward cause s
  | .relockTimeout => execRelockTimeout_forward s
  | .zeroCrossing before after => execZeroCrossing_forward before after s
  | .dacSample => execDacSample_forward s
  | .zoneBucketBoundary => execZoneBucketBoundary_forward s
  | .beamCut cause => execBeamCut_forward cause s
  | .highlineTargetChange => execHighlineTargetChange_forward s
  | .highlineArrival => execHighlineArrival_forward s
  | .rowDrawn => execRowDrawn_forward s
  | .drawingWindowEnd => execDrawingWindowEnd_forward s
  | .rowToleranceExit => execRowToleranceExit_forward s
  | .tsConversion t => execTsConversion_forward t s
  | .ntcConversion j c => execNtcConversion_forward j c s
  | .laserModelUpdate => execLaserModelUpdate_forward s
  | .firebreakDie => execFirebreakDie_forward s
  | .firebreakLaser g => execFirebreakLaser_forward g s
  | .dramStepDownRequest => execDramStepDownRequest_forward s
  | .dramStepUpRequest => execDramStepUpRequest_forward s
  | .dramFreqChangeStart => execDramFreqChangeStart_forward s
  | .pairFreqChange q => execPairFreqChange_forward q s
  | .dramFreqWait q => execDramFreqWait_forward q s
  | .slackSample q v arr => execSlackSample_forward q v arr s
  | .refreshDue ch idle => execRefreshDue_forward ch idle s
  | .refreshRatePoll ch val above => execRefreshRatePoll_forward ch val above s
  | .driftTrim ch n => execDriftTrim_forward ch n s
  | .dramScrubRead result => execDramScrubRead_forward result s
  | .dramUe addr client errs => execDramUe_forward addr client errs s
  | .dramCe addr errs => execDramCe_forward addr errs s
  | .selfRefreshEntry q => execSelfRefreshEntry_forward q s
  | .selfRefreshExit q held => execSelfRefreshExit_forward q held s
  | .pairOutOfService q => execPairOutOfService_forward q s
  | .seedRecordWrite n => execSeedRecordWrite_forward n s
  | .seedWriteDone => execSeedWriteDone_forward s
  | .seedChkOnly ty slot => execSeedChkOnly_forward ty slot s
  | .reservedSlotWrite n => execReservedSlotWrite_forward n s
  | .seedScrubRead result => execSeedScrubRead_forward result s
  | .seedSelCapture v => execSeedSelCapture_forward v s
  | .jtagNewChallenge random => execJtagNewChallenge_forward random s
  | .jtagResponse modulus scope sig => execJtagResponse_forward modulus scope sig s
  | .jtagChallengeExpiry => execJtagChallengeExpiry_forward s
  | .fabricFrameReceived p data corr uncorr => execFabricFrameReceived_forward p data corr uncorr s
  | .linkCtrl p d => execLinkCtrl_forward p d s
  | .linkCtrlSend p => execLinkCtrlSend_forward p s
  | .retryTimeout p => execRetryTimeout_forward p s
  | .fabricLinkUp p nonce => execFabricLinkUp_forward p nonce s
  | .creditAudit p d => execCreditAudit_forward p d s
  | .alignmentTimeout p => execAlignmentTimeout_forward p s
  | .moduleInserted p id temp => execModuleInserted_forward p id temp s
  | .modulePoll p flags temp alarm los => execModulePoll_forward p flags temp alarm los s
  | .hello p d => execHello_forward p d s
  | .helloSend p => execHelloSend_forward p s
  | .neighbourDown p loss => execNeighbourDown_forward p loss s
  | .lsa p d => execLsa_forward p d s
  | .lsaOriginate => execLsaOriginate_forward s
  | .lsaAgeOut uid => execLsaAgeOut_forward uid s
  | .rootAndAddresses => execRootAndAddresses_forward s
  | .assign p d => execAssign_forward p d s
  | .spfHoldExpiry => execSpfHoldExpiry_forward s
  | .routeSwap ms => execRouteSwap_forward ms s
  | .altFailover p => execAltFailover_forward p s
  | .sync p d stamp => execSync_forward p d stamp s
  | .syncSend => execSyncSend_forward s
  | .pdelayExchange p kind pseq t1 t2 t3 t4 => execPdelayExchange_forward p kind pseq t1 t2 t3 t4 s
  | .admitStream p d serial rsa sig => execAdmitStream_forward p d serial rsa sig s
  | .admitRetry p nonce => execAdmitRetry_forward p nonce s
  | .bootReq p d => execBootReq_forward p d s
  | .hostFrameRx frame => execHostFrameRx_forward frame s
  | .colourReport d => execColourReport_forward d s
  | .colourDigest d => execColourDigest_forward d s
  | .epochEnd => execEpochEnd_forward s
  | .reportSend => execReportSend_forward s
  | .collectionClose => execCollectionClose_forward s
  | .digestClose => execDigestClose_forward s
  | .cueContextWrite idx w v => execCueContextWrite_forward idx w v s
  | .cueOpArm v => execCueOpArm_forward v s
  | .cueOpCancel v => execCueOpCancel_forward v s
  | .cueOpCancelAll v => execCueOpCancelAll_forward v s
  | .cueActionFetch bad => execCueActionFetch_forward bad s
  | .cueFiring bad => execCueFiring_forward bad s
  | .fineCueTick bad => execFineCueTick_forward bad s
  | .cueFrame src d => execCueFrame_forward src d s
  | .ringRecord coded pps done => execRingRecord_forward coded pps done s
  | .ringPlayerDecode pix => execRingPlayerDecode_forward pix s
  | .libraryRead => execLibraryRead_forward s
  | .forceRejoin => execForceRejoin_forward s
  | .clearRing => execClearRing_forward s
  | .chkStart u v => execChkStart_forward u v s
  | .chkFeed u v => execChkFeed_forward u v s
  | .chkMem u v => execChkMem_forward u v s
  | .chkMemDone u => execChkMemDone_forward u s
  | .chkFinish u v => execChkFinish_forward u v s
  | .chkParameterWrite u phi v => execChkParameterWrite_forward u phi v s
  | .tallyClear v => execTallyClear_forward v s
  | .tallyWrap n => execTallyWrap_forward n s
  | .gpioTallyIn levels => execGpioTallyIn_forward levels s
  | .safetyInput idx permits => execSafetyInput_forward idx permits s
  | .svDeadman => execSvDeadman_forward s
  | .svLockstep => execSvLockstep_forward s
  | .refclkFailure => execRefclkFailure_forward s
  | .refclkRecovered src => execRefclkRecovered_forward src s
  | .xtal25Fault => execXtal25Fault_forward s
  | .bcRegained p => execBcRegained_forward p s
  | .moduleRemoved p => execModuleRemoved_forward p s
  | .xtal25Recovered src => execXtal25Recovered_forward src s
  | .pciePowerStateChange d3 cfg => execPciePowerStateChange_forward d3 cfg s

/-- Settles O60: an idle step lets a nanosecond pass, and every command leaves FT at or after what it was, or at 0. -/
theorem fabricTimeRunsForward : Obligations.FabricTimeRunsForward := by
  intro s t hstep
  rcases hpending : s.pending with _ | ⟨c, rest⟩
  · rw [step, hpending] at hstep
    obtain rfl := Host.Outcome.next.inj hstep
    exact .inl (Block.advance_flows (.refl _) 1).ft_le
  · rw [step, hpending] at hstep
    exact exec_forward c { s with pending := rest } t hstep

end Sys2Proof.Machine

namespace Sys2Proof.Machine

/-- Settles O1: a step with a command in front is its `exec` by definition. -/
theorem stepRunsFront : Obligations.StepRunsFront := fun _ _ _ => rfl

/-- Settles O54: by what a step with a command in front, and an idle one, leave. -/
theorem everyStepAnswersNext : Obligations.EveryStepAnswersNext := by
  rintro ⟨b, pending⟩
  cases pending with
  | nil => exact ⟨_, step_nil b, rfl⟩
  | cons c q => exact ⟨_, step_cons c b q, rfl⟩

/-- A run goes on from what its first step leaves. -/
theorem run_succ_of_next {M : Host.Core} {s t : M.State} {k : Nat} (h : M.step s = .next t) : M.run (k + 1) s = M.run k t := by
  simp only [Host.Core.run, h]

/-- Settles O55, by induction on the row: its first command is in front, and leaves the block on which the rest of the row runs. -/
theorem queueRunsInOrder : Obligations.QueueRunsInOrder := by
  intro b l m
  induction l generalizing b with
  | nil => rfl
  | cons c l ih =>
    have hfront : Sys2Proof.core.step ⟨b, c :: (l ++ m)⟩ = .next ⟨effect c b, l ++ m⟩ := step_cons c b (l ++ m)
    exact (run_succ_of_next hfront).trans (ih (effect c b))

/-- Settles O57: the reset state lists no register and no byte, and its lists of units are written out. -/
theorem resetIsWellFormed : Obligations.ResetIsWellFormed :=
  ⟨State.reset_regsWf, State.reset_dramWf, ⟨rfl, rfl, rfl, rfl, rfl, rfl, rfl, rfl⟩, rfl, rfl⟩
/-!
What keeps the register store and the DRAM canonical: one rule for each operation of the model, in the order of the model. A rule takes
the block before, so that a rule's proof is the operation's own composition.
-/

/-- Are the register store and the DRAM of a block in their canonical forms? -/
structure Block.Canonical (s : Block) : Prop where
  regs_wf : s.regsWf = true
  dram_wf : s.dramWf = true

section
variable {s : Block}

/-- An update of the other fields leaves both stores. -/
theorem Block.Canonical.update (h : s.Canonical) {frozen now free out tm cm rg pw bt fl pins ty chk hs sk dt sf pp ma sc ls cp th dc se tr
    ca fb cu ho co} :
    Block.Canonical ⟨s.regs, frozen, now, free, out, tm, cm, rg, pw, bt, fl, pins, ty, chk, hs, sk, dt, s.dram, sf, pp, ma, sc, ls, cp, th,
      dc, se, tr, ca, fb, cu, ho, co⟩ := ⟨h.regs_wf, h.dram_wf⟩

/-- Registers that go back to their reset values leave the others in order. -/
theorem Block.Canonical.dropRegs (h : s.Canonical) {kept : Nat × Word → Bool} {frozen} :
    Block.Canonical { s with regs := s.regs.filter kept, frozen := frozen } := ⟨swf_filter _ h.regs_wf _, h.dram_wf⟩

theorem Block.Canonical.ite {t : Block} {c : Prop} {_ : Decidable c} (h : s.Canonical) (ht : t.Canonical) :
    (if c then s else t).Canonical := by
  split
  · exact h
  · exact ht

theorem Block.Canonical.foldl {α : Type} {f : Block → α → Block} {l : List α} (h : s.Canonical)
    (hf : ∀ t x, t.Canonical → (f t x).Canonical) : (l.foldl f s).Canonical := by
  induction l generalizing s with
  | nil => exact h
  | cons x l ih => exact ih (hf _ _ h)

theorem Block.Canonical.foldl_fst {α β : Type} {f : Block × β → α → Block × β} {l : List α} {y : β} (h : s.Canonical)
    (hf : ∀ r x, r.1.Canonical → (f r x).1.Canonical) : (l.foldl f (s, y)).1.Canonical := by
  induction l generalizing s y with
  | nil => exact h
  | cons x l ih => exact ih (hf _ _ h)

theorem Block.Canonical.foldl_snd {α β : Type} {f : β × Block → α → β × Block} {l : List α} {y : β} (h : s.Canonical)
    (hf : ∀ r x, r.2.Canonical → (f r x).2.Canonical) : (l.foldl f (y, s)).2.Canonical := by
  induction l generalizing s y with
  | nil => exact h
  | cons x l ih => exact ih (hf _ _ h)

theorem Block.Canonical.ite_fst {α : Type} {x y : Block × α} {c : Prop} {_ : Decidable c} (hx : x.1.Canonical) (hy : y.1.Canonical) :
    (if c then x else y).1.Canonical := by
  split
  · exact hx
  · exact hy

theorem Block.Canonical.ite_snd {α : Type} {x y : α × Block} {c : Prop} {_ : Decidable c} (hx : x.2.Canonical) (hy : y.2.Canonical) :
    (if c then x else y).2.Canonical := by
  split
  · exact hx
  · exact hy

/-- The block of a pair that is taken apart. -/
theorem Block.Canonical.of_fst {α : Type} {r : Block × α} {t : Block} {x : α} (hr : r = (t, x)) (h : r.1.Canonical) : t.Canonical := by
  rwa [hr] at h

theorem Block.Canonical.of_snd {α : Type} {r : α × Block} {t : Block} {x : α} (hr : r = (x, t)) (h : r.2.Canonical) : t.Canonical := by
  rwa [hr] at h

theorem Block.Canonical.getD {o : Option Block} (ho : ∀ t ∈ o, t.Canonical) (h : s.Canonical) : (o.getD s).Canonical := by
  cases o with
  | none => exact h
  | some t => exact ho t rfl

/-! Machine/Ops.lean -/

theorem Block.Canonical.setReg (h : s.Canonical) {a v} : (s.setReg a v).Canonical := ⟨Block.regsWf_setReg h.regs_wf a v, h.dram_wf⟩
theorem Block.Canonical.setRegs (h : s.Canonical) {l} : (s.setRegs l).Canonical := ⟨Block.regsWf_setRegs h.regs_wf l, h.dram_wf⟩
theorem Block.Canonical.setFld (h : s.Canonical) {a lo w x} : (s.setFld a lo w x).Canonical := h.setReg
theorem Block.Canonical.bump (h : s.Canonical) {a n} : (s.bump a n).Canonical := h.setReg
theorem Block.Canonical.bumpSat (h : s.Canonical) {a lo w} : (s.bumpSat a lo w).Canonical := h.setFld

theorem Block.Canonical.emit (h : s.Canonical) {o} : (s.emit o).Canonical := h.update

theorem Block.Canonical.applyVals (h : s.Canonical) {side pages vals} : (s.applyVals side pages vals).Canonical :=
  ⟨Block.regsWf_applyVals h.regs_wf side pages vals, h.dram_wf⟩

theorem Block.Canonical.tally (h : s.Canonical) {ty inst} : (s.tally ty inst).Canonical := h.update

theorem Block.Canonical.postI (h : s.Canonical) {page ty cls inst cmd data} : (s.postI page ty cls inst cmd data).Canonical :=
  .ite h.tally.update h.tally

theorem Block.Canonical.post (h : s.Canonical) {page ty data} : (s.post page ty data).Canonical := h.postI
theorem Block.Canonical.postTally (h : s.Canonical) {ty inst} : (s.postTally ty inst).Canonical := h.tally
theorem Block.Canonical.message (h : s.Canonical) {v} : (s.message v).Canonical := .ite h.emit (.ite h.update h)
theorem Block.Canonical.unpend (h : s.Canonical) {v} : (s.unpend v).Canonical := h.update

theorem Block.Canonical.withInt {f : Block → Block} (h : s.Canonical) (hf : ∀ (t : Block), t.Canonical → (f t).Canonical) {p} :
    (s.withInt p f).Canonical :=
  .ite (.ite (hf _ h) ((hf _ h).message)) ((hf _ h).unpend)

theorem Block.Canonical.setInt (h : s.Canonical) {p m} : (s.setInt p m).Canonical := h.withInt fun _ ht => ht.setReg
theorem Block.Canonical.errCause (h : s.Canonical) {p i} : (s.errCause p i).Canonical := h.setReg
theorem Block.Canonical.giveBackClaim (h : s.Canonical) {c n old} : (s.giveBackClaim c n old).Canonical := .ite h.update h.setReg
theorem Block.Canonical.giveBackAll (h : s.Canonical) {c l} : (s.giveBackAll c l).Canonical := h.foldl fun _ _ ht => ht.giveBackClaim
theorem Block.Canonical.postComplete (h : s.Canonical) {c status res} : (s.postComplete c status res).Canonical := h.postI

theorem Block.Canonical.complete (h : s.Canonical) {cseq status res} : (s.complete cseq status res).Canonical := by
  unfold Block.complete
  split
  · exact h
  · exact h.update.giveBackAll.postComplete

theorem Block.Canonical.goto (h : s.Canonical) {dst reason us} : (s.goto dst reason us).Canonical := h.update.setReg.post
theorem Block.Canonical.postOpen (h : s.Canonical) {r} : (s.postOpen r).Canonical := h.postI

theorem Block.Canonical.record (h : s.Canonical) {page code cls detail way} : (s.record page code cls detail way).Canonical := by
  unfold Block.record
  split
  · exact .ite h.update.postTally.postOpen h.update.postTally
  · split
    · exact h.bump.postTally
    · extract_lets t
      have ht : t.Canonical := by
        unfold t
        split
        · exact .ite h.bump.postTally h
        · exact h
      exact ht.update.postOpen

theorem Block.Canonical.closeAt (h : s.Canonical) {i how} : (s.closeAt i how).Canonical := by
  unfold Block.closeAt
  split
  · exact .ite h.update.post h
  · exact h

theorem Block.Canonical.closeWhere (h : s.Canonical) {how} {p : FaultRec → Bool} : (s.closeWhere how p).Canonical :=
  h.foldl fun _ _ ht => ht.closeAt

theorem Block.Canonical.autoClose (h : s.Canonical) {page code} {detail : Word → Bool} : (s.autoClose page code detail).Canonical :=
  h.closeWhere

/-! Machine/Line.lean -/

theorem Block.Canonical.modPort (h : s.Canonical) {p} {f : Port → Port} : (s.modPort p f).Canonical := h.update
theorem Block.Canonical.smlAt (h : s.Canonical) {p first code args} : (s.smlAt p first code args).Canonical := h.modPort.emit
theorem Block.Canonical.sml (h : s.Canonical) {p code args due} : (s.sml p code args due).Canonical := h.smlAt

/-! Machine/Safe.lean -/

theorem Block.Canonical.portGoto (h : s.Canonical) {p st} : (s.portGoto p st).Canonical := .ite h h.modPort.postI
theorem Block.Canonical.gpioPulse (h : s.Canonical) {f us} : (s.gpioPulse f us).Canonical := h.foldl fun _ _ ht => .ite ht.emit ht
theorem Block.Canonical.parkPort (h : s.Canonical) {p} : (s.parkPort p).Canonical := .ite h.modPort.sml.postTally h

theorem Block.Canonical.beamLow (h : s.Canonical) : s.beamLow.Canonical := h.update

theorem Block.Canonical.chainsZero (h : s.Canonical) : s.chainsZero.Canonical := by
  unfold Block.chainsZero
  refine .foldl h fun _ _ ht => ?_
  split
  · exact .ite ht.update.emit ht
  · exact ht

theorem Block.Canonical.lightOut (h : s.Canonical) : s.lightOut.Canonical := h.beamLow.chainsZero

theorem Block.Canonical.groupsOut (h : s.Canonical) : s.groupsOut.Canonical := h.update

theorem Block.Canonical.parkAll (h : s.Canonical) : s.parkAll.Canonical := h.foldl fun _ _ ht => .ite ht.parkPort.portGoto ht.parkPort

theorem Block.Canonical.safeOutputs (h : s.Canonical) : s.safeOutputs.Canonical := h.lightOut.groupsOut.parkAll

theorem Block.Canonical.interrupt (h : s.Canonical) : s.interrupt.Canonical := by
  unfold Block.interrupt
  split
  · exact .ite h.update.complete h
  · exact h

theorem Block.Canonical.enterSafe (h : s.Canonical) {reason fid} : (s.enterSafe reason fid).Canonical := by
  unfold Block.enterSafe
  split
  · exact h.goto.safeOutputs.interrupt.setReg.postI
  · exact h.goto.safeOutputs.interrupt.setReg.postI
  · exact h.goto.safeOutputs.interrupt.setReg.postI
  · exact h

theorem Block.Canonical.raise (h : s.Canonical) {page code cls detail way reason} : (s.raise page code cls detail way reason).Canonical :=
  .ite h.bump (.ite h.record.enterSafe h.record)

theorem Block.Canonical.faultEv (h : s.Canonical) {page ty cls data way inst} : (s.faultEv page ty cls data way inst).Canonical :=
  h.postI.raise

/-! Machine/Regwrite.lean -/

theorem Block.Canonical.onWrite {f : Block → Block} (h : s.Canonical) (hf : ∀ (t : Block), t.Canonical → (f t).Canonical) {page} :
    (s.onWrite page f).Canonical :=
  .ite h (.ite h.errCause (hf _ h))

theorem Block.Canonical.onStrobe {f : Block → Block} (h : s.Canonical) (hf : ∀ (t : Block), t.Canonical → (f t).Canonical) :
    (s.onStrobe f).Canonical :=
  .ite (hf _ h) h

theorem Block.Canonical.rwTake {f : Block → Word → Block} (h : s.Canonical) (hf : ∀ (t : Block) x1, t.Canonical → (f t x1).Canonical)
    {a v} :
    (s.rwTake a v f).Canonical := by
  unfold Block.rwTake
  split
  · exact h
  · exact .ite h.errCause (.ite (hf _ _ h) h.errCause)

theorem Block.Canonical.rwWrite {f : Block → Word → Block} (h : s.Canonical) (hf : ∀ (t : Block) x1, t.Canonical → (f t x1).Canonical) {a v} :
    (s.rwWrite a v f).Canonical :=
  .ite (h.rwTake fun _ _ ht => hf _ _ ht) h

theorem Block.Canonical.shTake (h : s.Canonical) {a key v} : (s.shTake a key v).Canonical := by
  unfold Block.shTake
  split
  · exact h
  · exact .ite h.errCause h.setReg

/-! Machine/Frame.lean -/

theorem Block.Canonical.modGrp (h : s.Canonical) {g} {f : Group → Group} : (s.modGrp g f).Canonical := h.update
theorem Block.Canonical.countCycles (h : s.Canonical) {ns old} : (s.countCycles ns old).Canonical := h.update
theorem Block.Canonical.secPulse (h : s.Canonical) {old} : (s.secPulse old).Canonical := .ite h.emit h
theorem Block.Canonical.advance (h : s.Canonical) {ns} : (s.advance ns).Canonical := .ite h h.update.countCycles.secPulse
theorem Block.Canonical.advanceTo (h : s.Canonical) {ft} : (s.advanceTo ft).Canonical := .ite h.advance.update h
theorem Block.Canonical.toLocal (h : s.Canonical) {t} : (s.toLocal t).Canonical := h.advance
theorem Block.Canonical.toSlot (h : s.Canonical) {off} : (s.toSlot off).Canonical := h.toLocal

/-! Machine/Sched.lean -/

theorem Block.Canonical.modPair (h : s.Canonical) {q} {f : Pair → Pair} : (s.modPair q f).Canonical := h.update
theorem Block.Canonical.dramReq (h : s.Canonical) {pa n write guest} : (s.dramReq pa n write guest).Canonical := h.modPair
theorem Block.Canonical.schedule (h : s.Canonical) {q} : (s.schedule q).Canonical := .ite h (h.modPair.foldl fun _ _ ht => ht.postTally)

/-! Machine/Memory.lean -/

theorem Block.Canonical.setMemB (h : s.Canonical) {pa b} : (s.setMemB pa b).Canonical := ⟨h.regs_wf, Block.dramWf_setMemB h.dram_wf pa b⟩
theorem Block.Canonical.freshBlock (h : s.Canonical) {pa left} : (s.freshBlock pa left).Canonical := .ite h.update h

theorem Block.Canonical.setMem (h : s.Canonical) {pa bs} : (s.setMem pa bs).Canonical := by
  induction bs generalizing s pa with
  | nil => exact h
  | cons b bs ih => exact ih h.setMemB.freshBlock

theorem Block.Canonical.installTlb (h : s.Canonical) {t} : (s.installTlb t).Canonical := .ite h.update h.update
theorem Block.Canonical.dtuFault (h : s.Canonical) {va f write client} : (s.dtuFault va f write client).Canonical := h.setRegs

theorem Block.Canonical.translate (h : s.Canonical) {va write client} : (s.translate va write client).1.Canonical := by
  unfold Block.translate
  split
  · exact h.dtuFault
  · split
    · exact h.dtuFault
    · split
      · extract_lets _
        split
        · exact h.bump
        · exact h.bump.dtuFault
      · extract_lets -underBinder _
        split
        · exact h.bump.dtuFault
        · extract_lets -underBinder _
          split
          · exact h.bump.bump.dtuFault
          · split
            · split
              · exact h.bump.bump.installTlb
              · exact h.bump.bump.installTlb.bump.post
            · exact h.bump.bump.installTlb

theorem Block.Canonical.access (h : s.Canonical) {client va n write} : (s.access client va n write).1.Canonical := by
  unfold Block.access
  split
  next t _ heq =>
    have ht : t.Canonical := .of_fst heq h.translate
    exact ht
  next t1 _ heq =>
    have ht1 : t1.Canonical := .of_fst heq h.translate
    split
    · exact ht1
    · exact ht1.dramReq

theorem Block.Canonical.beat (h : s.Canonical) {client va left write cur} : (s.beat client va left write cur).1.Canonical := by
  unfold Block.beat
  split
  · exact .ite_fst h.access h
  · exact h.access

theorem Block.Canonical.readVirt (h : s.Canonical) {client va n cur acc} : (s.readVirt client va n cur acc).1.Canonical := by
  induction n generalizing s va cur acc with
  | zero => exact h
  | succ n ih =>
    rw [Block.readVirt]
    split
    next t _ heq => exact ih (Block.Canonical.of_fst heq h.beat)
    next t _ heq => exact .of_fst heq h.beat

theorem Block.Canonical.setCap (h : s.Canonical) {ps off bs} : (s.setCap ps off bs).Canonical := by
  induction bs generalizing s off with
  | nil => exact h
  | cons b bs ih =>
    refine ih ?_
    split
    · exact h.setMemB.freshBlock
    · exact h

theorem Block.Canonical.piTouch (h : s.Canonical) {pa n} : (s.piTouch pa n).Canonical := .ite h.update h

theorem Block.Canonical.writeVirt (h : s.Canonical) {client va cur bs} : (s.writeVirt client va cur bs).1.Canonical := by
  induction bs generalizing s va cur with
  | nil => exact h
  | cons b bs ih =>
    rw [Block.writeVirt]
    split
    next t _ heq => exact ih (Block.Canonical.of_fst heq h.beat).setMemB.freshBlock.piTouch
    next t _ heq => exact .of_fst heq h.beat

/-! Machine/Surface.lean -/

theorem Block.Canonical.modSurf (h : s.Canonical) {i} {f : Surface → Surface} : (s.modSurf i f).Canonical := h.update

theorem Block.Canonical.surfWrite (h : s.Canonical) {i off bs} : (s.surfWrite i off bs).Canonical := by
  induction bs generalizing s off with
  | nil => exact h
  | cons b bs ih => exact ih (.ite h (.ite h.modSurf h.setMemB.freshBlock))

theorem Block.Canonical.setPaged (h : s.Canonical) {pages off bs} : (s.setPaged pages off bs).Canonical := by
  induction bs generalizing s off with
  | nil => exact h
  | cons b bs ih => exact ih h.setMemB.freshBlock

theorem Block.Canonical.putTile (h : s.Canonical) {u t tile x4} : (s.putTile u t tile x4).Canonical :=
  .ite h.setPaged.setPaged.update h.setPaged.setPaged

theorem Block.Canonical.putTiles (h : s.Canonical) {i budget l total} : (s.putTiles i budget l total).1.Canonical := by
  induction l generalizing s total with
  | nil => exact h
  | cons t l ih =>
    rw [Block.putTiles]
    split
    · exact h
    · exact ih h.putTile

theorem Block.Canonical.surfOpRes (h : s.Canonical) {i op reason} : (s.surfOpRes i op reason).Canonical := .ite h.setReg h.setReg.post
theorem Block.Canonical.surfDefine (h : s.Canonical) {i} : (s.surfDefine i).Canonical := .surfOpRes (.ite h.modSurf h)
theorem Block.Canonical.surfOpen (h : s.Canonical) {i} : (s.surfOpen i).Canonical := .surfOpRes (.ite h.modSurf h)
theorem Block.Canonical.surfClose (h : s.Canonical) {i} : (s.surfClose i).Canonical := .surfOpRes (.ite h.modSurf h)
theorem Block.Canonical.compress (h : s.Canonical) {i} : (s.compress i).1.Canonical := .ite_fst h.putTiles h
theorem Block.Canonical.sealSurf (h : s.Canonical) {i source tag} : (s.sealSurf i source tag).Canonical := h.modSurf.bump.post
theorem Block.Canonical.surfCapture (h : s.Canonical) {i} : (s.surfCapture i).Canonical := h.setRegs

/-! Machine/Deck.lean -/

theorem Block.Canonical.beginSets (h : s.Canonical) {f fsn wait} : (s.beginSets f fsn wait).Canonical := by
  unfold Block.beginSets
  refine .foldl h fun _ _ ht => ?_
  split
  · exact ht
  · split
    · exact ht.modPort
    · exact ht

theorem Block.Canonical.supersede (h : s.Canonical) {p i} : (s.supersede p i).Canonical := h.modPort.bump.post

theorem Block.Canonical.sealSet (h : s.Canonical) {p} : (s.sealSet p).Canonical := by
  unfold Block.sealSet
  split
  · exact h
  · split
    · exact h
    · extract_lets t
      have ht : t.Canonical := by
        unfold t
        split
        · exact h.supersede
        · exact h
      exact ht.modPort.bump.post

theorem Block.Canonical.descCapture (h : s.Canonical) {v} : (s.descCapture v).Canonical := h.setReg.setRegs

/-! Machine/Laser.lean -/

theorem Block.Canonical.modMember (h : s.Canonical) {m} {f : Member → Member} : (s.modMember m f).Canonical := .ite h.update h.update

theorem Block.Canonical.modMembers (h : s.Canonical) {l} {f : Member → Member} : (s.modMembers l f).Canonical :=
  h.foldl fun _ _ ht => ht.modMember

theorem Block.Canonical.piCheck (h : s.Canonical) : s.piCheck.Canonical := h.update

theorem Block.Canonical.configFirst (h : s.Canonical) {m} : (s.configFirst m).Canonical := .ite h h.update
theorem Block.Canonical.callSlice (h : s.Canonical) {m} : (s.callSlice m).Canonical := .ite h h.modMember.configFirst

theorem Block.Canonical.refreshMembers (h : s.Canonical) : s.refreshMembers.Canonical :=
  .foldl (h.foldl fun _ _ ht => .ite ht.modMember ht.modMember) fun _ _ ht => ht.modMember

theorem Block.Canonical.latchMember (h : s.Canonical) {m cause} : (s.latchMember m cause).Canonical := by
  unfold Block.latchMember
  extract_lets _ _ _ _ t _ t1
  have ht : t.Canonical := .ite h.modMember h.modMember.configFirst
  have ht1 : t1.Canonical := by
    unfold t1
    split
    · split
      · exact ht.modGrp.callSlice
      · exact ht.modGrp
    · exact ht
  exact .ite h (.ite ht1.faultEv.update.post ht1.faultEv)

theorem Block.Canonical.ocTrip (h : s.Canonical) {n} : (s.ocTrip n).Canonical :=
  .ite (.ite h.modMember.postTally.latchMember h.modMember.postTally) h

theorem Block.Canonical.callCold (h : s.Canonical) {g} : (s.callCold g).Canonical := by
  unfold Block.callCold
  split
  · exact h.modMember
  · exact h

theorem Block.Canonical.spareActs (h : s.Canonical) {m} : (s.spareActs m).Canonical := h.modMember

theorem Block.Canonical.giveBack (h : s.Canonical) {g} : (s.giveBack g).Canonical := by
  unfold Block.giveBack
  split
  · exact h
  · exact .ite h.modGrp h.modGrp.modMember.modMember

theorem Block.Canonical.calTakeover (h : s.Canonical) {g} : (s.calTakeover g).Canonical := by
  unfold Block.calTakeover
  split
  · exact h
  · split
    · exact h.giveBack
    · split
      · split
        · split
          · exact .ite h.callSlice h.spareActs.modMember.update
          · exact .ite h h.callCold
        · exact h
      · exact h

theorem Block.Canonical.calSpare (h : s.Canonical) {f new} : (s.calSpare f new).Canonical := by
  unfold Block.calSpare
  split
  · exact .ite (.ite h.update.modMember h.update) h
  · exact h

theorem Block.Canonical.takeover (h : s.Canonical) {g} : (s.takeover g).Canonical := by
  unfold Block.takeover
  extract_lets -underBinder _
  split
  · exact h.calTakeover
  · split
    · split
      · exact h.callSlice
      · split
        · extract_lets t
          have ht : t.Canonical := h.spareActs.calSpare
          exact .ite ht.modGrp.post.callCold ht.modGrp.post
        · exact h
    · exact .ite (.ite h h.callCold) (.ite (.ite h.calSpare.modGrp h) h.modGrp.faultEv)

theorem Block.Canonical.probeEnd (h : s.Canonical) {m cur} : (s.probeEnd m cur).Canonical := by
  unfold Block.probeEnd
  extract_lets _ _ _ t _ t1
  have ht : t.Canonical := .ite h.modMember.postTally h.modMember
  have ht1 : t1.Canonical := ht.post.autoClose
  exact .ite h (.ite ht1.latchMember ht1)

theorem Block.Canonical.spareHot (h : s.Canonical) {m} : (s.spareHot m).Canonical := h.modMember

theorem Block.Canonical.setBucks (h : s.Canonical) : s.setBucks.Canonical := h.foldl fun _ _ ht => ht.modMember

theorem Block.Canonical.raiseBucks (h : s.Canonical) : s.raiseBucks.Canonical := h.foldl fun _ _ ht => ht.modMember

theorem Block.Canonical.levelFb (h : s.Canonical) {g} : (s.levelFb g).Canonical := by
  unfold Block.levelFb
  extract_lets -underBinder _
  split
  · exact h
  · split
    · exact .ite (.ite h.modGrp.post h.modGrp) h.postTally.modGrp
    · exact .modGrp (.ite h.postTally h)

theorem Block.Canonical.startGroup (h : s.Canonical) {g} : (s.startGroup g).Canonical := h.modGrp
theorem Block.Canonical.darkenGroup (h : s.Canonical) {g} : (s.darkenGroup g).Canonical := h.modGrp

/-! Machine/Scanner.lean -/

theorem Block.Canonical.modSc (h : s.Canonical) {f : ScanState → ScanState} : (s.modSc f).Canonical := h.update

theorem Block.Canonical.driveMark (h : s.Canonical) : s.driveMark.Canonical := by
  unfold Block.driveMark
  exact h.modSc

theorem Block.Canonical.driveHs (h : s.Canonical) : s.driveHs.Canonical := h.update

theorem Block.Canonical.hsfGoto (h : s.Canonical) {st} : (s.hsfGoto st).Canonical := .ite h h.modSc.post

theorem Block.Canonical.sweep (h : s.Canonical) : s.sweep.Canonical := h.modSc.hsfGoto

theorem Block.Canonical.fastAxisStart (h : s.Canonical) : s.fastAxisStart.Canonical := .ite h.modSc.sweep h

theorem Block.Canonical.resonance (h : s.Canonical) : s.resonance.Canonical := h.driveMark.update.modSc.hsfGoto

theorem Block.Canonical.lockFail (h : s.Canonical) {stage} : (s.lockFail stage).Canonical := .ite h.sweep h.modSc.hsfGoto.faultEv

theorem Block.Canonical.locked (h : s.Canonical) : s.locked.Canonical :=
  .ite h (.ite h.modSc.hsfGoto.post.setReg.autoClose (.ite h.modSc h))

theorem Block.Canonical.beamOff (h : s.Canonical) : s.beamOff.Canonical := h.update

theorem Block.Canonical.recordCut (h : s.Canonical) {cause} : (s.recordCut cause).Canonical := by
  unfold Block.recordCut
  extract_lets _ t _ t1
  have ht : t.Canonical := h.beamOff.modSc.bump
  have ht1 : t1.Canonical := ht.setReg.faultEv
  exact .ite ht1.modSc.faultEv ht1

theorem Block.Canonical.beamCut (h : s.Canonical) {cause} : (s.beamCut cause).Canonical := .ite h.modSc h.recordCut
theorem Block.Canonical.cutMet (h : s.Canonical) {cause} : (s.cutMet cause).Canonical := .ite h.modSc.beamCut h

theorem Block.Canonical.cutsMet (h : s.Canonical) : s.cutsMet.Canonical := h.foldl fun _ _ ht => ht.cutMet

theorem Block.Canonical.lockLoss (h : s.Canonical) {cause} : (s.lockLoss cause).Canonical := h.modSc.hsfGoto.bump.faultEv.recordCut

theorem Block.Canonical.crossing (h : s.Canonical) {a b} : (s.crossing a b).Canonical := by
  unfold Block.crossing
  split
  · exact h
  · exact .ite h.modSc.bump h.modSc

theorem Block.Canonical.replan (h : s.Canonical) : s.replan.Canonical := by
  unfold Block.replan
  exact h.modSc

theorem Block.Canonical.beginRow (h : s.Canonical) {t} : (s.beginRow t).Canonical := h.modSc

theorem Block.Canonical.retarget (h : s.Canonical) : s.retarget.Canonical :=
  .ite h (.ite (.ite h.beginRow.replan h) (.replan (.ite h.modSc.modSc (.postTally (.bump (.ite h.modSc h.modSc.modSc))))))

theorem Block.Canonical.arrive (h : s.Canonical) : s.arrive.Canonical :=
  .ite (.ite h.advance.modSc (.ite h.advance.modSc.modSc (.ite h.advance.modSc.modSc h.advance.modSc.beginRow))) h

theorem Block.Canonical.nextRow (h : s.Canonical) : s.nextRow.Canonical := h.modSc.retarget

theorem Block.Canonical.rowDrawn (h : s.Canonical) : s.rowDrawn.Canonical := .ite h h.toLocal.beamOff.bump.postTally.modSc.nextRow

theorem Block.Canonical.windowEnd (h : s.Canonical) : s.windowEnd.Canonical := by
  unfold Block.windowEnd
  exact .modSc (.beamOff (h.bump.foldl fun _ _ ht => ht.postTally))

theorem Block.Canonical.rowsFb (h : s.Canonical) {shown} : (s.rowsFb shown).Canonical := by
  unfold Block.rowsFb
  extract_lets t
  have ht : t.Canonical := .ite h h.windowEnd
  exact .ite ht.modSc.modSc.retarget.replan ht.modSc.retarget

theorem Block.Canonical.writeHl (h : s.Canonical) {f set} : (s.writeHl f set).Canonical :=
  .foldl (h.foldl fun _ _ ht => ht.setCap) fun _ _ ht => ht.setCap

theorem Block.Canonical.zoneCheck (h : s.Canonical) {z} : (s.zoneCheck z).Canonical := .ite h.modSc.bump.postTally h
theorem Block.Canonical.zoneAdd (h : s.Canonical) {z e} : (s.zoneAdd z e).Canonical := .ite h h.modSc.zoneCheck

theorem Block.Canonical.bucketBoundary (h : s.Canonical) : s.bucketBoundary.Canonical := by
  unfold Block.bucketBoundary
  exact h.advanceTo.modSc

theorem Block.Canonical.litIn (h : s.Canonical) {w} : (s.litIn w).Canonical := .ite h h.modSc

theorem Block.Canonical.dacSample (h : s.Canonical) : s.dacSample.Canonical := by
  unfold Block.dacSample
  extract_lets -underBinder _
  split
  · exact h.beamOff
  · extract_lets _ _ _ _ _ _ _ t _ t1 _ _ t2
    have ht : t.Canonical := h.zoneCheck.modSc
    have ht1 : t1.Canonical := h.zoneCheck.modSc
    have ht2 : t2.Canonical := by
      unfold t2
      split
      · exact ht1.update.litIn
      · exact ht1.update
    exact .ite ht.update ht2.zoneAdd

theorem Block.Canonical.beamResume (h : s.Canonical) : s.beamResume.Canonical := .ite h (.ite h.modSc (.ite h.modSc.post h))

/-! Machine/Coppice.lean -/

theorem Block.Canonical.modRec (h : s.Canonical) {r} {f : LoopRec → LoopRec} : (s.modRec r f).Canonical := h.update

theorem Block.Canonical.runLaw (h : s.Canonical) {slot r} {law : LoopRec → LoopRec × Bool} : (s.runLaw slot r law).Canonical := by
  unfold Block.runLaw
  split
  · extract_lets _ _ t
    have ht : t.Canonical := .ite h.modRec.postTally h.modRec
    exact .ite ht.modRec.faultEv ht

theorem Block.Canonical.holdRec (h : s.Canonical) {r} : (s.holdRec r).Canonical := h.modRec
theorem Block.Canonical.measInvalid (h : s.Canonical) {r} : (s.measInvalid r).Canonical := h.bump.holdRec

theorem Block.Canonical.tallyWin (h : s.Canonical) {win inst} : (s.tallyWin win inst).Canonical := by
  unfold Block.tallyWin
  split
  · exact h.postTally
  · exact h.postTally
  · exact h.postTally
  · exact h.postTally
  · exact h

theorem Block.Canonical.overVoltage (h : s.Canonical) {n} : (s.overVoltage n).Canonical := .ite h.modMember.latchMember h.modMember

theorem Block.Canonical.sampleFaults (h : s.Canonical) {n} : (s.sampleFaults n).Canonical :=
  .ite h.modMember.latchMember (.ite h.modMember.latchMember h.modMember)

theorem Block.Canonical.handOver (h : s.Canonical) {n inp} : (s.handOver n inp).Canonical :=
  .modRec (.ite h.modMember.postTally h.modMember)

theorem Block.Canonical.modeKerf (h : s.Canonical) {n} : (s.modeKerf n).Canonical :=
  .ite h (.modMember (.ite (.modRec (.ite h.modRec h)) (.ite h.modRec h)))

theorem Block.Canonical.buckLaw (h : s.Canonical) {n y v} : (s.buckLaw n y v).Canonical := by
  unfold Block.buckLaw
  exact h.runLaw

theorem Block.Canonical.stringSample (h : s.Canonical) {n ys v} : (s.stringSample n ys v).Canonical := by
  unfold Block.stringSample
  extract_lets -underBinder _ _ _ t _ _ t1 _ _ _ _ _ _ _ t2
  have ht : t.Canonical := h.modMember.overVoltage
  have ht1 : t1.Canonical := ht.sampleFaults
  have ht2 : t2.Canonical := .ite ht1.handOver ht1.modMember
  split
  · exact ht.modMember.holdRec.buckLaw
  · split
    exact .buckLaw (.ite ht2.modMember.tallyWin.holdRec (.ite ht2.modMember.tallyWin.measInvalid
      (.ite ht2.modMember.tallyWin.runLaw ht2.modMember.tallyWin.runLaw)))

theorem Block.Canonical.evidence (h : s.Canonical) {e} : (s.evidence e).Canonical :=
  .ite h (.ite h (.ite (.ite h.modMember.modMember.post h.modMember) h.modMember))

theorem Block.Canonical.opticalSample (h : s.Canonical) {j y} : (s.opticalSample j y).Canonical := by
  unfold Block.opticalSample
  extract_lets -underBinder _
  split
  · exact h.holdRec
  · exact .ite h.holdRec (.ite h.measInvalid (.ite h.holdRec h.modRec.runLaw))

theorem Block.Canonical.supplySample (h : s.Canonical) {d} : (s.supplySample d).Canonical := .ite h.holdRec h.runLaw

theorem Block.Canonical.freqSample (h : s.Canonical) {y} : (s.freqSample y).Canonical := by
  unfold Block.freqSample
  extract_lets _ _ _ _ _ _ _ _ _ _ t _ _ _ t1
  have ht : t.Canonical := .ite h.runLaw.postTally h.runLaw
  have ht1 : t1.Canonical := ht.modRec.update.driveMark
  exact .ite h.holdRec (.ite ht1.modSc.modSc.hsfGoto ht1.modSc)

theorem Block.Canonical.takeY (h : s.Canonical) {y} : (s.takeY y).Canonical := by
  unfold Block.takeY
  exact h.modSc

theorem Block.Canonical.ampSample (h : s.Canonical) {y} : (s.ampSample y).Canonical := by
  unfold Block.ampSample
  extract_lets _ _ _ _ _ _ _ t
  have ht : t.Canonical := .ite h.modSc.modSc.measInvalid h.modSc.modSc.runLaw
  exact .ite h.modSc.holdRec (.ite ht.modSc.hsfGoto ht.modSc)

theorem Block.Canonical.angleSample (h : s.Canonical) : s.angleSample.Canonical := .ite h.holdRec h.runLaw.modSc

theorem Block.Canonical.slowSample (h : s.Canonical) {ys} : (s.slowSample ys).Canonical := by
  unfold Block.slowSample
  exact .modSc (.ite h.takeY.modSc.holdRec (.ite h.takeY.modSc.measInvalid h.takeY.modSc.runLaw))

theorem Block.Canonical.loopSample (h : s.Canonical) {slot y v} : (s.loopSample slot y v).Canonical :=
  .ite h (.ite h.toLocal.update.cutsMet.stringSample (.ite h.toLocal.update.cutsMet.freqSample.driveHs
    (.ite h.toLocal.update.cutsMet.ampSample.driveHs (.ite h.toLocal.update.cutsMet.angleSample.driveHs
      (.ite h.toLocal.update.cutsMet.slowSample.driveHs (.ite h.toLocal.update.cutsMet.opticalSample
        h.toLocal.update.cutsMet.supplySample))))))

theorem Block.Canonical.loopFault (h : s.Canonical) {r} : (s.loopFault r).Canonical := by
  unfold Block.loopFault
  extract_lets _ _ _ t
  have ht : t.Canonical := h.bump.modRec.update
  exact .ite (.ite ht.faultEv.lockLoss ht.faultEv) (.ite ht.faultEv.beamCut.retarget ht.faultEv)

theorem Block.Canonical.stateScrub (h : s.Canonical) {errs} : (s.stateScrub errs).Canonical := by
  unfold Block.stateScrub
  extract_lets _ t
  have ht : t.Canonical := by
    unfold t
    refine .foldl h fun _ _ ht => ?_
    split
    · exact ht.bump.raise
    · exact ht.loopFault
    · exact ht
  exact ht.update

theorem Block.Canonical.reloadRecs (h : s.Canonical) : s.reloadRecs.Canonical := h.update

theorem Block.Canonical.wheelFault (h : s.Canonical) {kind last} : (s.wheelFault kind last).Canonical := h.update.lightOut.faultEv

theorem Block.Canonical.ceilingLost (h : s.Canonical) {g} : (s.ceilingLost g).Canonical := by
  unfold Block.ceilingLost
  split
  · exact h
  · split
    · exact h
    · exact .ite h.update.postI.raise h

/-! Machine/Chain.lean -/

theorem Block.Canonical.modChn (h : s.Canonical) {c} {f : Chain → Chain} : (s.modChn c f).Canonical := h.update
theorem Block.Canonical.chnGoto (h : s.Canonical) {c st} : (s.chnGoto c st).Canonical := .ite h h.modChn.post

theorem Block.Canonical.tableLoad (h : s.Canonical) {c} : (s.tableLoad c).Canonical :=
  .ite h (.modChn (h.advanceTo.foldl fun _ _ ht => ht.tallyWin))

theorem Block.Canonical.strobe (h : s.Canonical) {c width} : (s.strobe c width).Canonical := h.emit

theorem Block.Canonical.strobes (h : s.Canonical) {g width} : (s.strobes g width).Canonical :=
  .ite h (h.foldl fun _ _ ht => .ite ht.strobe ht)

theorem Block.Canonical.zeroChains (h : s.Canonical) {p : Nat → Bool} : (s.zeroChains p).Canonical :=
  h.foldl fun _ _ ht => .ite ht.strobe.modChn ht

theorem Block.Canonical.probeRun (h : s.Canonical) {g res} : (s.probeRun g res).Canonical := by
  unfold Block.probeRun
  split
  · exact h
  · extract_lets _ _ t _ t1 t2
    have ht : t.Canonical := .ite h.advanceTo h.toSlot
    have ht1 : t1.Canonical := ht.strobes.foldl fun _ _ ht1 => ht1.modMember
    have ht2 : t2.Canonical := .strobes (.ite ht1.advanceTo ht1.toSlot)
    exact ht2.foldl fun _ _ ht3 => ht3.probeEnd

theorem Block.Canonical.chnBreak (h : s.Canonical) {c} : (s.chnBreak c).Canonical :=
  h.zeroChains.chnGoto.bump.post.modChn.foldl fun _ _ ht => ht.latchMember

theorem Block.Canonical.sliceStatus (h : s.Canonical) {c sl seg} : (s.sliceStatus c sl seg).Canonical :=
  h.foldl fun _ _ ht => .ite ht (.ite ht.modMember.latchMember (.ite ht.modMember.latchMember (.ite ht.modMember.latchMember ht.modMember)))

theorem Block.Canonical.sliceUpdate (h : s.Canonical) {c ty e} : (s.sliceUpdate c ty e).Canonical := by
  unfold Block.sliceUpdate
  extract_lets -underBinder _
  split
  · exact h.modChn.foldl fun _ _ ht => ht.modMember
  · exact h.foldl fun _ _ ht => ht.modChn
  · exact h.modChn
  · exact h

theorem Block.Canonical.shiftDone (h : s.Canonical) {c ret} : (s.shiftDone c ret).Canonical := by
  unfold Block.shiftDone
  extract_lets -underBinder _
  split
  · exact h
  · split
    · extract_lets t _ _ _ _ t1 _ _ _ t2 _ t3
      have ht : t.Canonical := h.emit.strobe.modChn
      have ht1 : t1.Canonical := ht.sliceUpdate.foldl fun _ _ ht2 => ht2.bump.postTally
      have ht2 : t2.Canonical := ht1.modChn.modChn.chnGoto
      have ht3 : t3.Canonical := .ite ht2 ht2.modChn
      exact .ite (.ite ht1.modChn.chnBreak ht1.modChn.modChn.chnGoto) (.ite ht2.chnBreak (ht3.foldl fun _ _ ht6 => ht6.sliceStatus))

theorem Block.Canonical.chainFrame (h : s.Canonical) {c} : (s.chainFrame c).Canonical := by
  unfold Block.chainFrame
  extract_lets _ _ _ _ _ t
  have ht : t.Canonical := h.modChn.modChn.foldl fun _ _ ht => ht.bump.faultEv
  exact .ite h.modChn (.ite (.ite h.modChn h.modChn.strobe.modChn) (.ite ht.strobe.strobe.strobe ht.strobe.strobe))

theorem Block.Canonical.enumSends (h : s.Canonical) {c n} : (s.enumSends c n).Canonical := h.strobe.emit.emit.emit.strobe.emit

theorem Block.Canonical.enumerate (h : s.Canonical) {c n ids} : (s.enumerate c n ids).Canonical :=
  .chnGoto (h.enumSends.chnGoto.modChn.foldl fun _ _ ht => ht.post)

/-! Machine/Mirror.lean -/

theorem Block.Canonical.maEvt (h : s.Canonical) {p ty data} : (s.maEvt p ty data).Canonical := h.postI
theorem Block.Canonical.maFault (h : s.Canonical) {p ty cls data way} : (s.maFault p ty cls data way).Canonical := h.faultEv
theorem Block.Canonical.lineTo (h : s.Canonical) {p k} : (s.lineTo p k).Canonical := h.modPort
theorem Block.Canonical.cutLoad (h : s.Canonical) {p} : (s.cutLoad p).Canonical := h.lineTo
theorem Block.Canonical.smlFree (h : s.Canonical) {p code args} : (s.smlFree p code args).Canonical := h.sml
theorem Block.Canonical.smlMode (h : s.Canonical) {p} : (s.smlMode p).Canonical := h.smlAt
theorem Block.Canonical.smlReset (h : s.Canonical) {p args} : (s.smlReset p args).Canonical := h.smlAt

theorem Block.Canonical.smlPlane (h : s.Canonical) {p slot plane tag blocks} : (s.smlPlane p slot plane tag blocks).Canonical :=
  h.smlAt.modPort

theorem Block.Canonical.lineTrain (h : s.Canonical) {p} : (s.lineTrain p).Canonical := .ite h.cutLoad.modPort h.cutLoad.lineTo.modPort

theorem Block.Canonical.lineStart (h : s.Canonical) {p} : (s.lineStart p).Canonical := by
  unfold Block.lineStart
  split
  next _ t heq =>
    have ht : t.Canonical := .of_snd heq (h.foldl_snd fun _ _ ht => ht.update)
    exact ht.modPort

theorem Block.Canonical.startPort (h : s.Canonical) {p} : (s.startPort p).Canonical := h.modPort.update.lineStart.portGoto
theorem Block.Canonical.stopPort (h : s.Canonical) {p} : (s.stopPort p).Canonical := h.modPort.update.portGoto
theorem Block.Canonical.abortPark (h : s.Canonical) {p} : (s.abortPark p).Canonical := .ite h h.cutLoad.sml.parkPort
theorem Block.Canonical.portEn (h : s.Canonical) {p} : (s.portEn p).Canonical := .ite (.ite h h.abortPark.stopPort) (.ite h.startPort h)
theorem Block.Canonical.trainPort (h : s.Canonical) {p why} : (s.trainPort p why).Canonical := h.lineTrain.modPort

theorem Block.Canonical.ident (h : s.Canonical) {p d} : (s.ident p d).Canonical :=
  .ite h.bump (.ite h (.ite (.ite h.modPort.modPort.maEvt.trainPort.portGoto h.modPort.modPort.maEvt)
    (.maFault (.portGoto (.modPort (.ite h.modPort.zeroChains h.modPort))))))

theorem Block.Canonical.linkFail (h : s.Canonical) {p cause} : (s.linkFail p cause).Canonical := h.modPort.portGoto.postI.raise

theorem Block.Canonical.lockPort (h : s.Canonical) {p skew} : (s.lockPort p skew).Canonical := by
  unfold Block.lockPort
  extract_lets -underBinder _
  split
  · exact h.modPort.modPort.smlMode
  · exact h.modPort.maEvt.portGoto
  · exact h.modPort.maEvt.modPort
  · exact .ite h.modPort.maEvt.modPort.smlMode h.modPort.maEvt.modPort

theorem Block.Canonical.abortOne (h : s.Canonical) {p cause slot plane tag lit cloneOnly} :
    (s.abortOne p cause slot plane tag lit cloneOnly).Canonical := by
  unfold Block.abortOne
  split
  next _ t heq =>
    have ht : t.Canonical := .of_snd heq (.ite_snd h h.update)
    extract_lets _ _ t1 _ t2
    have ht1 : t1.Canonical := ht.modPort.setRegs.bump
    have ht2 : t2.Canonical := .ite ht1.maFault.zeroChains.beamLow ht1.maFault
    exact ht2.modSc

theorem Block.Canonical.abortPort (h : s.Canonical) {p cause slot} : (s.abortPort p cause slot).Canonical :=
  .ite h.abortOne (.modPort (.foldl (h.foldl fun _ _ ht => ht.abortOne) fun _ _ ht => .modPort
    (.ite ht.cutLoad.smlFree.smlFree ht.cutLoad.smlFree)))

theorem Block.Canonical.linkStatus (h : s.Canonical) {p state lane skew _order} : (s.linkStatus p state lane skew _order).Canonical := by
  unfold Block.linkStatus
  extract_lets _ _ t
  have ht : t.Canonical := .ite h.modPort.abortPort h.modPort
  exact .ite h.modPort (.ite (.ite h.modPort h.modPort.lockPort) (.ite (.ite ht.modPort.trainPort ht.modPort.trainPort) h.modPort.modPort))

theorem Block.Canonical.trainTimeout (h : s.Canonical) {p} : (s.trainTimeout p).Canonical :=
  .ite h (.ite (.modPort (.ite h h.maEvt)) (.linkFail (.modPort (.ite h h.maEvt))))

theorem Block.Canonical.maCtrl {f : Block → Block} (h : s.Canonical) (hf : ∀ (t : Block), t.Canonical → (f t).Canonical) {p} :
    (s.maCtrl p f).Canonical :=
  .ite h (.ite h.errCause (hf _ h))

theorem Block.Canonical.arrayReset (h : s.Canonical) {p} : (s.arrayReset p).Canonical :=
  h.maCtrl fun _ ht => .ite ht.stopPort.advance.startPort ht

theorem Block.Canonical.maRetrain (h : s.Canonical) {p} : (s.maRetrain p).Canonical := h.maCtrl fun _ ht => .ite ht.trainPort.portGoto ht
theorem Block.Canonical.maIdentReq (h : s.Canonical) {p} : (s.maIdentReq p).Canonical := h.maCtrl fun _ ht => .ite ht ht.modPort.smlFree
theorem Block.Canonical.takeSets (h : s.Canonical) {p} : (s.takeSets p).Canonical := h.modPort
theorem Block.Canonical.leaveDark (h : s.Canonical) {p k} : (s.leaveDark p k).Canonical := .ite h.modPort h

theorem Block.Canonical.preloadPort (h : s.Canonical) {p k} : (s.preloadPort p k).Canonical := by
  unfold Block.preloadPort
  extract_lets -underBinder _ t
  have ht : t.Canonical := .ite h.leaveDark h.leaveDark.portGoto
  split
  · exact .ite h.leaveDark.portGoto h.leaveDark
  · split
    · exact h.leaveDark.modPort
    · split
      · exact ht.modPort
      · extract_lets _ _ _ t1 t2
        have ht1 : t1.Canonical := .ite ht.update ht
        have ht2 : t2.Canonical := .ite ht1 ht1.bump.maEvt
        exact .ite ht2.modPort.bump.postI ht2.modPort

theorem Block.Canonical.preloadClone (h : s.Canonical) {p k} : (s.preloadClone p k).Canonical :=
  .ite (.ite h.leaveDark.portGoto h.leaveDark) (.ite h.leaveDark.modPort (.modPort (.ite h.leaveDark h.leaveDark.portGoto)))

theorem Block.Canonical.preload (h : s.Canonical) : s.preload.Canonical := by
  unfold Block.preload
  extract_lets _ _ t _ t1 t2
  have ht : t.Canonical := h.advanceTo.foldl fun _ _ ht => ht.takeSets
  have ht1 : t1.Canonical := ht.foldl fun _ _ ht1 => ht1.preloadPort
  have ht2 : t2.Canonical := ht1.foldl fun _ _ ht2 => ht2.preloadClone
  exact .ite ht2.retarget ht2

theorem Block.Canonical.portFb (h : s.Canonical) {p k} : (s.portFb p k).1.Canonical := by
  unfold Block.portFb
  extract_lets t _ _ _ t1 _ _ _ _ _ t2 t3
  have ht : t.Canonical := .ite h.portGoto h
  have ht1 : t1.Canonical := .ite ht.bump.postI ht
  have ht2 : t2.Canonical := .ite ht1.modPort.modPort.raise ht1.modPort
  have ht3 : t3.Canonical := .ite ht2.modPort.autoClose ht2
  exact .ite_fst ht.modPort (.ite_fst ht.modPort ht3)

theorem Block.Canonical.toLoad (h : s.Canonical) {p off} : (s.toLoad p off).Canonical := .ite h.advanceTo h.toSlot
theorem Block.Canonical.staged (h : s.Canonical) {p l} : (s.staged p l).Canonical := .modPort (h.foldl fun _ _ ht => ht.modPort)

theorem Block.Canonical.loadStart (h : s.Canonical) {p} : (s.loadStart p).Canonical := by
  unfold Block.loadStart
  extract_lets -underBinder _
  split
  · split
    · exact h
    · split
      · exact h
      · extract_lets _ _ t
        have ht : t.Canonical := h.toLoad.foldl fun _ _ ht => ht.smlPlane
        exact .ite ht.staged ht.modPort

theorem Block.Canonical.loadEnd (h : s.Canonical) {p} : (s.loadEnd p).Canonical := by
  unfold Block.loadEnd
  extract_lets -underBinder _
  split
  · exact h
  · split
    · extract_lets _ _ t
      have ht : t.Canonical := by
        unfold t
        refine .foldl h.toLoad fun _ _ ht => ?_
        split
        · exact ht.lineTo
        · exact ht
      exact ht.staged

theorem Block.Canonical.resetOn (h : s.Canonical) {args r} : (Block.resetOn args s r).Canonical := h.modPort.smlReset

theorem Block.Canonical.slotStart (h : s.Canonical) {g ev} : (s.slotStart g ev).Canonical := by
  unfold Block.slotStart
  extract_lets -underBinder _
  split
  · exact h
  · split
    · exact h
    · extract_lets _ t _ _ _ t1 _ t2 t3 _ t4 t5
      have ht : t.Canonical := h.toSlot.foldl fun _ _ ht => ht.evidence
      have ht1 : t1.Canonical := .ite ht.modPort (ht.modPort.foldl fun _ _ ht2 => ht2.resetOn)
      have ht2 : t2.Canonical := ht1.modMembers.modMembers
      have ht3 : t3.Canonical := .ite (ht2.foldl fun _ _ ht5 => ht5.modeKerf) ht1.modMembers
      have ht4 : t4.Canonical := .ite ht3.postTally.postTally ht3.postTally
      have ht5 : t5.Canonical := .ite ht4.strobes ht4
      exact .ite ht5.gpioPulse ht5

theorem Block.Canonical.kerfEnd (h : s.Canonical) {g rdyLow seenHigh} : (s.kerfEnd g rdyLow seenHigh).Canonical := by
  unfold Block.kerfEnd
  extract_lets _ _ _ _ t t1
  have ht : t.Canonical := .ite h.toSlot.update h.toSlot.update.bump.maFault
  have ht1 : t1.Canonical := .ite ht ht.bump.maEvt
  exact .ite h (.ite ht1.abortPort (.ite ht1.modPort ht1.modPort.strobes))

theorem Block.Canonical.lastDwellEnd (h : s.Canonical) {g ev} : (s.lastDwellEnd g ev).Canonical :=
  .ite h (.strobes (.modPort (h.toSlot.foldl fun _ _ ht => ht.evidence)))

theorem Block.Canonical.darkStart (h : s.Canonical) : s.darkStart.Canonical :=
  .ite h (h.advanceTo.beamLow.foldl fun _ _ ht => .ite (ht.foldl fun _ _ ht1 => ht1.smlFree.postTally) ht)

theorem Block.Canonical.planeAck (h : s.Canonical) {p slot plane fsn arrDiff tapDiff} :
    (s.planeAck p slot plane fsn arrDiff tapDiff).Canonical := by
  unfold Block.planeAck
  extract_lets -underBinder _
  split
  · exact h
  · extract_lets -underBinder _
    split
    · exact h.modPort
    · exact .ite h.modPort h.modPort.modPort.bump.maFault

theorem Block.Canonical.ackMissing (h : s.Canonical) {p slot} : (s.ackMissing p slot).Canonical := by
  unfold Block.ackMissing
  split
  · exact h
  · exact h.modPort.bump.maEvt

theorem Block.Canonical.arrayStatus (h : s.Canonical) {p code sev detail} : (s.arrayStatus p code sev detail).Canonical :=
  .ite h (.ite (.maFault (.portGoto (.modPort (.ite h.setReg.abortPort h.setReg)))) h.setReg.maEvt)

theorem Block.Canonical.darkPort (h : s.Canonical) {p oldRate oldMode} : (s.darkPort p oldRate oldMode).Canonical := by
  unfold Block.darkPort
  extract_lets _ t
  have ht : t.Canonical := .portGoto (.ite h.abortPark h.modPort)
  exact .ite h (.ite ht.modPort.modPort.trainPort (.ite ht.modPort.modPort (.ite ht.modPort ht.modPort.modPort.smlFree)))

/-! Machine/Thermal.lean -/

theorem Block.Canonical.levelEvents (h : s.Canonical) {cl idx old new v} : (s.levelEvents cl idx old new v).Canonical := by
  unfold Block.levelEvents
  extract_lets _ t t1 t2 t3
  have ht : t.Canonical := .ite h (.ite h.faultEv h.post)
  have ht1 : t1.Canonical := .ite ht.postTally ht
  have ht2 : t2.Canonical := .ite ht1.autoClose ht1
  have ht3 : t3.Canonical := .ite ht2.bump ht2
  exact .ite ht3 ht3.post

theorem Block.Canonical.tsConversion (h : s.Canonical) {t} : (s.tsConversion t).Canonical := by
  unfold Block.tsConversion
  split
  · exact h
  · extract_lets -underBinder _ _ _ _ t
    have ht : t.Canonical := by
      unfold t
      refine .foldl h.update fun _ _ ht => ?_
      split
      · exact .ite ht.bump.faultEv (.ite ht.post.autoClose ht)
      · exact ht
    exact .levelEvents (.update (.ite ht.postI.raise (.ite ht.autoClose ht)))

theorem Block.Canonical.ntcConversion (h : s.Canonical) {j c} : (s.ntcConversion j c).Canonical := by
  unfold Block.ntcConversion
  split
  · exact h
  · exact .ite h (.ite h.update.bump.faultEv (.ite h.update.post.autoClose h.update))

theorem Block.Canonical.modelUpdate (h : s.Canonical) {g} : (s.modelUpdate g).Canonical := by
  unfold Block.modelUpdate
  split
  · exact h
  · exact .ite h h.update.levelEvents

theorem Block.Canonical.thermApplied (h : s.Canonical) : s.thermApplied.Canonical := by
  unfold Block.thermApplied
  extract_lets _ _ t
  have ht : t.Canonical := h.update.levelEvents
  refine .foldl ht fun _ _ ht1 => ?_
  split
  · exact ht1.update.levelEvents
  · exact ht1

/-! Machine/Ring.lean -/

theorem Block.Canonical.setStage (h : s.Canonical) {cseq st} : (s.setStage cseq st).Canonical := h.update
theorem Block.Canonical.cmdTail (h : s.Canonical) {v} : (s.cmdTail v).Canonical := .ite h.setFld h.setReg
theorem Block.Canonical.fetchFault (h : s.Canonical) {kind} : (s.fetchFault kind).Canonical := h.setFld.post
theorem Block.Canonical.postCseq (h : s.Canonical) {ty data} : (s.postCseq ty data).Canonical := h.postI

theorem Block.Canonical.take (h : s.Canonical) {e} : (s.take e).Canonical := by
  unfold Block.take
  extract_lets _ _ _ _ _ _ _ t
  have ht : t.Canonical := .ite h.setRegs.update.postI h.setRegs.update
  exact .ite (.ite ht.postComplete ht) (.ite h.setFld.postCseq h.setReg.bump.postCseq)

theorem Block.Canonical.cmdEntry (h : s.Canonical) {host} : (s.cmdEntry host).1.Canonical := by
  unfold Block.cmdEntry
  split
  · split
    next t _ heq =>
      have ht : t.Canonical := .of_fst heq h.readVirt
      exact ht
    next t1 _ _ _ heq =>
      have ht1 : t1.Canonical := .of_fst heq h.readVirt
      exact ht1
  · exact .ite_fst h h

theorem Block.Canonical.ringResync (h : s.Canonical) {v} : (s.ringResync v).Canonical := h.setReg.setFld.postCseq

theorem Block.Canonical.postCause (h : s.Canonical) : s.postCause.Canonical := .ite (h.update.post.foldl fun _ _ ht => ht.postI.update) h

theorem Block.Canonical.ringCtrl (h : s.Canonical) {v} : (s.ringCtrl v).Canonical := by
  unfold Block.ringCtrl
  extract_lets _ _ t
  have ht : t.Canonical := .ite h.setReg.setReg.setFld h.setReg
  exact .ite ht.setReg.postCause (.ite ht.update ht)

theorem Block.Canonical.raise63 (h : s.Canonical) : s.raise63.Canonical := .ite h h.update.message

theorem Block.Canonical.modCheck (h : s.Canonical) : s.modCheck.Canonical := .ite h.raise63 h

theorem Block.Canonical.evtStepped (h : s.Canonical) : s.evtStepped.Canonical := h.setRegs.update.modCheck

theorem Block.Canonical.putEvent (h : s.Canonical) {e} : (s.putEvent e).1.Canonical := by
  unfold Block.putEvent
  extract_lets _
  split
  · split
    next t heq =>
      have ht : t.Canonical := .of_fst heq h.writeVirt
      exact ht.evtStepped
    next t1 _ heq =>
      have ht1 : t1.Canonical := .of_fst heq h.writeVirt
      exact ht1
  · exact .ite_fst h.emit.evtStepped h

theorem Block.Canonical.loseEvent (h : s.Canonical) : s.loseEvent.Canonical := h.setReg.bump.update

theorem Block.Canonical.putOverflow (h : s.Canonical) : s.putOverflow.Canonical := by
  unfold Block.putOverflow
  split
  · exact h
  · split
    next t heq =>
      have ht : t.Canonical := .of_fst heq h.putEvent
      exact ht.update
    next t1 heq =>
      have ht1 : t1.Canonical := .of_fst heq h.putEvent
      exact ht1.setFld

theorem Block.Canonical.eventWrite (h : s.Canonical) : s.eventWrite.Canonical := by
  unfold Block.eventWrite
  extract_lets -underBinder _
  split
  · exact h.putOverflow
  · extract_lets _ t
    have ht : t.Canonical := h.putOverflow.update
    split
    · exact ht.loseEvent.putOverflow
    · split
      next t1 heq =>
        have ht1 : t1.Canonical := .of_fst heq ht.putEvent
        exact ht1
      next t2 heq =>
        have ht2 : t2.Canonical := .of_fst heq ht.putEvent
        exact ht2.loseEvent.setFld.putOverflow

theorem Block.Canonical.eventWriteFault (h : s.Canonical) : s.eventWriteFault.Canonical := by
  unfold Block.eventWriteFault
  split
  · exact .ite h.setFld h
  · exact h.update.loseEvent.setFld

theorem Block.Canonical.evtHead (h : s.Canonical) {v} : (s.evtHead v).Canonical :=
  .ite h.setFld (.putOverflow (.ite h.setReg.update.unpend h.setReg.update.unpend.modCheck))

/-! Machine/Budget.lean -/

theorem Block.Canonical.guestGrants (h : s.Canonical) {old : Nat → Word} : (s.guestGrants old).Canonical :=
  h.foldl fun _ _ ht => .ite (.post (.ite ht.post ht)) (.ite ht.post ht)

/-! Machine/Dram.lean -/

theorem Block.Canonical.pairGoto (h : s.Canonical) {q st} : (s.pairGoto q st).Canonical := .ite h h.modPair.postI

theorem Block.Canonical.uncorrectable (h : s.Canonical) {addr client} : (s.uncorrectable addr client).Canonical :=
  h.update.bump.bump.setRegs.faultEv

theorem Block.Canonical.ueClient (h : s.Canonical) {addr client} : (s.ueClient addr client).Canonical :=
  .ite (.ite h.abortPort h) (.ite h.update (.ite h.update h))

theorem Block.Canonical.corrected (h : s.Canonical) {addr} : (s.corrected addr).Canonical := h.bump.bump.raise.postTally

theorem Block.Canonical.scrubStamp (h : s.Canonical) : s.scrubStamp.Canonical := h.update

theorem Block.Canonical.scrubRead (h : s.Canonical) {addr result} : (s.scrubRead addr result).Canonical :=
  .ite h.uncorrectable (.ite h.corrected h)

theorem Block.Canonical.scrubTo (h : s.Canonical) {q b} : (s.scrubTo q b).Canonical := h.update

theorem Block.Canonical.scrubStep (h : s.Canonical) {result} : (s.scrubStep result).Canonical := by
  unfold Block.scrubStep
  split
  · exact h
  · extract_lets _ _ t
    have ht : t.Canonical := h.toLocal.scrubStamp.scrubRead
    exact .ite h (.ite ht.scrubTo ht.scrubTo)

theorem Block.Canonical.slackSample (h : s.Canonical) {q v arr} : (s.slackSample q v arr).Canonical := by
  unfold Block.slackSample
  extract_lets _ t t1 _ _ _ _ _ _ ok2 _ _ _ t3
  clear_value ok2
  have ht : t.Canonical := h.toLocal.modPair
  have ht1 : t1.Canonical := ht.foldl fun _ _ ht1 => ht1.dramReq
  have ht3 : t3.Canonical := ht1.schedule.modPair
  exact .ite ht3.postTally ht3

theorem Block.Canonical.dramFrame (h : s.Canonical) : s.dramFrame.Canonical := h.update.foldl fun _ _ ht => ht.modPair

theorem Block.Canonical.refreshDue (h : s.Canonical) {ch idle} : (s.refreshDue ch idle).Canonical :=
  .ite h.modPair (.ite h.modPair (.ite (.ite h.modPair h.postTally) h.modPair))

theorem Block.Canonical.ratePoll (h : s.Canonical) {ch val above} : (s.ratePoll ch val above).Canonical :=
  .ite h.update.faultEv (.ite h.update.autoClose h.update)

theorem Block.Canonical.loadDelays (h : s.Canonical) {q sp} : (s.loadDelays q sp).Canonical := by
  unfold Block.loadDelays
  exact h.modPair.update.autoClose

theorem Block.Canonical.trimLane (h : s.Canonical) {q lane n} : (s.trimLane q lane n).Canonical :=
  .ite h.modPair.update.faultEv (.ite h.modPair.update.autoClose h.modPair.update)

theorem Block.Canonical.stepEvent (h : s.Canonical) {dir} : (s.stepEvent dir).Canonical := h.post
theorem Block.Canonical.changeDue (h : s.Canonical) {cause} : (s.changeDue cause).Canonical := .ite h.update h.update

theorem Block.Canonical.stepDown (h : s.Canonical) : s.stepDown.Canonical :=
  .ite (.ite h.update.stepEvent h.update.stepEvent.changeDue) h.update

theorem Block.Canonical.stepUp (h : s.Canonical) : s.stepUp.Canonical := h.update.stepEvent.changeDue

theorem Block.Canonical.changeDone (h : s.Canonical) : s.changeDone.Canonical := by
  unfold Block.changeDone
  split
  · exact h
  · exact .ite h h.update.bump.post

theorem Block.Canonical.changeStart (h : s.Canonical) {cause} : (s.changeStart cause).Canonical := .ite h.update.changeDone h.update

theorem Block.Canonical.dramFallbackEntry (h : s.Canonical) : s.dramFallbackEntry.Canonical := by
  unfold Block.dramFallbackEntry
  split
  · exact h.update.changeStart
  · exact h

theorem Block.Canonical.pairChange (h : s.Canonical) {q} : (s.pairChange q).Canonical := by
  unfold Block.pairChange
  split
  · exact h
  · exact .ite h (.changeDone (.update (.autoClose (.ite h.modPair.pairGoto.loadDelays.pairGoto h.modPair.loadDelays))))

theorem Block.Canonical.freqWait (h : s.Canonical) {q} : (s.freqWait q).Canonical := by
  unfold Block.freqWait
  split
  · exact h
  · exact .ite h (.ite h.advance.update.postI h.advance.update.raise)

theorem Block.Canonical.selfRefresh (h : s.Canonical) {q} : (s.selfRefresh q).Canonical := .ite h.modPair.pairGoto.pairGoto.bump.postTally h

theorem Block.Canonical.leaveRefresh (h : s.Canonical) {q} : (s.leaveRefresh q).Canonical :=
  .ite h.pairGoto.modPair.pairGoto (.ite h.pairGoto h)

theorem Block.Canonical.pairIn (h : s.Canonical) {q} : (s.pairIn q).Canonical := .pairGoto (.loadDelays (.ite h.pairGoto h))

theorem Block.Canonical.pairService (h : s.Canonical) {q} : (s.pairService q).Canonical :=
  .ite (.ite h h.pairGoto) (.ite (.ite h h.pairGoto) (.ite h.pairIn (.ite h.pairIn h)))

theorem Block.Canonical.eyeBytes (h : s.Canonical) {mask} : (s.eyeBytes mask).1.Canonical := by
  unfold Block.eyeBytes
  split
  · exact h
  · exact h.update

theorem Block.Canonical.writeBuf (h : s.Canonical) {dev addr bs} : (s.writeBuf dev addr bs).1.Canonical := by
  unfold Block.writeBuf
  split
  · split
    next t heq =>
      have ht : t.Canonical := .of_fst heq h.writeVirt
      exact ht
    next t1 _ heq =>
      have ht1 : t1.Canonical := .of_fst heq h.writeVirt
      exact ht1
  · exact h.emit

theorem Block.Canonical.readBuf (h : s.Canonical) {dev addr n host} : (s.readBuf dev addr n host).1.Canonical := by
  unfold Block.readBuf
  split
  · split
    next t _ heq =>
      have ht : t.Canonical := .of_fst heq h.readVirt
      exact ht
    next t1 _ _ heq =>
      have ht1 : t1.Canonical := .of_fst heq h.readVirt
      exact ht1
  · exact h

theorem Block.Canonical.sweepOver (h : s.Canonical) {w} : (s.sweepOver w).Canonical := h.update.loadDelays.pairGoto
theorem Block.Canonical.sweepStart (h : s.Canonical) {w} : (s.sweepStart w).Canonical := h.update.modPair.pairGoto

theorem Block.Canonical.sweepAccept (h : s.Canonical) {c} : (s.sweepAccept c).Canonical :=
  .ite h.complete (.ite h.complete (.ite h.complete h.sweepStart.setStage))

theorem Block.Canonical.sweepEnd (h : s.Canonical) {w pass xok} : (s.sweepEnd w pass xok).Canonical := by
  unfold Block.sweepEnd
  extract_lets -underBinder masks
  split
  next t _ heq =>
    have ht : t.Canonical := .of_fst heq (h.foldl_fst fun _ _ ht => ht.eyeBytes)
    extract_lets -underBinder
    split
    next u _ heq =>
      have hu : u.Canonical := .of_fst heq ht.sweepOver.writeBuf
      exact hu.post.complete

/-! Machine/Seedbank.lean -/

theorem Block.Canonical.seedPut (h : s.Canonical) {a bs} : (s.seedPut a bs).Canonical := h.update
theorem Block.Canonical.seedAsk (h : s.Canonical) {r} : (s.seedAsk r).Canonical := h.update

theorem Block.Canonical.seedStep (h : s.Canonical) {n} : (s.seedStep n).Canonical := by
  unfold Block.seedStep
  split
  · exact h
  · exact h.advance.seedPut.update

theorem Block.Canonical.chkRewrite (h : s.Canonical) {ty slot} : (s.chkRewrite ty slot).Canonical :=
  .ite h (.post (.bump (.ite h.advance.seedPut h.advance.seedPut)))

theorem Block.Canonical.seedStart (h : s.Canonical) : s.seedStart.Canonical := by
  unfold Block.seedStart
  split
  · split
    · exact .ite h.update (.ite h.update.chkRewrite h)
    · exact h
  · exact h

theorem Block.Canonical.seedCommit (h : s.Canonical) : s.seedCommit.1.Canonical := by
  unfold Block.seedCommit
  split
  · exact h
  · exact h.seedStep.update.bump.post

theorem Block.Canonical.seedAbandon (h : s.Canonical) {result} : (s.seedAbandon result).Canonical := by
  unfold Block.seedAbandon
  split
  · exact h
  · extract_lets _ _ _ t
    have ht : t.Canonical := .ite h.update h.update
    split
    · exact ht.bump.post.complete
    · exact ht.bump.post

theorem Block.Canonical.seedUncorr (h : s.Canonical) {w} : (s.seedUncorr w).Canonical := h.bump.faultEv
theorem Block.Canonical.slotErrors (h : s.Canonical) {ty slot} : (s.slotErrors ty slot).Canonical := h.foldl fun _ _ ht => ht.seedUncorr

theorem Block.Canonical.chkAsk (h : s.Canonical) {ty slot} : (s.chkAsk ty slot).Canonical :=
  .ite (.ite h.update h.update.seedAsk) h.update.chkRewrite

theorem Block.Canonical.seedCheck (h : s.Canonical) {ty slot} : (s.seedCheck ty slot).Canonical :=
  .ite h.slotErrors.chkAsk (.ite h.slotErrors.post h.slotErrors)

theorem Block.Canonical.reservedPut (h : s.Canonical) {kind bs} : (s.reservedPut kind bs).Canonical := h.seedPut

theorem Block.Canonical.copyStep (h : s.Canonical) {n} : (s.copyStep n).Canonical := by
  unfold Block.copyStep
  split
  · exact h
  · exact h.advance.seedPut.update

theorem Block.Canonical.reservedAsk (h : s.Canonical) {kind bs} : (s.reservedAsk kind bs).Canonical := h.seedAsk

theorem Block.Canonical.copyStart (h : s.Canonical) : s.copyStart.Canonical := by
  unfold Block.copyStart
  split
  · split
    · exact h.update
    · exact h
  · exact h

theorem Block.Canonical.scrubWord (h : s.Canonical) {w} : (s.scrubWord w).Canonical := h.update
theorem Block.Canonical.seedSel (h : s.Canonical) {v} : (s.seedSel v).Canonical := .ite h.setReg.setRegs h.setReg.setRegs
theorem Block.Canonical.blow (h : s.Canonical) {i} : (s.blow i).Canonical := h.update
theorem Block.Canonical.blowAll (h : s.Canonical) {l} : (s.blowAll l).Canonical := .ite h.update (h.foldl fun _ _ ht => ht.blow)

theorem Block.Canonical.blowHeld (h : s.Canonical) : s.blowHeld.Canonical :=
  .foldl (h.update.foldl fun _ _ ht => ht.blow) fun _ _ ht => ht.complete

theorem Block.Canonical.verified (h : s.Canonical) {ok} : (s.verified ok).Canonical := .ite h.bump.postTally h.bump.postTally.bump

theorem Block.Canonical.seedStore (h : s.Canonical) {c host} : (s.seedStore c host).Canonical := by
  unfold Block.seedStore
  extract_lets _
  split
  · exact h.complete
  · split
    · exact h.complete
    · split
      next t heq =>
        have ht : t.Canonical := .of_fst heq h.readBuf
        exact ht.complete
      next t1 _ heq =>
        have ht1 : t1.Canonical := .of_fst heq h.readBuf
        exact .ite (.complete (.post (.ite ht1.verified ht1))) (.setStage (.seedAsk (.ite ht1.verified ht1)))

theorem Block.Canonical.seedLoad (h : s.Canonical) {c xok} : (s.seedLoad c xok).Canonical :=
  .ite h.complete (.ite h.complete (.complete (.writeBuf (.ite h.slotErrors.update h.slotErrors))))

/-! Machine/Trust.lean -/

theorem Block.Canonical.measure (h : s.Canonical) {ty digest} : (s.measure ty digest).Canonical := h.update.setMem
theorem Block.Canonical.rsaQueue (h : s.Canonical) {q} : (s.rsaQueue q).Canonical := h.update
theorem Block.Canonical.rsaWaited (h : s.Canonical) {since} : (s.rsaWaited since).Canonical := h.update

theorem Block.Canonical.attestStart (h : s.Canonical) {c} : (s.attestStart c).Canonical :=
  .ite h.complete (.ite h.complete (.ite h.rsaQueue h.update.setStage))

theorem Block.Canonical.attestEnd (h : s.Canonical) {a sig xok} : (s.attestEnd a sig xok).Canonical :=
  .ite h.update.bump.postTally.writeBuf.postI.complete h.update.bump.postTally.writeBuf.complete

theorem Block.Canonical.ownerPackage (h : s.Canonical) {c host} : (s.ownerPackage c host).1.Canonical := by
  unfold Block.ownerPackage
  extract_lets _
  split
  · exact h
  · split
    · exact h
    · split
      · exact h
      · split
        next t _ heq =>
          have ht : t.Canonical := .of_fst heq h.readBuf
          exact .ite_fst ht ht
        next t1 heq =>
          have ht1 : t1.Canonical := .of_fst heq h.readBuf
          exact ht1

theorem Block.Canonical.ownerDone (h : s.Canonical) {o fuses} : (s.ownerDone o fuses).Canonical :=
  .ite h.blowAll.post.update.setStage h.blowAll.post.complete

theorem Block.Canonical.ownerRecord (h : s.Canonical) {o} : (s.ownerRecord o).Canonical := h.update.seedAsk.setStage
theorem Block.Canonical.authorised (h : s.Canonical) {o p} : (s.authorised o p).1.Canonical := h.verified

theorem Block.Canonical.ownerInstall (h : s.Canonical) {c p} : (s.ownerInstall c p).Canonical :=
  .ite h.complete (.ite (.ownerRecord (.ite_fst h h.authorised)) (.complete (.ite_fst h h.authorised)))

theorem Block.Canonical.ownerRevoke (h : s.Canonical) {c p} : (s.ownerRevoke c p).Canonical :=
  .ite h.authorised.complete (.ite h.authorised.complete h.authorised.ownerDone)

theorem Block.Canonical.ownerPolicyOn (h : s.Canonical) {c p} : (s.ownerPolicyOn c p).Canonical :=
  .ite h.authorised.ownerDone h.authorised.complete

theorem Block.Canonical.ownerRestore (h : s.Canonical) {c p} : (s.ownerRestore c p).Canonical := .ite h.ownerRecord h.complete

theorem Block.Canonical.ownerWritten (h : s.Canonical) : s.ownerWritten.Canonical := by
  unfold Block.ownerWritten
  split
  · exact h
  · exact h.update.ownerDone

theorem Block.Canonical.ownerKey {f : Block → Cmd → List Byte → Block} (h : s.Canonical)
    (hf : ∀ (t : Block) x1 x2, t.Canonical → (f t x1 x2).Canonical) {cseq op host} :
    (s.ownerKey cseq op host f).Canonical := by
  unfold Block.ownerKey
  split
  · split
    · exact h.complete
    · split
      · exact h
      · split
        next t _ heq =>
          have ht : t.Canonical := .of_fst heq h.ownerPackage
          exact hf _ _ _ ht
        next t1 _ heq =>
          have ht1 : t1.Canonical := .of_fst heq h.ownerPackage
          exact ht1.complete
  · exact h

theorem Block.Canonical.newChallenge (h : s.Canonical) {random} : (s.newChallenge random).Canonical := h.update

theorem Block.Canonical.jtagResponse (h : s.Canonical) {modulus scope sig} : (s.jtagResponse modulus scope sig).Canonical :=
  .post (.update (.ite h.verified h))

/-! Machine/Time.lean -/

theorem Block.Canonical.postStep (h : s.Canonical) {off} : (s.postStep off).Canonical := h.post
theorem Block.Canonical.stepFt (h : s.Canonical) {off} : (s.stepFt off).Canonical := h.update.postStep

theorem Block.Canonical.correct (h : s.Canonical) {off} : (s.correct off).Canonical :=
  .ite h.update (.ite h.update.stepFt (.ite h.update h.update))

theorem Block.Canonical.putOffset (h : s.Canonical) {off} : (s.putOffset off).Canonical := h.setReg
theorem Block.Canonical.goSrc (h : s.Canonical) {c} : (s.goSrc c).Canonical := .ite (.ite h h.update) h.update.post
theorem Block.Canonical.srcUp (h : s.Canonical) {c} : (s.srcUp c).Canonical := .ite h.goSrc h
theorem Block.Canonical.stamp (h : s.Canonical) {c off} : (s.stamp c off).Canonical := .ite h h.update.putOffset.setReg.correct

theorem Block.Canonical.requalify (h : s.Canonical) {c} : ∀ t ∈ s.requalify c, t.Canonical := by
  fun_cases Block.requalify s c <;> rintro t ⟨⟩
  exact h.advance.goSrc

theorem Block.Canonical.goodEdge (h : s.Canonical) : s.goodEdge.Canonical := .ite h.update.srcUp h.update

theorem Block.Canonical.fsyncEdge (h : s.Canonical) : s.fsyncEdge.Canonical :=
  .ite (.ite h h.update) (.ite h.goodEdge.update.stamp h.goodEdge)

theorem Block.Canonical.fabricStamp (h : s.Canonical) {off} : (s.fabricStamp off).Canonical := .stamp (.ite h.update h.update.srcUp)
theorem Block.Canonical.ftSet (h : s.Canonical) {v} : (s.ftSet v).Canonical := .ite h (.ite h.errCause h.putOffset.correct)

theorem Block.Canonical.fsyncDrop (h : s.Canonical) : s.fsyncDrop.Canonical := h.update

theorem Block.Canonical.timeCtrl (h : s.Canonical) {v} : (s.timeCtrl v).Canonical := by
  unfold Block.timeCtrl
  extract_lets _ _ _ t _ t1
  have ht : t.Canonical := .ite h.errCause h
  have ht1 : t1.Canonical := .ite ht.setReg ht.setReg.fsyncDrop
  exact .ite ht1.goSrc ht1

theorem Block.Canonical.tcAnchor (h : s.Canonical) {v ft} : (s.tcAnchor v ft).Canonical := .ite h.update.post h.update
theorem Block.Canonical.tcFabric (h : s.Canonical) {d} : (s.tcFabric d).Canonical := .ite h.tcAnchor h

/-! Machine/Fabric.lean -/

theorem Block.Canonical.modF (h : s.Canonical) {p} {f : FabPort → FabPort} : (s.modF p f).Canonical := h.update
theorem Block.Canonical.postF (h : s.Canonical) {p ty data} : (s.postF p ty data).Canonical := h.postI
theorem Block.Canonical.fGoto (h : s.Canonical) {p st} : (s.fGoto p st).Canonical := .ite h h.modF.postF
theorem Block.Canonical.putFrame (h : s.Canonical) {p cls b} : (s.putFrame p cls b).Canonical := h.emit
theorem Block.Canonical.freeCells (h : s.Canonical) {p c n} : (s.freeCells p c n).Canonical := h.modF

theorem Block.Canonical.unhold (h : s.Canonical) {id} : (s.unhold id).Canonical := by
  unfold Block.unhold
  split
  · exact h
  · exact .ite h.update.freeCells h.update

theorem Block.Canonical.sendOne (h : s.Canonical) {p i} : (s.sendOne p i).Canonical := by
  unfold Block.sendOne
  extract_lets -underBinder _
  split
  · exact h
  · extract_lets _
    split
    · exact h.modF.putFrame.unhold
    · exact h.modF.putFrame

theorem Block.Canonical.pumpN (h : s.Canonical) {p n} : (s.pumpN p n).Canonical := by
  induction n generalizing s with
  | zero => exact h
  | succ n ih =>
    rw [Block.pumpN]
    split
    · exact ih h.sendOne
    · exact h

theorem Block.Canonical.pump (h : s.Canonical) {p} : (s.pump p).Canonical := h.pumpN
theorem Block.Canonical.enqueue (h : s.Canonical) {p t} : (s.enqueue p t).Canonical := h.modF.pump
theorem Block.Canonical.sendLocal (h : s.Canonical) {p cls proto pay} : (s.sendLocal p cls proto pay).Canonical := h.enqueue

theorem Block.Canonical.flood (h : s.Canonical) {proto pay but} : (s.flood proto pay but).Canonical :=
  h.foldl fun _ _ ht => .ite ht ht.sendLocal

theorem Block.Canonical.linkCtrl (h : s.Canonical) {p nak audit} : (s.linkCtrl p nak audit).Canonical := h.modF.putFrame

theorem Block.Canonical.resend (h : s.Canonical) {p} : (s.resend p).Canonical :=
  .postTally (.bump (.modF (h.foldl fun _ _ ht => ht.putFrame)))

theorem Block.Canonical.nbrDrop (h : s.Canonical) {p} : (s.nbrDrop p).Canonical := .ite h.modF.update h
theorem Block.Canonical.retrain (h : s.Canonical) {p cause} : (s.retrain p cause).Canonical := h.nbrDrop.fGoto.bump.modF.faultEv
theorem Block.Canonical.retry (h : s.Canonical) {p} : (s.retry p).Canonical := .ite h.retrain h.resend

theorem Block.Canonical.sendAcked (h : s.Canonical) {cseq} : (s.sendAcked cseq).Canonical := by
  unfold Block.sendAcked
  split
  · exact h
  · exact .ite h.update.complete h.update

theorem Block.Canonical.acknowledge (h : s.Canonical) {p ack} : (s.acknowledge p ack).Canonical := by
  unfold Block.acknowledge
  extract_lets _ _ t
  have ht : t.Canonical := .ite h h.modF
  refine .foldl ht fun _ _ ht1 => ?_
  split
  · exact ht1.sendAcked
  · exact ht1

theorem Block.Canonical.auditIn (h : s.Canonical) {p d} : (s.auditIn p d).Canonical := h.modF
theorem Block.Canonical.creditIn (h : s.Canonical) {p d} : (s.creditIn p d).Canonical := h.modF

theorem Block.Canonical.linkCtrlIn (h : s.Canonical) {p d audit} : (s.linkCtrlIn p d audit).Canonical :=
  .pump (.ite (h.acknowledge.auditIn.foldl fun _ _ ht => ht.putFrame) (.ite h.acknowledge.creditIn.retry h.acknowledge.creditIn))

theorem Block.Canonical.imagePut (h : s.Canonical) {off bs} : (s.imagePut off bs).Canonical := h.update
theorem Block.Canonical.bootAsk (h : s.Canonical) {p off} : (s.bootAsk p off).Canonical := h.sendLocal

theorem Block.Canonical.bootData (h : s.Canonical) {p d} : (s.bootData p d).Canonical :=
  .ite h (.ite h.update.imagePut.bootAsk h.update.imagePut)

theorem Block.Canonical.romTrain (h : s.Canonical) : s.romTrain.Canonical := .ite (.ite (.ite h h.modF) (.modF (.ite h h.modF))) h

theorem Block.Canonical.admitStart (h : s.Canonical) {p nonce} : (s.admitStart p nonce).Canonical := h.modF.sendLocal.sendLocal

theorem Block.Canonical.fLinkUp (h : s.Canonical) {p nonce} : (s.fLinkUp p nonce).Canonical := by
  unfold Block.fLinkUp
  extract_lets _ t _ t1
  have ht : t.Canonical := .ite h.modF h
  have ht1 : t1.Canonical := ht.modF.fGoto.linkCtrl
  exact .ite ht1.admitStart ht1.update

theorem Block.Canonical.moduleFollows (h : s.Canonical) {p} : (s.moduleFollows p).Canonical := .ite (.emit (.ite h.emit h)) (.ite h.emit h)

theorem Block.Canonical.fRefresh (h : s.Canonical) {p} : (s.fRefresh p).Canonical :=
  .ite (.ite h h.nbrDrop.fGoto.moduleFollows) (.ite (.ite h h.nbrDrop.fGoto.moduleFollows) (.ite h.fGoto.moduleFollows h))

theorem Block.Canonical.fabricApply (h : s.Canonical) : s.fabricApply.Canonical := h.foldl fun _ _ ht => ht.fRefresh

theorem Block.Canonical.moduleAlarm (h : s.Canonical) {p flags} : (s.moduleAlarm p flags).Canonical := h.faultEv
theorem Block.Canonical.modulePolled (h : s.Canonical) {p temp alarm} : (s.modulePolled p temp alarm).Canonical := h.advance.modF

theorem Block.Canonical.awaitReplay (h : s.Canonical) {p c cells lseq} : (s.awaitReplay p c cells lseq).Canonical :=
  .ite h.modF.linkCtrl h.modF

theorem Block.Canonical.drift (h : s.Canonical) {p rem} : (s.drift p rem).Canonical :=
  .ite h (.linkCtrl (h.foldl fun _ _ ht => .ite ht ht.bump.postF))

theorem Block.Canonical.acceptSeq (h : s.Canonical) {p c cells lseq} : (s.acceptSeq p c cells lseq).Canonical :=
  .ite h.modF.modF.drift h.modF

theorem Block.Canonical.flowIn (h : s.Canonical) {b} : (s.flowIn b).1.Canonical := by
  unfold Block.flowIn
  split
  · exact h
  · extract_lets -underBinder _
    split
    · exact h.update
    · exact .ite_fst (.ite h.update h.update.post) h.update

theorem Block.Canonical.putCP11 (h : s.Canonical) {va bs cur} : ∀ t ∈ s.putCP11 va bs cur, t.Canonical := by
  induction bs generalizing s va cur with
  | nil => rintro t ⟨⟩; exact h
  | cons b bs ih =>
    unfold Block.putCP11
    extract_lets pa
    clear_value pa
    split
    · exact ih h.setMemB.freshBlock
    · split
      · extract_lets pa
        split
        · exact ih h.setMemB.freshBlock
        · rintro t ⟨⟩
      · rintro t ⟨⟩

theorem Block.Canonical.hostRx (h : s.Canonical) {b} : (s.hostRx b).Canonical := by
  unfold Block.hostRx
  extract_lets _
  split
  · exact h.bump.postTally
  · split
    next t heq =>
      have ht : t.Canonical := h.putCP11 _ heq
      exact ht.setReg.post
    · exact h.bump.postTally

theorem Block.Canonical.forward (h : s.Canonical) {p c cells b out} : (s.forward p c cells b out).Canonical :=
  .ite h.freeCells (.ite h.bump.postTally.freeCells (h.update.foldl fun _ _ ht => ht.enqueue))

theorem Block.Canonical.deliver (h : s.Canonical) {b} : (s.deliver b).Canonical := by
  unfold Block.deliver
  split
  next t heq =>
    have ht : t.Canonical := .of_fst heq h.flowIn
    exact .ite ht.tcFabric ht
  next t1 heq =>
    have ht1 : t1.Canonical := .of_fst heq h.flowIn
    exact ht1

theorem Block.Canonical.dispatch (h : s.Canonical) {p c cells b} : (s.dispatch p c cells b).Canonical := by
  unfold Block.dispatch
  extract_lets _ t
  have ht : t.Canonical := .ite h.deliver h
  split
  · exact .ite h h.freeCells
  · split
    · exact .ite h h.freeCells
    · split
      · exact .ite h (.ite (.ite (.ite h.bootData h) h.deliver) (.freeCells (.ite (.ite h.bootData h) h.deliver)))
      · split
        · exact .ite h h.freeCells
        · split
          · exact .ite (.ite h.bump.postTally h.bump.postTally.freeCells) ht.forward
          · split
            · exact .ite h.bump h.bump.freeCells
            · exact .ite h.deliver h.deliver.freeCells
            · exact .forward (.ite h.bump.postTally h)

theorem Block.Canonical.badCrc (h : s.Canonical) {p c cells} : (s.badCrc p c cells).Canonical :=
  .ite h.bump.postTally.awaitReplay (.ite h.bump.postTally.modF h.bump.postTally)

theorem Block.Canonical.frameIn (h : s.Canonical) {p data bad} : (s.frameIn p data bad).Canonical :=
  .ite h.badCrc (.ite (.ite h.acceptSeq.dispatch (.ite h.awaitReplay h)) (.ite h.modF.dispatch (.ite h.dispatch h)))

theorem Block.Canonical.sendOn (h : s.Canonical) {cseq frames out} : (s.sendOn cseq frames out).Canonical :=
  h.update.foldl fun _ _ ht => ht.foldl fun _ _ ht1 => ht1.enqueue

theorem Block.Canonical.sendMsg (h : s.Canonical) {c msg r} : (s.sendMsg c msg r).Canonical := by
  unfold Block.sendMsg
  extract_lets -underBinder _ _ _ _ _ t
  have ht : t.Canonical := h.update.setStage
  split
  · extract_lets _ t1
    have ht1 : t1.Canonical := .ite (ht.foldl fun _ _ ht1 => ht1.hostRx) ht
    exact .ite ht1.complete ht1.sendOn
  · exact .complete (ht.foldl fun _ _ ht1 => ht1.hostRx)
  · exact .sendOn (.ite ht.bump.postTally ht)

theorem Block.Canonical.timecode (h : s.Canonical) {c} : (s.timecode c).Canonical :=
  .ite h.complete (.complete (.ite (.foldl (.ite h.tcAnchor h) fun _ _ ht => ht.enqueue) (.ite h.tcAnchor h)))

theorem Block.Canonical.creditCapture (h : s.Canonical) {p v} : (s.creditCapture p v).Canonical := h.setRegs

/-! Machine/Route.lean -/

theorem Block.Canonical.fChange (h : s.Canonical) : s.fChange.Canonical := h.update

theorem Block.Canonical.helloIn (h : s.Canonical) {p d} : (s.helloIn p d).Canonical := by
  unfold Block.helloIn
  extract_lets _ _ _ _ _ _ _ t
  have ht : t.Canonical := .ite h.modF.update h.modF
  exact .ite (ht.bump.foldl fun _ _ ht1 => ht1.sendLocal) ht

theorem Block.Canonical.lsaFollows (h : s.Canonical) : s.lsaFollows.Canonical := .ite h.update h

theorem Block.Canonical.lsaStore (h : s.Canonical) {l} : (s.lsaStore l).Canonical := .ite h.update h.update.fChange

theorem Block.Canonical.originate (h : s.Canonical) : s.originate.Canonical := h.update.lsaStore.bump.flood

theorem Block.Canonical.lsaDrop (h : s.Canonical) {u} : (s.lsaDrop u).Canonical := h.update.fChange

theorem Block.Canonical.lsaIn (h : s.Canonical) {p d} : (s.lsaIn p d).Canonical :=
  .ite (.ite h.update.originate h) (.ite h (.flood (.bump (.ite h.lsaDrop h.lsaStore.bump))))

theorem Block.Canonical.takeAddr (h : s.Canonical) : s.takeAddr.Canonical := .ite h h.update.post

theorem Block.Canonical.noteAbsent (h : s.Canonical) : s.noteAbsent.Canonical := h.update

theorem Block.Canonical.assignFlood (h : s.Canonical) {root} : (s.assignFlood root).Canonical := h.update.foldl fun _ _ ht => ht.flood

theorem Block.Canonical.takeRoot (h : s.Canonical) : s.takeRoot.Canonical := .ite h h.update.fChange.post

theorem Block.Canonical.rootPass (h : s.Canonical) : s.rootPass.Canonical := by
  unfold Block.rootPass
  extract_lets -underBinder _
  split
  · exact h.takeRoot
  · split
    · exact h.takeRoot
    · extract_lets t
      have ht : t.Canonical := h.takeRoot.noteAbsent
      exact .ite (.assignFlood (.fChange (.takeAddr (.update (.ite ht ht.post))))) (.ite (.assignFlood (.ite ht ht.post)) (.ite ht ht.post))

theorem Block.Canonical.assignPart (h : s.Canonical) {root seq part all l} : (s.assignPart root seq part all l).Canonical :=
  .ite h.update h.update.takeAddr.fChange

theorem Block.Canonical.assignIn (h : s.Canonical) {p d} : (s.assignIn p d).Canonical := .ite h h.flood.assignPart

theorem Block.Canonical.postParent (h : s.Canonical) : s.postParent.Canonical := h.post

theorem Block.Canonical.swap (h : s.Canonical) {ms t} : (s.swap ms t).Canonical := .ite h.update.bump.post h.update.bump.post.postParent

theorem Block.Canonical.syncSend (h : s.Canonical) : s.syncSend.Canonical := h.update.foldl fun _ _ ht => ht.sendLocal

theorem Block.Canonical.syncIn (h : s.Canonical) {p d stamp} : (s.syncIn p d stamp).Canonical := .ite h.update.fabricStamp h.update
theorem Block.Canonical.syncHeard (h : s.Canonical) {p d stamp} : (s.syncHeard p d stamp).Canonical := .ite h.syncIn h

theorem Block.Canonical.pdelay (h : s.Canonical) {p kind pseq t1 t2 t3 t4} : (s.pdelay p kind pseq t1 t2 t3 t4).Canonical := by
  unfold Block.pdelay
  split
  · exact h.advance.update.modF.sendLocal
  · exact h.sendLocal
  · exact h.modF

theorem Block.Canonical.admitJudge (h : s.Canonical) {p proof} : (s.admitJudge p proof).Canonical :=
  .ite h.postF.modF.fGoto.pump.update h.postF.fGoto.modF

theorem Block.Canonical.proofSend (h : s.Canonical) {p sig} : (s.proofSend p sig).Canonical := h.bump.postTally.sendLocal
theorem Block.Canonical.proofIn (h : s.Canonical) {p ok} : (s.proofIn p ok).Canonical := .ite h.verified.admitJudge h.verified

theorem Block.Canonical.rsaServe (h : s.Canonical) {l} : (s.rsaServe l).Canonical := by
  induction l generalizing s with
  | nil => exact h.update
  | cons e l ih =>
    obtain ⟨t, r⟩ := e
    cases r with
    | sign a => exact h.update.rsaWaited.setStage
    | prove p sig => exact ih h.rsaWaited.proofSend
    | verify p ok => exact ih h.rsaWaited.proofIn

theorem Block.Canonical.rsaAsk (h : s.Canonical) {q} : (s.rsaAsk q).Canonical := .ite h.rsaQueue h.rsaServe

theorem Block.Canonical.rsaDrop (h : s.Canonical) : s.rsaDrop.Canonical := h.update.rsaServe

theorem Block.Canonical.admitIn (h : s.Canonical) {p d serial rsa sig} : (s.admitIn p d serial rsa sig).Canonical := by
  unfold Block.admitIn
  split
  · exact .ite h.modF.rsaAsk h.modF
  · exact h.modF
  · exact h.rsaAsk
  · exact h

theorem Block.Canonical.bootReq (h : s.Canonical) {p d} : (s.bootReq p d).Canonical := by
  unfold Block.bootReq
  extract_lets _
  split
  · exact h.sendLocal
  · exact h.sendLocal

/-! Machine/Colour.lean -/

theorem Block.Canonical.modPd (h : s.Canonical) {j} {f : PdState → PdState} : (s.modPd j f).Canonical := h.update
theorem Block.Canonical.saturated (h : s.Canonical) {j n} : (s.saturated j n).Canonical := .ite h h.bump.postTally.modPd

theorem Block.Canonical.offsetClose (h : s.Canonical) {j r code sat} : (s.offsetClose j r code sat).Canonical :=
  .ite h.saturated h.saturated.modPd

theorem Block.Canonical.offsetAt (h : s.Canonical) {j r} : ∀ t ∈ s.offsetAt j r, t.Canonical := by
  fun_cases Block.offsetAt s j r <;> rintro t ⟨⟩
  · exact h.advanceTo
  · exact h.toSlot

theorem Block.Canonical.modEst (h : s.Canonical) {g} {f : Est → Est} : (s.modEst g f).Canonical := h.update

theorem Block.Canonical.measureTake (h : s.Canonical) {g a b q len x flat filt} : (s.measureTake g a b q len x flat filt).Canonical := by
  unfold Block.measureTake
  extract_lets _
  split
  · exact h.modPd.modPd.modEst
  · exact .ite h.modPd.modPd h.modPd.modPd.postI

theorem Block.Canonical.measureClose (h : s.Canonical) {g i flat filt satA satB} : (s.measureClose g i flat filt satA satB).Canonical := by
  unfold Block.measureClose
  split
  · extract_lets _ t
    have ht : t.Canonical := h.toSlot.saturated.saturated
    exact .ite h (.ite ht ht.measureTake)
  · exact h

theorem Block.Canonical.estFrame (h : s.Canonical) {g} : (s.estFrame g).Canonical := .ite (.ite h.modEst.postI h.modEst) h.modEst
theorem Block.Canonical.matrixStep (h : s.Canonical) {new fresh} : (s.matrixStep new fresh).Canonical := .ite h.update.postTally h.update

theorem Block.Canonical.hmUpdate (h : s.Canonical) : s.hmUpdate.Canonical := by
  unfold Block.hmUpdate
  split
  · exact h
  · extract_lets -underBinder _
    split
    · exact h.update
    · exact h.update

theorem Block.Canonical.matrixRow3 (h : s.Canonical) : s.matrixRow3.Canonical := h.update

theorem Block.Canonical.colourMatrix (h : s.Canonical) : s.colourMatrix.Canonical := by
  unfold Block.colourMatrix
  extract_lets _ _ _ _ t
  have ht : t.Canonical := .ite h.update.hmUpdate h.update
  split
  · exact ht
  · split
    · split
      · exact ht.matrixRow3.matrixStep.update
      · exact ht.matrixRow3
    · exact ht.matrixRow3

theorem Block.Canonical.targetApply (h : s.Canonical) : s.targetApply.Canonical := by
  unfold Block.targetApply
  split
  · exact .ite h.update (.ite h.update.post h)
  · exact h

theorem Block.Canonical.colourPb (h : s.Canonical) : s.colourPb.Canonical := h.targetApply.colourMatrix

theorem Block.Canonical.localTarget (h : s.Canonical) : s.localTarget.Canonical := by
  unfold Block.localTarget
  split
  · exact h
  · extract_lets -underBinder _
    split
    · exact h.update
    · exact h

theorem Block.Canonical.epochEnd (h : s.Canonical) : s.epochEnd.Canonical := .ite h.advanceTo.update.localTarget h.advanceTo.update

theorem Block.Canonical.sendGroup0 (h : s.Canonical) {pay} : (s.sendGroup0 pay).Canonical := .ite h (h.foldl fun _ _ ht => ht.enqueue)
theorem Block.Canonical.postExcluded (h : s.Canonical) {uid reason} : (s.postExcluded uid reason).Canonical := h.post

theorem Block.Canonical.reportIn (h : s.Canonical) {d} : (s.reportIn d).Canonical := by
  unfold Block.reportIn
  extract_lets _
  split
  · exact h
  · split
    · exact .ite h h.update.postExcluded
    · split
      · exact h.bump.postTally
      · split
        · exact .ite h h.update
        · exact h.update

theorem Block.Canonical.digestIn (h : s.Canonical) {d} : (s.digestIn d).Canonical := .ite h.update h

theorem Block.Canonical.setEvents (h : s.Canonical) {n} : (s.setEvents n).Canonical :=
  h.foldl fun _ _ ht => .ite ht (.ite ht.post ht.postExcluded)

theorem Block.Canonical.collect (h : s.Canonical) : s.collect.Canonical :=
  .sendGroup0 (.advanceTo (.update (h.advanceTo.setEvents.foldl fun _ _ ht => ht.postExcluded)))

theorem Block.Canonical.decide_ (h : s.Canonical) : s.decide_.Canonical := by
  unfold Block.decide_
  extract_lets -underBinder _ _ _ t t1
  have ht : t.Canonical := h.advanceTo.update
  have ht1 : t1.Canonical := h.advanceTo.update
  split
  · split
    · exact ht.update
    · exact ht
  · exact ht1.bump.post

theorem Block.Canonical.estCapture (h : s.Canonical) {g} : (s.estCapture g).Canonical := h.setRegs

theorem Block.Canonical.targetCapture (h : s.Canonical) {k} : (s.targetCapture k).Canonical := by
  unfold Block.targetCapture
  split
  · exact h.setRegs
  · exact h.setRegs

theorem Block.Canonical.matCapture (h : s.Canonical) {v} : (s.matCapture v).Canonical := h.setReg
theorem Block.Canonical.pdCapture (h : s.Canonical) {j} : (s.pdCapture j).Canonical := h.setReg

/-! Machine/Chk.lean -/

theorem Block.Canonical.modChk (h : s.Canonical) {u} {f : ChkUnit → ChkUnit} : (s.modChk u f).Canonical := h.update
theorem Block.Canonical.chkSeqErr (h : s.Canonical) {u} : (s.chkSeqErr u).Canonical := h.modChk
theorem Block.Canonical.chkStart (h : s.Canonical) {u} : (s.chkStart u).Canonical := h.modChk
theorem Block.Canonical.chkFeed (h : s.Canonical) {u v} : (s.chkFeed u v).Canonical := .ite h.modChk h.chkSeqErr
theorem Block.Canonical.chkMem (h : s.Canonical) {u} : (s.chkMem u).Canonical := .ite h.modChk h.chkSeqErr

theorem Block.Canonical.chkFinal (h : s.Canonical) {u} : (s.chkFinal u).Canonical := by
  unfold Block.chkFinal
  extract_lets _ _ _ _ _ _ _ _ t
  have ht : t.Canonical := .ite h.modChk.setInt.post h.modChk.setInt
  exact .ite ht.post ht

theorem Block.Canonical.chkFinish (h : s.Canonical) {u} : (s.chkFinish u).Canonical := .ite h.chkSeqErr (.ite h.modChk h.chkFinal)

theorem Block.Canonical.chkBeat (h : s.Canonical) {u phys a left cur} : (s.chkBeat u phys a left cur).1.Canonical :=
  .ite_fst (.ite_fst (.ite h.dramReq h) h) h.beat

theorem Block.Canonical.chkRead (h : s.Canonical) {u phys a n cur k} : (s.chkRead u phys a n cur k).1.Canonical := by
  induction n generalizing s a cur k with
  | zero => exact h
  | succ n ih =>
    rw [Block.chkRead]
    split
    next t _ heq => exact .of_fst heq h.chkBeat
    next t _ heq =>
      have ht : t.Canonical := .of_fst heq h.chkBeat
      split
      · exact ht.uncorrectable
      · exact ih ht

theorem Block.Canonical.chkMemDone (h : s.Canonical) {u} : (s.chkMemDone u).Canonical := by
  unfold Block.chkMemDone
  extract_lets -underBinder _
  split
  · exact h
  · split
    · exact .ite h.chkRead.modChk.chkFinal h.chkRead.modChk
    · exact h.chkRead.modChk.setInt.post

theorem Block.Canonical.chkCfg (h : s.Canonical) {u v} : (s.chkCfg u v).Canonical := by
  unfold Block.chkCfg
  refine .rwWrite h fun _ _ ht => ?_
  extract_lets _ t t1
  have ht : t.Canonical := .ite ht.setReg.chkStart ht.setReg
  have ht1 : t1.Canonical := .ite ht.chkMem ht
  exact .ite ht1.chkFinish ht1

theorem Block.Canonical.chkPsel (h : s.Canonical) {u v} : (s.chkPsel u v).Canonical := h.rwWrite fun _ _ ht => ht.setRegs
theorem Block.Canonical.chkPhi (h : s.Canonical) {u v} : (s.chkPhi u v).Canonical := h.rwWrite fun _ _ ht => ht.setReg.modChk
theorem Block.Canonical.tallyCtrl (h : s.Canonical) {v} : (s.tallyCtrl v).Canonical := .ite h.update h

theorem Block.Canonical.tallyWrap (h : s.Canonical) {n} : (s.tallyWrap n).Canonical := by
  unfold Block.tallyWrap
  split
  · exact .ite h.update.setFld.post h
  · exact h

theorem Block.Canonical.tallyWraps (h : s.Canonical) : s.tallyWraps.Canonical := h.foldl fun _ _ ht => ht.tallyWrap

theorem Block.Canonical.tallySnap (h : s.Canonical) {fsn ft} : (s.tallySnap fsn ft).Canonical := h.tallyWraps.update.setRegs
theorem Block.Canonical.tallyRestart (h : s.Canonical) {old : Nat → Word} : (s.tallyRestart old).Canonical := h.update

/-! Machine/Validate.lean -/

theorem Block.Canonical.denyClaim (h : s.Canonical) {d} : (s.denyClaim d).Canonical := .ite h.setReg.post.errCause h.setReg.post

theorem Block.Canonical.ownersOf (h : s.Canonical) {l} : (s.ownersOf l).Canonical := by
  unfold Block.ownersOf
  refine .foldl h fun _ _ ht => ?_
  extract_lets _ l
  clear_value l
  split
  · exact ht
  · split
    · exact ht.setReg
    · exact .ite ht ht.setReg

theorem Block.Canonical.updateOwners (h : s.Canonical) : s.updateOwners.Canonical := h.ownersOf

theorem Block.Canonical.failDetail (h : s.Canonical) {f} : (s.failDetail f).2.Canonical := by
  unfold Block.failDetail
  split
  · exact h
  · exact h.update

theorem Block.Canonical.valTime (h : s.Canonical) : s.valTime.Canonical := h.update.setReg

theorem Block.Canonical.seqCheck (h : s.Canonical) : s.seqCheck.Canonical := by
  unfold Block.seqCheck
  extract_lets _
  split
  · exact h.valTime.setReg
  · exact h.valTime.failDetail.setReg

/-! Machine/Pipeline.lean -/

theorem Block.Canonical.syncDone (h : s.Canonical) : s.syncDone.Canonical := .ite h.update.post (.ite h.update.post h)

theorem Block.Canonical.mapsApply (h : s.Canonical) {pages} : (s.mapsApply pages).Canonical := h.update
theorem Block.Canonical.tablesApply (h : s.Canonical) {pages} : (s.tablesApply pages).Canonical := h.update
theorem Block.Canonical.planGo (h : s.Canonical) {v} : (s.planGo v).Canonical := .ite h.update h

theorem Block.Canonical.planStale (h : s.Canonical) : s.planStale.Canonical := h.update

theorem Block.Canonical.planDone (h : s.Canonical) : s.planDone.Canonical := .ite h h.update.setRegs.setFld.post

theorem Block.Canonical.takeSurface (h : s.Canonical) {sel src set byTag} : (s.takeSurface sel src set byTag).Canonical := by
  unfold Block.takeSurface
  split
  · exact h
  · exact h.bump.post
  · exact h.update
  · split
    · exact h.bump.post
    · extract_lets _ _ _ t
      have ht : t.Canonical := h.update.foldl fun _ _ ht => ht.modSurf
      exact .ite ht ht.bump.post

theorem Block.Canonical.clockPb (h : s.Canonical) {begins} : (s.clockPb begins).Canonical := .ite h (.ite h.update.post h.update)

theorem Block.Canonical.overrun (h : s.Canonical) : s.overrun.Canonical := h.bump.foldl fun _ _ ht => ht.modPort.postI

theorem Block.Canonical.pipeBegin (h : s.Canonical) : s.pipeBegin.1.Canonical := by
  unfold Block.pipeBegin
  split
  · exact h
  · exact .ite h.colourPb.update.beginSets h.colourPb.update.beginSets

theorem Block.Canonical.stallPb (h : s.Canonical) {began} : (s.stallPb began).Canonical :=
  .ite h (.ite h.update (.ite h.update.faultEv.update h.update))

theorem Block.Canonical.tallyTimes (h : s.Canonical) {ty inst n} : (s.tallyTimes ty inst n).Canonical := by
  induction n with
  | zero => exact h
  | succ n ih => exact ih.postTally

theorem Block.Canonical.splitReport (h : s.Canonical) {f} : (s.splitReport f).Canonical := .tallyTimes (.setRegs (.ite_snd h h.update))
theorem Block.Canonical.warpCounts (h : s.Canonical) {f} : (s.warpCounts f).Canonical := h.bump.bump.bump.setCap

theorem Block.Canonical.lateMaps (h : s.Canonical) : s.lateMaps.Canonical := by
  unfold Block.lateMaps
  split
  · exact h
  · exact .ite h (h.update.foldl fun _ _ ht => ht.modPort)

theorem Block.Canonical.pipeCount (h : s.Canonical) {f} : (s.pipeCount f).Canonical :=
  h.bump.bump.bump.tallyTimes.tallyTimes.tallyTimes.tallyTimes

theorem Block.Canonical.planesSealed (h : s.Canonical) : s.planesSealed.Canonical := by
  unfold Block.planesSealed
  extract_lets -underBinder _
  split
  · exact h.lateMaps
  · exact h.lateMaps.foldl fun _ _ ht => ht.sealSet
  · extract_lets lead set1 t2 t3 t4 _ _ t5
    clear_value lead set1
    have ht2 : t2.Canonical := h.lateMaps.foldl fun _ _ ht => ht.sealSet
    have ht3 : t3.Canonical := ht2.splitReport.warpCounts.pipeCount
    have ht4 : t4.Canonical := by
      unfold t4
      split
      · exact .ite ht3.writeHl ht3
      · exact ht3
    have ht5 : t5.Canonical := ht4.setReg.update
    exact .ite ht5.autoClose.update ht5

/-! Machine/Almanac.lean -/

theorem Block.Canonical.setCtx (h : s.Canonical) {i c} : (s.setCtx i c).Canonical := h.update
theorem Block.Canonical.cueEvent (h : s.Canonical) {ty i fsn} : (s.cueEvent ty i fsn).Canonical := h.post
theorem Block.Canonical.cueMiss (h : s.Canonical) {i res fsn} : (s.cueMiss i res fsn).Canonical := h.setCtx.bump.cueEvent
theorem Block.Canonical.cueDone (h : s.Canonical) {i} : (s.cueDone i).Canonical := h.setCtx

theorem Block.Canonical.cuesRejected (h : s.Canonical) {l fsn} : (s.cuesRejected l fsn).Canonical :=
  .update (h.foldl fun _ _ ht => .ite ht.cueMiss ht)

theorem Block.Canonical.cuesApplied (h : s.Canonical) {l} : (s.cuesApplied l).Canonical := h.foldl fun _ _ ht => .ite ht.cueDone ht

/-! Machine/Ingest.lean -/

theorem Block.Canonical.modSrc (h : s.Canonical) {n} {f : Source → Source} : (s.modSrc n f).Canonical := h.update
theorem Block.Canonical.lostFrame (h : s.Canonical) {n surf cause tag} : (s.lostFrame n surf cause tag).Canonical := h.bump.bump.post

theorem Block.Canonical.abandonAs (h : s.Canonical) {n cause tag} : (s.abandonAs n cause tag).Canonical := by
  unfold Block.abandonAs
  split
  · exact h
  · exact h.modSurf.modSrc.lostFrame

theorem Block.Canonical.abandon (h : s.Canonical) {n cause} : (s.abandon n cause).Canonical := h.abandonAs
theorem Block.Canonical.mismatch (h : s.Canonical) {n tag} : (s.mismatch n tag).Canonical := h.modSrc.lostFrame

theorem Block.Canonical.beginFrame (h : s.Canonical) {n fits} : (s.beginFrame n fits).Canonical := by
  unfold Block.beginFrame
  split
  · exact h
  · split
    · exact h.mismatch
    · split
      · exact h.lostFrame
      · split
        · exact h.lostFrame
        · exact h.modSurf.modSrc

theorem Block.Canonical.hfc (h : s.Canonical) {n i tag} : (s.hfc n i tag).Canonical := .post (.ite h.modSrc.bump h.modSrc)
theorem Block.Canonical.sealFor (h : s.Canonical) {n i tag} : (s.sealFor n i tag).Canonical := h.sealSurf.modSrc.bumpSat
theorem Block.Canonical.freshSurf (h : s.Canonical) {i} : (s.freshSurf i).Canonical := h.update

theorem Block.Canonical.endFrame (h : s.Canonical) {n tag} : (s.endFrame n tag).Canonical := by
  unfold Block.endFrame
  split
  · exact h
  · extract_lets _
    split
    next t heq =>
      have ht : t.Canonical := .of_fst heq (.compress (.ite h h.freshSurf))
      exact ht.bump.abandonAs
    next t1 heq =>
      have ht1 : t1.Canonical := .of_fst heq (.compress (.ite h h.freshSurf))
      exact .ite (.abandonAs (.ite ht1.hfc ht1)) (.sealFor (.ite ht1.hfc ht1))

theorem Block.Canonical.joinStart (h : s.Canonical) : s.joinStart.Canonical := .ite h h.abandon.abandon.update.setFld.setFld

theorem Block.Canonical.dpTake (h : s.Canonical) {a} : (s.dpTake a).Canonical := h.update

theorem Block.Canonical.unpaired (h : s.Canonical) : s.unpaired.Canonical := .ite h.bump h

theorem Block.Canonical.dpStart (h : s.Canonical) {a} : (s.dpStart a).Canonical := by
  unfold Block.dpStart
  extract_lets t _ _ t1
  have ht : t.Canonical := .ite h.joinStart h
  have ht1 : t1.Canonical := .ite ht.dpTake.unpaired.abandon ht.dpTake
  exact .ite ht.bump (.ite (.ite ht.dpTake.modSrc ht.dpTake.abandon.modSrc) (.ite ht1.beginFrame.modSrc ht1.beginFrame))

theorem Block.Canonical.storePixel (h : s.Canonical) {i bpc x y ycc cs} : (s.storePixel i bpc x y ycc cs).Canonical := h.surfWrite

theorem Block.Canonical.storeRaster (h : s.Canonical) {i bpc x0 w ycc pix} : (s.storeRaster i bpc x0 w ycc pix).Canonical :=
  h.foldl fun _ _ ht => ht.storePixel

theorem Block.Canonical.repeatLine (h : s.Canonical) {i j x0 w y} : (s.repeatLine i j x0 w y).Canonical :=
  h.foldl fun _ _ ht => ht.surfWrite

theorem Block.Canonical.badLines (h : s.Canonical) {a n i x0 w bad} : (s.badLines a n i x0 w bad).Canonical := by
  unfold Block.badLines
  split
  · exact h
  · extract_lets t
    have ht : t.Canonical := by
      unfold t
      split
      · exact h.foldl fun _ _ ht => ht.repeatLine
      · exact h
    exact ht.bump.bumpSat.post

theorem Block.Canonical.dpSeal (h : s.Canonical) {a pix bad vsc} : (s.dpSeal a pix bad vsc).Canonical := by
  unfold Block.dpSeal
  extract_lets -underBinder _
  split
  · exact h
  · split
    · exact h
    · extract_lets _ _ t t1
      have ht : t.Canonical := h.storeRaster.badLines
      have ht1 : t1.Canonical := ht.modSurf.modSrc
      exact .ite ht1 ht1.update.endFrame

theorem Block.Canonical.dpAbandon (h : s.Canonical) {a} : (s.dpAbandon a).Canonical := h.abandon
theorem Block.Canonical.postStream (h : s.Canonical) {a} : (s.postStream a).Canonical := h.post
theorem Block.Canonical.unsupported (h : s.Canonical) {code} : (s.unsupported code).Canonical := h.bump.setReg.post
theorem Block.Canonical.dscRefuse (h : s.Canonical) {a} : (s.dscRefuse a).Canonical := h.abandon.setFld.post.unsupported

theorem Block.Canonical.dpTiming (h : s.Canonical) {a t} : (s.dpTiming a t).Canonical := by
  unfold Block.dpTiming
  extract_lets t _ t1 _ t2
  have ht : t.Canonical := .ite h.abandon h
  have ht1 : t1.Canonical := ht.setRegs.setFld
  have ht2 : t2.Canonical := ht1.setFld.setFld
  exact .postStream (.ite ht2.setFld.setFld ht2.setFld.dscRefuse)

theorem Block.Canonical.dropPic (h : s.Canonical) {f target} : (s.dropPic f target).Canonical := h.modSrc
theorem Block.Canonical.lostPic (h : s.Canonical) {f cause target} : (s.lostPic f cause target).Canonical := h.dropPic.modSrc.lostFrame

theorem Block.Canonical.writePic (h : s.Canonical) {n i hfc kind width tag pps bytes ycc decoded} :
    (s.writePic n i hfc kind width tag pps bytes ycc decoded).Canonical :=
  .endFrame (.ite h.modSurf.modSrc.surfWrite h.modSurf.modSrc.storeRaster)

theorem Block.Canonical.picDone (h : s.Canonical) {f p decoded} : (s.picDone f p decoded).Canonical := by
  unfold Block.picDone
  extract_lets _
  split
  · exact h.lostPic
  · split
    · exact h.lostPic.modSrc
    · split
      · exact h.lostPic
      · exact h.dropPic.writePic

theorem Block.Canonical.contentPart (h : s.Canonical) {f bs decoded} : (s.contentPart f bs decoded).Canonical := by
  unfold Block.contentPart
  extract_lets _ _ _ _ t t1
  have ht : t.Canonical := by
    unfold t
    split
    · exact h.lostPic
    · exact h
  have ht1 : t1.Canonical := .ite h ht.modSrc
  split
  · exact h.lostPic
  · split
    · exact h.lostPic
    · split
      · exact .ite ht1.modSrc.picDone ht1.modSrc
      · exact ht1.modSrc

theorem Block.Canonical.content (h : s.Canonical) {bs decoded} : (s.content bs decoded).Canonical := by
  unfold Block.content
  split
  · exact h
  · exact .ite h.modSrc (.ite h (.ite h.contentPart (.ite h.modSrc h.modSrc.lostPic)))

theorem Block.Canonical.pictureLate (h : s.Canonical) {f} : (s.pictureLate f).Canonical := h.foldl fun _ _ ht => ht.lostPic
theorem Block.Canonical.nvmeGoto (h : s.Canonical) {st status} : (s.nvmeGoto st status).Canonical := h.update.setFld.post
theorem Block.Canonical.modNvme (h : s.Canonical) {f : NvmeState → NvmeState} : (s.modNvme f).Canonical := h.update
theorem Block.Canonical.emitRead (h : s.Canonical) {r} : (s.emitRead r).Canonical := h.emit

theorem Block.Canonical.nvmeRead (h : s.Canonical) {phase lba blocks} : (s.nvmeRead phase lba blocks).Canonical :=
  h.modNvme.foldl fun _ _ ht => ht.emitRead

theorem Block.Canonical.readUnit (h : s.Canonical) {phase unit} : (s.readUnit phase unit).Canonical := h.nvmeRead

theorem Block.Canonical.nvmeAdmin (h : s.Canonical) : s.nvmeAdmin.Canonical := h.foldl fun _ _ ht => ht.emit

theorem Block.Canonical.nvmeOff (h : s.Canonical) : s.nvmeOff.Canonical := .nvmeGoto (.modNvme (.ite (h.foldl fun _ _ ht => ht.emit) h))

theorem Block.Canonical.nvmeEnable (h : s.Canonical) {linkUp id} : (s.nvmeEnable linkUp id).Canonical := by
  unfold Block.nvmeEnable
  extract_lets -underBinder _ t _ t1 t2
  have ht : t.Canonical := h.setFld.modNvme.nvmeGoto
  have ht1 : t1.Canonical := ht.nvmeAdmin.modNvme
  have ht2 : t2.Canonical := ht1.setFld.nvmeGoto
  exact .ite ht (.ite ht.nvmeAdmin.nvmeGoto (.ite ht.nvmeAdmin.nvmeGoto ht2.readUnit))

theorem Block.Canonical.headerRead (h : s.Canonical) {x1} : (s.headerRead x1).Canonical := by
  unfold Block.headerRead
  split
  · exact h.setFld.post
  · exact h.modNvme.nvmeGoto

theorem Block.Canonical.hfcPush (h : s.Canonical) {v} : (s.hfcPush v).Canonical := .ite h.modSrc h.modSrc.setFld

theorem Block.Canonical.surfOpWrite (h : s.Canonical) {v} : (s.surfOpWrite v).Canonical := by
  unfold Block.surfOpWrite
  split
  · exact h.surfDefine
  · exact h.surfOpen
  · exact h.surfClose
  · exact h

theorem Block.Canonical.surfSelWrite (h : s.Canonical) {v} : (s.surfSelWrite v).Canonical := h.setReg.surfCapture

theorem Block.Canonical.libraryFrame (h : s.Canonical) {i target entry payload pix} :
    (s.libraryFrame i target entry payload pix).Canonical := by
  unfold Block.libraryFrame
  extract_lets _
  split
  · exact h.lostFrame.bump
  · split
    · exact h.lostFrame
    · split
      · exact h.mismatch
      · split
        · exact h.lostFrame
        · exact h.modSrc.writePic

theorem Block.Canonical.readsDone (h : s.Canonical) {pix} : (s.readsDone pix).Canonical := by
  unfold Block.readsDone
  extract_lets -underBinder _
  split
  · exact h.modNvme.headerRead
  · split
    · exact h
    · exact .ite (.ite h.modNvme.modNvme.libraryFrame h.modNvme.nvmeRead) h.modNvme.libraryFrame

theorem Block.Canonical.readsFailed (h : s.Canonical) {status} : (s.readsFailed status).Canonical :=
  .ite h.modNvme.bump.nvmeGoto h.modNvme.bump.bump

/-! Machine/Commit.lean -/

theorem Block.Canonical.commitEvent (h : s.Canonical) {ty c cause page} : (s.commitEvent ty c cause page).Canonical := h.post

theorem Block.Canonical.reject (h : s.Canonical) {c f} : (s.reject c f).Canonical :=
  .commitEvent (.cuesRejected (.setReg (h.failDetail.foldl fun _ _ ht => ht.errCause.setReg)))

theorem Block.Canonical.waitSeal (h : s.Canonical) {c} : (s.waitSeal c).1.Canonical := .ite h h.commitEvent

theorem Block.Canonical.latch (h : s.Canonical) {c} : (s.latch c).Canonical := by
  unfold Block.latch
  extract_lets -underBinder _ _ _ _ t
  have ht : t.Canonical := .ite h.update.valTime h.update
  split
  · extract_lets t1
    have ht1 : t1.Canonical := by
      unfold t1
      split
      · split
        · exact ht.denyClaim
        · exact ht
      · exact ht
    exact ht1.reject
  · exact .update (.ite_fst (.waitSeal (.ite ht.update ht)) (.ite ht.update ht))

theorem Block.Canonical.retest (h : s.Canonical) : s.retest.Canonical := h.foldl fun _ _ ht => .ite ht.waitSeal.update ht

theorem Block.Canonical.cutoffReads (h : s.Canonical) : s.cutoffReads.Canonical := .ite h.raiseBucks h

theorem Block.Canonical.cutoff (h : s.Canonical) : s.cutoff.Canonical := by
  unfold Block.cutoff
  split
  · exact h
  · extract_lets t t1
    have ht : t.Canonical := h.advanceTo.retest
    have ht1 : t1.Canonical := by
      unfold t1
      split
      · exact .ite ht.latch ht
      · exact ht
    exact ht1.update.cutoffReads

theorem Block.Canonical.commitIn (h : s.Canonical) {pages group cues} : (s.commitIn pages group cues).Canonical := by
  unfold Block.commitIn
  split
  · exact h
  · extract_lets -underBinder t
    have ht : t.Canonical := .ite h.cutoff h
    exact .ite ht.update.setRegs.commitEvent ht.update.setRegs

theorem Block.Canonical.withdraw (h : s.Canonical) {pages group} : (s.withdraw pages group).Canonical := by
  unfold Block.withdraw
  extract_lets _ _ t _ t1
  have ht : t.Canonical := .ite h h.update
  have ht1 : t1.Canonical := ht.foldl fun _ _ ht1 => ht1.errCause
  exact .ite ht1.errCause ht1

theorem Block.Canonical.recapture (h : s.Canonical) {pages} : (s.recapture pages).Canonical := by
  unfold Block.recapture
  refine .foldl h fun _ _ ht => ?_
  split
  · exact ht
  · split
    · exact ht.modSurf
    · exact ht

theorem Block.Canonical.sourceApplied (h : s.Canonical) {old : Nat → Word} {pages} : (s.sourceApplied old pages).Canonical :=
  h.tablesApply.mapsApply.recapture.foldl fun _ _ ht => .ite ht.modPort ht

theorem Block.Canonical.tablesTaken (h : s.Canonical) {c} : (s.tablesTaken c).Canonical := h.update

theorem Block.Canonical.scanApplied (h : s.Canonical) {old : Nat → Word} {pages} : (s.scanApplied old pages).Canonical := by
  unfold Block.scanApplied
  extract_lets t t1 t2 t3
  have ht : t.Canonical := .ite h.modSc h
  have ht1 : t1.Canonical := .ite ht.modSc ht
  have ht2 : t2.Canonical := .ite ht1.beamOff.modSc.hsfGoto ht1
  have ht3 : t3.Canonical := .ite ht2.modSc ht2
  exact .ite ht3.beamOff ht3

theorem Block.Canonical.lightApplied (h : s.Canonical) {old : Nat → Word} {pages} : (s.lightApplied old pages).Canonical := by
  unfold Block.lightApplied
  extract_lets _ t _ t1 t2 t3
  have ht : t.Canonical := .ite h.update h
  have ht1 : t1.Canonical := .ite ht.update ht
  have ht2 : t2.Canonical := ht1.foldl fun _ _ ht2 => .ite ht2.chnGoto ht2
  have ht3 : t3.Canonical := ht2.foldl fun _ _ ht3 => .ite ht3.darkenGroup ht3
  exact .ite ht3.refreshMembers ht3

theorem Block.Canonical.ingestApplied (h : s.Canonical) : s.ingestApplied.Canonical := h.foldl fun _ _ ht => ht.modSrc

theorem Block.Canonical.displayApplied (h : s.Canonical) {old : Nat → Word} {oldSp pages} :
    (s.displayApplied old oldSp pages).Canonical := by
  unfold Block.displayApplied
  extract_lets t t1 t2 _ t3 t4 t5 t6 t7 t8 t9 t10
  have ht : t.Canonical := .ite h.tallyRestart h
  have ht1 : t1.Canonical := .ite ht.thermApplied ht
  have ht2 : t2.Canonical := .recapture (.ite ht1.ingestApplied ht1)
  have ht3 : t3.Canonical := .ite ht2.update ht2
  have ht4 : t4.Canonical := ht3.scanApplied.lightApplied
  have ht5 : t5.Canonical := ht4.foldl fun _ _ ht5 => .ite ht5.portEn ht5
  have ht6 : t6.Canonical := .ite ht5.guestGrants ht5
  have ht7 : t7.Canonical := .ite ht6.changeDue ht6
  have ht8 : t8.Canonical := .ite (ht7.foldl fun _ _ ht8 => ht8.pairService) ht7
  have ht9 : t9.Canonical := .ite ht8.fabricApply ht8
  have ht10 : t10.Canonical := .ite ht9.lsaFollows ht9
  exact ht10.updateOwners

theorem Block.Canonical.newSeries (h : s.Canonical) : s.newSeries.Canonical := .ite h h.update

theorem Block.Canonical.stepAtFb (h : s.Canonical) : s.stepAtFb.Canonical := .ite h h.stepFt.update

theorem Block.Canonical.darkGroup (h : s.Canonical) {g} : (s.darkGroup g).Canonical := h.modGrp

theorem Block.Canonical.transition (h : s.Canonical) {old : Nat → Word} {all} : (s.transition old all).1.Canonical := by
  unfold Block.transition
  extract_lets _ _ _ n _ _ _ t _ _ t1 t2 t3
  have hn : n.Canonical := h.newSeries
  clear_value n
  have ht : t.Canonical := hn.update
  have ht1 : t1.Canonical := ht.update.foldl fun _ _ ht2 => ht2.modPort
  have ht2 : t2.Canonical := ht1.foldl fun _ _ ht3 => .ite ht3.darkPort ht3
  have ht3 : t3.Canonical := ht2.foldl fun _ _ ht4 => ht4.darkGroup
  exact .ite_fst ht.stepAtFb (.stepAtFb (.ite ht3.beamLow ht3))

theorem Block.Canonical.commitDone (h : s.Canonical) {lit c} : (Block.commitDone lit s c).Canonical :=
  .cuesApplied (.commitEvent (.ite h.setRegs.setReg h.setRegs))

theorem Block.Canonical.makeUsable (h : s.Canonical) : s.makeUsable.Canonical := .ite (h.foldl fun _ _ ht => ht.modPort) h

theorem Block.Canonical.commitFb (h : s.Canonical) : s.commitFb.Canonical := by
  unfold Block.commitFb
  extract_lets _ _ _ _ _ _ _ _ t t1 _ _ t2 t3
  have ht : t.Canonical := h.update.foldl fun _ _ ht => ht.applyVals
  have ht1 : t1.Canonical := ht.foldl fun _ _ ht1 => ht1.applyVals
  have ht2 : t2.Canonical := ht1.sourceApplied
  have ht3 : t3.Canonical := .ite ht2 (.displayApplied (ht2.foldl fun _ _ ht3 => ht3.tablesTaken))
  split
  next t4 _ heq =>
    have ht4 : t4.Canonical := .of_fst heq (.ite_fst ht3.transition ht3)
    extract_lets _ _ t5
    have ht5 : t5.Canonical := ht4.update.foldl fun _ _ ht6 => ht6.commitDone
    exact .ite ht5 ht5.makeUsable

/-! Machine/Hold.lean -/

theorem Block.Canonical.modHo (h : s.Canonical) {f : HoldState → HoldState} : (s.modHo f).Canonical := h.update

theorem Block.Canonical.enterFrost (h : s.Canonical) {reason us} : (s.enterFrost reason us).Canonical :=
  .ite h.goto.selfRefresh.selfRefresh h

theorem Block.Canonical.thaw (h : s.Canonical) {us} : (s.thaw us).Canonical := .ite h.goto.leaveRefresh.leaveRefresh.modHo h
theorem Block.Canonical.slotWrite (h : s.Canonical) {k off bs} : (s.slotWrite k off bs).Canonical := .ite h.setCap h.setMem

theorem Block.Canonical.ringRecord (h : s.Canonical) {coded pps done} : (s.ringRecord coded pps done).Canonical := by
  unfold Block.ringRecord
  extract_lets -underBinder _
  split
  · exact h
  · split
    · exact h.bump.postTally
    · extract_lets _ _ t
      have ht : t.Canonical := h.modHo.slotWrite.slotWrite
      split
      · exact ht.slotWrite
      · exact .ite ht.slotWrite ht.slotWrite.modHo

theorem Block.Canonical.clearRing (h : s.Canonical) : s.clearRing.Canonical := .ite h (.modHo (h.foldl fun _ _ ht => ht.slotWrite))

theorem Block.Canonical.playDecode (h : s.Canonical) {pix} : (s.playDecode pix).Canonical := by
  unfold Block.playDecode
  split
  · exact h
  · split
    · exact h
    · extract_lets -underBinder _ _ _ t
      have ht : t.Canonical := h.advanceTo.modHo
      split
      · exact ht.bump
      · split
        · exact ht
        · exact .ite ht (.ite ht.modSurf.storeRaster.compress.sealSurf ht.modSurf.storeRaster.compress.bump.modSurf.bump.post)

theorem Block.Canonical.remap (h : s.Canonical) : s.remap.Canonical := .ite h.modHo h

theorem Block.Canonical.libraryRead (h : s.Canonical) : s.libraryRead.Canonical := .ite h.remap h.remap.modNvme.modHo.modSrc.readUnit

theorem Block.Canonical.verifyReads (h : s.Canonical) {i e} : (s.verifyReads i e).Canonical := h.foldl fun _ _ ht => ht.emitRead

theorem Block.Canonical.holdVerify (h : s.Canonical) {c reads} : (s.holdVerify c reads).Canonical :=
  .ite h.complete (.ite h.complete (.ite h.complete (.complete (.postI (h.foldl fun _ _ ht => ht.verifyReads)))))

theorem Block.Canonical.policyStart (h : s.Canonical) : s.policyStart.Canonical := .ite h.modHo.thaw h.modHo

theorem Block.Canonical.holdEnter (h : s.Canonical) {src} : (s.holdEnter src).Canonical := h.policyStart.modHo.bump.post
theorem Block.Canonical.holdExit (h : s.Canonical) {how} : (s.holdExit how).Canonical := h.modHo.thaw.post

theorem Block.Canonical.watch (h : s.Canonical) {n sealed_} : (s.watch n sealed_).Canonical := by
  unfold Block.watch
  split
  · exact h.modHo
  · extract_lets _ t
    have ht : t.Canonical := .ite h.modHo.modHo h.modHo
    exact .ite ht.holdEnter ht

theorem Block.Canonical.holding (h : s.Canonical) {sealed_} : (s.holding sealed_).Canonical := by
  unfold Block.holding
  split
  · exact h.holdExit
  · split
    · exact h.holdExit
    · extract_lets t _ _ _ t1 t2
      have ht : t.Canonical := .ite h.policyStart h
      have ht1 : t1.Canonical := .ite ht.modHo.modHo.post ht.modHo
      have ht2 : t2.Canonical := .ite ht1.modHo ht1
      exact .ite ht.modHo.holdExit (.ite ht2.modHo ht2)

theorem Block.Canonical.holdPb (h : s.Canonical) : s.holdPb.Canonical := by
  unfold Block.holdPb
  extract_lets _ w t1 _ _ t2
  clear_value w
  have ht1 : t1.Canonical := .ite h.remap h.remap.modHo
  have ht2 : t2.Canonical := by
    unfold t2
    split
    · exact ht1.holding
    · split
      · exact .ite ht1 ht1.watch
      · exact ht1
  exact .ite ht1 (.ite ht2.modHo.modHo.bump.postTally ht2.modHo)

theorem Block.Canonical.forceRejoin (h : s.Canonical) : s.forceRejoin.Canonical := .ite h.modHo h

/-! Machine/Power.lean -/

theorem Block.Canonical.forbid (h : s.Canonical) {i} : (s.forbid i).Canonical := by
  unfold Block.forbid
  extract_lets _ _ t
  have ht : t.Canonical := h.update.postI.raise
  exact .ite (.ite ht.update ht.update.modSc.hsfGoto) ht

theorem Block.Canonical.standbyInputs (h : s.Canonical) : s.standbyInputs.Canonical := h.foldl fun _ _ ht => .ite ht.forbid ht

theorem Block.Canonical.safeAtReady (h : s.Canonical) : s.safeAtReady.Canonical := by
  unfold Block.safeAtReady
  split
  · exact h.enterSafe
  · split
    · exact h.enterSafe
    · exact h

theorem Block.Canonical.litSync (h : s.Canonical) : s.litSync.Canonical := h.update

theorem Block.Canonical.lightGroups (h : s.Canonical) {mask reason us} : (s.lightGroups mask reason us).Canonical := by
  unfold Block.lightGroups
  extract_lets _ t _ _ _ t1 t2
  have ht : t.Canonical := h.foldl fun _ _ ht => ht.modMembers.giveBack.startGroup
  have ht1 : t1.Canonical := ht.update.litSync
  have ht2 : t2.Canonical := .ite ht1.goto ht1
  exact .ite h ht2.refreshMembers

theorem Block.Canonical.stopGroups (h : s.Canonical) {mask at_} : (s.stopGroups mask at_).Canonical :=
  h.foldl fun _ _ ht => .ite ht.modGrp ht

theorem Block.Canonical.dropGroups (h : s.Canonical) {gs} : (s.dropGroups gs).Canonical := by
  unfold Block.dropGroups
  extract_lets t _ _ _ t1 t2
  have ht : t.Canonical := h.foldl fun _ _ ht => ht.darkenGroup
  have ht1 : t1.Canonical := .ite ht.update.beamOff ht.update
  have ht2 : t2.Canonical := ht1.foldl fun _ _ ht3 => ht3.zeroChains
  exact ht2.litSync.refreshMembers

theorem Block.Canonical.unlit (h : s.Canonical) {reason us} : (s.unlit reason us).Canonical :=
  .ite (.parkAll (.goto (.ite h.leaveRefresh.leaveRefresh h))) h

theorem Block.Canonical.pairsUp (h : s.Canonical) : s.pairsUp.Canonical := h.foldl fun _ _ ht => .ite ht.pairIn (.ite ht.leaveRefresh ht)

theorem Block.Canonical.standDown (h : s.Canonical) : s.standDown.Canonical := by
  unfold Block.standDown
  extract_lets t t1 t2 t3
  have ht : t.Canonical := h.lightOut.groupsOut.parkAll
  have ht1 : t1.Canonical := ht.foldl fun _ _ ht1 => ht1.selfRefresh
  have ht2 : t2.Canonical := ht1.foldl fun _ _ ht2 => .ite ht2 ht2.chnGoto
  have ht3 : t3.Canonical := .ite ht2 ht2.modSc.hsfGoto
  exact ht3.modSc

theorem Block.Canonical.closeUp (h : s.Canonical) : s.closeUp.Canonical := by
  unfold Block.closeUp
  exact h.autoClose

theorem Block.Canonical.hwFail (h : s.Canonical) {l} : (s.hwFail l).Canonical := h.update

theorem Block.Canonical.tryReady (h : s.Canonical) : s.tryReady.Canonical := by
  unfold Block.tryReady
  split
  · exact h
  · split
    · exact h
    · extract_lets _ _ t t1 t2
      have ht : t.Canonical := h.hwFail.closeUp.update
      have ht1 : t1.Canonical := ht.goto.refreshMembers.reloadRecs.complete
      have ht2 : t2.Canonical := .ite ht1.fastAxisStart ht1
      exact ht2.safeAtReady

theorem Block.Canonical.bringupFail (h : s.Canonical) {o units} : (s.bringupFail o units).Canonical := by
  unfold Block.bringupFail
  exact .complete (.standDown (.update (h.closeUp.foldl fun _ _ ht => ht.faultEv)))

/-- `bringing` gets a variable's name, so that no case split below evaluates it on the block an event has left. -/
theorem Block.Canonical.portReady (h : s.Canonical) {p} : (s.portReady p).Canonical := by
  unfold Block.portReady
  obtain ⟨bringing, hbringing⟩ : ∃ f : Block → Option StateSetOp, ∀ u, u.bringing = f u := ⟨_, fun _ => rfl⟩
  simp -zeta -iota only [hbringing]
  extract_lets t
  have ht : t.Canonical := h.modPort.portGoto
  split
  · exact ht.modPort.tryReady
  · split
    next _ u heq =>
      have hu : u.Canonical := .of_snd heq ht.failDetail
      extract_lets _ v
      have hv : v.Canonical := hu.setRegs.maEvt
      split
      · exact hv.bringupFail
      · exact hv

theorem Block.Canonical.rdyLow (h : s.Canonical) {p} : (s.rdyLow p).Canonical := by
  unfold Block.rdyLow
  extract_lets _
  split
  · exact h.update.portGoto
  · exact .ite h.update.portReady h.update
  · exact h.update.modPort
  · exact h.update.modPort
  · exact .ite h.update.modPort h.update
  · exact h.update

theorem Block.Canonical.stateSet {f : Block → Cmd → Block} (h : s.Canonical) (hf : ∀ (t : Block) x1, t.Canonical → (f t x1).Canonical)
    {cseq row} :
    (s.stateSet cseq row f).Canonical := by
  unfold Block.stateSet
  split
  · exact h
  · exact .ite h (.ite h.complete (.ite h.complete (.ite h.complete (hf _ _ h))))

theorem Block.Canonical.stateSetRuns (h : s.Canonical) {o} : (s.stateSetRuns o).Canonical := h.update.setStage

theorem Block.Canonical.setReady (h : s.Canonical) {c} : (s.setReady c).Canonical :=
  .ite h.complete (.ite h.complete (.tryReady (h.stateSetRuns.pairsUp.foldl fun _ _ ht => ht.startPort)))

theorem Block.Canonical.setStandby (h : s.Canonical) {c} : (s.setStandby c).Canonical :=
  .ite h.complete h.standDown.goto.refreshMembers.complete.standbyInputs

theorem Block.Canonical.setLit (h : s.Canonical) {c} : (s.setLit c).Canonical :=
  .ite h.complete (.ite h.complete (.ite h.complete h.stateSetRuns))

theorem Block.Canonical.setExtinguish (h : s.Canonical) {c} : (s.setExtinguish c).Canonical := .ite h.complete h.stopGroups.stateSetRuns

theorem Block.Canonical.stateSetStart (h : s.Canonical) : s.stateSetStart.Canonical := by
  unfold Block.stateSetStart
  split
  · exact .ite (.ite h.update.lightGroups h.update) h
  · exact h

theorem Block.Canonical.stateSetEnd (h : s.Canonical) : s.stateSetEnd.Canonical := by
  unfold Block.stateSetEnd
  split
  · exact .ite h.update.complete h
  · exact h

/-! Machine/Calib.lean -/

theorem Block.Canonical.claimAll (h : s.Canonical) {cseq l} : (s.claimAll cseq l).Canonical := h.update.setRegs
theorem Block.Canonical.calClaim (h : s.Canonical) {r} : (s.calClaim r).Canonical := .update (h.foldl fun _ _ ht => ht.modEst.postI)
theorem Block.Canonical.calRelease (h : s.Canonical) {r} : (s.calRelease r).Canonical := h.foldl fun _ _ ht => ht.modEst

theorem Block.Canonical.calFinish (h : s.Canonical) {r status detail} : (s.calFinish r status detail).Canonical := by
  unfold Block.calFinish
  extract_lets _ t _ t1 _ t2 _ t3
  have ht : t.Canonical := by
    unfold t
    split
    · exact .ite h.setReg.sweepOver h.setReg
    · exact h.setReg
  have ht1 : t1.Canonical := ht.update.calRelease
  have ht2 : t2.Canonical := by
    unfold t2
    split
    · split
      · exact .ite ht1 (.ite ht1.modGrp ht1.modGrp.giveBack)
      · exact ht1
    · exact ht1
  have ht3 : t3.Canonical := .ite ht2.bump ht2.bump.bump
  exact ht3.postI.complete.ownersOf

theorem Block.Canonical.calStop (h : s.Canonical) {status detail} : (s.calStop status detail).Canonical := by
  unfold Block.calStop
  split
  · exact h
  · exact h.update.calFinish

theorem Block.Canonical.calAccept (h : s.Canonical) {cseq} : (s.calAccept cseq).Canonical := by
  unfold Block.calAccept
  split
  · split
    · exact h
    · extract_lets _
      split
      · exact h.denyClaim.complete
      · exact h.claimAll
  · exact h

theorem Block.Canonical.calStart (h : s.Canonical) {r} : (s.calStart r).Canonical :=
  .postI (.setStage (.ite h.calClaim.sweepStart h.calClaim))

theorem Block.Canonical.calibrate (h : s.Canonical) {cseq proc} : (s.calibrate cseq proc).Canonical := by
  unfold Block.calibrate
  split
  · exact h
  · extract_lets _
    split
    · exact h
    · split
      · exact h.complete
      · split
        · exact h.complete
        · split
          · exact h.setReg.complete
          · exact h.calStart

theorem Block.Canonical.copyPi (h : s.Canonical) : s.copyPi.Canonical := by
  unfold Block.copyPi
  refine .foldl h fun _ _ ht => ?_
  split
  · exact ht.setMem
  · exact ht

theorem Block.Canonical.putPi (h : s.Canonical) {m pts} : (s.putPi m pts).Canonical := h.setCap

theorem Block.Canonical.pdFb (h : s.Canonical) : s.pdFb.Canonical := h.update.foldl fun _ _ ht => ht.modPd

theorem Block.Canonical.calApply (h : s.Canonical) {r d pi sc} : (s.calApply r d pi sc).Canonical := by
  unfold Block.calApply
  split
  · exact h.foldl fun _ _ ht => ht.update
  · exact h.copyPi.putPi.piCheck.setFld.commitIn
  · exact .commitIn (h.foldl fun _ _ ht => ht.setRegs.update)
  · exact h.update

theorem Block.Canonical.calLoad (h : s.Canonical) {ty bs} : (s.calLoad ty bs).Canonical := by
  unfold Block.calLoad
  split
  · exact h.foldl fun _ _ ht => ht.modPd
  · exact h.update
  · exact h.update
  · exact h

theorem Block.Canonical.calStore (h : s.Canonical) {r pi} : (s.calStore r pi).Canonical := h.seedAsk.setStage

theorem Block.Canonical.calStored (h : s.Canonical) {ok} : (s.calStored ok).Canonical := by
  unfold Block.calStored
  split
  · exact h
  · exact .ite h.postI.calFinish h

theorem Block.Canonical.pointsFb (h : s.Canonical) : s.pointsFb.Canonical := by
  unfold Block.pointsFb
  split
  · exact .ite h.update h
  · exact h

theorem Block.Canonical.calibrationResult (h : s.Canonical) {r d} : (s.calibrationResult r d).Canonical := by
  unfold Block.calibrationResult
  split
  · exact h.calStop
  · exact .ite h.setRegs.calFinish (.ite h.setRegs.calApply.update.calStore h.setRegs.calApply.calFinish)

theorem Block.Canonical.trimCtrl (h : s.Canonical) {v} : (s.trimCtrl v).Canonical := .ite h.calStop h

/-! Machine/Boot.lean -/

theorem Block.Canonical.cause (h : s.Canonical) {i} : (s.cause i).Canonical := h.setFld

theorem Block.Canonical.resetKeep (h : s.Canonical) {warm} : (s.resetKeep warm).Canonical := by
  refine .setRegs ⟨?_, ?_⟩
  · exact State.reset_regsWf
  · cases warm with
    | false => rfl
    | true => exact h.dram_wf

theorem Block.Canonical.place (h : s.Canonical) {dst prev reason} : (s.place dst prev reason).Canonical := h.update
theorem Block.Canonical.startBoot (h : s.Canonical) {reason src} : (s.startBoot reason src).Canonical := h.place.update.romTrain

theorem Block.Canonical.resetHold (h : s.Canonical) {why} : (s.resetHold why).Canonical := by
  unfold Block.resetHold
  extract_lets t t1
  have ht : t.Canonical := h.advance.resetKeep
  have ht1 : t1.Canonical := by
    unfold t1
    split
    · exact h
    · refine .place ?_
      split
      · exact ht.cause
      · exact ht
  exact ht1.update

theorem Block.Canonical.resetRelease (h : s.Canonical) {src} : (s.resetRelease src).Canonical := .ite (.ite h.update.startBoot h.update) h
theorem Block.Canonical.warmReset (h : s.Canonical) {bit} : (s.warmReset bit).Canonical := h.resetKeep.cause.place.romTrain
theorem Block.Canonical.resetCtrl (h : s.Canonical) {v} : (s.resetCtrl v).Canonical := .ite h (.ite h.errCause h.warmReset)
theorem Block.Canonical.numRecord (h : s.Canonical) {ty n cseq why} : (s.numRecord ty n cseq why).Canonical := h.seedAsk

theorem Block.Canonical.mirrorCheck (h : s.Canonical) : s.mirrorCheck.Canonical := by
  unfold Block.mirrorCheck
  extract_lets -underBinder _ _ old
  clear_value old
  split
  · exact h.setReg
  · split
    · exact h.blowAll.setReg
    · split
      · exact .ite h.numRecord.setReg h.numRecord.postI.raise.setReg
      · exact h.numRecord.postI.raise.setReg

theorem Block.Canonical.bootRegs (h : s.Canonical) : s.bootRegs.Canonical := h.setRegs

theorem Block.Canonical.recordsAtBoot (h : s.Canonical) : s.recordsAtBoot.Canonical := by
  unfold Block.recordsAtBoot
  extract_lets t _ t1
  have ht : t.Canonical := h.measure.measure
  have ht1 : t1.Canonical := ht.foldl fun _ _ ht1 => ht1.postI.raise
  refine .foldl ht1 fun _ _ ht2 => ?_
  split
  · exact ht2
  · split
    · exact ht2.calLoad
    · exact ht2

theorem Block.Canonical.identityAtBoot (h : s.Canonical) {f} : (s.identityAtBoot f).Canonical := .ite h.update h.update.postI.raise

theorem Block.Canonical.reportAtBoot (h : s.Canonical) {kind} : (s.reportAtBoot kind).Canonical := by
  unfold Block.reportAtBoot
  split
  · exact h
  · exact .ite (.update (.ite h.setRegs h.setRegs)) (.ite h.setRegs h.setRegs)

theorem Block.Canonical.startTime (h : s.Canonical) : s.startTime.Canonical := h.update.goSrc

theorem Block.Canonical.bootDone (h : s.Canonical) {f s1 hk sv} : (s.bootDone f s1 hk sv).Canonical := by
  unfold Block.bootDone
  extract_lets _ _ _ _ t _ _ _ t1
  have ht : t.Canonical := h.advance.setReg.setRegs
  have ht1 : t1.Canonical := ht.mirrorCheck.update
  split
  next _ t2 heq =>
    have ht2 : t2.Canonical := .of_snd heq ht1.pairIn.update
    extract_lets _ _ t3 t4 _ _ t5 _ _ t6
    have ht3 : t3.Canonical := ht2.setRegs.measure.measure.measure.measure
    have ht4 : t4.Canonical := ht3.recordsAtBoot.identityAtBoot
    have ht5 : t5.Canonical := ht4.update.reportAtBoot.reportAtBoot
    have ht6 : t6.Canonical := ht5.update.bootRegs.setReg
    exact .ite ht6.goto.post.startTime ht6.goto.post.startTime.standbyInputs

theorem Block.Canonical.laserCut (h : s.Canonical) : s.laserCut.Canonical := by
  unfold Block.laserCut
  extract_lets _ _ _ _ _ t t1 t2
  have ht : t.Canonical := h.update.lightOut.groupsOut.interrupt
  have ht1 : t1.Canonical := .ite ht.goto.parkAll ht
  have ht2 : t2.Canonical := ht1.cause.refreshMembers.post
  exact .ite ht2 ht2.update.reservedAsk

theorem Block.Canonical.relight (h : s.Canonical) : s.relight.Canonical := .ite h (.ite h.update.lightGroups h.update)

theorem Block.Canonical.hkRestart (h : s.Canonical) {reason} : (s.hkRestart reason).Canonical := by
  unfold Block.hkRestart
  extract_lets _ _ _ t _ t1 _ _ _ _ _ t2
  have ht : t.Canonical := h.setReg.update.bump.post
  have ht1 : t1.Canonical := by
    unfold t1
    split
    · exact ht.calStop.sweepOver
    · exact ht.calStop
  have ht2 : t2.Canonical := ht1.seedAbandon.update
  exact ht2.rsaDrop.foldl fun _ _ ht5 => ht5.complete

theorem Block.Canonical.hkStrobe (h : s.Canonical) {v} : (s.hkStrobe v).Canonical := .ite h.hkRestart h

theorem Block.Canonical.hkEnd (h : s.Canonical) : s.hkEnd.Canonical := by
  unfold Block.hkEnd
  split
  · exact h
  · extract_lets _ _ t
    have ht : t.Canonical := h.update.post.autoClose
    split
    · exact ht.post
    · exact ht

theorem Block.Canonical.mgmtGone (h : s.Canonical) {since} : (s.mgmtGone since).Canonical := h.advance.update.postI.raise

theorem Block.Canonical.modSlots (h : s.Canonical) {kind} {f : ImageSlots → ImageSlots} : (s.modSlots kind f).Canonical := by
  unfold Block.modSlots
  split
  · exact h.update
  · exact h.update
  · exact h.update

theorem Block.Canonical.fwStageStart (h : s.Canonical) {c host} : (s.fwStageStart c host).Canonical := by
  unfold Block.fwStageStart
  extract_lets kind
  clear_value kind
  split
  · exact h.complete
  · split
    · exact h.complete
    · split
      · exact h.complete
      · split
        next t1 heq =>
          have ht1 : t1.Canonical := .of_fst heq h.readBuf
          exact ht1.complete
        next t2 _ heq =>
          have ht2 : t2.Canonical := .of_fst heq h.readBuf
          exact ht2.modSlots.bootRegs.update.seedAsk.setStage

theorem Block.Canonical.fwStaged (h : s.Canonical) {w} : (s.fwStaged w).Canonical := by
  unfold Block.fwStaged
  split
  · exact h
  · extract_lets _ _ _ _ t
    have ht : t.Canonical := h.update.verified.modSlots
    split
    · exact ht.bootRegs.post.complete
    · exact ht.bootRegs.complete

theorem Block.Canonical.fwActivate {f : Block → Cmd → Block} (h : s.Canonical) (hf : ∀ (t : Block) x1, t.Canonical → (f t x1).Canonical)
    {cseq kind} :
    (s.fwActivate cseq kind f).Canonical := by
  unfold Block.fwActivate
  split
  · exact h
  · exact .ite h (.ite h.complete (hf _ _ h))

theorem Block.Canonical.svUp (h : s.Canonical) : s.svUp.Canonical := .ite h.update.forbid h.update

theorem Block.Canonical.selfTestFail (h : s.Canonical) {why slot} : (s.selfTestFail why slot).Canonical := h.postI.raise

theorem Block.Canonical.rollbackWritten (h : s.Canonical) {w} : (s.rollbackWritten w).Canonical := by
  unfold Block.rollbackWritten
  extract_lets -underBinder _ _ _ _ t
  have ht : t.Canonical := h.blowAll.setFld.post
  split
  · exact .ite ht.update.setStage ht.complete
  · exact ht

theorem Block.Canonical.dropPf (h : s.Canonical) : s.dropPf.Canonical := h.update

theorem Block.Canonical.firebreakDie (h : s.Canonical) : s.firebreakDie.Canonical :=
  h.copyStep.setReg.cause.reservedPut.resetKeep.place.update

theorem Block.Canonical.firebreakLaser (h : s.Canonical) {g q} : (s.firebreakLaser g q).Canonical := by
  unfold Block.firebreakLaser
  extract_lets -underBinder _ t t1 t2 t3 _ _ t4
  have ht : t.Canonical := h.setReg.cause.dropPf
  have ht1 : t1.Canonical := ht.lightOut.groupsOut.interrupt
  have ht2 : t2.Canonical := by
    unfold t2
    split
    · exact ht1.update.complete
    · exact ht1
  have ht3 : t3.Canonical := ht2.goto.refreshMembers
  have ht4 : t4.Canonical := ht3.reservedAsk.seedAsk
  exact ht4.postI.raise

/-! Machine/Dtu.lean -/

theorem Block.Canonical.invGo (h : s.Canonical) {v} : (s.invGo v).Canonical := .ite h (.ite h.setFld h.update.setReg)
theorem Block.Canonical.probeWrite (h : s.Canonical) {v} : (s.probeWrite v).Canonical := .ite h.setReg.setRegs h.setReg

/-! Machine/Faults.lean -/

theorem Block.Canonical.setInput (h : s.Canonical) {i permits} : (s.setInput i permits).Canonical := by
  unfold Block.setInput
  split
  · exact h.update
  · exact h.update
  · exact h.update

theorem Block.Canonical.permit (h : s.Canonical) {i} : (s.permit i).Canonical := .post (.ite h.update h.update)

theorem Block.Canonical.released (h : s.Canonical) {r} : (s.released r).Canonical :=
  .ite h.modMember (.ite h.modGrp (.ite h.modSc (.ite h.modSc.hsfGoto (.ite h.update (.ite h.startPort h)))))

theorem Block.Canonical.pathRelease (h : s.Canonical) : s.pathRelease.Canonical := .ite h.update h

theorem Block.Canonical.closeCleared (h : s.Canonical) {l} : (s.closeCleared l).Canonical :=
  .pathRelease (h.foldl fun _ _ ht => ht.closeAt.released)

theorem Block.Canonical.faultClear (h : s.Canonical) {c named} : (s.faultClear c named).Canonical :=
  .ite (.complete (.ite h.closeCleared.update h.closeCleared)) (.ite h.complete
    (.complete (.postI (.refreshMembers (.goto (.ite h.closeCleared.update h.closeCleared))))))

/-! Machine/Skidder.lean -/

theorem Block.Canonical.modSkd (h : s.Canonical) {c} {f : SkdChan → SkdChan} : (s.modSkd c f).Canonical := h.update
theorem Block.Canonical.skdServe (h : s.Canonical) {m c} : (s.skdServe m c).Canonical := h.update
theorem Block.Canonical.skdRelease (h : s.Canonical) {c} : (s.skdRelease c).Canonical := h.update

theorem Block.Canonical.skdFault (h : s.Canonical) {c kind detail dst fetch addr} : (s.skdFault c kind detail dst fetch addr).Canonical :=
  h.skdRelease.modSkd.setInt.post

theorem Block.Canonical.beatSrc (h : s.Canonical) {c d off hoff host} : (s.beatSrc c d off hoff host).1.Canonical := by
  unfold Block.beatSrc
  split
  · exact h
  · split
    · split
      next t _ heq =>
        have ht : t.Canonical := .of_fst heq h.access
        exact .ite ht.uncorrectable ht
      next t1 _ heq =>
        have ht1 : t1.Canonical := .of_fst heq h.access
        exact ht1
    · exact .ite_fst h h

theorem Block.Canonical.blockPoison (h : s.Canonical) {pa bad} : (s.blockPoison pa bad).Canonical := h.update

theorem Block.Canonical.beatDst (h : s.Canonical) {c d off bs bad} : (s.beatDst c d off bs bad).1.Canonical := by
  unfold Block.beatDst
  split
  · split
    next t _ heq =>
      have ht : t.Canonical := .of_fst heq h.access
      exact ht.setMem.blockPoison.piTouch
    next t1 _ heq =>
      have ht1 : t1.Canonical := .of_fst heq h.access
      exact ht1
  · exact .ite_fst h.emit h

theorem Block.Canonical.beats (h : s.Canonical) {c d host from0 n} : (s.beats c d host from0 n).1.Canonical := by
  induction n generalizing s with
  | zero => exact h
  | succ n ih =>
    rw [Block.beats]
    dsimp only
    split
    next t _ heq => exact (Block.Canonical.of_fst heq h.beatSrc).skdFault
    next t _ _ heq =>
      have ht : t.Canonical := .of_fst heq h.beatSrc
      split
      next u _ heq => exact (Block.Canonical.of_fst heq ht.beatDst).skdFault
      next u heq => exact ih (Block.Canonical.of_fst heq ht.beatDst).modSkd

theorem Block.Canonical.moveTo (h : s.Canonical) {c upto host} : (s.moveTo c upto host).1.Canonical := by
  unfold Block.moveTo
  split
  · exact h
  · exact h.beats

theorem Block.Canonical.writeBack (h : s.Canonical) {c area} : (s.writeBack c area).1.Canonical := .ite_fst h.writeVirt (.ite_fst h.emit h)
theorem Block.Canonical.postSeal (h : s.Canonical) {surf result dseq} : (s.postSeal surf result dseq).Canonical := h.post

theorem Block.Canonical.hostSeal (h : s.Canonical) {i dseq} : (s.hostSeal i dseq).Canonical :=
  .ite (.postSeal (.lostFrame (.modSurf (.ite h.hfc h)))) (.postSeal (.sealFor (.ite h.hfc h)))

theorem Block.Canonical.sealSweep (h : s.Canonical) {hint} : (s.sealSweep hint).Canonical := by
  unfold Block.sealSweep
  refine .foldl h fun _ _ ht => ?_
  split
  · exact .ite ht ht.hostSeal
  · exact ht

theorem Block.Canonical.sealStep (h : s.Canonical) {c d status} : (s.sealStep c d status).Canonical := by
  unfold Block.sealStep
  split
  · exact .ite h.postSeal h
  · split
    · exact h.postSeal
    · split
      · extract_lets _
        split
        · exact h.modSurf.modSurf.postSeal
        · exact h.modSurf
      · exact .ite h.modSurf h

theorem Block.Canonical.skdStep (h : s.Canonical) {c dseq} : (s.skdStep c dseq).Canonical := h.modSkd.modSkd

theorem Block.Canonical.skdEnd (h : s.Canonical) {c d status hint} : (s.skdEnd c d status hint).Canonical := by
  unfold Block.skdEnd
  extract_lets _ _ t t1
  have ht : t.Canonical := .ite h.sealStep.post h.sealStep
  have ht1 : t1.Canonical := .ite ht.setInt ht
  exact ht1.skdRelease.skdStep.sealSweep

theorem Block.Canonical.skdRetire (h : s.Canonical) {c d status hint} : (s.skdRetire c d status hint).Canonical :=
  .skdEnd (.ite h.writeBack h)

theorem Block.Canonical.skdFinish (h : s.Canonical) {c d status hint} : (s.skdFinish c d status hint).Canonical := by
  unfold Block.skdFinish
  extract_lets _
  split
  · split
    next t heq =>
      have ht : t.Canonical := .of_fst heq h.writeBack
      exact ht.skdEnd
    next t1 _ heq =>
      have ht1 : t1.Canonical := .of_fst heq h.writeBack
      exact ht1.skdFault
  · exact h.skdEnd

theorem Block.Canonical.skdFetch (h : s.Canonical) {c host} : (s.skdFetch c host).1.Canonical := by
  unfold Block.skdFetch
  extract_lets _
  split
  · split
    next t _ heq =>
      have ht : t.Canonical := .of_fst heq h.readVirt
      exact ht
    next t1 _ _ _ heq =>
      have ht1 : t1.Canonical := .of_fst heq h.readVirt
      exact ht1
  · exact .ite_fst h h

theorem Block.Canonical.skdAccept (h : s.Canonical) {m c d} : (s.skdAccept m c d).Canonical := by
  unfold Block.skdAccept
  extract_lets -underBinder _
  split
  · split
    · exact h.modSkd.skdFault
    · exact h.modSkd.update.sealSweep
  · exact .ite h.modSkd.setInt.post h.post.skdRetire

theorem Block.Canonical.skdStart (h : s.Canonical) {m host} : (s.skdStart m host).Canonical := by
  unfold Block.skdStart
  split
  · exact h
  · split
    · exact h
    · extract_lets _ t
      have ht : t.Canonical := h.skdServe.modSkd
      split
      · exact ht.update
      · split
        next t1 _ _ heq =>
          have ht1 : t1.Canonical := .of_fst heq h.skdServe.skdFetch
          exact ht1.skdFault
        next t2 _ heq =>
          have ht2 : t2.Canonical := .of_fst heq h.skdServe.skdFetch
          exact ht2.skdAccept

theorem Block.Canonical.hostFault (h : s.Canonical) {m upto kind detail dst host} :
    (s.hostFault m upto kind detail dst host).Canonical := by
  unfold Block.hostFault
  split
  · split
    · exact .ite h.skdServe.skdFault h
    · exact h
  · split
    · exact h
    · split
      next t heq =>
        have ht : t.Canonical := .of_fst heq h.moveTo
        exact ht
      next t1 heq =>
        have ht1 : t1.Canonical := .of_fst heq h.moveTo
        exact .ite ht1.skdFault ht1

theorem Block.Canonical.opDone (h : s.Canonical) {c op ignored} : (s.opDone c op ignored).Canonical := .post (.ite h.setFld.setFld h)
theorem Block.Canonical.skdResume (h : s.Canonical) {c} : (s.skdResume c).Canonical := .ite h.modSkd.opDone h.opDone

theorem Block.Canonical.skdSkip (h : s.Canonical) {c} : (s.skdSkip c).Canonical := by
  unfold Block.skdSkip
  split
  · extract_lets t
    have ht : t.Canonical := by
      unfold t
      split
      · exact h.skdRetire
      · exact h.skdStep.sealSweep
    exact ht.opDone
  · exact h.opDone

theorem Block.Canonical.skdProgress (h : s.Canonical) {c} : (s.skdProgress c).Canonical := by
  unfold Block.skdProgress
  split
  · exact h
  · exact h.update.moveTo

theorem Block.Canonical.skdDrop (h : s.Canonical) {c n host} : (s.skdDrop c n host).Canonical := by
  induction n generalizing s host with
  | zero => exact h
  | succ n ih =>
    rw [Block.skdDrop]
    refine ih ?_
    have hread : (if s.skdRingDev c then
        match s.readVirt c (s.skdPlace c (s.skd c).head) 64 none [] with
        | (s, bs, none) => (s, some bs)
        | (s, _, some _) => (s, none)
      else (s, if s.tunnelUp && decide (64 ≤ host.length) then some (host.take 64) else none)).1.Canonical := by
      refine .ite_fst ?_ h
      split
      next u _ heq => exact .of_fst heq h.readVirt
      next u _ _ heq => exact .of_fst heq h.readVirt
    split
    next u bs heq => exact (Block.Canonical.of_fst heq hread).skdRetire
    next u heq => exact (Block.Canonical.of_fst heq hread).skdStep.sealSweep

theorem Block.Canonical.skdAbort (h : s.Canonical) {c host} : (s.skdAbort c host).Canonical := by
  unfold Block.skdAbort
  extract_lets t _ t1
  have ht : t.Canonical := .ite h.skdProgress h
  have ht1 : t1.Canonical := by
    unfold t1
    split
    · exact ht.skdRelease.skdRetire
    · exact ht.skdRelease
  exact ht1.skdDrop.modSkd.setFld

theorem Block.Canonical.skdOpAbort (h : s.Canonical) {c host} : (s.skdOpAbort c host).Canonical := .ite h.opDone h.skdAbort.opDone
theorem Block.Canonical.skdResync (h : s.Canonical) {c} : (s.skdResync c).Canonical := .ite h.modSkd.opDone h.opDone

theorem Block.Canonical.skdOpWrite (h : s.Canonical) {v} : (s.skdOpWrite v).Canonical := by
  unfold Block.skdOpWrite
  extract_lets _
  split
  · exact h.skdResume
  · exact h.skdSkip
  · exact h.skdOpAbort
  · exact h.skdResync
  · exact h.opDone

theorem Block.Canonical.skdCtrlWrite (h : s.Canonical) {c host v} : (s.skdCtrlWrite c host v).Canonical :=
  .ite h.errCause (.ite h.setReg.modSkd (.ite h.setReg.setFld.skdAbort h.setReg))

theorem Block.Canonical.skdTailWrite (h : s.Canonical) {c v} : (s.skdTailWrite c v).Canonical :=
  .ite h.setFld.setFld (.ite h.setReg.update.modSkd.modSkd h.setReg.update.modSkd)

theorem Block.Canonical.skdCapture (h : s.Canonical) {v} : (s.skdCapture v).Canonical := h.setReg.setRegs

/-! Machine/Windows.lean -/

theorem Block.Canonical.winStep (h : s.Canonical) {a} : (s.winStep a).Canonical := by
  unfold Block.winStep
  split
  · exact h.setReg
  · exact h

theorem Block.Canonical.winWrite (h : s.Canonical) {a v} : (s.winWrite a v).Canonical := by
  unfold Block.winWrite
  split
  · exact h.shTake.winStep
  · exact h

theorem Block.Canonical.recCapture (h : s.Canonical) {i} : (s.recCapture i).Canonical := h.setRegs
theorem Block.Canonical.chkLogCapture (h : s.Canonical) {p i} : (s.chkLogCapture p i).Canonical := h.setRegs
theorem Block.Canonical.zoneCapture (h : s.Canonical) {z} : (s.zoneCapture z).Canonical := h.setReg
theorem Block.Canonical.groupCapture (h : s.Canonical) {g} : (s.groupCapture g).Canonical := h.setReg
theorem Block.Canonical.probeRoute (h : s.Canonical) {v} : (s.probeRoute v).Canonical := h.setReg
theorem Block.Canonical.hlCapture (h : s.Canonical) {q} : (s.hlCapture q).Canonical := h.setRegs

theorem Block.Canonical.rwEffect (h : s.Canonical) {a w} : (s.rwEffect a w).Canonical := by
  unfold Block.rwEffect
  extract_lets _ p
  clear_value p
  split
  · split
    · exact h.ringCtrl
    · split
      · exact h.cmdTail
      · split
        · exact h.evtHead
        · split
          · exact h.setReg.modCheck
          · split
            · exact .ite h h.setReg
            · exact h.setReg
  · exact .ite h.skdCapture (.ite (.ite h.skdCtrlWrite (.ite h.skdTailWrite h.setReg)) h.setReg)
  · exact .ite (.ite h h.setReg) h.setReg
  · exact .ite h.timeCtrl h.setReg
  · exact .ite h.surfSelWrite h.setReg
  · exact .ite h.setReg.nvmeOff h.setReg
  · exact .ite h.descCapture h.setReg
  · exact .ite h.setReg.chkLogCapture h.setReg
  · exact .ite h.setReg.chkLogCapture h.setReg
  · exact .ite h.setReg.chkLogCapture h.setReg
  · exact .ite h.setReg.chkLogCapture h.setReg
  · exact .ite h.setReg.zoneCapture h.setReg
  · exact .ite h.setReg.groupCapture h.setReg
  · exact .ite h.setReg.estCapture (.ite h.setReg.targetCapture (.ite h.setReg.matCapture (.ite h.setReg.pdCapture h.setReg)))
  · exact .ite h.setReg.hlCapture h.setReg
  · exact .ite h.seedSel h.setReg
  · exact .ite h.setReg.setReg (.ite h.setReg.setReg h.setReg)
  · exact .ite h.setReg.creditCapture h.setReg
  · exact .ite h.setReg.creditCapture h.setReg
  · exact .ite h.setReg.creditCapture h.setReg
  · exact .ite h.setReg.creditCapture h.setReg
  · exact .ite h.setReg.probeRoute h.setReg
  · exact .ite h.setReg.recCapture h.setReg
  · exact h.setReg

theorem Block.Canonical.shEffect (h : s.Canonical) {a v} : (s.shEffect a v).Canonical :=
  .ite h.winWrite (.ite h.shTake.planStale (.ite h.shTake.planStale h.shTake))

theorem Block.Canonical.put (h : s.Canonical) {a v} : (s.put a v).Canonical := by
  unfold Block.put
  split
  · exact h
  · split
    · exact h.shEffect
    · exact .ite (.ite h.errCause (.ite h.probeWrite (.ite h.piCheck h))) (h.rwTake fun _ _ ht => ht.rwEffect)
    · exact h

/-! Machine/Cue.lean -/

theorem Block.Canonical.cueGo (h : s.Canonical) {i c st} : (s.cueGo i c st).Canonical := h.setCtx.update
theorem Block.Canonical.cueState (h : s.Canonical) {i st} : (s.cueState i st).Canonical := .ite h.cueGo h.bump

theorem Block.Canonical.ctxWrite (h : s.Canonical) {i w v} : (s.ctxWrite i w v).Canonical := by
  unfold Block.ctxWrite
  extract_lets -underBinder _
  split
  · exact h.bump
  · split
    · exact h.setCtx
    · exact h.setCtx
    · exact h.setCtx
    · exact .ite h.cueGo h.setCtx.bump
    · exact h

theorem Block.Canonical.cancelAll (h : s.Canonical) : s.cancelAll.Canonical := h.foldl fun _ _ ht => ht.cueState

theorem Block.Canonical.cueOp (h : s.Canonical) {v} : (s.cueOp v).Canonical := by
  unfold Block.cueOp
  split
  · exact h.cueState
  · exact h.cueState
  · exact h.cancelAll
  · exact h

theorem Block.Canonical.actUe (h : s.Canonical) {r pa} : (s.actUe r pa).Canonical := .ite h.uncorrectable h
theorem Block.Canonical.cueFetch (h : s.Canonical) {bad} : (s.cueFetch bad).Canonical := .update (h.foldl_fst fun _ _ ht => ht.actUe)

theorem Block.Canonical.actWrites (h : s.Canonical) {f} : (s.actWrites f).1.Canonical := by
  unfold Block.actWrites
  split
  · exact h.foldl fun _ _ ht => ht.put
  · exact h.foldl fun _ _ ht => ht.put
  · exact .ite h.put.put h.put
  · exact .ite_fst h (h.foldl fun _ _ ht => ht.put)
  · dsimp only
    exact h.put
  · exact h

theorem Block.Canonical.cueFired (h : s.Canonical) {i res fsn} : (s.cueFired i res fsn).Canonical := by
  unfold Block.cueFired
  extract_lets _ _ t
  have ht : t.Canonical := .ite h.setCtx.bump.bump.postTally h.setCtx.bump
  exact .ite ht.cueEvent ht

theorem Block.Canonical.cueFire1 (h : s.Canonical) {f fsn} : (s.cueFire1 f fsn).1.Canonical :=
  .ite_fst h (.ite_fst h.cueMiss (.ite h.cueFired.actWrites.update h.cueFired.actWrites))

theorem Block.Canonical.cueFire (h : s.Canonical) {bad} : (s.cueFire bad).Canonical := by
  unfold Block.cueFire
  extract_lets _ t
  have ht : t.Canonical := .ite h.advanceTo h.advanceTo.cueFetch
  split
  next t1 _ _ heq =>
    have ht1 : t1.Canonical := .of_fst heq (ht.foldl_fst fun _ _ ht1 => ht1.cueFire1)
    exact .ite ht1.update.cuesApplied ht1.update.commitIn

theorem Block.Canonical.cueFiring (h : s.Canonical) {bad} : (s.cueFiring bad).Canonical := .ite h.cueFire h

theorem Block.Canonical.sceneRun (h : s.Canonical) {x} : (s.sceneRun x).Canonical :=
  .ite h.cueMiss (.cueDone (.ite h.lightGroups h.stopGroups))

theorem Block.Canonical.scenesFb (h : s.Canonical) : s.scenesFb.Canonical := h.update.foldl fun _ _ ht => .ite ht.sceneRun ht

theorem Block.Canonical.fabCue (h : s.Canonical) {d} : (s.fabCue d).1.Canonical := .ite_fst h (.ite_fst h (.ite_fst h.bump h.cueGo))
theorem Block.Canonical.cueFrame (h : s.Canonical) {src d} : (s.cueFrame src d).Canonical := .ite h h.bump.fabCue.post

theorem Block.Canonical.cueSend (h : s.Canonical) {mc dst proto pay out here} : (s.cueSend mc dst proto pay out here).Canonical :=
  .foldl (.ite (.ite h.cueFrame h.hostRx) h) fun _ _ ht => ht.enqueue

theorem Block.Canonical.cueMsg (h : s.Canonical) {b} : (s.cueMsg b).1.Canonical := by
  unfold Block.cueMsg
  extract_lets _
  split
  · exact h
  · split
    · exact h.cueSend
    · split
      · exact h
      · exact h.cueSend
      · exact .cueSend (.ite h.bump.postTally h)

theorem Block.Canonical.cueOut (h : s.Canonical) {b} : (s.cueOut b).Canonical := .ite h.update (h.foldl fun _ _ ht => ht.emit)

theorem Block.Canonical.fineAct (h : s.Canonical) {i ty b} : (s.fineAct i ty b).1.Canonical := by
  unfold Block.fineAct
  split
  · exact h.cueMsg
  · exact h.post
  · exact h.cueOut

theorem Block.Canonical.fineFire (h : s.Canonical) {i c ref tick bad} : (s.fineFire i c ref tick bad).Canonical := by
  unfold Block.fineFire
  split
  · exact h.cueMiss
  · split
    · exact h.cueMiss
    · split
      · extract_lets t
        have ht : t.Canonical := h.actUe
        split
        · exact ht.cueMiss
        · split
          next t1 _ heq =>
            have ht1 : t1.Canonical := .of_fst heq ht.fineAct
            split
            · exact ht1.cueMiss
            · extract_lets _ t2
              have ht2 : t2.Canonical := ht1.update
              exact ht2.cueFired.postTally.cueDone

theorem Block.Canonical.fineCue (h : s.Canonical) {bad} : (s.fineCue bad).Canonical := by
  unfold Block.fineCue
  split
  · exact h
  · exact .ite h h.advanceTo.fineFire

/-! Machine/View.lean -/

theorem Block.Canonical.readEffect (h : s.Canonical) {a} : (s.readEffect a).Canonical := by
  unfold Block.readEffect
  split
  · exact h.setRegs
  · split
    · exact h.setReg
    · split
      · split
        · exact h.setReg
        · exact h
      · split
        · exact h.winStep
        · exact h

/-! Machine/HostAccess.lean -/

theorem Block.Canonical.blockFollows (h : s.Canonical) {p} {old : Nat → Word} {oldSp} : (s.blockFollows p old oldSp).Canonical := by
  unfold Block.blockFollows
  split
  · exact h.ingestApplied.lsaFollows
  · exact h.foldl fun _ _ ht => .ite ht.modPort ht
  · exact h.portEn
  · exact h.portEn
  · exact h.portEn
  · exact h.portEn
  · exact h.scanApplied
  · exact h.scanApplied
  · exact h.scanApplied
  · exact h.lightApplied
  · exact h.lightApplied
  · exact h.lightApplied
  · exact h.lightApplied
  · exact .ite h.guestGrants.changeDue h.guestGrants
  · exact h.foldl fun _ _ ht => ht.pairService
  · exact h.fabricApply.lsaFollows
  · exact h.fabricApply.lsaFollows
  · exact h.fabricApply.lsaFollows
  · exact h.fabricApply.lsaFollows
  · exact h.fabricApply.lsaFollows
  · exact h

theorem Block.Canonical.enableWrite (h : s.Canonical) {p en} : (s.enableWrite p en).Canonical := .ite h.errCause h.setFld.blockFollows

theorem Block.Canonical.freezeWrite (h : s.Canonical) {p on} : (s.freezeWrite p on).Canonical :=
  .ite h.setFld.update (.ite h.setFld.update h.setFld)

theorem Block.Canonical.sourceReset (h : s.Canonical) {n} : (s.sourceReset n).Canonical := by
  unfold Block.sourceReset
  extract_lets t
  have ht : t.Canonical := by
    unfold t
    split
    · exact h.modSurf
    · exact h
  exact ht.modSrc

theorem Block.Canonical.seedDrop (h : s.Canonical) : s.seedDrop.Canonical := h.update.foldl fun _ _ ht => ht.complete

theorem Block.Canonical.stateSetDrop (h : s.Canonical) : s.stateSetDrop.Canonical := by
  unfold Block.stateSetDrop
  split
  · exact .complete (.ite h.update.standDown h.update)
  · exact h

theorem Block.Canonical.stageDrop (h : s.Canonical) : s.stageDrop.Canonical := by
  unfold Block.stageDrop
  split
  · extract_lets t
    have ht : t.Canonical := by
      unfold t
      split
      · exact .ite h.seedAbandon h
      · exact h
    exact ht.update.complete
  · exact h

theorem Block.Canonical.activateDrop (h : s.Canonical) : s.activateDrop.Canonical := by
  unfold Block.activateDrop
  extract_lets -underBinder t _ _ _ t1 t2
  have ht : t.Canonical := by
    unfold t
    split
    · exact .ite h.seedAbandon h
    · exact h
  have ht1 : t1.Canonical := ht.update.foldl fun _ _ ht2 => ht2.complete
  have ht2 : t2.Canonical := by
    unfold t2
    split
    · exact .ite ht1.update.modSlots ht1
    · exact ht1
  exact ht2.update.modSlots.bootRegs

theorem Block.Canonical.cueDrop (h : s.Canonical) : s.cueDrop.Canonical := h.update.foldl fun _ _ ht => .ite ht.cueMiss ht

theorem Block.Canonical.sweepDrop (h : s.Canonical) : s.sweepDrop.Canonical := by
  unfold Block.sweepDrop
  split
  · exact h
  · exact .ite h.sweepOver.calStop h.sweepOver.complete

theorem Block.Canonical.trustDrop (h : s.Canonical) : s.trustDrop.Canonical := h.update.rsaDrop.foldl fun _ _ ht => ht.complete

theorem Block.Canonical.abandonOps (h : s.Canonical) {p} : (s.abandonOps p).Canonical := by
  unfold Block.abandonOps
  split
  · exact h.stateSetDrop
  · exact h.stageDrop.activateDrop
  · exact h.ringCtrl
  · exact h.update
  · exact h.update
  · extract_lets t
    have ht : t.Canonical := h.foldl fun _ _ ht => ht.sourceReset
    exact .ite ht ht.nvmeOff
  · exact h.update
  · exact h.update.foldl fun _ _ ht => ht.modPort
  · exact h.foldl fun _ _ ht => ht.modPort
  · exact h.foldl fun _ _ ht => .ite ht.modPort.portGoto ht
  · exact h.update
  · exact h.update
  · exact h.update
  · exact h.update
  · exact h.calStop
  · exact h.sweepDrop
  · exact h.seedAbandon.seedDrop
  · exact h.trustDrop
  · exact h.update
  · exact h.cueDrop
  · exact h.modHo
  · exact h.update
  · exact h.update
  · exact h

theorem Block.Canonical.timeReset (h : s.Canonical) : s.timeReset.Canonical := .ite h.update.fsyncDrop.goSrc h.update.fsyncDrop

theorem Block.Canonical.softResetGo (h : s.Canonical) {p} : (s.softResetGo p).Canonical := by
  unfold Block.softResetGo
  extract_lets t old oldSp u v w x
  have hv : v.Canonical := h.abandonOps.dropRegs.setReg.unpend
  have hw : w.Canonical := .ite hv.timeReset hv
  exact .blockFollows (.ite hw.thermApplied hw)

theorem Block.Canonical.softReset (h : s.Canonical) {p} : (s.softReset p).Canonical :=
  .ite h.errCause (.ite h.update.setFld h.update.softResetGo)

theorem Block.Canonical.softResetWaiting (h : s.Canonical) : s.softResetWaiting.Canonical := h.update.foldl fun _ _ ht => ht.softResetGo

theorem Block.Canonical.softResetEnd (h : s.Canonical) {p} : (s.softResetEnd p).Canonical := .ite h.setFld h
theorem Block.Canonical.intClear (h : s.Canonical) {p v} : (s.intClear p v).Canonical := .ite h.setReg.message h.setReg.unpend
theorem Block.Canonical.lockWrite (h : s.Canonical) {p v} : (s.lockWrite p v).Canonical := .ite h h.setReg

theorem Block.Canonical.pageCtrlWrite (h : s.Canonical) {p v} : (s.pageCtrlWrite p v).Canonical := by
  unfold Block.pageCtrlWrite
  split
  · exact h.errCause
  · split
    · exact h.errCause
    · extract_lets t
      have ht : t.Canonical := .ite h.enableWrite h
      exact .ite ht.freezeWrite.softReset ht.freezeWrite

theorem Block.Canonical.commitWrite (h : s.Canonical) {p v} : (s.commitWrite p v).Canonical :=
  .ite (.ite (.commitIn (.ite h.withdraw h)) (.ite h.withdraw h)) h

theorem Block.Canonical.headWrite (h : s.Canonical) {p off v} : (s.headWrite p off v).Canonical := by
  unfold Block.headWrite
  split
  · exact h.pageCtrlWrite
  · exact h.intClear
  · exact .ite h.errCause (h.withInt fun _ ht => ht.setReg)
  · exact h.setInt
  · exact h.commitWrite
  · exact h.setReg
  · exact h.lockWrite
  · exact h

theorem Block.Canonical.devCommitWrite (h : s.Canonical) {v} : (s.devCommitWrite v).Canonical :=
  .ite (.commitIn (.ite h.withdraw h)) (.ite h.withdraw h)

theorem Block.Canonical.maCtrlWrite (h : s.Canonical) {p v} : (s.maCtrlWrite p v).Canonical := by
  unfold Block.maCtrlWrite
  extract_lets t t1
  have ht : t.Canonical := .ite h.arrayReset h
  have ht1 : t1.Canonical := .ite ht.maRetrain ht
  exact .ite ht1.maIdentReq ht1

theorem Block.Canonical.holdCmdWrite (h : s.Canonical) {v} : (s.holdCmdWrite v).Canonical :=
  .ite (.clearRing (.ite h.forceRejoin h)) (.ite h.forceRejoin h)

theorem Block.Canonical.strobe0 (h : s.Canonical) {a v} : (s.strobe0 a v).Canonical := by
  refine .ite h.devCommitWrite <| .ite h.resetCtrl <| .ite h.hkStrobe <| .ite h.ringResync <| .ite h.skdOpWrite <| .ite h.invGo <|
    .ite h.ftSet <| .ite h.update <| .ite h.surfOpWrite <| .ite h.hfcPush <| .ite h.planGo <| .ite (.ite h.seqCheck h) <| .ite h.setReg <|
    .ite h.trimCtrl <| .ite (.ite h.update.newChallenge h) <| .ite h.cueOp <| .ite h.holdCmdWrite <| .ite h.tallyCtrl ?_
  split
  · exact h.maCtrlWrite
  · split
    · exact h.chkFeed
    · exact h

theorem Block.Canonical.clearBits (h : s.Canonical) {a m v} : (s.clearBits a m v).Canonical :=
  .ite (.ite h.setReg h) (.setReg (.ite h.modSrc h))

theorem Block.Canonical.chkWrite (h : s.Canonical) {a v} : ∀ t ∈ s.chkWrite a v, t.Canonical := by
  fun_cases Block.chkWrite s a v <;> rintro t ⟨⟩
  · exact h.chkCfg
  · exact h.chkPsel
  · exact h.chkPhi

theorem Block.Canonical.barWrite (h : s.Canonical) {a v} : (s.barWrite a v).Canonical := by
  unfold Block.barWrite
  extract_lets _
  split
  · exact .ite h.readEffect h
  · split
    · exact h.headWrite
    · split
      · exact h
      · split
        · exact h.clearBits
        · exact h.clearBits
        · exact h.clearBits
        · exact h.strobe0
        · exact h.strobe0
        · split
          next t heq =>
            have ht : t.Canonical := h.chkWrite _ heq
            exact ht
          · exact h.put
        · split
          next t1 heq =>
            have ht1 : t1.Canonical := h.chkWrite _ heq
            exact ht1
          · exact h.put

theorem Block.Canonical.barRead (h : s.Canonical) {a} : (s.barRead a).2.Canonical := h.readEffect

theorem Block.Canonical.windowMem (h : s.Canonical) {off bs} : (s.windowMem off bs).Canonical :=
  .ite h (.foldl (.ite h.dramReq h) fun _ _ ht => .ite ht (.ite ht.setMemB.freshBlock.piTouch ht.setFld))

theorem Block.Canonical.windowCue (h : s.Canonical) {off bs} : (s.windowCue off bs).Canonical := .ite h (h.foldl fun _ _ ht => ht.ctxWrite)

theorem Block.Canonical.barWrite2 (h : s.Canonical) {off bs} : (s.barWrite2 off bs).Canonical :=
  .ite h.windowMem (.ite h.windowCue (.ite h.update.planStale (.ite h.update (.ite h.update h))))

theorem Block.Canonical.windowAsk (h : s.Canonical) {off n} : (s.windowAsk off n).Canonical := .ite h.dramReq h

theorem Block.Canonical.oddAccess (h : s.Canonical) {a size w} : (s.oddAccess a size w).Canonical := by
  unfold Block.oddAccess
  split
  · exact h
  · split
    · exact .ite h.barWrite.barWrite h
    · exact .ite h.barRead.barRead.emit h.emit

/-! Machine/Boundary.lean -/

theorem Block.Canonical.availability (h : s.Canonical) : s.availability.Canonical :=
  .update (.ite h (.ite (h.update.bump.bump.bump.foldl fun _ _ ht => ht.postTally) (.ite h.update.bump.update.bump h.update.bump)))

theorem Block.Canonical.conserve (h : s.Canonical) : s.conserve.Canonical := h.foldl fun _ _ ht => ht.setReg.faultEv

theorem Block.Canonical.wheelFb (h : s.Canonical) : s.wheelFb.Canonical := .ite h.update (.update (.ite h h.bump.bump))

theorem Block.Canonical.seriesFb (h : s.Canonical) : s.seriesFb.Canonical := by
  unfold Block.seriesFb
  extract_lets _ _ _ t _ _ t1
  have ht : t.Canonical := h.tallySnap.availability
  have ht1 : t1.Canonical := ht.update.postTally
  exact .ite ht1.post ht1

theorem Block.Canonical.softReturn (h : s.Canonical) {g} : (s.softReturn g).Canonical := h.modGrp

theorem Block.Canonical.darkEnd (h : s.Canonical) : s.darkEnd.1.Canonical := h.update

theorem Block.Canonical.softReturns (h : s.Canonical) {groups} : (s.softReturns groups).Canonical := h.foldl fun _ _ ht => ht.softReturn

theorem Block.Canonical.portsFb (h : s.Canonical) : s.portsFb.Canonical := by
  unfold Block.portsFb
  extract_lets -underBinder k t
  have ht : t.Canonical := h.foldl fun _ _ ht => ht.modPort
  split
  next u _ heq =>
    have hu : u.Canonical := .of_fst heq (ht.foldl_fst fun _ _ ht => ht.portFb)
    exact .ite hu.postTally hu

theorem Block.Canonical.frostEnter (h : s.Canonical) {r} : (s.frostEnter r).Canonical := .ite h.enterFrost.modHo h.enterFrost

theorem Block.Canonical.stallFrost (h : s.Canonical) : s.stallFrost.Canonical := .ite h.frostEnter h

theorem Block.Canonical.frostFb (h : s.Canonical) : s.frostFb.Canonical := by
  unfold Block.frostFb
  extract_lets t
  have ht : t.Canonical := by
    unfold t
    split
    · exact h.frostEnter
    · exact h
  exact .ite ht.enterFrost.setFld.bumpSat.post ht

theorem Block.Canonical.thawFb (h : s.Canonical) : s.thawFb.Canonical := by
  unfold Block.thawFb
  exact .modHo (.update (.ite (.thaw (.ite h.setFld.post h)) (.ite h.setFld.post h)))

theorem Block.Canonical.pipePb (h : s.Canonical) : s.pipePb.Canonical :=
  .stallPb (.ite_fst h.holdPb.clockPb (.ite_fst h.holdPb.clockPb.overrun h.holdPb.clockPb.takeSurface.pipeBegin))

theorem Block.Canonical.extinguishFb (h : s.Canonical) : s.extinguishFb.Canonical := .ite h h.dropGroups.unlit

theorem Block.Canonical.hlStringsFb (h : s.Canonical) : s.hlStringsFb.Canonical := h.modMembers.foldl fun _ _ ht => ht.modeKerf

theorem Block.Canonical.lightFb (h : s.Canonical) : s.lightFb.Canonical :=
  .setBucks (.refreshMembers (.litSync (.scenesFb (.relight (.stateSetEnd
    (.stateSetStart (.extinguishFb (.hlStringsFb (h.foldl fun _ _ ht => ht.levelFb)))))))))

theorem Block.Canonical.scanFb (h : s.Canonical) : s.scanFb.Canonical := h.rowsFb.beamResume.foldl fun _ _ ht => ht.chainFrame

theorem Block.Canonical.pulsesFb (h : s.Canonical) : s.pulsesFb.Canonical := .ite h.gpioPulse.emit h.gpioPulse

theorem Block.Canonical.frameBoundary (h : s.Canonical) : s.frameBoundary.Canonical := by
  unfold Block.frameBoundary
  split
  · exact h
  · extract_lets t t1 t2 t3 t4
    have ht : t.Canonical := h.cueFiring.cutoff
    have ht1 : t1.Canonical := ht.advanceTo
    have ht2 : t2.Canonical := ht1.seriesFb.wheelFb
    have ht3 : t3.Canonical := ht2.closeWhere
    have ht4 : t4.Canonical := ht3.foldl fun _ _ ht4 => ht4.estFrame
    split
    next t5 _ heq =>
      have ht5 : t5.Canonical := .of_fst heq ht4.darkEnd
      extract_lets t6 t7 t8 t9 t10 t11 t12 _ t13
      have ht6 : t6.Canonical := ht5.commitFb.softReturns.softResetWaiting
      have ht7 : t7.Canonical := ht6.portsFb
      have ht8 : t8.Canonical := ht7.frostFb.thawFb
      have ht9 : t9.Canonical := ht8.pointsFb.pdFb.targetApply
      have ht10 : t10.Canonical := ht9.dramFallbackEntry.pipePb.stallFrost
      have ht11 : t11.Canonical := ht10.lightFb.scanFb
      have ht12 : t12.Canonical := ht11.dramFrame.reloadRecs
      have ht13 : t13.Canonical := ht12.update
      exact ht13.pulsesFb.conserve

theorem Block.Canonical.snapWrite (h : s.Canonical) {cseq d xok} : (s.snapWrite cseq d xok).Canonical := by
  unfold Block.snapWrite
  split
  · exact h
  · exact .ite h.setStage.complete (.ite h.setStage.writeBuf.complete h.setStage.writeBuf.complete)

/-! Machine/HostLink.lean -/

theorem Block.Canonical.linkDown (h : s.Canonical) : s.linkDown.Canonical := by
  unfold Block.linkDown
  refine .foldl h fun _ _ ht => ?_
  split
  · exact ht
  · exact ht.hostFault.hostFault

theorem Block.Canonical.linkLoss (h : s.Canonical) : s.linkLoss.Canonical := by
  unfold Block.linkLoss
  refine .foldl h fun _ _ ht => ?_
  split
  · exact ht
  · exact .ite ht.skdProgress ht

theorem Block.Canonical.dpPath (h : s.Canonical) {a up} : (s.dpPath a up).Canonical :=
  .ite h (.ite h.update.setFld.postStream h.dpAbandon.setFld.setFld.update.postStream)

theorem Block.Canonical.linkChange (h : s.Canonical) {l} : (s.linkChange l).Canonical := by
  unfold Block.linkChange
  extract_lets _ _ _ _ _ _ _ t
  have ht : t.Canonical := .ite h.linkLoss h
  split
  next _ t1 heq =>
    have ht1 : t1.Canonical := .of_snd heq ht.update
    exact .post (.dpPath (.dpPath (.ite ht1.bump.setRegs.setFld.linkDown ht1.bump.setRegs.setFld)))

theorem Block.Canonical.configure (h : s.Canonical) {c} : (s.configure c).Canonical := h.update.foldl fun _ _ ht => ht.emit

theorem Block.Canonical.flr (h : s.Canonical) : s.flr.Canonical := .setFld (.ringCtrl (.update (h.foldl fun _ _ ht => .ite ht.skdAbort ht)))

theorem Block.Canonical.usbRead (h : s.Canonical) {off n} : (s.usbRead off n).2.Canonical := by
  induction n generalizing s off with
  | zero => exact h
  | succ n ih => exact ih h.barRead

theorem Block.Canonical.usbWrite (h : s.Canonical) {l} : (s.usbWrite l).1.Canonical := by
  induction l generalizing s with
  | nil => exact h
  | cons e l ih => exact ih h.barWrite

theorem Block.Canonical.usbServe (h : s.Canonical) {r} : (s.usbServe r).2.2.Canonical := by
  unfold Block.usbServe
  extract_lets -underBinder _
  split
  · exact h
  · split
    · exact h
    · split
      · exact h.usbRead
      · exact h.usbWrite
      · exact h.windowAsk
      · exact h.foldl fun _ _ ht => ht.barWrite2
      · exact h.imagePut

theorem Block.Canonical.usb2 (h : s.Canonical) {r} : (s.usb2 r).Canonical := by
  unfold Block.usb2
  extract_lets _ _ _ u
  have hu : u.Canonical := .ite h.setFld.usbServe h.setFld.usbServe.setFld
  exact .ite h (.ite hu.emit hu.emit.bump)

end

/-! The commands -/

/-- Does what a command answers leave a canonical block? -/
def LeavesCanonical (r : Res) : Prop := ∀ t, r = .next t → t.toBlock.Canonical

theorem LeavesCanonical.does {s : State} {f : Block → Block} (h : (f s.toBlock).Canonical) : LeavesCanonical (s.does f) := by
  rintro t ⟨⟩
  exact h

section
variable {s : State}

theorem execLsgPiCheckGo_canonical (h : s.toBlock.Canonical) : LeavesCanonical (execLsgPiCheckGo s) :=
  .does (h.onWrite fun _ ht => ht.piCheck)

theorem execOverCurrentTrip_canonical (h : s.toBlock.Canonical) {n} : LeavesCanonical (execOverCurrentTrip n s) := .does h.ocTrip
theorem execFaultInput_canonical (h : s.toBlock.Canonical) {n} : LeavesCanonical (execFaultInput n s) := .does (.ite h.latchMember h)
theorem execSpareTakeover_canonical (h : s.toBlock.Canonical) {g} : LeavesCanonical (execSpareTakeover g s) := .does (.ite h.takeover h)
theorem execProbeDue_canonical (h : s.toBlock.Canonical) {m} : LeavesCanonical (execProbeDue m s) := .does (.ite h.modMember h)

theorem execProbeStarved_canonical (h : s.toBlock.Canonical) {m} : LeavesCanonical (execProbeStarved m s) :=
  .does (.ite h.modMember.faultEv h)

theorem execColdSpareHot_canonical (h : s.toBlock.Canonical) {m} : LeavesCanonical (execColdSpareHot m s) := .does (.ite h.spareHot h)
theorem execFastAxisEnable_canonical (h : s.toBlock.Canonical) : LeavesCanonical (execFastAxisEnable s) := .does h.fastAxisStart

theorem execResonanceFound_canonical (h : s.toBlock.Canonical) {freq} : LeavesCanonical (execResonanceFound freq s) :=
  .does (.ite h.toLocal.resonance h)

theorem execHandoverTimeout_canonical (h : s.toBlock.Canonical) : LeavesCanonical (execHandoverTimeout s) :=
  .does (.ite h.lockFail (.ite h.lockFail h))

theorem execLockFail_canonical (h : s.toBlock.Canonical) : LeavesCanonical (execLockFail s) := .does (.ite h.lockFail h)
theorem execFastAxisLocked_canonical (h : s.toBlock.Canonical) : LeavesCanonical (execFastAxisLocked s) := .does h.locked
theorem execBeamCut_canonical (h : s.toBlock.Canonical) {cause} : LeavesCanonical (execBeamCut cause s) := .does h.cutMet
theorem execLockLoss_canonical (h : s.toBlock.Canonical) {cause} : LeavesCanonical (execLockLoss cause s) := .does (.ite h.lockLoss h)
theorem execRelockTimeout_canonical (h : s.toBlock.Canonical) : LeavesCanonical (execRelockTimeout s) := .does (.ite h.raise.modSc.sweep h)

theorem execZeroCrossing_canonical (h : s.toBlock.Canonical) {before after} : LeavesCanonical (execZeroCrossing before after s) :=
  .does h.crossing

theorem execHighlineTargetChange_canonical (h : s.toBlock.Canonical) : LeavesCanonical (execHighlineTargetChange s) := .does h.retarget
theorem execHighlineArrival_canonical (h : s.toBlock.Canonical) : LeavesCanonical (execHighlineArrival s) := .does h.arrive
theorem execRowDrawn_canonical (h : s.toBlock.Canonical) : LeavesCanonical (execRowDrawn s) := .does h.rowDrawn

theorem execRowToleranceExit_canonical (h : s.toBlock.Canonical) : LeavesCanonical (execRowToleranceExit s) :=
  .does (.ite (.ite h.beamOff.bump.postTally.nextRow h.beamOff.modSc.replan) h)

theorem execDrawingWindowEnd_canonical (h : s.toBlock.Canonical) : LeavesCanonical (execDrawingWindowEnd s) :=
  .does (.ite h h.advanceTo.windowEnd.retarget)

theorem execZoneBucketBoundary_canonical (h : s.toBlock.Canonical) : LeavesCanonical (execZoneBucketBoundary s) := .does h.bucketBoundary
theorem execDacSample_canonical (h : s.toBlock.Canonical) : LeavesCanonical (execDacSample s) := .does h.dacSample
theorem execLoopSample_canonical (h : s.toBlock.Canonical) {slot y v} : LeavesCanonical (execLoopSample slot y v s) := .does h.loopSample
theorem execStateScrub_canonical (h : s.toBlock.Canonical) {errs} : LeavesCanonical (execStateScrub errs s) := .does h.stateScrub

theorem execWheelFault_canonical (h : s.toBlock.Canonical) {kind last} : LeavesCanonical (execWheelFault kind last s) :=
  .does (.ite h.wheelFault h)

theorem execThermCeilingLost_canonical (h : s.toBlock.Canonical) {g} : LeavesCanonical (execThermCeilingLost g s) := .does h.ceilingLost
theorem execChainTableLoad_canonical (h : s.toBlock.Canonical) {c} : LeavesCanonical (execChainTableLoad c s) := .does (.ite h.tableLoad h)
theorem execProbeRun_canonical (h : s.toBlock.Canonical) {g res} : LeavesCanonical (execProbeRun g res s) := .does (.ite h.probeRun h)

theorem execChainShiftDone_canonical (h : s.toBlock.Canonical) {c ret} : LeavesCanonical (execChainShiftDone c ret s) :=
  .does (.ite h.shiftDone h)

theorem execIdent_canonical (h : s.toBlock.Canonical) {p d} : LeavesCanonical (execIdent p d s) := .does (.ite h.ident h)
theorem execFifoUnderrun_canonical (h : s.toBlock.Canonical) {p} : LeavesCanonical (execFifoUnderrun p s) := .does (.ite h.abortPort h)

theorem execLinkStatus_canonical (h : s.toBlock.Canonical) {p state lane skew order} :
    LeavesCanonical (execLinkStatus p state lane skew order s) :=
  .does (.ite h.linkStatus h)

theorem execTrainingAttemptTimeout_canonical (h : s.toBlock.Canonical) {p} : LeavesCanonical (execTrainingAttemptTimeout p s) :=
  .does (.ite h.trainTimeout h)

theorem execDarkTrainingTimeout_canonical (h : s.toBlock.Canonical) {p} : LeavesCanonical (execDarkTrainingTimeout p s) :=
  .does (.ite h.modPort.linkFail h)

theorem execArrayReset_canonical (h : s.toBlock.Canonical) {p} : LeavesCanonical (execArrayReset p s) := .does (.ite h.arrayReset h)
theorem execMaRetrain_canonical (h : s.toBlock.Canonical) {p} : LeavesCanonical (execMaRetrain p s) := .does (.ite h.maRetrain h)
theorem execMaIdentReq_canonical (h : s.toBlock.Canonical) {p} : LeavesCanonical (execMaIdentReq p s) := .does (.ite h.maIdentReq h)
theorem execPreloadStart_canonical (h : s.toBlock.Canonical) : LeavesCanonical (execPreloadStart s) := .does (.ite h.preload h)
theorem execPlaneLoadStart_canonical (h : s.toBlock.Canonical) {p} : LeavesCanonical (execPlaneLoadStart p s) := .does (.ite h.loadStart h)
theorem execPlaneLoadEnd_canonical (h : s.toBlock.Canonical) {p} : LeavesCanonical (execPlaneLoadEnd p s) := .does (.ite h.loadEnd h)
theorem execSlotStart_canonical (h : s.toBlock.Canonical) {g ev} : LeavesCanonical (execSlotStart g ev s) := .does (.ite h.slotStart h)

theorem execKerfEnd_canonical (h : s.toBlock.Canonical) {g rdyLow seenHigh} : LeavesCanonical (execKerfEnd g rdyLow seenHigh s) :=
  .does (.ite h.kerfEnd h)

theorem execLastDwellEnd_canonical (h : s.toBlock.Canonical) {g ev} : LeavesCanonical (execLastDwellEnd g ev s) :=
  .does (.ite h.lastDwellEnd h)

theorem execDarkIntervalStart_canonical (h : s.toBlock.Canonical) : LeavesCanonical (execDarkIntervalStart s) := .does h.darkStart

theorem execPlaneAck_canonical (h : s.toBlock.Canonical) {p slot plane status fsn arrDiff tapDiff} :
    LeavesCanonical (execPlaneAck p slot plane status fsn arrDiff tapDiff s) :=
  .does (.ite h.planeAck h)

theorem execAckMissing_canonical (h : s.toBlock.Canonical) {p slot} : LeavesCanonical (execAckMissing p slot s) :=
  .does (.ite h.ackMissing h)

theorem execArrayTemp_canonical (h : s.toBlock.Canonical) {p temp} : LeavesCanonical (execArrayTemp p temp s) :=
  .does (.ite h.setReg.modPort h)

theorem execArrayStatus_canonical (h : s.toBlock.Canonical) {p code sev detail} : LeavesCanonical (execArrayStatus p code sev detail s) :=
  .does (.ite h.arrayStatus h)

theorem execEchoReply_canonical (h : s.toBlock.Canonical) {p token} : LeavesCanonical (execEchoReply p token s) := .does h

theorem execBackchannelBadMessage_canonical (h : s.toBlock.Canonical) {p} : LeavesCanonical (execBackchannelBadMessage p s) :=
  .does (.ite h.bump h)

theorem execBcLost_canonical (h : s.toBlock.Canonical) {p} : LeavesCanonical (execBcLost p s) := .does (.ite h.modPort.maFault h)

theorem execBcLostLong_canonical (h : s.toBlock.Canonical) {p} : LeavesCanonical (execBcLostLong p s) := by
  unfold execBcLostLong
  refine .does ?_
  split
  · exact .ite h.raise h
  · exact h

theorem execBcRegained_canonical (h : s.toBlock.Canonical) {p} : LeavesCanonical (execBcRegained p s) :=
  .does (.ite h.modPort.maEvt.autoClose h)

theorem execTsConversion_canonical (h : s.toBlock.Canonical) {t} : LeavesCanonical (execTsConversion t s) := .does h.tsConversion
theorem execNtcConversion_canonical (h : s.toBlock.Canonical) {j c} : LeavesCanonical (execNtcConversion j c s) := .does h.ntcConversion

theorem execLaserModelUpdate_canonical (h : s.toBlock.Canonical) : LeavesCanonical (execLaserModelUpdate s) := by
  unfold execLaserModelUpdate
  refine .does ?_
  split
  · exact h
  · exact h
  · exact h
  · exact .modMembers (h.foldl fun _ _ ht => ht.modelUpdate)

theorem execRingCmdTailWrite_canonical (h : s.toBlock.Canonical) {v} : LeavesCanonical (execRingCmdTailWrite v s) :=
  .does (h.onWrite fun _ ht => ht.cmdTail)

theorem execCmdFetchFault_canonical (h : s.toBlock.Canonical) {kind} : LeavesCanonical (execCmdFetchFault kind s) :=
  .does (.ite h.fetchFault h)

theorem execRingCmdResync_canonical (h : s.toBlock.Canonical) {v} : LeavesCanonical (execRingCmdResync v s) :=
  .does (h.onStrobe fun _ ht => ht.ringResync)

theorem execCmdEnSet_canonical (h : s.toBlock.Canonical) : LeavesCanonical (execCmdEnSet s) := .does (h.onWrite fun _ ht => ht.ringCtrl)
theorem execCmdEnClear_canonical (h : s.toBlock.Canonical) : LeavesCanonical (execCmdEnClear s) := .does (h.onWrite fun _ ht => ht.ringCtrl)
theorem execEvtEnSet_canonical (h : s.toBlock.Canonical) : LeavesCanonical (execEvtEnSet s) := .does (h.onWrite fun _ ht => ht.ringCtrl)
theorem execEvtEnClear_canonical (h : s.toBlock.Canonical) : LeavesCanonical (execEvtEnClear s) := .does (h.onWrite fun _ ht => ht.ringCtrl)
theorem execEventWrite_canonical (h : s.toBlock.Canonical) : LeavesCanonical (execEventWrite s) := .does (.ite h.eventWrite h)

theorem execEventWriteFault_canonical (h : s.toBlock.Canonical) : LeavesCanonical (execEventWriteFault s) :=
  .does (.ite h.eventWriteFault h)

theorem execEvtModTimeout_canonical (h : s.toBlock.Canonical) : LeavesCanonical (execEvtModTimeout s) := by
  unfold execEvtModTimeout
  refine .does ?_
  split
  · exact .ite h h.advance.raise63
  · exact h

theorem execRingEvtHeadWrite_canonical (h : s.toBlock.Canonical) {v} : LeavesCanonical (execRingEvtHeadWrite v s) :=
  .does (h.onWrite fun _ ht => ht.evtHead)

theorem execNop_canonical (h : s.toBlock.Canonical) {cseq} : LeavesCanonical (execNop cseq s) := by
  unfold execNop
  refine .does ?_
  split
  · exact h.complete
  · exact h

theorem execBadOpcode_canonical (h : s.toBlock.Canonical) {cseq} : LeavesCanonical (execBadOpcode cseq s) := by
  unfold execBadOpcode
  refine .does ?_
  split
  · exact .ite h.complete h
  · exact h

theorem execSnapshot_canonical (h : s.toBlock.Canonical) {cseq} : LeavesCanonical (execSnapshot cseq s) := by
  unfold execSnapshot
  refine .does ?_
  split
  · exact .ite h.complete h.update.setStage
  · exact h

theorem execDramUe_canonical (h : s.toBlock.Canonical) {addr client errs} : LeavesCanonical (execDramUe addr client errs s) :=
  .does (.ite h.uncorrectable.ueClient h)

theorem execDramCe_canonical (h : s.toBlock.Canonical) {addr errs} : LeavesCanonical (execDramCe addr errs s) := .does (.ite h.corrected h)
theorem execDramScrubRead_canonical (h : s.toBlock.Canonical) {result} : LeavesCanonical (execDramScrubRead result s) := .does h.scrubStep

theorem execSlackSample_canonical (h : s.toBlock.Canonical) {q v arr} : LeavesCanonical (execSlackSample q v arr s) :=
  .does (.ite h.slackSample h)

theorem execRefreshDue_canonical (h : s.toBlock.Canonical) {ch idle} : LeavesCanonical (execRefreshDue ch idle s) :=
  .does (.ite h.refreshDue h)

theorem execRefreshRatePoll_canonical (h : s.toBlock.Canonical) {ch val above} : LeavesCanonical (execRefreshRatePoll ch val above s) :=
  .does (.ite h.ratePoll h)

theorem execDriftTrim_canonical (h : s.toBlock.Canonical) {ch n} : LeavesCanonical (execDriftTrim ch n s) :=
  .does (.ite h.trimLane.trimLane h)

theorem execDramStepDownRequest_canonical (h : s.toBlock.Canonical) : LeavesCanonical (execDramStepDownRequest s) := by
  unfold execDramStepDownRequest
  refine .does ?_
  split
  · exact .ite h h.advance.stepDown
  · exact h

theorem execDramStepUpRequest_canonical (h : s.toBlock.Canonical) : LeavesCanonical (execDramStepUpRequest s) := by
  unfold execDramStepUpRequest
  refine .does ?_
  split
  · exact .ite h h.advance.stepUp
  · exact h

theorem execDramFreqChangeStart_canonical (h : s.toBlock.Canonical) : LeavesCanonical (execDramFreqChangeStart s) := by
  unfold execDramFreqChangeStart
  refine .does ?_
  split
  · exact h.changeStart
  · exact h

theorem execPairFreqChange_canonical (h : s.toBlock.Canonical) {q} : LeavesCanonical (execPairFreqChange q s) := .does (.ite h.pairChange h)
theorem execDramFreqWait_canonical (h : s.toBlock.Canonical) {q} : LeavesCanonical (execDramFreqWait q s) := .does (.ite h.freqWait h)

theorem execSelfRefreshEntry_canonical (h : s.toBlock.Canonical) {q} : LeavesCanonical (execSelfRefreshEntry q s) :=
  .does (.ite h (.ite (.ite h.toLocal.pairGoto h) (.ite h.selfRefresh h)))

theorem execSelfRefreshExit_canonical (h : s.toBlock.Canonical) {q held} : LeavesCanonical (execSelfRefreshExit q held s) :=
  .does (.ite h (.ite h.modPair.pairGoto.postTally (.ite (.leaveRefresh (.ite h.postTally h)) h)))

theorem execPairOutOfService_canonical (h : s.toBlock.Canonical) {q} : LeavesCanonical (execPairOutOfService q s) :=
  .does (.ite h.pairService h)

theorem execDramSweep_canonical (h : s.toBlock.Canonical) {cseq pass xok} : LeavesCanonical (execDramSweep cseq pass xok s) := by
  unfold execDramSweep
  refine .does ?_
  extract_lets t
  have ht : t.Canonical := by
    unfold t
    split
    · exact h.sweepAccept
    · exact h
  split
  · exact .ite ht.sweepEnd ht
  · exact ht

theorem execSeedRecordWrite_canonical (h : s.toBlock.Canonical) {n} : LeavesCanonical (execSeedRecordWrite n s) :=
  .does h.seedStart.seedStep

theorem execSeedChkOnly_canonical (h : s.toBlock.Canonical) {ty slot} : LeavesCanonical (execSeedChkOnly ty slot s) :=
  .does (.ite h.seedCheck h)

theorem execReservedSlotWrite_canonical (h : s.toBlock.Canonical) {n} : LeavesCanonical (execReservedSlotWrite n s) :=
  .does h.copyStart.copyStep

theorem execSeedScrubRead_canonical (h : s.toBlock.Canonical) {result} : LeavesCanonical (execSeedScrubRead result s) :=
  .does (.ite h (.ite h.toLocal.scrubWord.update.seedUncorr (.ite h.toLocal.scrubWord.bump.raise.postTally h.toLocal.scrubWord)))

theorem execSeedSelCapture_canonical (h : s.toBlock.Canonical) {v} : LeavesCanonical (execSeedSelCapture v s) :=
  .does (h.onWrite fun _ ht => ht.seedSel)

theorem execSeedStore_canonical (h : s.toBlock.Canonical) {cseq host} : LeavesCanonical (execSeedStore cseq host s) := by
  unfold execSeedStore
  refine .does ?_
  split
  · exact h.seedStore
  · exact h

theorem execSeedLoad_canonical (h : s.toBlock.Canonical) {cseq xok} : LeavesCanonical (execSeedLoad cseq xok s) := by
  unfold execSeedLoad
  refine .does ?_
  split
  · exact h.seedLoad
  · exact h

theorem execOwnerKeyInstall_canonical (h : s.toBlock.Canonical) {cseq host} : LeavesCanonical (execOwnerKeyInstall cseq host s) :=
  .does (h.ownerKey fun _ _ _ ht => ht.ownerInstall)

theorem execOwnerKeyRevoke_canonical (h : s.toBlock.Canonical) {cseq host} : LeavesCanonical (execOwnerKeyRevoke cseq host s) :=
  .does (h.ownerKey fun _ _ _ ht => ht.ownerRevoke)

theorem execOwnerKeyPolicyOn_canonical (h : s.toBlock.Canonical) {cseq host} : LeavesCanonical (execOwnerKeyPolicyOn cseq host s) :=
  .does (h.ownerKey fun _ _ _ ht => ht.ownerPolicyOn)

theorem execOwnerKeyRestore_canonical (h : s.toBlock.Canonical) {cseq host} : LeavesCanonical (execOwnerKeyRestore cseq host s) :=
  .does (h.ownerKey fun _ _ _ ht => ht.ownerRestore)

theorem execJtagNewChallenge_canonical (h : s.toBlock.Canonical) {random} : LeavesCanonical (execJtagNewChallenge random s) :=
  .does (h.onStrobe fun _ ht => ht.newChallenge)

theorem execJtagResponse_canonical (h : s.toBlock.Canonical) {modulus scope sig} : LeavesCanonical (execJtagResponse modulus scope sig s) :=
  .does (.ite h.jtagResponse h)

theorem execJtagChallengeExpiry_canonical (h : s.toBlock.Canonical) : LeavesCanonical (execJtagChallengeExpiry s) :=
  .does (.ite h.advance.update h)

theorem execTimeSourceLost_canonical (h : s.toBlock.Canonical) : LeavesCanonical (execTimeSourceLost s) := by
  unfold execTimeSourceLost
  refine .does ?_
  split
  · exact .ite h (.goSrc (.ite h.advance.update h.advance.update))
  · exact h

theorem execTimeSourceRequalified_canonical (h : s.toBlock.Canonical) : LeavesCanonical (execTimeSourceRequalified s) := by
  unfold execTimeSourceRequalified
  refine .does ?_
  split
  · split
    next t heq =>
      have ht : t.Canonical := h.requalify _ heq
      exact ht
    · exact .getD h.requalify h
  · exact h

theorem execFsyncInEdge_canonical (h : s.toBlock.Canonical) {after} : LeavesCanonical (execFsyncInEdge after s) :=
  .does (.ite h.advance.fsyncEdge h.advance)

theorem execTimeFtSetHiWrite_canonical (h : s.toBlock.Canonical) {v} : LeavesCanonical (execTimeFtSetHiWrite v s) := .does (.ite h.update h)
theorem execTimeFtSetLoWrite_canonical (h : s.toBlock.Canonical) {v} : LeavesCanonical (execTimeFtSetLoWrite v s) := .does (.ite h.ftSet h)

theorem execTimeCtrlWrite_canonical (h : s.toBlock.Canonical) {v} : LeavesCanonical (execTimeCtrlWrite v s) :=
  .does (h.rwWrite fun _ _ ht => ht.timeCtrl)

theorem execTcFreewheelExpiry_canonical (h : s.toBlock.Canonical) : LeavesCanonical (execTcFreewheelExpiry s) :=
  .does (.ite h.advance.update h)

theorem execTimeFtLoRead_canonical (h : s.toBlock.Canonical) : LeavesCanonical (execTimeFtLoRead s) := .does (.ite h.setRegs h)
theorem execTimeCutoffLoRead_canonical (h : s.toBlock.Canonical) : LeavesCanonical (execTimeCutoffLoRead s) := .does (.ite h.setReg h)

theorem execTallySnapLoRead_canonical (h : s.toBlock.Canonical) {n} : LeavesCanonical (execTallySnapLoRead n s) := by
  unfold execTallySnapLoRead
  refine .does ?_
  split
  · split
    · exact h.setReg
    · exact h
  · exact h

theorem execLinkCtrlSend_canonical (h : s.toBlock.Canonical) {p} : LeavesCanonical (execLinkCtrlSend p s) :=
  .does (.ite h.advance.linkCtrl h)

theorem execRetryTimeout_canonical (h : s.toBlock.Canonical) {p} : LeavesCanonical (execRetryTimeout p s) := .does (.ite h.advance.retry h)
theorem execLinkCtrl_canonical (h : s.toBlock.Canonical) {p d} : LeavesCanonical (execLinkCtrl p d s) := .does (.ite h.linkCtrlIn h)
theorem execCreditAudit_canonical (h : s.toBlock.Canonical) {p d} : LeavesCanonical (execCreditAudit p d s) := .does (.ite h.linkCtrlIn h)

theorem execFabricLinkUp_canonical (h : s.toBlock.Canonical) {p nonce} : LeavesCanonical (execFabricLinkUp p nonce s) := by
  unfold execFabricLinkUp
  refine .does ?_
  split
  · exact .ite h.fLinkUp (.ite h.fLinkUp.bootAsk h)
  · exact .ite h.fLinkUp (.ite h.fLinkUp.bootAsk h)
  · exact .ite h.fLinkUp (.ite h.fLinkUp.bootAsk h)
  · exact h

theorem execAlignmentTimeout_canonical (h : s.toBlock.Canonical) {p} : LeavesCanonical (execAlignmentTimeout p s) := by
  unfold execAlignmentTimeout
  refine .does ?_
  split
  · exact h.advance.fGoto.modF
  · exact h.advance.fGoto.modF
  · exact h.advance.fGoto.modF
  · exact h

theorem execModuleInserted_canonical (h : s.toBlock.Canonical) {p id temp} : LeavesCanonical (execModuleInserted p id temp s) := by
  unfold execModuleInserted
  refine .does ?_
  split
  · extract_lets _ _ t
    have ht : t.Canonical := .ite h.update.modF h.update
    exact .ite ht.fRefresh ht.moduleFollows
  · exact h

theorem execModulePoll_canonical (h : s.toBlock.Canonical) {p flags temp alarm los} :
    LeavesCanonical (execModulePoll p flags temp alarm los s) := by
  unfold execModulePoll
  refine .does ?_
  split
  · extract_lets _ t
    have ht : t.Canonical := .ite h.modulePolled.moduleAlarm h.modulePolled.autoClose
    exact .ite ht.retrain ht
  · exact h

theorem execModuleRemoved_canonical (h : s.toBlock.Canonical) {p} : LeavesCanonical (execModuleRemoved p s) :=
  .does (.ite h.update.modF.fRefresh h)

theorem execHostFrameRx_canonical (h : s.toBlock.Canonical) {frame} : LeavesCanonical (execHostFrameRx frame s) := .does (.ite h.hostRx h)

theorem execFabricFrameReceived_canonical (h : s.toBlock.Canonical) {p data corr uncorr} :
    LeavesCanonical (execFabricFrameReceived p data corr uncorr s) :=
  .does (.ite (.frameIn (.ite (.ite h h.bump.postTally) (.bump (.ite h h.bump.postTally)))) h)

theorem execFabricSend_canonical (h : s.toBlock.Canonical) {cseq host} : LeavesCanonical (execFabricSend cseq host s) := by
  unfold execFabricSend
  refine .does ?_
  split
  · exact h
  · extract_lets _
    split
    · exact h.complete
    · split
      · exact h.complete
      · split
        · exact h.complete
        · split
          next t _ heq =>
            have ht : t.Canonical := .of_fst heq h.readBuf
            exact ht.sendMsg
          next t1 heq =>
            have ht1 : t1.Canonical := .of_fst heq h.readBuf
            exact ht1.complete

theorem execTimecode_canonical (h : s.toBlock.Canonical) {cseq} : LeavesCanonical (execTimecode cseq s) := by
  unfold execTimecode
  refine .does ?_
  split
  · exact h.timecode
  · exact h

theorem execHelloSend_canonical (h : s.toBlock.Canonical) {p} : LeavesCanonical (execHelloSend p s) :=
  .does (.ite h.advance.modF.sendLocal h)

theorem execHello_canonical (h : s.toBlock.Canonical) {p d} : LeavesCanonical (execHello p d s) :=
  .does (.ite (.ite h.nbrDrop.postF.fGoto.modF h.helloIn) h)

theorem execNeighbourDown_canonical (h : s.toBlock.Canonical) {p loss} : LeavesCanonical (execNeighbourDown p loss s) := by
  unfold execNeighbourDown
  refine .does ?_
  split
  · exact h
  · split
    · exact h.retrain
    · split
      · exact h.advance.nbrDrop
      · exact h

theorem execAltFailover_canonical (h : s.toBlock.Canonical) {p} : LeavesCanonical (execAltFailover p s) := .does (.ite h.modF h)

theorem execLsaOriginate_canonical (h : s.toBlock.Canonical) : LeavesCanonical (execLsaOriginate s) :=
  .does (.ite (.originate (.ite h h.advance)) h)

theorem execLsa_canonical (h : s.toBlock.Canonical) {p d} : LeavesCanonical (execLsa p d s) := .does (.ite h.lsaIn h)

theorem execLsaAgeOut_canonical (h : s.toBlock.Canonical) {uid} : LeavesCanonical (execLsaAgeOut uid s) := by
  unfold execLsaAgeOut
  refine .does ?_
  split
  · exact .ite h.advance.lsaDrop h
  · exact h

theorem execRootAndAddresses_canonical (h : s.toBlock.Canonical) : LeavesCanonical (execRootAndAddresses s) := .does (.ite h.rootPass h)
theorem execAssign_canonical (h : s.toBlock.Canonical) {p d} : LeavesCanonical (execAssign p d s) := .does (.ite h.assignIn h)

theorem execSpfHoldExpiry_canonical (h : s.toBlock.Canonical) : LeavesCanonical (execSpfHoldExpiry s) := by
  unfold execSpfHoldExpiry
  refine .does ?_
  split
  · exact h.advance.update
  · exact h

theorem execRouteSwap_canonical (h : s.toBlock.Canonical) {ms} : LeavesCanonical (execRouteSwap ms s) := by
  unfold execRouteSwap
  refine .does ?_
  split
  · exact h.advance.swap
  · exact h

theorem execSyncSend_canonical (h : s.toBlock.Canonical) : LeavesCanonical (execSyncSend s) := .does (.ite h.advance.syncSend h)
theorem execSync_canonical (h : s.toBlock.Canonical) {p d stamp} : LeavesCanonical (execSync p d stamp s) := .does (.ite h.syncHeard h)

theorem execPdelayExchange_canonical (h : s.toBlock.Canonical) {p kind pseq t1 t2 t3 t4} :
    LeavesCanonical (execPdelayExchange p kind pseq t1 t2 t3 t4 s) :=
  .does (.ite h.pdelay h)

theorem execAttest_canonical (h : s.toBlock.Canonical) {cseq sig xok} : LeavesCanonical (execAttest cseq sig xok s) := by
  unfold execAttest
  refine .does ?_
  extract_lets t
  have ht : t.Canonical := by
    unfold t
    split
    · exact .ite h h.attestStart
    · exact h
  split
  · exact .ite ht.attestEnd.rsaServe ht
  · exact ht

theorem execAdmitStream_canonical (h : s.toBlock.Canonical) {p d serial rsa sig} : LeavesCanonical (execAdmitStream p d serial rsa sig s) :=
  .does (.ite h.admitIn h)

theorem execAdmitRetry_canonical (h : s.toBlock.Canonical) {p nonce} : LeavesCanonical (execAdmitRetry p nonce s) :=
  .does (.ite h.advance.fGoto.admitStart h)

theorem execBootReq_canonical (h : s.toBlock.Canonical) {p d} : LeavesCanonical (execBootReq p d s) := .does (.ite h.bootReq h)

theorem execOffsetWindowClose_canonical (h : s.toBlock.Canonical) {j r code sat} :
    LeavesCanonical (execOffsetWindowClose j r code sat s) := by
  unfold execOffsetWindowClose
  refine .does ?_
  split
  · split
    next t heq =>
      have ht : t.Canonical := h.offsetAt _ heq
      exact ht.offsetClose
    · exact h
  · exact h

theorem execMeasureWindowClose_canonical (h : s.toBlock.Canonical) {g i flat filt satA satB} :
    LeavesCanonical (execMeasureWindowClose g i flat filt satA satB s) :=
  .does (.ite h.measureClose h)

theorem execEpochEnd_canonical (h : s.toBlock.Canonical) : LeavesCanonical (execEpochEnd s) := .does (.ite h.epochEnd h)

theorem execReportSend_canonical (h : s.toBlock.Canonical) : LeavesCanonical (execReportSend s) := by
  unfold execReportSend
  refine .does ?_
  split
  · split
    · exact h.advanceTo.sendGroup0
    · exact h
  · exact h

theorem execColourReport_canonical (h : s.toBlock.Canonical) {d} : LeavesCanonical (execColourReport d s) := .does (.ite h.reportIn h)
theorem execColourDigest_canonical (h : s.toBlock.Canonical) {d} : LeavesCanonical (execColourDigest d s) := .does (.ite h.digestIn h)
theorem execCollectionClose_canonical (h : s.toBlock.Canonical) : LeavesCanonical (execCollectionClose s) := .does (.ite h.collect h)
theorem execDigestClose_canonical (h : s.toBlock.Canonical) : LeavesCanonical (execDigestClose s) := .does (.ite h.decide_ h)
theorem execChkStart_canonical (h : s.toBlock.Canonical) {u v} : LeavesCanonical (execChkStart u v s) := .does (.ite h.chkCfg h)
theorem execChkMem_canonical (h : s.toBlock.Canonical) {u v} : LeavesCanonical (execChkMem u v s) := .does (.ite h.chkCfg h)
theorem execChkFinish_canonical (h : s.toBlock.Canonical) {u v} : LeavesCanonical (execChkFinish u v s) := .does (.ite h.chkCfg h)

theorem execChkFeed_canonical (h : s.toBlock.Canonical) {u v} : LeavesCanonical (execChkFeed u v s) :=
  .does (.ite (h.onStrobe fun _ ht => ht.chkFeed) h)

theorem execChkMemDone_canonical (h : s.toBlock.Canonical) {u} : LeavesCanonical (execChkMemDone u s) := .does (.ite h.chkMemDone h)

theorem execChkParameterWrite_canonical (h : s.toBlock.Canonical) {u phi v} : LeavesCanonical (execChkParameterWrite u phi v s) :=
  .does (.ite (.ite h.chkPhi h.chkPsel) h)

theorem execTallyClear_canonical (h : s.toBlock.Canonical) {v} : LeavesCanonical (execTallyClear v s) :=
  .does (h.onStrobe fun _ ht => ht.tallyCtrl)

theorem execTallyWrap_canonical (h : s.toBlock.Canonical) {n} : LeavesCanonical (execTallyWrap n s) := .does h.tallyWrap

theorem execGpioTallyIn_canonical (h : s.toBlock.Canonical) {levels} : LeavesCanonical (execGpioTallyIn levels s) :=
  .does (h.update.foldl fun _ _ ht => .ite ht.postTally ht)

theorem execSeqCheckGo_canonical (h : s.toBlock.Canonical) {v} : LeavesCanonical (execSeqCheckGo v s) :=
  .does (h.onStrobe fun _ ht => .ite ht.seqCheck ht)

theorem execTableSyncDone_canonical (h : s.toBlock.Canonical) : LeavesCanonical (execTableSyncDone s) := .does h.syncDone

theorem execWarpPlanGo_canonical (h : s.toBlock.Canonical) {v} : LeavesCanonical (execWarpPlanGo v s) :=
  .does (h.onStrobe fun _ ht => ht.planGo)

theorem execWarpPlanDone_canonical (h : s.toBlock.Canonical) : LeavesCanonical (execWarpPlanDone s) := .does h.planDone
theorem execPlanesSealed_canonical (h : s.toBlock.Canonical) : LeavesCanonical (execPlanesSealed s) := .does h.planesSealed

theorem execSurfDefine_canonical (h : s.toBlock.Canonical) {i} : LeavesCanonical (execSurfDefine i s) :=
  .does (h.onStrobe fun _ ht => ht.surfDefine)

theorem execSurfOpen_canonical (h : s.toBlock.Canonical) {i} : LeavesCanonical (execSurfOpen i s) :=
  .does (h.onStrobe fun _ ht => ht.surfOpen)

theorem execSurfClose_canonical (h : s.toBlock.Canonical) {i} : LeavesCanonical (execSurfClose i s) :=
  .does (h.onStrobe fun _ ht => ht.surfClose)

theorem execStoreSurfSelCapture_canonical (h : s.toBlock.Canonical) {v} : LeavesCanonical (execStoreSurfSelCapture v s) :=
  .does (h.onWrite fun _ ht => ht.surfSelWrite)

theorem execCmpOver_canonical (h : s.toBlock.Canonical) {n} : LeavesCanonical (execCmpOver n s) := by
  unfold execCmpOver
  refine .does ?_
  split
  · exact h
  · exact .ite h.bump.abandon h

theorem execDpFrameStart_canonical (h : s.toBlock.Canonical) {a} : LeavesCanonical (execDpFrameStart a s) := .does h.dpStart

theorem execDpFrameSealed_canonical (h : s.toBlock.Canonical) {a pix bad vsc} : LeavesCanonical (execDpFrameSealed a pix bad vsc s) :=
  .does h.dpSeal

theorem execDpFrameAbandoned_canonical (h : s.toBlock.Canonical) {a} : LeavesCanonical (execDpFrameAbandoned a s) := .does h.dpAbandon
theorem execDpTimingChange_canonical (h : s.toBlock.Canonical) {a t} : LeavesCanonical (execDpTimingChange a t s) := .does h.dpTiming
theorem execDscPpsRefused_canonical (h : s.toBlock.Canonical) {a} : LeavesCanonical (execDscPpsRefused a s) := .does h.dscRefuse
theorem execContentUnit_canonical (h : s.toBlock.Canonical) {data pix} : LeavesCanonical (execContentUnit data pix s) := .does h.content
theorem execPictureLate_canonical (h : s.toBlock.Canonical) {f} : LeavesCanonical (execPictureLate f s) := .does (.ite h.pictureLate h)

theorem execNvmeEnSet_canonical (h : s.toBlock.Canonical) {linkUp id} : LeavesCanonical (execNvmeEnSet linkUp id s) :=
  .does (h.onWrite fun _ ht => .ite ht ht.nvmeEnable)

theorem execHfcPush_canonical (h : s.toBlock.Canonical) {v} : LeavesCanonical (execHfcPush v s) := .does (h.onStrobe fun _ ht => ht.hfcPush)

theorem execNvmeReadDone_canonical (h : s.toBlock.Canonical) {status data pix} : LeavesCanonical (execNvmeReadDone status data pix s) := by
  unfold execNvmeReadDone
  refine .does ?_
  split
  · exact h
  · split
    · extract_lets _ t
      have ht : t.Canonical := h.modNvme.foldl fun _ _ ht => ht.emitRead
      exact .ite ht.readsDone ht
    · exact .ite h.readsFailed h.modNvme.emitRead

theorem execCommitCutoff_canonical (h : s.toBlock.Canonical) : LeavesCanonical (execCommitCutoff s) := .does h.cutoff

theorem execPageCommitReq_canonical (h : s.toBlock.Canonical) {p abort} : LeavesCanonical (execPageCommitReq p abort s) :=
  .does (h.onStrobe fun _ ht => .ite (.commitIn (.ite ht.withdraw ht)) ht)

theorem execPageCommitAbort_canonical (h : s.toBlock.Canonical) {p} : LeavesCanonical (execPageCommitAbort p s) :=
  .does (h.onStrobe fun _ ht => .ite ht.withdraw ht)

theorem execDevCommitReq_canonical (h : s.toBlock.Canonical) {abort} : LeavesCanonical (execDevCommitReq abort s) :=
  .does (h.onStrobe fun _ ht => .commitIn (.ite ht.withdraw ht))

theorem execDevCommitAbort_canonical (h : s.toBlock.Canonical) : LeavesCanonical (execDevCommitAbort s) :=
  .does (h.onStrobe fun _ ht => ht.withdraw)

theorem execRingRecord_canonical (h : s.toBlock.Canonical) {coded pps done} : LeavesCanonical (execRingRecord coded pps done s) :=
  .does h.ringRecord

theorem execClearRing_canonical (h : s.toBlock.Canonical) : LeavesCanonical (execClearRing s) := .does (h.onStrobe fun _ ht => ht.clearRing)
theorem execRingPlayerDecode_canonical (h : s.toBlock.Canonical) {pix} : LeavesCanonical (execRingPlayerDecode pix s) := .does h.playDecode
theorem execLibraryRead_canonical (h : s.toBlock.Canonical) : LeavesCanonical (execLibraryRead s) := .does h.libraryRead

theorem execHoldCtrlVerify_canonical (h : s.toBlock.Canonical) {cseq reads} : LeavesCanonical (execHoldCtrlVerify cseq reads s) := by
  unfold execHoldCtrlVerify
  refine .does ?_
  split
  · exact h.holdVerify
  · exact h

theorem execForceRejoin_canonical (h : s.toBlock.Canonical) : LeavesCanonical (execForceRejoin s) :=
  .does (h.onStrobe fun _ ht => ht.forceRejoin)

theorem execBringupFailed_canonical (h : s.toBlock.Canonical) {hw} : LeavesCanonical (execBringupFailed hw s) := by
  unfold execBringupFailed
  refine .does ?_
  split
  · exact h
  · exact .ite h.hwFail.bringupFail (.ite h.advance.hwFail.tryReady h.advance.hwFail.bringupFail)

theorem execMaRdyNLow_canonical (h : s.toBlock.Canonical) {p} : LeavesCanonical (execMaRdyNLow p s) := .does (.ite h.rdyLow h)

theorem execChainEnum_canonical (h : s.toBlock.Canonical) {c n ids} : LeavesCanonical (execChainEnum c n ids s) :=
  .does (.tryReady (.setReg (.ite h.enumerate h)))

theorem execChainEnumRetry_canonical (h : s.toBlock.Canonical) {c n ids} : LeavesCanonical (execChainEnumRetry c n ids s) :=
  .does (.ite (.ite h.modChn.enumerate.tryReady h.modChn.enumSends) h)

theorem execStateSetReady_canonical (h : s.toBlock.Canonical) {cseq} : LeavesCanonical (execStateSetReady cseq s) :=
  .does (h.stateSet fun _ _ ht => ht.setReady)

theorem execStateSetStandby_canonical (h : s.toBlock.Canonical) {cseq} : LeavesCanonical (execStateSetStandby cseq s) :=
  .does (h.stateSet fun _ _ ht => ht.setStandby)

theorem execStateSetLit_canonical (h : s.toBlock.Canonical) {cseq} : LeavesCanonical (execStateSetLit cseq s) :=
  .does (h.stateSet fun _ _ ht => ht.setLit)

theorem execStateSetExtinguish_canonical (h : s.toBlock.Canonical) {cseq} : LeavesCanonical (execStateSetExtinguish cseq s) :=
  .does (h.stateSet fun _ _ ht => ht.setExtinguish)

theorem execCmdFetch_canonical (h : s.toBlock.Canonical) {host} : LeavesCanonical (execCmdFetch host s) := by
  unfold execCmdFetch
  refine .does ?_
  split
  · split
    next t _ _ heq =>
      have ht : t.Canonical := .of_fst heq h.cmdEntry
      exact .ite ht.take.calAccept ht.take
    next t1 _ heq =>
      have ht1 : t1.Canonical := .of_fst heq h.cmdEntry
      exact ht1.fetchFault
  · exact h

theorem execCalibratePd_canonical (h : s.toBlock.Canonical) {cseq} : LeavesCanonical (execCalibratePd cseq s) := .does h.calibrate
theorem execCalibratePi_canonical (h : s.toBlock.Canonical) {cseq} : LeavesCanonical (execCalibratePi cseq s) := .does h.calibrate
theorem execCalibrateScan_canonical (h : s.toBlock.Canonical) {cseq} : LeavesCanonical (execCalibrateScan cseq s) := .does h.calibrate
theorem execCalibrateDram_canonical (h : s.toBlock.Canonical) {cseq} : LeavesCanonical (execCalibrateDram cseq s) := .does h.calibrate

theorem execCalibrationResult_canonical (h : s.toBlock.Canonical) {d} : LeavesCanonical (execCalibrationResult d s) := by
  unfold execCalibrationResult
  refine .does ?_
  split
  · exact .ite h.calibrationResult h
  · exact h

theorem execPrecondLost_canonical (h : s.toBlock.Canonical) : LeavesCanonical (execPrecondLost s) := by
  unfold execPrecondLost
  refine .does ?_
  split
  · split
    · exact h
    · split
      · exact h.calStop
      · exact h
  · exact h

theorem execTrimAbort_canonical (h : s.toBlock.Canonical) {v} : LeavesCanonical (execTrimAbort v s) :=
  .does (h.onStrobe fun _ ht => ht.trimCtrl)

theorem execTrimTimeout_canonical (h : s.toBlock.Canonical) : LeavesCanonical (execTrimTimeout s) := by
  unfold execTrimTimeout
  refine .does ?_
  split
  · exact h.advance.calStop
  · exact h

theorem execSweepAborted_canonical (h : s.toBlock.Canonical) : LeavesCanonical (execSweepAborted s) := by
  unfold execSweepAborted
  refine .does ?_
  split
  · exact .ite h (.ite h.calStop h.sweepOver.post.complete)
  · exact h

theorem execVddAonValid_canonical (h : s.toBlock.Canonical) : LeavesCanonical (execVddAonValid s) :=
  .does (.ite h h.resetKeep.setRegs.update.cause.place)

theorem execVddAonLoss_canonical (h : s.toBlock.Canonical) : LeavesCanonical (execVddAonLoss s) :=
  .does (.ite h h.resetKeep.setRegs.update.place)

theorem execPorstNAssert_canonical (h : s.toBlock.Canonical) : LeavesCanonical (execPorstNAssert s) :=
  .does (.ite h.update h.update.resetKeep.cause.place)

theorem execPorstNRelease_canonical (h : s.toBlock.Canonical) {src} : LeavesCanonical (execPorstNRelease src s) :=
  .does (.ite h.update.startBoot h.update)

theorem execRailOutOfTolerance_canonical (h : s.toBlock.Canonical) {rail} : LeavesCanonical (execRailOutOfTolerance rail s) :=
  .does (.ite h h.resetHold.setFld.setFld)

theorem execRailsRestored_canonical (h : s.toBlock.Canonical) {src} : LeavesCanonical (execRailsRestored src s) :=
  .does (.ite h.setReg.resetRelease h)

theorem execWarmReset_canonical (h : s.toBlock.Canonical) {v} : LeavesCanonical (execWarmReset v s) :=
  .does (h.onStrobe fun _ ht => ht.resetCtrl)

theorem execFabricResetReq_canonical (h : s.toBlock.Canonical) {p src d} : LeavesCanonical (execFabricResetReq p src d s) :=
  .does (.ite h (.ite h.bumpSat.post (.ite h.bumpSat.post (.ite h.bumpSat.post h.warmReset))))

theorem execBootSourceTimeout_canonical (h : s.toBlock.Canonical) {timeout} : LeavesCanonical (execBootSourceTimeout timeout s) := by
  unfold execBootSourceTimeout
  refine .does ?_
  split
  · exact h
  · split
    · extract_lets t _ t1
      have ht : t.Canonical := .ite h.advance h
      have ht1 : t1.Canonical := .ite ht ht.update
      exact .ite ht1.setReg.setFld ht1.setReg

theorem execBootComplete_canonical (h : s.toBlock.Canonical) {f} : LeavesCanonical (execBootComplete f s) := by
  unfold execBootComplete
  refine .does ?_
  split
  · exact h
  · split
    · exact h.bootDone
    · exact h

theorem execPfWarn_canonical (h : s.toBlock.Canonical) : LeavesCanonical (execPfWarn s) := by
  unfold execPfWarn
  refine .does ?_
  extract_lets _ _ _ _ _ _ t t1
  have ht : t.Canonical := .ite h.update.seedAbandon h.update
  have ht1 : t1.Canonical := .ite ht.calStored ht
  exact .ite h.update ht1.bump.post

theorem execPfLaserCut_canonical (h : s.toBlock.Canonical) : LeavesCanonical (execPfLaserCut s) := by
  unfold execPfLaserCut
  refine .does ?_
  split
  · extract_lets -underBinder _
    split
    · exact h.advance.update
    · exact h.advance.update
    · exact h.advance.laserCut
  · exact h

theorem execPfDeassert_canonical (h : s.toBlock.Canonical) : LeavesCanonical (execPfDeassert s) :=
  .does (.ite h.update h.update.post.blowHeld.update)

theorem execPfRecovered_canonical (h : s.toBlock.Canonical) : LeavesCanonical (execPfRecovered s) := .does (.ite h.advance.update h)

theorem execHkRestartRequest_canonical (h : s.toBlock.Canonical) {v} : LeavesCanonical (execHkRestartRequest v s) :=
  .does (h.onStrobe fun _ ht => ht.hkStrobe)

theorem execHkWatchdogExpiry_canonical (h : s.toBlock.Canonical) : LeavesCanonical (execHkWatchdogExpiry s) := .does (.ite h.hkRestart h)
theorem execHkRestartEnd_canonical (h : s.toBlock.Canonical) : LeavesCanonical (execHkRestartEnd s) := .does (.ite h h.hkEnd)

theorem execMgmtLost_canonical (h : s.toBlock.Canonical) : LeavesCanonical (execMgmtLost s) := by
  unfold execMgmtLost
  refine .does ?_
  split
  · exact .ite h h.mgmtGone
  · exact h

theorem execFwStage_canonical (h : s.toBlock.Canonical) {cseq host} : LeavesCanonical (execFwStage cseq host s) := by
  unfold execFwStage
  refine .does ?_
  split
  · exact h.fwStageStart
  · exact h

theorem execFwActivateHk_canonical (h : s.toBlock.Canonical) {cseq} : LeavesCanonical (execFwActivateHk cseq s) :=
  .does (h.fwActivate fun _ _ ht => .ite ht.complete ht.complete.measure.modSlots.bootRegs.hkRestart)

theorem execFwTrialPass_canonical (h : s.toBlock.Canonical) : LeavesCanonical (execFwTrialPass s) := by
  unfold execFwTrialPass
  refine .does ?_
  split
  · exact .ite h h.bump.modSlots.hkEnd.bootRegs.numRecord.post
  · exact h

theorem execFwTrialFail_canonical (h : s.toBlock.Canonical) : LeavesCanonical (execFwTrialFail s) := by
  unfold execFwTrialFail
  refine .does ?_
  split
  · exact .ite h h.advance.update.modSlots.bootRegs
  · exact h

theorem execFwActivateSv_canonical (h : s.toBlock.Canonical) {cseq} : LeavesCanonical (execFwActivateSv cseq s) :=
  .does (h.fwActivate fun _ _ ht => .ite ht.complete (.ite ht.complete (.ite ht.complete ht.complete.measure.update.modSlots.bootRegs)))

theorem execSvSelftestDone_canonical (h : s.toBlock.Canonical) {ok} : LeavesCanonical (execSvSelftestDone ok s) :=
  .does (.ite (.ite h.update.modSlots.bootRegs.numRecord.post.svUp h.update.modSlots.bootRegs.selfTestFail.post.svUp)
    (.ite (.ite h.svUp h.update.selfTestFail) h))

theorem execFwActivateRollback_canonical (h : s.toBlock.Canonical) {cseq} : LeavesCanonical (execFwActivateRollback cseq s) :=
  .does (h.fwActivate fun _ _ ht => .ite ht.complete (.ite ht.complete ht.numRecord.setStage))

theorem execSeedWriteDone_canonical (h : s.toBlock.Canonical) : LeavesCanonical (execSeedWriteDone s) := by
  unfold execSeedWriteDone
  refine .does ?_
  split
  next t heq =>
    have ht : t.Canonical := .of_fst heq h.seedCommit
    exact ht
  next t1 _ heq =>
    have ht1 : t1.Canonical := .of_fst heq h.seedCommit
    extract_lets t2
    have ht2 : t2.Canonical := .ite ht1.autoClose ht1
    split
    · split
      · exact ht2.complete
      · exact ht2
    · exact ht2.calStored
    · exact ht2.fwStaged
    · exact ht2.ownerWritten
    · exact ht2.rollbackWritten
    · exact ht2

theorem execFirebreakDie_canonical (h : s.toBlock.Canonical) : LeavesCanonical (execFirebreakDie s) := .does (.ite h.advance.firebreakDie h)

theorem execFirebreakLaser_canonical (h : s.toBlock.Canonical) {g} : LeavesCanonical (execFirebreakLaser g s) := by
  unfold execFirebreakLaser
  refine .does ?_
  split
  · exact h
  · exact h
  · exact h
  · exact h
  · exact h
  · exact .ite h.advance.firebreakLaser h

theorem execDtuWalk_canonical (h : s.toBlock.Canonical) {va write client} : LeavesCanonical (execDtuWalk va write client s) :=
  .does h.translate

theorem execDtuInvGo_canonical (h : s.toBlock.Canonical) {v} : LeavesCanonical (execDtuInvGo v s) := .does (h.onStrobe fun _ ht => ht.invGo)

theorem execDtuInvDone_canonical (h : s.toBlock.Canonical) : LeavesCanonical (execDtuInvDone s) := by
  unfold execDtuInvDone
  refine .does ?_
  split
  · exact h
  · exact h.update.setReg.post

theorem execDtuProbe_canonical (h : s.toBlock.Canonical) {v} : LeavesCanonical (execDtuProbe v s) :=
  .does (h.onWrite fun _ ht => ht.probeWrite)

theorem execSafetyInput_canonical (h : s.toBlock.Canonical) {i permits} : LeavesCanonical (execSafetyInput i permits s) :=
  .does (.ite h (.ite h.setInput.update (.ite h.setInput.permit h.setInput.forbid)))

theorem execSvDeadman_canonical (h : s.toBlock.Canonical) : LeavesCanonical (execSvDeadman s) :=
  .does (.ite h h.update.lightOut.postI.raise)

theorem execSvLockstep_canonical (h : s.toBlock.Canonical) : LeavesCanonical (execSvLockstep s) :=
  .does (.ite h h.update.lightOut.postI.raise)

theorem execFaultClear_canonical (h : s.toBlock.Canonical) {cseq} : LeavesCanonical (execFaultClear cseq s) := by
  unfold execFaultClear
  refine .does ?_
  split
  · exact h
  · extract_lets _
    split
    · exact h.complete
    · split
      · exact h.complete
      · split
        · exact h.faultClear
        · split
          · exact h.complete
          · exact .ite h.faultClear (.ite h.complete h.faultClear)

theorem execSkdDescriptorStart_canonical (h : s.toBlock.Canonical) {m host} : LeavesCanonical (execSkdDescriptorStart m host s) :=
  .does h.skdStart

theorem execSkdDescDone_canonical (h : s.toBlock.Canonical) {m host others} : LeavesCanonical (execSkdDescDone m host others s) := by
  unfold execSkdDescDone
  refine .does ?_
  split
  · exact h
  · split
    · exact h
    · split
      next t heq =>
        have ht : t.Canonical := .of_fst heq h.moveTo
        exact ht
      next t1 heq =>
        have ht1 : t1.Canonical := .of_fst heq h.moveTo
        exact ht1.skdFinish

theorem execSkdPreempt_canonical (h : s.toBlock.Canonical) {m upto host hostDesc} :
    LeavesCanonical (execSkdPreempt m upto host hostDesc s) := by
  unfold execSkdPreempt
  refine .does ?_
  split
  · split
    · exact h
    · extract_lets _
      split
      · exact h
      · split
        next t heq =>
          have ht : t.Canonical := .of_fst heq h.moveTo
          exact ht
        next t1 heq =>
          have ht1 : t1.Canonical := .of_fst heq h.moveTo
          exact ht1.skdRelease.modSkd.post.skdStart
  · exact h

theorem execSkdFault_canonical (h : s.toBlock.Canonical) {m upto detail dst host} :
    LeavesCanonical (execSkdFault m upto detail dst host s) :=
  .does h.bump.hostFault

theorem execSkdHostTimeout_canonical (h : s.toBlock.Canonical) {m upto dst host} : LeavesCanonical (execSkdHostTimeout m upto dst host s) :=
  .does h.bump.hostFault

theorem execSkdOpResume_canonical (h : s.toBlock.Canonical) {c} : LeavesCanonical (execSkdOpResume c s) :=
  .does (h.onStrobe fun _ ht => ht.skdResume)

theorem execSkdOpSkip_canonical (h : s.toBlock.Canonical) {c} : LeavesCanonical (execSkdOpSkip c s) :=
  .does (h.onStrobe fun _ ht => ht.skdSkip)

theorem execSkdOpAbort_canonical (h : s.toBlock.Canonical) {c host} : LeavesCanonical (execSkdOpAbort c host s) :=
  .does (h.onStrobe fun _ ht => ht.skdOpAbort)

theorem execSkdOpResync_canonical (h : s.toBlock.Canonical) {c} : LeavesCanonical (execSkdOpResync c s) :=
  .does (h.onStrobe fun _ ht => ht.skdResync)

theorem execSkdChEnable_canonical (h : s.toBlock.Canonical) {c v host} : LeavesCanonical (execSkdChEnable c v host s) :=
  .does (.ite (h.rwWrite fun _ _ ht => ht.skdCtrlWrite) h)

theorem execSkdChTailWrite_canonical (h : s.toBlock.Canonical) {c v} : LeavesCanonical (execSkdChTailWrite c v s) :=
  .does (.ite (h.onWrite fun _ ht => ht.skdTailWrite) h)

theorem execSkdCtxCapture_canonical (h : s.toBlock.Canonical) {v} : LeavesCanonical (execSkdCtxCapture v s) :=
  .does (h.onWrite fun _ ht => ht.skdCapture)

theorem execCueContextWrite_canonical (h : s.toBlock.Canonical) {i w v} : LeavesCanonical (execCueContextWrite i w v s) :=
  .does (.ite (h.onStrobe fun _ ht => ht.ctxWrite) h)

theorem execCueOpArm_canonical (h : s.toBlock.Canonical) {v} : LeavesCanonical (execCueOpArm v s) :=
  .does (h.onStrobe fun _ ht => ht.cueState)

theorem execCueOpCancel_canonical (h : s.toBlock.Canonical) {v} : LeavesCanonical (execCueOpCancel v s) :=
  .does (h.onStrobe fun _ ht => ht.cueState)

theorem execCueOpCancelAll_canonical (h : s.toBlock.Canonical) {x} : LeavesCanonical (execCueOpCancelAll x s) :=
  .does (h.onStrobe fun _ ht => ht.cancelAll)

theorem execCueActionFetch_canonical (h : s.toBlock.Canonical) {bad} : LeavesCanonical (execCueActionFetch bad s) :=
  .does (.ite h.cueFetch h)

theorem execCueFiring_canonical (h : s.toBlock.Canonical) {bad} : LeavesCanonical (execCueFiring bad s) := .does h.cueFiring
theorem execCueFrame_canonical (h : s.toBlock.Canonical) {src d} : LeavesCanonical (execCueFrame src d s) := .does (.ite h.cueFrame h)
theorem execFineCueTick_canonical (h : s.toBlock.Canonical) {bad} : LeavesCanonical (execFineCueTick bad s) := .does (.ite h.fineCue h)

theorem execRegisterWrite_canonical (h : s.toBlock.Canonical) {a v} : LeavesCanonical (execRegisterWrite a v s) :=
  .does (h.onStrobe fun _ ht => .ite ht.barWrite ht)

theorem execUnsupportedAccess_canonical (h : s.toBlock.Canonical) {a size w} : LeavesCanonical (execUnsupportedAccess a size w s) :=
  .does (.ite h.oddAccess (.ite h.emit h))

theorem execWindowWrite_canonical (h : s.toBlock.Canonical) {off data} : LeavesCanonical (execWindowWrite off data s) :=
  .does (h.onStrobe fun _ ht => ht.barWrite2)

theorem execWindowDataAccess_canonical (h : s.toBlock.Canonical) {a w} : LeavesCanonical (execWindowDataAccess a w s) := by
  unfold execWindowDataAccess
  refine .does ?_
  refine .onStrobe h fun _ ht => ?_
  split
  · exact ht.put
  · exact ht.winStep
  · exact ht

theorem execPageEnableWrite_canonical (h : s.toBlock.Canonical) {p en} : LeavesCanonical (execPageEnableWrite p en s) :=
  .does (.ite h (h.onWrite fun _ ht => ht.enableWrite))

theorem execSoftReset_canonical (h : s.toBlock.Canonical) {p} : LeavesCanonical (execSoftReset p s) :=
  .does (.ite h (h.onWrite fun _ ht => ht.softReset))

theorem execSoftResetDone_canonical (h : s.toBlock.Canonical) {p} : LeavesCanonical (execSoftResetDone p s) := .does (.ite h h.softResetEnd)

theorem execPageFreeze_canonical (h : s.toBlock.Canonical) {p on} : LeavesCanonical (execPageFreeze p on s) :=
  .does (.ite h (h.onWrite fun _ ht => ht.freezeWrite))

theorem execPageLockWrite_canonical (h : s.toBlock.Canonical) {p v} : LeavesCanonical (execPageLockWrite p v s) :=
  .does (.ite h (h.onStrobe fun _ ht => ht.lockWrite))

theorem execIntStatusClear_canonical (h : s.toBlock.Canonical) {p v} : LeavesCanonical (execIntStatusClear p v s) :=
  .does (.ite h (h.onStrobe fun _ ht => ht.intClear))

theorem execIntForce_canonical (h : s.toBlock.Canonical) {p v} : LeavesCanonical (execIntForce p v s) :=
  .does (.ite h (h.onStrobe fun _ ht => ht.setInt))

theorem execFrameBoundary_canonical (h : s.toBlock.Canonical) : LeavesCanonical (execFrameBoundary s) := .does h.frameBoundary

theorem execSnapshotCapture_canonical (h : s.toBlock.Canonical) {xok} : LeavesCanonical (execSnapshotCapture xok s) :=
  .does (h.update.foldl fun _ _ ht => ht.snapWrite)

theorem execUsb4LinkChange_canonical (h : s.toBlock.Canonical) {l} : LeavesCanonical (execUsb4LinkChange l s) := .does h.linkChange

theorem execUnsupportedOffer_canonical (h : s.toBlock.Canonical) {code a} : LeavesCanonical (execUnsupportedOffer code a s) :=
  .does (.ite h (.ite h.dscRefuse (.unsupported (.ite h.setFld h))))

theorem execFunctionLevelReset_canonical (h : s.toBlock.Canonical) : LeavesCanonical (execFunctionLevelReset s) := .does h.flr

theorem execPciePowerStateChange_canonical (h : s.toBlock.Canonical) {d3 cfg} : LeavesCanonical (execPciePowerStateChange d3 cfg s) :=
  .does h.configure.setFld

theorem execPanelReplayEntry_canonical (h : s.toBlock.Canonical) {a} : LeavesCanonical (execPanelReplayEntry a s) :=
  .does (.ite h h.update.setFld)

theorem execPanelReplayUpdate_canonical (h : s.toBlock.Canonical) {a} : LeavesCanonical (execPanelReplayUpdate a s) :=
  .does (.ite h h.update.setFld)

theorem execUsb2Request_canonical (h : s.toBlock.Canonical) {r} : LeavesCanonical (execUsb2Request r s) := .does h.usb2

theorem execUsb2SummaryDelivery_canonical (h : s.toBlock.Canonical) : LeavesCanonical (execUsb2SummaryDelivery s) :=
  .does (.ite h h.update.emit)

theorem execRefclkFailure_canonical (h : s.toBlock.Canonical) : LeavesCanonical (execRefclkFailure s) :=
  .does (.update (.ite h.resetHold h))

theorem execRefclkRecovered_canonical (h : s.toBlock.Canonical) {src} : LeavesCanonical (execRefclkRecovered src s) :=
  .does h.update.resetRelease

theorem execXtal25Fault_canonical (h : s.toBlock.Canonical) : LeavesCanonical (execXtal25Fault s) := .does (.update (.ite h.resetHold h))

theorem execXtal25Recovered_canonical (h : s.toBlock.Canonical) {src} : LeavesCanonical (execXtal25Recovered src s) :=
  .does h.update.resetRelease

/-- Every command leaves a canonical block canonical. -/
theorem exec_canonical (h : s.toBlock.Canonical) : ∀ c : Instr, LeavesCanonical (exec c s)
  | .frameBoundary => execFrameBoundary_canonical h
  | .commitCutoff => execCommitCutoff_canonical h
  | .preloadStart => execPreloadStart_canonical h
  | .darkIntervalStart => execDarkIntervalStart_canonical h
  | .slotStart _ _ => execSlotStart_canonical h
  | .kerfEnd _ _ _ => execKerfEnd_canonical h
  | .lastDwellEnd _ _ => execLastDwellEnd_canonical h
  | .planeLoadStart _ => execPlaneLoadStart_canonical h
  | .planeLoadEnd _ => execPlaneLoadEnd_canonical h
  | .fifoUnderrun _ => execFifoUnderrun_canonical h
  | .measureWindowClose _ _ _ _ _ _ => execMeasureWindowClose_canonical h
  | .offsetWindowClose _ _ _ _ => execOffsetWindowClose_canonical h
  | .loopSample _ _ _ => execLoopSample_canonical h
  | .stateScrub _ => execStateScrub_canonical h
  | .wheelFault _ _ => execWheelFault_canonical h
  | .thermCeilingLost _ => execThermCeilingLost_canonical h
  | .overCurrentTrip _ => execOverCurrentTrip_canonical h
  | .faultInput _ => execFaultInput_canonical h
  | .spareTakeover _ => execSpareTakeover_canonical h
  | .coldSpareHot _ => execColdSpareHot_canonical h
  | .probeDue _ => execProbeDue_canonical h
  | .probeRun _ _ => execProbeRun_canonical h
  | .probeStarved _ => execProbeStarved_canonical h
  | .chainTableLoad _ => execChainTableLoad_canonical h
  | .chainShiftDone _ _ => execChainShiftDone_canonical h
  | .chainEnum _ _ _ => execChainEnum_canonical h
  | .chainEnumRetry _ _ _ => execChainEnumRetry_canonical h
  | .pageCommitReq _ _ => execPageCommitReq_canonical h
  | .pageCommitAbort _ => execPageCommitAbort_canonical h
  | .devCommitReq _ => execDevCommitReq_canonical h
  | .devCommitAbort => execDevCommitAbort_canonical h
  | .registerWrite _ _ => execRegisterWrite_canonical h
  | .unsupportedAccess _ _ _ => execUnsupportedAccess_canonical h
  | .windowWrite _ _ => execWindowWrite_canonical h
  | .windowDataAccess _ _ => execWindowDataAccess_canonical h
  | .timeFtLoRead => execTimeFtLoRead_canonical h
  | .timeCutoffLoRead => execTimeCutoffLoRead_canonical h
  | .tallySnapLoRead _ => execTallySnapLoRead_canonical h
  | .pageEnableWrite _ _ => execPageEnableWrite_canonical h
  | .softReset _ => execSoftReset_canonical h
  | .softResetDone _ => execSoftResetDone_canonical h
  | .pageFreeze _ _ => execPageFreeze_canonical h
  | .pageLockWrite _ _ => execPageLockWrite_canonical h
  | .intStatusClear _ _ => execIntStatusClear_canonical h
  | .intForce _ _ => execIntForce_canonical h
  | .evtModTimeout => execEvtModTimeout_canonical h
  | .ringEvtHeadWrite _ => execRingEvtHeadWrite_canonical h
  | .ringCmdTailWrite _ => execRingCmdTailWrite_canonical h
  | .cmdEnSet => execCmdEnSet_canonical h
  | .cmdEnClear => execCmdEnClear_canonical h
  | .evtEnSet => execEvtEnSet_canonical h
  | .evtEnClear => execEvtEnClear_canonical h
  | .ringCmdResync _ => execRingCmdResync_canonical h
  | .cmdFetch _ => execCmdFetch_canonical h
  | .cmdFetchFault _ => execCmdFetchFault_canonical h
  | .eventWrite => execEventWrite_canonical h
  | .eventWriteFault => execEventWriteFault_canonical h
  | .nop _ => execNop_canonical h
  | .badOpcode _ => execBadOpcode_canonical h
  | .snapshot _ => execSnapshot_canonical h
  | .snapshotCapture _ => execSnapshotCapture_canonical h
  | .stateSetReady _ => execStateSetReady_canonical h
  | .bringupFailed _ => execBringupFailed_canonical h
  | .stateSetStandby _ => execStateSetStandby_canonical h
  | .stateSetLit _ => execStateSetLit_canonical h
  | .stateSetExtinguish _ => execStateSetExtinguish_canonical h
  | .fwStage _ _ => execFwStage_canonical h
  | .fwActivateHk _ => execFwActivateHk_canonical h
  | .fwActivateSv _ => execFwActivateSv_canonical h
  | .fwActivateRollback _ => execFwActivateRollback_canonical h
  | .fwTrialPass => execFwTrialPass_canonical h
  | .fwTrialFail => execFwTrialFail_canonical h
  | .svSelftestDone _ => execSvSelftestDone_canonical h
  | .hkRestartRequest _ => execHkRestartRequest_canonical h
  | .hkWatchdogExpiry => execHkWatchdogExpiry_canonical h
  | .hkRestartEnd => execHkRestartEnd_canonical h
  | .mgmtLost => execMgmtLost_canonical h
  | .calibratePd _ => execCalibratePd_canonical h
  | .calibratePi _ => execCalibratePi_canonical h
  | .calibrateScan _ => execCalibrateScan_canonical h
  | .calibrateDram _ => execCalibrateDram_canonical h
  | .calibrationResult _ => execCalibrationResult_canonical h
  | .precondLost => execPrecondLost_canonical h
  | .trimAbort _ => execTrimAbort_canonical h
  | .trimTimeout => execTrimTimeout_canonical h
  | .seedStore _ _ => execSeedStore_canonical h
  | .seedLoad _ _ => execSeedLoad_canonical h
  | .attest _ _ _ => execAttest_canonical h
  | .ownerKeyInstall _ _ => execOwnerKeyInstall_canonical h
  | .ownerKeyRevoke _ _ => execOwnerKeyRevoke_canonical h
  | .ownerKeyPolicyOn _ _ => execOwnerKeyPolicyOn_canonical h
  | .ownerKeyRestore _ _ => execOwnerKeyRestore_canonical h
  | .timecode _ => execTimecode_canonical h
  | .tcFreewheelExpiry => execTcFreewheelExpiry_canonical h
  | .fabricSend _ _ => execFabricSend_canonical h
  | .holdCtrlVerify _ _ => execHoldCtrlVerify_canonical h
  | .dramSweep _ _ _ => execDramSweep_canonical h
  | .sweepAborted => execSweepAborted_canonical h
  | .faultClear _ => execFaultClear_canonical h
  | .timeFtSetHiWrite _ => execTimeFtSetHiWrite_canonical h
  | .timeFtSetLoWrite _ => execTimeFtSetLoWrite_canonical h
  | .timeCtrlWrite _ => execTimeCtrlWrite_canonical h
  | .timeSourceLost => execTimeSourceLost_canonical h
  | .timeSourceRequalified => execTimeSourceRequalified_canonical h
  | .fsyncInEdge _ => execFsyncInEdge_canonical h
  | .vddAonValid => execVddAonValid_canonical h
  | .vddAonLoss => execVddAonLoss_canonical h
  | .porstNAssert => execPorstNAssert_canonical h
  | .porstNRelease _ => execPorstNRelease_canonical h
  | .bootSourceTimeout _ => execBootSourceTimeout_canonical h
  | .bootComplete _ => execBootComplete_canonical h
  | .railOutOfTolerance _ => execRailOutOfTolerance_canonical h
  | .railsRestored _ => execRailsRestored_canonical h
  | .pfWarn => execPfWarn_canonical h
  | .pfLaserCut => execPfLaserCut_canonical h
  | .pfDeassert => execPfDeassert_canonical h
  | .pfRecovered => execPfRecovered_canonical h
  | .warmReset _ => execWarmReset_canonical h
  | .fabricResetReq _ _ _ => execFabricResetReq_canonical h
  | .usb4LinkChange _ => execUsb4LinkChange_canonical h
  | .unsupportedOffer _ _ => execUnsupportedOffer_canonical h
  | .functionLevelReset => execFunctionLevelReset_canonical h
  | .dpFrameStart _ => execDpFrameStart_canonical h
  | .dpFrameSealed _ _ _ _ => execDpFrameSealed_canonical h
  | .dpFrameAbandoned _ => execDpFrameAbandoned_canonical h
  | .dpTimingChange _ _ => execDpTimingChange_canonical h
  | .dscPpsRefused _ => execDscPpsRefused_canonical h
  | .panelReplayEntry _ => execPanelReplayEntry_canonical h
  | .panelReplayUpdate _ => execPanelReplayUpdate_canonical h
  | .usb2Request _ => execUsb2Request_canonical h
  | .usb2SummaryDelivery => execUsb2SummaryDelivery_canonical h
  | .skdChTailWrite _ _ => execSkdChTailWrite_canonical h
  | .skdDescriptorStart _ _ => execSkdDescriptorStart_canonical h
  | .skdPreempt _ _ _ _ => execSkdPreempt_canonical h
  | .skdFault _ _ _ _ _ => execSkdFault_canonical h
  | .skdHostTimeout _ _ _ _ => execSkdHostTimeout_canonical h
  | .skdDescDone _ _ _ => execSkdDescDone_canonical h
  | .skdOpResume _ => execSkdOpResume_canonical h
  | .skdOpSkip _ => execSkdOpSkip_canonical h
  | .skdOpAbort _ _ => execSkdOpAbort_canonical h
  | .skdOpResync _ => execSkdOpResync_canonical h
  | .skdChEnable _ _ _ => execSkdChEnable_canonical h
  | .skdCtxCapture _ => execSkdCtxCapture_canonical h
  | .dtuWalk _ _ _ => execDtuWalk_canonical h
  | .dtuInvGo _ => execDtuInvGo_canonical h
  | .dtuInvDone => execDtuInvDone_canonical h
  | .dtuProbe _ => execDtuProbe_canonical h
  | .surfDefine _ => execSurfDefine_canonical h
  | .surfOpen _ => execSurfOpen_canonical h
  | .surfClose _ => execSurfClose_canonical h
  | .storeSurfSelCapture _ => execStoreSurfSelCapture_canonical h
  | .cmpOver _ => execCmpOver_canonical h
  | .contentUnit _ _ => execContentUnit_canonical h
  | .pictureLate _ => execPictureLate_canonical h
  | .nvmeEnSet _ _ => execNvmeEnSet_canonical h
  | .nvmeReadDone _ _ _ => execNvmeReadDone_canonical h
  | .hfcPush _ => execHfcPush_canonical h
  | .warpPlanGo _ => execWarpPlanGo_canonical h
  | .warpPlanDone => execWarpPlanDone_canonical h
  | .tableSyncDone => execTableSyncDone_canonical h
  | .planesSealed => execPlanesSealed_canonical h
  | .seqCheckGo _ => execSeqCheckGo_canonical h
  | .lsgPiCheckGo => execLsgPiCheckGo_canonical h
  | .ident _ _ => execIdent_canonical h
  | .linkStatus _ _ _ _ _ => execLinkStatus_canonical h
  | .planeAck _ _ _ status _ _ _ => execPlaneAck_canonical (status := status) h
  | .arrayTemp _ _ => execArrayTemp_canonical h
  | .arrayStatus _ _ _ _ => execArrayStatus_canonical h
  | .echoReply p token => execEchoReply_canonical (p := p) (token := token) h
  | .backchannelBadMessage _ => execBackchannelBadMessage_canonical h
  | .ackMissing _ _ => execAckMissing_canonical h
  | .bcLost _ => execBcLost_canonical h
  | .bcLostLong _ => execBcLostLong_canonical h
  | .maRdyNLow _ => execMaRdyNLow_canonical h
  | .arrayReset _ => execArrayReset_canonical h
  | .maRetrain _ => execMaRetrain_canonical h
  | .maIdentReq _ => execMaIdentReq_canonical h
  | .trainingAttemptTimeout _ => execTrainingAttemptTimeout_canonical h
  | .darkTrainingTimeout _ => execDarkTrainingTimeout_canonical h
  | .fastAxisEnable => execFastAxisEnable_canonical h
  | .resonanceFound _ => execResonanceFound_canonical h
  | .handoverTimeout => execHandoverTimeout_canonical h
  | .fastAxisLocked => execFastAxisLocked_canonical h
  | .lockFail => execLockFail_canonical h
  | .lockLoss _ => execLockLoss_canonical h
  | .relockTimeout => execRelockTimeout_canonical h
  | .zeroCrossing _ _ => execZeroCrossing_canonical h
  | .dacSample => execDacSample_canonical h
  | .zoneBucketBoundary => execZoneBucketBoundary_canonical h
  | .beamCut _ => execBeamCut_canonical h
  | .highlineTargetChange => execHighlineTargetChange_canonical h
  | .highlineArrival => execHighlineArrival_canonical h
  | .rowDrawn => execRowDrawn_canonical h
  | .drawingWindowEnd => execDrawingWindowEnd_canonical h
  | .rowToleranceExit => execRowToleranceExit_canonical h
  | .tsConversion _ => execTsConversion_canonical h
  | .ntcConversion _ _ => execNtcConversion_canonical h
  | .laserModelUpdate => execLaserModelUpdate_canonical h
  | .firebreakDie => execFirebreakDie_canonical h
  | .firebreakLaser _ => execFirebreakLaser_canonical h
  | .dramStepDownRequest => execDramStepDownRequest_canonical h
  | .dramStepUpRequest => execDramStepUpRequest_canonical h
  | .dramFreqChangeStart => execDramFreqChangeStart_canonical h
  | .pairFreqChange _ => execPairFreqChange_canonical h
  | .dramFreqWait _ => execDramFreqWait_canonical h
  | .slackSample _ _ _ => execSlackSample_canonical h
  | .refreshDue _ _ => execRefreshDue_canonical h
  | .refreshRatePoll _ _ _ => execRefreshRatePoll_canonical h
  | .driftTrim _ _ => execDriftTrim_canonical h
  | .dramScrubRead _ => execDramScrubRead_canonical h
  | .dramUe _ _ _ => execDramUe_canonical h
  | .dramCe _ _ => execDramCe_canonical h
  | .selfRefreshEntry _ => execSelfRefreshEntry_canonical h
  | .selfRefreshExit _ _ => execSelfRefreshExit_canonical h
  | .pairOutOfService _ => execPairOutOfService_canonical h
  | .seedRecordWrite _ => execSeedRecordWrite_canonical h
  | .seedWriteDone => execSeedWriteDone_canonical h
  | .seedChkOnly _ _ => execSeedChkOnly_canonical h
  | .reservedSlotWrite _ => execReservedSlotWrite_canonical h
  | .seedScrubRead _ => execSeedScrubRead_canonical h
  | .seedSelCapture _ => execSeedSelCapture_canonical h
  | .jtagNewChallenge _ => execJtagNewChallenge_canonical h
  | .jtagResponse _ _ _ => execJtagResponse_canonical h
  | .jtagChallengeExpiry => execJtagChallengeExpiry_canonical h
  | .fabricFrameReceived _ _ _ _ => execFabricFrameReceived_canonical h
  | .linkCtrl _ _ => execLinkCtrl_canonical h
  | .linkCtrlSend _ => execLinkCtrlSend_canonical h
  | .retryTimeout _ => execRetryTimeout_canonical h
  | .fabricLinkUp _ _ => execFabricLinkUp_canonical h
  | .creditAudit _ _ => execCreditAudit_canonical h
  | .alignmentTimeout _ => execAlignmentTimeout_canonical h
  | .moduleInserted _ _ _ => execModuleInserted_canonical h
  | .modulePoll _ _ _ _ _ => execModulePoll_canonical h
  | .hello _ _ => execHello_canonical h
  | .helloSend _ => execHelloSend_canonical h
  | .neighbourDown _ _ => execNeighbourDown_canonical h
  | .lsa _ _ => execLsa_canonical h
  | .lsaOriginate => execLsaOriginate_canonical h
  | .lsaAgeOut _ => execLsaAgeOut_canonical h
  | .rootAndAddresses => execRootAndAddresses_canonical h
  | .assign _ _ => execAssign_canonical h
  | .spfHoldExpiry => execSpfHoldExpiry_canonical h
  | .routeSwap _ => execRouteSwap_canonical h
  | .altFailover _ => execAltFailover_canonical h
  | .sync _ _ _ => execSync_canonical h
  | .syncSend => execSyncSend_canonical h
  | .pdelayExchange _ _ _ _ _ _ _ => execPdelayExchange_canonical h
  | .admitStream _ _ _ _ _ => execAdmitStream_canonical h
  | .admitRetry _ _ => execAdmitRetry_canonical h
  | .bootReq _ _ => execBootReq_canonical h
  | .hostFrameRx _ => execHostFrameRx_canonical h
  | .colourReport _ => execColourReport_canonical h
  | .colourDigest _ => execColourDigest_canonical h
  | .epochEnd => execEpochEnd_canonical h
  | .reportSend => execReportSend_canonical h
  | .collectionClose => execCollectionClose_canonical h
  | .digestClose => execDigestClose_canonical h
  | .cueContextWrite _ _ _ => execCueContextWrite_canonical h
  | .cueOpArm _ => execCueOpArm_canonical h
  | .cueOpCancel _ => execCueOpCancel_canonical h
  | .cueOpCancelAll v => execCueOpCancelAll_canonical (x := v) h
  | .cueActionFetch _ => execCueActionFetch_canonical h
  | .cueFiring _ => execCueFiring_canonical h
  | .fineCueTick _ => execFineCueTick_canonical h
  | .cueFrame _ _ => execCueFrame_canonical h
  | .ringRecord _ _ _ => execRingRecord_canonical h
  | .ringPlayerDecode _ => execRingPlayerDecode_canonical h
  | .libraryRead => execLibraryRead_canonical h
  | .forceRejoin => execForceRejoin_canonical h
  | .clearRing => execClearRing_canonical h
  | .chkStart _ _ => execChkStart_canonical h
  | .chkFeed _ _ => execChkFeed_canonical h
  | .chkMem _ _ => execChkMem_canonical h
  | .chkMemDone _ => execChkMemDone_canonical h
  | .chkFinish _ _ => execChkFinish_canonical h
  | .chkParameterWrite _ _ _ => execChkParameterWrite_canonical h
  | .tallyClear _ => execTallyClear_canonical h
  | .tallyWrap _ => execTallyWrap_canonical h
  | .gpioTallyIn _ => execGpioTallyIn_canonical h
  | .safetyInput _ _ => execSafetyInput_canonical h
  | .svDeadman => execSvDeadman_canonical h
  | .svLockstep => execSvLockstep_canonical h
  | .refclkFailure => execRefclkFailure_canonical h
  | .refclkRecovered _ => execRefclkRecovered_canonical h
  | .xtal25Fault => execXtal25Fault_canonical h
  | .bcRegained _ => execBcRegained_canonical h
  | .moduleRemoved _ => execModuleRemoved_canonical h
  | .xtal25Recovered _ => execXtal25Recovered_canonical h
  | .pciePowerStateChange _ _ => execPciePowerStateChange_canonical h

end

/-- Settles O56: an idle step only lets time pass, and every command keeps both stores canonical. -/
theorem stepKeepsStoresCanonical : Obligations.StepKeepsStoresCanonical := by
  intro s t hstep hregs hdram
  suffices ht : t.toBlock.Canonical from ⟨ht.regs_wf, ht.dram_wf⟩
  obtain ⟨b, pending⟩ := s
  have h : b.Canonical := ⟨hregs, hdram⟩
  cases pending with
  | nil =>
    rw [step_nil] at hstep
    obtain rfl := Host.Outcome.next.inj hstep
    exact Block.Canonical.advance (ns := 1) h
  | cons c rest => exact exec_canonical (s := ⟨b, rest⟩) h c t hstep

/-! The host's writes, where they are served. -/

section
variable {s : Block}

/-- A strobe that the host side serves leaves its effect. -/
theorem does_onStrobe (q : List Instr) (h : s.hostOk = true) (f : Block → Block) :
    State.does ⟨s, q⟩ (fun s => s.onStrobe f) = .next ⟨f s, q⟩ := by
  rw [State.does_next, Block.onStrobe_served h]

/-- A write to a page that is not locked leaves its effect. -/
theorem does_onWrite {p : Nat} (q : List Instr) (h : s.hostOk = true) (hl : bit (s.reg (R.PAGE_LOCK p)) 0 = false) (f : Block → Block) :
    State.does ⟨s, q⟩ (fun s => s.onWrite p f) = .next ⟨f s, q⟩ := by
  rw [State.does_next, Block.onWrite_unlocked h hl]

/-- A command on a page the device has is what it does there. -/
theorem does_page {p : Nat} (q : List Instr) (hp : ¬ 0x2C < p) (f : Block → Block) :
    State.does ⟨s, q⟩ (fun s => if 0x2C < p then s else f s) = State.does ⟨s, q⟩ f := by
  rw [State.does_next, State.does_next, if_neg hp]

theorem does_onStrobe_page {p : Nat} (q : List Instr) (hp : ¬ 0x2C < p) (h : s.hostOk = true) (f : Block → Block) :
    State.does ⟨s, q⟩ (fun s => if 0x2C < p then s else s.onStrobe f) = .next ⟨f s, q⟩ :=
  (does_page q hp _).trans (does_onStrobe q h f)

theorem does_onWrite_page {p : Nat} (q : List Instr) (hp : ¬ 0x2C < p) (h : s.hostOk = true)
    (hl : bit (s.reg (R.PAGE_LOCK p)) 0 = false) (f : Block → Block) :
    State.does ⟨s, q⟩ (fun s => if 0x2C < p then s else s.onWrite p f) = .next ⟨f s, q⟩ :=
  (does_page q hp _).trans (does_onWrite q h hl f)

/-- ENABLE takes a value where nothing refuses it, and the block follows. -/
theorem Block.enableWrite_accepted {p : Nat} (en : Bool) (h : s.disableRefused p = false) :
    s.enableWrite p en = (s.setFld (R.PAGE_CTRL p) 0 1 en.toNat).blockFollows p s.act (s.spIn s.act) := by
  rw [Block.enableWrite, h, Bool.and_false, if_neg Bool.false_ne_true]

/-- A soft reset begins at once where nothing refuses it and no latched commit names the page. -/
theorem Block.softReset_goes {p : Nat} (h : s.resetRefused p = false)
    (hc : ((s.cm.list.filter fun c => !(c.stage == .pending && natBit c.pages p)).any fun c => natBit c.pages p) = false) :
    s.softReset p = ({ s with cm := { s.cm with list := s.cm.list.filter fun c => !(c.stage == .pending &&
                                                    natBit c.pages p) } } : Block).softResetGo p := by
  rw [Block.softReset, h, if_neg Bool.false_ne_true]
  exact if_neg (by rw [hc]; exact Bool.false_ne_true)

theorem Block.softResetEnd_ends {p : Nat} (h : bit (s.reg (R.PAGE_CTRL p)) 1 = true) (hw : s.cm.resetWait.contains p = false) :
    s.softResetEnd p = s.setFld (R.PAGE_CTRL p) 1 1 0 := by
  rw [Block.softResetEnd, h, hw]; rfl

theorem Block.freezeWrite_on {p : Nat} (h : bit (s.reg (R.PAGE_CTRL p)) 2 = false) :
    s.freezeWrite p true = (let t := s.setFld (R.PAGE_CTRL p) 2 1 1
      { t with frozen := aput t.frozen p ((heldRegs p).map fun a => (a, t.presentNow a)) }) := by
  rw [Block.freezeWrite, h]; rfl

theorem Block.lockWrite_open {p : Nat} (v : Word) (h : bit (s.reg (R.PAGE_LOCK p)) 1 = false) :
    s.lockWrite p v = s.setReg (R.PAGE_LOCK p) (v &&& 3) := by
  rw [Block.lockWrite, h, if_neg Bool.false_ne_true]

/-- A 64-bit write, naturally aligned, is two 32-bit ones. -/
theorem Block.oddAccess_write64 {a : Nat} (d : Bytes) (ha : a % 8 = 0) :
    s.oddAccess a 8 (some d) = (s.barWrite a (w32 (field d 0 4))).barWrite (a + 4) (w32 (field d 4 4)) := by
  have h4 : ¬ (8 = 4 ∧ a % 4 = 0) := by omega
  have h8 : 8 = 8 ∧ a % 8 = 0 := ⟨rfl, ha⟩
  rw [Block.oddAccess, if_neg h4]
  exact if_pos h8

theorem Block.oddAccess_read {a size : Nat} (h4 : ¬ (size = 4 ∧ a % 4 = 0)) (h8 : ¬ (size = 8 ∧ a % 8 = 0)) :
    s.oddAccess a size none = s.emit (.unsupported a) := by
  rw [Block.oddAccess, if_neg h4]
  exact if_neg h8
end

/-- Settles O5: each access is served, and the rule of its operation gives what it leaves. -/
theorem registerAccessCommandsRun : Obligations.RegisterAccessCommandsRun := by
  refine ⟨?registerWrite, ?write64, ?read, ?windowWrite, ?dataWrite, ?dataRead, ?enable, ?reset, ?resetDone, ?thaw, ?freeze, ?lock, ?clear,
    ?force⟩
  case registerWrite =>
    intro s q a v h ha
    refine (does_onStrobe q h _).trans ?_
    rw [if_pos ha]
  case write64 =>
    intro s q a d h ha
    change execUnsupportedAccess a 8 (some d) ⟨s, q⟩ = _
    rw [execUnsupportedAccess, State.does_next, if_pos h, Block.oddAccess_write64 d ha]
  case read =>
    intro s q a size h h4 h8
    change execUnsupportedAccess a size none ⟨s, q⟩ = _
    rw [execUnsupportedAccess, State.does_next, if_pos h, Block.oddAccess_read h4 h8]
  case windowWrite => exact fun s q off data h => does_onStrobe q h _
  case dataWrite =>
    intro s q a v d h hw
    refine (does_onStrobe q h _).trans ?_
    rw [hw]
  case dataRead =>
    intro s q a d act h hw
    refine (does_onStrobe q h _).trans ?_
    rw [hw]
    cases act with
    | false => rfl
    | true => rfl
  case enable =>
    intro s q p en h hp hl hr
    refine (does_onWrite_page q hp h hl _).trans ?_
    rw [Block.enableWrite_accepted en hr]
  case reset =>
    intro s q p h hp hl hr hc
    refine (does_onWrite_page q hp h hl _).trans ?_
    rw [Block.softReset_goes hr hc]
  case resetDone =>
    intro s q p hp hb hw
    refine (does_page q hp fun s => s.softResetEnd p).trans ?_
    rw [State.does_next, Block.softResetEnd_ends hb hw]
  case thaw => exact fun s q p h hp hl => does_onWrite_page q hp h hl _
  case freeze =>
    intro s q p h hp hl hb
    refine (does_onWrite_page q hp h hl _).trans ?_
    rw [Block.freezeWrite_on hb]
  case lock =>
    intro s q p v h hp hb
    refine (does_onStrobe_page q hp h _).trans ?_
    rw [Block.lockWrite_open v hb]
  case clear => exact fun s q p v h hp => does_onStrobe_page q hp h _
  case force => exact fun s q p v h hp => does_onStrobe_page q hp h _

/-! What a write leaves alone: the registers outside a list, and everything that is no register. -/

/-- Does `t` differ from `s` in the registers of a list alone? -/
structure Block.OnlyRegs (l : List Nat) (s t : Block) : Prop where
  frame : t = { s with regs := t.regs }
  reg_eq : ∀ a, a ∉ l → t.reg a = s.reg a

/-- Does `t` differ from `s` in events, their counts and the reports asked of the Seedbank alone? -/
structure Block.OnlyEvents (s t : Block) : Prop where
  frame : t = { s with rg := t.rg, ty := t.ty, se := { s.se with queue := t.se.queue } }
  inflight_eq : t.rg.inflight = s.rg.inflight
  lastCseq_eq : t.rg.lastCseq = s.rg.lastCseq

section
variable {s t u : Block} {l : List Nat}

theorem Block.OnlyRegs.refl (l : List Nat) (s : Block) : Block.OnlyRegs l s s := ⟨rfl, fun _ _ => rfl⟩

theorem Block.OnlyRegs.setReg (h : Block.OnlyRegs l s t) {a : Nat} (ha : a ∈ l) (v : Word) : Block.OnlyRegs l s (t.setReg a v) where
  frame := congrArg (fun u : Block => { u with regs := (t.setReg a v).regs }) h.frame
  reg_eq b hb := (Block.reg_setReg_ne t v (ne_of_mem_of_not_mem ha hb).symm).trans (h.reg_eq b hb)

theorem Block.OnlyRegs.setFld (h : Block.OnlyRegs l s t) {a : Nat} (ha : a ∈ l) (lo w x : Nat) :
    Block.OnlyRegs l s (t.setFld a lo w x) := h.setReg ha _

theorem Block.OnlyRegs.errCause (h : Block.OnlyRegs l s t) {p : Nat} (ha : R.ERR_CAUSE p ∈ l) (i : Nat) :
    Block.OnlyRegs l s (t.errCause p i) := h.setReg ha _

theorem Block.OnlyRegs.ite {c : Prop} {_ : Decidable c} (ht : Block.OnlyRegs l s t) (hu : Block.OnlyRegs l s u) :
    Block.OnlyRegs l s (if c then t else u) := by
  split
  · exact ht
  · exact hu

/-- A write that is not served changes nothing, and one to a locked page ERR_CAUSE alone (R92). -/
theorem Block.OnlyRegs.onWrite {p : Nat} {f : Block → Block} (hp : R.ERR_CAUSE p ∈ l) (hf : Block.OnlyRegs l s (f s)) :
    Block.OnlyRegs l s (s.onWrite p f) := .ite (.refl l s) (.ite (.errCause (.refl l s) hp 2) hf)

theorem Block.OnlyRegs.onStrobe {f : Block → Block} (hf : Block.OnlyRegs l s (f s)) : Block.OnlyRegs l s (s.onStrobe f) := .ite hf (.refl l s)

/-- What a command leaves, where its effect writes the registers of a list alone. -/
theorem Block.OnlyRegs.of_does {s t : State} {f : Block → Block} (hst : s.does f = .next t) (hf : Block.OnlyRegs l s.toBlock (f s.toBlock)) :
    t = { s with regs := t.regs } ∧ ∀ a, a ∉ l → t.reg a = s.reg a := by
  obtain rfl := Host.Outcome.next.inj hst
  exact ⟨congrArg (fun b : Block => ({ s with toBlock := b } : State)) hf.frame, hf.reg_eq⟩

theorem Block.OnlyEvents.refl (s : Block) : Block.OnlyEvents s s := ⟨rfl, rfl, rfl⟩

theorem Block.OnlyEvents.trans (h : Block.OnlyEvents s t) (h' : Block.OnlyEvents t u) : Block.OnlyEvents s u where
  frame := h'.frame.trans (congrArg (fun b : Block => { b with rg := u.rg, ty := u.ty, se := { b.se with queue := u.se.queue } }) h.frame)
  inflight_eq := h'.inflight_eq.trans h.inflight_eq
  lastCseq_eq := h'.lastCseq_eq.trans h.lastCseq_eq

theorem Block.OnlyEvents.regs_eq (h : Block.OnlyEvents s t) : t.regs = s.regs := by rw [h.frame]

theorem Block.OnlyEvents.tm_eq (h : Block.OnlyEvents s t) : t.tm = s.tm := by rw [h.frame]

/-- An event changes the events and the Tally counters alone. -/
theorem Block.postI_onlyEvents (p ty cls i : Nat) (cmd : Bool) (d : List Word) : Block.OnlyEvents s (s.postI p ty cls i cmd d) where
  frame := by
    unfold Block.postI
    dsimp only
    split
    · rfl
    · rfl
  inflight_eq := by
    rw [Block.postI_rg]
    split
    · rfl
    · rfl
  lastCseq_eq := by
    rw [Block.postI_rg]
    split
    · rfl
    · rfl

theorem Block.OnlyEvents.foldl {α : Type} {f : Block → α → Block} (hf : ∀ t x, Block.OnlyEvents t (f t x)) (l : List α) :
    Block.OnlyEvents s (l.foldl f s) := by
  induction l generalizing s with
  | nil => exact .refl s
  | cons x l ih => exact (hf s x).trans ih

/-- The reports of a first EVT_EN are events, and records asked of the Seedbank. -/
theorem Block.postCause_onlyEvents : Block.OnlyEvents s s.postCause := by
  unfold Block.postCause
  split
  · refine Block.OnlyEvents.trans ?_ (.foldl (fun t r => ?_) _)
    · exact .trans (t := { s with rg := { s.rg with causePending := false, reports := [] } }) ⟨rfl, rfl, rfl⟩ (Block.postI_onlyEvents ..)
    · exact .trans (Block.postI_onlyEvents ..) ⟨rfl, rfl, rfl⟩
  · exact .refl s
end

/-! RING_CTRL (R107, R111, R116): what CMD_EN and EVT_EN do, each while the other stays. -/

section
variable {s t : Block}

/-- RING_CTRL holds a value, and CMD_EN going from 0 to 1 takes RING_CMD_TAIL for the head and clears FETCH_STOP. -/
def Block.cmdEnTake (s : Block) (v : Word) : Block :=
  let t := s.setReg R.RING_CTRL (w32 (bits v 0 4))
  if !bit (s.reg R.RING_CTRL) 0 && bit v 0 then (t.setReg R.RING_CMD_HEAD (t.reg R.RING_CMD_TAIL)).setFld R.RING_STATUS 1 1 0 else t

/-- What EVT_EN going from 0 to 1 does: RING_EVT_HEAD takes RING_EVT_TAIL, and the first reports follow. -/
def Block.evtEnTake (s : Block) : Block := (s.setReg R.RING_EVT_HEAD (s.reg R.RING_EVT_TAIL)).postCause

theorem Block.ringCtrl_of_evtEn_kept {v : Word} (h : bit v 1 = bit (s.reg R.RING_CTRL) 1) : s.ringCtrl v = s.cmdEnTake v := by
  unfold Block.ringCtrl Block.cmdEnTake
  dsimp only
  rw [h]
  cases bit (s.reg R.RING_CTRL) 1 with
  | false => rfl
  | true => rfl

theorem Block.ringCtrl_of_cmdEn_kept {v : Word} (h : bit v 0 = bit (s.reg R.RING_CTRL) 0) :
    s.ringCtrl v =
      let t := s.setReg R.RING_CTRL (w32 (bits v 0 4))
      if !bit (s.reg R.RING_CTRL) 1 && bit v 1 then t.evtEnTake
      else if bit (s.reg R.RING_CTRL) 1 && !bit v 1 then { t with rg := { t.rg with evq := [] } } else t := by
  unfold Block.ringCtrl Block.evtEnTake
  dsimp only
  rw [h]
  cases bit (s.reg R.RING_CTRL) 0 with
  | false => rfl
  | true => rfl

theorem Block.cmdEnTake_set {v : Word} (h : bit (s.reg R.RING_CTRL) 0 = false) (hv : bit v 0 = true) :
    s.cmdEnTake v =
      let t := s.setReg R.RING_CTRL (w32 (bits v 0 4))
      (t.setReg R.RING_CMD_HEAD (t.reg R.RING_CMD_TAIL)).setFld R.RING_STATUS 1 1 0 := by
  rw [Block.cmdEnTake, h, hv]
  rfl

/-- The registers CMD_EN and EVT_EN reach. -/
theorem Block.cmdEnTake_onlyRegs (v : Word) :
    Block.OnlyRegs [R.RING_CTRL, R.RING_CMD_HEAD, R.RING_STATUS, R.ERR_CAUSE 4] s (s.cmdEnTake v) := by
  have ht : Block.OnlyRegs [R.RING_CTRL, R.RING_CMD_HEAD, R.RING_STATUS, R.ERR_CAUSE 4] s (s.setReg R.RING_CTRL (w32 (bits v 0 4))) :=
    .setReg (.refl _ s) (by simp) _
  exact .ite (.setFld (ht.setReg (by simp) _) (by simp) 1 1 0) ht

theorem bit_cmdEn_ctrl (v : Word) (b : Bool) : bit (w32 (bits (setBit v 0 b) 0 4)) 0 = b := by
  rw [bit_w32_bits _ 0 4 (by decide) (by decide), bit_setBit_same v b (by decide)]

theorem bit_evtEn_ctrl (v : Word) (b : Bool) : bit (w32 (bits (setBit v 1 b) 0 4)) 1 = b := by
  rw [bit_w32_bits _ 1 4 (by decide) (by decide), bit_setBit_same v b (by decide)]

theorem Block.ringCtrl_cmdEn (b : Bool) :
    s.ringCtrl (setBit (s.reg R.RING_CTRL) 0 b) = s.cmdEnTake (setBit (s.reg R.RING_CTRL) 0 b) :=
  Block.ringCtrl_of_evtEn_kept (bit_setBit_ne _ b (by decide) (by decide))

/-- EVT_EN at 1 where it was 0. -/
theorem Block.ringCtrl_evtEn_set (h : bit (s.reg R.RING_CTRL) 1 = false) :
    s.ringCtrl (setBit (s.reg R.RING_CTRL) 1 true) =
      (s.setReg R.RING_CTRL (w32 (bits (setBit (s.reg R.RING_CTRL) 1 true) 0 4))).evtEnTake := by
  rw [Block.ringCtrl_of_cmdEn_kept (bit_setBit_ne _ true (by decide) (by decide)), h, bit_setBit_same _ true (by decide)]
  rfl

theorem Block.reg_cmdEnTake_ctrl (v : Word) : (s.cmdEnTake v).reg R.RING_CTRL = w32 (bits v 0 4) := by
  unfold Block.cmdEnTake
  dsimp only
  split
  · rw [Block.reg_setFld, if_neg (by decide), Block.reg_setReg_ne _ _ (by decide), Block.reg_setReg_same]
  · exact Block.reg_setReg_same ..

/-- Registers of a list, and events after them. -/
theorem Block.OnlyRegs.events {l : List Nat} {u : Block} (h : Block.OnlyRegs l s t) (hu : Block.OnlyEvents t u) :
    u = { s with regs := u.regs, rg := u.rg, ty := u.ty, se := u.se } ∧ u.rg.inflight = s.rg.inflight ∧
      u.se = { s.se with queue := u.se.queue } ∧ ∀ a, a ∉ l → u.reg a = s.reg a := by
  obtain ⟨hframe, hreg⟩ := h
  obtain ⟨huframe, hinflight, -⟩ := hu
  have hregs : u.regs = t.regs := by rw [huframe]
  have hse : u.se = { s.se with queue := u.se.queue } := by rw [huframe, hframe]
  refine ⟨?_, hinflight.trans (by rw [hframe]), hse, fun a ha => (Block.reg_congr hregs a).trans (hreg a ha)⟩
  rw [hse, hregs]
  exact huframe.trans (congrArg (fun b : Block => { b with rg := u.rg, ty := u.ty, se := { b.se with queue := u.se.queue } }) hframe)
end

section
variable {s t : Block} {l : List Nat}

theorem Block.OnlyRegs.rg_eq (h : Block.OnlyRegs l s t) : t.rg = s.rg := by rw [h.frame]

theorem Block.OnlyRegs.tm_eq (h : Block.OnlyRegs l s t) : t.tm = s.tm := by rw [h.frame]

theorem Block.OnlyRegs.pw_eq (h : Block.OnlyRegs l s t) : t.pw = s.pw := by rw [h.frame]

/-- The host side goes on being served. -/
theorem Block.OnlyRegs.hostOk_eq (h : Block.OnlyRegs l s t) (hl : R.HOST_STATUS ∉ l) : t.hostOk = s.hostOk := by
  rw [Block.hostOk, Block.hostOk, h.reg_eq _ hl, h.pw_eq]

theorem Block.seqDone_congr (hi : t.rg.inflight = s.rg.inflight) (hc : t.rg.lastCseq = s.rg.lastCseq) : t.seqDone = s.seqDone := by
  rw [Block.seqDone, Block.seqDone, hi, hc]

/-- CMD_EN going from 0 to 1 takes the tail for the head, and clears FETCH_STOP (R107, R111). -/
theorem Block.reg_cmdEnTake_head {v : Word} (h : bit (s.reg R.RING_CTRL) 0 = false) (hv : bit v 0 = true) :
    (s.cmdEnTake v).reg R.RING_CMD_HEAD = s.reg R.RING_CMD_TAIL := by
  rw [Block.cmdEnTake_set h hv, Block.reg_setFld, if_neg (by decide), Block.reg_setReg_same, Block.reg_setReg_ne _ _ (by decide)]

theorem Block.fetchStop_cmdEnTake {v : Word} (h : bit (s.reg R.RING_CTRL) 0 = false) (hv : bit v 0 = true) :
    bit ((s.cmdEnTake v).reg R.RING_STATUS) 1 = false := by
  rw [Block.cmdEnTake_set h hv, Block.reg_setFld, if_pos rfl, bit_setBits_same _ _ (by decide)]
  rfl

/-- EVT_EN reaches the head of the event ring alone, besides the events of a first EVT_EN. -/
theorem Block.evtEnTake_onlyEvents : Block.OnlyEvents (s.setReg R.RING_EVT_HEAD (s.reg R.RING_EVT_TAIL)) s.evtEnTake :=
  Block.postCause_onlyEvents

theorem Block.reg_evtEnTake (a : Nat) : s.evtEnTake.reg a = if a = R.RING_EVT_HEAD then s.reg R.RING_EVT_TAIL else s.reg a :=
  (Block.reg_congr Block.evtEnTake_onlyEvents.regs_eq a).trans (Block.reg_setReg ..)

theorem bits_ne_zero_of_bit {v : Word} (h : bit v 1 = true) : bits v 0 2 ≠ 0 := by
  simp only [bit, natBit, beq_iff_eq, bits, natBits] at h ⊢
  omega

/-- While FETCH_STOP is set the front end fetches nothing (R111). -/
theorem Block.fetching_of_fetchStop (h : bit (s.reg R.RING_STATUS) 1 = true) : s.fetching = false := by
  have hstop : (s.fld R.RING_STATUS 0 2 == 0) = false := beq_eq_false_iff_ne.mpr (bits_ne_zero_of_bit h)
  rw [Block.fetching, hstop, Bool.and_false, Bool.false_and, Bool.false_and]

/-- A fetch that fails sets FETCH_STOP alone, and posts its event. -/
theorem Block.reg_fetchFault (k a : Nat) :
    (s.fetchFault k).reg a = if a = R.RING_STATUS then setBits (s.reg R.RING_STATUS) 1 1 1 else s.reg a := by
  rw [Block.fetchFault, Block.reg_post, Block.reg_setFld]

theorem Block.fetchFault_onlyEvents (k : Nat) : Block.OnlyEvents (s.setFld R.RING_STATUS 1 1 1) (s.fetchFault k) :=
  Block.postI_onlyEvents ..

theorem Block.fetchFault_evq (k : Nat) (h : bit (s.reg R.RING_CTRL) 1 = true) :
    (s.fetchFault k).rg.evq = s.rg.evq ++
      [{ ty := 0x00E, page := 0x04, cls := 0, cmd := false, fsn := s.tm.fsn, ft := s.tm.ft, data := [s.reg R.RING_CMD_HEAD, w32 k],
         held := false }] := by
  have hctrl : bit ((s.setFld R.RING_STATUS 1 1 1).reg R.RING_CTRL) 1 = true := by
    rw [Block.reg_setFld, if_neg (by decide)]
    exact h
  rw [Block.fetchFault, Block.post, Block.postI_rg, if_pos hctrl]
  rfl
end

/-- Settles O38: by what RING_CTRL's taking a value does, for each ring while the other's bit stays. -/
theorem enablingARingTakesItsOtherIndex : Obligations.EnablingARingTakesItsOtherIndex := by
  refine ⟨fun s q h hl hb => ⟨_, does_onWrite q h hl _, ?_⟩, fun s q h hl hb => ⟨_, does_onWrite q h hl _, ?_⟩⟩
  · have hv : bit (setBit (s.reg R.RING_CTRL) 0 true) 0 = true := bit_setBit_same _ true (by decide)
    rw [Block.ringCtrl_cmdEn]
    have hregs := Block.cmdEnTake_onlyRegs (s := s) (setBit (s.reg R.RING_CTRL) 0 true)
    refine ⟨?_, Block.reg_cmdEnTake_head hb hv, hregs.reg_eq _ (by decide), hregs.reg_eq _ (by decide), ?_, ?_, hregs.reg_eq _ (by decide), ?_⟩
    · rw [Block.reg_cmdEnTake_ctrl, bit_cmdEn_ctrl]
    · exact Block.seqDone_congr (by rw [hregs.rg_eq]) (by rw [hregs.rg_eq])
    · rw [hregs.rg_eq]
    · rw [hregs.tm_eq]
  · rw [Block.ringCtrl_evtEn_set hb]
    have hev := Block.evtEnTake_onlyEvents (s := s.setReg R.RING_CTRL (w32 (bits (setBit (s.reg R.RING_CTRL) 1 true) 0 4)))
    have hreg : ∀ a, a ≠ R.RING_CTRL → a ≠ R.RING_EVT_HEAD →
        (s.setReg R.RING_CTRL (w32 (bits (setBit (s.reg R.RING_CTRL) 1 true) 0 4))).evtEnTake.reg a = s.reg a := fun a hc he => by
      rw [Block.reg_evtEnTake, if_neg he, Block.reg_setReg_ne _ _ hc]
    refine ⟨?_, ?_, hreg _ (by decide) (by decide), hreg _ (by decide) (by decide), Block.seqDone_congr hev.inflight_eq hev.lastCseq_eq,
      hev.lastCseq_eq, hreg _ (by decide) (by decide), by rw [hev.tm_eq]; rfl⟩
    · rw [Block.reg_evtEnTake, if_neg (by decide), Block.reg_setReg_same, bit_evtEn_ctrl]
    · rw [Block.reg_evtEnTake, if_pos rfl, Block.reg_setReg_ne _ _ (by decide)]

/-- Settles O39: a fetch fault sets FETCH_STOP, FETCH_STOP ends the fetching, and CMD_EN going from 0 to 1 clears it. -/
theorem fetchFaultStopsConsumption : Obligations.FetchFaultStopsConsumption := by
  refine ⟨fun s q k hf _ => ⟨s.fetchFault k, ?_, ?_, ?_, ?_, ?_, Block.fetchFault_evq k⟩, fun s q host h => ?_, fun s q h hl => ?_⟩
  · change execCmdFetchFault k ⟨s, q⟩ = _
    rw [execCmdFetchFault, State.does_next, if_pos hf]
  · rw [Block.reg_fetchFault, if_pos rfl, bit_setBits_same _ _ (by decide)]
    rfl
  · rw [Block.reg_fetchFault, if_neg (by decide)]
  · rw [Block.reg_fetchFault, if_neg (by decide)]
  · exact (Block.fetchFault_onlyEvents k).inflight_eq
  · have hf : ¬ s.fetching = true := by rw [Block.fetching_of_fetchStop h]; exact Bool.false_ne_true
    change execCmdFetch host ⟨s, q⟩ = _
    rw [execCmdFetch, State.does_next, if_neg hf]
  · have ht := Block.cmdEnTake_onlyRegs (s := s) (setBit (s.reg R.RING_CTRL) 0 false)
    have hctrl : bit ((s.cmdEnTake (setBit (s.reg R.RING_CTRL) 0 false)).reg R.RING_CTRL) 0 = false := by
      rw [Block.reg_cmdEnTake_ctrl, bit_cmdEn_ctrl]
    have hht : (s.cmdEnTake (setBit (s.reg R.RING_CTRL) 0 false)).hostOk = true := (ht.hostOk_eq (by decide)).trans h
    have hlt : bit ((s.cmdEnTake (setBit (s.reg R.RING_CTRL) 0 false)).reg (R.PAGE_LOCK 4)) 0 = false := by
      rw [ht.reg_eq _ (by decide), hl]
    refine ⟨_, _, (does_onWrite q h hl _).trans (by rw [Block.ringCtrl_cmdEn]), hctrl, does_onWrite q hht hlt _, ?_, ?_⟩
    · rw [Block.ringCtrl_cmdEn, Block.reg_cmdEnTake_ctrl, bit_cmdEn_ctrl]
    · rw [Block.ringCtrl_cmdEn]
      exact Block.fetchStop_cmdEnTake hctrl (bit_setBit_same _ true (by decide))

section
variable {s : Block} {l : List Nat}

theorem Block.cmdTail_onlyRegs (v : Word) : Block.OnlyRegs [R.RING_CMD_TAIL, R.RING_STATUS, R.ERR_CAUSE 4] s (s.cmdTail v) :=
  .ite (.setFld (.refl _ s) (by simp) 3 1 1) (.setReg (.refl _ s) (by simp) v)

/-- RING_CMD_RESYNC writes two registers, and posts its event. -/
theorem Block.ringResync_regs (v : Word) :
    Block.OnlyRegs [R.RING_CMD_SEQ_EXPECT, R.RING_STATUS] s ((s.setReg R.RING_CMD_SEQ_EXPECT v).setFld R.RING_STATUS 0 1 0) :=
  .setFld (.setReg (.refl _ s) (by simp) v) (by simp) 0 1 0

/-- EVT_EN's writes besides the events: RING_CTRL, and RING_EVT_HEAD where it goes from 0 to 1. -/
def Block.evtEnRegs (s : Block) (v : Word) : Block :=
  let t := s.setReg R.RING_CTRL (w32 (bits v 0 4))
  if !bit (s.reg R.RING_CTRL) 1 && bit v 1 then t.setReg R.RING_EVT_HEAD (t.reg R.RING_EVT_TAIL) else t

theorem Block.evtEnRegs_onlyRegs (v : Word) : Block.OnlyRegs [R.RING_CTRL, R.RING_EVT_HEAD, R.ERR_CAUSE 4] s (s.evtEnRegs v) := by
  have ht : Block.OnlyRegs [R.RING_CTRL, R.RING_EVT_HEAD, R.ERR_CAUSE 4] s (s.setReg R.RING_CTRL (w32 (bits v 0 4))) :=
    .setReg (.refl _ s) (by simp) _
  exact .ite (ht.setReg (by simp) _) ht

theorem Block.ringCtrl_onlyEvents {v : Word} (h : bit v 0 = bit (s.reg R.RING_CTRL) 0) :
    Block.OnlyEvents (s.evtEnRegs v) (s.ringCtrl v) := by
  rw [Block.ringCtrl_of_cmdEn_kept h, Block.evtEnRegs]
  dsimp only
  split
  · exact Block.postCause_onlyEvents
  · split
    · exact ⟨rfl, rfl, rfl⟩
    · exact .refl _

/-- What EVT_EN's write leaves, taken or not. -/
theorem Block.evtEn_onWrite (b : Bool) :
    ∃ t, Block.OnlyRegs [R.RING_CTRL, R.RING_EVT_HEAD, R.ERR_CAUSE 4] s t ∧
      Block.OnlyEvents t (s.onWrite 4 fun s => s.ringCtrl (setBit (s.reg R.RING_CTRL) 1 b)) := by
  unfold Block.onWrite
  split
  · exact ⟨s, .refl _ s, .refl s⟩
  · split
    · exact ⟨_, .errCause (.refl _ s) (by simp) 2, .refl _⟩
    · exact ⟨_, Block.evtEnRegs_onlyRegs _, Block.ringCtrl_onlyEvents (bit_setBit_ne _ b (by decide) (by decide))⟩

theorem Block.ringResync_onStrobe (v : Word) :
    ∃ t, Block.OnlyRegs [R.RING_CMD_SEQ_EXPECT, R.RING_STATUS] s t ∧ Block.OnlyEvents t (s.onStrobe fun s => s.ringResync v) ∧
      (s.onStrobe fun s => s.ringResync v).se = s.se := by
  unfold Block.onStrobe
  split
  · exact ⟨_, Block.ringResync_regs v, Block.postI_onlyEvents .., Block.postI_se ..⟩
  · exact ⟨s, .refl _ s, .refl s, rfl⟩
end

/-- Settles O50: by the registers each of the ring's writes reaches, and the events it posts. -/
theorem ringCommandsFrame : Obligations.RingCommandsFrame := by
  refine ⟨fun s t v hst => ?_, fun s t v hst => ?_, fun s t c hc hst => ?_, fun s t c hc hst => ?_⟩
  · exact Block.OnlyRegs.of_does (f := fun s => s.onWrite 4 fun s => s.cmdTail v) hst (.onWrite (by simp) (Block.cmdTail_onlyRegs v))
  · obtain rfl := Host.Outcome.next.inj hst
    obtain ⟨u, hu, hev, hse⟩ := Block.ringResync_onStrobe (s := s.toBlock) v
    obtain ⟨hframe, hinflight, -, hreg⟩ := hu.events hev
    rw [hse] at hframe
    exact ⟨congrArg (fun b : Block => ({ s with toBlock := b } : State)) hframe, hinflight, hreg⟩
  · have key : ∀ b : Bool, s.does (fun s => s.onWrite 4 fun s => s.ringCtrl (setBit (s.reg R.RING_CTRL) 0 b)) = .next t →
        t = { s with regs := t.regs } ∧ ∀ a, a ∉ [R.RING_CTRL, R.RING_CMD_HEAD, R.RING_STATUS, R.ERR_CAUSE 4] → t.reg a = s.reg a := by
      intro b hst
      refine Block.OnlyRegs.of_does hst (.onWrite (by simp) ?_)
      rw [Block.ringCtrl_cmdEn]
      exact Block.cmdEnTake_onlyRegs _
    rcases hc with rfl | rfl
    · exact key true hst
    · exact key false hst
  · have key : ∀ b : Bool, s.does (fun s => s.onWrite 4 fun s => s.ringCtrl (setBit (s.reg R.RING_CTRL) 1 b)) = .next t →
        t = { s with regs := t.regs, rg := t.rg, ty := t.ty, se := t.se } ∧ t.rg.inflight = s.rg.inflight ∧
          t.se = { s.se with queue := t.se.queue } ∧ ∀ a, a ∉ [R.RING_CTRL, R.RING_EVT_HEAD, R.ERR_CAUSE 4] → t.reg a = s.reg a := by
      intro b hst
      obtain rfl := Host.Outcome.next.inj hst
      obtain ⟨u, hu, hev⟩ := Block.evtEn_onWrite (s := s.toBlock) b
      obtain ⟨hframe, hrest⟩ := hu.events hev
      exact ⟨congrArg (fun b : Block => ({ s with toBlock := b } : State)) hframe, hrest⟩
    rcases hc with rfl | rfl
    · exact key true hst
    · exact key false hst

section
variable {s : Block}

theorem Block.cmdTail_within {v : Word} (h : (v - s.reg R.RING_CMD_HEAD).toNat ≤ s.cmdEntries) :
    s.cmdTail v = s.setReg R.RING_CMD_TAIL v := if_neg (Nat.not_lt.mpr h)

/-- The entry of a ring in host memory is what the host returns. -/
theorem Block.cmdEntry_host (host : Bytes) (h : bit (s.reg R.RING_CTRL) 2 = false) (ht : s.tunnelUp = true) :
    s.cmdEntry host = (s, some (padBytes 64 host), 0) := by
  rw [Block.cmdEntry, h, if_neg Bool.false_ne_true, if_pos ht]

/-- The fault of an entry write loses the event that was to be written. -/
theorem Block.eventWriteFault_next {e : Event} {l : List Event} (h : s.nextEvent = some (e, l)) :
    s.eventWriteFault = ({ s with rg := { s.rg with evq := l } } : Block).loseEvent.setFld R.RING_STATUS 5 1 1 := by
  rw [Block.eventWriteFault, h]
end

/-- Settles O10: each write is served and taken, and a fetch goes by what the front end reads. -/
theorem ringCommandsRun : Obligations.RingCommandsRun := by
  refine ⟨?tail, ?head, ?cmdSet, ?cmdClear, ?evtSet, ?evtClear, ?resync, ?fetch, ?fault⟩
  case tail =>
    intro s q v h hl hv
    refine (does_onWrite q h hl _).trans ?_
    rw [Block.cmdTail_within hv]
  case head => exact fun s q v h hl => does_onWrite q h hl _
  case cmdSet =>
    intro s q h hl hb hv _
    refine (does_onWrite q h hl _).trans ?_
    rw [Block.ringCtrl_cmdEn, Block.cmdEnTake_set hb hv]
  case cmdClear => exact fun s q h hl => does_onWrite q h hl _
  case evtSet => exact fun s q h hl => does_onWrite q h hl _
  case evtClear => exact fun s q h hl => does_onWrite q h hl _
  case resync => exact fun s q v h => does_onStrobe q h _
  case fetch =>
    intro s q host hf hb ht
    change execCmdFetch host ⟨s, q⟩ = _
    rw [execCmdFetch, State.does_next, if_pos hf, Block.cmdEntry_host host hb ht]
  case fault =>
    intro s q kind hf
    change execCmdFetchFault kind ⟨s, q⟩ = _
    rw [execCmdFetchFault, State.does_next, if_pos hf, Block.fetchFault]

/-- Settles O11: each command takes the branch its hypotheses name. -/
theorem eventRingCommandsRun : Obligations.EventRingCommandsRun := by
  refine ⟨?write, ?fault, ?timeout, ?nop, ?bad, ?snapshot, ?capture⟩
  case write =>
    intro s q h hb
    change execEventWrite ⟨s, q⟩ = _
    rw [execEventWrite, State.does_next, if_pos (Bool.and_eq_true_iff.mpr ⟨h, hb⟩)]
  case fault =>
    intro s q e l h hb he
    change execEventWriteFault ⟨s, q⟩ = _
    rw [execEventWriteFault, State.does_next, if_pos (Bool.and_eq_true_iff.mpr ⟨h, hb⟩), Block.eventWriteFault_next he]
  case timeout =>
    intro s q t ht hu hv
    change execEvtModTimeout ⟨s, q⟩ = _
    rw [execEvtModTimeout, State.does_next, ht]
    simp only [hu, hv, decide_false, Bool.or_self, Bool.false_eq_true, if_false]
  case nop =>
    intro s q cseq c hc
    change execNop cseq ⟨s, q⟩ = _
    rw [execNop, State.does_next, hc]
  case bad =>
    intro s q cseq c hc ho hs hk hf
    change execBadOpcode cseq ⟨s, q⟩ = _
    rw [execBadOpcode, State.does_next, hc]
    simp only [ho, hs, hk, hf, true_or, and_self, if_true]
  case snapshot =>
    intro s q cseq c hc hp
    change execSnapshot cseq ⟨s, q⟩ = _
    rw [execSnapshot, State.does_next, hc]
    simp only [if_neg (Nat.not_lt.mpr hp)]
  case capture => exact fun s q xok => rfl

section
variable {s : Block}

/-- ERR_CAUSE takes one bit, and nothing else changes. -/
theorem Block.bit_errCause_same (p : Nat) {i : Nat} (hi : i < 32) : bit ((s.errCause p i).reg (R.ERR_CAUSE p)) i = true := by
  rw [Block.reg_errCause, if_pos rfl, bit_setBit_same _ _ hi]

theorem Block.bit_errCause_ne (p : Nat) {i j : Nat} (hi : i < 32) (hj : j ≠ i) :
    bit ((s.errCause p i).reg (R.ERR_CAUSE p)) j = bit (s.reg (R.ERR_CAUSE p)) j := by
  rw [Block.reg_errCause, if_pos rfl, bit_setBit_ne _ _ hi hj]

/-- The pages whose soft reset light refuses (R90). -/
theorem Block.resetRefused_of_lit {p : Nat} (hs : s.pw.state = .lit ∨ s.pw.state = .frostHold)
    (hp : p ∈ [0x07, 0x0D, 0x15, 0x16, 0x17, 0x18, 0x19, 0x1C, 0x2B] ∨ ∃ k, k < 4 ∧ p = 0x0E + k ∧ s.abit (R.MA_CFG k) 0 = true) :
    s.resetRefused p = true := by
  have hlight : s.pw.state.lightOn = true := by
    rcases hs with h | h
    · rw [h]; rfl
    · rw [h]; rfl
  rw [Block.resetRefused, hlight, Bool.true_and]
  rcases hp with hp | ⟨k, hk, rfl, hen⟩
  · rw [List.contains_iff_mem.mpr hp, Bool.true_or]
  · have hrange : (decide (0x0E ≤ 0x0E + k) && decide (0x0E + k ≤ 0x11)) = true := by simp; omega
    have hma : maEn s.act (0x0E + k - 0x0E) = true := by
      rw [Nat.add_sub_cancel_left]
      exact hen
    rw [hrange, hma, Bool.true_and, Bool.or_true]

theorem Block.softReset_refused {p : Nat} (h : s.resetRefused p = true) : s.softReset p = s.errCause p 3 := by
  rw [Block.softReset, if_pos h]
end

/-- Settles O41: each of those pages is one the model refuses, and a refused reset sets ERR_CAUSE[3] alone. -/
theorem litSoftResetsAreRefused : Obligations.LitSoftResetsAreRefused := by
  intro s q p h hl hs hp
  have hpage : ¬ 0x2C < p := by
    rcases hp with hp | ⟨k, hk, rfl, -⟩
    · simp only [List.mem_cons, List.not_mem_nil, or_false] at hp
      omega
    · omega
  refine ⟨s.errCause p 3, ?_, rfl, Block.bit_errCause_same p (by decide), fun i hi => Block.bit_errCause_ne p (by decide) hi, fun a ha => ?_⟩
  · refine (does_onWrite_page q hpage h hl _).trans ?_
    rw [Block.softReset_refused (Block.resetRefused_of_lit hs hp)]
  · rw [Block.reg_errCause, if_neg ha]

/-! The condition of a page, and its messages (R94, R95). -/

/-- Does `t` differ from `s` in INT_STATUS or INT_ENABLE of a page, in messages sent and in pending bits alone? -/
structure Block.OnlyInt (a : Nat) (s t : Block) : Prop where
  frame : t = { s with regs := t.regs, out := t.out, hs := { s.hs with pba := t.hs.pba } }
  reg_eq : ∀ b, b ≠ a → t.reg b = s.reg b

section
variable {s t : Block} {a : Nat}

theorem Block.OnlyInt.refl (a : Nat) (s : Block) : Block.OnlyInt a s s := ⟨rfl, fun _ _ => rfl⟩

theorem Block.OnlyInt.setReg (v : Word) : Block.OnlyInt a s (s.setReg a v) := ⟨rfl, fun _ hb => Block.reg_setReg_ne s v hb⟩

theorem Block.OnlyInt.message (h : Block.OnlyInt a s t) (p : Nat) : Block.OnlyInt a s (t.message p) := by
  obtain ⟨hframe, hreg⟩ := h
  have hregs := Block.message_regs (s := t) p
  refine ⟨?_, fun b hb => (Block.reg_congr hregs b).trans (hreg b hb)⟩
  rw [hregs]
  exact (Block.message_frame t p).trans
    (congrArg (fun b : Block => { b with out := (t.message p).out, hs := { b.hs with pba := (t.message p).hs.pba } }) hframe)

theorem Block.OnlyInt.unpend (h : Block.OnlyInt a s t) (p : Nat) : Block.OnlyInt a s (t.unpend p) := by
  obtain ⟨hframe, hreg⟩ := h
  exact ⟨congrArg (fun b : Block => { b with hs := { b.hs with pba := (t.unpend p).hs.pba } }) hframe, hreg⟩

theorem Block.OnlyInt.ite {u : Block} {c : Prop} {_ : Decidable c} (ht : Block.OnlyInt a s t) (hu : Block.OnlyInt a s u) :
    Block.OnlyInt a s (if c then t else u) := by
  split
  · exact ht
  · exact hu

theorem Block.OnlyInt.onStrobe {f : Block → Block} (hf : Block.OnlyInt a s (f s)) : Block.OnlyInt a s (s.onStrobe f) := .ite hf (.refl a s)

/-- A change of one interrupt register touches that register, the messages and the pending bits alone. -/
theorem Block.OnlyInt.withInt (p : Nat) (v : Word) : Block.OnlyInt a s (s.withInt p fun s => s.setReg a v) :=
  .ite (.ite (.setReg v) ((Block.OnlyInt.setReg v).message p)) ((Block.OnlyInt.setReg v).unpend p)

theorem Block.OnlyInt.setInt (p : Nat) (v : Word) : Block.OnlyInt (R.INT_STATUS p) s (s.setInt p v) := .withInt p _

theorem Block.OnlyInt.intClear (p : Nat) (v : Word) : Block.OnlyInt (R.INT_STATUS p) s (s.intClear p v) :=
  .ite ((Block.OnlyInt.setReg _).message p) ((Block.OnlyInt.setReg _).unpend p)

theorem Block.vec_iff (p : Nat) : s.vec p = true ↔ s.reg (R.INT_STATUS p) &&& s.reg (R.INT_ENABLE p) ≠ 0 := bne_iff_ne

/-- The end of a change of a page's condition (R95): where it is true a message is sent if one is owed, where it is false the pending
bit goes. -/
def Block.settleInt (s : Block) (p : Nat) (owed : Bool) : Block := if s.vec p then (if owed then s.message p else s) else s.unpend p

theorem Block.withInt_eq (p : Nat) (f : Block → Block) : s.withInt p f = (f s).settleInt p (!s.vec p) := by
  rw [Block.withInt, Block.settleInt]
  cases s.vec p with
  | false => rfl
  | true => rfl

theorem Block.setInt_eq (p : Nat) (v : Word) :
    s.setInt p v = (s.setReg (R.INT_STATUS p) (s.reg (R.INT_STATUS p) ||| v)).settleInt p (!s.vec p) := Block.withInt_eq ..

theorem Block.enableInt_eq (p : Nat) (v : Word) :
    (s.withInt p fun s => s.setReg (R.INT_ENABLE p) v) = (s.setReg (R.INT_ENABLE p) v).settleInt p (!s.vec p) := Block.withInt_eq ..

theorem Block.intClear_eq (p : Nat) (v : Word) :
    s.intClear p v = (s.setReg (R.INT_STATUS p) (s.reg (R.INT_STATUS p) &&& ~~~v)).settleInt p true := rfl

theorem Block.settleInt_regs (p : Nat) (owed : Bool) : (s.settleInt p owed).regs = s.regs := by
  unfold Block.settleInt
  split
  · split
    · exact Block.message_regs s p
    · rfl
  · rfl

theorem Block.reg_settleInt (p : Nat) (owed : Bool) (b : Nat) : (s.settleInt p owed).reg b = s.reg b :=
  Block.reg_congr (Block.settleInt_regs p owed) b

theorem Block.vec_settleInt (p : Nat) (owed : Bool) : (s.settleInt p owed).vec p = s.vec p := by
  rw [Block.vec, Block.vec, Block.reg_settleInt, Block.reg_settleInt]

/-- A message goes out exactly where one is owed, the condition is true and the vector is open. -/
theorem Block.settleInt_out (p : Nat) (owed : Bool) :
    (s.settleInt p owed).out = s.out ++ (if owed = true ∧ s.vec p = true ∧ s.vecOpen p = true then [.msix p] else []) := by
  unfold Block.settleInt
  by_cases hvec : s.vec p = true
  · rw [if_pos hvec]
    by_cases ho : owed = true
    · rw [if_pos ho, Block.message_sent]
      simp only [ho, hvec, true_and]
    · rw [if_neg ho, if_neg fun h => ho h.1, List.append_nil]
  · rw [if_neg hvec, if_neg fun h => hvec h.2.1, List.append_nil]
    rfl

/-- The pending bit is set where a message is owed and masked, and goes with the condition. -/
theorem Block.mem_settleInt_pba (p : Nat) (owed : Bool) (w : Nat) :
    w ∈ (s.settleInt p owed).hs.pba ↔ (w ∈ s.hs.pba ∧ (w = p → s.vec p = true)) ∨
      (w = p ∧ owed = true ∧ s.vec p = true ∧ s.vecOpen p = false ∧ s.hs.pcie.msix = true) := by
  unfold Block.settleInt
  by_cases hvec : s.vec p = true
  · rw [if_pos hvec]
    by_cases ho : owed = true
    · rw [if_pos ho, Block.mem_message_pba]
      simp only [ho, hvec, true_and, implies_true, and_true]
    · rw [if_neg ho]
      simp only [ho, hvec, Bool.false_eq_true, false_and, and_false, or_false, implies_true, and_true]
  · rw [if_neg hvec]
    simp only [Block.unpend, List.mem_filter, bne_iff_ne, hvec, Bool.false_eq_true, false_and, and_false, or_false, imp_false, ne_eq]
/-- A write to INT_ENABLE of a page that is not locked. -/
theorem Block.barWrite_intEnable {p : Nat} (v : Word) (hp : p ≤ 0x2C) (hl : bit (s.reg (R.PAGE_LOCK p)) 0 = false) :
    s.barWrite (0x1000 * p + 0x10) v = s.withInt p fun s => s.setReg (R.INT_ENABLE p) v := by
  have hpage : (0x1000 * p + 0x10) / 0x1000 = p := by omega
  have hoff : (0x1000 * p + 0x10) % 0x1000 = 0x10 := by omega
  have hserved : ¬ (decide (0x2C < p) || decide (0x800 ≤ 0x10)) = true := by simp; omega
  have hlock : ¬ bit (s.reg (R.PAGE_LOCK p)) 0 = true := by rw [hl]; exact Bool.false_ne_true
  rw [Block.barWrite, hpage, hoff, if_neg hserved, if_pos (by decide), Block.headWrite, if_neg hlock]

/-- What a write of an interrupt register leaves: the register, and the messages and pending bits of the page's condition, which are
owed or not. -/
theorem Block.intWrite_leaves (a p : Nat) (v : Word) (owed : Bool) {t : Block} (ht : t = (s.setReg a v).settleInt p owed) :
    t = { s with regs := t.regs, out := t.out, hs := { s.hs with pba := t.hs.pba } } ∧ t.reg a = v ∧ (∀ b, b ≠ a → t.reg b = s.reg b) ∧
      t.out = s.out ++ (if owed = true ∧ t.vec p = true ∧ s.vecOpen p = true then [.msix p] else []) ∧
      ∀ w, w ∈ t.hs.pba ↔ (w ∈ s.hs.pba ∧ (w = p → t.vec p = true)) ∨
        (w = p ∧ owed = true ∧ t.vec p = true ∧ s.vecOpen p = false ∧ s.hs.pcie.msix = true) := by
  have hvec : t.vec p = (s.setReg a v).vec p := ht ▸ Block.vec_settleInt p owed
  have honly : Block.OnlyInt a s t := ht ▸ .ite (.ite ((Block.OnlyInt.setReg v).message p) (.setReg v)) ((Block.OnlyInt.setReg v).unpend p)
  rw [hvec]
  refine ⟨honly.frame, ?_, honly.reg_eq, ?_, fun w => ?_⟩
  · rw [ht, Block.reg_settleInt, Block.reg_setReg_same]
  · rw [ht]
    exact Block.settleInt_out p owed
  · rw [ht]
    exact Block.mem_settleInt_pba p owed w
end

/-- Settles O48: INT_FORCE, the W1C write and the write of INT_ENABLE each write one register, and then settle the page's condition. -/
theorem interruptMessagesFollowTheCondition : Obligations.InterruptMessagesFollowTheCondition := by
  refine ⟨fun s p => Block.vec_iff p, ?force, ?clear, ?enable⟩
  case force =>
    intro s q p v h hp
    have hleaves := Block.intWrite_leaves (s := s) (R.INT_STATUS p) p (s.reg (R.INT_STATUS p) ||| v) _ (Block.setInt_eq p v)
    simp only [Bool.not_eq_true'] at hleaves
    exact ⟨s.setInt p v, does_onStrobe_page q (by omega) h _, hleaves⟩
  case clear =>
    intro s q p v h hp
    have hleaves := Block.intWrite_leaves (s := s) (R.INT_STATUS p) p (s.reg (R.INT_STATUS p) &&& ~~~v) true (Block.intClear_eq p v)
    simp only [true_and] at hleaves
    exact ⟨s.intClear p v, does_onStrobe_page q (by omega) h _, hleaves⟩
  case enable =>
    intro s q p v h hp hl
    have hleaves := Block.intWrite_leaves (s := s) (R.INT_ENABLE p) p v _ (Block.enableInt_eq p v)
    simp only [Bool.not_eq_true'] at hleaves
    refine ⟨s.withInt p fun s => s.setReg (R.INT_ENABLE p) v, (does_onStrobe q h _).trans ?_, hleaves⟩
    rw [if_pos (by omega), Block.barWrite_intEnable v hp hl]

/-- Does `t` differ from `s` in PAGE_CTRL and ERR_CAUSE of a page, and in the values held of it, alone? -/
structure Block.OnlyFreeze (p : Nat) (s t : Block) : Prop where
  frame : t = { s with regs := t.regs, frozen := t.frozen }
  frozen_eq : ∀ r, r ≠ p → aget? t.frozen r = aget? s.frozen r
  reg_eq : ∀ a, a ∉ [R.PAGE_CTRL p, R.ERR_CAUSE p] → t.reg a = s.reg a

section
variable {s t : Block}

/-- The values held of a page change, after its registers. -/
theorem Block.OnlyFreeze.of_onlyRegs {p : Nat} {held : List (Nat × List (Nat × Word))}
    (h : Block.OnlyRegs [R.PAGE_CTRL p, R.ERR_CAUSE p] s t) (hf : ∀ r, r ≠ p → aget? held r = aget? s.frozen r) :
    Block.OnlyFreeze p s { t with frozen := held } :=
  ⟨congrArg (fun b : Block => { b with frozen := held }) h.frame, hf, h.reg_eq⟩

theorem Block.OnlyFreeze.freezeWrite (p : Nat) (on : Bool) : Block.OnlyFreeze p s (s.freezeWrite p on) := by
  have ht : Block.OnlyRegs [R.PAGE_CTRL p, R.ERR_CAUSE p] s (s.setFld (R.PAGE_CTRL p) 2 1 on.toNat) := .setFld (.refl _ s) (by simp) 2 1 _
  unfold Block.freezeWrite
  dsimp only
  split
  · exact .of_onlyRegs ht fun r hr => aget?_aput_ne _ _ hr
  · split
    · exact .of_onlyRegs ht fun r hr => aget?_adel_ne _ hr
    · exact ⟨ht.frame, fun _ _ => rfl, ht.reg_eq⟩

theorem Block.OnlyFreeze.onWrite {p : Nat} {f : Block → Block} (hf : Block.OnlyFreeze p s (f s)) : Block.OnlyFreeze p s (s.onWrite p f) := by
  unfold Block.onWrite
  split
  · exact ⟨rfl, fun _ _ => rfl, fun _ _ => rfl⟩
  · split
    · have herr : Block.OnlyRegs [R.PAGE_CTRL p, R.ERR_CAUSE p] s (s.errCause p 2) := .errCause (.refl _ s) (by simp) 2
      exact ⟨rfl, fun _ _ => rfl, herr.reg_eq⟩
    · exact hf

theorem Block.lockWrite_onlyRegs (p : Nat) (v : Word) : Block.OnlyRegs [R.PAGE_LOCK p] s (s.lockWrite p v) :=
  .ite (.refl _ s) (.setReg (.refl _ s) (by simp) _)

theorem Block.softResetEnd_onlyRegs (p : Nat) : Block.OnlyRegs [R.PAGE_CTRL p] s (s.softResetEnd p) :=
  .ite (.setFld (.refl _ s) (by simp) 1 1 0) (.refl _ s)
end

/-- Settles O51: by the registers each page control reaches. -/
theorem hostPageCommandsFrame : Obligations.HostPageCommandsFrame := by
  refine ⟨fun s t p v hst => ?lock, fun s t p v c hc hst => ?int, fun s t p on hst => ?freeze, fun s t p hst => ?done⟩
  case lock =>
    obtain ⟨hframe, hreg⟩ := Block.OnlyRegs.of_does (f := fun s => if 0x2C < p then s else s.onStrobe fun s => s.lockWrite p v) hst
      (.ite (.refl _ _) (.onStrobe (Block.lockWrite_onlyRegs p v)))
    exact ⟨hframe, fun a ha => hreg a (by simpa using ha)⟩
  case int =>
    have key : ∀ f : Block → Block, Block.OnlyInt (R.INT_STATUS p) s.toBlock (f s.toBlock) →
        s.does (fun s => if 0x2C < p then s else s.onStrobe f) = .next t →
        t = { s with regs := t.regs, out := t.out, hs := { s.hs with pba := t.hs.pba } } ∧ ∀ a, a ≠ R.INT_STATUS p → t.reg a = s.reg a := by
      intro f hf hst
      obtain rfl := Host.Outcome.next.inj hst
      obtain ⟨hframe, hreg⟩ := Block.OnlyInt.ite (c := 0x2C < p) (.refl _ s.toBlock) (.onStrobe hf)
      exact ⟨congrArg (fun b : Block => ({ s with toBlock := b } : State)) hframe, hreg⟩
    rcases hc with rfl | rfl
    · exact key _ (Block.OnlyInt.intClear p v) hst
    · exact key _ (Block.OnlyInt.setInt p v) hst
  case freeze =>
    have hf : Block.OnlyFreeze p s.toBlock (if 0x2C < p then s.toBlock else s.onWrite p fun s => s.freezeWrite p on) := by
      split
      · exact ⟨rfl, fun _ _ => rfl, fun _ _ => rfl⟩
      · exact .onWrite (.freezeWrite p on)
    obtain rfl := Host.Outcome.next.inj hst
    obtain ⟨hframe, hfrozen, hreg⟩ := hf
    exact ⟨congrArg (fun b : Block => ({ s with toBlock := b } : State)) hframe, hfrozen, hreg⟩
  case done =>
    obtain ⟨hframe, hreg⟩ := Block.OnlyRegs.of_does (f := fun s => if 0x2C < p then s else s.softResetEnd p) hst
      (.ite (.refl _ _) (Block.softResetEnd_onlyRegs p))
    exact ⟨hframe, fun a ha => hreg a (by simpa using ha)⟩

/-! The device memory window (R85). -/

/-- May the window write the pair of an address? -/
def windowPair (a : Nat) : Bool := [7, 10, 11].contains (pairOf a)

theorem windowPair_iff (a : Nat) : windowPair a = true ↔ pairOf a ∈ [7, 10, 11] := List.contains_iff_mem

/-- One byte through the window, with `left` bytes to come: stored, denied, or discarded. -/
def Block.windowByte (s : Block) (a : Nat) (b : Byte) (left : Nat) : Block :=
  if !inDram a then s
  else if windowPair a then ((s.setMemB a b).freshBlock a left).piTouch a 1
  else s.setFld R.DEV_WIN_CTRL 1 1 1

/-- The bytes through the window, from an address on. -/
def Block.windowBytes (s : Block) (a : Nat) : List Byte → Block
  | [] => s
  | b :: bs => (s.windowByte a b (bs.length + 1)).windowBytes (a + 1) bs

/-- What a write through the window may change: its own control register, memory, and what waits at the pairs. -/
structure Block.WindowOnly (s t : Block) : Prop where
  frame : t = { s with regs := t.regs, dram := t.dram, ls := t.ls, ca := t.ca, dc := { s.dc with pairs := t.dc.pairs, poison := t.dc.poison } }
  poison_sub : ∀ b ∈ t.dc.poison, b ∈ s.dc.poison
  pair_eq : ∀ j, t.pair j = { s.pair j with reqs := (t.pair j).reqs, lastReq := (t.pair j).lastReq }
  reg_eq : ∀ a, a ≠ R.DEV_WIN_CTRL → t.reg a = s.reg a

section
variable {s t u : Block}

theorem Block.WindowOnly.refl (s : Block) : Block.WindowOnly s s := ⟨rfl, fun _ h => h, fun _ => rfl, fun _ _ => rfl⟩

theorem Block.WindowOnly.trans (h : Block.WindowOnly s t) (h' : Block.WindowOnly t u) : Block.WindowOnly s u where
  frame := h'.frame.trans (congrArg (fun b : Block => { b with
    regs := u.regs, dram := u.dram, ls := u.ls, ca := u.ca, dc := { b.dc with pairs := u.dc.pairs, poison := u.dc.poison } }) h.frame)
  poison_sub b hb := h.poison_sub b (h'.poison_sub b hb)
  pair_eq j := (h'.pair_eq j).trans (congrArg (fun x : Pair => { x with reqs := (u.pair j).reqs, lastReq := (u.pair j).lastReq }) (h.pair_eq j))
  reg_eq a ha := (h'.reg_eq a ha).trans (h.reg_eq a ha)

theorem Block.WindowOnly.setMemB (a : Nat) (b : Byte) : Block.WindowOnly s (s.setMemB a b) :=
  ⟨rfl, fun _ h => h, fun _ => rfl, fun _ _ => rfl⟩

theorem Block.WindowOnly.freshBlock (a n : Nat) : Block.WindowOnly s (s.freshBlock a n) := by
  unfold Block.freshBlock
  split
  · exact ⟨rfl, fun b hb => List.mem_of_mem_filter hb, fun _ => rfl, fun _ _ => rfl⟩
  · exact .refl s

theorem Block.WindowOnly.piTouch (a n : Nat) : Block.WindowOnly s (s.piTouch a n) := by
  rw [Block.piTouch_frame]
  exact ⟨rfl, fun _ h => h, fun _ => rfl, fun _ _ => rfl⟩

theorem Block.WindowOnly.deny : Block.WindowOnly s (s.setFld R.DEV_WIN_CTRL 1 1 1) :=
  ⟨rfl, fun _ h => h, fun _ => rfl, fun _ ha => Block.reg_setReg_ne s _ ha⟩

theorem Block.WindowOnly.windowByte (a : Nat) (b : Byte) (left : Nat) : Block.WindowOnly s (s.windowByte a b left) := by
  unfold Block.windowByte
  split
  · exact .refl s
  · split
    · exact ((Block.WindowOnly.setMemB a b).trans (.freshBlock a left)).trans (.piTouch a 1)
    · exact .deny

theorem Block.WindowOnly.windowBytes (a : Nat) (bs : List Byte) : Block.WindowOnly s (s.windowBytes a bs) := by
  induction bs generalizing s a with
  | nil => exact .refl s
  | cons b bs ih => exact (Block.WindowOnly.windowByte a b _).trans (ih (a + 1))

theorem Block.pair_dramReq (a n j : Nat) (write guest : Bool) :
    (s.dramReq a n write guest).pair j =
      if a / 0x100000000 = j then ((s.dc.pairs[j]?).map fun x => { x with
        reqs := x.reqs ++ requestsOf s.now a n write guest, lastReq := s.now }).getD Pair.reset
      else s.pair j := by
  rw [Block.pair, Block.pair, List.getD_eq_getElem?_getD, List.getD_eq_getElem?_getD, Block.dramReq, Block.modPair, getElem?_modAt]
  split
  · rfl
  · rfl

/-- A request that arrives waits at its pair. -/
theorem Block.WindowOnly.dramReq (a n : Nat) (write guest : Bool) : Block.WindowOnly s (s.dramReq a n write guest) := by
  refine ⟨rfl, fun _ h => h, fun j => ?_, fun _ _ => rfl⟩
  have hj : s.pair j = (s.dc.pairs[j]?).getD Pair.reset := List.getD_eq_getElem?_getD ..
  rw [Block.pair_dramReq, hj]
  split
  · cases s.dc.pairs[j]? with
    | none => rfl
    | some x => rfl
  · rfl

theorem Block.memB_congr (h : t.dram = s.dram) (x : Nat) : t.memB x = s.memB x := by rw [Block.memB, Block.memB, h]

/-- A byte is stored where its address is in DRAM and in a pair the window may write. -/
theorem Block.memB_windowByte (a : Nat) (b : Byte) (left x : Nat) :
    (s.windowByte a b left).memB x = if x = a ∧ inDram a = true ∧ windowPair a = true then b else s.memB x := by
  unfold Block.windowByte
  by_cases hd : inDram a = true
  · rw [if_neg (by simp [hd])]
    by_cases hp : windowPair a = true
    · have hpi : (((s.setMemB a b).freshBlock a left).piTouch a 1).memB x = ((s.setMemB a b).freshBlock a left).memB x := by
        rw [Block.piTouch_frame]; rfl
      rw [if_pos hp, hpi, Block.memB_freshBlock, Block.memB_setMemB]
      simp only [hd, hp, and_true]
    · rw [if_neg hp, if_neg fun h => hp h.2.2]
      rfl
  · rw [if_pos (by simp [hd]), if_neg fun h => hd h.2.1]

/-- WR_DENIED is set where the byte lies in DRAM, in another pair. -/
theorem Block.denied_windowByte (a : Nat) (b : Byte) (left : Nat) :
    bit ((s.windowByte a b left).reg R.DEV_WIN_CTRL) 1 = true ↔
      bit (s.reg R.DEV_WIN_CTRL) 1 = true ∨ inDram a = true ∧ windowPair a = false := by
  unfold Block.windowByte
  by_cases hd : inDram a = true
  · rw [if_neg (by simp [hd])]
    by_cases hp : windowPair a = true
    · have hregs : (((s.setMemB a b).freshBlock a left).piTouch a 1).regs = s.regs := by
        rw [Block.piTouch_frame]
        exact Block.freshBlock_regs ..
      rw [if_pos hp, Block.reg_congr hregs]
      simp [hp]
    · rw [if_neg hp, Block.reg_setFld, if_pos rfl, bit_setBits_same _ _ (by decide)]
      simp [hd, hp]
  · rw [if_pos (by simp [hd])]
    simp [hd]

/-- A byte of memory outside the write, outside DRAM or in another pair stays. -/
theorem Block.memB_windowBytes_other {a x : Nat} {bs : List Byte}
    (h : x < a ∨ a + bs.length ≤ x ∨ inDram x = false ∨ windowPair x = false) : (s.windowBytes a bs).memB x = s.memB x := by
  induction bs generalizing s a with
  | nil => rfl
  | cons b bs ih =>
    simp only [List.length_cons] at h
    have hrest : x < a + 1 ∨ a + 1 + bs.length ≤ x ∨ inDram x = false ∨ windowPair x = false := by
      rcases h with h | h | h | h
      · exact .inl (by omega)
      · exact .inr (.inl (by omega))
      · exact .inr (.inr (.inl h))
      · exact .inr (.inr (.inr h))
    have hfirst : ¬ (x = a ∧ inDram a = true ∧ windowPair a = true) := by
      rintro ⟨rfl, hd, hp⟩
      rcases h with h | h | h | h
      · omega
      · omega
      · simp [hd] at h
      · simp [hp] at h
    rw [Block.windowBytes, ih hrest, Block.memB_windowByte, if_neg hfirst]

theorem Block.memB_windowBytes {a i : Nat} {b : Byte} {bs : List Byte} (hb : bs[i]? = some b) (hd : inDram (a + i) = true)
    (hp : windowPair (a + i) = true) : (s.windowBytes a bs).memB (a + i) = b := by
  induction bs generalizing s a i with
  | nil => simp at hb
  | cons c bs ih =>
    rw [Block.windowBytes]
    cases i with
    | zero =>
      obtain rfl : c = b := by simpa using hb
      rw [Block.memB_windowBytes_other (.inl (by omega)), Block.memB_windowByte, if_pos ⟨rfl, hd, hp⟩]
    | succ i =>
      rw [show a + (i + 1) = a + 1 + i by omega] at hd hp ⊢
      exact ih (by simpa using hb) hd hp

theorem Block.denied_windowBytes (a : Nat) (bs : List Byte) :
    bit ((s.windowBytes a bs).reg R.DEV_WIN_CTRL) 1 = true ↔
      bit (s.reg R.DEV_WIN_CTRL) 1 = true ∨ ∃ i, i < bs.length ∧ inDram (a + i) = true ∧ windowPair (a + i) = false := by
  induction bs generalizing s a with
  | nil => simp [Block.windowBytes]
  | cons b bs ih =>
    have hsplit : (∃ i, i < (b :: bs).length ∧ inDram (a + i) = true ∧ windowPair (a + i) = false) ↔
        (inDram a = true ∧ windowPair a = false) ∨ ∃ i, i < bs.length ∧ inDram (a + 1 + i) = true ∧ windowPair (a + 1 + i) = false := by
      simp only [List.length_cons, Nat.exists_lt_succ_left, Nat.add_zero, Nat.add_assoc, Nat.add_comm 1]
    rw [Block.windowBytes, ih, Block.denied_windowByte, hsplit, or_assoc]

/-- The window's write, byte by byte. -/
theorem foldl_windowByte (a : Nat) (bs : List Byte) :
    (bs.mapIdx fun j b => (a + j, b, bs.length - j)).foldl (fun s e => s.windowByte e.1 e.2.1 e.2.2) s = s.windowBytes a bs := by
  induction bs generalizing s a with
  | nil => rfl
  | cons b bs ih =>
    rw [List.mapIdx_cons, List.foldl_cons, Block.windowBytes, ← ih]
    simp only [List.length_cons, Nat.add_zero, Nat.sub_zero, Nat.add_sub_add_right, Nat.add_assoc, Nat.add_comm 1]

/-- What arrives at the pair as the window's write begins. -/
def Block.windowArrival (s : Block) (pa n : Nat) : Block := if inDram pa && windowPair pa then s.dramReq pa n true true else s

theorem Block.WindowOnly.windowArrival (pa n : Nat) : Block.WindowOnly s (s.windowArrival pa n) := by
  unfold Block.windowArrival
  split
  · exact .dramReq pa n true true
  · exact .refl s

theorem Block.windowArrival_regs (pa n : Nat) : (s.windowArrival pa n).regs = s.regs := by
  unfold Block.windowArrival
  split
  · rfl
  · rfl

theorem Block.windowArrival_dram (pa n : Nat) : (s.windowArrival pa n).dram = s.dram := by
  unfold Block.windowArrival
  split
  · rfl
  · rfl

/-- A write to the window while it is enabled and not read-only. -/
theorem Block.barWrite2_window {off pa : Nat} {bs : List Byte} (hlen : off + bs.length ≤ 0x2000000)
    (hen : bit (s.reg R.DEV_WIN_CTRL) 0 = true) (hro : bit (s.reg R.DEV_WIN_CTRL) 2 = false)
    (hpa : pa = s.fld R.DEV_WIN_BASE_HI 0 16 * 0x100000000 + s.fld R.DEV_WIN_BASE_LO 25 7 * 0x2000000 + off) :
    s.barWrite2 off bs = (s.windowArrival pa bs.length).windowBytes pa bs := by
  have hopen : ¬ (!bit (s.reg R.DEV_WIN_CTRL) 0 || bit (s.reg R.DEV_WIN_CTRL) 2) = true := by
    rw [hen, hro]
    exact Bool.false_ne_true
  rw [Block.barWrite2, if_pos hlen, Block.windowMem, if_neg hopen, ← hpa]
  exact foldl_windowByte pa bs
end

/-- Settles O49, by induction on the bytes: what each of them leaves, and what it denies. -/
theorem hostWindowWritesReachOnlyThreePairs : Obligations.HostWindowWritesReachOnlyThreePairs := by
  intro s q off pa bs h hlen hen hro hpa
  obtain ⟨hframe, hpoison, hpair, hreg⟩ := (Block.WindowOnly.windowArrival (s := s) pa bs.length).trans (.windowBytes pa bs)
  have hdram := Block.memB_congr (Block.windowArrival_dram (s := s) pa bs.length)
  have hctrl := Block.reg_congr (Block.windowArrival_regs (s := s) pa bs.length) R.DEV_WIN_CTRL
  have hother : ∀ x, windowPair x = false ↔ pairOf x ∉ [7, 10, 11] := fun x => by rw [← windowPair_iff, Bool.not_eq_true]
  refine ⟨_, (does_onStrobe q h _).trans (by rw [Block.barWrite2_window hlen hen hro hpa]), hframe, hpoison, hpair, hreg,
    fun i b hb hd hp => Block.memB_windowBytes hb hd ((windowPair_iff _).mpr hp), fun x hx => ?_, ?_⟩
  · rw [← hother] at hx
    exact (Block.memB_windowBytes_other hx).trans (hdram x)
  · rw [Block.denied_windowBytes, hctrl]
    simp only [hother]

end Sys2Proof.Machine

namespace Sys2Proof.Machine

/-! The resets (R129, R136 to R138): what the reset control does with a write, and what a reset leaves. -/

/-- Light may be on in LIT, and in FROST_HOLD within it (R2). -/
theorem DevState.lightOn_iff (d : DevState) : d.lightOn = true ↔ d = .lit ∨ d = .frostHold := by
  cases d <;> decide

section
variable {s : Block}

/-- Training takes place in the fabric's ports alone. -/
theorem Block.romTrain_frame : s.romTrain = { s with fb := s.romTrain.fb } := by
  unfold Block.romTrain
  dsimp only
  split_ifs <;> rfl

/-- A cause once recorded reads 1. -/
theorem Block.bit_cause {i : Nat} (hi : i < 32) : bit ((s.cause i).reg R.PWR_RESET_CAUSE) i = true := by
  rw [Block.cause, Block.reg_setFld, if_pos rfl, bit_setBits_same _ _ hi]
  rfl

theorem Block.place_regs (dst prev : DevState) (reason : Nat) : (s.place dst prev reason).regs = s.regs := rfl

theorem Block.warmReset_pw (i : Nat) : (s.warmReset i).pw.state = .boot ∧ (s.warmReset i).pw.prev = s.pw.state := by
  rw [Block.warmReset, Block.romTrain_frame]
  exact ⟨rfl, rfl⟩

theorem Block.warmReset_dram (i : Nat) : (s.warmReset i).dram = s.dram := by
  rw [Block.warmReset, Block.romTrain_frame]
  rfl

theorem Block.warmReset_regs (i : Nat) : (s.warmReset i).regs = ((s.resetKeep true).cause i).regs := by
  rw [Block.warmReset, Block.romTrain_frame]
  rfl

theorem Block.bit_warmReset_cause {i : Nat} (hi : i < 32) : bit ((s.warmReset i).reg R.PWR_RESET_CAUSE) i = true := by
  rw [Block.reg_congr (Block.warmReset_regs i), Block.bit_cause hi]

theorem Block.resetCtrl_otherKey {v : Word} (hkey : bits v 16 16 ≠ 0x5752) : s.resetCtrl v = s := if_pos (.inl hkey)

/-- A write with the key and WARM goes by the light. -/
theorem Block.resetCtrl_key {v : Word} (hkey : bits v 16 16 = 0x5752) (hwarm : bit v 0 = true) :
    s.resetCtrl v = if s.pw.state.lightOn && !bit v 1 then s.errCause 0x01 3 else s.warmReset 3 := by
  refine if_neg ?_
  rw [hwarm]
  exact not_or.mpr ⟨not_not.mpr hkey, Bool.false_ne_true⟩

/-- Light without FORCE refuses the reset (R138). -/
theorem Block.resetCtrl_refused {v : Word} (hkey : bits v 16 16 = 0x5752) (hwarm : bit v 0 = true) (hlight : s.pw.state.lightOn = true)
    (hforce : bit v 1 = false) : s.resetCtrl v = s.errCause 0x01 3 := by
  rw [Block.resetCtrl_key hkey hwarm, hlight, hforce]
  rfl

/-- Without light, or with FORCE, the reset starts (R137). -/
theorem Block.resetCtrl_starts {v : Word} (hkey : bits v 16 16 = 0x5752) (hwarm : bit v 0 = true)
    (h : s.pw.state.lightOn = false ∨ bit v 1 = true) : s.resetCtrl v = s.warmReset 3 := by
  rw [Block.resetCtrl_key hkey hwarm]
  rcases h with hdark | hforce
  · rw [hdark]
    rfl
  · rw [hforce, Bool.not_true, Bool.and_false, if_neg Bool.false_ne_true]

/-- Registers cleared in a row read 0. -/
theorem Block.reg_setRegs_zero {l : List Nat} {a : Nat} (ha : a ∈ l) : (s.setRegs (l.map fun b => (b, 0))).reg a = 0 := by
  induction l generalizing s with
  | nil => exact absurd ha List.not_mem_nil
  | cons b l ih =>
    rw [List.map_cons, Block.setRegs_cons]
    by_cases hl : a ∈ l
    · exact ih hl
    · obtain rfl := (List.mem_cons.mp ha).resolve_right hl
      rw [Block.reg_setRegs_ne, Block.reg_setReg_same]
      intro e he
      obtain ⟨c, hc, rfl⟩ := List.mem_map.mp he
      exact (ne_of_mem_of_not_mem hc hl).symm
end

/-- A command leaves what its effect comes to on the block. -/
theorem does_of_eq {s t : Block} (q : List Instr) {f : Block → Block} (h : f s = t) : State.does ⟨s, q⟩ f = .next ⟨t, q⟩ := by
  rw [State.does_next, h]

/-- Settles O36: by the key, by FORCE and by the light, as the reset control goes by them. -/
theorem warmResetNeedsKeyAndForce : Obligations.WarmResetNeedsKeyAndForce := by
  refine ⟨fun s q v h hkey => ?other, fun s q v h hkey hwarm hlit hforce => ?lit, fun s q v h hkey hwarm hgo => ?goes⟩
  case other =>
    refine (does_onStrobe q h _).trans ?_
    rw [Block.resetCtrl_otherKey hkey]
  case lit =>
    refine ⟨s.errCause 1 3, (does_onStrobe q h _).trans ?_, rfl, Block.bit_errCause_same 1 (by decide),
      fun i hi => Block.bit_errCause_ne 1 (by decide) hi, fun a ha => ?_⟩
    · rw [Block.resetCtrl_refused hkey hwarm ((DevState.lightOn_iff _).mpr hlit) hforce]
    · rw [Block.reg_errCause, if_neg ha]
  case goes =>
    have hdark : s.pw.state.lightOn = false ∨ bit v 1 = true :=
      hgo.imp_left fun hne => Bool.eq_false_iff.mpr fun hon => not_or.mpr hne ((DevState.lightOn_iff _).mp hon)
    obtain ⟨hstate, hprev⟩ := Block.warmReset_pw (s := s) 3
    refine ⟨s.warmReset 3, (does_onStrobe q h _).trans ?_, hstate, hprev, Block.bit_warmReset_cause (by decide), Block.warmReset_dram 3⟩
    rw [Block.resetCtrl_starts hkey hwarm hdark]

/-- Settles O7: a clause's hypotheses are the tests its command makes. -/
theorem powerCommandsRun : Obligations.PowerCommandsRun := by
  refine ⟨?aonValid, ?aonLoss, ?porst, ?release, ?railOut, ?railsGood, ?warmDark, ?warmForced, ?fabric, ?pfWarn, ?pfCut, ?pfEnds,
    ?pfRecovered⟩
  case aonValid =>
    intro s q hoff
    change execVddAonValid ⟨s, q⟩ = _
    rw [execVddAonValid, State.does_next, if_neg (not_not.mpr hoff)]
  case aonLoss =>
    intro s q hon
    change execVddAonLoss ⟨s, q⟩ = _
    rw [execVddAonLoss, State.does_next, if_neg hon]
  case porst =>
    intro s q hoff haon hcore
    have hacts : ¬ (s.pw.state = .off ∨ s.pw.state = .aon ∨ s.pw.coreGated = true) := by simp [hoff, haon, hcore]
    change execPorstNAssert ⟨s, q⟩ = _
    rw [execPorstNAssert, State.does_next, if_neg hacts]
  case release =>
    intro s q src haon hheld hcore hclocks
    exact does_of_eq q (if_pos ⟨haon, hheld, hcore, hclocks⟩)
  case railOut =>
    intro s q rail hrail hhold
    have hacts : ¬ (12 ≤ rail ∨ s.holdable = false) := by simp [hrail, hhold]
    change execRailOutOfTolerance rail ⟨s, q⟩ = _
    rw [execRailOutOfTolerance, State.does_next, if_neg hacts]
  case railsGood =>
    intro s q src haon hheld
    change execRailsRestored src ⟨s, q⟩ = _
    rw [execRailsRestored, State.does_next, if_pos ⟨haon, hheld⟩]
  case warmDark =>
    intro s q v h hkey hwarm hdark
    refine (does_onStrobe q h _).trans ?_
    rw [Block.resetCtrl_starts hkey hwarm (.inl hdark)]
  case warmForced =>
    intro s q v h hkey hwarm hforce
    refine (does_onStrobe q h _).trans ?_
    rw [Block.resetCtrl_starts hkey hwarm (.inr hforce)]
  case fabric =>
    intro s q p src d hfab hp huid hen hadmit hdark
    have hours : ¬ ((!s.fabOn) = true ∨ 4 ≤ p ∨ padBytes 8 d ≠ s.uidBytes) := by simp [hfab, hp, huid]
    change execFabricResetReq p src d ⟨s, q⟩ = _
    rw [execFabricResetReq, State.does_next, if_neg hours]
    simp only [hen, hadmit, hdark, Bool.not_true, Bool.false_eq_true, ne_eq, not_true_eq_false, false_and, if_false]
  case pfWarn =>
    intro s q hfirst hoff haon hcore hidle
    have hacts : ¬ (s.pw.pfAsserted = true ∨ s.pw.state = .off ∨ s.pw.state = .aon ∨ s.pw.coreGated = true) := by
      simp [hfirst, hoff, haon, hcore]
    change execPfWarn ⟨s, q⟩ = _
    rw [execPfWarn, State.does_next, if_neg hacts]
    simp [Block.pfRecord, hidle]
  case pfCut =>
    intro s q hwarned hfirst hcore hlit
    change execPfLaserCut ⟨s, q⟩ = _
    rw [execPfLaserCut, State.does_next, if_pos ⟨hwarned, hfirst, hcore⟩]
    simp only [hlit]
  case pfEnds =>
    intro s q hwarned hride
    have hstill : ¬ (!s.pw.pfAsserted) = true := by rw [hwarned]; exact Bool.false_ne_true
    refine does_of_eq q ((if_neg hstill).trans ?_)
    dsimp -zeta only
    rw [hride]
    rfl
  case pfRecovered =>
    intro s q hhigh hended
    change execPfRecovered ⟨s, q⟩ = _
    rw [execPfRecovered, State.does_next, if_pos ⟨hhigh, hended⟩]

/-- Settles O42: by what O7 says VDD_AON's loss leaves; each register of the always-on domain is among those it clears. -/
theorem alwaysOnPowerLossClearsTheLatch : Obligations.AlwaysOnPowerLossClearsTheLatch := by
  intro s q hon
  obtain ⟨-, hloss, -⟩ := powerCommandsRun
  refine ⟨_, hloss s q hon, rfl, rfl, fun a ha => ?_⟩
  have haon : a ∈ aonRegs := by
    revert a
    decide
  rw [Block.reg, Block.place_regs]
  exact Block.reg_setRegs_zero haon

/-! STATE_SET (R121, R124). -/

/-- A STATE_SET whose target has a row, with groups that exist and no request under way, is that row's. -/
theorem Block.stateSet_accepted {s : Block} {cseq : Word} {row : Nat} {c : Cmd} (hstart : s.startable cseq 3 = some c)
    (hrow : s.ssRow c = row) (hnamed : row ≠ 4) (hmask : ¬ 32 ≤ c.ssMask) (hfree : s.pw.stateSet = none)
    (f : Block → Cmd → Block) : s.stateSet cseq row f = f s c := by
  simp only [Block.stateSet, hstart, hrow, hnamed, hmask, hfree, ne_eq, not_true_eq_false, false_and, Option.isSome_none,
    Bool.false_eq_true, if_false]

/-- Settles O9: a clause's hypotheses are the tests its command makes. -/
theorem stateSetAndBringUpCommandsRun : Obligations.StateSetAndBringUpCommandsRun := by
  refine ⟨?ready, ?standby, ?light, ?extinguish, ?bringupFails, ?rdyLow, ?enum, ?retry⟩
  case ready =>
    intro s q cseq c hstart hrow hmask hfree hstate hrecords
    change execStateSetReady cseq ⟨s, q⟩ = _
    rw [execStateSetReady, State.does_next, Block.stateSet_accepted hstart hrow (by decide) hmask hfree, Block.setReady,
      if_neg (not_not.mpr hstate), if_neg (Bool.eq_false_iff.mp hrecords)]
  case standby =>
    intro s q cseq c hstart hrow hmask hfree hstate
    change execStateSetStandby cseq ⟨s, q⟩ = _
    rw [execStateSetStandby, State.does_next, Block.stateSet_accepted hstart hrow (by decide) hmask hfree, Block.setStandby,
      if_neg (not_not.mpr hstate)]
  case light =>
    intro s q cseq c hstart hrow hmask hfree hmay hlack hlit
    change execStateSetLit cseq ⟨s, q⟩ = _
    rw [execStateSetLit, State.does_next, Block.stateSet_accepted hstart hrow (by decide) hmask hfree]
    simp only [Block.setLit, hmay, hlack, hlit, Bool.not_true, Bool.false_eq_true, if_false]
  case extinguish =>
    intro s q cseq c hstart hrow hmask hfree
    change execStateSetExtinguish cseq ⟨s, q⟩ = _
    rw [execStateSetExtinguish, State.does_next, Block.stateSet_accepted hstart hrow (by decide) hmask hfree]
  case bringupFails =>
    intro s q hw o hbringing hbad
    change execBringupFailed hw ⟨s, q⟩ = _
    simp only [execBringupFailed, State.does_next, hbringing]
    rw [if_pos hbad]
  case rdyLow =>
    intro s q p hp
    change execMaRdyNLow p ⟨s, q⟩ = _
    rw [execMaRdyNLow, State.does_next, if_pos hp]
  case enum =>
    intro s q c n ids hallowed hn
    have hruns : (s.enumAllowed c && decide (n ≤ 64)) = true := by rw [hallowed, decide_eq_true hn]; rfl
    change execChainEnum c n ids ⟨s, q⟩ = _
    rw [execChainEnum, State.does_next, if_pos hruns]
  case retry =>
    intro s q c n ids hc hbreak hwait hone hn
    change execChainEnumRetry c n ids ⟨s, q⟩ = _
    rw [execChainEnumRetry, State.does_next, if_pos ⟨hc, hbreak, hwait⟩, if_pos ⟨hone, hn⟩]

/-! A soft reset of RING (R142): CMD_EN and EVT_EN go to 0 with the events not yet written, and the RW registers to their reset values. -/

theorem bit_and (v w : Word) (i : Nat) : bit (v &&& w) i = (bit v i && bit w i) := by
  simp only [bit, natBit_testBit, BitVec.toNat_and, Nat.testBit_and]

section
variable {s : Block}

/-- CMD_EN and EVT_EN written 0: neither index moves. -/
theorem Block.ringCtrl_off {v : Word} (h0 : bit v 0 = false) (h1 : bit v 1 = false) :
    s.ringCtrl v = { s.setReg R.RING_CTRL (w32 (bits v 0 4)) with
      rg := { s.rg with evq := if bit (s.reg R.RING_CTRL) 1 then [] else s.rg.evq } } := by
  unfold Block.ringCtrl
  dsimp only
  rw [h0, h1, Bool.and_false, Bool.and_false, Bool.not_false, Bool.and_true]
  cases bit (s.reg R.RING_CTRL) 1 with
  | false => rfl
  | true => rfl

/-- What is abandoned before the registers change. -/
def Block.ringOff (s : Block) : Block := s.ringCtrl (s.reg R.RING_CTRL &&& 0xFFFFFFFC)

theorem Block.ringOff_eq :
    s.ringOff = { s.setReg R.RING_CTRL (w32 (bits (s.reg R.RING_CTRL &&& 0xFFFFFFFC) 0 4)) with
      rg := { s.rg with evq := if bit (s.reg R.RING_CTRL) 1 then [] else s.rg.evq } } := by
  have hoff : ∀ i, bit 0xFFFFFFFC i = false → bit (s.reg R.RING_CTRL &&& 0xFFFFFFFC) i = false := fun i hi => by
    rw [bit_and, hi, Bool.and_false]
  exact Block.ringCtrl_off (hoff 0 (by decide)) (hoff 1 (by decide))

/-- RING has no part of its own in a soft reset beside the registers and what it abandons. -/
theorem Block.softResetGo_ring :
    s.softResetGo 4 =
      (({ s.ringOff with regs := s.ringOff.regs.filter fun e => !resetClears 4 e.1, frozen := adel s.ringOff.frozen 4 } : Block).setReg
        (R.PAGE_CTRL 4) 3).unpend 4 := rfl

theorem Block.softResetGo_ring_rg :
    (s.softResetGo 4).rg = { s.rg with evq := if bit (s.reg R.RING_CTRL) 1 then [] else s.rg.evq } := by
  rw [Block.softResetGo_ring, Block.ringOff_eq]
  rfl

/-- A register the reset clears takes its reset value, and the others of the page stay. -/
theorem Block.reg_softResetGo_ring {a : Nat} (hctrl : a ≠ R.PAGE_CTRL 4) :
    (s.softResetGo 4).reg a = if resetClears 4 a then regDflt a else s.ringOff.reg a := by
  have hfilter := sget_filter regDflt (fun b => !resetClears 4 b) s.ringOff.regs a
  rw [Block.softResetGo_ring]
  refine (Block.reg_setReg_ne _ 3 hctrl).trans (hfilter.trans ?_)
  cases resetClears 4 a with
  | false => rfl
  | true => rfl

/-- R90 does not name RING. -/
theorem Block.resetRefused_ring : s.resetRefused 4 = false := Bool.and_eq_false_iff.mpr (.inr rfl)

/-- With no commit that names RING its reset begins at once, from the registers and the ring state as they stand. -/
theorem Block.softReset_ring (hc : (s.cm.list.all fun c => !natBit c.pages 4) = true) :
    ∃ u : Block, s.softReset 4 = u.softResetGo 4 ∧ u.regs = s.regs ∧ u.rg = s.rg := by
  refine ⟨_, Block.softReset_goes Block.resetRefused_ring (List.any_eq_false.mpr fun c hmem => ?_), rfl, rfl⟩
  rw [(Bool.not_eq_true' _).mp (List.all_eq_true.mp hc c (List.mem_filter.mp hmem).1)]
  exact Bool.false_ne_true
end

/-- Settles O40: RING_CTRL is an RW register, whose reset value is 0; R142 keeps the indices the host writes, and the others are no RW
registers. -/
theorem ringSoftResetKeepsIndices : Obligations.RingSoftResetKeepsIndices := by
  intro s q h hl hc
  obtain ⟨u, hreset, hregs, hrg⟩ := Block.softReset_ring hc
  have hoff : (u.softResetGo 4).reg R.RING_CTRL = 0 := by
    rw [Block.reg_softResetGo_ring (by decide), if_pos (by decide)]
    decide
  refine ⟨u.softResetGo 4, (does_onWrite_page q (by decide) h hl _).trans (by rw [hreset]), ?_, ?_, ?_, ?_, ?_, fun a ha => ?_⟩
  · rw [hoff]; rfl
  · rw [hoff]; rfl
  · rw [Block.softResetGo_ring_rg, hrg]
  · rw [Block.softResetGo_ring_rg, hrg]
  · rw [Block.softResetGo_ring_rg, hrg]
  · have hkept : a ≠ R.PAGE_CTRL 4 ∧ resetClears 4 a = false ∧ a ≠ R.RING_CTRL := by
      revert a
      decide
    obtain ⟨hctrl, hkeep, hring⟩ := hkept
    rw [Block.reg_softResetGo_ring hctrl, hkeep, if_neg Bool.false_ne_true, Block.ringOff_eq]
    exact (Block.reg_setReg_ne u _ hring).trans (Block.reg_congr hregs a)

end Sys2Proof.Machine

namespace Sys2Proof.Machine

/-! Device translation (R194 to R196, R669): what a GO asks for, what it leaves while an invalidation is in progress, and what
`DTU_STATUS[1]` shows of it. -/

/-- The invalidation that a GO starts (R669): of everything, or of the pages that the address and length registers name. -/
def Block.invOf (s : Block) (v : Word) : DtuInv :=
  { all := bit v 1, start := s.fld R.DTU_INV_ADDR_HI 0 16 * 0x100000000 + s.fld R.DTU_INV_ADDR_LO 12 20 * 4096,
    pages := max 1 (s.reg R.DTU_INV_LEN).toNat, since := s.now }

/-- The block with an invalidation in progress, DONE and REFUSED clear. -/
def Block.invStart (s : Block) (i : DtuInv) : Block :=
  ({ s with dt := { s.dt with inv := some i } } : Block).setReg R.DTU_INV_STATUS 0

section
variable {s : Block} {v : Word}

theorem Block.invGo_noGo (hgo : bit v 0 = false) : s.invGo v = s := by
  rw [Block.invGo, hgo]
  rfl

theorem Block.invGo_refused (hgo : bit v 0 = true) (hrun : s.dt.inv.isSome = true) : s.invGo v = s.setFld R.DTU_INV_STATUS 1 1 1 := by
  rw [Block.invGo, hgo, hrun]
  rfl

theorem Block.invGo_accepted (hgo : bit v 0 = true) (hidle : s.dt.inv = none) : s.invGo v = s.invStart (s.invOf v) := by
  rw [Block.invGo, hgo, hidle]
  rfl

/-- DTU_STATUS is made of what the block does: bit 1 is the invalidation in progress. -/
theorem Block.bit_dtuStatus (s : Block) : bit (s.presentNow R.DTU_STATUS) 1 = s.dt.inv.isSome := by
  have hview : s.presentNow R.DTU_STATUS = w32 (2 * s.dt.inv.isSome.toNat) := rfl
  rw [hview]
  cases s.dt.inv.isSome with
  | false => rfl
  | true => rfl

/-- DTU_INV_CTRL is a WO register: BAR0 gives the value written to the invalidation. -/
theorem exec_registerWrite_dtuInvCtrl (s : Block) (q : List Instr) (v : Word) :
    exec (.registerWrite R.DTU_INV_CTRL v) ⟨s, q⟩ = exec (.dtuInvGo v) ⟨s, q⟩ := rfl
end

/-- Settles O35: by what a GO does while an invalidation is in progress, and while none is. -/
theorem invalidationGoIsRefusedWhileOneRuns : Obligations.InvalidationGoIsRefusedWhileOneRuns := by
  refine ⟨Block.bit_dtuStatus, exec_registerWrite_dtuInvCtrl, fun s q v h hgo hrun => ?refused, fun s q v h hgo hidle => ?accepted⟩
  case refused =>
    rw [Block.bit_dtuStatus] at hrun
    refine ⟨s.setFld R.DTU_INV_STATUS 1 1 1, (does_onStrobe q h _).trans ?_, rfl, ?_, ?_, fun i hi => ?_, fun a ha => ?_⟩
    · rw [Block.invGo_refused hgo hrun]
    · rw [Block.reg_setFld, if_pos rfl, bit_setBits_below _ _ (by decide) (by decide)]
    · rw [Block.reg_setFld, if_pos rfl, bit_setBits_same _ _ (by decide)]
      rfl
    · rw [Block.reg_setFld, if_pos rfl]
      exact bit_setBit_ne _ true (by decide) hi
    · rw [Block.reg_setFld, if_neg ha]
  case accepted =>
    rw [Block.bit_dtuStatus] at hidle
    refine ⟨s.invStart (s.invOf v), (does_onStrobe q h _).trans ?_, rfl, Block.bit_dtuStatus _, rfl, ?_, ?_,
      fun a ha => Block.reg_setReg_ne _ 0 ha⟩
    · rw [Block.invGo_accepted hgo (Option.isNone_iff_eq_none.mp (by simpa using hidle))]
    · rw [Block.invStart, Block.reg_setReg_same]
      rfl
    · rw [Block.invStart, Block.reg_setReg_same]
      rfl

/-- Settles O15: a clause's hypotheses are the tests its command makes. -/
theorem deviceTranslationCommandsRun : Obligations.DeviceTranslationCommandsRun := by
  refine ⟨?walk, ?go, ?done, ?probe⟩
  case walk => exact fun s q va write client => rfl
  case go =>
    intro s q v h hgo hidle
    refine (does_onStrobe q h _).trans ?_
    rw [Block.invGo_accepted hgo hidle, Block.invStart, Block.invOf]
  case done =>
    intro s q i hrun
    change execDtuInvDone ⟨s, q⟩ = _
    rw [execDtuInvDone, State.does_next, hrun]
    rfl
  case probe => exact fun s q v h hl => does_onWrite q h hl _

/-! What the commands of DTU and of the check-value units may change. -/

/-- A write of the host to an RW register is ignored, sets a bit of the page's ERR_CAUSE, or has the register's effect with the value that
the register takes. -/
theorem Block.rwWrite_cases (s : Block) (a : Nat) (v : Word) (f : Block → Word → Block) :
    s.rwWrite a v f = s ∨ (∃ i, s.rwWrite a v f = s.errCause (pageOf a) i) ∨ ∃ w, s.rwWrite a v f = f s w := by
  unfold Block.rwWrite Block.rwTake
  split
  · split
    · exact .inl rfl
    · split
      · exact .inr (.inl ⟨2, rfl⟩)
      · dsimp only
        split
        · exact .inr (.inr ⟨_, rfl⟩)
        · exact .inr (.inl ⟨5, rfl⟩)
  · exact .inl rfl

/-- Does `t` differ from `s` in the invalidation in progress and in DTU_INV_STATUS alone? -/
structure Block.OnlyInv (s t : Block) : Prop where
  frame : t = { s with regs := t.regs, dt := t.dt }
  tlb_eq : t.dt.tlb = s.dt.tlb
  reg_eq : ∀ a, a ≠ R.DTU_INV_STATUS → t.reg a = s.reg a

/-- Does `t` differ from `s` in one check-value unit alone? -/
structure Block.OnlyChk (u : Nat) (s t : Block) : Prop where
  frame : t = { s with chk := t.chk }
  chkU_eq : ∀ x, x ≠ u → t.chkU x = s.chkU x

/-- Does `t` differ from `s` in one check-value unit and in the registers of a list alone? -/
structure Block.OnlyUnit (u : Nat) (l : List Nat) (s t : Block) : Prop where
  frame : t = { s with regs := t.regs, chk := t.chk }
  chkU_eq : ∀ x, x ≠ u → t.chkU x = s.chkU x
  reg_eq : ∀ a, a ∉ l → t.reg a = s.reg a

section
variable {s t : Block} {u : Nat} {l : List Nat}

theorem Block.OnlyInv.refl (s : Block) : Block.OnlyInv s s := ⟨rfl, rfl, fun _ _ => rfl⟩

theorem Block.OnlyInv.onStrobe {f : Block → Block} (hf : Block.OnlyInv s (f s)) : Block.OnlyInv s (s.onStrobe f) := by
  unfold Block.onStrobe
  split
  · exact hf
  · exact .refl s

theorem Block.OnlyInv.invStart (i : DtuInv) : Block.OnlyInv s (s.invStart i) :=
  ⟨rfl, rfl, fun _ ha => Block.reg_setReg_ne ({ s with dt := { s.dt with inv := some i } } : Block) 0 ha⟩

theorem Block.OnlyInv.refused : Block.OnlyInv s (s.setFld R.DTU_INV_STATUS 1 1 1) :=
  ⟨rfl, rfl, fun _ ha => Block.reg_setReg_ne s _ ha⟩

theorem Block.OnlyInv.invGo (v : Word) : Block.OnlyInv s (s.invGo v) := by
  cases hgo : bit v 0 with
  | false =>
    rw [Block.invGo_noGo hgo]
    exact .refl s
  | true =>
    cases hinv : s.dt.inv with
    | none =>
      rw [Block.invGo_accepted hgo hinv]
      exact .invStart _
    | some i =>
      rw [Block.invGo_refused hgo (by rw [hinv]; rfl)]
      exact .refused

/-- A probe walks the tables without a trace: only its own registers take values. -/
theorem Block.probeWrite_onlyRegs (v : Word) :
    Block.OnlyRegs [R.DTU_PROBE_ADDR_HI, R.DTU_PROBE_RES_LO, R.DTU_PROBE_RES_HI, R.ERR_CAUSE 6] s (s.probeWrite v) := by
  unfold Block.probeWrite
  dsimp only
  have hhi := Block.OnlyRegs.setReg (.refl [R.DTU_PROBE_ADDR_HI, R.DTU_PROBE_RES_LO, R.DTU_PROBE_RES_HI, R.ERR_CAUSE 6] s)
    (a := R.DTU_PROBE_ADDR_HI) (by simp) (w32 (bits v 0 16))
  split
  · rw [Block.setRegs_cons, Block.setRegs_cons, Block.setRegs_nil]
    exact (hhi.setReg (by simp) _).setReg (by simp) _
  · exact hhi

theorem Block.OnlyUnit.of_onlyRegs (h : Block.OnlyRegs l s t) : Block.OnlyUnit u l s t := by
  have hchk : t.chk = s.chk := by rw [h.frame]
  refine ⟨h.frame.trans ?_, fun x _ => ?_, h.reg_eq⟩
  · rw [hchk]
  · rw [Block.chkU, Block.chkU, hchk]

theorem Block.chkU_modChk_ne {x : Nat} (f : ChkUnit → ChkUnit) (hx : x ≠ u) : (s.modChk u f).chkU x = s.chkU x := by
  rw [Block.chkU, Block.chkU, List.getD_eq_getElem?_getD, List.getD_eq_getElem?_getD, Block.modChk, getElem?_modAt, if_neg hx.symm]

theorem Block.OnlyUnit.modChk (h : Block.OnlyUnit u l s t) (f : ChkUnit → ChkUnit) : Block.OnlyUnit u l s (t.modChk u f) where
  frame := congrArg (fun b : Block => b.modChk u f) h.frame
  chkU_eq x hx := (Block.chkU_modChk_ne f hx).trans (h.chkU_eq x hx)
  reg_eq := h.reg_eq

theorem Block.OnlyChk.modChk (f : ChkUnit → ChkUnit) : Block.OnlyChk u s (s.modChk u f) :=
  ⟨rfl, fun _ hx => Block.chkU_modChk_ne f hx⟩

/-- A fed word enters an open unit, or is out of sequence: either way the unit alone changes. -/
theorem Block.OnlyChk.chkFeed (v : Word) : Block.OnlyChk u s (s.chkFeed u v) := by
  unfold Block.chkFeed
  dsimp only
  split
  · exact .modChk _
  · exact .modChk _

/-- CHK_FEED, served or not, on a unit the block has or has not. -/
theorem Block.OnlyChk.feed (v : Word) : Block.OnlyChk u s (if u < 8 then s.onStrobe fun s => s.chkFeed u v else s) := by
  unfold Block.onStrobe
  split_ifs
  · exact .chkFeed v
  · exact ⟨rfl, fun _ _ => rfl⟩
  · exact ⟨rfl, fun _ _ => rfl⟩

/-- The registers a parameter write reaches. -/
abbrev chkParamRegs (u : Nat) : List Nat := [R.CHK_PSEL u, R.CHK_PLO u, R.CHK_PHI u, R.ERR_CAUSE 0x29]

/-- A write of an RW register of a unit, whose effect changes that unit and its parameter registers alone, does no more. -/
theorem Block.OnlyUnit.rwWrite {a : Nat} {v : Word} {f : Block → Word → Block} (ha : pageOf a = 0x29)
    (hf : ∀ w, Block.OnlyUnit u (chkParamRegs u) s (f s w)) : Block.OnlyUnit u (chkParamRegs u) s (s.rwWrite a v f) := by
  rcases s.rwWrite_cases a v f with h | ⟨i, h⟩ | ⟨w, h⟩
  · rw [h]
    exact .of_onlyRegs (.refl _ s)
  · rw [h, ha]
    exact .of_onlyRegs (.errCause (.refl _ s) (by simp) i)
  · rw [h]
    exact hf w

theorem Block.OnlyUnit.chkPsel (hu : u < 8) (v : Word) : Block.OnlyUnit u (chkParamRegs u) s (s.chkPsel u v) := by
  have hpage : pageOf (R.CHK_PSEL u) = 0x29 := by
    have hlow : R.CHK_PSEL u < 0x1000000 := by unfold R.CHK_PSEL; omega
    rw [pageOf, if_pos hlow]
    unfold R.CHK_PSEL
    omega
  refine .rwWrite hpage fun w => .of_onlyRegs ?_
  exact (((Block.OnlyRegs.refl _ s).setReg (a := R.CHK_PSEL u) (by simp) _).setReg (a := R.CHK_PLO u) (by simp) _).setReg
    (a := R.CHK_PHI u) (by simp) _

theorem Block.OnlyUnit.chkPhi (hu : u < 8) (v : Word) : Block.OnlyUnit u (chkParamRegs u) s (s.chkPhi u v) := by
  have hpage : pageOf (R.CHK_PHI u) = 0x29 := by
    have hlow : R.CHK_PHI u < 0x1000000 := by unfold R.CHK_PHI; omega
    rw [pageOf, if_pos hlow]
    unfold R.CHK_PHI
    omega
  exact .rwWrite hpage fun w => .modChk (.of_onlyRegs (.setReg (.refl _ s) (by simp) _)) _

/-- CHK_PARAMETER_WRITE on a unit the block has, and on one it has not. -/
theorem Block.OnlyUnit.parameterWrite (phi : Bool) (v : Word) :
    Block.OnlyUnit u (chkParamRegs u) s (if u < 8 then (if phi then s.chkPhi u v else s.chkPsel u v) else s) := by
  split
  · next hu =>
    split
    · exact .chkPhi hu v
    · exact .chkPsel hu v
  · exact .of_onlyRegs (.refl _ s)

end

/-- Settles O52: by the registers and the unit each command reaches. -/
theorem dtuAndCheckUnitFrame : Obligations.DtuAndCheckUnitFrame := by
  refine ⟨fun s t v hst => ?go, fun s t v hst => ?probe, fun s t u v hst => ?feed, fun s t u phi v hst => ?param⟩
  case go =>
    obtain rfl := Host.Outcome.next.inj hst
    obtain ⟨hframe, htlb, hreg⟩ := Block.OnlyInv.onStrobe (f := fun b => b.invGo v) (Block.OnlyInv.invGo (s := s.toBlock) v)
    exact ⟨congrArg (fun b : Block => ({ s with toBlock := b } : State)) hframe, htlb, hreg⟩
  case probe =>
    exact Block.OnlyRegs.of_does (f := fun b => b.onWrite 6 fun b => b.probeWrite v) hst (.onWrite (by simp) (Block.probeWrite_onlyRegs v))
  case feed =>
    obtain rfl := Host.Outcome.next.inj hst
    obtain ⟨hframe, hunits⟩ := Block.OnlyChk.feed (s := s.toBlock) (u := u) v
    exact ⟨congrArg (fun b : Block => ({ s with toBlock := b } : State)) hframe, hunits⟩
  case param =>
    obtain rfl := Host.Outcome.next.inj hst
    obtain ⟨hframe, hunits, hreg⟩ := Block.OnlyUnit.parameterWrite (s := s.toBlock) (u := u) phi v
    exact ⟨congrArg (fun b : Block => ({ s with toBlock := b } : State)) hframe, hunits, hreg⟩

end Sys2Proof.Machine

namespace Sys2Proof.Machine

/-! The Skidder (R178 to R193). -/

section
variable {s : Block}

/-- A TAIL beyond the ring only sets TAIL_ERR, and names its channel (R193). -/
theorem Block.skdTailWrite_beyond {c : Nat} {v : Word} (h : s.skdEntries c < (bits v 0 16 + 65536 - (s.skd c).head) % 65536) :
    s.skdTailWrite c v = (s.setFld R.SKD_STATUS 1 1 1).setFld R.SKD_STATUS 4 4 c := if_pos h

/-- A TAIL within the ring is taken, and what it submits. -/
theorem Block.skdTailWrite_within {c : Nat} {v : Word} (h : ¬ s.skdEntries c < (bits v 0 16 + 65536 - (s.skd c).head) % 65536) :
    s.skdTailWrite c v = (let t := bits v 0 16
      let more := (t + 65536 - s.skdTail c) % 65536
      let u : Block := { s.setReg (R.SKD_CH_TAIL c) (w32 t) with sk := { s.sk with stamp := s.sk.stamp + more } }
      let u := u.modSkd c fun k =>
        { k with submitted := k.submitted + w32 more, stamps := k.stamps ++ (List.range more).map fun i => s.sk.stamp + i }
      if (u.skd c).st == .idle && (t + 65536 - (s.skd c).head) % 65536 != 0 then u.modSkd c fun k => { k with st := .queued } else u) :=
  if_neg h

/-- A write of a TAIL, to a channel the device has and a page that is not locked. -/
theorem does_skdTailWrite {c : Nat} (q : List Instr) (v : Word) (hc : c < 16) (h : s.hostOk = true)
    (hl : bit (s.reg (R.PAGE_LOCK 5)) 0 = false) : exec (.skdChTailWrite c v) ⟨s, q⟩ = .next ⟨s.skdTailWrite c v, q⟩ := by
  refine does_of_eq q ?_
  rw [if_pos hc, Block.onWrite_unlocked h hl]

/-- A mover that is free and the device has. -/
theorem skdStart_free {m : Nat} (hm : m < 4) (hfree : s.sk.run.getD m none = none) :
    ¬ ((s.sk.run.getD m none).isSome || decide (4 ≤ m)) = true := by
  rw [hfree, Option.isSome_none, Bool.false_or, decide_eq_true_eq]
  omega

/-- A saved descriptor goes on from its offset (R179). -/
theorem Block.skdStart_saved {m c : Nat} (host : Bytes) (hm : m < 4) (hfree : s.sk.run.getD m none = none) (hnext : s.skdNext m = some c)
    (hdesc : (s.skd c).desc.isSome = true) :
    s.skdStart m host = (let t := (s.skdServe m c).modSkd c fun k => { k with st := .active }
      { t with sk := { t.sk with run := setAt t.sk.run m (some c) } }) := by
  rw [Block.skdStart, if_neg (skdStart_free hm hfree), hnext]
  exact if_pos hdesc

/-- A channel without one fetches its next descriptor (R178, R183). -/
theorem Block.skdStart_fetched {m c : Nat} {host : Bytes} {t : Block} {bs : List Byte} (hm : m < 4)
    (hfree : s.sk.run.getD m none = none) (hnext : s.skdNext m = some c) (hdesc : (s.skd c).desc.isSome = false)
    (hfetch : (s.skdServe m c).skdFetch c host = (t, .ok bs)) : s.skdStart m host = t.skdAccept m c (parseDesc bs) := by
  have hunsaved : ¬ ((s.skdServe m c).skd c).desc.isSome = true := Bool.eq_false_iff.mp hdesc
  rw [Block.skdStart, if_neg (skdStart_free hm hfree), hnext]
  dsimp only
  rw [if_neg hunsaved, hfetch]
end

/-- Settles O43: TAIL_ERR lies below the field that names the channel. -/
theorem skidderTailBeyondTheRingIsIgnored : Obligations.SkidderTailBeyondTheRingIsIgnored := by
  intro s q c v hc h hl hbeyond
  have hother : ∀ a, a ≠ R.SKD_STATUS → ((s.setFld R.SKD_STATUS 1 1 1).setFld R.SKD_STATUS 4 4 c).reg a = s.reg a := fun a ha => by
    rw [Block.reg_setFld, if_neg ha, Block.reg_setFld, if_neg ha]
  refine ⟨_, (does_skdTailWrite q v hc h hl).trans (by rw [Block.skdTailWrite_beyond hbeyond]), rfl, ?_,
    fun d => hother _ ?_, fun d => rfl, hother⟩
  · rw [Block.reg_setFld, if_pos rfl, bit_setBits_below _ _ (by decide) (by decide), Block.reg_setFld, if_pos rfl,
      bit_setBits_same _ _ (by decide)]
    rfl
  · show 0x5108 + 0x10 * d ≠ 0x5044
    omega

/-- Settles O14: a clause's hypotheses are the tests its command makes. -/
theorem skidderCommandsRun : Obligations.SkidderCommandsRun := by
  refine ⟨?tail, ?enable, ?saved, ?fetched, ?done, ?preempt, ?fault, ?timeout, ?resume, ?skip, ?abort, ?resync, ?capture⟩
  case tail =>
    intro s q c v hc h hl hwithin
    rw [does_skdTailWrite q v hc h hl, Block.skdTailWrite_within hwithin]
  case enable =>
    intro s q c v host r hc h hrow hl hlegal _
    refine does_of_eq q ?_
    rw [if_pos hc, Block.rwWrite_legal h hrow hl hlegal]
  case saved =>
    intro s q m host c hm hfree hnext hdesc
    exact does_of_eq q (Block.skdStart_saved host hm hfree hnext hdesc)
  case fetched =>
    intro s q m host c t bs hm hfree hnext hdesc hfetch
    exact does_of_eq q (Block.skdStart_fetched hm hfree hnext hdesc hfetch)
  case done =>
    intro s q m host others c d t hrun hdesc hmove
    change execSkdDescDone m host others ⟨s, q⟩ = _
    simp only [execSkdDescDone, State.does_next, hrun, hdesc, hmove]
  case preempt =>
    intro s q m upto host hostDesc c h d t hrun hnext hdesc hprio hrest hmove
    have hgoes : ¬ (decide (s.skdPrio h ≤ s.skdPrio c) || decide (d.length ≤ cdiv (max upto (s.skd c).offset) 4096 * 4096)) = true := by
      simp [hprio, hrest]
    change execSkdPreempt m upto host hostDesc ⟨s, q⟩ = _
    simp only [execSkdPreempt, State.does_next, hrun, hnext, hdesc]
    rw [if_neg hgoes, hmove]
  case fault => exact fun s q m upto detail dst host c _ => rfl
  case timeout => exact fun s q m upto dst host c _ => rfl
  case resume =>
    intro s q c h hst hkind
    refine (does_onStrobe q h _).trans ?_
    rw [Block.skdResume, if_pos (by simp [hst, hkind])]
  case skip =>
    intro s q c h hst
    refine (does_onStrobe q h _).trans ?_
    rw [Block.skdSkip, if_pos (by simp [hst])]
  case abort =>
    intro s q c host h hst
    refine (does_onStrobe q h _).trans ?_
    rw [Block.skdOpAbort, if_neg (by simp [hst])]
  case resync =>
    intro s q c h hst
    refine (does_onStrobe q h _).trans ?_
    rw [Block.skdResync, if_pos (by simpa using hst)]
  case capture => exact fun s q v h hl => does_onWrite q h hl _

end Sys2Proof.Machine

namespace Sys2Proof.Machine

/-! The host link (R164 to R177, R661, R662). -/

/-- Settles O6: a clause's hypotheses are the tests its command makes. -/
theorem hostLinkCommandsRun : Obligations.HostLinkCommandsRun := by
  refine ⟨?link, ?offer, ?dsc, ?flr, ?power, ?entry, ?update, ?usb, ?summary, ?refclkFails, ?refclkBack, ?xtalFails, ?xtalBack⟩
  case link => exact fun s q l => rfl
  case offer =>
    intro s q code a hnone hlast hdsc
    have hoffer : ¬ (code = 0 ∨ 9 < code) := not_or.mpr ⟨hnone, hlast⟩
    exact does_of_eq q ((if_neg hoffer).trans (if_neg hdsc))
  case dsc => exact fun s q a => rfl
  case flr => exact fun s q => rfl
  case power => exact fun s q d3 cfg => rfl
  case entry =>
    intro s q a ha hstream hcaps
    have henters : ¬ (2 ≤ a ∨ s.fld (R.HOST_DP_STATUS a) 0 3 ≠ 3 ∨ bit (s.dpCaps a) 9 = false) := by simp [ha, hstream, hcaps]
    change execPanelReplayEntry a ⟨s, q⟩ = _
    rw [execPanelReplayEntry, State.does_next, if_neg henters]
  case update =>
    intro s q a ha hin
    have hupdates : ¬ (2 ≤ a ∨ s.hs.prIn.getD a false = false) := by rw [hin]; simp [ha]
    exact does_of_eq q (if_neg hupdates)
  case usb =>
    intro s q r h
    have hserved : ¬ (!(s.setFld R.HOST_STATUS 2 1 0).hostOk && (s.pw.state != .boot || s.pw.heldReset || s.bootSource != 1)) = true := by
      rw [h]
      exact Bool.false_ne_true
    exact does_of_eq q (if_neg hserved)
  case summary =>
    intro s q hchange hframe
    exact does_of_eq q (if_neg (not_or.mpr ⟨hchange, hframe⟩))
  case refclkFails =>
    intro s q hhold
    change execRefclkFailure ⟨s, q⟩ = _
    rw [execRefclkFailure, State.does_next, if_pos hhold]
  case refclkBack => exact fun s q src => rfl
  case xtalFails =>
    intro s q hhold
    change execXtal25Fault ⟨s, q⟩ = _
    rw [execXtal25Fault, State.does_next, if_pos hhold]
  case xtalBack => exact fun s q src => rfl

/-! Surfaces and ingest (R170 to R173, R204 to R226). -/

section
variable {s : Block}

/-- A start of active video that is no half of a frame already begun, while no frame of the source is in hand, begins one (R216). -/
theorem Block.dpStart_begins {a : Nat} {t : Block} (ht : (if a = 0 then s.joinStart else s) = t) (htaken : t.streamRefused a = false)
    (halone : (t.dpTake a).pairs a = false) (hfree : ((t.dpTake a).src (t.dpSource a)).writing = none) :
    s.dpStart a = (let n := t.dpSource a
      let u := (t.dpTake a).beginFrame n ((t.dpTake a).streamFits a n)
      if (u.src n).writing.isSome then u.modSrc n fun k => { k with halves := 2 ^ (2 + a) } else u) := by
  rw [Block.dpStart, ht]
  simp only [htaken, halone, hfree, Option.isSome_none, Bool.false_eq_true, if_false]

/-- A content unit of a known stream, of a picture still in hand, whose size and format the set's record has (R219). -/
theorem Block.content_fits {data : Bytes} {pix : Pixels} {f : Nat} (hstream : s.streamOf (field data 0 2) (w32 (field data 4 4)) = some f)
    (hkind : field data 2 1 < 2) (hhand : ((s.src (2 + f)).gone == some (w32 (field data 4 4))) = false)
    (hwidth : field data 16 2 = (s.surf ((s.unitSet f (w32 (field data 4 4))).headD 0)).width)
    (hheight : field data 18 2 = (s.surf ((s.unitSet f (w32 (field data 4 4))).headD 0)).height)
    (hformat : field data 3 1 = (s.surf ((s.unitSet f (w32 (field data 4 4))).headD 0)).format) :
    s.content data pix = s.contentPart f data pix := by
  have hpart : ¬ field data 2 1 = 2 := by omega
  have htaken : ¬ (decide (2 < field data 2 1) || (s.src (2 + f)).gone == some (w32 (field data 4 4))) = true := by
    rw [hhand, Bool.or_false, decide_eq_true_eq]
    omega
  rw [Block.content, hstream]
  dsimp only
  rw [if_neg hpart, if_neg htaken, if_pos ⟨hwidth, hheight, hformat⟩]
end

/-- Settles O16: a clause's hypotheses are the tests its command makes. -/
theorem surfaceAndIngestCommandsRun : Obligations.SurfaceAndIngestCommandsRun := by
  refine ⟨?define, ?opens, ?close, ?select, ?overrun, ?dpStart, ?dpSeal, ?dpAbandon, ?timing, ?pps, ?unit, ?late, ?nvme, ?lastRead, ?retry,
    ?push⟩
  case define =>
    intro s q i h hreason
    refine (does_onStrobe q h _).trans ?_
    rw [Block.surfDefine, hreason]
    rfl
  case opens =>
    intro s q i h hreason
    refine (does_onStrobe q h _).trans ?_
    rw [Block.surfOpen, hreason]
    rfl
  case close =>
    intro s q i h hreason
    refine (does_onStrobe q h _).trans ?_
    rw [Block.surfClose, hreason]
    rfl
  case select => exact fun s q v h hl => does_onWrite q h hl _
  case overrun =>
    intro s q n i hwriting hcmp
    change execCmpOver n ⟨s, q⟩ = _
    simp only [execCmpOver, State.does_next, hwriting, hcmp, if_true]
  case dpStart =>
    intro s t q a ht htaken halone hfree
    exact does_of_eq (f := fun s => s.dpStart (a % 2)) q (Block.dpStart_begins ht htaken halone hfree)
  case dpSeal => exact fun s q a pix bad vsc i _ _ => rfl
  case dpAbandon => exact fun s q a i _ => rfl
  case timing => exact fun s q a t => rfl
  case pps => exact fun s q a => rfl
  case unit =>
    intro s q data pix f hstream hkind hhand hwidth hheight hformat
    exact does_of_eq (f := fun s => s.content data pix) q (Block.content_fits hstream hkind hhand hwidth hheight hformat)
  case late =>
    intro s q f hf
    exact does_of_eq q (if_pos hf)
  case nvme =>
    intro s q linkUp id h hl hoff
    refine (does_onWrite q h hl _).trans ?_
    rw [hoff]
    rfl
  case lastRead =>
    intro s q data pix r hreads
    change execNvmeReadDone 0 data pix ⟨s, q⟩ = _
    simp only [execNvmeReadDone, State.does_next, hreads]
    rfl
  case retry =>
    intro s q status data pix r l hreads hfailed hfirst
    change execNvmeReadDone status data pix ⟨s, q⟩ = _
    simp only [execNvmeReadDone, State.does_next, hreads, hfailed, hfirst, Bool.false_eq_true, if_false]
  case push =>
    intro s q v h hroom
    refine (does_onStrobe q h _).trans ?_
    rw [Block.hfcPush, if_pos hroom]

end Sys2Proof.Machine

namespace Sys2Proof.Machine

/-! The pixel pipeline (R241, R246, R285, R360). -/

section
variable {s : Block}

/-- PLAN_GO starts a planner that is idle, and makes its plan valid (R241). -/
theorem Block.planGo_idle {v : Word} (hgo : bit v 0 = true) (hidle : s.pp.planBusy = false) :
    s.planGo v = { s with pp := { s.pp with planBusy := true, planValid := true, planSince := s.now } } :=
  if_pos (by rw [hgo, hidle]; rfl)

/-- While the mesh's copy runs, it is the one that ends, whether or not the LUT's runs (R246). -/
theorem Block.syncDone_mesh (hmesh : s.pp.mesh.sync = true) :
    s.syncDone = ({ s with pp := { s.pp with mesh := s.pp.mesh.copied } } : Block).post 0x0A 0x052
      [0, w32 (s.pp.mesh.copyPages 4194304)] := if_pos hmesh

/-- The LUT's copy ends where the mesh's is over (R246). -/
theorem Block.syncDone_lut (hmesh : s.pp.mesh.sync = false) (hlut : s.pp.lut.sync = true) :
    s.syncDone = ({ s with pp := { s.pp with lut := s.pp.lut.copied } } : Block).post 0x0B 0x052
      [1, w32 (s.pp.lut.copyPages 287496)] :=
  (if_neg (ne_true_of_eq_false hmesh)).trans (if_pos hlut)
end

/-- Settles O17: a clause's hypotheses are the tests its command makes. -/
theorem warpAndCheckCommandsRun : Obligations.WarpAndCheckCommandsRun := by
  refine ⟨?planGo, ?planDone, ?meshCopied, ?lutCopied, ?sealed, ?seqCheck, ?piCheck⟩
  case planGo =>
    intro s q v h hgo hidle
    exact (does_onStrobe q h _).trans (by rw [Block.planGo_idle hgo hidle])
  case planDone => exact fun s q _ => rfl
  case meshCopied => exact fun s q hmesh => does_of_eq q (Block.syncDone_mesh hmesh)
  case lutCopied => exact fun s q hmesh hlut => does_of_eq q (Block.syncDone_lut hmesh hlut)
  case sealed => exact fun s q p ps f _ _ => rfl
  case seqCheck =>
    intro s q v h hgo
    refine (does_onStrobe q h _).trans ?_
    rw [if_pos hgo]
  case piCheck => exact fun s q h hl => does_onWrite q h hl Block.piCheck

end Sys2Proof.Machine

namespace Sys2Proof.Machine

/-! A mirror port's link and backchannel (R294 to R315). -/

section
variable {s : Block} {p : Nat}

/-- LINK_STATUS that reports lock, on a port that trains and is not LOCKED yet (R312, R313). -/
theorem Block.linkStatus_locks {lane skew : Nat} {order : Bool} (hst : (s.port p).st = 3) (hlink : (s.port p).linkState ≠ 2) :
    s.linkStatus p 2 lane skew order = (s.modPort p fun k => { k with lane := lane, skew := skew }).lockPort p skew := by
  have htrains : ¬ ((s.port p).st = 0 ∨ (s.port p).st = 1 ∨ (s.port p).st = 2 ∨ (s.port p).st = 7 ∨ (s.port p).st = 8) := by omega
  rw [Block.linkStatus, if_neg htrains, if_pos rfl, if_neg hlink]

/-- MA_CTRL is taken where the host reaches it and the port is neither RUNNING nor DARK (R315). -/
theorem Block.maCtrl_taken (h : s.hostOk = true) (hrunning : (s.port p).st ≠ 5) (hdark : (s.port p).st ≠ 6) (f : Block → Block) :
    s.maCtrl p f = f s := by
  rw [Block.maCtrl, h, if_neg (by decide), if_neg (not_or.mpr ⟨hrunning, hdark⟩)]

theorem Block.arrayReset_taken (h : s.hostOk = true) (hrunning : (s.port p).st ≠ 5) (hdark : (s.port p).st ≠ 6) (hen : maEn s.act p = true) :
    s.arrayReset p = ((s.stopPort p).advance 10000).startPort p := (Block.maCtrl_taken h hrunning hdark _).trans (if_pos hen)

theorem Block.maRetrain_ready (h : s.hostOk = true) (hst : (s.port p).st = 4) : s.maRetrain p = (s.trainPort p 1).portGoto p 3 :=
  (Block.maCtrl_taken h (by omega) (by omega) _).trans (if_pos hst)

theorem Block.maIdentReq_ready (h : s.hostOk = true) (hst : (s.port p).st = 4) :
    s.maIdentReq p = (s.modPort p fun k => { k with identReq := true }).smlFree p 6 [] :=
  (Block.maCtrl_taken h (by omega) (by omega) _).trans (if_neg (by omega))

/-- A PLANE_ACK still due 100 us after its data is given up and counted (R296). -/
theorem Block.ackMissing_due {slot : Nat} {l : PlaneLoad}
    (h : ((s.port p).acks.find? fun l => l.slot == slot && decide (l.endFt + 100000 ≤ s.tm.ft)) = some l) :
    s.ackMissing p slot = ((s.modPort p fun k => { k with acks := k.acks.erase l }).bump (R.MA_ACK_MISSING p)).maEvt p 0x095
      [w32 (p + 256 * slot), l.fsn] := by
  rw [Block.ackMissing, h]

/-- ARRAY_STATUS of a severity below STOP is recorded and reported, and leaves the port where it is (R297). -/
theorem Block.arrayStatus_reported {code sev : Nat} {detail : Word} (hsev : sev < 2) (hst : (s.port p).st ≠ 0) :
    s.arrayStatus p code sev detail =
      (s.setReg (R.MA_ARRAY_STATUS p) (w32 (code % 65536 + 65536 * (sev % 4)))).maEvt p 0x097 [w32 (p + 256 * sev + 65536 * code), detail] := by
  rw [Block.arrayStatus, if_neg hst, if_neg (Nat.ne_of_lt hsev)]
end

/-- Settles O18: a clause's hypotheses are the tests its command makes. -/
theorem mirrorPortCommandsRun : Obligations.MirrorPortCommandsRun := by
  refine ⟨?ident, ?locks, ?attempt, ?darkTraining, ?reset, ?retrain, ?identReq, ?ack, ?missing, ?temp, ?status, ?echo, ?bad, ?lost, ?lostLong,
    ?regained⟩
  case ident => exact fun s q p d hp _ _ => does_of_eq q (if_pos hp)
  case locks =>
    intro s q p lane skew order hp hst hlink
    exact does_of_eq q ((if_pos ⟨hp, by decide⟩).trans (Block.linkStatus_locks hst hlink))
  case attempt =>
    intro s q p hp _ _ _
    change execTrainingAttemptTimeout p ⟨s, q⟩ = _
    rw [execTrainingAttemptTimeout, State.does_next, if_pos hp]
  case darkTraining => exact fun s q p hp hst hlink hover => does_of_eq q (if_pos ⟨hp, hst, hlink, hover⟩)
  case reset =>
    intro s q p hp h hrunning hdark hen
    exact does_of_eq q ((if_pos hp).trans (Block.arrayReset_taken h hrunning hdark hen))
  case retrain => exact fun s q p hp h hst => does_of_eq q ((if_pos hp).trans (Block.maRetrain_ready h hst))
  case identReq => exact fun s q p hp h hst => does_of_eq q ((if_pos hp).trans (Block.maIdentReq_ready h hst))
  case ack => exact fun s q p slot plane status fsn arrDiff tapDiff l hp _ => does_of_eq q (if_pos hp)
  case missing => exact fun s q p slot l hp hdue => does_of_eq q ((if_pos hp).trans (Block.ackMissing_due hdue))
  case temp => exact fun s q p temp hp => does_of_eq q (if_pos hp)
  case status =>
    intro s q p code sev detail hp hcode hsev hst
    exact does_of_eq q ((if_pos ⟨hp, hcode, by omega⟩).trans (Block.arrayStatus_reported hsev hst))
  case echo => exact fun s q p token => rfl
  case bad => exact fun s q p hp => does_of_eq q (if_pos hp)
  case lost => exact fun s q p hp hlock => does_of_eq q (if_pos ⟨hp, hlock⟩)
  case lostLong =>
    intro s q p t hp hlost hover
    change execBcLostLong p ⟨s, q⟩ = _
    simp only [execBcLostLong, State.does_next, hlost, hp, hover, and_self, if_true]
  case regained => exact fun s q p hp hlost => does_of_eq q (if_pos ⟨hp, hlost⟩)

end Sys2Proof.Machine

namespace Sys2Proof.Machine

/-! The highlight scanner (R319 to R353). -/

section
variable {s : Block}

/-- Table 10.3's sequence begins where the fast axis is enabled and OFF (R321). -/
theorem Block.fastAxisStart_off (hon : s.hsfOn = true) (hst : s.sc.st = 0) :
    s.fastAxisStart = (s.modSc fun c => { c with attempts := 0 }).sweep := by
  rw [Block.fastAxisStart, hon, hst]
  rfl

/-- The first lock failure sweeps once more (R321, R324). -/
theorem Block.lockFail_again (stage : Nat) (h : s.sc.attempts < 2) : s.lockFail stage = s.sweep := if_pos h

/-- The second ends in FAULT, with its record (R324). -/
theorem Block.lockFail_faults (stage : Nat) (h : s.sc.attempts = 2) :
    s.lockFail stage = ((s.modSc fun c => { c with phaseValid := false }).hsfGoto 7).faultEv 0x12 0x0C6 2 [w32 stage] .clear
      (pageInst 0x12) := if_neg (h ▸ Nat.lt_irrefl 2)

/-- A cause met on a beam that is not cut is cleared from those met, and its cut recorded (R350, R351). -/
theorem Block.cutMet_uncut {cause : Nat} (hdue : natBit s.sc.cutDue cause = true) (huncut : s.sc.cut = false) :
    s.cutMet cause = (s.modSc fun c => { c with cutDue := c.cutDue - 2 ^ cause }).recordCut cause :=
  (if_pos hdue).trans (if_neg (ne_true_of_eq_false huncut))

/-- A crossing in LOCKED is counted among the lines (R319). -/
theorem Block.crossing_locked {a b : Nat} {err : Int} (hst : s.sc.st = 5) (herr : s.crossErr a b = some err) :
    s.crossing a b = (s.modSc fun c =>
      { c with angle := c.angleAtTime s.now, angleAt := s.now, angleErr := err,
               okCross := if err.natAbs ≤ s.afld R.HSF_LOCK_CFG 8 8 then c.okCross + 1 else 0 }).bump R.HSF_LINES := by
  rw [Block.crossing, herr]
  exact if_pos hst

/-- The FB from which slot times count stays where it is while time passes. -/
theorem Block.advance_fbNow (s : Block) (ns : Nat) : (s.advance ns).tm.fbNow = s.tm.fbNow := by
  rw [Block.advance]
  split
  · rfl
  · dsimp only
    rw [Block.secPulse_tm, Block.countCycles_tm]

/-- The row in hand is drawn where its line ends within the drawing window; its end counts from the frame's FB (R341). -/
theorem Block.rowDrawn_within (hst : s.sc.hst = 5) (hline : s.sc.line = true) (hwithin : (s.lineFrom s.sc.lineAt).2 ≤ s.windowEnds) :
    s.rowDrawn = ((((s.toLocal (s.lineFrom s.sc.lineAt).2).beamOff.bump R.HSS_ROWS_DRAWN).postTally 0x0CC (pageInst 0x13)).modSc
      fun c => { c with drawnEnd := (s.lineFrom s.sc.lineAt).2 - s.tm.fbNow }).nextRow := by
  have hdrawn : ¬ (s.sc.hst ≠ 5 || !s.sc.line || decide (s.windowEnds < (s.lineFrom s.sc.lineAt).2)) = true := by
    simp [hst, hline, hwithin]
  have hfb : (((s.toLocal (s.lineFrom s.sc.lineAt).2).beamOff.bump R.HSS_ROWS_DRAWN).postTally 0x0CC (pageInst 0x13)).tm.fbNow =
      s.tm.fbNow := s.advance_fbNow _
  rw [← hfb]
  exact if_neg hdrawn
end

/-- Settles O22: a clause's hypotheses are the tests its command makes. -/
theorem scannerCommandsRun : Obligations.ScannerCommandsRun := by
  refine ⟨?enable, ?resonance, ?timeout, ?fails, ?locked, ?cut, ?phaseLoss, ?angleLoss, ?relock, ?crossing, ?target, ?arrival, ?drawn,
    ?redrawn, ?windowEnd, ?bucket, ?dac⟩
  case enable => exact fun s q hon hst => does_of_eq q (Block.fastAxisStart_off hon hst)
  case resonance =>
    intro s q freq a b t hst hspan hlow hhigh hsweeps
    change execResonanceFound freq ⟨s, q⟩ = _
    simp only [execResonanceFound, State.does_next, hspan, hst, hlow, hhigh, hsweeps, and_self, if_true]
  case timeout =>
    intro s q hst hover houtside hagain
    have hswept : ¬ (s.sc.st = 1 ∧ s.sc.enAt + s.afld R.HSF_SWEEP_CFG 0 12 * 1000000 ≤ s.now) := fun ⟨hsweeping, _⟩ => by omega
    exact does_of_eq q ((if_neg hswept).trans ((if_pos ⟨hst, hover, houtside⟩).trans (Block.lockFail_again 1 hagain)))
  case fails =>
    intro s q hst hover hlast
    exact does_of_eq q ((if_pos ⟨.inl hst, hover⟩).trans (Block.lockFail_faults 2 hlast))
  case locked =>
    intro s q hmet hst
    have hcriterion : ¬ (!s.lockMet) = true := by simp [hmet]
    exact does_of_eq q ((if_neg hcriterion).trans (if_pos (.inl hst)))
  case cut => exact fun s q cause hdue huncut => does_of_eq q (Block.cutMet_uncut hdue huncut)
  case phaseLoss => exact fun s q hst hbad => does_of_eq q (if_pos ⟨hst, .inl ⟨rfl, hbad⟩⟩)
  case angleLoss => exact fun s q hst hangle => does_of_eq q (if_pos ⟨hst, .inr (.inl ⟨rfl, hangle⟩)⟩)
  case relock =>
    intro s q e hst hover hrec
    change execRelockTimeout ⟨s, q⟩ = _
    rw [execRelockTimeout, State.does_next, if_pos ⟨hst, hover⟩, hrec]
  case crossing => exact fun s q a b err hst herr => does_of_eq (f := fun s => s.crossing a b) q (Block.crossing_locked hst herr)
  case target => exact fun s q _ _ _ => rfl
  case arrival => exact fun s q _ => rfl
  case drawn => exact fun s q hst hline hwithin => does_of_eq q (Block.rowDrawn_within hst hline hwithin)
  case redrawn =>
    intro s q hst hline hfirst
    exact does_of_eq q ((if_pos ⟨hst, hline⟩).trans (if_neg (ne_true_of_eq_false hfirst)))
  case windowEnd => exact fun s q hopen => does_of_eq q (if_neg (ne_true_of_eq_false hopen))
  case bucket => exact fun s q => rfl
  case dac => exact fun s q => rfl

end Sys2Proof.Machine

namespace Sys2Proof.Machine

/-! The laser members (R364, R381 to R390). -/

section
variable {s : Block} {m : Nat}

/-- A COLD spare that is called becomes HOT (R364). -/
theorem execColdSpareHot_called (q : List Instr) (hcalled : (s.member m).hotAt.isSome = true) (hcold : (s.member m).st = 2) :
    execColdSpareHot m ⟨s, q⟩ = .next ⟨s.spareHot m, q⟩ :=
  does_of_eq q (if_pos (by rw [hcalled, hcold]; rfl))

/-- A probe that is needed falls due, where it is not due already (R384). -/
theorem execProbeDue_needed (q : List Instr) (hneeded : s.probeNeeded m = true) (hnew : (s.member m).probeDue = false) :
    execProbeDue m ⟨s, q⟩ = .next ⟨s.modMember m fun k => { k with probeDue := true, dueAt := s.now, starved := false }, q⟩ :=
  does_of_eq q (if_pos (by rw [hneeded, hnew]; rfl))

/-- A probe due for 1 s is reported as starved, once (R386). -/
theorem execProbeStarved_overdue (q : List Instr) (hdue : (s.member m).probeDue = true)
    (hover : (s.member m).dueAt + 1000000000 ≤ s.now) (hfirst : (s.member m).starved = false) :
    execProbeStarved m ⟨s, q⟩ = .next ⟨(s.modMember m fun k => { k with starved := true }).faultEv (memPage m) 0x102 1
      [w32 (m + 131072), s.tm.fsn, 0] .auto (pageInst (memPage m)), q⟩ :=
  does_of_eq q (if_pos (by rw [hdue, hfirst, decide_eq_true hover]; rfl))
end

/-- Settles O20: a clause's hypotheses are the tests its command makes; a trip and a probe's run make theirs in the operation named. -/
theorem laserMemberCommandsRun : Obligations.LaserMemberCommandsRun := by
  refine ⟨?trip, ?fault, ?hot, ?takeover, ?due, ?run, ?starved⟩
  case trip => exact fun s q n _ _ => rfl
  case fault => exact fun s q n hn hen => does_of_eq q (if_pos (by rw [hen, decide_eq_true hn]; rfl))
  case hot => exact fun s q m hcalled hcold => execColdSpareHot_called q hcalled hcold
  case takeover => exact fun s q g hg _ => does_of_eq q (if_pos hg)
  case due => exact fun s q m hneeded hnew => execProbeDue_needed q hneeded hnew
  case run => exact fun s q g res hg _ _ _ => does_of_eq q (if_pos hg)
  case starved => exact fun s q m hdue hover hfirst => execProbeStarved_overdue q hdue hover hfirst

/-! The wheel's loops and the chains (R375 to R413). -/

section
variable {s : Block}

/-- A string's slot that is enabled, and over before the FB cuts the turn short, samples its string (R57, R394). -/
theorem Block.loopSample_string {slot : Nat} (y v : Nat) (hrunning : s.pw.state.running = true) (hturns : s.cp.halted = false)
    (hen : s.slotEnabled slot = true) (hfits : s.beforeFb (s.sampleAt slot) = true) (hslot : slot < 48) :
    s.loopSample slot y v = ({ s.toLocal (s.sampleAt slot) with cp := { s.cp with sampled := s.sampleAt slot } } : Block).cutsMet.stringSample
      slot y v := by
  have hsamples : ¬ (!s.pw.state.running || s.cp.halted || !s.slotEnabled slot || !s.beforeFb (s.sampleAt slot)) = true := by
    simp [hrunning, hturns, hen, hfits]
  exact (if_neg hsamples).trans (if_pos hslot)

/-- A model group whose ceiling is 5 ms old has lost it (R403). -/
theorem Block.ceilingLost_stale {g t : Nat} {m : ModelGroup} (hgroup : s.th.mg[g]? = some m) (hlast : m.last = some t)
    (hstale : t + 5000000 ≤ s.now) :
    s.ceilingLost g = (({ s with th := { s.th with mg := modAt s.th.mg g fun k => { k with last := none, lost := true } } } : Block).postI
      0x2B 0x20D 4 (pageInst 0x2B) false [w32 g, s.tm.fsn]).raise 0x19 0x20D 3 (w32 g) .clear := by
  simp only [Block.ceilingLost, hgroup, hlast, hstale, if_true]
end

/-- Settles O21: a clause's hypotheses are the tests its command makes; a chain makes its own in the operation named. -/
theorem loopAndChainCommandsRun : Obligations.LoopAndChainCommandsRun := by
  refine ⟨?sample, ?scrub, ?wheel, ?ceiling, ?load, ?shift⟩
  case sample =>
    intro s q slot y v hrunning hturns hen hfits hslot
    exact does_of_eq (f := fun s => s.loopSample slot y v) q (Block.loopSample_string y v hrunning hturns hen hfits hslot)
  case scrub => exact fun s q errs => rfl
  case wheel =>
    intro s q kind last hsv hkind
    exact does_of_eq q (if_pos (by rw [hsv, decide_eq_true hkind]; rfl))
  case ceiling =>
    intro s q g t m hgroup hlast hstale
    exact does_of_eq (f := fun s => s.ceilingLost g) q (Block.ceilingLost_stale hgroup hlast hstale)
  case load =>
    intro s q c hc _ _ _
    change execChainTableLoad c ⟨s, q⟩ = _
    rw [execChainTableLoad, State.does_next, if_pos hc]
  case shift => exact fun s q c ret hc _ _ => does_of_eq q (if_pos hc)

end Sys2Proof.Machine

namespace Sys2Proof.Machine

/-! The photodiodes' windows (R416 to R422). -/

section
variable {s t : Block} {j : Nat}

theorem Block.pd_modPd_same (f : PdState → PdState) (hj : j < s.co.pd.length) : (s.modPd j f).pd j = f (s.pd j) := by
  rw [Block.pd, Block.pd, List.getD_eq_getElem?_getD, List.getD_eq_getElem?_getD, Block.modPd, getElem?_modAt, if_pos rfl,
    List.getElem?_eq_getElem hj]
  rfl

/-- An offset window that is measured closes on its mean (R419). -/
theorem execOffsetWindowClose_measured {r : Nat} (q : List Instr) (code sat : Nat) (hj : j < 8) (hr : r < 4) (hen : s.pdEn j = true)
    (hrunning : s.pw.state.running = true) (hat : s.offsetAt j r = some t) :
    execOffsetWindowClose j r code sat ⟨s, q⟩ = .next ⟨t.offsetClose j r code sat, q⟩ :=
  does_of_eq q ((if_pos ⟨hj, hr, hen, hrunning⟩).trans (by rw [hat]))

/-- A mean from 0xFF00 on holds a saturated sample and gives no ambient, with no saturated sample counted too (R418, R419). -/
theorem Block.offsetClose_saturated {code : Nat} (r : Nat) (hcode : 0xFF00 ≤ code) : s.offsetClose j r code 0 = s :=
  if_pos (.inr hcode)
end

/-- The block LIT in a dark interval of 40 us with photodiode 7 on: its ambient is 1 pA, and the measured offset of each of its
ranges is the least saturated code. -/
def offsetAtLimit : Block :=
  let b : Block := { Block.reset with pw := { Block.reset.pw with state := .lit }, tm := { Block.reset.tm with run := true, nextK := 1 } }
  (b.setRegs [(actOf (R.OPT_PD_CFG 7), 1), (actOf R.TIME_DARK_LEN, 40000)]).modPd 7 fun k =>
    { k with off := List.replicate 4 (some 0xFF00), amb := 1 }

/-- The same block where the offset window closes, 14 us after the start of the dark interval (R419). -/
def offsetAtLimitClosed : Block := offsetAtLimit.advanceTo (offsetAtLimit.nextDark + 14000)

theorem offsetAt_offsetAtLimit : offsetAtLimit.offsetAt 7 3 = some offsetAtLimitClosed := if_pos (by decide +kernel)

theorem amb_offsetAtLimitClosed : (offsetAtLimitClosed.pd 7).amb = 1 := by decide +kernel

/-- The offset in force is the measured one, not the factory's. -/
theorem off_offsetAtLimitClosed : ((offsetAtLimitClosed.pd 7).off.getD 3 none).getD (Config.pdOffset 7 3) = 0xFF00 := by
  have hmeasured : (offsetAtLimitClosed.pd 7).off.getD 3 none = some 0xFF00 := by decide +kernel
  rw [hmeasured, Option.getD_some]

/-- Refutes O26: its clauses of the windows leave out that the mean is below 0xFF00. The offset window of photodiode 7 with the mean
0xFF00 leaves the ambient at 1, where the statement makes it 0, which is the mean less the offset at any factory gain. -/
theorem not_colourCommandsRun : ¬ Obligations.ColourCommandsRun := by
  rintro ⟨hoffset, -⟩
  have hen : offsetAtLimit.pdEn 7 = true := by decide +kernel
  have hrunning : offsetAtLimit.pw.state.running = true := by decide +kernel
  have hleft : exec (.offsetWindowClose 7 3 0xFF00 0) ⟨offsetAtLimit, []⟩ = .next ⟨offsetAtLimitClosed, []⟩ :=
    (execOffsetWindowClose_measured [] 0xFF00 0 (by decide) (by decide) hen hrunning offsetAt_offsetAtLimit).trans
      (by rw [Block.offsetClose_saturated 3 le_rfl])
  have hstated := hoffset offsetAtLimit offsetAtLimitClosed [] 7 3 0xFF00 (by decide) (by decide) hen hrunning offsetAt_offsetAtLimit
  have hamb := congrArg (fun u : State => (u.pd 7).amb) (Host.Outcome.next.inj (hleft.symm.trans hstated))
  dsimp only at hamb
  rw [Block.pd_modPd_same _ (by decide +kernel), amb_offsetAtLimitClosed, off_offsetAtLimitClosed, Nat.sub_self, Nat.zero_mul] at hamb
  exact absurd hamb (by decide)

end Sys2Proof.Machine

namespace Sys2Proof.Machine

/-! CALIBRATE (R435 to R445). -/

section
variable {s : Block}

/-- A CALIBRATE of a procedure starts where its parameters are legal (for a PI no member of LG_HL), nothing else runs and no precondition
fails (R435 to R437). -/
theorem does_calibrate_starts {cseq : Word} {proc : Nat} {c : Cmd} (q : List Instr) (hstart : s.startable cseq 6 = some c)
    (hproc : c.par 16 1 = proc) (hlegal : calParamsOk c = true) (hgroup : proc = 2 → (memCfg s.act (c.par 18 2)).group ≠ 4) (hidle : s.ca = none)
    (hsweep : s.dc.sweep = none) (hmet : s.calFails (s.calRunOf c proc) false = []) :
    State.does ⟨s, q⟩ (fun s => s.calibrate cseq proc) = .next ⟨s.calStart (s.calRunOf c proc), q⟩ := by
  have hmine : ¬ (c.par 16 1 ≠ proc ∧ 1 ≤ c.par 16 1 ∧ c.par 16 1 ≤ 4) := fun ⟨hother, _⟩ => hother hproc
  have hvalid : ¬ (!calParamsOk c || (proc == 2 && (memCfg s.act (c.par 18 2)).en && (memCfg s.act (c.par 18 2)).group == 4)) = true := by
    simp only [hlegal, Bool.not_true, Bool.false_or, Bool.and_eq_true, beq_iff_eq]
    exact fun ⟨⟨hpi, _⟩, hlg⟩ => hgroup hpi hlg
  have hfree : ¬ (s.ca.isSome || (proc == 4 && s.dc.sweep.isSome)) = true := by simp [hidle, hsweep]
  simp only [State.does_next, Block.calibrate, hstart, if_neg hmine, if_neg hvalid, if_neg hfree, hmet]

/-- TRIM_CTRL[0] ends the run with ABORTED (R438). -/
theorem Block.trimCtrl_abort {v : Word} (h : bit v 0 = true) : s.trimCtrl v = s.calStop 5 0 := if_pos h

/-- A precondition that fails while a run measures ends it (R437). -/
theorem execPrecondLost_failing {r : CalRun} {d : Nat} {l : List Nat} (q : List Instr) (hrun : s.ca = some r) (hphase : r.phase < 7)
    (hfails : s.calFails r true = d :: l) : execPrecondLost ⟨s, q⟩ = .next ⟨s.calStop 0x8002 d, q⟩ := by
  simp only [execPrecondLost, State.does_next, hrun, if_neg (Nat.not_le.mpr hphase), hfails]

/-- A set point that falls due ends the sweep in progress: with its run where a CALIBRATE sweeps (R443), else by itself (R492). -/
theorem execSweepAborted_due {w : Sweep} {c : Nat} (q : List Instr) (hsweep : s.dc.sweep = some w) (hdue : s.dc.due = some c) :
    execSweepAborted ⟨s, q⟩ = .next ⟨if w.calib then s.calStop 0x8001 0
      else ((s.sweepOver w).post 0x1D 0x154 [pk w.pair w.sp 1 0, w.cseq]).complete w.cseq 0x8001, q⟩ := by
  have hchanges : ¬ (s.dc.change.isNone && s.dc.due.isNone) = true := by simp [hdue]
  simp only [execSweepAborted, State.does_next, hsweep, if_neg hchanges]
end

/-- Settles O27: a clause's hypotheses are the tests its command makes. -/
theorem calibrateCommandsRun : Obligations.CalibrateCommandsRun := by
  refine ⟨?pd, ?pi, ?scan, ?dram, ?result, ?precond, ?abort, ?timeout, ?calSweep, ?cmdSweep⟩
  case pd => exact fun s q cseq c hstart hproc hlegal => does_calibrate_starts q hstart hproc hlegal nofun
  case pi => exact fun s q cseq c hstart hproc hlegal hgroup => does_calibrate_starts q hstart hproc hlegal fun _ => hgroup
  case scan => exact fun s q cseq c hstart hproc hlegal => does_calibrate_starts q hstart hproc hlegal nofun
  case dram => exact fun s q cseq c hstart hproc hlegal => does_calibrate_starts q hstart hproc hlegal nofun
  case result =>
    intro s q d r hrun hphase hdata _
    change execCalibrationResult d ⟨s, q⟩ = _
    simp only [execCalibrationResult, State.does_next, hrun, if_pos (And.intro (Or.inl hphase) hdata)]
  case precond => exact fun s q r d l hrun hphase hfails => execPrecondLost_failing q hrun hphase hfails
  case abort =>
    intro s q v h hset
    refine (does_onStrobe q h _).trans ?_
    rw [Block.trimCtrl_abort hset]
  case timeout =>
    intro s q r hrun
    change execTrimTimeout ⟨s, q⟩ = _
    rw [execTrimTimeout, State.does_next, hrun]
  case calSweep =>
    intro s q w c hsweep hdue hcalib
    exact (execSweepAborted_due q hsweep hdue).trans (by rw [if_pos hcalib])
  case cmdSweep =>
    intro s q w c hsweep hdue hcmd
    exact (execSweepAborted_due q hsweep hdue).trans (by rw [if_neg (ne_true_of_eq_false hcmd)])

end Sys2Proof.Machine

namespace Sys2Proof.Machine

/-!
What every step keeps: the number of every unit, and the fuses that are blown (R516). One rule for each operation of the model, in the order
of the model; a rule takes the block before, so that a rule's proof is the operation's own composition.
-/

/-- Blowing an OTP bit leaves the blown ones blown (R516). -/
theorem Block.fuse_blow {s : Block} {i j : Nat} (hj : s.fuse j = true) : (s.blow i).fuse j = true := by
  rw [Block.fuse, natBit_testBit] at hj ⊢
  by_cases hbyte : j / 8 = i / 8
  · rw [hbyte] at hj
    have hlow : j % 8 < 8 := Nat.mod_lt _ (by decide)
    simp [Block.blow, hbyte, Nat.testBit_mod_two_pow, Nat.testBit_or, hj, hlow, -Nat.reducePow]
  · rw [Block.blow, sget_sset_ne _ _ _ hbyte]
    exact hj

/-- The numbers of the units of a block, and its fuses. -/
def Block.units (s : Block) : List Nat × List (Nat × Byte) :=
  ([s.ma.length, s.ls.grp.length, s.sk.ch.length, s.sf.surf.length, s.sf.src.length, s.ty.cnt.length, s.chk.length, s.dc.pairs.length],
    s.se.otp)

/-- Has a block every unit that an earlier one had, and every fuse blown that was blown there? -/
structure Block.Extends (s b₀ : Block) : Prop where
  sized : b₀.sized → s.sized
  fuse : ∀ i, b₀.fuse i = true → s.fuse i = true

section
variable {b₀ s : Block}

theorem Block.Extends.of_units {t : Block} (h : s.Extends b₀) (hu : t.units = s.units) : t.Extends b₀ := by
  simp only [Block.units, Prod.mk.injEq, List.cons.injEq, and_true] at hu
  obtain ⟨⟨hma, hgrp, hch, hsurf, hsrc, hcnt, hchk, hpairs⟩, hotp⟩ := hu
  refine ⟨fun hb => ?_, fun i hi => ?_⟩
  · rw [Block.sized, hma, hgrp, hch, hsurf, hsrc, hcnt, hchk, hpairs]
    exact h.sized hb
  · rw [Block.fuse, hotp]
    exact h.fuse i hi

/-- An update of the other fields leaves units and fuses. -/
theorem Block.Extends.update (h : s.Extends b₀) {regs frozen now free out tm cm rg pw bt fl pins hs dt dram pp sc cp th tr ca fb cu ho co} :
    Block.Extends ⟨regs, frozen, now, free, out, tm, cm, rg, pw, bt, fl, pins, s.ty, s.chk, hs, s.sk, dt, dram, s.sf, pp, s.ma, sc, s.ls, cp,
      th, s.dc, s.se, tr, ca, fb, cu, ho, co⟩ b₀ := ⟨h.sized, h.fuse⟩

/-! The other fields of the structures that hold units or the fuses. -/

theorem Block.Extends.setTy (h : s.Extends b₀) {clear} : Block.Extends { s with ty := ⟨s.ty.cnt, clear⟩ } b₀ := ⟨h.sized, h.fuse⟩

theorem Block.Extends.setSk (h : s.Extends b₀) {stamp run last} : Block.Extends { s with sk := ⟨stamp, s.sk.ch, run, last⟩ } b₀ :=
  ⟨h.sized, h.fuse⟩

theorem Block.Extends.setSf (h : s.Extends b₀) {codes nvme inUse lastLoad} :
    Block.Extends { s with sf := ⟨codes, s.sf.surf, s.sf.src, nvme, inUse, lastLoad⟩ } b₀ := ⟨h.sized, h.fuse⟩

theorem Block.Extends.setLs (h : s.Extends b₀) {str slc chn piImage piValid piFail piPages} :
    Block.Extends { s with ls := ⟨str, slc, s.ls.grp, chn, piImage, piValid, piFail, piPages⟩ } b₀ := ⟨h.sized, h.fuse⟩

theorem Block.Extends.setDc (h : s.Extends b₀) {cap due fbDue change sweep poison hot rate scrubPair scrubBlk scrubAt delays trimHeld
    warpSpill hlZero} : Block.Extends { s with dc := ⟨s.dc.pairs, cap, due, fbDue, change, sweep, poison, hot, rate, scrubPair, scrubBlk,
      scrubAt, delays, trimHeld, warpSpill, hlZero⟩ } b₀ := ⟨h.sized, h.fuse⟩

theorem Block.Extends.setSe (h : s.Extends b₀) {mram bad queue wr copyWr scrub scrubAt chkOnly fuses fuseCmd} :
    Block.Extends { s with se := ⟨mram, bad, queue, wr, copyWr, scrub, scrubAt, chkOnly, s.se.otp, fuses, fuseCmd⟩ } b₀ :=
  ⟨h.sized, h.fuse⟩

theorem Block.Extends.ite {t : Block} {c : Prop} {_ : Decidable c} (h : s.Extends b₀) (ht : t.Extends b₀) :
    (if c then s else t).Extends b₀ := by
  split
  · exact h
  · exact ht

theorem Block.Extends.foldl {α : Type} {f : Block → α → Block} {l : List α} (h : s.Extends b₀)
    (hf : ∀ t x, t.Extends b₀ → (f t x).Extends b₀) : (l.foldl f s).Extends b₀ := by
  induction l generalizing s with
  | nil => exact h
  | cons x l ih => exact ih (hf _ _ h)

theorem Block.Extends.foldl_fst {α β : Type} {f : Block × β → α → Block × β} {l : List α} {y : β} (h : s.Extends b₀)
    (hf : ∀ r x, r.1.Extends b₀ → (f r x).1.Extends b₀) : (l.foldl f (s, y)).1.Extends b₀ := by
  induction l generalizing s y with
  | nil => exact h
  | cons x l ih => exact ih (hf _ _ h)

theorem Block.Extends.foldl_snd {α β : Type} {f : β × Block → α → β × Block} {l : List α} {y : β} (h : s.Extends b₀)
    (hf : ∀ r x, r.2.Extends b₀ → (f r x).2.Extends b₀) : (l.foldl f (y, s)).2.Extends b₀ := by
  induction l generalizing s y with
  | nil => exact h
  | cons x l ih => exact ih (hf _ _ h)

theorem Block.Extends.ite_fst {α : Type} {x y : Block × α} {c : Prop} {_ : Decidable c} (hx : x.1.Extends b₀) (hy : y.1.Extends b₀) :
    (if c then x else y).1.Extends b₀ := by
  split
  · exact hx
  · exact hy

theorem Block.Extends.ite_snd {α : Type} {x y : α × Block} {c : Prop} {_ : Decidable c} (hx : x.2.Extends b₀) (hy : y.2.Extends b₀) :
    (if c then x else y).2.Extends b₀ := by
  split
  · exact hx
  · exact hy

/-- The block of a pair that is taken apart. -/
theorem Block.Extends.of_fst {α : Type} {r : Block × α} {t : Block} {x : α} (hr : r = (t, x)) (h : r.1.Extends b₀) : t.Extends b₀ := by
  rwa [hr] at h

theorem Block.Extends.of_snd {α : Type} {r : α × Block} {t : Block} {x : α} (hr : r = (x, t)) (h : r.2.Extends b₀) : t.Extends b₀ := by
  rwa [hr] at h

theorem Block.Extends.getD {o : Option Block} (ho : ∀ t ∈ o, t.Extends b₀) (h : s.Extends b₀) : (o.getD s).Extends b₀ := by
  cases o with
  | none => exact h
  | some t => exact ho t rfl

theorem Block.Extends.setReg (h : s.Extends b₀) {a v} : (s.setReg a v).Extends b₀ := h.update
theorem Block.Extends.setRegs (h : s.Extends b₀) {l} : (s.setRegs l).Extends b₀ := h.update
theorem Block.Extends.setFld (h : s.Extends b₀) {a lo w x} : (s.setFld a lo w x).Extends b₀ := h.setReg
theorem Block.Extends.bump (h : s.Extends b₀) {a n} : (s.bump a n).Extends b₀ := h.setReg
theorem Block.Extends.bumpSat (h : s.Extends b₀) {a lo w} : (s.bumpSat a lo w).Extends b₀ := h.setFld

theorem Block.Extends.emit (h : s.Extends b₀) {o} : (s.emit o).Extends b₀ := h.update

theorem Block.Extends.applyVals (h : s.Extends b₀) {side pages vals} : (s.applyVals side pages vals).Extends b₀ :=
  h.update

theorem Block.Extends.tally (h : s.Extends b₀) {ty inst} : (s.tally ty inst).Extends b₀ :=
  h.of_units (by simp [Block.units, Block.tally])

theorem Block.Extends.postI (h : s.Extends b₀) {page ty cls inst cmd data} : (s.postI page ty cls inst cmd data).Extends b₀ :=
  .ite h.tally.update h.tally

theorem Block.Extends.post (h : s.Extends b₀) {page ty data} : (s.post page ty data).Extends b₀ := h.postI
theorem Block.Extends.postTally (h : s.Extends b₀) {ty inst} : (s.postTally ty inst).Extends b₀ := h.tally
theorem Block.Extends.message (h : s.Extends b₀) {v} : (s.message v).Extends b₀ := .ite h.emit (.ite h.update h)
theorem Block.Extends.unpend (h : s.Extends b₀) {v} : (s.unpend v).Extends b₀ := h.update

theorem Block.Extends.withInt {f : Block → Block} (h : s.Extends b₀) (hf : ∀ (t : Block), t.Extends b₀ → (f t).Extends b₀) {p} :
    (s.withInt p f).Extends b₀ :=
  .ite (.ite (hf _ h) ((hf _ h).message)) ((hf _ h).unpend)

theorem Block.Extends.setInt (h : s.Extends b₀) {p m} : (s.setInt p m).Extends b₀ := h.withInt fun _ ht => ht.setReg
theorem Block.Extends.errCause (h : s.Extends b₀) {p i} : (s.errCause p i).Extends b₀ := h.setReg
theorem Block.Extends.giveBackClaim (h : s.Extends b₀) {c n old} : (s.giveBackClaim c n old).Extends b₀ := .ite h.update h.setReg
theorem Block.Extends.giveBackAll (h : s.Extends b₀) {c l} : (s.giveBackAll c l).Extends b₀ := h.foldl fun _ _ ht => ht.giveBackClaim
theorem Block.Extends.postComplete (h : s.Extends b₀) {c status res} : (s.postComplete c status res).Extends b₀ := h.postI

theorem Block.Extends.complete (h : s.Extends b₀) {cseq status res} : (s.complete cseq status res).Extends b₀ := by
  unfold Block.complete
  split
  · exact h
  · exact h.update.giveBackAll.postComplete

theorem Block.Extends.goto (h : s.Extends b₀) {dst reason us} : (s.goto dst reason us).Extends b₀ := h.update.setReg.post
theorem Block.Extends.postOpen (h : s.Extends b₀) {r} : (s.postOpen r).Extends b₀ := h.postI

theorem Block.Extends.record (h : s.Extends b₀) {page code cls detail way} : (s.record page code cls detail way).Extends b₀ := by
  unfold Block.record
  split
  · exact .ite h.update.postTally.postOpen h.update.postTally
  · split
    · exact h.bump.postTally
    · extract_lets t
      have ht : t.Extends b₀ := by
        unfold t
        split
        · exact .ite h.bump.postTally h
        · exact h
      exact ht.update.postOpen

theorem Block.Extends.closeAt (h : s.Extends b₀) {i how} : (s.closeAt i how).Extends b₀ := by
  unfold Block.closeAt
  split
  · exact .ite h.update.post h
  · exact h

theorem Block.Extends.closeWhere (h : s.Extends b₀) {how} {p : FaultRec → Bool} : (s.closeWhere how p).Extends b₀ :=
  h.foldl fun _ _ ht => ht.closeAt

theorem Block.Extends.autoClose (h : s.Extends b₀) {page code} {detail : Word → Bool} : (s.autoClose page code detail).Extends b₀ :=
  h.closeWhere

/-! Machine/Line.lean -/

theorem Block.Extends.modPort (h : s.Extends b₀) {p} {f : Port → Port} : (s.modPort p f).Extends b₀ :=
  h.of_units (by simp [Block.units, Block.modPort])

theorem Block.Extends.smlAt (h : s.Extends b₀) {p first code args} : (s.smlAt p first code args).Extends b₀ := h.modPort.emit
theorem Block.Extends.sml (h : s.Extends b₀) {p code args due} : (s.sml p code args due).Extends b₀ := h.smlAt

/-! Machine/Safe.lean -/

theorem Block.Extends.portGoto (h : s.Extends b₀) {p st} : (s.portGoto p st).Extends b₀ := .ite h h.modPort.postI
theorem Block.Extends.gpioPulse (h : s.Extends b₀) {f us} : (s.gpioPulse f us).Extends b₀ := h.foldl fun _ _ ht => .ite ht.emit ht
theorem Block.Extends.parkPort (h : s.Extends b₀) {p} : (s.parkPort p).Extends b₀ := .ite h.modPort.sml.postTally h

theorem Block.Extends.beamLow (h : s.Extends b₀) : s.beamLow.Extends b₀ := h.update

theorem Block.Extends.chainsZero (h : s.Extends b₀) : s.chainsZero.Extends b₀ := by
  unfold Block.chainsZero
  refine .foldl h fun _ _ ht => ?_
  split
  · exact .ite ht.setLs.emit ht
  · exact ht

theorem Block.Extends.lightOut (h : s.Extends b₀) : s.lightOut.Extends b₀ := h.beamLow.chainsZero

theorem Block.Extends.groupsOut (h : s.Extends b₀) : s.groupsOut.Extends b₀ :=
  h.of_units (by simp [Block.units, Block.groupsOut])

theorem Block.Extends.parkAll (h : s.Extends b₀) : s.parkAll.Extends b₀ := h.foldl fun _ _ ht => .ite ht.parkPort.portGoto ht.parkPort

theorem Block.Extends.safeOutputs (h : s.Extends b₀) : s.safeOutputs.Extends b₀ := h.lightOut.groupsOut.parkAll

theorem Block.Extends.interrupt (h : s.Extends b₀) : s.interrupt.Extends b₀ := by
  unfold Block.interrupt
  split
  · exact .ite h.update.complete h
  · exact h

theorem Block.Extends.enterSafe (h : s.Extends b₀) {reason fid} : (s.enterSafe reason fid).Extends b₀ := by
  unfold Block.enterSafe
  split
  · exact h.goto.safeOutputs.interrupt.setReg.postI
  · exact h.goto.safeOutputs.interrupt.setReg.postI
  · exact h.goto.safeOutputs.interrupt.setReg.postI
  · exact h

theorem Block.Extends.raise (h : s.Extends b₀) {page code cls detail way reason} : (s.raise page code cls detail way reason).Extends b₀ :=
  .ite h.bump (.ite h.record.enterSafe h.record)

theorem Block.Extends.faultEv (h : s.Extends b₀) {page ty cls data way inst} : (s.faultEv page ty cls data way inst).Extends b₀ :=
  h.postI.raise

/-! Machine/Regwrite.lean -/

theorem Block.Extends.onWrite {f : Block → Block} (h : s.Extends b₀) (hf : ∀ (t : Block), t.Extends b₀ → (f t).Extends b₀) {page} :
    (s.onWrite page f).Extends b₀ :=
  .ite h (.ite h.errCause (hf _ h))

theorem Block.Extends.onStrobe {f : Block → Block} (h : s.Extends b₀) (hf : ∀ (t : Block), t.Extends b₀ → (f t).Extends b₀) :
    (s.onStrobe f).Extends b₀ :=
  .ite (hf _ h) h

theorem Block.Extends.rwTake {f : Block → Word → Block} (h : s.Extends b₀) (hf : ∀ (t : Block) x1, t.Extends b₀ → (f t x1).Extends b₀)
    {a v} :
    (s.rwTake a v f).Extends b₀ := by
  unfold Block.rwTake
  split
  · exact h
  · exact .ite h.errCause (.ite (hf _ _ h) h.errCause)

theorem Block.Extends.rwWrite {f : Block → Word → Block} (h : s.Extends b₀) (hf : ∀ (t : Block) x1, t.Extends b₀ → (f t x1).Extends b₀) {a v} :
    (s.rwWrite a v f).Extends b₀ :=
  .ite (h.rwTake fun _ _ ht => hf _ _ ht) h

theorem Block.Extends.shTake (h : s.Extends b₀) {a key v} : (s.shTake a key v).Extends b₀ := by
  unfold Block.shTake
  split
  · exact h
  · exact .ite h.errCause h.setReg

/-! Machine/Frame.lean -/

theorem Block.Extends.modGrp (h : s.Extends b₀) {g} {f : Group → Group} : (s.modGrp g f).Extends b₀ :=
  h.of_units (by simp [Block.units, Block.modGrp])

theorem Block.Extends.countCycles (h : s.Extends b₀) {ns old} : (s.countCycles ns old).Extends b₀ :=
  h.of_units (by simp [Block.units, Block.countCycles])

theorem Block.Extends.secPulse (h : s.Extends b₀) {old} : (s.secPulse old).Extends b₀ := .ite h.emit h
theorem Block.Extends.advance (h : s.Extends b₀) {ns} : (s.advance ns).Extends b₀ := .ite h h.update.countCycles.secPulse
theorem Block.Extends.advanceTo (h : s.Extends b₀) {ft} : (s.advanceTo ft).Extends b₀ := .ite h.advance.update h
theorem Block.Extends.toLocal (h : s.Extends b₀) {t} : (s.toLocal t).Extends b₀ := h.advance
theorem Block.Extends.toSlot (h : s.Extends b₀) {off} : (s.toSlot off).Extends b₀ := h.toLocal

/-! Machine/Sched.lean -/

theorem Block.Extends.modPair (h : s.Extends b₀) {q} {f : Pair → Pair} : (s.modPair q f).Extends b₀ :=
  h.of_units (by simp [Block.units, Block.modPair])

theorem Block.Extends.dramReq (h : s.Extends b₀) {pa n write guest} : (s.dramReq pa n write guest).Extends b₀ := h.modPair
theorem Block.Extends.schedule (h : s.Extends b₀) {q} : (s.schedule q).Extends b₀ := .ite h (h.modPair.foldl fun _ _ ht => ht.postTally)

/-! Machine/Memory.lean -/

theorem Block.Extends.setMemB (h : s.Extends b₀) {pa b} : (s.setMemB pa b).Extends b₀ := h.update
theorem Block.Extends.freshBlock (h : s.Extends b₀) {pa left} : (s.freshBlock pa left).Extends b₀ := .ite h.setDc h

theorem Block.Extends.setMem (h : s.Extends b₀) {pa bs} : (s.setMem pa bs).Extends b₀ := by
  induction bs generalizing s pa with
  | nil => exact h
  | cons b bs ih => exact ih h.setMemB.freshBlock

theorem Block.Extends.installTlb (h : s.Extends b₀) {t} : (s.installTlb t).Extends b₀ := .ite h.update h.update
theorem Block.Extends.dtuFault (h : s.Extends b₀) {va f write client} : (s.dtuFault va f write client).Extends b₀ := h.setRegs

theorem Block.Extends.translate (h : s.Extends b₀) {va write client} : (s.translate va write client).1.Extends b₀ := by
  unfold Block.translate
  split
  · exact h.dtuFault
  · split
    · exact h.dtuFault
    · split
      · extract_lets _
        split
        · exact h.bump
        · exact h.bump.dtuFault
      · extract_lets -underBinder _
        split
        · exact h.bump.dtuFault
        · extract_lets -underBinder _
          split
          · exact h.bump.bump.dtuFault
          · split
            · split
              · exact h.bump.bump.installTlb
              · exact h.bump.bump.installTlb.bump.post
            · exact h.bump.bump.installTlb

theorem Block.Extends.access (h : s.Extends b₀) {client va n write} : (s.access client va n write).1.Extends b₀ := by
  unfold Block.access
  split
  next t _ heq =>
    have ht : t.Extends b₀ := .of_fst heq h.translate
    exact ht
  next t1 _ heq =>
    have ht1 : t1.Extends b₀ := .of_fst heq h.translate
    split
    · exact ht1
    · exact ht1.dramReq

theorem Block.Extends.beat (h : s.Extends b₀) {client va left write cur} : (s.beat client va left write cur).1.Extends b₀ := by
  unfold Block.beat
  split
  · exact .ite_fst h.access h
  · exact h.access

theorem Block.Extends.readVirt (h : s.Extends b₀) {client va n cur acc} : (s.readVirt client va n cur acc).1.Extends b₀ := by
  induction n generalizing s va cur acc with
  | zero => exact h
  | succ n ih =>
    rw [Block.readVirt]
    split
    next t _ heq => exact ih (Block.Extends.of_fst heq h.beat)
    next t _ heq => exact .of_fst heq h.beat

theorem Block.Extends.setCap (h : s.Extends b₀) {ps off bs} : (s.setCap ps off bs).Extends b₀ := by
  induction bs generalizing s off with
  | nil => exact h
  | cons b bs ih =>
    refine ih ?_
    split
    · exact h.setMemB.freshBlock
    · exact h

theorem Block.Extends.piTouch (h : s.Extends b₀) {pa n} : (s.piTouch pa n).Extends b₀ := .ite ⟨h.sized, h.fuse⟩ h

theorem Block.Extends.writeVirt (h : s.Extends b₀) {client va cur bs} : (s.writeVirt client va cur bs).1.Extends b₀ := by
  induction bs generalizing s va cur with
  | nil => exact h
  | cons b bs ih =>
    rw [Block.writeVirt]
    split
    next t _ heq => exact ih (Block.Extends.of_fst heq h.beat).setMemB.freshBlock.piTouch
    next t _ heq => exact .of_fst heq h.beat

/-! Machine/Surface.lean -/

theorem Block.Extends.modSurf (h : s.Extends b₀) {i} {f : Surface → Surface} : (s.modSurf i f).Extends b₀ :=
  h.of_units (by simp [Block.units, Block.modSurf])

theorem Block.Extends.surfWrite (h : s.Extends b₀) {i off bs} : (s.surfWrite i off bs).Extends b₀ := by
  induction bs generalizing s off with
  | nil => exact h
  | cons b bs ih => exact ih (.ite h (.ite h.modSurf h.setMemB.freshBlock))

theorem Block.Extends.setPaged (h : s.Extends b₀) {pages off bs} : (s.setPaged pages off bs).Extends b₀ := by
  induction bs generalizing s off with
  | nil => exact h
  | cons b bs ih => exact ih h.setMemB.freshBlock

theorem Block.Extends.putTile (h : s.Extends b₀) {u t tile x4} : (s.putTile u t tile x4).Extends b₀ :=
  .ite h.setPaged.setPaged.setSf h.setPaged.setPaged

theorem Block.Extends.putTiles (h : s.Extends b₀) {i budget l total} : (s.putTiles i budget l total).1.Extends b₀ := by
  induction l generalizing s total with
  | nil => exact h
  | cons t l ih =>
    rw [Block.putTiles]
    split
    · exact h
    · exact ih h.putTile

theorem Block.Extends.surfOpRes (h : s.Extends b₀) {i op reason} : (s.surfOpRes i op reason).Extends b₀ := .ite h.setReg h.setReg.post
theorem Block.Extends.surfDefine (h : s.Extends b₀) {i} : (s.surfDefine i).Extends b₀ := .surfOpRes (.ite h.modSurf h)
theorem Block.Extends.surfOpen (h : s.Extends b₀) {i} : (s.surfOpen i).Extends b₀ := .surfOpRes (.ite h.modSurf h)
theorem Block.Extends.surfClose (h : s.Extends b₀) {i} : (s.surfClose i).Extends b₀ := .surfOpRes (.ite h.modSurf h)
theorem Block.Extends.compress (h : s.Extends b₀) {i} : (s.compress i).1.Extends b₀ := .ite_fst h.putTiles h
theorem Block.Extends.sealSurf (h : s.Extends b₀) {i source tag} : (s.sealSurf i source tag).Extends b₀ := h.modSurf.bump.post
theorem Block.Extends.surfCapture (h : s.Extends b₀) {i} : (s.surfCapture i).Extends b₀ := h.setRegs

/-! Machine/Deck.lean -/

theorem Block.Extends.beginSets (h : s.Extends b₀) {f fsn wait} : (s.beginSets f fsn wait).Extends b₀ := by
  unfold Block.beginSets
  refine .foldl h fun _ _ ht => ?_
  split
  · exact ht
  · split
    · exact ht.modPort
    · exact ht

theorem Block.Extends.supersede (h : s.Extends b₀) {p i} : (s.supersede p i).Extends b₀ := h.modPort.bump.post

theorem Block.Extends.sealSet (h : s.Extends b₀) {p} : (s.sealSet p).Extends b₀ := by
  unfold Block.sealSet
  split
  · exact h
  · split
    · exact h
    · extract_lets t
      have ht : t.Extends b₀ := by
        unfold t
        split
        · exact h.supersede
        · exact h
      exact ht.modPort.bump.post

theorem Block.Extends.descCapture (h : s.Extends b₀) {v} : (s.descCapture v).Extends b₀ := h.setReg.setRegs

/-! Machine/Laser.lean -/

theorem Block.Extends.modMember (h : s.Extends b₀) {m} {f : Member → Member} : (s.modMember m f).Extends b₀ := .ite h.setLs h.setLs

theorem Block.Extends.modMembers (h : s.Extends b₀) {l} {f : Member → Member} : (s.modMembers l f).Extends b₀ :=
  h.foldl fun _ _ ht => ht.modMember

theorem Block.Extends.piCheck (h : s.Extends b₀) : s.piCheck.Extends b₀ := h.setLs

theorem Block.Extends.configFirst (h : s.Extends b₀) {m} : (s.configFirst m).Extends b₀ := .ite h h.setLs
theorem Block.Extends.callSlice (h : s.Extends b₀) {m} : (s.callSlice m).Extends b₀ := .ite h h.modMember.configFirst

theorem Block.Extends.refreshMembers (h : s.Extends b₀) : s.refreshMembers.Extends b₀ :=
  .foldl (h.foldl fun _ _ ht => .ite ht.modMember ht.modMember) fun _ _ ht => ht.modMember

theorem Block.Extends.latchMember (h : s.Extends b₀) {m cause} : (s.latchMember m cause).Extends b₀ := by
  unfold Block.latchMember
  extract_lets _ _ _ _ t _ t1
  have ht : t.Extends b₀ := .ite h.modMember h.modMember.configFirst
  have ht1 : t1.Extends b₀ := by
    unfold t1
    split
    · split
      · exact ht.modGrp.callSlice
      · exact ht.modGrp
    · exact ht
  exact .ite h (.ite ht1.faultEv.update.post ht1.faultEv)

theorem Block.Extends.ocTrip (h : s.Extends b₀) {n} : (s.ocTrip n).Extends b₀ :=
  .ite (.ite h.modMember.postTally.latchMember h.modMember.postTally) h

theorem Block.Extends.callCold (h : s.Extends b₀) {g} : (s.callCold g).Extends b₀ := by
  unfold Block.callCold
  split
  · exact h.modMember
  · exact h

theorem Block.Extends.spareActs (h : s.Extends b₀) {m} : (s.spareActs m).Extends b₀ := h.modMember

theorem Block.Extends.giveBack (h : s.Extends b₀) {g} : (s.giveBack g).Extends b₀ := by
  unfold Block.giveBack
  split
  · exact h
  · exact .ite h.modGrp h.modGrp.modMember.modMember

theorem Block.Extends.calTakeover (h : s.Extends b₀) {g} : (s.calTakeover g).Extends b₀ := by
  unfold Block.calTakeover
  split
  · exact h
  · split
    · exact h.giveBack
    · split
      · split
        · split
          · exact .ite h.callSlice h.spareActs.modMember.update
          · exact .ite h h.callCold
        · exact h
      · exact h

theorem Block.Extends.calSpare (h : s.Extends b₀) {f new} : (s.calSpare f new).Extends b₀ := by
  unfold Block.calSpare
  split
  · exact .ite (.ite h.update.modMember h.update) h
  · exact h

theorem Block.Extends.takeover (h : s.Extends b₀) {g} : (s.takeover g).Extends b₀ := by
  unfold Block.takeover
  extract_lets -underBinder _
  split
  · exact h.calTakeover
  · split
    · split
      · exact h.callSlice
      · split
        · extract_lets t
          have ht : t.Extends b₀ := h.spareActs.calSpare
          exact .ite ht.modGrp.post.callCold ht.modGrp.post
        · exact h
    · exact .ite (.ite h h.callCold) (.ite (.ite h.calSpare.modGrp h) h.modGrp.faultEv)

theorem Block.Extends.probeEnd (h : s.Extends b₀) {m cur} : (s.probeEnd m cur).Extends b₀ := by
  unfold Block.probeEnd
  extract_lets _ _ _ t _ t1
  have ht : t.Extends b₀ := .ite h.modMember.postTally h.modMember
  have ht1 : t1.Extends b₀ := ht.post.autoClose
  exact .ite h (.ite ht1.latchMember ht1)

theorem Block.Extends.spareHot (h : s.Extends b₀) {m} : (s.spareHot m).Extends b₀ := h.modMember

theorem Block.Extends.setBucks (h : s.Extends b₀) : s.setBucks.Extends b₀ := h.foldl fun _ _ ht => ht.modMember

theorem Block.Extends.raiseBucks (h : s.Extends b₀) : s.raiseBucks.Extends b₀ := h.foldl fun _ _ ht => ht.modMember

theorem Block.Extends.levelFb (h : s.Extends b₀) {g} : (s.levelFb g).Extends b₀ := by
  unfold Block.levelFb
  extract_lets -underBinder _
  split
  · exact h
  · split
    · exact .ite (.ite h.modGrp.post h.modGrp) h.postTally.modGrp
    · exact .modGrp (.ite h.postTally h)

theorem Block.Extends.startGroup (h : s.Extends b₀) {g} : (s.startGroup g).Extends b₀ := h.modGrp
theorem Block.Extends.darkenGroup (h : s.Extends b₀) {g} : (s.darkenGroup g).Extends b₀ := h.modGrp

/-! Machine/Scanner.lean -/

theorem Block.Extends.modSc (h : s.Extends b₀) {f : ScanState → ScanState} : (s.modSc f).Extends b₀ := h.update

theorem Block.Extends.driveMark (h : s.Extends b₀) : s.driveMark.Extends b₀ := by
  unfold Block.driveMark
  exact h.modSc

theorem Block.Extends.driveHs (h : s.Extends b₀) : s.driveHs.Extends b₀ := h.update

theorem Block.Extends.hsfGoto (h : s.Extends b₀) {st} : (s.hsfGoto st).Extends b₀ := .ite h h.modSc.post

theorem Block.Extends.sweep (h : s.Extends b₀) : s.sweep.Extends b₀ := h.modSc.hsfGoto

theorem Block.Extends.fastAxisStart (h : s.Extends b₀) : s.fastAxisStart.Extends b₀ := .ite h.modSc.sweep h

theorem Block.Extends.resonance (h : s.Extends b₀) : s.resonance.Extends b₀ := h.driveMark.update.modSc.hsfGoto

theorem Block.Extends.lockFail (h : s.Extends b₀) {stage} : (s.lockFail stage).Extends b₀ := .ite h.sweep h.modSc.hsfGoto.faultEv

theorem Block.Extends.locked (h : s.Extends b₀) : s.locked.Extends b₀ :=
  .ite h (.ite h.modSc.hsfGoto.post.setReg.autoClose (.ite h.modSc h))

theorem Block.Extends.beamOff (h : s.Extends b₀) : s.beamOff.Extends b₀ := h.update

theorem Block.Extends.recordCut (h : s.Extends b₀) {cause} : (s.recordCut cause).Extends b₀ := by
  unfold Block.recordCut
  extract_lets _ t _ t1
  have ht : t.Extends b₀ := h.beamOff.modSc.bump
  have ht1 : t1.Extends b₀ := ht.setReg.faultEv
  exact .ite ht1.modSc.faultEv ht1

theorem Block.Extends.beamCut (h : s.Extends b₀) {cause} : (s.beamCut cause).Extends b₀ := .ite h.modSc h.recordCut
theorem Block.Extends.cutMet (h : s.Extends b₀) {cause} : (s.cutMet cause).Extends b₀ := .ite h.modSc.beamCut h

theorem Block.Extends.cutsMet (h : s.Extends b₀) : s.cutsMet.Extends b₀ := h.foldl fun _ _ ht => ht.cutMet

theorem Block.Extends.lockLoss (h : s.Extends b₀) {cause} : (s.lockLoss cause).Extends b₀ := h.modSc.hsfGoto.bump.faultEv.recordCut

theorem Block.Extends.crossing (h : s.Extends b₀) {a b} : (s.crossing a b).Extends b₀ := by
  unfold Block.crossing
  split
  · exact h
  · exact .ite h.modSc.bump h.modSc

theorem Block.Extends.replan (h : s.Extends b₀) : s.replan.Extends b₀ := by
  unfold Block.replan
  exact h.modSc

theorem Block.Extends.beginRow (h : s.Extends b₀) {t} : (s.beginRow t).Extends b₀ := h.modSc

theorem Block.Extends.retarget (h : s.Extends b₀) : s.retarget.Extends b₀ :=
  .ite h (.ite (.ite h.beginRow.replan h) (.replan (.ite h.modSc.modSc (.postTally (.bump (.ite h.modSc h.modSc.modSc))))))

theorem Block.Extends.arrive (h : s.Extends b₀) : s.arrive.Extends b₀ :=
  .ite (.ite h.advance.modSc (.ite h.advance.modSc.modSc (.ite h.advance.modSc.modSc h.advance.modSc.beginRow))) h

theorem Block.Extends.nextRow (h : s.Extends b₀) : s.nextRow.Extends b₀ := h.modSc.retarget

theorem Block.Extends.rowDrawn (h : s.Extends b₀) : s.rowDrawn.Extends b₀ := .ite h h.toLocal.beamOff.bump.postTally.modSc.nextRow

theorem Block.Extends.windowEnd (h : s.Extends b₀) : s.windowEnd.Extends b₀ := by
  unfold Block.windowEnd
  exact .modSc (.beamOff (h.bump.foldl fun _ _ ht => ht.postTally))

theorem Block.Extends.rowsFb (h : s.Extends b₀) {shown} : (s.rowsFb shown).Extends b₀ := by
  unfold Block.rowsFb
  extract_lets t
  have ht : t.Extends b₀ := .ite h h.windowEnd
  exact .ite ht.modSc.modSc.retarget.replan ht.modSc.retarget

theorem Block.Extends.writeHl (h : s.Extends b₀) {f set} : (s.writeHl f set).Extends b₀ :=
  .foldl (h.foldl fun _ _ ht => ht.setCap) fun _ _ ht => ht.setCap

theorem Block.Extends.zoneCheck (h : s.Extends b₀) {z} : (s.zoneCheck z).Extends b₀ := .ite h.modSc.bump.postTally h
theorem Block.Extends.zoneAdd (h : s.Extends b₀) {z e} : (s.zoneAdd z e).Extends b₀ := .ite h h.modSc.zoneCheck

theorem Block.Extends.bucketBoundary (h : s.Extends b₀) : s.bucketBoundary.Extends b₀ := by
  unfold Block.bucketBoundary
  exact h.advanceTo.modSc

theorem Block.Extends.litIn (h : s.Extends b₀) {w} : (s.litIn w).Extends b₀ := .ite h h.modSc

theorem Block.Extends.dacSample (h : s.Extends b₀) : s.dacSample.Extends b₀ := by
  unfold Block.dacSample
  extract_lets -underBinder _
  split
  · exact h.beamOff
  · extract_lets _ _ _ _ _ _ _ t _ t1 _ _ t2
    have ht : t.Extends b₀ := h.zoneCheck.modSc
    have ht1 : t1.Extends b₀ := h.zoneCheck.modSc
    have ht2 : t2.Extends b₀ := by
      unfold t2
      split
      · exact ht1.update.litIn
      · exact ht1.update
    exact .ite ht.update ht2.zoneAdd

theorem Block.Extends.beamResume (h : s.Extends b₀) : s.beamResume.Extends b₀ := .ite h (.ite h.modSc (.ite h.modSc.post h))

/-! Machine/Coppice.lean -/

theorem Block.Extends.modRec (h : s.Extends b₀) {r} {f : LoopRec → LoopRec} : (s.modRec r f).Extends b₀ := h.update

theorem Block.Extends.runLaw (h : s.Extends b₀) {slot r} {law : LoopRec → LoopRec × Bool} : (s.runLaw slot r law).Extends b₀ := by
  unfold Block.runLaw
  split
  · extract_lets _ _ t
    have ht : t.Extends b₀ := .ite h.modRec.postTally h.modRec
    exact .ite ht.modRec.faultEv ht

theorem Block.Extends.holdRec (h : s.Extends b₀) {r} : (s.holdRec r).Extends b₀ := h.modRec
theorem Block.Extends.measInvalid (h : s.Extends b₀) {r} : (s.measInvalid r).Extends b₀ := h.bump.holdRec

theorem Block.Extends.tallyWin (h : s.Extends b₀) {win inst} : (s.tallyWin win inst).Extends b₀ := by
  unfold Block.tallyWin
  split
  · exact h.postTally
  · exact h.postTally
  · exact h.postTally
  · exact h.postTally
  · exact h

theorem Block.Extends.overVoltage (h : s.Extends b₀) {n} : (s.overVoltage n).Extends b₀ := .ite h.modMember.latchMember h.modMember

theorem Block.Extends.sampleFaults (h : s.Extends b₀) {n} : (s.sampleFaults n).Extends b₀ :=
  .ite h.modMember.latchMember (.ite h.modMember.latchMember h.modMember)

theorem Block.Extends.handOver (h : s.Extends b₀) {n inp} : (s.handOver n inp).Extends b₀ :=
  .modRec (.ite h.modMember.postTally h.modMember)

theorem Block.Extends.modeKerf (h : s.Extends b₀) {n} : (s.modeKerf n).Extends b₀ :=
  .ite h (.modMember (.ite (.modRec (.ite h.modRec h)) (.ite h.modRec h)))

theorem Block.Extends.buckLaw (h : s.Extends b₀) {n y v} : (s.buckLaw n y v).Extends b₀ := by
  unfold Block.buckLaw
  exact h.runLaw

theorem Block.Extends.stringSample (h : s.Extends b₀) {n ys v} : (s.stringSample n ys v).Extends b₀ := by
  unfold Block.stringSample
  extract_lets -underBinder _ _ _ t _ _ t1 _ _ _ _ _ _ _ t2
  have ht : t.Extends b₀ := h.modMember.overVoltage
  have ht1 : t1.Extends b₀ := ht.sampleFaults
  have ht2 : t2.Extends b₀ := .ite ht1.handOver ht1.modMember
  split
  · exact ht.modMember.holdRec.buckLaw
  · split
    exact .buckLaw (.ite ht2.modMember.tallyWin.holdRec (.ite ht2.modMember.tallyWin.measInvalid
      (.ite ht2.modMember.tallyWin.runLaw ht2.modMember.tallyWin.runLaw)))

theorem Block.Extends.evidence (h : s.Extends b₀) {e} : (s.evidence e).Extends b₀ :=
  .ite h (.ite h (.ite (.ite h.modMember.modMember.post h.modMember) h.modMember))

theorem Block.Extends.opticalSample (h : s.Extends b₀) {j y} : (s.opticalSample j y).Extends b₀ := by
  unfold Block.opticalSample
  extract_lets -underBinder _
  split
  · exact h.holdRec
  · exact .ite h.holdRec (.ite h.measInvalid (.ite h.holdRec h.modRec.runLaw))

theorem Block.Extends.supplySample (h : s.Extends b₀) {d} : (s.supplySample d).Extends b₀ := .ite h.holdRec h.runLaw

theorem Block.Extends.freqSample (h : s.Extends b₀) {y} : (s.freqSample y).Extends b₀ := by
  unfold Block.freqSample
  extract_lets _ _ _ _ _ _ _ _ _ _ t _ _ _ t1
  have ht : t.Extends b₀ := .ite h.runLaw.postTally h.runLaw
  have ht1 : t1.Extends b₀ := ht.modRec.update.driveMark
  exact .ite h.holdRec (.ite ht1.modSc.modSc.hsfGoto ht1.modSc)

theorem Block.Extends.takeY (h : s.Extends b₀) {y} : (s.takeY y).Extends b₀ := by
  unfold Block.takeY
  exact h.modSc

theorem Block.Extends.ampSample (h : s.Extends b₀) {y} : (s.ampSample y).Extends b₀ := by
  unfold Block.ampSample
  extract_lets _ _ _ _ _ _ _ t
  have ht : t.Extends b₀ := .ite h.modSc.modSc.measInvalid h.modSc.modSc.runLaw
  exact .ite h.modSc.holdRec (.ite ht.modSc.hsfGoto ht.modSc)

theorem Block.Extends.angleSample (h : s.Extends b₀) : s.angleSample.Extends b₀ := .ite h.holdRec h.runLaw.modSc

theorem Block.Extends.slowSample (h : s.Extends b₀) {ys} : (s.slowSample ys).Extends b₀ := by
  unfold Block.slowSample
  exact .modSc (.ite h.takeY.modSc.holdRec (.ite h.takeY.modSc.measInvalid h.takeY.modSc.runLaw))

theorem Block.Extends.loopSample (h : s.Extends b₀) {slot y v} : (s.loopSample slot y v).Extends b₀ :=
  .ite h (.ite h.toLocal.update.cutsMet.stringSample (.ite h.toLocal.update.cutsMet.freqSample.driveHs
    (.ite h.toLocal.update.cutsMet.ampSample.driveHs (.ite h.toLocal.update.cutsMet.angleSample.driveHs
      (.ite h.toLocal.update.cutsMet.slowSample.driveHs (.ite h.toLocal.update.cutsMet.opticalSample
        h.toLocal.update.cutsMet.supplySample))))))

theorem Block.Extends.loopFault (h : s.Extends b₀) {r} : (s.loopFault r).Extends b₀ := by
  unfold Block.loopFault
  extract_lets _ _ _ t
  have ht : t.Extends b₀ := h.bump.modRec.update
  exact .ite (.ite ht.faultEv.lockLoss ht.faultEv) (.ite ht.faultEv.beamCut.retarget ht.faultEv)

theorem Block.Extends.stateScrub (h : s.Extends b₀) {errs} : (s.stateScrub errs).Extends b₀ := by
  unfold Block.stateScrub
  extract_lets _ t
  have ht : t.Extends b₀ := by
    unfold t
    refine .foldl h fun _ _ ht => ?_
    split
    · exact ht.bump.raise
    · exact ht.loopFault
    · exact ht
  exact ht.update

theorem Block.Extends.reloadRecs (h : s.Extends b₀) : s.reloadRecs.Extends b₀ := h.update

theorem Block.Extends.wheelFault (h : s.Extends b₀) {kind last} : (s.wheelFault kind last).Extends b₀ := h.update.lightOut.faultEv

theorem Block.Extends.ceilingLost (h : s.Extends b₀) {g} : (s.ceilingLost g).Extends b₀ := by
  unfold Block.ceilingLost
  split
  · exact h
  · split
    · exact h
    · exact .ite h.update.postI.raise h

/-! Machine/Chain.lean -/

theorem Block.Extends.modChn (h : s.Extends b₀) {c} {f : Chain → Chain} : (s.modChn c f).Extends b₀ := h.setLs
theorem Block.Extends.chnGoto (h : s.Extends b₀) {c st} : (s.chnGoto c st).Extends b₀ := .ite h h.modChn.post

theorem Block.Extends.tableLoad (h : s.Extends b₀) {c} : (s.tableLoad c).Extends b₀ :=
  .ite h (.modChn (h.advanceTo.foldl fun _ _ ht => ht.tallyWin))

theorem Block.Extends.strobe (h : s.Extends b₀) {c width} : (s.strobe c width).Extends b₀ := h.emit

theorem Block.Extends.strobes (h : s.Extends b₀) {g width} : (s.strobes g width).Extends b₀ :=
  .ite h (h.foldl fun _ _ ht => .ite ht.strobe ht)

theorem Block.Extends.zeroChains (h : s.Extends b₀) {p : Nat → Bool} : (s.zeroChains p).Extends b₀ :=
  h.foldl fun _ _ ht => .ite ht.strobe.modChn ht

theorem Block.Extends.probeRun (h : s.Extends b₀) {g res} : (s.probeRun g res).Extends b₀ := by
  unfold Block.probeRun
  split
  · exact h
  · extract_lets _ _ t _ t1 t2
    have ht : t.Extends b₀ := .ite h.advanceTo h.toSlot
    have ht1 : t1.Extends b₀ := ht.strobes.foldl fun _ _ ht1 => ht1.modMember
    have ht2 : t2.Extends b₀ := .strobes (.ite ht1.advanceTo ht1.toSlot)
    exact ht2.foldl fun _ _ ht3 => ht3.probeEnd

theorem Block.Extends.chnBreak (h : s.Extends b₀) {c} : (s.chnBreak c).Extends b₀ :=
  h.zeroChains.chnGoto.bump.post.modChn.foldl fun _ _ ht => ht.latchMember

theorem Block.Extends.sliceStatus (h : s.Extends b₀) {c sl seg} : (s.sliceStatus c sl seg).Extends b₀ :=
  h.foldl fun _ _ ht => .ite ht (.ite ht.modMember.latchMember (.ite ht.modMember.latchMember (.ite ht.modMember.latchMember ht.modMember)))

theorem Block.Extends.sliceUpdate (h : s.Extends b₀) {c ty e} : (s.sliceUpdate c ty e).Extends b₀ := by
  unfold Block.sliceUpdate
  extract_lets -underBinder _
  split
  · exact h.modChn.foldl fun _ _ ht => ht.modMember
  · exact h.foldl fun _ _ ht => ht.modChn
  · exact h.modChn
  · exact h

theorem Block.Extends.shiftDone (h : s.Extends b₀) {c ret} : (s.shiftDone c ret).Extends b₀ := by
  unfold Block.shiftDone
  extract_lets -underBinder _
  split
  · exact h
  · split
    · extract_lets t _ _ _ _ t1 _ _ _ t2 _ t3
      have ht : t.Extends b₀ := h.emit.strobe.modChn
      have ht1 : t1.Extends b₀ := ht.sliceUpdate.foldl fun _ _ ht2 => ht2.bump.postTally
      have ht2 : t2.Extends b₀ := ht1.modChn.modChn.chnGoto
      have ht3 : t3.Extends b₀ := .ite ht2 ht2.modChn
      exact .ite (.ite ht1.modChn.chnBreak ht1.modChn.modChn.chnGoto) (.ite ht2.chnBreak (ht3.foldl fun _ _ ht6 => ht6.sliceStatus))

theorem Block.Extends.chainFrame (h : s.Extends b₀) {c} : (s.chainFrame c).Extends b₀ := by
  unfold Block.chainFrame
  extract_lets _ _ _ _ _ t
  have ht : t.Extends b₀ := h.modChn.modChn.foldl fun _ _ ht => ht.bump.faultEv
  exact .ite h.modChn (.ite (.ite h.modChn h.modChn.strobe.modChn) (.ite ht.strobe.strobe.strobe ht.strobe.strobe))

theorem Block.Extends.enumSends (h : s.Extends b₀) {c n} : (s.enumSends c n).Extends b₀ := h.strobe.emit.emit.emit.strobe.emit

theorem Block.Extends.enumerate (h : s.Extends b₀) {c n ids} : (s.enumerate c n ids).Extends b₀ :=
  .chnGoto (h.enumSends.chnGoto.modChn.foldl fun _ _ ht => ht.post)

/-! Machine/Mirror.lean -/

theorem Block.Extends.maEvt (h : s.Extends b₀) {p ty data} : (s.maEvt p ty data).Extends b₀ := h.postI
theorem Block.Extends.maFault (h : s.Extends b₀) {p ty cls data way} : (s.maFault p ty cls data way).Extends b₀ := h.faultEv
theorem Block.Extends.lineTo (h : s.Extends b₀) {p k} : (s.lineTo p k).Extends b₀ := h.modPort
theorem Block.Extends.cutLoad (h : s.Extends b₀) {p} : (s.cutLoad p).Extends b₀ := h.lineTo
theorem Block.Extends.smlFree (h : s.Extends b₀) {p code args} : (s.smlFree p code args).Extends b₀ := h.sml
theorem Block.Extends.smlMode (h : s.Extends b₀) {p} : (s.smlMode p).Extends b₀ := h.smlAt
theorem Block.Extends.smlReset (h : s.Extends b₀) {p args} : (s.smlReset p args).Extends b₀ := h.smlAt

theorem Block.Extends.smlPlane (h : s.Extends b₀) {p slot plane tag blocks} : (s.smlPlane p slot plane tag blocks).Extends b₀ :=
  h.smlAt.modPort

theorem Block.Extends.lineTrain (h : s.Extends b₀) {p} : (s.lineTrain p).Extends b₀ := .ite h.cutLoad.modPort h.cutLoad.lineTo.modPort

theorem Block.Extends.lineStart (h : s.Extends b₀) {p} : (s.lineStart p).Extends b₀ := by
  unfold Block.lineStart
  split
  next _ t heq =>
    have ht : t.Extends b₀ := .of_snd heq (h.foldl_snd fun _ _ ht => ht.update)
    exact ht.modPort

theorem Block.Extends.startPort (h : s.Extends b₀) {p} : (s.startPort p).Extends b₀ := h.modPort.update.lineStart.portGoto
theorem Block.Extends.stopPort (h : s.Extends b₀) {p} : (s.stopPort p).Extends b₀ := h.modPort.update.portGoto
theorem Block.Extends.abortPark (h : s.Extends b₀) {p} : (s.abortPark p).Extends b₀ := .ite h h.cutLoad.sml.parkPort
theorem Block.Extends.portEn (h : s.Extends b₀) {p} : (s.portEn p).Extends b₀ := .ite (.ite h h.abortPark.stopPort) (.ite h.startPort h)
theorem Block.Extends.trainPort (h : s.Extends b₀) {p why} : (s.trainPort p why).Extends b₀ := h.lineTrain.modPort

theorem Block.Extends.ident (h : s.Extends b₀) {p d} : (s.ident p d).Extends b₀ :=
  .ite h.bump (.ite h (.ite (.ite h.modPort.modPort.maEvt.trainPort.portGoto h.modPort.modPort.maEvt)
    (.maFault (.portGoto (.modPort (.ite h.modPort.zeroChains h.modPort))))))

theorem Block.Extends.linkFail (h : s.Extends b₀) {p cause} : (s.linkFail p cause).Extends b₀ := h.modPort.portGoto.postI.raise

theorem Block.Extends.lockPort (h : s.Extends b₀) {p skew} : (s.lockPort p skew).Extends b₀ := by
  unfold Block.lockPort
  extract_lets -underBinder _
  split
  · exact h.modPort.modPort.smlMode
  · exact h.modPort.maEvt.portGoto
  · exact h.modPort.maEvt.modPort
  · exact .ite h.modPort.maEvt.modPort.smlMode h.modPort.maEvt.modPort

theorem Block.Extends.abortOne (h : s.Extends b₀) {p cause slot plane tag lit cloneOnly} :
    (s.abortOne p cause slot plane tag lit cloneOnly).Extends b₀ := by
  unfold Block.abortOne
  split
  next _ t heq =>
    have ht : t.Extends b₀ := .of_snd heq (.ite_snd h h.update)
    extract_lets _ _ t1 _ t2
    have ht1 : t1.Extends b₀ := ht.modPort.setRegs.bump
    have ht2 : t2.Extends b₀ := .ite ht1.maFault.zeroChains.beamLow ht1.maFault
    exact ht2.modSc

theorem Block.Extends.abortPort (h : s.Extends b₀) {p cause slot} : (s.abortPort p cause slot).Extends b₀ :=
  .ite h.abortOne (.modPort (.foldl (h.foldl fun _ _ ht => ht.abortOne) fun _ _ ht => .modPort
    (.ite ht.cutLoad.smlFree.smlFree ht.cutLoad.smlFree)))

theorem Block.Extends.linkStatus (h : s.Extends b₀) {p state lane skew _order} : (s.linkStatus p state lane skew _order).Extends b₀ := by
  unfold Block.linkStatus
  extract_lets _ _ t
  have ht : t.Extends b₀ := .ite h.modPort.abortPort h.modPort
  exact .ite h.modPort (.ite (.ite h.modPort h.modPort.lockPort) (.ite (.ite ht.modPort.trainPort ht.modPort.trainPort) h.modPort.modPort))

theorem Block.Extends.trainTimeout (h : s.Extends b₀) {p} : (s.trainTimeout p).Extends b₀ :=
  .ite h (.ite (.modPort (.ite h h.maEvt)) (.linkFail (.modPort (.ite h h.maEvt))))

theorem Block.Extends.maCtrl {f : Block → Block} (h : s.Extends b₀) (hf : ∀ (t : Block), t.Extends b₀ → (f t).Extends b₀) {p} :
    (s.maCtrl p f).Extends b₀ :=
  .ite h (.ite h.errCause (hf _ h))

theorem Block.Extends.arrayReset (h : s.Extends b₀) {p} : (s.arrayReset p).Extends b₀ :=
  h.maCtrl fun _ ht => .ite ht.stopPort.advance.startPort ht

theorem Block.Extends.maRetrain (h : s.Extends b₀) {p} : (s.maRetrain p).Extends b₀ := h.maCtrl fun _ ht => .ite ht.trainPort.portGoto ht
theorem Block.Extends.maIdentReq (h : s.Extends b₀) {p} : (s.maIdentReq p).Extends b₀ := h.maCtrl fun _ ht => .ite ht ht.modPort.smlFree
theorem Block.Extends.takeSets (h : s.Extends b₀) {p} : (s.takeSets p).Extends b₀ := h.modPort
theorem Block.Extends.leaveDark (h : s.Extends b₀) {p k} : (s.leaveDark p k).Extends b₀ := .ite h.modPort h

theorem Block.Extends.preloadPort (h : s.Extends b₀) {p k} : (s.preloadPort p k).Extends b₀ := by
  unfold Block.preloadPort
  extract_lets -underBinder _ t
  have ht : t.Extends b₀ := .ite h.leaveDark h.leaveDark.portGoto
  split
  · exact .ite h.leaveDark.portGoto h.leaveDark
  · split
    · exact h.leaveDark.modPort
    · split
      · exact ht.modPort
      · extract_lets _ _ _ t1 t2
        have ht1 : t1.Extends b₀ := .ite ht.update ht
        have ht2 : t2.Extends b₀ := .ite ht1 ht1.bump.maEvt
        exact .ite ht2.modPort.bump.postI ht2.modPort

theorem Block.Extends.preloadClone (h : s.Extends b₀) {p k} : (s.preloadClone p k).Extends b₀ :=
  .ite (.ite h.leaveDark.portGoto h.leaveDark) (.ite h.leaveDark.modPort (.modPort (.ite h.leaveDark h.leaveDark.portGoto)))

theorem Block.Extends.preload (h : s.Extends b₀) : s.preload.Extends b₀ := by
  unfold Block.preload
  extract_lets _ _ t _ t1 t2
  have ht : t.Extends b₀ := h.advanceTo.foldl fun _ _ ht => ht.takeSets
  have ht1 : t1.Extends b₀ := ht.foldl fun _ _ ht1 => ht1.preloadPort
  have ht2 : t2.Extends b₀ := ht1.foldl fun _ _ ht2 => ht2.preloadClone
  exact .ite ht2.retarget ht2

theorem Block.Extends.portFb (h : s.Extends b₀) {p k} : (s.portFb p k).1.Extends b₀ := by
  unfold Block.portFb
  extract_lets t _ _ _ t1 _ _ _ _ _ t2 t3
  have ht : t.Extends b₀ := .ite h.portGoto h
  have ht1 : t1.Extends b₀ := .ite ht.bump.postI ht
  have ht2 : t2.Extends b₀ := .ite ht1.modPort.modPort.raise ht1.modPort
  have ht3 : t3.Extends b₀ := .ite ht2.modPort.autoClose ht2
  exact .ite_fst ht.modPort (.ite_fst ht.modPort ht3)

theorem Block.Extends.toLoad (h : s.Extends b₀) {p off} : (s.toLoad p off).Extends b₀ := .ite h.advanceTo h.toSlot
theorem Block.Extends.staged (h : s.Extends b₀) {p l} : (s.staged p l).Extends b₀ := .modPort (h.foldl fun _ _ ht => ht.modPort)

theorem Block.Extends.loadStart (h : s.Extends b₀) {p} : (s.loadStart p).Extends b₀ := by
  unfold Block.loadStart
  extract_lets -underBinder _
  split
  · split
    · exact h
    · split
      · exact h
      · extract_lets _ _ t
        have ht : t.Extends b₀ := h.toLoad.foldl fun _ _ ht => ht.smlPlane
        exact .ite ht.staged ht.modPort

theorem Block.Extends.loadEnd (h : s.Extends b₀) {p} : (s.loadEnd p).Extends b₀ := by
  unfold Block.loadEnd
  extract_lets -underBinder _
  split
  · exact h
  · split
    · extract_lets _ _ t
      have ht : t.Extends b₀ := by
        unfold t
        refine .foldl h.toLoad fun _ _ ht => ?_
        split
        · exact ht.lineTo
        · exact ht
      exact ht.staged

theorem Block.Extends.resetOn (h : s.Extends b₀) {args r} : (Block.resetOn args s r).Extends b₀ := h.modPort.smlReset

theorem Block.Extends.slotStart (h : s.Extends b₀) {g ev} : (s.slotStart g ev).Extends b₀ := by
  unfold Block.slotStart
  extract_lets -underBinder _
  split
  · exact h
  · split
    · exact h
    · extract_lets _ t _ _ _ t1 _ t2 t3 _ t4 t5
      have ht : t.Extends b₀ := h.toSlot.foldl fun _ _ ht => ht.evidence
      have ht1 : t1.Extends b₀ := .ite ht.modPort (ht.modPort.foldl fun _ _ ht2 => ht2.resetOn)
      have ht2 : t2.Extends b₀ := ht1.modMembers.modMembers
      have ht3 : t3.Extends b₀ := .ite (ht2.foldl fun _ _ ht5 => ht5.modeKerf) ht1.modMembers
      have ht4 : t4.Extends b₀ := .ite ht3.postTally.postTally ht3.postTally
      have ht5 : t5.Extends b₀ := .ite ht4.strobes ht4
      exact .ite ht5.gpioPulse ht5

theorem Block.Extends.kerfEnd (h : s.Extends b₀) {g rdyLow seenHigh} : (s.kerfEnd g rdyLow seenHigh).Extends b₀ := by
  unfold Block.kerfEnd
  extract_lets _ _ _ _ t t1
  have ht : t.Extends b₀ := .ite h.toSlot.update h.toSlot.update.bump.maFault
  have ht1 : t1.Extends b₀ := .ite ht ht.bump.maEvt
  exact .ite h (.ite ht1.abortPort (.ite ht1.modPort ht1.modPort.strobes))

theorem Block.Extends.lastDwellEnd (h : s.Extends b₀) {g ev} : (s.lastDwellEnd g ev).Extends b₀ :=
  .ite h (.strobes (.modPort (h.toSlot.foldl fun _ _ ht => ht.evidence)))

theorem Block.Extends.darkStart (h : s.Extends b₀) : s.darkStart.Extends b₀ :=
  .ite h (h.advanceTo.beamLow.foldl fun _ _ ht => .ite (ht.foldl fun _ _ ht1 => ht1.smlFree.postTally) ht)

theorem Block.Extends.planeAck (h : s.Extends b₀) {p slot plane fsn arrDiff tapDiff} :
    (s.planeAck p slot plane fsn arrDiff tapDiff).Extends b₀ := by
  unfold Block.planeAck
  extract_lets -underBinder _
  split
  · exact h
  · extract_lets -underBinder _
    split
    · exact h.modPort
    · exact .ite h.modPort h.modPort.modPort.bump.maFault

theorem Block.Extends.ackMissing (h : s.Extends b₀) {p slot} : (s.ackMissing p slot).Extends b₀ := by
  unfold Block.ackMissing
  split
  · exact h
  · exact h.modPort.bump.maEvt

theorem Block.Extends.arrayStatus (h : s.Extends b₀) {p code sev detail} : (s.arrayStatus p code sev detail).Extends b₀ :=
  .ite h (.ite (.maFault (.portGoto (.modPort (.ite h.setReg.abortPort h.setReg)))) h.setReg.maEvt)

theorem Block.Extends.darkPort (h : s.Extends b₀) {p oldRate oldMode} : (s.darkPort p oldRate oldMode).Extends b₀ := by
  unfold Block.darkPort
  extract_lets _ t
  have ht : t.Extends b₀ := .portGoto (.ite h.abortPark h.modPort)
  exact .ite h (.ite ht.modPort.modPort.trainPort (.ite ht.modPort.modPort (.ite ht.modPort ht.modPort.modPort.smlFree)))

/-! Machine/Thermal.lean -/

theorem Block.Extends.levelEvents (h : s.Extends b₀) {cl idx old new v} : (s.levelEvents cl idx old new v).Extends b₀ := by
  unfold Block.levelEvents
  extract_lets _ t t1 t2 t3
  have ht : t.Extends b₀ := .ite h (.ite h.faultEv h.post)
  have ht1 : t1.Extends b₀ := .ite ht.postTally ht
  have ht2 : t2.Extends b₀ := .ite ht1.autoClose ht1
  have ht3 : t3.Extends b₀ := .ite ht2.bump ht2
  exact .ite ht3 ht3.post

theorem Block.Extends.tsConversion (h : s.Extends b₀) {t} : (s.tsConversion t).Extends b₀ := by
  unfold Block.tsConversion
  split
  · exact h
  · extract_lets -underBinder _ _ _ _ t
    have ht : t.Extends b₀ := by
      unfold t
      refine .foldl h.update fun _ _ ht => ?_
      split
      · exact .ite ht.bump.faultEv (.ite ht.post.autoClose ht)
      · exact ht
    exact .levelEvents (.update (.ite ht.postI.raise (.ite ht.autoClose ht)))

theorem Block.Extends.ntcConversion (h : s.Extends b₀) {j c} : (s.ntcConversion j c).Extends b₀ := by
  unfold Block.ntcConversion
  split
  · exact h
  · exact .ite h (.ite h.update.bump.faultEv (.ite h.update.post.autoClose h.update))

theorem Block.Extends.modelUpdate (h : s.Extends b₀) {g} : (s.modelUpdate g).Extends b₀ := by
  unfold Block.modelUpdate
  split
  · exact h
  · exact .ite h h.update.levelEvents

theorem Block.Extends.thermApplied (h : s.Extends b₀) : s.thermApplied.Extends b₀ := by
  unfold Block.thermApplied
  extract_lets _ _ t
  have ht : t.Extends b₀ := h.update.levelEvents
  refine .foldl ht fun _ _ ht1 => ?_
  split
  · exact ht1.update.levelEvents
  · exact ht1

/-! Machine/Ring.lean -/

theorem Block.Extends.setStage (h : s.Extends b₀) {cseq st} : (s.setStage cseq st).Extends b₀ := h.update
theorem Block.Extends.cmdTail (h : s.Extends b₀) {v} : (s.cmdTail v).Extends b₀ := .ite h.setFld h.setReg
theorem Block.Extends.fetchFault (h : s.Extends b₀) {kind} : (s.fetchFault kind).Extends b₀ := h.setFld.post
theorem Block.Extends.postCseq (h : s.Extends b₀) {ty data} : (s.postCseq ty data).Extends b₀ := h.postI

theorem Block.Extends.take (h : s.Extends b₀) {e} : (s.take e).Extends b₀ := by
  unfold Block.take
  extract_lets _ _ _ _ _ _ _ t
  have ht : t.Extends b₀ := .ite h.setRegs.update.postI h.setRegs.update
  exact .ite (.ite ht.postComplete ht) (.ite h.setFld.postCseq h.setReg.bump.postCseq)

theorem Block.Extends.cmdEntry (h : s.Extends b₀) {host} : (s.cmdEntry host).1.Extends b₀ := by
  unfold Block.cmdEntry
  split
  · split
    next t _ heq =>
      have ht : t.Extends b₀ := .of_fst heq h.readVirt
      exact ht
    next t1 _ _ _ heq =>
      have ht1 : t1.Extends b₀ := .of_fst heq h.readVirt
      exact ht1
  · exact .ite_fst h h

theorem Block.Extends.ringResync (h : s.Extends b₀) {v} : (s.ringResync v).Extends b₀ := h.setReg.setFld.postCseq

theorem Block.Extends.postCause (h : s.Extends b₀) : s.postCause.Extends b₀ := .ite (h.update.post.foldl fun _ _ ht => ht.postI.setSe) h

theorem Block.Extends.ringCtrl (h : s.Extends b₀) {v} : (s.ringCtrl v).Extends b₀ := by
  unfold Block.ringCtrl
  extract_lets _ _ t
  have ht : t.Extends b₀ := .ite h.setReg.setReg.setFld h.setReg
  exact .ite ht.setReg.postCause (.ite ht.update ht)

theorem Block.Extends.raise63 (h : s.Extends b₀) : s.raise63.Extends b₀ := .ite h h.update.message

theorem Block.Extends.modCheck (h : s.Extends b₀) : s.modCheck.Extends b₀ := .ite h.raise63 h

theorem Block.Extends.evtStepped (h : s.Extends b₀) : s.evtStepped.Extends b₀ := h.setRegs.update.modCheck

theorem Block.Extends.putEvent (h : s.Extends b₀) {e} : (s.putEvent e).1.Extends b₀ := by
  unfold Block.putEvent
  extract_lets _
  split
  · split
    next t heq =>
      have ht : t.Extends b₀ := .of_fst heq h.writeVirt
      exact ht.evtStepped
    next t1 _ heq =>
      have ht1 : t1.Extends b₀ := .of_fst heq h.writeVirt
      exact ht1
  · exact .ite_fst h.emit.evtStepped h

theorem Block.Extends.loseEvent (h : s.Extends b₀) : s.loseEvent.Extends b₀ := h.setReg.bump.update

theorem Block.Extends.putOverflow (h : s.Extends b₀) : s.putOverflow.Extends b₀ := by
  unfold Block.putOverflow
  split
  · exact h
  · split
    next t heq =>
      have ht : t.Extends b₀ := .of_fst heq h.putEvent
      exact ht.update
    next t1 heq =>
      have ht1 : t1.Extends b₀ := .of_fst heq h.putEvent
      exact ht1.setFld

theorem Block.Extends.eventWrite (h : s.Extends b₀) : s.eventWrite.Extends b₀ := by
  unfold Block.eventWrite
  extract_lets -underBinder _
  split
  · exact h.putOverflow
  · extract_lets _ t
    have ht : t.Extends b₀ := h.putOverflow.update
    split
    · exact ht.loseEvent.putOverflow
    · split
      next t1 heq =>
        have ht1 : t1.Extends b₀ := .of_fst heq ht.putEvent
        exact ht1
      next t2 heq =>
        have ht2 : t2.Extends b₀ := .of_fst heq ht.putEvent
        exact ht2.loseEvent.setFld.putOverflow

theorem Block.Extends.eventWriteFault (h : s.Extends b₀) : s.eventWriteFault.Extends b₀ := by
  unfold Block.eventWriteFault
  split
  · exact .ite h.setFld h
  · exact h.update.loseEvent.setFld

theorem Block.Extends.evtHead (h : s.Extends b₀) {v} : (s.evtHead v).Extends b₀ :=
  .ite h.setFld (.putOverflow (.ite h.setReg.update.unpend h.setReg.update.unpend.modCheck))

/-! Machine/Budget.lean -/

theorem Block.Extends.guestGrants (h : s.Extends b₀) {old : Nat → Word} : (s.guestGrants old).Extends b₀ :=
  h.foldl fun _ _ ht => .ite (.post (.ite ht.post ht)) (.ite ht.post ht)

/-! Machine/Dram.lean -/

theorem Block.Extends.pairGoto (h : s.Extends b₀) {q st} : (s.pairGoto q st).Extends b₀ := .ite h h.modPair.postI

theorem Block.Extends.uncorrectable (h : s.Extends b₀) {addr client} : (s.uncorrectable addr client).Extends b₀ :=
  h.setDc.bump.bump.setRegs.faultEv

theorem Block.Extends.ueClient (h : s.Extends b₀) {addr client} : (s.ueClient addr client).Extends b₀ :=
  .ite (.ite h.abortPort h) (.ite h.update (.ite h.setDc h))

theorem Block.Extends.corrected (h : s.Extends b₀) {addr} : (s.corrected addr).Extends b₀ := h.bump.bump.raise.postTally

theorem Block.Extends.scrubStamp (h : s.Extends b₀) : s.scrubStamp.Extends b₀ := h.setDc

theorem Block.Extends.scrubRead (h : s.Extends b₀) {addr result} : (s.scrubRead addr result).Extends b₀ :=
  .ite h.uncorrectable (.ite h.corrected h)

theorem Block.Extends.scrubTo (h : s.Extends b₀) {q b} : (s.scrubTo q b).Extends b₀ := h.setDc

theorem Block.Extends.scrubStep (h : s.Extends b₀) {result} : (s.scrubStep result).Extends b₀ := by
  unfold Block.scrubStep
  split
  · exact h
  · extract_lets _ _ t
    have ht : t.Extends b₀ := h.toLocal.scrubStamp.scrubRead
    exact .ite h (.ite ht.scrubTo ht.scrubTo)

theorem Block.Extends.slackSample (h : s.Extends b₀) {q v arr} : (s.slackSample q v arr).Extends b₀ := by
  unfold Block.slackSample
  extract_lets _ t t1 _ _ _ _ _ _ ok2 _ _ _ t3
  clear_value ok2
  have ht : t.Extends b₀ := h.toLocal.modPair
  have ht1 : t1.Extends b₀ := ht.foldl fun _ _ ht1 => ht1.dramReq
  have ht3 : t3.Extends b₀ := ht1.schedule.modPair
  exact .ite ht3.postTally ht3

theorem Block.Extends.dramFrame (h : s.Extends b₀) : s.dramFrame.Extends b₀ := h.setDc.foldl fun _ _ ht => ht.modPair

theorem Block.Extends.refreshDue (h : s.Extends b₀) {ch idle} : (s.refreshDue ch idle).Extends b₀ :=
  .ite h.modPair (.ite h.modPair (.ite (.ite h.modPair h.postTally) h.modPair))

theorem Block.Extends.ratePoll (h : s.Extends b₀) {ch val above} : (s.ratePoll ch val above).Extends b₀ :=
  .ite h.setDc.faultEv (.ite h.setDc.autoClose h.setDc)

theorem Block.Extends.loadDelays (h : s.Extends b₀) {q sp} : (s.loadDelays q sp).Extends b₀ := by
  unfold Block.loadDelays
  exact h.modPair.setDc.autoClose

theorem Block.Extends.trimLane (h : s.Extends b₀) {q lane n} : (s.trimLane q lane n).Extends b₀ :=
  .ite h.modPair.setDc.faultEv (.ite h.modPair.setDc.autoClose h.modPair.setDc)

theorem Block.Extends.stepEvent (h : s.Extends b₀) {dir} : (s.stepEvent dir).Extends b₀ := h.post
theorem Block.Extends.changeDue (h : s.Extends b₀) {cause} : (s.changeDue cause).Extends b₀ := .ite h.setDc h.setDc

theorem Block.Extends.stepDown (h : s.Extends b₀) : s.stepDown.Extends b₀ :=
  .ite (.ite h.update.setDc.update.stepEvent h.update.setDc.update.stepEvent.changeDue) h.update

theorem Block.Extends.stepUp (h : s.Extends b₀) : s.stepUp.Extends b₀ := h.setDc.update.stepEvent.changeDue

theorem Block.Extends.changeDone (h : s.Extends b₀) : s.changeDone.Extends b₀ := by
  unfold Block.changeDone
  split
  · exact h
  · exact .ite h h.setDc.bump.post

theorem Block.Extends.changeStart (h : s.Extends b₀) {cause} : (s.changeStart cause).Extends b₀ := .ite h.setDc.changeDone h.setDc

theorem Block.Extends.dramFallbackEntry (h : s.Extends b₀) : s.dramFallbackEntry.Extends b₀ := by
  unfold Block.dramFallbackEntry
  split
  · exact h.update.changeStart
  · exact h

theorem Block.Extends.pairChange (h : s.Extends b₀) {q} : (s.pairChange q).Extends b₀ := by
  unfold Block.pairChange
  split
  · exact h
  · exact .ite h (.changeDone (.setDc (.autoClose (.ite h.modPair.pairGoto.loadDelays.pairGoto h.modPair.loadDelays))))

theorem Block.Extends.freqWait (h : s.Extends b₀) {q} : (s.freqWait q).Extends b₀ := by
  unfold Block.freqWait
  split
  · exact h
  · exact .ite h (.ite h.advance.setDc.postI h.advance.setDc.raise)

theorem Block.Extends.selfRefresh (h : s.Extends b₀) {q} : (s.selfRefresh q).Extends b₀ := .ite h.modPair.pairGoto.pairGoto.bump.postTally h

theorem Block.Extends.leaveRefresh (h : s.Extends b₀) {q} : (s.leaveRefresh q).Extends b₀ :=
  .ite h.pairGoto.modPair.pairGoto (.ite h.pairGoto h)

theorem Block.Extends.pairIn (h : s.Extends b₀) {q} : (s.pairIn q).Extends b₀ := .pairGoto (.loadDelays (.ite h.pairGoto h))

theorem Block.Extends.pairService (h : s.Extends b₀) {q} : (s.pairService q).Extends b₀ :=
  .ite (.ite h h.pairGoto) (.ite (.ite h h.pairGoto) (.ite h.pairIn (.ite h.pairIn h)))

theorem Block.Extends.eyeBytes (h : s.Extends b₀) {mask} : (s.eyeBytes mask).1.Extends b₀ := by
  unfold Block.eyeBytes
  split
  · exact h
  · exact h.update

theorem Block.Extends.writeBuf (h : s.Extends b₀) {dev addr bs} : (s.writeBuf dev addr bs).1.Extends b₀ := by
  unfold Block.writeBuf
  split
  · split
    next t heq =>
      have ht : t.Extends b₀ := .of_fst heq h.writeVirt
      exact ht
    next t1 _ heq =>
      have ht1 : t1.Extends b₀ := .of_fst heq h.writeVirt
      exact ht1
  · exact h.emit

theorem Block.Extends.readBuf (h : s.Extends b₀) {dev addr n host} : (s.readBuf dev addr n host).1.Extends b₀ := by
  unfold Block.readBuf
  split
  · split
    next t _ heq =>
      have ht : t.Extends b₀ := .of_fst heq h.readVirt
      exact ht
    next t1 _ _ heq =>
      have ht1 : t1.Extends b₀ := .of_fst heq h.readVirt
      exact ht1
  · exact h

theorem Block.Extends.sweepOver (h : s.Extends b₀) {w} : (s.sweepOver w).Extends b₀ := h.setDc.loadDelays.pairGoto
theorem Block.Extends.sweepStart (h : s.Extends b₀) {w} : (s.sweepStart w).Extends b₀ := h.setDc.modPair.pairGoto

theorem Block.Extends.sweepAccept (h : s.Extends b₀) {c} : (s.sweepAccept c).Extends b₀ :=
  .ite h.complete (.ite h.complete (.ite h.complete h.sweepStart.setStage))

theorem Block.Extends.sweepEnd (h : s.Extends b₀) {w pass xok} : (s.sweepEnd w pass xok).Extends b₀ := by
  unfold Block.sweepEnd
  extract_lets -underBinder masks
  split
  next t _ heq =>
    have ht : t.Extends b₀ := .of_fst heq (h.foldl_fst fun _ _ ht => ht.eyeBytes)
    extract_lets -underBinder
    split
    next u _ heq =>
      have hu : u.Extends b₀ := .of_fst heq ht.sweepOver.writeBuf
      exact hu.post.complete

/-! Machine/Seedbank.lean -/

theorem Block.Extends.seedPut (h : s.Extends b₀) {a bs} : (s.seedPut a bs).Extends b₀ := h.setSe
theorem Block.Extends.seedAsk (h : s.Extends b₀) {r} : (s.seedAsk r).Extends b₀ := h.setSe

theorem Block.Extends.seedStep (h : s.Extends b₀) {n} : (s.seedStep n).Extends b₀ := by
  unfold Block.seedStep
  split
  · exact h
  · exact h.advance.seedPut.setSe

theorem Block.Extends.chkRewrite (h : s.Extends b₀) {ty slot} : (s.chkRewrite ty slot).Extends b₀ :=
  .ite h (.post (.bump (.ite h.advance.seedPut h.advance.seedPut)))

theorem Block.Extends.seedStart (h : s.Extends b₀) : s.seedStart.Extends b₀ := by
  unfold Block.seedStart
  split
  · split
    · exact .ite h.setSe (.ite h.setSe.chkRewrite h)
    · exact h
  · exact h

theorem Block.Extends.seedCommit (h : s.Extends b₀) : s.seedCommit.1.Extends b₀ := by
  unfold Block.seedCommit
  split
  · exact h
  · exact h.seedStep.setSe.bump.post

theorem Block.Extends.seedAbandon (h : s.Extends b₀) {result} : (s.seedAbandon result).Extends b₀ := by
  unfold Block.seedAbandon
  split
  · exact h
  · extract_lets _ _ _ t
    have ht : t.Extends b₀ := .ite h.setSe.update h.setSe
    split
    · exact ht.bump.post.complete
    · exact ht.bump.post

theorem Block.Extends.seedUncorr (h : s.Extends b₀) {w} : (s.seedUncorr w).Extends b₀ := h.bump.faultEv
theorem Block.Extends.slotErrors (h : s.Extends b₀) {ty slot} : (s.slotErrors ty slot).Extends b₀ := h.foldl fun _ _ ht => ht.seedUncorr

theorem Block.Extends.chkAsk (h : s.Extends b₀) {ty slot} : (s.chkAsk ty slot).Extends b₀ :=
  .ite (.ite h.setSe h.setSe.seedAsk) h.setSe.chkRewrite

theorem Block.Extends.seedCheck (h : s.Extends b₀) {ty slot} : (s.seedCheck ty slot).Extends b₀ :=
  .ite h.slotErrors.chkAsk (.ite h.slotErrors.post h.slotErrors)

theorem Block.Extends.reservedPut (h : s.Extends b₀) {kind bs} : (s.reservedPut kind bs).Extends b₀ := h.seedPut

theorem Block.Extends.copyStep (h : s.Extends b₀) {n} : (s.copyStep n).Extends b₀ := by
  unfold Block.copyStep
  split
  · exact h
  · exact h.advance.seedPut.setSe

theorem Block.Extends.reservedAsk (h : s.Extends b₀) {kind bs} : (s.reservedAsk kind bs).Extends b₀ := h.seedAsk

theorem Block.Extends.copyStart (h : s.Extends b₀) : s.copyStart.Extends b₀ := by
  unfold Block.copyStart
  split
  · split
    · exact h.setSe
    · exact h
  · exact h

theorem Block.Extends.scrubWord (h : s.Extends b₀) {w} : (s.scrubWord w).Extends b₀ := h.setSe
theorem Block.Extends.seedSel (h : s.Extends b₀) {v} : (s.seedSel v).Extends b₀ := .ite h.setReg.setRegs h.setReg.setRegs
theorem Block.Extends.blow (h : s.Extends b₀) {i} : (s.blow i).Extends b₀ := ⟨h.sized, fun j hj => Block.fuse_blow (h.fuse j hj)⟩

theorem Block.Extends.blowAll (h : s.Extends b₀) {l} : (s.blowAll l).Extends b₀ := .ite h.setSe (h.foldl fun _ _ ht => ht.blow)

theorem Block.Extends.blowHeld (h : s.Extends b₀) : s.blowHeld.Extends b₀ :=
  .foldl (h.setSe.foldl fun _ _ ht => ht.blow) fun _ _ ht => ht.complete

theorem Block.Extends.verified (h : s.Extends b₀) {ok} : (s.verified ok).Extends b₀ := .ite h.bump.postTally h.bump.postTally.bump

theorem Block.Extends.seedStore (h : s.Extends b₀) {c host} : (s.seedStore c host).Extends b₀ := by
  unfold Block.seedStore
  extract_lets _
  split
  · exact h.complete
  · split
    · exact h.complete
    · split
      next t heq =>
        have ht : t.Extends b₀ := .of_fst heq h.readBuf
        exact ht.complete
      next t1 _ heq =>
        have ht1 : t1.Extends b₀ := .of_fst heq h.readBuf
        exact .ite (.complete (.post (.ite ht1.verified ht1))) (.setStage (.seedAsk (.ite ht1.verified ht1)))

theorem Block.Extends.seedLoad (h : s.Extends b₀) {c xok} : (s.seedLoad c xok).Extends b₀ :=
  .ite h.complete (.ite h.complete (.complete (.writeBuf (.ite h.slotErrors.setSe h.slotErrors))))

/-! Machine/Trust.lean -/

theorem Block.Extends.measure (h : s.Extends b₀) {ty digest} : (s.measure ty digest).Extends b₀ := h.update.setMem
theorem Block.Extends.rsaQueue (h : s.Extends b₀) {q} : (s.rsaQueue q).Extends b₀ := h.update
theorem Block.Extends.rsaWaited (h : s.Extends b₀) {since} : (s.rsaWaited since).Extends b₀ := h.update

theorem Block.Extends.attestStart (h : s.Extends b₀) {c} : (s.attestStart c).Extends b₀ :=
  .ite h.complete (.ite h.complete (.ite h.rsaQueue h.update.setStage))

theorem Block.Extends.attestEnd (h : s.Extends b₀) {a sig xok} : (s.attestEnd a sig xok).Extends b₀ :=
  .ite h.update.bump.postTally.writeBuf.postI.complete h.update.bump.postTally.writeBuf.complete

theorem Block.Extends.ownerPackage (h : s.Extends b₀) {c host} : (s.ownerPackage c host).1.Extends b₀ := by
  unfold Block.ownerPackage
  extract_lets _
  split
  · exact h
  · split
    · exact h
    · split
      · exact h
      · split
        next t _ heq =>
          have ht : t.Extends b₀ := .of_fst heq h.readBuf
          exact .ite_fst ht ht
        next t1 heq =>
          have ht1 : t1.Extends b₀ := .of_fst heq h.readBuf
          exact ht1

theorem Block.Extends.ownerDone (h : s.Extends b₀) {o fuses} : (s.ownerDone o fuses).Extends b₀ :=
  .ite h.blowAll.post.setSe.setStage h.blowAll.post.complete

theorem Block.Extends.ownerRecord (h : s.Extends b₀) {o} : (s.ownerRecord o).Extends b₀ := h.update.seedAsk.setStage
theorem Block.Extends.authorised (h : s.Extends b₀) {o p} : (s.authorised o p).1.Extends b₀ := h.verified

theorem Block.Extends.ownerInstall (h : s.Extends b₀) {c p} : (s.ownerInstall c p).Extends b₀ :=
  .ite h.complete (.ite (.ownerRecord (.ite_fst h h.authorised)) (.complete (.ite_fst h h.authorised)))

theorem Block.Extends.ownerRevoke (h : s.Extends b₀) {c p} : (s.ownerRevoke c p).Extends b₀ :=
  .ite h.authorised.complete (.ite h.authorised.complete h.authorised.ownerDone)

theorem Block.Extends.ownerPolicyOn (h : s.Extends b₀) {c p} : (s.ownerPolicyOn c p).Extends b₀ :=
  .ite h.authorised.ownerDone h.authorised.complete

theorem Block.Extends.ownerRestore (h : s.Extends b₀) {c p} : (s.ownerRestore c p).Extends b₀ := .ite h.ownerRecord h.complete

theorem Block.Extends.ownerWritten (h : s.Extends b₀) : s.ownerWritten.Extends b₀ := by
  unfold Block.ownerWritten
  split
  · exact h
  · exact h.update.ownerDone

theorem Block.Extends.ownerKey {f : Block → Cmd → List Byte → Block} (h : s.Extends b₀)
    (hf : ∀ (t : Block) x1 x2, t.Extends b₀ → (f t x1 x2).Extends b₀) {cseq op host} :
    (s.ownerKey cseq op host f).Extends b₀ := by
  unfold Block.ownerKey
  split
  · split
    · exact h.complete
    · split
      · exact h
      · split
        next t _ heq =>
          have ht : t.Extends b₀ := .of_fst heq h.ownerPackage
          exact hf _ _ _ ht
        next t1 _ heq =>
          have ht1 : t1.Extends b₀ := .of_fst heq h.ownerPackage
          exact ht1.complete
  · exact h

theorem Block.Extends.newChallenge (h : s.Extends b₀) {random} : (s.newChallenge random).Extends b₀ := h.update

theorem Block.Extends.jtagResponse (h : s.Extends b₀) {modulus scope sig} : (s.jtagResponse modulus scope sig).Extends b₀ :=
  .post (.update (.ite h.verified h))

/-! Machine/Time.lean -/

theorem Block.Extends.postStep (h : s.Extends b₀) {off} : (s.postStep off).Extends b₀ := h.post
theorem Block.Extends.stepFt (h : s.Extends b₀) {off} : (s.stepFt off).Extends b₀ := h.update.postStep

theorem Block.Extends.correct (h : s.Extends b₀) {off} : (s.correct off).Extends b₀ :=
  .ite h.update (.ite h.update.stepFt (.ite h.update h.update))

theorem Block.Extends.putOffset (h : s.Extends b₀) {off} : (s.putOffset off).Extends b₀ := h.setReg
theorem Block.Extends.goSrc (h : s.Extends b₀) {c} : (s.goSrc c).Extends b₀ := .ite (.ite h h.update) h.update.post
theorem Block.Extends.srcUp (h : s.Extends b₀) {c} : (s.srcUp c).Extends b₀ := .ite h.goSrc h
theorem Block.Extends.stamp (h : s.Extends b₀) {c off} : (s.stamp c off).Extends b₀ := .ite h h.update.putOffset.setReg.correct

theorem Block.Extends.requalify (h : s.Extends b₀) {c} : ∀ t ∈ s.requalify c, t.Extends b₀ := by
  fun_cases Block.requalify s c <;> rintro t ⟨⟩
  exact h.advance.goSrc

theorem Block.Extends.goodEdge (h : s.Extends b₀) : s.goodEdge.Extends b₀ := .ite h.update.srcUp h.update

theorem Block.Extends.fsyncEdge (h : s.Extends b₀) : s.fsyncEdge.Extends b₀ :=
  .ite (.ite h h.update) (.ite h.goodEdge.update.stamp h.goodEdge)

theorem Block.Extends.fabricStamp (h : s.Extends b₀) {off} : (s.fabricStamp off).Extends b₀ := .stamp (.ite h.update h.update.srcUp)
theorem Block.Extends.ftSet (h : s.Extends b₀) {v} : (s.ftSet v).Extends b₀ := .ite h (.ite h.errCause h.putOffset.correct)

theorem Block.Extends.fsyncDrop (h : s.Extends b₀) : s.fsyncDrop.Extends b₀ := h.update

theorem Block.Extends.timeCtrl (h : s.Extends b₀) {v} : (s.timeCtrl v).Extends b₀ := by
  unfold Block.timeCtrl
  extract_lets _ _ _ t _ t1
  have ht : t.Extends b₀ := .ite h.errCause h
  have ht1 : t1.Extends b₀ := .ite ht.setReg ht.setReg.fsyncDrop
  exact .ite ht1.goSrc ht1

theorem Block.Extends.tcAnchor (h : s.Extends b₀) {v ft} : (s.tcAnchor v ft).Extends b₀ := .ite h.update.post h.update
theorem Block.Extends.tcFabric (h : s.Extends b₀) {d} : (s.tcFabric d).Extends b₀ := .ite h.tcAnchor h

/-! Machine/Fabric.lean -/

theorem Block.Extends.modF (h : s.Extends b₀) {p} {f : FabPort → FabPort} : (s.modF p f).Extends b₀ := h.update
theorem Block.Extends.postF (h : s.Extends b₀) {p ty data} : (s.postF p ty data).Extends b₀ := h.postI
theorem Block.Extends.fGoto (h : s.Extends b₀) {p st} : (s.fGoto p st).Extends b₀ := .ite h h.modF.postF
theorem Block.Extends.putFrame (h : s.Extends b₀) {p cls b} : (s.putFrame p cls b).Extends b₀ := h.emit
theorem Block.Extends.freeCells (h : s.Extends b₀) {p c n} : (s.freeCells p c n).Extends b₀ := h.modF

theorem Block.Extends.unhold (h : s.Extends b₀) {id} : (s.unhold id).Extends b₀ := by
  unfold Block.unhold
  split
  · exact h
  · exact .ite h.update.freeCells h.update

theorem Block.Extends.sendOne (h : s.Extends b₀) {p i} : (s.sendOne p i).Extends b₀ := by
  unfold Block.sendOne
  extract_lets -underBinder _
  split
  · exact h
  · extract_lets _
    split
    · exact h.modF.putFrame.unhold
    · exact h.modF.putFrame

theorem Block.Extends.pumpN (h : s.Extends b₀) {p n} : (s.pumpN p n).Extends b₀ := by
  induction n generalizing s with
  | zero => exact h
  | succ n ih =>
    rw [Block.pumpN]
    split
    · exact ih h.sendOne
    · exact h

theorem Block.Extends.pump (h : s.Extends b₀) {p} : (s.pump p).Extends b₀ := h.pumpN
theorem Block.Extends.enqueue (h : s.Extends b₀) {p t} : (s.enqueue p t).Extends b₀ := h.modF.pump
theorem Block.Extends.sendLocal (h : s.Extends b₀) {p cls proto pay} : (s.sendLocal p cls proto pay).Extends b₀ := h.enqueue

theorem Block.Extends.flood (h : s.Extends b₀) {proto pay but} : (s.flood proto pay but).Extends b₀ :=
  h.foldl fun _ _ ht => .ite ht ht.sendLocal

theorem Block.Extends.linkCtrl (h : s.Extends b₀) {p nak audit} : (s.linkCtrl p nak audit).Extends b₀ := h.modF.putFrame

theorem Block.Extends.resend (h : s.Extends b₀) {p} : (s.resend p).Extends b₀ :=
  .postTally (.bump (.modF (h.foldl fun _ _ ht => ht.putFrame)))

theorem Block.Extends.nbrDrop (h : s.Extends b₀) {p} : (s.nbrDrop p).Extends b₀ := .ite h.modF.update h
theorem Block.Extends.retrain (h : s.Extends b₀) {p cause} : (s.retrain p cause).Extends b₀ := h.nbrDrop.fGoto.bump.modF.faultEv
theorem Block.Extends.retry (h : s.Extends b₀) {p} : (s.retry p).Extends b₀ := .ite h.retrain h.resend

theorem Block.Extends.sendAcked (h : s.Extends b₀) {cseq} : (s.sendAcked cseq).Extends b₀ := by
  unfold Block.sendAcked
  split
  · exact h
  · exact .ite h.update.complete h.update

theorem Block.Extends.acknowledge (h : s.Extends b₀) {p ack} : (s.acknowledge p ack).Extends b₀ := by
  unfold Block.acknowledge
  extract_lets _ _ t
  have ht : t.Extends b₀ := .ite h h.modF
  refine .foldl ht fun _ _ ht1 => ?_
  split
  · exact ht1.sendAcked
  · exact ht1

theorem Block.Extends.auditIn (h : s.Extends b₀) {p d} : (s.auditIn p d).Extends b₀ := h.modF
theorem Block.Extends.creditIn (h : s.Extends b₀) {p d} : (s.creditIn p d).Extends b₀ := h.modF

theorem Block.Extends.linkCtrlIn (h : s.Extends b₀) {p d audit} : (s.linkCtrlIn p d audit).Extends b₀ :=
  .pump (.ite (h.acknowledge.auditIn.foldl fun _ _ ht => ht.putFrame) (.ite h.acknowledge.creditIn.retry h.acknowledge.creditIn))

theorem Block.Extends.imagePut (h : s.Extends b₀) {off bs} : (s.imagePut off bs).Extends b₀ := h.update
theorem Block.Extends.bootAsk (h : s.Extends b₀) {p off} : (s.bootAsk p off).Extends b₀ := h.sendLocal

theorem Block.Extends.bootData (h : s.Extends b₀) {p d} : (s.bootData p d).Extends b₀ :=
  .ite h (.ite h.update.imagePut.bootAsk h.update.imagePut)

theorem Block.Extends.romTrain (h : s.Extends b₀) : s.romTrain.Extends b₀ := .ite (.ite (.ite h h.modF) (.modF (.ite h h.modF))) h

theorem Block.Extends.admitStart (h : s.Extends b₀) {p nonce} : (s.admitStart p nonce).Extends b₀ := h.modF.sendLocal.sendLocal

theorem Block.Extends.fLinkUp (h : s.Extends b₀) {p nonce} : (s.fLinkUp p nonce).Extends b₀ := by
  unfold Block.fLinkUp
  extract_lets _ t _ t1
  have ht : t.Extends b₀ := .ite h.modF h
  have ht1 : t1.Extends b₀ := ht.modF.fGoto.linkCtrl
  exact .ite ht1.admitStart ht1.update

theorem Block.Extends.moduleFollows (h : s.Extends b₀) {p} : (s.moduleFollows p).Extends b₀ := .ite (.emit (.ite h.emit h)) (.ite h.emit h)

theorem Block.Extends.fRefresh (h : s.Extends b₀) {p} : (s.fRefresh p).Extends b₀ :=
  .ite (.ite h h.nbrDrop.fGoto.moduleFollows) (.ite (.ite h h.nbrDrop.fGoto.moduleFollows) (.ite h.fGoto.moduleFollows h))

theorem Block.Extends.fabricApply (h : s.Extends b₀) : s.fabricApply.Extends b₀ := h.foldl fun _ _ ht => ht.fRefresh

theorem Block.Extends.moduleAlarm (h : s.Extends b₀) {p flags} : (s.moduleAlarm p flags).Extends b₀ := h.faultEv
theorem Block.Extends.modulePolled (h : s.Extends b₀) {p temp alarm} : (s.modulePolled p temp alarm).Extends b₀ := h.advance.modF

theorem Block.Extends.awaitReplay (h : s.Extends b₀) {p c cells lseq} : (s.awaitReplay p c cells lseq).Extends b₀ :=
  .ite h.modF.linkCtrl h.modF

theorem Block.Extends.drift (h : s.Extends b₀) {p rem} : (s.drift p rem).Extends b₀ :=
  .ite h (.linkCtrl (h.foldl fun _ _ ht => .ite ht ht.bump.postF))

theorem Block.Extends.acceptSeq (h : s.Extends b₀) {p c cells lseq} : (s.acceptSeq p c cells lseq).Extends b₀ :=
  .ite h.modF.modF.drift h.modF

theorem Block.Extends.flowIn (h : s.Extends b₀) {b} : (s.flowIn b).1.Extends b₀ := by
  unfold Block.flowIn
  split
  · exact h
  · extract_lets -underBinder _
    split
    · exact h.update
    · exact .ite_fst (.ite h.update h.update.post) h.update

theorem Block.Extends.putCP11 (h : s.Extends b₀) {va bs cur} : ∀ t ∈ s.putCP11 va bs cur, t.Extends b₀ := by
  induction bs generalizing s va cur with
  | nil => rintro t ⟨⟩; exact h
  | cons b bs ih =>
    unfold Block.putCP11
    extract_lets pa
    clear_value pa
    split
    · exact ih h.setMemB.freshBlock
    · split
      · extract_lets pa
        split
        · exact ih h.setMemB.freshBlock
        · rintro t ⟨⟩
      · rintro t ⟨⟩

theorem Block.Extends.hostRx (h : s.Extends b₀) {b} : (s.hostRx b).Extends b₀ := by
  unfold Block.hostRx
  extract_lets _
  split
  · exact h.bump.postTally
  · split
    next t heq =>
      have ht : t.Extends b₀ := h.putCP11 _ heq
      exact ht.setReg.post
    · exact h.bump.postTally

theorem Block.Extends.forward (h : s.Extends b₀) {p c cells b out} : (s.forward p c cells b out).Extends b₀ :=
  .ite h.freeCells (.ite h.bump.postTally.freeCells (h.update.foldl fun _ _ ht => ht.enqueue))

theorem Block.Extends.deliver (h : s.Extends b₀) {b} : (s.deliver b).Extends b₀ := by
  unfold Block.deliver
  split
  next t heq =>
    have ht : t.Extends b₀ := .of_fst heq h.flowIn
    exact .ite ht.tcFabric ht
  next t1 heq =>
    have ht1 : t1.Extends b₀ := .of_fst heq h.flowIn
    exact ht1

theorem Block.Extends.dispatch (h : s.Extends b₀) {p c cells b} : (s.dispatch p c cells b).Extends b₀ := by
  unfold Block.dispatch
  extract_lets _ t
  have ht : t.Extends b₀ := .ite h.deliver h
  split
  · exact .ite h h.freeCells
  · split
    · exact .ite h h.freeCells
    · split
      · exact .ite h (.ite (.ite (.ite h.bootData h) h.deliver) (.freeCells (.ite (.ite h.bootData h) h.deliver)))
      · split
        · exact .ite h h.freeCells
        · split
          · exact .ite (.ite h.bump.postTally h.bump.postTally.freeCells) ht.forward
          · split
            · exact .ite h.bump h.bump.freeCells
            · exact .ite h.deliver h.deliver.freeCells
            · exact .forward (.ite h.bump.postTally h)

theorem Block.Extends.badCrc (h : s.Extends b₀) {p c cells} : (s.badCrc p c cells).Extends b₀ :=
  .ite h.bump.postTally.awaitReplay (.ite h.bump.postTally.modF h.bump.postTally)

theorem Block.Extends.frameIn (h : s.Extends b₀) {p data bad} : (s.frameIn p data bad).Extends b₀ :=
  .ite h.badCrc (.ite (.ite h.acceptSeq.dispatch (.ite h.awaitReplay h)) (.ite h.modF.dispatch (.ite h.dispatch h)))

theorem Block.Extends.sendOn (h : s.Extends b₀) {cseq frames out} : (s.sendOn cseq frames out).Extends b₀ :=
  h.update.foldl fun _ _ ht => ht.foldl fun _ _ ht1 => ht1.enqueue

theorem Block.Extends.sendMsg (h : s.Extends b₀) {c msg r} : (s.sendMsg c msg r).Extends b₀ := by
  unfold Block.sendMsg
  extract_lets -underBinder _ _ _ _ _ t
  have ht : t.Extends b₀ := h.update.setStage
  split
  · extract_lets _ t1
    have ht1 : t1.Extends b₀ := .ite (ht.foldl fun _ _ ht1 => ht1.hostRx) ht
    exact .ite ht1.complete ht1.sendOn
  · exact .complete (ht.foldl fun _ _ ht1 => ht1.hostRx)
  · exact .sendOn (.ite ht.bump.postTally ht)

theorem Block.Extends.timecode (h : s.Extends b₀) {c} : (s.timecode c).Extends b₀ :=
  .ite h.complete (.complete (.ite (.foldl (.ite h.tcAnchor h) fun _ _ ht => ht.enqueue) (.ite h.tcAnchor h)))

theorem Block.Extends.creditCapture (h : s.Extends b₀) {p v} : (s.creditCapture p v).Extends b₀ := h.setRegs

/-! Machine/Route.lean -/

theorem Block.Extends.fChange (h : s.Extends b₀) : s.fChange.Extends b₀ := h.update

theorem Block.Extends.helloIn (h : s.Extends b₀) {p d} : (s.helloIn p d).Extends b₀ := by
  unfold Block.helloIn
  extract_lets _ _ _ _ _ _ _ t
  have ht : t.Extends b₀ := .ite h.modF.update h.modF
  exact .ite (ht.bump.foldl fun _ _ ht1 => ht1.sendLocal) ht

theorem Block.Extends.lsaFollows (h : s.Extends b₀) : s.lsaFollows.Extends b₀ := .ite h.update h

theorem Block.Extends.lsaStore (h : s.Extends b₀) {l} : (s.lsaStore l).Extends b₀ := .ite h.update h.update.fChange

theorem Block.Extends.originate (h : s.Extends b₀) : s.originate.Extends b₀ := h.update.lsaStore.bump.flood

theorem Block.Extends.lsaDrop (h : s.Extends b₀) {u} : (s.lsaDrop u).Extends b₀ := h.update.fChange

theorem Block.Extends.lsaIn (h : s.Extends b₀) {p d} : (s.lsaIn p d).Extends b₀ :=
  .ite (.ite h.update.originate h) (.ite h (.flood (.bump (.ite h.lsaDrop h.lsaStore.bump))))

theorem Block.Extends.takeAddr (h : s.Extends b₀) : s.takeAddr.Extends b₀ := .ite h h.update.post

theorem Block.Extends.noteAbsent (h : s.Extends b₀) : s.noteAbsent.Extends b₀ := h.update

theorem Block.Extends.assignFlood (h : s.Extends b₀) {root} : (s.assignFlood root).Extends b₀ := h.update.foldl fun _ _ ht => ht.flood

theorem Block.Extends.takeRoot (h : s.Extends b₀) : s.takeRoot.Extends b₀ := .ite h h.update.fChange.post

theorem Block.Extends.rootPass (h : s.Extends b₀) : s.rootPass.Extends b₀ := by
  unfold Block.rootPass
  extract_lets -underBinder _
  split
  · exact h.takeRoot
  · split
    · exact h.takeRoot
    · extract_lets t
      have ht : t.Extends b₀ := h.takeRoot.noteAbsent
      exact .ite (.assignFlood (.fChange (.takeAddr (.update (.ite ht ht.post))))) (.ite (.assignFlood (.ite ht ht.post)) (.ite ht ht.post))

theorem Block.Extends.assignPart (h : s.Extends b₀) {root seq part all l} : (s.assignPart root seq part all l).Extends b₀ :=
  .ite h.update h.update.takeAddr.fChange

theorem Block.Extends.assignIn (h : s.Extends b₀) {p d} : (s.assignIn p d).Extends b₀ := .ite h h.flood.assignPart

theorem Block.Extends.postParent (h : s.Extends b₀) : s.postParent.Extends b₀ := h.post

theorem Block.Extends.swap (h : s.Extends b₀) {ms t} : (s.swap ms t).Extends b₀ := .ite h.update.bump.post h.update.bump.post.postParent

theorem Block.Extends.syncSend (h : s.Extends b₀) : s.syncSend.Extends b₀ := h.update.foldl fun _ _ ht => ht.sendLocal

theorem Block.Extends.syncIn (h : s.Extends b₀) {p d stamp} : (s.syncIn p d stamp).Extends b₀ := .ite h.update.fabricStamp h.update
theorem Block.Extends.syncHeard (h : s.Extends b₀) {p d stamp} : (s.syncHeard p d stamp).Extends b₀ := .ite h.syncIn h

theorem Block.Extends.pdelay (h : s.Extends b₀) {p kind pseq t1 t2 t3 t4} : (s.pdelay p kind pseq t1 t2 t3 t4).Extends b₀ := by
  unfold Block.pdelay
  split
  · exact h.advance.update.modF.sendLocal
  · exact h.sendLocal
  · exact h.modF

theorem Block.Extends.admitJudge (h : s.Extends b₀) {p proof} : (s.admitJudge p proof).Extends b₀ :=
  .ite h.postF.modF.fGoto.pump.update h.postF.fGoto.modF

theorem Block.Extends.proofSend (h : s.Extends b₀) {p sig} : (s.proofSend p sig).Extends b₀ := h.bump.postTally.sendLocal
theorem Block.Extends.proofIn (h : s.Extends b₀) {p ok} : (s.proofIn p ok).Extends b₀ := .ite h.verified.admitJudge h.verified

theorem Block.Extends.rsaServe (h : s.Extends b₀) {l} : (s.rsaServe l).Extends b₀ := by
  induction l generalizing s with
  | nil => exact h.update
  | cons e l ih =>
    obtain ⟨t, r⟩ := e
    cases r with
    | sign a => exact h.update.rsaWaited.setStage
    | prove p sig => exact ih h.rsaWaited.proofSend
    | verify p ok => exact ih h.rsaWaited.proofIn

theorem Block.Extends.rsaAsk (h : s.Extends b₀) {q} : (s.rsaAsk q).Extends b₀ := .ite h.rsaQueue h.rsaServe

theorem Block.Extends.rsaDrop (h : s.Extends b₀) : s.rsaDrop.Extends b₀ := h.update.rsaServe

theorem Block.Extends.admitIn (h : s.Extends b₀) {p d serial rsa sig} : (s.admitIn p d serial rsa sig).Extends b₀ := by
  unfold Block.admitIn
  split
  · exact .ite h.modF.rsaAsk h.modF
  · exact h.modF
  · exact h.rsaAsk
  · exact h

theorem Block.Extends.bootReq (h : s.Extends b₀) {p d} : (s.bootReq p d).Extends b₀ := by
  unfold Block.bootReq
  extract_lets _
  split
  · exact h.sendLocal
  · exact h.sendLocal

/-! Machine/Colour.lean -/

theorem Block.Extends.modPd (h : s.Extends b₀) {j} {f : PdState → PdState} : (s.modPd j f).Extends b₀ := h.update
theorem Block.Extends.saturated (h : s.Extends b₀) {j n} : (s.saturated j n).Extends b₀ := .ite h h.bump.postTally.modPd

theorem Block.Extends.offsetClose (h : s.Extends b₀) {j r code sat} : (s.offsetClose j r code sat).Extends b₀ :=
  .ite h.saturated h.saturated.modPd

theorem Block.Extends.offsetAt (h : s.Extends b₀) {j r} : ∀ t ∈ s.offsetAt j r, t.Extends b₀ := by
  fun_cases Block.offsetAt s j r <;> rintro t ⟨⟩
  · exact h.advanceTo
  · exact h.toSlot

theorem Block.Extends.modEst (h : s.Extends b₀) {g} {f : Est → Est} : (s.modEst g f).Extends b₀ := h.update

theorem Block.Extends.measureTake (h : s.Extends b₀) {g a b q len x flat filt} : (s.measureTake g a b q len x flat filt).Extends b₀ := by
  unfold Block.measureTake
  extract_lets _
  split
  · exact h.modPd.modPd.modEst
  · exact .ite h.modPd.modPd h.modPd.modPd.postI

theorem Block.Extends.measureClose (h : s.Extends b₀) {g i flat filt satA satB} : (s.measureClose g i flat filt satA satB).Extends b₀ := by
  unfold Block.measureClose
  split
  · extract_lets _ t
    have ht : t.Extends b₀ := h.toSlot.saturated.saturated
    exact .ite h (.ite ht ht.measureTake)
  · exact h

theorem Block.Extends.estFrame (h : s.Extends b₀) {g} : (s.estFrame g).Extends b₀ := .ite (.ite h.modEst.postI h.modEst) h.modEst
theorem Block.Extends.matrixStep (h : s.Extends b₀) {new fresh} : (s.matrixStep new fresh).Extends b₀ := .ite h.update.postTally h.update

theorem Block.Extends.hmUpdate (h : s.Extends b₀) : s.hmUpdate.Extends b₀ := by
  unfold Block.hmUpdate
  split
  · exact h
  · extract_lets -underBinder _
    split
    · exact h.update
    · exact h.update

theorem Block.Extends.matrixRow3 (h : s.Extends b₀) : s.matrixRow3.Extends b₀ := h.update

theorem Block.Extends.colourMatrix (h : s.Extends b₀) : s.colourMatrix.Extends b₀ := by
  unfold Block.colourMatrix
  extract_lets _ _ _ _ t
  have ht : t.Extends b₀ := .ite h.update.hmUpdate h.update
  split
  · exact ht
  · split
    · split
      · exact ht.matrixRow3.matrixStep.update
      · exact ht.matrixRow3
    · exact ht.matrixRow3

theorem Block.Extends.targetApply (h : s.Extends b₀) : s.targetApply.Extends b₀ := by
  unfold Block.targetApply
  split
  · exact .ite h.update (.ite h.update.post h)
  · exact h

theorem Block.Extends.colourPb (h : s.Extends b₀) : s.colourPb.Extends b₀ := h.targetApply.colourMatrix

theorem Block.Extends.localTarget (h : s.Extends b₀) : s.localTarget.Extends b₀ := by
  unfold Block.localTarget
  split
  · exact h
  · extract_lets -underBinder _
    split
    · exact h.update
    · exact h

theorem Block.Extends.epochEnd (h : s.Extends b₀) : s.epochEnd.Extends b₀ := .ite h.advanceTo.update.localTarget h.advanceTo.update

theorem Block.Extends.sendGroup0 (h : s.Extends b₀) {pay} : (s.sendGroup0 pay).Extends b₀ := .ite h (h.foldl fun _ _ ht => ht.enqueue)
theorem Block.Extends.postExcluded (h : s.Extends b₀) {uid reason} : (s.postExcluded uid reason).Extends b₀ := h.post

theorem Block.Extends.reportIn (h : s.Extends b₀) {d} : (s.reportIn d).Extends b₀ := by
  unfold Block.reportIn
  extract_lets _
  split
  · exact h
  · split
    · exact .ite h h.update.postExcluded
    · split
      · exact h.bump.postTally
      · split
        · exact .ite h h.update
        · exact h.update

theorem Block.Extends.digestIn (h : s.Extends b₀) {d} : (s.digestIn d).Extends b₀ := .ite h.update h

theorem Block.Extends.setEvents (h : s.Extends b₀) {n} : (s.setEvents n).Extends b₀ :=
  h.foldl fun _ _ ht => .ite ht (.ite ht.post ht.postExcluded)

theorem Block.Extends.collect (h : s.Extends b₀) : s.collect.Extends b₀ :=
  .sendGroup0 (.advanceTo (.update (h.advanceTo.setEvents.foldl fun _ _ ht => ht.postExcluded)))

theorem Block.Extends.decide_ (h : s.Extends b₀) : s.decide_.Extends b₀ := by
  unfold Block.decide_
  extract_lets -underBinder _ _ _ t t1
  have ht : t.Extends b₀ := h.advanceTo.update
  have ht1 : t1.Extends b₀ := h.advanceTo.update
  split
  · split
    · exact ht.update
    · exact ht
  · exact ht1.bump.post

theorem Block.Extends.estCapture (h : s.Extends b₀) {g} : (s.estCapture g).Extends b₀ := h.setRegs

theorem Block.Extends.targetCapture (h : s.Extends b₀) {k} : (s.targetCapture k).Extends b₀ := by
  unfold Block.targetCapture
  split
  · exact h.setRegs
  · exact h.setRegs

theorem Block.Extends.matCapture (h : s.Extends b₀) {v} : (s.matCapture v).Extends b₀ := h.setReg
theorem Block.Extends.pdCapture (h : s.Extends b₀) {j} : (s.pdCapture j).Extends b₀ := h.setReg

/-! Machine/Chk.lean -/

theorem Block.Extends.modChk (h : s.Extends b₀) {u} {f : ChkUnit → ChkUnit} : (s.modChk u f).Extends b₀ :=
  h.of_units (by simp [Block.units, Block.modChk])

theorem Block.Extends.chkSeqErr (h : s.Extends b₀) {u} : (s.chkSeqErr u).Extends b₀ := h.modChk
theorem Block.Extends.chkStart (h : s.Extends b₀) {u} : (s.chkStart u).Extends b₀ := h.modChk
theorem Block.Extends.chkFeed (h : s.Extends b₀) {u v} : (s.chkFeed u v).Extends b₀ := .ite h.modChk h.chkSeqErr
theorem Block.Extends.chkMem (h : s.Extends b₀) {u} : (s.chkMem u).Extends b₀ := .ite h.modChk h.chkSeqErr

theorem Block.Extends.chkFinal (h : s.Extends b₀) {u} : (s.chkFinal u).Extends b₀ := by
  unfold Block.chkFinal
  extract_lets _ _ _ _ _ _ _ _ t
  have ht : t.Extends b₀ := .ite h.modChk.setInt.post h.modChk.setInt
  exact .ite ht.post ht

theorem Block.Extends.chkFinish (h : s.Extends b₀) {u} : (s.chkFinish u).Extends b₀ := .ite h.chkSeqErr (.ite h.modChk h.chkFinal)

theorem Block.Extends.chkBeat (h : s.Extends b₀) {u phys a left cur} : (s.chkBeat u phys a left cur).1.Extends b₀ :=
  .ite_fst (.ite_fst (.ite h.dramReq h) h) h.beat

theorem Block.Extends.chkRead (h : s.Extends b₀) {u phys a n cur k} : (s.chkRead u phys a n cur k).1.Extends b₀ := by
  induction n generalizing s a cur k with
  | zero => exact h
  | succ n ih =>
    rw [Block.chkRead]
    split
    next t _ heq => exact .of_fst heq h.chkBeat
    next t _ heq =>
      have ht : t.Extends b₀ := .of_fst heq h.chkBeat
      split
      · exact ht.uncorrectable
      · exact ih ht

theorem Block.Extends.chkMemDone (h : s.Extends b₀) {u} : (s.chkMemDone u).Extends b₀ := by
  unfold Block.chkMemDone
  extract_lets -underBinder _
  split
  · exact h
  · split
    · exact .ite h.chkRead.modChk.chkFinal h.chkRead.modChk
    · exact h.chkRead.modChk.setInt.post

theorem Block.Extends.chkCfg (h : s.Extends b₀) {u v} : (s.chkCfg u v).Extends b₀ := by
  unfold Block.chkCfg
  refine .rwWrite h fun _ _ ht => ?_
  extract_lets _ t t1
  have ht : t.Extends b₀ := .ite ht.setReg.chkStart ht.setReg
  have ht1 : t1.Extends b₀ := .ite ht.chkMem ht
  exact .ite ht1.chkFinish ht1

theorem Block.Extends.chkPsel (h : s.Extends b₀) {u v} : (s.chkPsel u v).Extends b₀ := h.rwWrite fun _ _ ht => ht.setRegs
theorem Block.Extends.chkPhi (h : s.Extends b₀) {u v} : (s.chkPhi u v).Extends b₀ := h.rwWrite fun _ _ ht => ht.setReg.modChk
theorem Block.Extends.tallyCtrl (h : s.Extends b₀) {v} : (s.tallyCtrl v).Extends b₀ := .ite h.setTy h

theorem Block.Extends.tallyWrap (h : s.Extends b₀) {n} : (s.tallyWrap n).Extends b₀ := by
  unfold Block.tallyWrap
  split
  · refine .ite (.post (.setFld (h.of_units ?_))) h
    simp [Block.units, setAt]
  · exact h

theorem Block.Extends.tallyWraps (h : s.Extends b₀) : s.tallyWraps.Extends b₀ := h.foldl fun _ _ ht => ht.tallyWrap

theorem Block.Extends.tallySnap (h : s.Extends b₀) {fsn ft} : (s.tallySnap fsn ft).Extends b₀ := by
  refine .setRegs (h.tallyWraps.of_units ?_)
  simp only [Block.units]
  split <;> simp [TallyState.restart]

theorem Block.Extends.tallyRestart (h : s.Extends b₀) {old : Nat → Word} : (s.tallyRestart old).Extends b₀ :=
  h.of_units (by simp [Block.units, Block.tallyRestart])

/-! Machine/Validate.lean -/

theorem Block.Extends.denyClaim (h : s.Extends b₀) {d} : (s.denyClaim d).Extends b₀ := .ite h.setReg.post.errCause h.setReg.post

theorem Block.Extends.ownersOf (h : s.Extends b₀) {l} : (s.ownersOf l).Extends b₀ := by
  unfold Block.ownersOf
  refine .foldl h fun _ _ ht => ?_
  extract_lets _ l
  clear_value l
  split
  · exact ht
  · split
    · exact ht.setReg
    · exact .ite ht ht.setReg

theorem Block.Extends.updateOwners (h : s.Extends b₀) : s.updateOwners.Extends b₀ := h.ownersOf

theorem Block.Extends.failDetail (h : s.Extends b₀) {f} : (s.failDetail f).2.Extends b₀ := by
  unfold Block.failDetail
  split
  · exact h
  · exact h.update

theorem Block.Extends.valTime (h : s.Extends b₀) : s.valTime.Extends b₀ := h.update.setReg

theorem Block.Extends.seqCheck (h : s.Extends b₀) : s.seqCheck.Extends b₀ := by
  unfold Block.seqCheck
  extract_lets _
  split
  · exact h.valTime.setReg
  · exact h.valTime.failDetail.setReg

/-! Machine/Pipeline.lean -/

theorem Block.Extends.syncDone (h : s.Extends b₀) : s.syncDone.Extends b₀ := .ite h.update.post (.ite h.update.post h)

theorem Block.Extends.mapsApply (h : s.Extends b₀) {pages} : (s.mapsApply pages).Extends b₀ := h.update
theorem Block.Extends.tablesApply (h : s.Extends b₀) {pages} : (s.tablesApply pages).Extends b₀ := ⟨h.sized, h.fuse⟩
theorem Block.Extends.planGo (h : s.Extends b₀) {v} : (s.planGo v).Extends b₀ := .ite h.update h

theorem Block.Extends.planStale (h : s.Extends b₀) : s.planStale.Extends b₀ := h.update

theorem Block.Extends.planDone (h : s.Extends b₀) : s.planDone.Extends b₀ := .ite h h.update.setRegs.setFld.post

theorem Block.Extends.takeSurface (h : s.Extends b₀) {sel src set byTag} : (s.takeSurface sel src set byTag).Extends b₀ := by
  unfold Block.takeSurface
  split
  · exact h
  · exact h.bump.post
  · exact h.setSf
  · split
    · exact h.bump.post
    · extract_lets _ _ _ t
      have ht : t.Extends b₀ := h.setSf.foldl fun _ _ ht => ht.modSurf
      exact .ite ht ht.bump.post

theorem Block.Extends.clockPb (h : s.Extends b₀) {begins} : (s.clockPb begins).Extends b₀ := .ite h (.ite h.update.post h.update)

theorem Block.Extends.overrun (h : s.Extends b₀) : s.overrun.Extends b₀ := h.bump.foldl fun _ _ ht => ht.modPort.postI

theorem Block.Extends.pipeBegin (h : s.Extends b₀) : s.pipeBegin.1.Extends b₀ := by
  unfold Block.pipeBegin
  split
  · exact h
  · exact .ite h.colourPb.update.beginSets h.colourPb.update.beginSets

theorem Block.Extends.stallPb (h : s.Extends b₀) {began} : (s.stallPb began).Extends b₀ :=
  .ite h (.ite h.update (.ite h.update.faultEv.update h.update))

theorem Block.Extends.tallyTimes (h : s.Extends b₀) {ty inst n} : (s.tallyTimes ty inst n).Extends b₀ := by
  induction n with
  | zero => exact h
  | succ n ih => exact ih.postTally

theorem Block.Extends.splitReport (h : s.Extends b₀) {f} : (s.splitReport f).Extends b₀ := .tallyTimes (.setRegs (.ite_snd h h.update))
theorem Block.Extends.warpCounts (h : s.Extends b₀) {f} : (s.warpCounts f).Extends b₀ := h.bump.bump.bump.setCap

theorem Block.Extends.lateMaps (h : s.Extends b₀) : s.lateMaps.Extends b₀ := by
  unfold Block.lateMaps
  split
  · exact h
  · exact .ite h (h.update.foldl fun _ _ ht => ht.modPort)

theorem Block.Extends.pipeCount (h : s.Extends b₀) {f} : (s.pipeCount f).Extends b₀ :=
  h.bump.bump.bump.tallyTimes.tallyTimes.tallyTimes.tallyTimes

theorem Block.Extends.planesSealed (h : s.Extends b₀) : s.planesSealed.Extends b₀ := by
  unfold Block.planesSealed
  extract_lets -underBinder _
  split
  · exact h.lateMaps
  · exact h.lateMaps.foldl fun _ _ ht => ht.sealSet
  · extract_lets lead set1 t2 t3 t4 _ _ t5
    clear_value lead set1
    have ht2 : t2.Extends b₀ := h.lateMaps.foldl fun _ _ ht => ht.sealSet
    have ht3 : t3.Extends b₀ := ht2.splitReport.warpCounts.pipeCount
    have ht4 : t4.Extends b₀ := by
      unfold t4
      split
      · exact .ite ht3.writeHl ht3
      · exact ht3
    have ht5 : t5.Extends b₀ := ht4.setReg.update
    exact .ite ht5.autoClose.update ht5

/-! Machine/Almanac.lean -/

theorem Block.Extends.setCtx (h : s.Extends b₀) {i c} : (s.setCtx i c).Extends b₀ := h.update
theorem Block.Extends.cueEvent (h : s.Extends b₀) {ty i fsn} : (s.cueEvent ty i fsn).Extends b₀ := h.post
theorem Block.Extends.cueMiss (h : s.Extends b₀) {i res fsn} : (s.cueMiss i res fsn).Extends b₀ := h.setCtx.bump.cueEvent
theorem Block.Extends.cueDone (h : s.Extends b₀) {i} : (s.cueDone i).Extends b₀ := h.setCtx

theorem Block.Extends.cuesRejected (h : s.Extends b₀) {l fsn} : (s.cuesRejected l fsn).Extends b₀ :=
  .update (h.foldl fun _ _ ht => .ite ht.cueMiss ht)

theorem Block.Extends.cuesApplied (h : s.Extends b₀) {l} : (s.cuesApplied l).Extends b₀ := h.foldl fun _ _ ht => .ite ht.cueDone ht

/-! Machine/Ingest.lean -/

theorem Block.Extends.modSrc (h : s.Extends b₀) {n} {f : Source → Source} : (s.modSrc n f).Extends b₀ :=
  h.of_units (by simp [Block.units, Block.modSrc])

theorem Block.Extends.lostFrame (h : s.Extends b₀) {n surf cause tag} : (s.lostFrame n surf cause tag).Extends b₀ := h.bump.bump.post

theorem Block.Extends.abandonAs (h : s.Extends b₀) {n cause tag} : (s.abandonAs n cause tag).Extends b₀ := by
  unfold Block.abandonAs
  split
  · exact h
  · exact h.modSurf.modSrc.lostFrame

theorem Block.Extends.abandon (h : s.Extends b₀) {n cause} : (s.abandon n cause).Extends b₀ := h.abandonAs
theorem Block.Extends.mismatch (h : s.Extends b₀) {n tag} : (s.mismatch n tag).Extends b₀ := h.modSrc.lostFrame

theorem Block.Extends.beginFrame (h : s.Extends b₀) {n fits} : (s.beginFrame n fits).Extends b₀ := by
  unfold Block.beginFrame
  split
  · exact h
  · split
    · exact h.mismatch
    · split
      · exact h.lostFrame
      · split
        · exact h.lostFrame
        · exact h.modSurf.modSrc

theorem Block.Extends.hfc (h : s.Extends b₀) {n i tag} : (s.hfc n i tag).Extends b₀ := .post (.ite h.modSrc.bump h.modSrc)
theorem Block.Extends.sealFor (h : s.Extends b₀) {n i tag} : (s.sealFor n i tag).Extends b₀ := h.sealSurf.modSrc.bumpSat
theorem Block.Extends.freshSurf (h : s.Extends b₀) {i} : (s.freshSurf i).Extends b₀ := h.setDc

theorem Block.Extends.endFrame (h : s.Extends b₀) {n tag} : (s.endFrame n tag).Extends b₀ := by
  unfold Block.endFrame
  split
  · exact h
  · extract_lets _
    split
    next t heq =>
      have ht : t.Extends b₀ := .of_fst heq (.compress (.ite h h.freshSurf))
      exact ht.bump.abandonAs
    next t1 heq =>
      have ht1 : t1.Extends b₀ := .of_fst heq (.compress (.ite h h.freshSurf))
      exact .ite (.abandonAs (.ite ht1.hfc ht1)) (.sealFor (.ite ht1.hfc ht1))

theorem Block.Extends.joinStart (h : s.Extends b₀) : s.joinStart.Extends b₀ := .ite h h.abandon.abandon.update.setFld.setFld

theorem Block.Extends.dpTake (h : s.Extends b₀) {a} : (s.dpTake a).Extends b₀ := h.update

theorem Block.Extends.unpaired (h : s.Extends b₀) : s.unpaired.Extends b₀ := .ite h.bump h

theorem Block.Extends.dpStart (h : s.Extends b₀) {a} : (s.dpStart a).Extends b₀ := by
  unfold Block.dpStart
  extract_lets t _ _ t1
  have ht : t.Extends b₀ := .ite h.joinStart h
  have ht1 : t1.Extends b₀ := .ite ht.dpTake.unpaired.abandon ht.dpTake
  exact .ite ht.bump (.ite (.ite ht.dpTake.modSrc ht.dpTake.abandon.modSrc) (.ite ht1.beginFrame.modSrc ht1.beginFrame))

theorem Block.Extends.storePixel (h : s.Extends b₀) {i bpc x y ycc cs} : (s.storePixel i bpc x y ycc cs).Extends b₀ := h.surfWrite

theorem Block.Extends.storeRaster (h : s.Extends b₀) {i bpc x0 w ycc pix} : (s.storeRaster i bpc x0 w ycc pix).Extends b₀ :=
  h.foldl fun _ _ ht => ht.storePixel

theorem Block.Extends.repeatLine (h : s.Extends b₀) {i j x0 w y} : (s.repeatLine i j x0 w y).Extends b₀ :=
  h.foldl fun _ _ ht => ht.surfWrite

theorem Block.Extends.badLines (h : s.Extends b₀) {a n i x0 w bad} : (s.badLines a n i x0 w bad).Extends b₀ := by
  unfold Block.badLines
  split
  · exact h
  · extract_lets t
    have ht : t.Extends b₀ := by
      unfold t
      split
      · exact h.foldl fun _ _ ht => ht.repeatLine
      · exact h
    exact ht.bump.bumpSat.post

theorem Block.Extends.dpSeal (h : s.Extends b₀) {a pix bad vsc} : (s.dpSeal a pix bad vsc).Extends b₀ := by
  unfold Block.dpSeal
  extract_lets -underBinder _
  split
  · exact h
  · split
    · exact h
    · extract_lets _ _ t t1
      have ht : t.Extends b₀ := h.storeRaster.badLines
      have ht1 : t1.Extends b₀ := ht.modSurf.modSrc
      exact .ite ht1 ht1.update.endFrame

theorem Block.Extends.dpAbandon (h : s.Extends b₀) {a} : (s.dpAbandon a).Extends b₀ := h.abandon
theorem Block.Extends.postStream (h : s.Extends b₀) {a} : (s.postStream a).Extends b₀ := h.post
theorem Block.Extends.unsupported (h : s.Extends b₀) {code} : (s.unsupported code).Extends b₀ := h.bump.setReg.post
theorem Block.Extends.dscRefuse (h : s.Extends b₀) {a} : (s.dscRefuse a).Extends b₀ := h.abandon.setFld.post.unsupported

theorem Block.Extends.dpTiming (h : s.Extends b₀) {a t} : (s.dpTiming a t).Extends b₀ := by
  unfold Block.dpTiming
  extract_lets t _ t1 _ t2
  have ht : t.Extends b₀ := .ite h.abandon h
  have ht1 : t1.Extends b₀ := ht.setRegs.setFld
  have ht2 : t2.Extends b₀ := ht1.setFld.setFld
  exact .postStream (.ite ht2.setFld.setFld ht2.setFld.dscRefuse)

theorem Block.Extends.dropPic (h : s.Extends b₀) {f target} : (s.dropPic f target).Extends b₀ := h.modSrc
theorem Block.Extends.lostPic (h : s.Extends b₀) {f cause target} : (s.lostPic f cause target).Extends b₀ := h.dropPic.modSrc.lostFrame

theorem Block.Extends.writePic (h : s.Extends b₀) {n i hfc kind width tag pps bytes ycc decoded} :
    (s.writePic n i hfc kind width tag pps bytes ycc decoded).Extends b₀ :=
  .endFrame (.ite h.modSurf.modSrc.surfWrite h.modSurf.modSrc.storeRaster)

theorem Block.Extends.picDone (h : s.Extends b₀) {f p decoded} : (s.picDone f p decoded).Extends b₀ := by
  unfold Block.picDone
  extract_lets _
  split
  · exact h.lostPic
  · split
    · exact h.lostPic.modSrc
    · split
      · exact h.lostPic
      · exact h.dropPic.writePic

theorem Block.Extends.contentPart (h : s.Extends b₀) {f bs decoded} : (s.contentPart f bs decoded).Extends b₀ := by
  unfold Block.contentPart
  extract_lets _ _ _ _ t t1
  have ht : t.Extends b₀ := by
    unfold t
    split
    · exact h.lostPic
    · exact h
  have ht1 : t1.Extends b₀ := .ite h ht.modSrc
  split
  · exact h.lostPic
  · split
    · exact h.lostPic
    · split
      · exact .ite ht1.modSrc.picDone ht1.modSrc
      · exact ht1.modSrc

theorem Block.Extends.content (h : s.Extends b₀) {bs decoded} : (s.content bs decoded).Extends b₀ := by
  unfold Block.content
  split
  · exact h
  · exact .ite h.modSrc (.ite h (.ite h.contentPart (.ite h.modSrc h.modSrc.lostPic)))

theorem Block.Extends.pictureLate (h : s.Extends b₀) {f} : (s.pictureLate f).Extends b₀ := h.foldl fun _ _ ht => ht.lostPic
theorem Block.Extends.nvmeGoto (h : s.Extends b₀) {st status} : (s.nvmeGoto st status).Extends b₀ := h.setSf.setFld.post
theorem Block.Extends.modNvme (h : s.Extends b₀) {f : NvmeState → NvmeState} : (s.modNvme f).Extends b₀ := h.setSf
theorem Block.Extends.emitRead (h : s.Extends b₀) {r} : (s.emitRead r).Extends b₀ := h.emit

theorem Block.Extends.nvmeRead (h : s.Extends b₀) {phase lba blocks} : (s.nvmeRead phase lba blocks).Extends b₀ :=
  h.modNvme.foldl fun _ _ ht => ht.emitRead

theorem Block.Extends.readUnit (h : s.Extends b₀) {phase unit} : (s.readUnit phase unit).Extends b₀ := h.nvmeRead

theorem Block.Extends.nvmeAdmin (h : s.Extends b₀) : s.nvmeAdmin.Extends b₀ := h.foldl fun _ _ ht => ht.emit

theorem Block.Extends.nvmeOff (h : s.Extends b₀) : s.nvmeOff.Extends b₀ := .nvmeGoto (.modNvme (.ite (h.foldl fun _ _ ht => ht.emit) h))

theorem Block.Extends.nvmeEnable (h : s.Extends b₀) {linkUp id} : (s.nvmeEnable linkUp id).Extends b₀ := by
  unfold Block.nvmeEnable
  extract_lets -underBinder _ t _ t1 t2
  have ht : t.Extends b₀ := h.setFld.modNvme.nvmeGoto
  have ht1 : t1.Extends b₀ := ht.nvmeAdmin.modNvme
  have ht2 : t2.Extends b₀ := ht1.setFld.nvmeGoto
  exact .ite ht (.ite ht.nvmeAdmin.nvmeGoto (.ite ht.nvmeAdmin.nvmeGoto ht2.readUnit))

theorem Block.Extends.headerRead (h : s.Extends b₀) {x1} : (s.headerRead x1).Extends b₀ := by
  unfold Block.headerRead
  split
  · exact h.setFld.post
  · exact h.modNvme.nvmeGoto

theorem Block.Extends.hfcPush (h : s.Extends b₀) {v} : (s.hfcPush v).Extends b₀ := .ite h.modSrc h.modSrc.setFld

theorem Block.Extends.surfOpWrite (h : s.Extends b₀) {v} : (s.surfOpWrite v).Extends b₀ := by
  unfold Block.surfOpWrite
  split
  · exact h.surfDefine
  · exact h.surfOpen
  · exact h.surfClose
  · exact h

theorem Block.Extends.surfSelWrite (h : s.Extends b₀) {v} : (s.surfSelWrite v).Extends b₀ := h.setReg.surfCapture

theorem Block.Extends.libraryFrame (h : s.Extends b₀) {i target entry payload pix} :
    (s.libraryFrame i target entry payload pix).Extends b₀ := by
  unfold Block.libraryFrame
  extract_lets _
  split
  · exact h.lostFrame.bump
  · split
    · exact h.lostFrame
    · split
      · exact h.mismatch
      · split
        · exact h.lostFrame
        · exact h.modSrc.writePic

theorem Block.Extends.readsDone (h : s.Extends b₀) {pix} : (s.readsDone pix).Extends b₀ := by
  unfold Block.readsDone
  extract_lets -underBinder _
  split
  · exact h.modNvme.headerRead
  · split
    · exact h
    · exact .ite (.ite h.modNvme.modNvme.libraryFrame h.modNvme.nvmeRead) h.modNvme.libraryFrame

theorem Block.Extends.readsFailed (h : s.Extends b₀) {status} : (s.readsFailed status).Extends b₀ :=
  .ite h.modNvme.bump.nvmeGoto h.modNvme.bump.bump

/-! Machine/Commit.lean -/

theorem Block.Extends.commitEvent (h : s.Extends b₀) {ty c cause page} : (s.commitEvent ty c cause page).Extends b₀ := h.post

theorem Block.Extends.reject (h : s.Extends b₀) {c f} : (s.reject c f).Extends b₀ :=
  .commitEvent (.cuesRejected (.setReg (h.failDetail.foldl fun _ _ ht => ht.errCause.setReg)))

theorem Block.Extends.waitSeal (h : s.Extends b₀) {c} : (s.waitSeal c).1.Extends b₀ := .ite h h.commitEvent

theorem Block.Extends.latch (h : s.Extends b₀) {c} : (s.latch c).Extends b₀ := by
  unfold Block.latch
  extract_lets -underBinder _ _ _ _ t
  have ht : t.Extends b₀ := .ite h.update.valTime h.update
  split
  · extract_lets t1
    have ht1 : t1.Extends b₀ := by
      unfold t1
      split
      · split
        · exact ht.denyClaim
        · exact ht
      · exact ht
    exact ht1.reject
  · exact .update (.ite_fst (.waitSeal (.ite ht.setSf ht)) (.ite ht.setSf ht))

theorem Block.Extends.retest (h : s.Extends b₀) : s.retest.Extends b₀ := h.foldl fun _ _ ht => .ite ht.waitSeal.update ht

theorem Block.Extends.cutoffReads (h : s.Extends b₀) : s.cutoffReads.Extends b₀ := .ite h.raiseBucks h

theorem Block.Extends.cutoff (h : s.Extends b₀) : s.cutoff.Extends b₀ := by
  unfold Block.cutoff
  split
  · exact h
  · extract_lets t t1
    have ht : t.Extends b₀ := h.advanceTo.retest
    have ht1 : t1.Extends b₀ := by
      unfold t1
      split
      · exact .ite ht.latch ht
      · exact ht
    exact ht1.update.cutoffReads

theorem Block.Extends.commitIn (h : s.Extends b₀) {pages group cues} : (s.commitIn pages group cues).Extends b₀ := by
  unfold Block.commitIn
  split
  · exact h
  · extract_lets -underBinder t
    have ht : t.Extends b₀ := .ite h.cutoff h
    exact .ite ht.update.setRegs.commitEvent ht.update.setRegs

theorem Block.Extends.withdraw (h : s.Extends b₀) {pages group} : (s.withdraw pages group).Extends b₀ := by
  unfold Block.withdraw
  extract_lets _ _ t _ t1
  have ht : t.Extends b₀ := .ite h h.update
  have ht1 : t1.Extends b₀ := ht.foldl fun _ _ ht1 => ht1.errCause
  exact .ite ht1.errCause ht1

theorem Block.Extends.recapture (h : s.Extends b₀) {pages} : (s.recapture pages).Extends b₀ := by
  unfold Block.recapture
  refine .foldl h fun _ _ ht => ?_
  split
  · exact ht
  · split
    · exact ht.modSurf
    · exact ht

theorem Block.Extends.sourceApplied (h : s.Extends b₀) {old : Nat → Word} {pages} : (s.sourceApplied old pages).Extends b₀ :=
  h.tablesApply.mapsApply.recapture.foldl fun _ _ ht => .ite ht.modPort ht

theorem Block.Extends.tablesTaken (h : s.Extends b₀) {c} : (s.tablesTaken c).Extends b₀ := h.update

theorem Block.Extends.scanApplied (h : s.Extends b₀) {old : Nat → Word} {pages} : (s.scanApplied old pages).Extends b₀ := by
  unfold Block.scanApplied
  extract_lets t t1 t2 t3
  have ht : t.Extends b₀ := .ite h.modSc h
  have ht1 : t1.Extends b₀ := .ite ht.modSc ht
  have ht2 : t2.Extends b₀ := .ite ht1.beamOff.modSc.hsfGoto ht1
  have ht3 : t3.Extends b₀ := .ite ht2.modSc ht2
  exact .ite ht3.beamOff ht3

theorem Block.Extends.lightApplied (h : s.Extends b₀) {old : Nat → Word} {pages} : (s.lightApplied old pages).Extends b₀ := by
  unfold Block.lightApplied
  extract_lets _ t _ t1 t2 t3
  have ht : t.Extends b₀ := .ite h.setLs h
  have ht1 : t1.Extends b₀ := .ite ht.setLs ht
  have ht2 : t2.Extends b₀ := ht1.foldl fun _ _ ht2 => .ite ht2.chnGoto ht2
  have ht3 : t3.Extends b₀ := ht2.foldl fun _ _ ht3 => .ite ht3.darkenGroup ht3
  exact .ite ht3.refreshMembers ht3

theorem Block.Extends.ingestApplied (h : s.Extends b₀) : s.ingestApplied.Extends b₀ := h.foldl fun _ _ ht => ht.modSrc

theorem Block.Extends.displayApplied (h : s.Extends b₀) {old : Nat → Word} {oldSp pages} :
    (s.displayApplied old oldSp pages).Extends b₀ := by
  unfold Block.displayApplied
  extract_lets t t1 t2 _ t3 t4 t5 t6 t7 t8 t9 t10
  have ht : t.Extends b₀ := .ite h.tallyRestart h
  have ht1 : t1.Extends b₀ := .ite ht.thermApplied ht
  have ht2 : t2.Extends b₀ := .recapture (.ite ht1.ingestApplied ht1)
  have ht3 : t3.Extends b₀ := .ite ht2.update ht2
  have ht4 : t4.Extends b₀ := ht3.scanApplied.lightApplied
  have ht5 : t5.Extends b₀ := ht4.foldl fun _ _ ht5 => .ite ht5.portEn ht5
  have ht6 : t6.Extends b₀ := .ite ht5.guestGrants ht5
  have ht7 : t7.Extends b₀ := .ite ht6.changeDue ht6
  have ht8 : t8.Extends b₀ := .ite (ht7.foldl fun _ _ ht8 => ht8.pairService) ht7
  have ht9 : t9.Extends b₀ := .ite ht8.fabricApply ht8
  have ht10 : t10.Extends b₀ := .ite ht9.lsaFollows ht9
  exact ht10.updateOwners

theorem Block.Extends.newSeries (h : s.Extends b₀) : s.newSeries.Extends b₀ := .ite h h.update

theorem Block.Extends.stepAtFb (h : s.Extends b₀) : s.stepAtFb.Extends b₀ := .ite h h.stepFt.update

theorem Block.Extends.darkGroup (h : s.Extends b₀) {g} : (s.darkGroup g).Extends b₀ := h.modGrp

theorem Block.Extends.transition (h : s.Extends b₀) {old : Nat → Word} {all} : (s.transition old all).1.Extends b₀ := by
  unfold Block.transition
  extract_lets _ _ _ n _ _ _ t _ _ t1 t2 t3
  have hn : n.Extends b₀ := h.newSeries
  clear_value n
  have ht : t.Extends b₀ := hn.update
  have ht1 : t1.Extends b₀ := ht.update.foldl fun _ _ ht2 => ht2.modPort
  have ht2 : t2.Extends b₀ := ht1.foldl fun _ _ ht3 => .ite ht3.darkPort ht3
  have ht3 : t3.Extends b₀ := ht2.foldl fun _ _ ht4 => ht4.darkGroup
  exact .ite_fst ht.stepAtFb (.stepAtFb (.ite ht3.beamLow ht3))

theorem Block.Extends.commitDone (h : s.Extends b₀) {lit c} : (Block.commitDone lit s c).Extends b₀ :=
  .cuesApplied (.commitEvent (.ite h.setRegs.setReg h.setRegs))

theorem Block.Extends.makeUsable (h : s.Extends b₀) : s.makeUsable.Extends b₀ := .ite (h.foldl fun _ _ ht => ht.modPort) h

theorem Block.Extends.commitFb (h : s.Extends b₀) : s.commitFb.Extends b₀ := by
  unfold Block.commitFb
  extract_lets _ _ _ _ _ _ _ _ t t1 _ _ t2 t3
  have ht : t.Extends b₀ := h.update.foldl fun _ _ ht => ht.applyVals
  have ht1 : t1.Extends b₀ := ht.foldl fun _ _ ht1 => ht1.applyVals
  have ht2 : t2.Extends b₀ := ht1.sourceApplied
  have ht3 : t3.Extends b₀ := .ite ht2 (.displayApplied (ht2.foldl fun _ _ ht3 => ht3.tablesTaken))
  split
  next t4 _ heq =>
    have ht4 : t4.Extends b₀ := .of_fst heq (.ite_fst ht3.transition ht3)
    extract_lets _ _ t5
    have ht5 : t5.Extends b₀ := ht4.update.foldl fun _ _ ht6 => ht6.commitDone
    exact .ite ht5 ht5.makeUsable

/-! Machine/Hold.lean -/

theorem Block.Extends.modHo (h : s.Extends b₀) {f : HoldState → HoldState} : (s.modHo f).Extends b₀ := h.update

theorem Block.Extends.enterFrost (h : s.Extends b₀) {reason us} : (s.enterFrost reason us).Extends b₀ :=
  .ite h.goto.selfRefresh.selfRefresh h

theorem Block.Extends.thaw (h : s.Extends b₀) {us} : (s.thaw us).Extends b₀ := .ite h.goto.leaveRefresh.leaveRefresh.modHo h
theorem Block.Extends.slotWrite (h : s.Extends b₀) {k off bs} : (s.slotWrite k off bs).Extends b₀ := .ite h.setCap h.setMem

theorem Block.Extends.ringRecord (h : s.Extends b₀) {coded pps done} : (s.ringRecord coded pps done).Extends b₀ := by
  unfold Block.ringRecord
  extract_lets -underBinder _
  split
  · exact h
  · split
    · exact h.bump.postTally
    · extract_lets _ _ t
      have ht : t.Extends b₀ := h.modHo.slotWrite.slotWrite
      split
      · exact ht.slotWrite
      · exact .ite ht.slotWrite ht.slotWrite.modHo

theorem Block.Extends.clearRing (h : s.Extends b₀) : s.clearRing.Extends b₀ := .ite h (.modHo (h.foldl fun _ _ ht => ht.slotWrite))

theorem Block.Extends.playDecode (h : s.Extends b₀) {pix} : (s.playDecode pix).Extends b₀ := by
  unfold Block.playDecode
  split
  · exact h
  · split
    · exact h
    · extract_lets -underBinder _ _ _ t
      have ht : t.Extends b₀ := h.advanceTo.modHo
      split
      · exact ht.bump
      · split
        · exact ht
        · exact .ite ht (.ite ht.modSurf.storeRaster.compress.sealSurf ht.modSurf.storeRaster.compress.bump.modSurf.bump.post)

theorem Block.Extends.remap (h : s.Extends b₀) : s.remap.Extends b₀ := .ite h.modHo h

theorem Block.Extends.libraryRead (h : s.Extends b₀) : s.libraryRead.Extends b₀ := .ite h.remap h.remap.modNvme.modHo.modSrc.readUnit

theorem Block.Extends.verifyReads (h : s.Extends b₀) {i e} : (s.verifyReads i e).Extends b₀ := h.foldl fun _ _ ht => ht.emitRead

theorem Block.Extends.holdVerify (h : s.Extends b₀) {c reads} : (s.holdVerify c reads).Extends b₀ :=
  .ite h.complete (.ite h.complete (.ite h.complete (.complete (.postI (h.foldl fun _ _ ht => ht.verifyReads)))))

theorem Block.Extends.policyStart (h : s.Extends b₀) : s.policyStart.Extends b₀ := .ite h.modHo.thaw h.modHo

theorem Block.Extends.holdEnter (h : s.Extends b₀) {src} : (s.holdEnter src).Extends b₀ := h.policyStart.modHo.bump.post
theorem Block.Extends.holdExit (h : s.Extends b₀) {how} : (s.holdExit how).Extends b₀ := h.modHo.thaw.post

theorem Block.Extends.watch (h : s.Extends b₀) {n sealed_} : (s.watch n sealed_).Extends b₀ := by
  unfold Block.watch
  split
  · exact h.modHo
  · extract_lets _ t
    have ht : t.Extends b₀ := .ite h.modHo.modHo h.modHo
    exact .ite ht.holdEnter ht

theorem Block.Extends.holding (h : s.Extends b₀) {sealed_} : (s.holding sealed_).Extends b₀ := by
  unfold Block.holding
  split
  · exact h.holdExit
  · split
    · exact h.holdExit
    · extract_lets t _ _ _ t1 t2
      have ht : t.Extends b₀ := .ite h.policyStart h
      have ht1 : t1.Extends b₀ := .ite ht.modHo.modHo.post ht.modHo
      have ht2 : t2.Extends b₀ := .ite ht1.modHo ht1
      exact .ite ht.modHo.holdExit (.ite ht2.modHo ht2)

theorem Block.Extends.holdPb (h : s.Extends b₀) : s.holdPb.Extends b₀ := by
  unfold Block.holdPb
  extract_lets _ w t1 _ _ t2
  clear_value w
  have ht1 : t1.Extends b₀ := .ite h.remap h.remap.modHo
  have ht2 : t2.Extends b₀ := by
    unfold t2
    split
    · exact ht1.holding
    · split
      · exact .ite ht1 ht1.watch
      · exact ht1
  exact .ite ht1 (.ite ht2.modHo.modHo.bump.postTally ht2.modHo)

theorem Block.Extends.forceRejoin (h : s.Extends b₀) : s.forceRejoin.Extends b₀ := .ite h.modHo h

/-! Machine/Power.lean -/

theorem Block.Extends.forbid (h : s.Extends b₀) {i} : (s.forbid i).Extends b₀ := by
  unfold Block.forbid
  extract_lets _ _ t
  have ht : t.Extends b₀ := h.update.postI.raise
  exact .ite (.ite ht.update ht.update.modSc.hsfGoto) ht

theorem Block.Extends.standbyInputs (h : s.Extends b₀) : s.standbyInputs.Extends b₀ := h.foldl fun _ _ ht => .ite ht.forbid ht

theorem Block.Extends.safeAtReady (h : s.Extends b₀) : s.safeAtReady.Extends b₀ := by
  unfold Block.safeAtReady
  split
  · exact h.enterSafe
  · split
    · exact h.enterSafe
    · exact h

theorem Block.Extends.litSync (h : s.Extends b₀) : s.litSync.Extends b₀ := h.update

theorem Block.Extends.lightGroups (h : s.Extends b₀) {mask reason us} : (s.lightGroups mask reason us).Extends b₀ := by
  unfold Block.lightGroups
  extract_lets _ t _ _ _ t1 t2
  have ht : t.Extends b₀ := h.foldl fun _ _ ht => ht.modMembers.giveBack.startGroup
  have ht1 : t1.Extends b₀ := ht.update.litSync
  have ht2 : t2.Extends b₀ := .ite ht1.goto ht1
  exact .ite h ht2.refreshMembers

theorem Block.Extends.stopGroups (h : s.Extends b₀) {mask at_} : (s.stopGroups mask at_).Extends b₀ :=
  h.foldl fun _ _ ht => .ite ht.modGrp ht

theorem Block.Extends.dropGroups (h : s.Extends b₀) {gs} : (s.dropGroups gs).Extends b₀ := by
  unfold Block.dropGroups
  extract_lets t _ _ _ t1 t2
  have ht : t.Extends b₀ := h.foldl fun _ _ ht => ht.darkenGroup
  have ht1 : t1.Extends b₀ := .ite ht.update.beamOff ht.update
  have ht2 : t2.Extends b₀ := ht1.foldl fun _ _ ht3 => ht3.zeroChains
  exact ht2.litSync.refreshMembers

theorem Block.Extends.unlit (h : s.Extends b₀) {reason us} : (s.unlit reason us).Extends b₀ :=
  .ite (.parkAll (.goto (.ite h.leaveRefresh.leaveRefresh h))) h

theorem Block.Extends.pairsUp (h : s.Extends b₀) : s.pairsUp.Extends b₀ := h.foldl fun _ _ ht => .ite ht.pairIn (.ite ht.leaveRefresh ht)

theorem Block.Extends.standDown (h : s.Extends b₀) : s.standDown.Extends b₀ := by
  unfold Block.standDown
  extract_lets t t1 t2 t3
  have ht : t.Extends b₀ := h.lightOut.groupsOut.parkAll
  have ht1 : t1.Extends b₀ := ht.foldl fun _ _ ht1 => ht1.selfRefresh
  have ht2 : t2.Extends b₀ := ht1.foldl fun _ _ ht2 => .ite ht2 ht2.chnGoto
  have ht3 : t3.Extends b₀ := .ite ht2 ht2.modSc.hsfGoto
  exact ht3.modSc

theorem Block.Extends.closeUp (h : s.Extends b₀) : s.closeUp.Extends b₀ := by
  unfold Block.closeUp
  exact h.autoClose

theorem Block.Extends.hwFail (h : s.Extends b₀) {l} : (s.hwFail l).Extends b₀ := h.update

theorem Block.Extends.tryReady (h : s.Extends b₀) : s.tryReady.Extends b₀ := by
  unfold Block.tryReady
  split
  · exact h
  · split
    · exact h
    · extract_lets _ _ t t1 t2
      have ht : t.Extends b₀ := h.hwFail.closeUp.update
      have ht1 : t1.Extends b₀ := ht.goto.refreshMembers.reloadRecs.complete
      have ht2 : t2.Extends b₀ := .ite ht1.fastAxisStart ht1
      exact ht2.safeAtReady

theorem Block.Extends.bringupFail (h : s.Extends b₀) {o units} : (s.bringupFail o units).Extends b₀ := by
  unfold Block.bringupFail
  exact .complete (.standDown (.update (h.closeUp.foldl fun _ _ ht => ht.faultEv)))

/-- `bringing` gets a variable's name, so that no case split below evaluates it on the block an event has left. -/
theorem Block.Extends.portReady (h : s.Extends b₀) {p} : (s.portReady p).Extends b₀ := by
  unfold Block.portReady
  obtain ⟨bringing, hbringing⟩ : ∃ f : Block → Option StateSetOp, ∀ u, u.bringing = f u := ⟨_, fun _ => rfl⟩
  simp -zeta -iota only [hbringing]
  extract_lets t
  have ht : t.Extends b₀ := h.modPort.portGoto
  split
  · exact ht.modPort.tryReady
  · split
    next _ u heq =>
      have hu : u.Extends b₀ := .of_snd heq ht.failDetail
      extract_lets _ v
      have hv : v.Extends b₀ := hu.setRegs.maEvt
      split
      · exact hv.bringupFail
      · exact hv

theorem Block.Extends.rdyLow (h : s.Extends b₀) {p} : (s.rdyLow p).Extends b₀ := by
  unfold Block.rdyLow
  extract_lets _
  split
  · exact h.update.portGoto
  · exact .ite h.update.portReady h.update
  · exact h.update.modPort
  · exact h.update.modPort
  · exact .ite h.update.modPort h.update
  · exact h.update

theorem Block.Extends.stateSet {f : Block → Cmd → Block} (h : s.Extends b₀) (hf : ∀ (t : Block) x1, t.Extends b₀ → (f t x1).Extends b₀)
    {cseq row} :
    (s.stateSet cseq row f).Extends b₀ := by
  unfold Block.stateSet
  split
  · exact h
  · exact .ite h (.ite h.complete (.ite h.complete (.ite h.complete (hf _ _ h))))

theorem Block.Extends.stateSetRuns (h : s.Extends b₀) {o} : (s.stateSetRuns o).Extends b₀ := h.update.setStage

theorem Block.Extends.setReady (h : s.Extends b₀) {c} : (s.setReady c).Extends b₀ :=
  .ite h.complete (.ite h.complete (.tryReady (h.stateSetRuns.pairsUp.foldl fun _ _ ht => ht.startPort)))

theorem Block.Extends.setStandby (h : s.Extends b₀) {c} : (s.setStandby c).Extends b₀ :=
  .ite h.complete h.standDown.goto.refreshMembers.complete.standbyInputs

theorem Block.Extends.setLit (h : s.Extends b₀) {c} : (s.setLit c).Extends b₀ :=
  .ite h.complete (.ite h.complete (.ite h.complete h.stateSetRuns))

theorem Block.Extends.setExtinguish (h : s.Extends b₀) {c} : (s.setExtinguish c).Extends b₀ := .ite h.complete h.stopGroups.stateSetRuns

theorem Block.Extends.stateSetStart (h : s.Extends b₀) : s.stateSetStart.Extends b₀ := by
  unfold Block.stateSetStart
  split
  · exact .ite (.ite h.update.lightGroups h.update) h
  · exact h

theorem Block.Extends.stateSetEnd (h : s.Extends b₀) : s.stateSetEnd.Extends b₀ := by
  unfold Block.stateSetEnd
  split
  · exact .ite h.update.complete h
  · exact h

/-! Machine/Calib.lean -/

theorem Block.Extends.claimAll (h : s.Extends b₀) {cseq l} : (s.claimAll cseq l).Extends b₀ := h.update.setRegs
theorem Block.Extends.calClaim (h : s.Extends b₀) {r} : (s.calClaim r).Extends b₀ := .update (h.foldl fun _ _ ht => ht.modEst.postI)
theorem Block.Extends.calRelease (h : s.Extends b₀) {r} : (s.calRelease r).Extends b₀ := h.foldl fun _ _ ht => ht.modEst

theorem Block.Extends.calFinish (h : s.Extends b₀) {r status detail} : (s.calFinish r status detail).Extends b₀ := by
  unfold Block.calFinish
  extract_lets _ t _ t1 _ t2 _ t3
  have ht : t.Extends b₀ := by
    unfold t
    split
    · exact .ite h.setReg.sweepOver h.setReg
    · exact h.setReg
  have ht1 : t1.Extends b₀ := ht.update.calRelease
  have ht2 : t2.Extends b₀ := by
    unfold t2
    split
    · split
      · exact .ite ht1 (.ite ht1.modGrp ht1.modGrp.giveBack)
      · exact ht1
    · exact ht1
  have ht3 : t3.Extends b₀ := .ite ht2.bump ht2.bump.bump
  exact ht3.postI.complete.ownersOf

theorem Block.Extends.calStop (h : s.Extends b₀) {status detail} : (s.calStop status detail).Extends b₀ := by
  unfold Block.calStop
  split
  · exact h
  · exact h.setSe.calFinish

theorem Block.Extends.calAccept (h : s.Extends b₀) {cseq} : (s.calAccept cseq).Extends b₀ := by
  unfold Block.calAccept
  split
  · split
    · exact h
    · extract_lets _
      split
      · exact h.denyClaim.complete
      · exact h.claimAll
  · exact h

theorem Block.Extends.calStart (h : s.Extends b₀) {r} : (s.calStart r).Extends b₀ :=
  .postI (.setStage (.ite h.calClaim.sweepStart h.calClaim))

theorem Block.Extends.calibrate (h : s.Extends b₀) {cseq proc} : (s.calibrate cseq proc).Extends b₀ := by
  unfold Block.calibrate
  split
  · exact h
  · extract_lets _
    split
    · exact h
    · split
      · exact h.complete
      · split
        · exact h.complete
        · split
          · exact h.setReg.complete
          · exact h.calStart

theorem Block.Extends.copyPi (h : s.Extends b₀) : s.copyPi.Extends b₀ := by
  unfold Block.copyPi
  refine .foldl h fun _ _ ht => ?_
  split
  · exact ht.setMem
  · exact ht

theorem Block.Extends.putPi (h : s.Extends b₀) {m pts} : (s.putPi m pts).Extends b₀ := h.setCap

theorem Block.Extends.pdFb (h : s.Extends b₀) : s.pdFb.Extends b₀ := h.update.foldl fun _ _ ht => ht.modPd

theorem Block.Extends.calApply (h : s.Extends b₀) {r d pi sc} : (s.calApply r d pi sc).Extends b₀ := by
  unfold Block.calApply
  split
  · exact h.foldl fun _ _ ht => ht.update
  · exact h.copyPi.putPi.piCheck.setFld.commitIn
  · exact .commitIn (h.foldl fun _ _ ht => ht.setRegs.update)
  · exact h.setDc

theorem Block.Extends.calLoad (h : s.Extends b₀) {ty bs} : (s.calLoad ty bs).Extends b₀ := by
  unfold Block.calLoad
  split
  · exact h.foldl fun _ _ ht => ht.modPd
  · exact h.update
  · exact h.setDc
  · exact h

theorem Block.Extends.calStore (h : s.Extends b₀) {r pi} : (s.calStore r pi).Extends b₀ := h.seedAsk.setStage

theorem Block.Extends.calStored (h : s.Extends b₀) {ok} : (s.calStored ok).Extends b₀ := by
  unfold Block.calStored
  split
  · exact h
  · exact .ite h.postI.calFinish h

theorem Block.Extends.pointsFb (h : s.Extends b₀) : s.pointsFb.Extends b₀ := by
  unfold Block.pointsFb
  split
  · exact .ite h.update h
  · exact h

theorem Block.Extends.calibrationResult (h : s.Extends b₀) {r d} : (s.calibrationResult r d).Extends b₀ := by
  unfold Block.calibrationResult
  split
  · exact h.calStop
  · exact .ite h.setRegs.calFinish (.ite h.setRegs.calApply.update.calStore h.setRegs.calApply.calFinish)

theorem Block.Extends.trimCtrl (h : s.Extends b₀) {v} : (s.trimCtrl v).Extends b₀ := .ite h.calStop h

/-! Machine/Boot.lean -/

theorem Block.Extends.cause (h : s.Extends b₀) {i} : (s.cause i).Extends b₀ := h.setFld

theorem Block.Extends.resetKeep (h : s.Extends b₀) {warm} : (s.resetKeep warm).Extends b₀ := by
  unfold Block.resetKeep
  refine .setRegs ?_
  refine ⟨fun hb => ?_, h.fuse⟩
  obtain ⟨-, -, -, -, -, -, -, hpairs⟩ := h.sized hb
  refine ⟨rfl, rfl, rfl, rfl, rfl, rfl, rfl, ?_⟩
  cases warm with
  | false => rfl
  | true => exact (List.length_map ..).trans hpairs

theorem Block.Extends.place (h : s.Extends b₀) {dst prev reason} : (s.place dst prev reason).Extends b₀ := h.update
theorem Block.Extends.startBoot (h : s.Extends b₀) {reason src} : (s.startBoot reason src).Extends b₀ := h.place.update.romTrain

theorem Block.Extends.resetHold (h : s.Extends b₀) {why} : (s.resetHold why).Extends b₀ := by
  unfold Block.resetHold
  extract_lets t t1
  have ht : t.Extends b₀ := h.advance.resetKeep
  have ht1 : t1.Extends b₀ := by
    unfold t1
    split
    · exact h
    · refine .place ?_
      split
      · exact ht.cause
      · exact ht
  exact ht1.update

theorem Block.Extends.resetRelease (h : s.Extends b₀) {src} : (s.resetRelease src).Extends b₀ := .ite (.ite h.update.startBoot h.update) h
theorem Block.Extends.warmReset (h : s.Extends b₀) {bit} : (s.warmReset bit).Extends b₀ := h.resetKeep.cause.place.romTrain
theorem Block.Extends.resetCtrl (h : s.Extends b₀) {v} : (s.resetCtrl v).Extends b₀ := .ite h (.ite h.errCause h.warmReset)
theorem Block.Extends.numRecord (h : s.Extends b₀) {ty n cseq why} : (s.numRecord ty n cseq why).Extends b₀ := h.seedAsk

theorem Block.Extends.mirrorCheck (h : s.Extends b₀) : s.mirrorCheck.Extends b₀ := by
  unfold Block.mirrorCheck
  extract_lets -underBinder _ _ old
  clear_value old
  split
  · exact h.setReg
  · split
    · exact h.blowAll.setReg
    · split
      · exact .ite h.numRecord.setReg h.numRecord.postI.raise.setReg
      · exact h.numRecord.postI.raise.setReg

theorem Block.Extends.bootRegs (h : s.Extends b₀) : s.bootRegs.Extends b₀ := h.setRegs

theorem Block.Extends.recordsAtBoot (h : s.Extends b₀) : s.recordsAtBoot.Extends b₀ := by
  unfold Block.recordsAtBoot
  extract_lets t _ t1
  have ht : t.Extends b₀ := h.measure.measure
  have ht1 : t1.Extends b₀ := ht.foldl fun _ _ ht1 => ht1.postI.raise
  refine .foldl ht1 fun _ _ ht2 => ?_
  split
  · exact ht2
  · split
    · exact ht2.calLoad
    · exact ht2

theorem Block.Extends.identityAtBoot (h : s.Extends b₀) {f} : (s.identityAtBoot f).Extends b₀ := .ite h.update h.update.postI.raise

theorem Block.Extends.reportAtBoot (h : s.Extends b₀) {kind} : (s.reportAtBoot kind).Extends b₀ := by
  unfold Block.reportAtBoot
  split
  · exact h
  · exact .ite (.update (.ite h.setRegs h.setRegs)) (.ite h.setRegs h.setRegs)

theorem Block.Extends.startTime (h : s.Extends b₀) : s.startTime.Extends b₀ := h.update.goSrc

theorem Block.Extends.bootDone (h : s.Extends b₀) {f s1 hk sv} : (s.bootDone f s1 hk sv).Extends b₀ := by
  unfold Block.bootDone
  extract_lets _ _ _ _ t _ _ _ t1
  have ht : t.Extends b₀ := h.advance.setReg.setRegs
  have ht1 : t1.Extends b₀ := ht.mirrorCheck.update
  split
  next _ t2 heq =>
    have ht2 : t2.Extends b₀ := .of_snd heq ht1.pairIn.update
    extract_lets _ _ t3 t4 _ _ t5 _ _ t6
    have ht3 : t3.Extends b₀ := ht2.setRegs.measure.measure.measure.measure
    have ht4 : t4.Extends b₀ := ht3.recordsAtBoot.identityAtBoot
    have ht5 : t5.Extends b₀ := ht4.setSe.reportAtBoot.reportAtBoot
    have ht6 : t6.Extends b₀ := ht5.update.bootRegs.setReg
    exact .ite ht6.goto.post.startTime ht6.goto.post.startTime.standbyInputs

theorem Block.Extends.laserCut (h : s.Extends b₀) : s.laserCut.Extends b₀ := by
  unfold Block.laserCut
  extract_lets _ _ _ _ _ t t1 t2
  have ht : t.Extends b₀ := h.update.lightOut.groupsOut.interrupt
  have ht1 : t1.Extends b₀ := .ite ht.goto.parkAll ht
  have ht2 : t2.Extends b₀ := ht1.cause.refreshMembers.post
  exact .ite ht2 ht2.update.reservedAsk

theorem Block.Extends.relight (h : s.Extends b₀) : s.relight.Extends b₀ := .ite h (.ite h.update.lightGroups h.update)

theorem Block.Extends.hkRestart (h : s.Extends b₀) {reason} : (s.hkRestart reason).Extends b₀ := by
  unfold Block.hkRestart
  extract_lets _ _ _ t _ t1 _ _ _ _ _ t2
  have ht : t.Extends b₀ := h.setReg.update.bump.post
  have ht1 : t1.Extends b₀ := by
    unfold t1
    split
    · exact ht.calStop.sweepOver
    · exact ht.calStop
  have hdrop := ht1.seedAbandon (result := 2)
  have ht2 : t2.Extends b₀ := ⟨hdrop.sized, hdrop.fuse⟩
  exact ht2.rsaDrop.foldl fun _ _ ht5 => ht5.complete

theorem Block.Extends.hkStrobe (h : s.Extends b₀) {v} : (s.hkStrobe v).Extends b₀ := .ite h.hkRestart h

theorem Block.Extends.hkEnd (h : s.Extends b₀) : s.hkEnd.Extends b₀ := by
  unfold Block.hkEnd
  split
  · exact h
  · extract_lets _ _ t
    have ht : t.Extends b₀ := h.update.post.autoClose
    split
    · exact ht.post
    · exact ht

theorem Block.Extends.mgmtGone (h : s.Extends b₀) {since} : (s.mgmtGone since).Extends b₀ := h.advance.update.postI.raise

theorem Block.Extends.modSlots (h : s.Extends b₀) {kind} {f : ImageSlots → ImageSlots} : (s.modSlots kind f).Extends b₀ := by
  unfold Block.modSlots
  split
  · exact h.update
  · exact h.update
  · exact h.update

theorem Block.Extends.fwStageStart (h : s.Extends b₀) {c host} : (s.fwStageStart c host).Extends b₀ := by
  unfold Block.fwStageStart
  extract_lets kind
  clear_value kind
  split
  · exact h.complete
  · split
    · exact h.complete
    · split
      · exact h.complete
      · split
        next t1 heq =>
          have ht1 : t1.Extends b₀ := .of_fst heq h.readBuf
          exact ht1.complete
        next t2 _ heq =>
          have ht2 : t2.Extends b₀ := .of_fst heq h.readBuf
          exact ht2.modSlots.bootRegs.update.seedAsk.setStage

theorem Block.Extends.fwStaged (h : s.Extends b₀) {w} : (s.fwStaged w).Extends b₀ := by
  unfold Block.fwStaged
  split
  · exact h
  · extract_lets _ _ _ _ t
    have ht : t.Extends b₀ := h.update.verified.modSlots
    split
    · exact ht.bootRegs.post.complete
    · exact ht.bootRegs.complete

theorem Block.Extends.fwActivate {f : Block → Cmd → Block} (h : s.Extends b₀) (hf : ∀ (t : Block) x1, t.Extends b₀ → (f t x1).Extends b₀)
    {cseq kind} :
    (s.fwActivate cseq kind f).Extends b₀ := by
  unfold Block.fwActivate
  split
  · exact h
  · exact .ite h (.ite h.complete (hf _ _ h))

theorem Block.Extends.svUp (h : s.Extends b₀) : s.svUp.Extends b₀ := .ite h.update.forbid h.update

theorem Block.Extends.selfTestFail (h : s.Extends b₀) {why slot} : (s.selfTestFail why slot).Extends b₀ := h.postI.raise

theorem Block.Extends.rollbackWritten (h : s.Extends b₀) {w} : (s.rollbackWritten w).Extends b₀ := by
  unfold Block.rollbackWritten
  extract_lets -underBinder _ _ _ _ t
  have ht : t.Extends b₀ := h.blowAll.setFld.post
  split
  · exact .ite ht.setSe.setStage ht.complete
  · exact ht

theorem Block.Extends.dropPf (h : s.Extends b₀) : s.dropPf.Extends b₀ := ⟨h.sized, h.fuse⟩

theorem Block.Extends.firebreakDie (h : s.Extends b₀) : s.firebreakDie.Extends b₀ :=
  h.copyStep.setReg.cause.reservedPut.resetKeep.place.update

theorem Block.Extends.firebreakLaser (h : s.Extends b₀) {g q} : (s.firebreakLaser g q).Extends b₀ := by
  unfold Block.firebreakLaser
  extract_lets -underBinder _ t t1 t2 t3 _ _ t4
  have ht : t.Extends b₀ := h.setReg.cause.dropPf
  have ht1 : t1.Extends b₀ := ht.lightOut.groupsOut.interrupt
  have ht2 : t2.Extends b₀ := by
    unfold t2
    split
    · exact ht1.update.complete
    · exact ht1
  have ht3 : t3.Extends b₀ := ht2.goto.refreshMembers
  have ht4 : t4.Extends b₀ := ht3.reservedAsk.seedAsk
  exact ht4.postI.raise

/-! Machine/Dtu.lean -/

theorem Block.Extends.invGo (h : s.Extends b₀) {v} : (s.invGo v).Extends b₀ := .ite h (.ite h.setFld h.update.setReg)
theorem Block.Extends.probeWrite (h : s.Extends b₀) {v} : (s.probeWrite v).Extends b₀ := .ite h.setReg.setRegs h.setReg

/-! Machine/Faults.lean -/

theorem Block.Extends.setInput (h : s.Extends b₀) {i permits} : (s.setInput i permits).Extends b₀ := by
  unfold Block.setInput
  split
  · exact h.update
  · exact h.update
  · exact h.update

theorem Block.Extends.permit (h : s.Extends b₀) {i} : (s.permit i).Extends b₀ := .post (.ite h.update h.update)

theorem Block.Extends.released (h : s.Extends b₀) {r} : (s.released r).Extends b₀ :=
  .ite h.modMember (.ite h.modGrp (.ite h.modSc (.ite h.modSc.hsfGoto (.ite h.update (.ite h.startPort h)))))

theorem Block.Extends.pathRelease (h : s.Extends b₀) : s.pathRelease.Extends b₀ := .ite h.update h

theorem Block.Extends.closeCleared (h : s.Extends b₀) {l} : (s.closeCleared l).Extends b₀ :=
  .pathRelease (h.foldl fun _ _ ht => ht.closeAt.released)

theorem Block.Extends.faultClear (h : s.Extends b₀) {c named} : (s.faultClear c named).Extends b₀ :=
  .ite (.complete (.ite h.closeCleared.update h.closeCleared)) (.ite h.complete
    (.complete (.postI (.refreshMembers (.goto (.ite h.closeCleared.update h.closeCleared))))))

/-! Machine/Skidder.lean -/

theorem Block.Extends.modSkd (h : s.Extends b₀) {c} {f : SkdChan → SkdChan} : (s.modSkd c f).Extends b₀ :=
  h.of_units (by simp [Block.units, Block.modSkd])

theorem Block.Extends.skdServe (h : s.Extends b₀) {m c} : (s.skdServe m c).Extends b₀ := h.setSk
theorem Block.Extends.skdRelease (h : s.Extends b₀) {c} : (s.skdRelease c).Extends b₀ := h.setSk

theorem Block.Extends.skdFault (h : s.Extends b₀) {c kind detail dst fetch addr} : (s.skdFault c kind detail dst fetch addr).Extends b₀ :=
  h.skdRelease.modSkd.setInt.post

theorem Block.Extends.beatSrc (h : s.Extends b₀) {c d off hoff host} : (s.beatSrc c d off hoff host).1.Extends b₀ := by
  unfold Block.beatSrc
  split
  · exact h
  · split
    · split
      next t _ heq =>
        have ht : t.Extends b₀ := .of_fst heq h.access
        exact .ite ht.uncorrectable ht
      next t1 _ heq =>
        have ht1 : t1.Extends b₀ := .of_fst heq h.access
        exact ht1
    · exact .ite_fst h h

theorem Block.Extends.blockPoison (h : s.Extends b₀) {pa bad} : (s.blockPoison pa bad).Extends b₀ := h.setDc

theorem Block.Extends.beatDst (h : s.Extends b₀) {c d off bs bad} : (s.beatDst c d off bs bad).1.Extends b₀ := by
  unfold Block.beatDst
  split
  · split
    next t _ heq =>
      have ht : t.Extends b₀ := .of_fst heq h.access
      exact ht.setMem.blockPoison.piTouch
    next t1 _ heq =>
      have ht1 : t1.Extends b₀ := .of_fst heq h.access
      exact ht1
  · exact .ite_fst h.emit h

theorem Block.Extends.beats (h : s.Extends b₀) {c d host from0 n} : (s.beats c d host from0 n).1.Extends b₀ := by
  induction n generalizing s with
  | zero => exact h
  | succ n ih =>
    rw [Block.beats]
    dsimp only
    split
    next t _ heq => exact (Block.Extends.of_fst heq h.beatSrc).skdFault
    next t _ _ heq =>
      have ht : t.Extends b₀ := .of_fst heq h.beatSrc
      split
      next u _ heq => exact (Block.Extends.of_fst heq ht.beatDst).skdFault
      next u heq => exact ih (Block.Extends.of_fst heq ht.beatDst).modSkd

theorem Block.Extends.moveTo (h : s.Extends b₀) {c upto host} : (s.moveTo c upto host).1.Extends b₀ := by
  unfold Block.moveTo
  split
  · exact h
  · exact h.beats

theorem Block.Extends.writeBack (h : s.Extends b₀) {c area} : (s.writeBack c area).1.Extends b₀ := .ite_fst h.writeVirt (.ite_fst h.emit h)
theorem Block.Extends.postSeal (h : s.Extends b₀) {surf result dseq} : (s.postSeal surf result dseq).Extends b₀ := h.post

theorem Block.Extends.hostSeal (h : s.Extends b₀) {i dseq} : (s.hostSeal i dseq).Extends b₀ :=
  .ite (.postSeal (.lostFrame (.modSurf (.ite h.hfc h)))) (.postSeal (.sealFor (.ite h.hfc h)))

theorem Block.Extends.sealSweep (h : s.Extends b₀) {hint} : (s.sealSweep hint).Extends b₀ := by
  unfold Block.sealSweep
  refine .foldl h fun _ _ ht => ?_
  split
  · exact .ite ht ht.hostSeal
  · exact ht

theorem Block.Extends.sealStep (h : s.Extends b₀) {c d status} : (s.sealStep c d status).Extends b₀ := by
  unfold Block.sealStep
  split
  · exact .ite h.postSeal h
  · split
    · exact h.postSeal
    · split
      · extract_lets _
        split
        · exact h.modSurf.modSurf.postSeal
        · exact h.modSurf
      · exact .ite h.modSurf h

theorem Block.Extends.skdStep (h : s.Extends b₀) {c dseq} : (s.skdStep c dseq).Extends b₀ := h.modSkd.modSkd

theorem Block.Extends.skdEnd (h : s.Extends b₀) {c d status hint} : (s.skdEnd c d status hint).Extends b₀ := by
  unfold Block.skdEnd
  extract_lets _ _ t t1
  have ht : t.Extends b₀ := .ite h.sealStep.post h.sealStep
  have ht1 : t1.Extends b₀ := .ite ht.setInt ht
  exact ht1.skdRelease.skdStep.sealSweep

theorem Block.Extends.skdRetire (h : s.Extends b₀) {c d status hint} : (s.skdRetire c d status hint).Extends b₀ :=
  .skdEnd (.ite h.writeBack h)

theorem Block.Extends.skdFinish (h : s.Extends b₀) {c d status hint} : (s.skdFinish c d status hint).Extends b₀ := by
  unfold Block.skdFinish
  extract_lets _
  split
  · split
    next t heq =>
      have ht : t.Extends b₀ := .of_fst heq h.writeBack
      exact ht.skdEnd
    next t1 _ heq =>
      have ht1 : t1.Extends b₀ := .of_fst heq h.writeBack
      exact ht1.skdFault
  · exact h.skdEnd

theorem Block.Extends.skdFetch (h : s.Extends b₀) {c host} : (s.skdFetch c host).1.Extends b₀ := by
  unfold Block.skdFetch
  extract_lets _
  split
  · split
    next t _ heq =>
      have ht : t.Extends b₀ := .of_fst heq h.readVirt
      exact ht
    next t1 _ _ _ heq =>
      have ht1 : t1.Extends b₀ := .of_fst heq h.readVirt
      exact ht1
  · exact .ite_fst h h

theorem Block.Extends.skdAccept (h : s.Extends b₀) {m c d} : (s.skdAccept m c d).Extends b₀ := by
  unfold Block.skdAccept
  extract_lets -underBinder _
  split
  · split
    · exact h.modSkd.skdFault
    · exact h.modSkd.setSk.sealSweep
  · exact .ite h.modSkd.setInt.post h.post.skdRetire

theorem Block.Extends.skdStart (h : s.Extends b₀) {m host} : (s.skdStart m host).Extends b₀ := by
  unfold Block.skdStart
  split
  · exact h
  · split
    · exact h
    · extract_lets _ t
      have ht : t.Extends b₀ := h.skdServe.modSkd
      split
      · exact ht.setSk
      · split
        next t1 _ _ heq =>
          have ht1 : t1.Extends b₀ := .of_fst heq h.skdServe.skdFetch
          exact ht1.skdFault
        next t2 _ heq =>
          have ht2 : t2.Extends b₀ := .of_fst heq h.skdServe.skdFetch
          exact ht2.skdAccept

theorem Block.Extends.hostFault (h : s.Extends b₀) {m upto kind detail dst host} :
    (s.hostFault m upto kind detail dst host).Extends b₀ := by
  unfold Block.hostFault
  split
  · split
    · exact .ite h.skdServe.skdFault h
    · exact h
  · split
    · exact h
    · split
      next t heq =>
        have ht : t.Extends b₀ := .of_fst heq h.moveTo
        exact ht
      next t1 heq =>
        have ht1 : t1.Extends b₀ := .of_fst heq h.moveTo
        exact .ite ht1.skdFault ht1

theorem Block.Extends.opDone (h : s.Extends b₀) {c op ignored} : (s.opDone c op ignored).Extends b₀ := .post (.ite h.setFld.setFld h)
theorem Block.Extends.skdResume (h : s.Extends b₀) {c} : (s.skdResume c).Extends b₀ := .ite h.modSkd.opDone h.opDone

theorem Block.Extends.skdSkip (h : s.Extends b₀) {c} : (s.skdSkip c).Extends b₀ := by
  unfold Block.skdSkip
  split
  · extract_lets t
    have ht : t.Extends b₀ := by
      unfold t
      split
      · exact h.skdRetire
      · exact h.skdStep.sealSweep
    exact ht.opDone
  · exact h.opDone

theorem Block.Extends.skdProgress (h : s.Extends b₀) {c} : (s.skdProgress c).Extends b₀ := by
  unfold Block.skdProgress
  split
  · exact h
  · exact h.update.moveTo

theorem Block.Extends.skdDrop (h : s.Extends b₀) {c n host} : (s.skdDrop c n host).Extends b₀ := by
  induction n generalizing s host with
  | zero => exact h
  | succ n ih =>
    rw [Block.skdDrop]
    refine ih ?_
    have hread : (if s.skdRingDev c then
        match s.readVirt c (s.skdPlace c (s.skd c).head) 64 none [] with
        | (s, bs, none) => (s, some bs)
        | (s, _, some _) => (s, none)
      else (s, if s.tunnelUp && decide (64 ≤ host.length) then some (host.take 64) else none)).1.Extends b₀ := by
      refine .ite_fst ?_ h
      split
      next u _ heq => exact .of_fst heq h.readVirt
      next u _ _ heq => exact .of_fst heq h.readVirt
    split
    next u bs heq => exact (Block.Extends.of_fst heq hread).skdRetire
    next u heq => exact (Block.Extends.of_fst heq hread).skdStep.sealSweep

theorem Block.Extends.skdAbort (h : s.Extends b₀) {c host} : (s.skdAbort c host).Extends b₀ := by
  unfold Block.skdAbort
  extract_lets t _ t1
  have ht : t.Extends b₀ := .ite h.skdProgress h
  have ht1 : t1.Extends b₀ := by
    unfold t1
    split
    · exact ht.skdRelease.skdRetire
    · exact ht.skdRelease
  exact ht1.skdDrop.modSkd.setFld

theorem Block.Extends.skdOpAbort (h : s.Extends b₀) {c host} : (s.skdOpAbort c host).Extends b₀ := .ite h.opDone h.skdAbort.opDone
theorem Block.Extends.skdResync (h : s.Extends b₀) {c} : (s.skdResync c).Extends b₀ := .ite h.modSkd.opDone h.opDone

theorem Block.Extends.skdOpWrite (h : s.Extends b₀) {v} : (s.skdOpWrite v).Extends b₀ := by
  unfold Block.skdOpWrite
  extract_lets _
  split
  · exact h.skdResume
  · exact h.skdSkip
  · exact h.skdOpAbort
  · exact h.skdResync
  · exact h.opDone

theorem Block.Extends.skdCtrlWrite (h : s.Extends b₀) {c host v} : (s.skdCtrlWrite c host v).Extends b₀ :=
  .ite h.errCause (.ite h.setReg.modSkd (.ite h.setReg.setFld.skdAbort h.setReg))

theorem Block.Extends.skdTailWrite (h : s.Extends b₀) {c v} : (s.skdTailWrite c v).Extends b₀ :=
  .ite h.setFld.setFld (.ite h.setReg.setSk.modSkd.modSkd h.setReg.setSk.modSkd)

theorem Block.Extends.skdCapture (h : s.Extends b₀) {v} : (s.skdCapture v).Extends b₀ := h.setReg.setRegs

/-! Machine/Windows.lean -/

theorem Block.Extends.winStep (h : s.Extends b₀) {a} : (s.winStep a).Extends b₀ := by
  unfold Block.winStep
  split
  · exact h.setReg
  · exact h

theorem Block.Extends.winWrite (h : s.Extends b₀) {a v} : (s.winWrite a v).Extends b₀ := by
  unfold Block.winWrite
  split
  · exact h.shTake.winStep
  · exact h

theorem Block.Extends.recCapture (h : s.Extends b₀) {i} : (s.recCapture i).Extends b₀ := h.setRegs
theorem Block.Extends.chkLogCapture (h : s.Extends b₀) {p i} : (s.chkLogCapture p i).Extends b₀ := h.setRegs
theorem Block.Extends.zoneCapture (h : s.Extends b₀) {z} : (s.zoneCapture z).Extends b₀ := h.setReg
theorem Block.Extends.groupCapture (h : s.Extends b₀) {g} : (s.groupCapture g).Extends b₀ := h.setReg
theorem Block.Extends.probeRoute (h : s.Extends b₀) {v} : (s.probeRoute v).Extends b₀ := h.setReg
theorem Block.Extends.hlCapture (h : s.Extends b₀) {q} : (s.hlCapture q).Extends b₀ := h.setRegs

theorem Block.Extends.rwEffect (h : s.Extends b₀) {a w} : (s.rwEffect a w).Extends b₀ := by
  unfold Block.rwEffect
  extract_lets _ p
  clear_value p
  split
  · split
    · exact h.ringCtrl
    · split
      · exact h.cmdTail
      · split
        · exact h.evtHead
        · split
          · exact h.setReg.modCheck
          · split
            · exact .ite h h.setReg
            · exact h.setReg
  · exact .ite h.skdCapture (.ite (.ite h.skdCtrlWrite (.ite h.skdTailWrite h.setReg)) h.setReg)
  · exact .ite (.ite h h.setReg) h.setReg
  · exact .ite h.timeCtrl h.setReg
  · exact .ite h.surfSelWrite h.setReg
  · exact .ite h.setReg.nvmeOff h.setReg
  · exact .ite h.descCapture h.setReg
  · exact .ite h.setReg.chkLogCapture h.setReg
  · exact .ite h.setReg.chkLogCapture h.setReg
  · exact .ite h.setReg.chkLogCapture h.setReg
  · exact .ite h.setReg.chkLogCapture h.setReg
  · exact .ite h.setReg.zoneCapture h.setReg
  · exact .ite h.setReg.groupCapture h.setReg
  · exact .ite h.setReg.estCapture (.ite h.setReg.targetCapture (.ite h.setReg.matCapture (.ite h.setReg.pdCapture h.setReg)))
  · exact .ite h.setReg.hlCapture h.setReg
  · exact .ite h.seedSel h.setReg
  · exact .ite h.setReg.setReg (.ite h.setReg.setReg h.setReg)
  · exact .ite h.setReg.creditCapture h.setReg
  · exact .ite h.setReg.creditCapture h.setReg
  · exact .ite h.setReg.creditCapture h.setReg
  · exact .ite h.setReg.creditCapture h.setReg
  · exact .ite h.setReg.probeRoute h.setReg
  · exact .ite h.setReg.recCapture h.setReg
  · exact h.setReg

theorem Block.Extends.shEffect (h : s.Extends b₀) {a v} : (s.shEffect a v).Extends b₀ :=
  .ite h.winWrite (.ite h.shTake.planStale (.ite h.shTake.planStale h.shTake))

theorem Block.Extends.put (h : s.Extends b₀) {a v} : (s.put a v).Extends b₀ := by
  unfold Block.put
  split
  · exact h
  · split
    · exact h.shEffect
    · exact .ite (.ite h.errCause (.ite h.probeWrite (.ite h.piCheck h))) (h.rwTake fun _ _ ht => ht.rwEffect)
    · exact h

/-! Machine/Cue.lean -/

theorem Block.Extends.cueGo (h : s.Extends b₀) {i c st} : (s.cueGo i c st).Extends b₀ := h.setCtx.update
theorem Block.Extends.cueState (h : s.Extends b₀) {i st} : (s.cueState i st).Extends b₀ := .ite h.cueGo h.bump

theorem Block.Extends.ctxWrite (h : s.Extends b₀) {i w v} : (s.ctxWrite i w v).Extends b₀ := by
  unfold Block.ctxWrite
  extract_lets -underBinder _
  split
  · exact h.bump
  · split
    · exact h.setCtx
    · exact h.setCtx
    · exact h.setCtx
    · exact .ite h.cueGo h.setCtx.bump
    · exact h

theorem Block.Extends.cancelAll (h : s.Extends b₀) : s.cancelAll.Extends b₀ := h.foldl fun _ _ ht => ht.cueState

theorem Block.Extends.cueOp (h : s.Extends b₀) {v} : (s.cueOp v).Extends b₀ := by
  unfold Block.cueOp
  split
  · exact h.cueState
  · exact h.cueState
  · exact h.cancelAll
  · exact h

theorem Block.Extends.actUe (h : s.Extends b₀) {r pa} : (s.actUe r pa).Extends b₀ := .ite h.uncorrectable h
theorem Block.Extends.cueFetch (h : s.Extends b₀) {bad} : (s.cueFetch bad).Extends b₀ := .update (h.foldl_fst fun _ _ ht => ht.actUe)

theorem Block.Extends.actWrites (h : s.Extends b₀) {f} : (s.actWrites f).1.Extends b₀ := by
  unfold Block.actWrites
  split
  · exact h.foldl fun _ _ ht => ht.put
  · exact h.foldl fun _ _ ht => ht.put
  · exact .ite h.put.put h.put
  · exact .ite_fst h (h.foldl fun _ _ ht => ht.put)
  · dsimp only
    exact h.put
  · exact h

theorem Block.Extends.cueFired (h : s.Extends b₀) {i res fsn} : (s.cueFired i res fsn).Extends b₀ := by
  unfold Block.cueFired
  extract_lets _ _ t
  have ht : t.Extends b₀ := .ite h.setCtx.bump.bump.postTally h.setCtx.bump
  exact .ite ht.cueEvent ht

theorem Block.Extends.cueFire1 (h : s.Extends b₀) {f fsn} : (s.cueFire1 f fsn).1.Extends b₀ :=
  .ite_fst h (.ite_fst h.cueMiss (.ite h.cueFired.actWrites.update h.cueFired.actWrites))

theorem Block.Extends.cueFire (h : s.Extends b₀) {bad} : (s.cueFire bad).Extends b₀ := by
  unfold Block.cueFire
  extract_lets _ t
  have ht : t.Extends b₀ := .ite h.advanceTo h.advanceTo.cueFetch
  split
  next t1 _ _ heq =>
    have ht1 : t1.Extends b₀ := .of_fst heq (ht.foldl_fst fun _ _ ht1 => ht1.cueFire1)
    exact .ite ht1.update.cuesApplied ht1.update.commitIn

theorem Block.Extends.cueFiring (h : s.Extends b₀) {bad} : (s.cueFiring bad).Extends b₀ := .ite h.cueFire h

theorem Block.Extends.sceneRun (h : s.Extends b₀) {x} : (s.sceneRun x).Extends b₀ :=
  .ite h.cueMiss (.cueDone (.ite h.lightGroups h.stopGroups))

theorem Block.Extends.scenesFb (h : s.Extends b₀) : s.scenesFb.Extends b₀ := h.update.foldl fun _ _ ht => .ite ht.sceneRun ht

theorem Block.Extends.fabCue (h : s.Extends b₀) {d} : (s.fabCue d).1.Extends b₀ := .ite_fst h (.ite_fst h (.ite_fst h.bump h.cueGo))
theorem Block.Extends.cueFrame (h : s.Extends b₀) {src d} : (s.cueFrame src d).Extends b₀ := .ite h h.bump.fabCue.post

theorem Block.Extends.cueSend (h : s.Extends b₀) {mc dst proto pay out here} : (s.cueSend mc dst proto pay out here).Extends b₀ :=
  .foldl (.ite (.ite h.cueFrame h.hostRx) h) fun _ _ ht => ht.enqueue

theorem Block.Extends.cueMsg (h : s.Extends b₀) {b} : (s.cueMsg b).1.Extends b₀ := by
  unfold Block.cueMsg
  extract_lets _
  split
  · exact h
  · split
    · exact h.cueSend
    · split
      · exact h
      · exact h.cueSend
      · exact .cueSend (.ite h.bump.postTally h)

theorem Block.Extends.cueOut (h : s.Extends b₀) {b} : (s.cueOut b).Extends b₀ := .ite h.update (h.foldl fun _ _ ht => ht.emit)

theorem Block.Extends.fineAct (h : s.Extends b₀) {i ty b} : (s.fineAct i ty b).1.Extends b₀ := by
  unfold Block.fineAct
  split
  · exact h.cueMsg
  · exact h.post
  · exact h.cueOut

theorem Block.Extends.fineFire (h : s.Extends b₀) {i c ref tick bad} : (s.fineFire i c ref tick bad).Extends b₀ := by
  unfold Block.fineFire
  split
  · exact h.cueMiss
  · split
    · exact h.cueMiss
    · split
      · extract_lets t
        have ht : t.Extends b₀ := h.actUe
        split
        · exact ht.cueMiss
        · split
          next t1 _ heq =>
            have ht1 : t1.Extends b₀ := .of_fst heq ht.fineAct
            split
            · exact ht1.cueMiss
            · extract_lets _ t2
              have ht2 : t2.Extends b₀ := ht1.update
              exact ht2.cueFired.postTally.cueDone

theorem Block.Extends.fineCue (h : s.Extends b₀) {bad} : (s.fineCue bad).Extends b₀ := by
  unfold Block.fineCue
  split
  · exact h
  · exact .ite h h.advanceTo.fineFire

/-! Machine/View.lean -/

theorem Block.Extends.readEffect (h : s.Extends b₀) {a} : (s.readEffect a).Extends b₀ := by
  unfold Block.readEffect
  split
  · exact h.setRegs
  · split
    · exact h.setReg
    · split
      · split
        · exact h.setReg
        · exact h
      · split
        · exact h.winStep
        · exact h

/-! Machine/HostAccess.lean -/

theorem Block.Extends.blockFollows (h : s.Extends b₀) {p} {old : Nat → Word} {oldSp} : (s.blockFollows p old oldSp).Extends b₀ := by
  unfold Block.blockFollows
  split
  · exact h.ingestApplied.lsaFollows
  · exact h.foldl fun _ _ ht => .ite ht.modPort ht
  · exact h.portEn
  · exact h.portEn
  · exact h.portEn
  · exact h.portEn
  · exact h.scanApplied
  · exact h.scanApplied
  · exact h.scanApplied
  · exact h.lightApplied
  · exact h.lightApplied
  · exact h.lightApplied
  · exact h.lightApplied
  · exact .ite h.guestGrants.changeDue h.guestGrants
  · exact h.foldl fun _ _ ht => ht.pairService
  · exact h.fabricApply.lsaFollows
  · exact h.fabricApply.lsaFollows
  · exact h.fabricApply.lsaFollows
  · exact h.fabricApply.lsaFollows
  · exact h.fabricApply.lsaFollows
  · exact h

theorem Block.Extends.enableWrite (h : s.Extends b₀) {p en} : (s.enableWrite p en).Extends b₀ := .ite h.errCause h.setFld.blockFollows

theorem Block.Extends.freezeWrite (h : s.Extends b₀) {p on} : (s.freezeWrite p on).Extends b₀ :=
  .ite h.setFld.update (.ite h.setFld.update h.setFld)

theorem Block.Extends.sourceReset (h : s.Extends b₀) {n} : (s.sourceReset n).Extends b₀ := by
  unfold Block.sourceReset
  extract_lets t
  have ht : t.Extends b₀ := by
    unfold t
    split
    · exact h.modSurf
    · exact h
  exact ht.modSrc

theorem Block.Extends.seedDrop (h : s.Extends b₀) : s.seedDrop.Extends b₀ :=
  .foldl ⟨h.sized, h.fuse⟩ fun _ _ ht => ht.complete

theorem Block.Extends.stateSetDrop (h : s.Extends b₀) : s.stateSetDrop.Extends b₀ := by
  unfold Block.stateSetDrop
  split
  · exact .complete (.ite h.update.standDown h.update)
  · exact h

theorem Block.Extends.stageDrop (h : s.Extends b₀) : s.stageDrop.Extends b₀ := by
  unfold Block.stageDrop
  split
  · extract_lets t
    have ht : t.Extends b₀ := by
      unfold t
      split
      · exact .ite h.seedAbandon h
      · exact h
    refine .complete ?_
    exact ⟨ht.sized, ht.fuse⟩
  · exact h

theorem Block.Extends.activateDrop (h : s.Extends b₀) : s.activateDrop.Extends b₀ := by
  unfold Block.activateDrop
  extract_lets -underBinder t _ _ _ t1 t2
  have ht : t.Extends b₀ := by
    unfold t
    split
    · exact .ite h.seedAbandon h
    · exact h
  have ht1 : t1.Extends b₀ := ht.setSe.foldl fun _ _ ht2 => ht2.complete
  have ht2 : t2.Extends b₀ := by
    unfold t2
    split
    · exact .ite ht1.update.modSlots ht1
    · exact ht1
  exact ht2.update.modSlots.bootRegs

theorem Block.Extends.cueDrop (h : s.Extends b₀) : s.cueDrop.Extends b₀ := h.update.foldl fun _ _ ht => .ite ht.cueMiss ht

theorem Block.Extends.sweepDrop (h : s.Extends b₀) : s.sweepDrop.Extends b₀ := by
  unfold Block.sweepDrop
  split
  · exact h
  · exact .ite h.sweepOver.calStop h.sweepOver.complete

theorem Block.Extends.trustDrop (h : s.Extends b₀) : s.trustDrop.Extends b₀ := h.update.rsaDrop.foldl fun _ _ ht => ht.complete

/-- A soft reset of Skidder leaves 16 channels. -/
theorem Block.Extends.skdReset (h : s.Extends b₀) :
    Block.Extends { s with sk := { s.sk with ch := List.replicate 16 SkdChan.reset, run := [none, none, none, none] } } b₀ := by
  refine ⟨fun hb => ?_, h.fuse⟩
  obtain ⟨hma, hgrp, -, hrest⟩ := h.sized hb
  exact ⟨hma, hgrp, rfl, hrest⟩

/-- A soft reset of the check-value units leaves 8. -/
theorem Block.Extends.chkReset (h : s.Extends b₀) : Block.Extends { s with chk := List.replicate 8 ChkUnit.reset } b₀ := by
  refine ⟨fun hb => ?_, h.fuse⟩
  obtain ⟨hma, hgrp, hch, hsurf, hsrc, hcnt, -, hpairs⟩ := h.sized hb
  exact ⟨hma, hgrp, hch, hsurf, hsrc, hcnt, rfl, hpairs⟩

theorem Block.Extends.abandonOps (h : s.Extends b₀) {p} : (s.abandonOps p).Extends b₀ := by
  unfold Block.abandonOps
  split
  · exact h.stateSetDrop
  · exact h.stageDrop.activateDrop
  · exact h.ringCtrl
  · exact h.skdReset
  · exact h.update
  · extract_lets t
    have ht : t.Extends b₀ := h.foldl fun _ _ ht => ht.sourceReset
    exact .ite ht ht.nvmeOff
  · exact h.update
  · exact h.update.foldl fun _ _ ht => ht.modPort
  · exact h.foldl fun _ _ ht => ht.modPort
  · exact h.foldl fun _ _ ht => .ite ht.modPort.portGoto ht
  · exact h.update
  · exact h.setLs
  · exact h.update
  · exact h.update
  · exact h.calStop
  · exact h.sweepDrop
  · exact h.seedAbandon.seedDrop
  · exact h.trustDrop
  · exact h.update
  · exact h.cueDrop
  · exact h.modHo
  · exact h.chkReset
  · exact h.setTy
  · exact h

theorem Block.Extends.timeReset (h : s.Extends b₀) : s.timeReset.Extends b₀ := .ite h.update.fsyncDrop.goSrc h.update.fsyncDrop

theorem Block.Extends.softResetGo (h : s.Extends b₀) {p} : (s.softResetGo p).Extends b₀ := by
  unfold Block.softResetGo
  extract_lets t old oldSp u v w x
  have hv : v.Extends b₀ := h.abandonOps.update.setReg.unpend
  have hw : w.Extends b₀ := .ite hv.timeReset hv
  exact .blockFollows (.ite hw.thermApplied hw)

theorem Block.Extends.softReset (h : s.Extends b₀) {p} : (s.softReset p).Extends b₀ :=
  .ite h.errCause (.ite h.update.setFld h.update.softResetGo)

theorem Block.Extends.softResetWaiting (h : s.Extends b₀) : s.softResetWaiting.Extends b₀ := h.update.foldl fun _ _ ht => ht.softResetGo

theorem Block.Extends.softResetEnd (h : s.Extends b₀) {p} : (s.softResetEnd p).Extends b₀ := .ite h.setFld h
theorem Block.Extends.intClear (h : s.Extends b₀) {p v} : (s.intClear p v).Extends b₀ := .ite h.setReg.message h.setReg.unpend
theorem Block.Extends.lockWrite (h : s.Extends b₀) {p v} : (s.lockWrite p v).Extends b₀ := .ite h h.setReg

theorem Block.Extends.pageCtrlWrite (h : s.Extends b₀) {p v} : (s.pageCtrlWrite p v).Extends b₀ := by
  unfold Block.pageCtrlWrite
  split
  · exact h.errCause
  · split
    · exact h.errCause
    · extract_lets t
      have ht : t.Extends b₀ := .ite h.enableWrite h
      exact .ite ht.freezeWrite.softReset ht.freezeWrite

theorem Block.Extends.commitWrite (h : s.Extends b₀) {p v} : (s.commitWrite p v).Extends b₀ :=
  .ite (.ite (.commitIn (.ite h.withdraw h)) (.ite h.withdraw h)) h

theorem Block.Extends.headWrite (h : s.Extends b₀) {p off v} : (s.headWrite p off v).Extends b₀ := by
  unfold Block.headWrite
  split
  · exact h.pageCtrlWrite
  · exact h.intClear
  · exact .ite h.errCause (h.withInt fun _ ht => ht.setReg)
  · exact h.setInt
  · exact h.commitWrite
  · exact h.setReg
  · exact h.lockWrite
  · exact h

theorem Block.Extends.devCommitWrite (h : s.Extends b₀) {v} : (s.devCommitWrite v).Extends b₀ :=
  .ite (.commitIn (.ite h.withdraw h)) (.ite h.withdraw h)

theorem Block.Extends.maCtrlWrite (h : s.Extends b₀) {p v} : (s.maCtrlWrite p v).Extends b₀ := by
  unfold Block.maCtrlWrite
  extract_lets t t1
  have ht : t.Extends b₀ := .ite h.arrayReset h
  have ht1 : t1.Extends b₀ := .ite ht.maRetrain ht
  exact .ite ht1.maIdentReq ht1

theorem Block.Extends.holdCmdWrite (h : s.Extends b₀) {v} : (s.holdCmdWrite v).Extends b₀ :=
  .ite (.clearRing (.ite h.forceRejoin h)) (.ite h.forceRejoin h)

theorem Block.Extends.strobe0 (h : s.Extends b₀) {a v} : (s.strobe0 a v).Extends b₀ := by
  refine .ite h.devCommitWrite <| .ite h.resetCtrl <| .ite h.hkStrobe <| .ite h.ringResync <| .ite h.skdOpWrite <| .ite h.invGo <|
    .ite h.ftSet <| .ite h.update <| .ite h.surfOpWrite <| .ite h.hfcPush <| .ite h.planGo <| .ite (.ite h.seqCheck h) <| .ite h.setReg <|
    .ite h.trimCtrl <| .ite (.ite h.update.newChallenge h) <| .ite h.cueOp <| .ite h.holdCmdWrite <| .ite h.tallyCtrl ?_
  split
  · exact h.maCtrlWrite
  · split
    · exact h.chkFeed
    · exact h

theorem Block.Extends.clearBits (h : s.Extends b₀) {a m v} : (s.clearBits a m v).Extends b₀ :=
  .ite (.ite h.setReg h) (.setReg (.ite h.modSrc h))

theorem Block.Extends.chkWrite (h : s.Extends b₀) {a v} : ∀ t ∈ s.chkWrite a v, t.Extends b₀ := by
  fun_cases Block.chkWrite s a v <;> rintro t ⟨⟩
  · exact h.chkCfg
  · exact h.chkPsel
  · exact h.chkPhi

theorem Block.Extends.barWrite (h : s.Extends b₀) {a v} : (s.barWrite a v).Extends b₀ := by
  unfold Block.barWrite
  extract_lets _
  split
  · exact .ite h.readEffect h
  · split
    · exact h.headWrite
    · split
      · exact h
      · split
        · exact h.clearBits
        · exact h.clearBits
        · exact h.clearBits
        · exact h.strobe0
        · exact h.strobe0
        · split
          next t heq =>
            have ht : t.Extends b₀ := h.chkWrite _ heq
            exact ht
          · exact h.put
        · split
          next t1 heq =>
            have ht1 : t1.Extends b₀ := h.chkWrite _ heq
            exact ht1
          · exact h.put

theorem Block.Extends.barRead (h : s.Extends b₀) {a} : (s.barRead a).2.Extends b₀ := h.readEffect

theorem Block.Extends.windowMem (h : s.Extends b₀) {off bs} : (s.windowMem off bs).Extends b₀ :=
  .ite h (.foldl (.ite h.dramReq h) fun _ _ ht => .ite ht (.ite ht.setMemB.freshBlock.piTouch ht.setFld))

theorem Block.Extends.windowCue (h : s.Extends b₀) {off bs} : (s.windowCue off bs).Extends b₀ := .ite h (h.foldl fun _ _ ht => ht.ctxWrite)

theorem Block.Extends.barWrite2 (h : s.Extends b₀) {off bs} : (s.barWrite2 off bs).Extends b₀ :=
  .ite h.windowMem (.ite h.windowCue (.ite h.update.planStale (.ite h.update (.ite h.update h))))

theorem Block.Extends.windowAsk (h : s.Extends b₀) {off n} : (s.windowAsk off n).Extends b₀ := .ite h.dramReq h

theorem Block.Extends.oddAccess (h : s.Extends b₀) {a size w} : (s.oddAccess a size w).Extends b₀ := by
  unfold Block.oddAccess
  split
  · exact h
  · split
    · exact .ite h.barWrite.barWrite h
    · exact .ite h.barRead.barRead.emit h.emit

/-! Machine/Boundary.lean -/

theorem Block.Extends.availability (h : s.Extends b₀) : s.availability.Extends b₀ :=
  .update (.ite h (.ite (h.update.bump.bump.bump.foldl fun _ _ ht => ht.postTally) (.ite h.update.bump.update.bump h.update.bump)))

theorem Block.Extends.conserve (h : s.Extends b₀) : s.conserve.Extends b₀ := h.foldl fun _ _ ht => ht.setReg.faultEv

theorem Block.Extends.wheelFb (h : s.Extends b₀) : s.wheelFb.Extends b₀ := .ite h.update (.update (.ite h h.bump.bump))

theorem Block.Extends.seriesFb (h : s.Extends b₀) : s.seriesFb.Extends b₀ := by
  unfold Block.seriesFb
  extract_lets _ _ _ t _ _ t1
  have ht : t.Extends b₀ := h.tallySnap.availability
  have ht1 : t1.Extends b₀ := ht.update.postTally
  exact .ite ht1.post ht1

theorem Block.Extends.softReturn (h : s.Extends b₀) {g} : (s.softReturn g).Extends b₀ := h.modGrp

theorem Block.Extends.darkEnd (h : s.Extends b₀) : s.darkEnd.1.Extends b₀ := h.update

theorem Block.Extends.softReturns (h : s.Extends b₀) {groups} : (s.softReturns groups).Extends b₀ := h.foldl fun _ _ ht => ht.softReturn

theorem Block.Extends.portsFb (h : s.Extends b₀) : s.portsFb.Extends b₀ := by
  unfold Block.portsFb
  extract_lets -underBinder k t
  have ht : t.Extends b₀ := h.foldl fun _ _ ht => ht.modPort
  split
  next u _ heq =>
    have hu : u.Extends b₀ := .of_fst heq (ht.foldl_fst fun _ _ ht => ht.portFb)
    exact .ite hu.postTally hu

theorem Block.Extends.frostEnter (h : s.Extends b₀) {r} : (s.frostEnter r).Extends b₀ := .ite h.enterFrost.modHo h.enterFrost

theorem Block.Extends.stallFrost (h : s.Extends b₀) : s.stallFrost.Extends b₀ := .ite h.frostEnter h

theorem Block.Extends.frostFb (h : s.Extends b₀) : s.frostFb.Extends b₀ := by
  unfold Block.frostFb
  extract_lets t
  have ht : t.Extends b₀ := by
    unfold t
    split
    · exact h.frostEnter
    · exact h
  exact .ite ht.enterFrost.setFld.bumpSat.post ht

theorem Block.Extends.thawFb (h : s.Extends b₀) : s.thawFb.Extends b₀ := by
  unfold Block.thawFb
  exact .modHo (.update (.ite (.thaw (.ite h.setFld.post h)) (.ite h.setFld.post h)))

theorem Block.Extends.pipePb (h : s.Extends b₀) : s.pipePb.Extends b₀ :=
  .stallPb (.ite_fst h.holdPb.clockPb (.ite_fst h.holdPb.clockPb.overrun h.holdPb.clockPb.takeSurface.pipeBegin))

theorem Block.Extends.extinguishFb (h : s.Extends b₀) : s.extinguishFb.Extends b₀ := .ite h h.dropGroups.unlit

theorem Block.Extends.hlStringsFb (h : s.Extends b₀) : s.hlStringsFb.Extends b₀ := h.modMembers.foldl fun _ _ ht => ht.modeKerf

theorem Block.Extends.lightFb (h : s.Extends b₀) : s.lightFb.Extends b₀ :=
  .setBucks (.refreshMembers (.litSync (.scenesFb (.relight (.stateSetEnd
    (.stateSetStart (.extinguishFb (.hlStringsFb (h.foldl fun _ _ ht => ht.levelFb)))))))))

theorem Block.Extends.scanFb (h : s.Extends b₀) : s.scanFb.Extends b₀ := h.rowsFb.beamResume.foldl fun _ _ ht => ht.chainFrame

theorem Block.Extends.pulsesFb (h : s.Extends b₀) : s.pulsesFb.Extends b₀ := .ite h.gpioPulse.emit h.gpioPulse

theorem Block.Extends.frameBoundary (h : s.Extends b₀) : s.frameBoundary.Extends b₀ := by
  unfold Block.frameBoundary
  split
  · exact h
  · extract_lets t t1 t2 t3 t4
    have ht : t.Extends b₀ := h.cueFiring.cutoff
    have ht1 : t1.Extends b₀ := ht.advanceTo
    have ht2 : t2.Extends b₀ := ht1.seriesFb.wheelFb
    have ht3 : t3.Extends b₀ := ht2.closeWhere
    have ht4 : t4.Extends b₀ := ht3.foldl fun _ _ ht4 => ht4.estFrame
    split
    next t5 _ heq =>
      have ht5 : t5.Extends b₀ := .of_fst heq ht4.darkEnd
      extract_lets t6 t7 t8 t9 t10 t11 t12 _ t13
      have ht6 : t6.Extends b₀ := ht5.commitFb.softReturns.softResetWaiting
      have ht7 : t7.Extends b₀ := ht6.portsFb
      have ht8 : t8.Extends b₀ := ht7.frostFb.thawFb
      have ht9 : t9.Extends b₀ := ht8.pointsFb.pdFb.targetApply
      have ht10 : t10.Extends b₀ := ht9.dramFallbackEntry.pipePb.stallFrost
      have ht11 : t11.Extends b₀ := ht10.lightFb.scanFb
      have ht12 : t12.Extends b₀ := ht11.dramFrame.reloadRecs
      have ht13 : t13.Extends b₀ := ht12.update
      exact ht13.pulsesFb.conserve

theorem Block.Extends.snapWrite (h : s.Extends b₀) {cseq d xok} : (s.snapWrite cseq d xok).Extends b₀ := by
  unfold Block.snapWrite
  split
  · exact h
  · exact .ite h.setStage.complete (.ite h.setStage.writeBuf.complete h.setStage.writeBuf.complete)

/-! Machine/HostLink.lean -/

theorem Block.Extends.linkDown (h : s.Extends b₀) : s.linkDown.Extends b₀ := by
  unfold Block.linkDown
  refine .foldl h fun _ _ ht => ?_
  split
  · exact ht
  · exact ht.hostFault.hostFault

theorem Block.Extends.linkLoss (h : s.Extends b₀) : s.linkLoss.Extends b₀ := by
  unfold Block.linkLoss
  refine .foldl h fun _ _ ht => ?_
  split
  · exact ht
  · exact .ite ht.skdProgress ht

theorem Block.Extends.dpPath (h : s.Extends b₀) {a up} : (s.dpPath a up).Extends b₀ :=
  .ite h (.ite h.update.setFld.postStream h.dpAbandon.setFld.setFld.update.postStream)

theorem Block.Extends.linkChange (h : s.Extends b₀) {l} : (s.linkChange l).Extends b₀ := by
  unfold Block.linkChange
  extract_lets _ _ _ _ _ _ _ t
  have ht : t.Extends b₀ := .ite h.linkLoss h
  split
  next _ t1 heq =>
    have ht1 : t1.Extends b₀ := .of_snd heq ht.update
    exact .post (.dpPath (.dpPath (.ite ht1.bump.setRegs.setFld.linkDown ht1.bump.setRegs.setFld)))

theorem Block.Extends.configure (h : s.Extends b₀) {c} : (s.configure c).Extends b₀ := h.update.foldl fun _ _ ht => ht.emit

theorem Block.Extends.flr (h : s.Extends b₀) : s.flr.Extends b₀ := .setFld (.ringCtrl (.update (h.foldl fun _ _ ht => .ite ht.skdAbort ht)))

theorem Block.Extends.usbRead (h : s.Extends b₀) {off n} : (s.usbRead off n).2.Extends b₀ := by
  induction n generalizing s off with
  | zero => exact h
  | succ n ih => exact ih h.barRead

theorem Block.Extends.usbWrite (h : s.Extends b₀) {l} : (s.usbWrite l).1.Extends b₀ := by
  induction l generalizing s with
  | nil => exact h
  | cons e l ih => exact ih h.barWrite

theorem Block.Extends.usbServe (h : s.Extends b₀) {r} : (s.usbServe r).2.2.Extends b₀ := by
  unfold Block.usbServe
  extract_lets -underBinder _
  split
  · exact h
  · split
    · exact h
    · split
      · exact h.usbRead
      · exact h.usbWrite
      · exact h.windowAsk
      · exact h.foldl fun _ _ ht => ht.barWrite2
      · exact h.imagePut

theorem Block.Extends.usb2 (h : s.Extends b₀) {r} : (s.usb2 r).Extends b₀ := by
  unfold Block.usb2
  extract_lets _ _ _ u
  have hu : u.Extends b₀ := .ite h.setFld.usbServe h.setFld.usbServe.setFld
  exact .ite h (.ite hu.emit hu.emit.bump)

end

/-! The commands -/

/-- Does what a command answers leave every unit and every blown fuse of an earlier block? -/
def LeavesExtended (b₀ : Block) (r : Res) : Prop := ∀ t, r = .next t → t.toBlock.Extends b₀

theorem LeavesExtended.next {b₀ t : Block} {q : List Instr} (h : t.Extends b₀) : LeavesExtended b₀ (.next ⟨t, q⟩) := by
  rintro t ⟨⟩
  exact h

theorem LeavesExtended.does {b₀ : Block} {s : State} {f : Block → Block} (h : (f s.toBlock).Extends b₀) : LeavesExtended b₀ (s.does f) :=
  .next h

section
variable {b₀ : Block} {s : State}

theorem execBcLostLong_extends (h : s.toBlock.Extends b₀) {p} : LeavesExtended b₀ (execBcLostLong p s) := by
  unfold execBcLostLong
  refine .does ?_
  split
  · exact .ite h.raise h
  · exact h

theorem execLaserModelUpdate_extends (h : s.toBlock.Extends b₀) : LeavesExtended b₀ (execLaserModelUpdate s) := by
  unfold execLaserModelUpdate
  refine .does ?_
  split
  · exact h
  · exact h
  · exact h
  · exact .modMembers (h.foldl fun _ _ ht => ht.modelUpdate)

theorem execEvtModTimeout_extends (h : s.toBlock.Extends b₀) : LeavesExtended b₀ (execEvtModTimeout s) := by
  unfold execEvtModTimeout
  refine .does ?_
  split
  · exact .ite h h.advance.raise63
  · exact h

theorem execNop_extends (h : s.toBlock.Extends b₀) {cseq} : LeavesExtended b₀ (execNop cseq s) := by
  unfold execNop
  refine .does ?_
  split
  · exact h.complete
  · exact h

theorem execBadOpcode_extends (h : s.toBlock.Extends b₀) {cseq} : LeavesExtended b₀ (execBadOpcode cseq s) := by
  unfold execBadOpcode
  refine .does ?_
  split
  · exact .ite h.complete h
  · exact h

theorem execSnapshot_extends (h : s.toBlock.Extends b₀) {cseq} : LeavesExtended b₀ (execSnapshot cseq s) := by
  unfold execSnapshot
  refine .does ?_
  split
  · exact .ite h.complete h.update.setStage
  · exact h

theorem execDramStepDownRequest_extends (h : s.toBlock.Extends b₀) : LeavesExtended b₀ (execDramStepDownRequest s) := by
  unfold execDramStepDownRequest
  refine .does ?_
  split
  · exact .ite h h.advance.stepDown
  · exact h

theorem execDramStepUpRequest_extends (h : s.toBlock.Extends b₀) : LeavesExtended b₀ (execDramStepUpRequest s) := by
  unfold execDramStepUpRequest
  refine .does ?_
  split
  · exact .ite h h.advance.stepUp
  · exact h

theorem execDramFreqChangeStart_extends (h : s.toBlock.Extends b₀) : LeavesExtended b₀ (execDramFreqChangeStart s) := by
  unfold execDramFreqChangeStart
  refine .does ?_
  split
  · exact h.changeStart
  · exact h

theorem execDramSweep_extends (h : s.toBlock.Extends b₀) {cseq pass xok} : LeavesExtended b₀ (execDramSweep cseq pass xok s) := by
  unfold execDramSweep
  refine .does ?_
  extract_lets t
  have ht : t.Extends b₀ := by
    unfold t
    split
    · exact h.sweepAccept
    · exact h
  split
  · exact .ite ht.sweepEnd ht
  · exact ht

theorem execSeedStore_extends (h : s.toBlock.Extends b₀) {cseq host} : LeavesExtended b₀ (execSeedStore cseq host s) := by
  unfold execSeedStore
  refine .does ?_
  split
  · exact h.seedStore
  · exact h

theorem execSeedLoad_extends (h : s.toBlock.Extends b₀) {cseq xok} : LeavesExtended b₀ (execSeedLoad cseq xok s) := by
  unfold execSeedLoad
  refine .does ?_
  split
  · exact h.seedLoad
  · exact h

theorem execTimeSourceLost_extends (h : s.toBlock.Extends b₀) : LeavesExtended b₀ (execTimeSourceLost s) := by
  unfold execTimeSourceLost
  refine .does ?_
  split
  · exact .ite h (.goSrc (.ite h.advance.update h.advance.update))
  · exact h

theorem execTimeSourceRequalified_extends (h : s.toBlock.Extends b₀) : LeavesExtended b₀ (execTimeSourceRequalified s) := by
  unfold execTimeSourceRequalified
  refine .does ?_
  split
  · split
    next t heq =>
      have ht : t.Extends b₀ := h.requalify _ heq
      exact ht
    · exact .getD h.requalify h
  · exact h

theorem execTallySnapLoRead_extends (h : s.toBlock.Extends b₀) {n} : LeavesExtended b₀ (execTallySnapLoRead n s) := by
  unfold execTallySnapLoRead
  refine .does ?_
  split
  · split
    · exact h.setReg
    · exact h
  · exact h

theorem execFabricLinkUp_extends (h : s.toBlock.Extends b₀) {p nonce} : LeavesExtended b₀ (execFabricLinkUp p nonce s) := by
  unfold execFabricLinkUp
  refine .does ?_
  split
  · exact .ite h.fLinkUp (.ite h.fLinkUp.bootAsk h)
  · exact .ite h.fLinkUp (.ite h.fLinkUp.bootAsk h)
  · exact .ite h.fLinkUp (.ite h.fLinkUp.bootAsk h)
  · exact h

theorem execAlignmentTimeout_extends (h : s.toBlock.Extends b₀) {p} : LeavesExtended b₀ (execAlignmentTimeout p s) := by
  unfold execAlignmentTimeout
  refine .does ?_
  split
  · exact h.advance.fGoto.modF
  · exact h.advance.fGoto.modF
  · exact h.advance.fGoto.modF
  · exact h

theorem execModuleInserted_extends (h : s.toBlock.Extends b₀) {p id temp} : LeavesExtended b₀ (execModuleInserted p id temp s) := by
  unfold execModuleInserted
  refine .does ?_
  split
  · extract_lets _ _ t
    have ht : t.Extends b₀ := .ite h.update.modF h.update
    exact .ite ht.fRefresh ht.moduleFollows
  · exact h

theorem execModulePoll_extends (h : s.toBlock.Extends b₀) {p flags temp alarm los} :
    LeavesExtended b₀ (execModulePoll p flags temp alarm los s) := by
  unfold execModulePoll
  refine .does ?_
  split
  · extract_lets _ t
    have ht : t.Extends b₀ := .ite h.modulePolled.moduleAlarm h.modulePolled.autoClose
    exact .ite ht.retrain ht
  · exact h

theorem execFabricSend_extends (h : s.toBlock.Extends b₀) {cseq host} : LeavesExtended b₀ (execFabricSend cseq host s) := by
  unfold execFabricSend
  refine .does ?_
  split
  · exact h
  · extract_lets _
    split
    · exact h.complete
    · split
      · exact h.complete
      · split
        · exact h.complete
        · split
          next t _ heq =>
            have ht : t.Extends b₀ := .of_fst heq h.readBuf
            exact ht.sendMsg
          next t1 heq =>
            have ht1 : t1.Extends b₀ := .of_fst heq h.readBuf
            exact ht1.complete

theorem execTimecode_extends (h : s.toBlock.Extends b₀) {cseq} : LeavesExtended b₀ (execTimecode cseq s) := by
  unfold execTimecode
  refine .does ?_
  split
  · exact h.timecode
  · exact h

theorem execNeighbourDown_extends (h : s.toBlock.Extends b₀) {p loss} : LeavesExtended b₀ (execNeighbourDown p loss s) := by
  unfold execNeighbourDown
  refine .does ?_
  split
  · exact h
  · split
    · exact h.retrain
    · split
      · exact h.advance.nbrDrop
      · exact h

theorem execLsaAgeOut_extends (h : s.toBlock.Extends b₀) {uid} : LeavesExtended b₀ (execLsaAgeOut uid s) := by
  unfold execLsaAgeOut
  refine .does ?_
  split
  · exact .ite h.advance.lsaDrop h
  · exact h

theorem execSpfHoldExpiry_extends (h : s.toBlock.Extends b₀) : LeavesExtended b₀ (execSpfHoldExpiry s) := by
  unfold execSpfHoldExpiry
  refine .does ?_
  split
  · exact h.advance.update
  · exact h

theorem execRouteSwap_extends (h : s.toBlock.Extends b₀) {ms} : LeavesExtended b₀ (execRouteSwap ms s) := by
  unfold execRouteSwap
  refine .does ?_
  split
  · exact h.advance.swap
  · exact h

theorem execAttest_extends (h : s.toBlock.Extends b₀) {cseq sig xok} : LeavesExtended b₀ (execAttest cseq sig xok s) := by
  unfold execAttest
  refine .does ?_
  extract_lets t
  have ht : t.Extends b₀ := by
    unfold t
    split
    · exact .ite h h.attestStart
    · exact h
  split
  · exact .ite ht.attestEnd.rsaServe ht
  · exact ht

theorem execOffsetWindowClose_extends (h : s.toBlock.Extends b₀) {j r code sat} :
    LeavesExtended b₀ (execOffsetWindowClose j r code sat s) := by
  unfold execOffsetWindowClose
  refine .does ?_
  split
  · split
    next t heq =>
      have ht : t.Extends b₀ := h.offsetAt _ heq
      exact ht.offsetClose
    · exact h
  · exact h

theorem execReportSend_extends (h : s.toBlock.Extends b₀) : LeavesExtended b₀ (execReportSend s) := by
  unfold execReportSend
  refine .does ?_
  split
  · split
    · exact h.advanceTo.sendGroup0
    · exact h
  · exact h

theorem execCmpOver_extends (h : s.toBlock.Extends b₀) {n} : LeavesExtended b₀ (execCmpOver n s) := by
  unfold execCmpOver
  refine .does ?_
  split
  · exact h
  · exact .ite h.bump.abandon h

theorem execNvmeReadDone_extends (h : s.toBlock.Extends b₀) {status data pix} : LeavesExtended b₀ (execNvmeReadDone status data pix s) := by
  unfold execNvmeReadDone
  refine .does ?_
  split
  · exact h
  · split
    · extract_lets _ t
      have ht : t.Extends b₀ := h.modNvme.foldl fun _ _ ht => ht.emitRead
      exact .ite ht.readsDone ht
    · exact .ite h.readsFailed h.modNvme.emitRead

theorem execHoldCtrlVerify_extends (h : s.toBlock.Extends b₀) {cseq reads} : LeavesExtended b₀ (execHoldCtrlVerify cseq reads s) := by
  unfold execHoldCtrlVerify
  refine .does ?_
  split
  · exact h.holdVerify
  · exact h

theorem execBringupFailed_extends (h : s.toBlock.Extends b₀) {hw} : LeavesExtended b₀ (execBringupFailed hw s) := by
  unfold execBringupFailed
  refine .does ?_
  split
  · exact h
  · exact .ite h.hwFail.bringupFail (.ite h.advance.hwFail.tryReady h.advance.hwFail.bringupFail)

theorem execCmdFetch_extends (h : s.toBlock.Extends b₀) {host} : LeavesExtended b₀ (execCmdFetch host s) := by
  unfold execCmdFetch
  refine .does ?_
  split
  · split
    next t _ _ heq =>
      have ht : t.Extends b₀ := .of_fst heq h.cmdEntry
      exact .ite ht.take.calAccept ht.take
    next t1 _ heq =>
      have ht1 : t1.Extends b₀ := .of_fst heq h.cmdEntry
      exact ht1.fetchFault
  · exact h

theorem execCalibrationResult_extends (h : s.toBlock.Extends b₀) {d} : LeavesExtended b₀ (execCalibrationResult d s) := by
  unfold execCalibrationResult
  refine .does ?_
  split
  · exact .ite h.calibrationResult h
  · exact h

theorem execPrecondLost_extends (h : s.toBlock.Extends b₀) : LeavesExtended b₀ (execPrecondLost s) := by
  unfold execPrecondLost
  refine .does ?_
  split
  · split
    · exact h
    · split
      · exact h.calStop
      · exact h
  · exact h

theorem execTrimTimeout_extends (h : s.toBlock.Extends b₀) : LeavesExtended b₀ (execTrimTimeout s) := by
  unfold execTrimTimeout
  refine .does ?_
  split
  · exact h.advance.calStop
  · exact h

theorem execSweepAborted_extends (h : s.toBlock.Extends b₀) : LeavesExtended b₀ (execSweepAborted s) := by
  unfold execSweepAborted
  refine .does ?_
  split
  · exact .ite h (.ite h.calStop h.sweepOver.post.complete)
  · exact h

theorem execBootSourceTimeout_extends (h : s.toBlock.Extends b₀) {timeout} : LeavesExtended b₀ (execBootSourceTimeout timeout s) := by
  unfold execBootSourceTimeout
  refine .does ?_
  split
  · exact h
  · split
    · extract_lets t _ t1
      have ht : t.Extends b₀ := .ite h.advance h
      have ht1 : t1.Extends b₀ := .ite ht ht.update
      exact .ite ht1.setReg.setFld ht1.setReg

theorem execBootComplete_extends (h : s.toBlock.Extends b₀) {f} : LeavesExtended b₀ (execBootComplete f s) := by
  unfold execBootComplete
  refine .does ?_
  split
  · exact h
  · split
    · exact h.bootDone
    · exact h

theorem execPfWarn_extends (h : s.toBlock.Extends b₀) : LeavesExtended b₀ (execPfWarn s) := by
  unfold execPfWarn
  refine .does ?_
  extract_lets _ _ _ _ _ _ t t1
  have ht : t.Extends b₀ := .ite h.update.seedAbandon h.update
  have ht1 : t1.Extends b₀ := .ite ht.calStored ht
  exact .ite h.update ht1.bump.post

theorem execPfLaserCut_extends (h : s.toBlock.Extends b₀) : LeavesExtended b₀ (execPfLaserCut s) := by
  unfold execPfLaserCut
  refine .does ?_
  split
  · extract_lets -underBinder _
    split
    · exact h.advance.update
    · exact h.advance.update
    · exact h.advance.laserCut
  · exact h

theorem execMgmtLost_extends (h : s.toBlock.Extends b₀) : LeavesExtended b₀ (execMgmtLost s) := by
  unfold execMgmtLost
  refine .does ?_
  split
  · exact .ite h h.mgmtGone
  · exact h

theorem execFwStage_extends (h : s.toBlock.Extends b₀) {cseq host} : LeavesExtended b₀ (execFwStage cseq host s) := by
  unfold execFwStage
  refine .does ?_
  split
  · exact h.fwStageStart
  · exact h

theorem execFwTrialPass_extends (h : s.toBlock.Extends b₀) : LeavesExtended b₀ (execFwTrialPass s) := by
  unfold execFwTrialPass
  refine .does ?_
  split
  · exact .ite h h.bump.modSlots.hkEnd.bootRegs.numRecord.post
  · exact h

theorem execFwTrialFail_extends (h : s.toBlock.Extends b₀) : LeavesExtended b₀ (execFwTrialFail s) := by
  unfold execFwTrialFail
  refine .does ?_
  split
  · exact .ite h h.advance.update.modSlots.bootRegs
  · exact h

theorem execSeedWriteDone_extends (h : s.toBlock.Extends b₀) : LeavesExtended b₀ (execSeedWriteDone s) := by
  unfold execSeedWriteDone
  refine .does ?_
  split
  next t heq =>
    have ht : t.Extends b₀ := .of_fst heq h.seedCommit
    exact ht
  next t1 _ heq =>
    have ht1 : t1.Extends b₀ := .of_fst heq h.seedCommit
    extract_lets t2
    have ht2 : t2.Extends b₀ := .ite ht1.autoClose ht1
    split
    · split
      · exact ht2.complete
      · exact ht2
    · exact ht2.calStored
    · exact ht2.fwStaged
    · exact ht2.ownerWritten
    · exact ht2.rollbackWritten
    · exact ht2

theorem execFirebreakLaser_extends (h : s.toBlock.Extends b₀) {g} : LeavesExtended b₀ (execFirebreakLaser g s) := by
  unfold execFirebreakLaser
  refine .does ?_
  split
  · exact h
  · exact h
  · exact h
  · exact h
  · exact h
  · exact .ite h.advance.firebreakLaser h

theorem execDtuInvDone_extends (h : s.toBlock.Extends b₀) : LeavesExtended b₀ (execDtuInvDone s) := by
  unfold execDtuInvDone
  refine .does ?_
  split
  · exact h
  · exact h.update.setReg.post

theorem execFaultClear_extends (h : s.toBlock.Extends b₀) {cseq} : LeavesExtended b₀ (execFaultClear cseq s) := by
  unfold execFaultClear
  refine .does ?_
  split
  · exact h
  · extract_lets _
    split
    · exact h.complete
    · split
      · exact h.complete
      · split
        · exact h.faultClear
        · split
          · exact h.complete
          · exact .ite h.faultClear (.ite h.complete h.faultClear)

theorem execSkdDescDone_extends (h : s.toBlock.Extends b₀) {m host others} : LeavesExtended b₀ (execSkdDescDone m host others s) := by
  unfold execSkdDescDone
  refine .does ?_
  split
  · exact h
  · split
    · exact h
    · split
      next t heq =>
        have ht : t.Extends b₀ := .of_fst heq h.moveTo
        exact ht
      next t1 heq =>
        have ht1 : t1.Extends b₀ := .of_fst heq h.moveTo
        exact ht1.skdFinish

theorem execSkdPreempt_extends (h : s.toBlock.Extends b₀) {m upto host hostDesc} :
    LeavesExtended b₀ (execSkdPreempt m upto host hostDesc s) := by
  unfold execSkdPreempt
  refine .does ?_
  split
  · split
    · exact h
    · extract_lets _
      split
      · exact h
      · split
        next t heq =>
          have ht : t.Extends b₀ := .of_fst heq h.moveTo
          exact ht
        next t1 heq =>
          have ht1 : t1.Extends b₀ := .of_fst heq h.moveTo
          exact ht1.skdRelease.modSkd.post.skdStart
  · exact h

theorem execWindowDataAccess_extends (h : s.toBlock.Extends b₀) {a w} : LeavesExtended b₀ (execWindowDataAccess a w s) := by
  unfold execWindowDataAccess
  refine .does ?_
  refine .onStrobe h fun _ ht => ?_
  split
  · exact ht.put
  · exact ht.winStep
  · exact ht

/-- Every command keeps every unit and every blown fuse. -/
theorem exec_extends (h : s.toBlock.Extends b₀) : ∀ c : Instr, LeavesExtended b₀ (exec c s)
  | .frameBoundary => .next h.frameBoundary
  | .commitCutoff => .next h.cutoff
  | .preloadStart => .next (.ite h.preload h)
  | .darkIntervalStart => .next h.darkStart
  | .slotStart _ _ => .next (.ite h.slotStart h)
  | .kerfEnd _ _ _ => .next (.ite h.kerfEnd h)
  | .lastDwellEnd _ _ => .next (.ite h.lastDwellEnd h)
  | .planeLoadStart _ => .next (.ite h.loadStart h)
  | .planeLoadEnd _ => .next (.ite h.loadEnd h)
  | .fifoUnderrun _ => .next (.ite h.abortPort h)
  | .measureWindowClose _ _ _ _ _ _ => .next (.ite h.measureClose h)
  | .offsetWindowClose _ _ _ _ => execOffsetWindowClose_extends h
  | .loopSample _ _ _ => .next h.loopSample
  | .stateScrub _ => .next h.stateScrub
  | .wheelFault _ _ => .next (.ite h.wheelFault h)
  | .thermCeilingLost _ => .next h.ceilingLost
  | .overCurrentTrip _ => .next h.ocTrip
  | .faultInput _ => .next (.ite h.latchMember h)
  | .spareTakeover _ => .next (.ite h.takeover h)
  | .coldSpareHot _ => .next (.ite h.spareHot h)
  | .probeDue _ => .next (.ite h.modMember h)
  | .probeRun _ _ => .next (.ite h.probeRun h)
  | .probeStarved _ => .next (.ite h.modMember.faultEv h)
  | .chainTableLoad _ => .next (.ite h.tableLoad h)
  | .chainShiftDone _ _ => .next (.ite h.shiftDone h)
  | .chainEnum _ _ _ => .next (.tryReady (.setReg (.ite h.enumerate h)))
  | .chainEnumRetry _ _ _ => .next (.ite (.ite h.modChn.enumerate.tryReady h.modChn.enumSends) h)
  | .pageCommitReq _ _ => .next (h.onStrobe fun _ ht => .ite (.commitIn (.ite ht.withdraw ht)) ht)
  | .pageCommitAbort _ => .next (h.onStrobe fun _ ht => .ite ht.withdraw ht)
  | .devCommitReq _ => .next (h.onStrobe fun _ ht => .commitIn (.ite ht.withdraw ht))
  | .devCommitAbort => .next (h.onStrobe fun _ ht => ht.withdraw)
  | .registerWrite _ _ => .next (h.onStrobe fun _ ht => .ite ht.barWrite ht)
  | .unsupportedAccess _ _ _ => .next (.ite h.oddAccess (.ite h.emit h))
  | .windowWrite _ _ => .next (h.onStrobe fun _ ht => ht.barWrite2)
  | .windowDataAccess _ _ => execWindowDataAccess_extends h
  | .timeFtLoRead => .next (.ite h.setRegs h)
  | .timeCutoffLoRead => .next (.ite h.setReg h)
  | .tallySnapLoRead _ => execTallySnapLoRead_extends h
  | .pageEnableWrite _ _ => .next (.ite h (h.onWrite fun _ ht => ht.enableWrite))
  | .softReset _ => .next (.ite h (h.onWrite fun _ ht => ht.softReset))
  | .softResetDone _ => .next (.ite h h.softResetEnd)
  | .pageFreeze _ _ => .next (.ite h (h.onWrite fun _ ht => ht.freezeWrite))
  | .pageLockWrite _ _ => .next (.ite h (h.onStrobe fun _ ht => ht.lockWrite))
  | .intStatusClear _ _ => .next (.ite h (h.onStrobe fun _ ht => ht.intClear))
  | .intForce _ _ => .next (.ite h (h.onStrobe fun _ ht => ht.setInt))
  | .evtModTimeout => execEvtModTimeout_extends h
  | .ringEvtHeadWrite _ => .next (h.onWrite fun _ ht => ht.evtHead)
  | .ringCmdTailWrite _ => .next (h.onWrite fun _ ht => ht.cmdTail)
  | .cmdEnSet => .next (h.onWrite fun _ ht => ht.ringCtrl)
  | .cmdEnClear => .next (h.onWrite fun _ ht => ht.ringCtrl)
  | .evtEnSet => .next (h.onWrite fun _ ht => ht.ringCtrl)
  | .evtEnClear => .next (h.onWrite fun _ ht => ht.ringCtrl)
  | .ringCmdResync _ => .next (h.onStrobe fun _ ht => ht.ringResync)
  | .cmdFetch _ => execCmdFetch_extends h
  | .cmdFetchFault _ => .next (.ite h.fetchFault h)
  | .eventWrite => .next (.ite h.eventWrite h)
  | .eventWriteFault => .next (.ite h.eventWriteFault h)
  | .nop _ => execNop_extends h
  | .badOpcode _ => execBadOpcode_extends h
  | .snapshot _ => execSnapshot_extends h
  | .snapshotCapture _ => .next (h.update.foldl fun _ _ ht => ht.snapWrite)
  | .stateSetReady _ => .next (h.stateSet fun _ _ ht => ht.setReady)
  | .bringupFailed _ => execBringupFailed_extends h
  | .stateSetStandby _ => .next (h.stateSet fun _ _ ht => ht.setStandby)
  | .stateSetLit _ => .next (h.stateSet fun _ _ ht => ht.setLit)
  | .stateSetExtinguish _ => .next (h.stateSet fun _ _ ht => ht.setExtinguish)
  | .fwStage _ _ => execFwStage_extends h
  | .fwActivateHk _ => .next (h.fwActivate fun _ _ ht => .ite ht.complete ht.complete.measure.modSlots.bootRegs.hkRestart)
  | .fwActivateSv _ =>
    .next (h.fwActivate fun _ _ ht => .ite ht.complete (.ite ht.complete (.ite ht.complete ht.complete.measure.update.modSlots.bootRegs)))
  | .fwActivateRollback _ => .next (h.fwActivate fun _ _ ht => .ite ht.complete (.ite ht.complete ht.numRecord.setStage))
  | .fwTrialPass => execFwTrialPass_extends h
  | .fwTrialFail => execFwTrialFail_extends h
  | .svSelftestDone _ =>
    .next (.ite (.ite h.update.modSlots.bootRegs.numRecord.post.svUp h.update.modSlots.bootRegs.selfTestFail.post.svUp)
      (.ite (.ite h.svUp h.update.selfTestFail) h))
  | .hkRestartRequest _ => .next (h.onStrobe fun _ ht => ht.hkStrobe)
  | .hkWatchdogExpiry => .next (.ite h.hkRestart h)
  | .hkRestartEnd => .next (.ite h h.hkEnd)
  | .mgmtLost => execMgmtLost_extends h
  | .calibratePd _ => .next h.calibrate
  | .calibratePi _ => .next h.calibrate
  | .calibrateScan _ => .next h.calibrate
  | .calibrateDram _ => .next h.calibrate
  | .calibrationResult _ => execCalibrationResult_extends h
  | .precondLost => execPrecondLost_extends h
  | .trimAbort _ => .next (h.onStrobe fun _ ht => ht.trimCtrl)
  | .trimTimeout => execTrimTimeout_extends h
  | .seedStore _ _ => execSeedStore_extends h
  | .seedLoad _ _ => execSeedLoad_extends h
  | .attest _ _ _ => execAttest_extends h
  | .ownerKeyInstall _ _ => .next (h.ownerKey fun _ _ _ ht => ht.ownerInstall)
  | .ownerKeyRevoke _ _ => .next (h.ownerKey fun _ _ _ ht => ht.ownerRevoke)
  | .ownerKeyPolicyOn _ _ => .next (h.ownerKey fun _ _ _ ht => ht.ownerPolicyOn)
  | .ownerKeyRestore _ _ => .next (h.ownerKey fun _ _ _ ht => ht.ownerRestore)
  | .timecode _ => execTimecode_extends h
  | .tcFreewheelExpiry => .next (.ite h.advance.update h)
  | .fabricSend _ _ => execFabricSend_extends h
  | .holdCtrlVerify _ _ => execHoldCtrlVerify_extends h
  | .dramSweep _ _ _ => execDramSweep_extends h
  | .sweepAborted => execSweepAborted_extends h
  | .faultClear _ => execFaultClear_extends h
  | .timeFtSetHiWrite _ => .next (.ite h.update h)
  | .timeFtSetLoWrite _ => .next (.ite h.ftSet h)
  | .timeCtrlWrite _ => .next (h.rwWrite fun _ _ ht => ht.timeCtrl)
  | .timeSourceLost => execTimeSourceLost_extends h
  | .timeSourceRequalified => execTimeSourceRequalified_extends h
  | .fsyncInEdge _ => .next (.ite h.advance.fsyncEdge h.advance)
  | .vddAonValid => .next (.ite h h.resetKeep.setRegs.update.cause.place)
  | .vddAonLoss => .next (.ite h h.resetKeep.setRegs.update.place)
  | .porstNAssert => .next (.ite h.update h.update.resetKeep.cause.place)
  | .porstNRelease _ => .next (.ite h.update.startBoot h.update)
  | .bootSourceTimeout _ => execBootSourceTimeout_extends h
  | .bootComplete _ => execBootComplete_extends h
  | .railOutOfTolerance _ => .next (.ite h h.resetHold.setFld.setFld)
  | .railsRestored _ => .next (.ite h.setReg.resetRelease h)
  | .pfWarn => execPfWarn_extends h
  | .pfLaserCut => execPfLaserCut_extends h
  | .pfDeassert => .next (.ite h.update h.update.post.blowHeld.update)
  | .pfRecovered => .next (.ite h.advance.update h)
  | .warmReset _ => .next (h.onStrobe fun _ ht => ht.resetCtrl)
  | .fabricResetReq _ _ _ => .next (.ite h (.ite h.bumpSat.post (.ite h.bumpSat.post (.ite h.bumpSat.post h.warmReset))))
  | .usb4LinkChange _ => .next h.linkChange
  | .unsupportedOffer _ _ => .next (.ite h (.ite h.dscRefuse (.unsupported (.ite h.setFld h))))
  | .functionLevelReset => .next h.flr
  | .dpFrameStart _ => .next h.dpStart
  | .dpFrameSealed _ _ _ _ => .next h.dpSeal
  | .dpFrameAbandoned _ => .next h.dpAbandon
  | .dpTimingChange _ _ => .next h.dpTiming
  | .dscPpsRefused _ => .next h.dscRefuse
  | .panelReplayEntry _ => .next (.ite h h.update.setFld)
  | .panelReplayUpdate _ => .next (.ite h h.update.setFld)
  | .usb2Request _ => .next h.usb2
  | .usb2SummaryDelivery => .next (.ite h h.update.emit)
  | .skdChTailWrite _ _ => .next (.ite (h.onWrite fun _ ht => ht.skdTailWrite) h)
  | .skdDescriptorStart _ _ => .next h.skdStart
  | .skdPreempt _ _ _ _ => execSkdPreempt_extends h
  | .skdFault _ _ _ _ _ => .next h.bump.hostFault
  | .skdHostTimeout _ _ _ _ => .next h.bump.hostFault
  | .skdDescDone _ _ _ => execSkdDescDone_extends h
  | .skdOpResume _ => .next (h.onStrobe fun _ ht => ht.skdResume)
  | .skdOpSkip _ => .next (h.onStrobe fun _ ht => ht.skdSkip)
  | .skdOpAbort _ _ => .next (h.onStrobe fun _ ht => ht.skdOpAbort)
  | .skdOpResync _ => .next (h.onStrobe fun _ ht => ht.skdResync)
  | .skdChEnable _ _ _ => .next (.ite (h.rwWrite fun _ _ ht => ht.skdCtrlWrite) h)
  | .skdCtxCapture _ => .next (h.onWrite fun _ ht => ht.skdCapture)
  | .dtuWalk _ _ _ => .next h.translate
  | .dtuInvGo _ => .next (h.onStrobe fun _ ht => ht.invGo)
  | .dtuInvDone => execDtuInvDone_extends h
  | .dtuProbe _ => .next (h.onWrite fun _ ht => ht.probeWrite)
  | .surfDefine _ => .next (h.onStrobe fun _ ht => ht.surfDefine)
  | .surfOpen _ => .next (h.onStrobe fun _ ht => ht.surfOpen)
  | .surfClose _ => .next (h.onStrobe fun _ ht => ht.surfClose)
  | .storeSurfSelCapture _ => .next (h.onWrite fun _ ht => ht.surfSelWrite)
  | .cmpOver _ => execCmpOver_extends h
  | .contentUnit _ _ => .next h.content
  | .pictureLate _ => .next (.ite h.pictureLate h)
  | .nvmeEnSet _ _ => .next (h.onWrite fun _ ht => .ite ht ht.nvmeEnable)
  | .nvmeReadDone _ _ _ => execNvmeReadDone_extends h
  | .hfcPush _ => .next (h.onStrobe fun _ ht => ht.hfcPush)
  | .warpPlanGo _ => .next (h.onStrobe fun _ ht => ht.planGo)
  | .warpPlanDone => .next h.planDone
  | .tableSyncDone => .next h.syncDone
  | .planesSealed => .next h.planesSealed
  | .seqCheckGo _ => .next (h.onStrobe fun _ ht => .ite ht.seqCheck ht)
  | .lsgPiCheckGo => .next (h.onWrite fun _ ht => ht.piCheck)
  | .ident _ _ => .next (.ite h.ident h)
  | .linkStatus _ _ _ _ _ => .next (.ite h.linkStatus h)
  | .planeAck _ _ _ _ _ _ _ => .next (.ite h.planeAck h)
  | .arrayTemp _ _ => .next (.ite h.setReg.modPort h)
  | .arrayStatus _ _ _ _ => .next (.ite h.arrayStatus h)
  | .echoReply _ _ => .next h
  | .backchannelBadMessage _ => .next (.ite h.bump h)
  | .ackMissing _ _ => .next (.ite h.ackMissing h)
  | .bcLost _ => .next (.ite h.modPort.maFault h)
  | .bcLostLong _ => execBcLostLong_extends h
  | .maRdyNLow _ => .next (.ite h.rdyLow h)
  | .arrayReset _ => .next (.ite h.arrayReset h)
  | .maRetrain _ => .next (.ite h.maRetrain h)
  | .maIdentReq _ => .next (.ite h.maIdentReq h)
  | .trainingAttemptTimeout _ => .next (.ite h.trainTimeout h)
  | .darkTrainingTimeout _ => .next (.ite h.modPort.linkFail h)
  | .fastAxisEnable => .next h.fastAxisStart
  | .resonanceFound _ => .next (.ite h.toLocal.resonance h)
  | .handoverTimeout => .next (.ite h.lockFail (.ite h.lockFail h))
  | .fastAxisLocked => .next h.locked
  | .lockFail => .next (.ite h.lockFail h)
  | .lockLoss _ => .next (.ite h.lockLoss h)
  | .relockTimeout => .next (.ite h.raise.modSc.sweep h)
  | .zeroCrossing _ _ => .next h.crossing
  | .dacSample => .next h.dacSample
  | .zoneBucketBoundary => .next h.bucketBoundary
  | .beamCut _ => .next h.cutMet
  | .highlineTargetChange => .next h.retarget
  | .highlineArrival => .next h.arrive
  | .rowDrawn => .next h.rowDrawn
  | .drawingWindowEnd => .next (.ite h h.advanceTo.windowEnd.retarget)
  | .rowToleranceExit => .next (.ite (.ite h.beamOff.bump.postTally.nextRow h.beamOff.modSc.replan) h)
  | .tsConversion _ => .next h.tsConversion
  | .ntcConversion _ _ => .next h.ntcConversion
  | .laserModelUpdate => execLaserModelUpdate_extends h
  | .firebreakDie => .next (.ite h.advance.firebreakDie h)
  | .firebreakLaser _ => execFirebreakLaser_extends h
  | .dramStepDownRequest => execDramStepDownRequest_extends h
  | .dramStepUpRequest => execDramStepUpRequest_extends h
  | .dramFreqChangeStart => execDramFreqChangeStart_extends h
  | .pairFreqChange _ => .next (.ite h.pairChange h)
  | .dramFreqWait _ => .next (.ite h.freqWait h)
  | .slackSample _ _ _ => .next (.ite h.slackSample h)
  | .refreshDue _ _ => .next (.ite h.refreshDue h)
  | .refreshRatePoll _ _ _ => .next (.ite h.ratePoll h)
  | .driftTrim _ _ => .next (.ite h.trimLane.trimLane h)
  | .dramScrubRead _ => .next h.scrubStep
  | .dramUe _ _ _ => .next (.ite h.uncorrectable.ueClient h)
  | .dramCe _ _ => .next (.ite h.corrected h)
  | .selfRefreshEntry _ => .next (.ite h (.ite (.ite h.toLocal.pairGoto h) (.ite h.selfRefresh h)))
  | .selfRefreshExit _ _ => .next (.ite h (.ite h.modPair.pairGoto.postTally (.ite (.leaveRefresh (.ite h.postTally h)) h)))
  | .pairOutOfService _ => .next (.ite h.pairService h)
  | .seedRecordWrite _ => .next h.seedStart.seedStep
  | .seedWriteDone => execSeedWriteDone_extends h
  | .seedChkOnly _ _ => .next (.ite h.seedCheck h)
  | .reservedSlotWrite _ => .next h.copyStart.copyStep
  | .seedScrubRead _ =>
    .next (.ite h (.ite h.toLocal.scrubWord.setSe.seedUncorr (.ite h.toLocal.scrubWord.bump.raise.postTally h.toLocal.scrubWord)))
  | .seedSelCapture _ => .next (h.onWrite fun _ ht => ht.seedSel)
  | .jtagNewChallenge _ => .next (h.onStrobe fun _ ht => ht.newChallenge)
  | .jtagResponse _ _ _ => .next (.ite h.jtagResponse h)
  | .jtagChallengeExpiry => .next (.ite h.advance.update h)
  | .fabricFrameReceived _ _ _ _ => .next (.ite (.frameIn (.ite (.ite h h.bump.postTally) (.bump (.ite h h.bump.postTally)))) h)
  | .linkCtrl _ _ => .next (.ite h.linkCtrlIn h)
  | .linkCtrlSend _ => .next (.ite h.advance.linkCtrl h)
  | .retryTimeout _ => .next (.ite h.advance.retry h)
  | .fabricLinkUp _ _ => execFabricLinkUp_extends h
  | .creditAudit _ _ => .next (.ite h.linkCtrlIn h)
  | .alignmentTimeout _ => execAlignmentTimeout_extends h
  | .moduleInserted _ _ _ => execModuleInserted_extends h
  | .modulePoll _ _ _ _ _ => execModulePoll_extends h
  | .hello _ _ => .next (.ite (.ite h.nbrDrop.postF.fGoto.modF h.helloIn) h)
  | .helloSend _ => .next (.ite h.advance.modF.sendLocal h)
  | .neighbourDown _ _ => execNeighbourDown_extends h
  | .lsa _ _ => .next (.ite h.lsaIn h)
  | .lsaOriginate => .next (.ite (.originate (.ite h h.advance)) h)
  | .lsaAgeOut _ => execLsaAgeOut_extends h
  | .rootAndAddresses => .next (.ite h.rootPass h)
  | .assign _ _ => .next (.ite h.assignIn h)
  | .spfHoldExpiry => execSpfHoldExpiry_extends h
  | .routeSwap _ => execRouteSwap_extends h
  | .altFailover _ => .next (.ite h.modF h)
  | .sync _ _ _ => .next (.ite h.syncHeard h)
  | .syncSend => .next (.ite h.advance.syncSend h)
  | .pdelayExchange _ _ _ _ _ _ _ => .next (.ite h.pdelay h)
  | .admitStream _ _ _ _ _ => .next (.ite h.admitIn h)
  | .admitRetry _ _ => .next (.ite h.advance.fGoto.admitStart h)
  | .bootReq _ _ => .next (.ite h.bootReq h)
  | .hostFrameRx _ => .next (.ite h.hostRx h)
  | .colourReport _ => .next (.ite h.reportIn h)
  | .colourDigest _ => .next (.ite h.digestIn h)
  | .epochEnd => .next (.ite h.epochEnd h)
  | .reportSend => execReportSend_extends h
  | .collectionClose => .next (.ite h.collect h)
  | .digestClose => .next (.ite h.decide_ h)
  | .cueContextWrite _ _ _ => .next (.ite (h.onStrobe fun _ ht => ht.ctxWrite) h)
  | .cueOpArm _ => .next (h.onStrobe fun _ ht => ht.cueState)
  | .cueOpCancel _ => .next (h.onStrobe fun _ ht => ht.cueState)
  | .cueOpCancelAll _ => .next (h.onStrobe fun _ ht => ht.cancelAll)
  | .cueActionFetch _ => .next (.ite h.cueFetch h)
  | .cueFiring _ => .next h.cueFiring
  | .fineCueTick _ => .next (.ite h.fineCue h)
  | .cueFrame _ _ => .next (.ite h.cueFrame h)
  | .ringRecord _ _ _ => .next h.ringRecord
  | .ringPlayerDecode _ => .next h.playDecode
  | .libraryRead => .next h.libraryRead
  | .forceRejoin => .next (h.onStrobe fun _ ht => ht.forceRejoin)
  | .clearRing => .next (h.onStrobe fun _ ht => ht.clearRing)
  | .chkStart _ _ => .next (.ite h.chkCfg h)
  | .chkFeed _ _ => .next (.ite (h.onStrobe fun _ ht => ht.chkFeed) h)
  | .chkMem _ _ => .next (.ite h.chkCfg h)
  | .chkMemDone _ => .next (.ite h.chkMemDone h)
  | .chkFinish _ _ => .next (.ite h.chkCfg h)
  | .chkParameterWrite _ _ _ => .next (.ite (.ite h.chkPhi h.chkPsel) h)
  | .tallyClear _ => .next (h.onStrobe fun _ ht => ht.tallyCtrl)
  | .tallyWrap _ => .next h.tallyWrap
  | .gpioTallyIn _ => .next (h.update.foldl fun _ _ ht => .ite ht.postTally ht)
  | .safetyInput _ _ => .next (.ite h (.ite h.setInput.update (.ite h.setInput.permit h.setInput.forbid)))
  | .svDeadman => .next (.ite h h.update.lightOut.postI.raise)
  | .svLockstep => .next (.ite h h.update.lightOut.postI.raise)
  | .refclkFailure => .next (.update (.ite h.resetHold h))
  | .refclkRecovered _ => .next h.update.resetRelease
  | .xtal25Fault => .next (.update (.ite h.resetHold h))
  | .bcRegained _ => .next (.ite h.modPort.maEvt.autoClose h)
  | .moduleRemoved _ => .next (.ite h.update.modF.fRefresh h)
  | .xtal25Recovered _ => .next h.update.resetRelease
  | .pciePowerStateChange _ _ => .next h.configure.setFld

end
/-- So does every step: an idle one only lets time pass. -/
theorem step_extends {s t : State} (hstep : step s = .next t) : t.toBlock.Extends s.toBlock := by
  obtain ⟨b, pending⟩ := s
  have h : b.Extends b := ⟨id, fun _ => id⟩
  cases pending with
  | nil =>
    rw [step_nil] at hstep
    obtain rfl := Host.Outcome.next.inj hstep
    exact Block.Extends.advance (ns := 1) h
  | cons c rest => exact exec_extends (s := ⟨b, rest⟩) h c t hstep

/-- Settles O58: no operation adds a unit or takes one away. -/
theorem stepKeepsUnitCounts : Obligations.StepKeepsUnitCounts := fun _ _ hstep => (step_extends hstep).sized

/-- Settles O59: fuses change by `Block.blow` alone, and every reset keeps them. -/
theorem blownFusesStayBlown : Obligations.BlownFusesStayBlown := fun _ _ i hstep => (step_extends hstep).fuse i

end Sys2Proof.Machine

namespace Sys2Proof.Machine

/-! The thermal classes and the Firebreak latch (R450 to R467). -/

section
variable {s : Block}

/-- A heat-sink input that was valid, at a code within its range, keeps the reading and reports nothing (R452). -/
theorem Block.ntcConversion_valid {j c : Nat} {k : NtcIn} (hin : s.th.ntc[j]? = some k) (hsensing : s.sensing = true)
    (hvalid : k.valid = true) (hlow : 16 ≤ c) (hhigh : c ≤ 4080) :
    s.ntcConversion j c =
      { s with th := { s.th with
          ntc := setAt s.th.ntc j { code := c, temp := s.ntcTemp c, valid := true,
                                    hist := (s.now, s.ntcTemp c) :: k.hist.filter fun e => s.now < e.1 + 10000000000 } } } := by
  simp only [Block.ntcConversion, hin, hsensing, hvalid, hlow, hhigh, decide_true, Bool.and_self, Bool.not_true, Bool.false_and, Bool.and_false,
    Bool.false_eq_true, if_false]

/-- A pending laser-model shutdown that has lasted 50 updates acts on its group (R460, R465). -/
theorem execFirebreakLaser_due {g : Nat} {k : ModelGroup} (q : List Instr) (hgroup : s.th.mg[g]? = some k) (hready : s.pw.state = .ready)
    (hpending : k.lvl.pending = true) (hrun : 50 ≤ k.lvl.sdRun) :
    execFirebreakLaser g ⟨s, q⟩ = .next ⟨(s.advance (k.lvl.sdAt + 50000000 - s.now)).firebreakLaser g k, q⟩ := by
  simp only [execFirebreakLaser, State.does_next, hgroup, hready, if_pos (And.intro hpending hrun)]
end

/-- Settles O23: a clause's hypotheses are the tests its command makes. -/
theorem thermalCommandsRun : Obligations.ThermalCommandsRun := by
  refine ⟨?sensors, ?heatSink, ?model, ?die, ?laser⟩
  case sensors => exact fun s q t => rfl
  case heatSink =>
    intro s q j c k hin hsensing hvalid hlow hhigh
    exact does_of_eq (f := fun s => s.ntcConversion j c) q (Block.ntcConversion_valid hin hsensing hvalid hlow hhigh)
  case model =>
    intro s q hready
    change execLaserModelUpdate ⟨s, q⟩ = _
    rw [execLaserModelUpdate, State.does_next, hready]
  case die =>
    intro s q hpending hrun hready hcore
    have hpowered : s.pw.state ≠ .off ∧ s.pw.state ≠ .aon ∧ s.pw.coreGated = false := by simp [hready, hcore]
    exact does_of_eq q (if_pos ⟨hpending, hrun, hpowered⟩)
  case laser => exact fun s q g k hgroup hready hpending hrun => execFirebreakLaser_due q hgroup hready hpending hrun

end Sys2Proof.Machine

namespace Sys2Proof.Machine

/-! The errors, the scrub, the refresh and the self-refresh of DRAM (R473 to R494). -/

section
variable {s : Block} {i : Nat}

/-- The scrub reads a good block of the pair it stands in, and goes on in the same pair (R474). -/
theorem Block.scrubStep_good {t : Block} (hon : s.abit R.DMC_SCRUB_CFG 0 = true) (hserved : (s.pair s.dc.scrubPair).st = 2)
    (hidle : (s.pair s.dc.scrubPair).reqs = []) (ht : t = (s.toLocal (s.dc.scrubAt + s.scrubGap)).scrubStamp)
    (hgood : t.dc.poison.contains ((s.dc.scrubPair * 0x100000000 + 64 * s.dc.scrubBlk) / 64) = false)
    (hmore : s.dc.scrubBlk + 1 < pairBlocks) : s.scrubStep 0 = t.scrubTo s.dc.scrubPair (s.dc.scrubBlk + 1) := by
  have hin : s.scrubbed s.dc.scrubPair = true := by rw [Block.scrubbed, hserved]; rfl
  have hread : t.scrubRead (s.dc.scrubPair * 0x100000000 + 64 * s.dc.scrubBlk) 0 = t := by
    rw [Block.scrubRead, hgood, if_neg (by decide), if_neg (by decide)]
  simp only [Block.scrubStep, hon, hin, hidle, if_true, Bool.not_true, List.isEmpty_nil, Bool.or_self, Bool.false_eq_true, if_false]
  rw [← ht, hread, if_pos hmore]

/-- A pair in self-refresh leaves it for service (R494). -/
theorem Block.leaveRefresh_asleep (hst : (s.pair i).st = 4) :
    s.leaveRefresh i = ((s.pairGoto i 5).modPair i fun x => { x with held := false }).pairGoto i 2 := if_pos hst
end

/-- Settles O24: a clause's hypotheses are the tests its command makes. -/
theorem dramErrorAndRefreshCommandsRun : Obligations.DramErrorAndRefreshCommandsRun := by
  refine ⟨?uncorrectable, ?corrected, ?scrub, ?slack, ?refresh, ?rate, ?trim, ?entry, ?asleep, ?abandon, ?wake⟩
  case uncorrectable => exact fun s q addr client errs haddr hclient hverdict => does_of_eq q (if_pos ⟨haddr, hclient, .inl hverdict⟩)
  case corrected => exact fun s q addr errs haddr hverdict hclean => does_of_eq q (if_pos ⟨haddr, hverdict, hclean⟩)
  case scrub =>
    intro s t q hon hserved hidle ht hgood hmore
    exact does_of_eq (f := fun s => s.scrubStep 0) q (Block.scrubStep_good hon hserved hidle ht hgood hmore)
  case slack => exact fun s q i v arr hi => does_of_eq q (if_pos hi)
  case refresh => exact fun s q ch idle hch hserved => does_of_eq q (if_pos ⟨hch, hserved⟩)
  case rate => exact fun s q ch v above hch hup => does_of_eq q (if_pos ⟨hch, hup⟩)
  case trim => exact fun s q ch n hch hserved => does_of_eq q (if_pos ⟨hch, hserved⟩)
  case entry =>
    intro s q i hi hon hserved hidle
    have hmay : ¬ (12 ≤ i ∨ (!s.abit (R.DMCP_CFG i) 2) = true) := by simp [hi, hon]
    refine does_of_eq q ((if_neg hmay).trans ((if_pos hserved).trans (if_pos ?_)))
    rw [hidle]; rfl
  case asleep =>
    intro s q i hi hon hentering
    have hmay : ¬ (12 ≤ i ∨ (!s.abit (R.DMCP_CFG i) 2) = true) := by simp [hi, hon]
    have hserves : (s.pair i).st ≠ 2 := by omega
    exact does_of_eq q ((if_neg hmay).trans ((if_neg hserves).trans (if_pos hentering)))
  case abandon => exact fun s q i held hi hentering => does_of_eq q ((if_neg (Nat.not_le.mpr hi)).trans (if_pos hentering))
  case wake =>
    intro s q i hi hasleep
    have henters : (s.pair i).st ≠ 3 := by omega
    refine does_of_eq q ((if_neg (Nat.not_le.mpr hi)).trans ((if_neg henters).trans ((if_pos hasleep).trans ?_)))
    exact Block.leaveRefresh_asleep hasleep

end Sys2Proof.Machine

namespace Sys2Proof.Machine

/-! The set points, the service and the sweep of DRAM (R463, R484 to R491). -/

section
variable {s : Block} {i : Nat}

/-- A pair that may change does so with its owed refreshes settled, and leaves the set of those that wait (R484). -/
theorem Block.pairChange_may {c : FreqChange} (hchange : s.dc.change = some c) (hleft : natBit c.left i = true) (hmay : s.mayChange i = true) :
    s.pairChange i = (let t := s.modPair i fun x => { x with owed := x.owed.map fun o => min o 0 }
      let t := if (s.pair i).st = 2 then ((t.pairGoto i 6).loadDelays i c.target).pairGoto i 2 else t.loadDelays i c.target
      let t := t.autoClose 0x1E 0x152 fun d => bits d 0 8 == i
      ({ t with dc := { t.dc with change := some { c with left := c.left - 2 ^ i } } } : Block).changeDone) := by
  simp only [Block.pairChange, hchange, hleft, hmay, Bool.not_true, Bool.or_self, Bool.false_eq_true, if_false]

/-- A pair that still waits 10 ms after the change began is reported (R486). -/
theorem Block.freqWait_first {c : FreqChange} (hchange : s.dc.change = some c) (hleft : natBit c.left i = true)
    (hlate : natBit c.late i = false) (hwaited : natBit c.waited i = false) :
    s.freqWait i = (let t := s.advance (c.since + 10000000 - s.now)
      ({ t with dc := { t.dc with change := some { c with waited := c.waited + 2 ^ i } } } : Block).postI 0x1E 0x152 0 i false
        [pk i 0 0 0, w32 ((t.pair i).slackRep + 16777216 * (t.pair i).rdRep)]) := by
  simp only [Block.freqWait, hchange, hleft, hlate, hwaited, Bool.not_true, Bool.not_false, Bool.or_self, Bool.false_eq_true, if_false, if_true]

/-- A committed OOS takes a pair that serves out of service (R489). -/
theorem Block.pairService_out (hen : bit (s.act (R.DMCP_CFG i)) 0 = true) (hoos : bit (s.act (R.DMCP_CFG i)) 1 = true)
    (hst : (s.pair i).st = 2) : s.pairService i = s.pairGoto i 7 := by
  simp [Block.pairService, hen, hoos, hst]

/-- A pair whose OOS is committed to 0 comes back into service (R489). -/
theorem Block.pairService_in (hen : bit (s.act (R.DMCP_CFG i)) 0 = true) (hoos : bit (s.act (R.DMCP_CFG i)) 1 = false)
    (hst : (s.pair i).st = 7) : s.pairService i = s.pairIn i := by
  simp [Block.pairService, hen, hoos, hst]

/-- A DRAM_SWEEP of legal parameters starts on an out-of-service pair where no other sweep and no CALIBRATE runs (R491). -/
theorem Block.sweepAccept_starts {c : Cmd} (hpair : c.par 16 1 ≤ 10) (hsp : c.par 17 1 ≤ 3) (hspace : c.par 18 1 ≤ 1)
    (hfree : s.dc.sweep = none) (hcal : s.ca = none) (hst : (s.pair (c.par 16 1)).st = 7) :
    s.sweepAccept c = (let w : Sweep := { cseq := c.cseq, pair := c.par 16 1, sp := c.par 17 1,
                                          space := natBit (c.par 18 1) 0, addr := c.par 24 8, calib := false }
      (s.sweepStart w).setStage c.cseq 1) := by
  have hlegal : ¬ (10 < c.par 16 1 ∨ 3 < c.par 17 1 ∨ 1 < c.par 18 1) := by omega
  have hidle : ¬ (s.dc.sweep.isSome || s.ca.isSome) = true := by simp [hfree, hcal]
  exact (if_neg hlegal).trans ((if_neg hidle).trans (if_neg (not_not_intro hst)))

/-- A DRAM_SWEEP that comes without results is accepted or refused, and nothing ends. -/
theorem execDramSweep_accepts {cseq : Word} {c : Cmd} (q : List Instr) (xok : Bool) (hstart : s.startable cseq 0xE = some c) :
    execDramSweep cseq [] xok ⟨s, q⟩ = .next ⟨s.sweepAccept c, q⟩ := by
  simp only [execDramSweep, State.does_next, hstart, List.length_nil, OfNat.zero_ne_ofNat, and_false, if_false]
  cases (s.sweepAccept c).dc.sweep <;> rfl

/-- The results of a sweep end it (R491). -/
theorem execDramSweep_ends {cseq : Word} {pass : List Nat} {w : Sweep} (q : List Instr) (xok : Bool) (hnew : s.startable cseq 0xE = none)
    (hsweep : s.dc.sweep = some w) (hmine : w.cseq = cseq) (hcmd : w.calib = false) (hpass : pass.length = 8) :
    execDramSweep cseq pass xok ⟨s, q⟩ = .next ⟨s.sweepEnd w pass xok, q⟩ := by
  simp only [execDramSweep, State.does_next, hnew, hsweep, if_pos (And.intro hmine (And.intro hcmd hpass))]
end

/-- Settles O25: a clause's hypotheses are the tests its command makes. -/
theorem dramSetPointCommandsRun : Obligations.DramSetPointCommandsRun := by
  refine ⟨?down, ?up, ?start, ?change, ?wait, ?out, ?back, ?sweep, ?swept⟩
  case down =>
    intro s q t0 hthrottle hon
    change execDramStepDownRequest ⟨s, q⟩ = _
    simp only [execDramStepDownRequest, State.does_next, hthrottle, hon, Bool.not_true, Bool.false_eq_true, if_false]
  case up =>
    intro s q t0 hcool hcap
    change execDramStepUpRequest ⟨s, q⟩ = _
    simp only [execDramStepUpRequest, State.does_next, hcool, if_neg (Nat.not_le.mpr hcap)]
  case start =>
    intro s q c hdue
    change execDramFreqChangeStart ⟨s, q⟩ = _
    rw [execDramFreqChangeStart, State.does_next, hdue]
  case change => exact fun s q i c hi hchange hleft hmay => does_of_eq q ((if_pos hi).trans (Block.pairChange_may hchange hleft hmay))
  case wait =>
    intro s q i c hi hchange hleft hlate hwaited
    exact does_of_eq q ((if_pos hi).trans (Block.freqWait_first hchange hleft hlate hwaited))
  case out => exact fun s q i hi hen hoos hst => does_of_eq q ((if_pos hi).trans (Block.pairService_out hen hoos hst))
  case back => exact fun s q i hi hen hoos hst => does_of_eq q ((if_pos hi).trans (Block.pairService_in hen hoos hst))
  case sweep =>
    intro s q cseq xok c hstart hpair hsp hspace hfree hcal hst
    exact (execDramSweep_accepts q xok hstart).trans (by rw [Block.sweepAccept_starts hpair hsp hspace hfree hcal hst])
  case swept =>
    intro s q cseq pass xok w hnew hsweep hmine hcmd hpass
    exact execDramSweep_ends q xok hnew hsweep hmine hcmd hpass

end Sys2Proof.Machine

namespace Sys2Proof.Machine

/-! The Seedbank (R504 to R515). -/

section
variable {s : Block}

/-- A record that a SEED_STORE asked for, and that is no policy record, completes its command as it commits (R504). -/
theorem execSeedWriteDone_store {t : Block} {w : SeedWrite} {c : Word} (q : List Instr) (hcommit : s.seedCommit = (t, some w))
    (hpolicy : policyType w.req.ty = false) (hwhy : w.req.why = .store) (hcseq : w.req.cseq = some c) :
    execSeedWriteDone ⟨s, q⟩ = .next ⟨t.complete c 0, q⟩ := by
  simp only [execSeedWriteDone, State.does_next, hcommit, hpolicy, hwhy, hcseq, Bool.false_eq_true, and_false, if_false]

/-- The oldest reserved copy that waits is begun where neither a record nor a copy is being written (R507). -/
theorem Block.copyStart_oldest {i : Nat} {r : SeedReq} (hidle : s.se.wr = none) (hnone : s.se.copyWr = none)
    (hfirst : s.se.queue.findIdx? (fun r => decide (2 ≤ r.kind)) = some i) (hreq : s.se.queue[i]? = some r) (hkind : r.kind = 2) :
    s.copyStart = { s with se := { s.se with queue := s.se.queue.eraseIdx i, copyWr := some (s.copyBegin r.ty r.data) } } := by
  have hreport : r.kind ≠ 3 := by omega
  simp only [Block.copyStart, hidle, hnone, hfirst, hreq, if_neg hreport]

/-- The scrub reads a good word (R512). -/
theorem execSeedScrubRead_good {t : Block} (q : List Instr) (hon : bit (s.reg R.SEED_CTRL) 0 = true) (hidle : s.se.wr = none)
    (ht : t = (s.toLocal (s.se.scrubAt + seedScrubGap)).scrubWord s.se.scrub) (hgood : t.se.bad.contains s.se.scrub = false) :
    execSeedScrubRead 0 ⟨s, q⟩ = .next ⟨t, q⟩ := by
  have hruns : ¬ (!bit (s.reg R.SEED_CTRL) 0 || s.se.wr.isSome) = true := by simp [hon, hidle]
  subst ht
  refine does_of_eq q ((if_neg hruns).trans ((if_neg ?_).trans (if_neg (by decide))))
  rintro (hresult | hbad)
  · exact absurd hresult (by decide)
  · exact absurd hbad (ne_true_of_eq_false hgood)

/-- A legal SEED_STORE from the host bus, without owner policy, queues its record (R514). -/
theorem Block.seedStore_queued {c : Cmd} (d : Bytes) (htype : storeType (c.par 16 2) = true) (hbus : c.par 18 1 = 0) (hlen : c.par 20 4 ≠ 0)
    (hfits : c.par 20 4 ≤ slotSize (c.par 16 2) - 32) (hopen : s.ownerPolicy = false) :
    s.seedStore c (some d) = (s.seedAsk (recordReq (c.par 16 2) false (padBytes (c.par 20 4) d) (some c.cseq) .store)).setStage c.cseq 1 := by
  have hlegal : ¬ (!storeType (c.par 16 2) || decide (1 < c.par 18 1) || decide (c.par 20 4 = 0) ||
      decide (slotSize (c.par 16 2) - 32 < c.par 20 4)) = true := by
    simp [htype, hbus, hlen, hfits]
  refine (if_neg hlegal).trans ?_
  simp only [hbus, show natBit 0 0 = false from rfl, Block.readBuf, Option.isNone_some, Option.getD_some, hopen, Bool.false_and, Bool.and_false,
    Bool.not_false, Bool.true_or, Bool.not_true, Bool.false_eq_true, if_false]

/-- SEED_LOAD of the newest record of a type, valid and no certificate, writes header and payload to the host (R515). -/
theorem Block.seedLoad_newest {c : Cmd} {k : Nat} (htype : (slotTable (c.par 16 2)).isNone = false) (hwhich : c.par 18 1 = 0)
    (hnewest : s.newest (c.par 16 2) = some k) (hvalid : (s.slot (c.par 16 2) k).st = 1) (hcert : c.par 16 2 ≠ 8)
    (hfits : 16 + (s.slot (c.par 16 2) k).payload.length ≤ c.par 20 4) :
    s.seedLoad c true = ((s.slotErrors (c.par 16 2) k).emit (.hostWrite (c.par 24 8) ((leBytes 2 (c.par 16 2) ++ leBytes 2 1 ++
      leBytes 4 (s.slot (c.par 16 2) k).seq.toNat ++ leBytes 4 (s.slot (c.par 16 2) k).payload.length ++ leBytes 4 0) ++
      (s.slot (c.par 16 2) k).payload))).complete c.cseq 0 := by
  have hroom : ¬ c.par 20 4 < 16 + (s.slot (c.par 16 2) k).payload.length := Nat.not_lt.mpr hfits
  simp [Block.seedLoad, htype, hwhich, hnewest, hvalid, hcert, hroom, Block.writeBuf, natBits, natBit]
end

/-- Settles O28: a clause's hypotheses are the tests its command makes. -/
theorem seedbankCommandsRun : Obligations.SeedbankCommandsRun := by
  refine ⟨?write, ?commits, ?check, ?copy, ?scrub, ?select, ?store, ?load⟩
  case write => exact fun s q n => rfl
  case commits => exact fun s t q w c hcommit hpolicy hwhy hcseq => execSeedWriteDone_store q hcommit hpolicy hwhy hcseq
  case check => exact fun s q ty slot hty hslot hfree => does_of_eq q (if_pos ⟨hty, hslot, hfree⟩)
  case copy =>
    intro s q n i r hidle hnone hfirst hreq hkind
    exact does_of_eq (f := fun s => s.copyStart.copyStep n) q (by rw [Block.copyStart_oldest hidle hnone hfirst hreq hkind])
  case scrub => exact fun s t q hon hidle ht hgood => execSeedScrubRead_good q hon hidle ht hgood
  case select => exact fun s q v h hlock => does_onWrite q h hlock fun s => s.seedSel v
  case store =>
    intro s q cseq d c hstart htype hbus hlen hfits hopen
    change execSeedStore cseq (some d) ⟨s, q⟩ = _
    simp only [execSeedStore, State.does_next, hstart, Block.seedStore_queued d htype hbus hlen hfits hopen]
  case load =>
    intro s q cseq k c hstart htype hwhich hnewest hvalid hcert hfits
    change execSeedLoad cseq true ⟨s, q⟩ = _
    simp only [execSeedLoad, State.does_next, hstart, Block.seedLoad_newest htype hwhich hnewest hvalid hcert hfits]

end Sys2Proof.Machine

namespace Sys2Proof.Machine

/-! Trust: ATTEST, OWNER_KEY and the debug challenge (R520 to R528). -/

section
variable {s : Block} {c : Cmd}

/-- ATTEST captures at its acceptance where none is being signed (R526). -/
theorem Block.attestStart_captures (hidle : s.tr.attest = none) (hspace : c.par 24 1 ≤ 1)
    (hroom : 768 + 72 * s.bt.mlog.length + 4 + s.tr.cert.length ≤ c.par 28 4) (hidentity : s.tr.identity = true) :
    s.attestStart c =
      (({ s with tr := { s.tr with
            attest := some { cseq := c.cseq, dev := natBit (c.par 24 1) 0, addr := c.par 16 8,
                             quote := s.quote ((c.param.drop 16).take 32), log := s.logBytes,
                             count := s.bt.mlog.length } } } : Block).setStage c.cseq 1) := by
  have hlegal : ¬ (1 < c.par 24 1 ∨ c.par 28 4 < 768 + 72 * s.bt.mlog.length + 4 + s.tr.cert.length) := by omega
  refine (if_neg hlegal).trans ((if_neg (by simp [hidentity])).trans (if_neg ?_))
  simp [hidle]

/-- ATTEST without a signature is accepted. -/
theorem execAttest_accepts {cseq : Word} (q : List Instr) (xok : Bool) (hstart : s.startable cseq 9 = some c)
    (hnew : s.attestWaits cseq = false) : execAttest cseq none xok ⟨s, q⟩ = .next ⟨s.attestStart c, q⟩ := by
  simp only [execAttest, State.does_next, hstart, hnew, Bool.false_eq_true, if_false]
  cases (s.attestStart c).tr.attest <;> rfl

/-- The signature ends the ATTEST it is for, and what waited for the signer goes on (R520). -/
theorem execAttest_ends {cseq : Word} {a : Attest} (q : List Instr) (g : Bytes) (xok : Bool) (hsigning : s.tr.attest = some a)
    (hmine : a.cseq = cseq) (hstart : s.startable cseq 9 = none) :
    execAttest cseq (some g) xok ⟨s, q⟩ = .next ⟨(s.attestEnd a g xok).rsaServe s.tr.rsaWait, q⟩ := by
  simp only [execAttest, State.does_next, hstart, hsigning, if_pos hmine]

/-- An OWNER_KEY operation whose package is read from the host bus in READY does what its kind does (R521). -/
theorem does_ownerKey {t : Block} {cseq : Word} {d : Bytes} {op : Nat} {f : Block → Cmd → List Byte → Block} (q : List Instr)
    (hstart : s.startable cseq 0xA = some c) (hop : c.par 16 1 = op) (hkind : 1 ≤ op ∧ op ≤ 4)
    (hready : s.pw.state = .ready) (hslot : c.par 17 1 ≤ 3) (hbus : c.par 18 1 = 0)
    (hpop : field (padBytes 1040 d) 512 1 = c.par 16 1) (hpslot : field (padBytes 1040 d) 513 1 = c.par 17 1)
    (heffect : f s c (padBytes 1040 d) = t) : State.does ⟨s, q⟩ (fun s => s.ownerKey cseq op (some d) f) = .next ⟨t, q⟩ := by
  have hknown : ¬ (c.par 16 1 = 0 ∨ 4 < c.par 16 1) := by omega
  have hlegal : ¬ (3 < c.par 17 1 ∨ 1 < 0) := by omega
  have hpackage : s.ownerPackage c (some d) = (s, .ok (padBytes 1040 d)) := by
    simp only [Block.ownerPackage, hready, hbus, if_neg hlegal, Block.readBuf, Option.getD_some, Option.isNone_some, hpop, hpslot, and_self,
      if_true, show natBit 0 0 = false from rfl, Bool.and_false, Bool.false_eq_true, if_false]
    rfl
  simp only [State.does_next, Block.ownerKey, hstart, if_neg hknown, if_neg (not_not_intro hop), hpackage, heffect]

/-- The first key of a device is installed on the factory's authority, for the device it names (R521). -/
theorem Block.ownerInstall_first {p : List Byte} (hfree : s.ownerUsed (ownerOp c p).slot = false)
    (hfirst : (List.range 4).any s.ownerUsed = false) (hauth : (ownerOp c p).auth = 255) (huid : (p.drop 516).take 8 = s.uidBytes) :
    s.ownerInstall c p = s.ownerRecord (ownerOp c p) := by
  simp only [Block.ownerInstall, hfree, hfirst, hauth, huid, beq_self_eq_true, Bool.not_false, Bool.and_self, and_self, Bool.false_eq_true,
    if_false, if_true]

/-- A revocation with authority is carried out where the policy is off (R522). -/
theorem Block.ownerRevoke_authorised {p : List Byte} (hauth : s.authOk (ownerOp c p) p = true) (hoff : (s.verified true).fuse 2950 = false) :
    s.ownerRevoke c p = (s.verified true).ownerDone (ownerOp c p) [2944 + (ownerOp c p).slot] := by
  simp only [Block.ownerRevoke, Block.authorised, hauth, hoff, Bool.not_true, Bool.false_and, Bool.false_eq_true, if_false]

/-- The policy is turned on with authority (R522). -/
theorem Block.ownerPolicyOn_authorised {p : List Byte} (hauth : s.authOk (ownerOp c p) p = true) :
    s.ownerPolicyOn c p = (s.verified true).ownerDone (ownerOp c p) [2950] := by
  simp only [Block.ownerPolicyOn, Block.authorised, hauth, if_true]

/-- The modulus of a slot in use is restored where its digest is the slot's (R522). -/
theorem Block.ownerRestore_matching {p : List Byte} (hused : s.ownerUsed (ownerOp c p).slot = true)
    (hdigest : (sha512 (ownerOp c p).modulus == s.ownerHash (ownerOp c p).slot) = true) :
    s.ownerRestore c p = s.ownerRecord (ownerOp c p) := by
  refine if_pos ?_
  rw [hused, hdigest]; rfl
end

/-- Settles O29: a clause's hypotheses are the tests its command makes. -/
theorem trustCommandsRun : Obligations.TrustCommandsRun := by
  refine ⟨?attest, ?signed, ?install, ?revoke, ?policy, ?restore, ?challenge, ?response, ?expiry⟩
  case attest =>
    intro s q cseq xok c hidle hstart hnew hspace hroom hidentity
    exact (execAttest_accepts q xok hstart hnew).trans (by rw [Block.attestStart_captures hidle hspace hroom hidentity])
  case signed => exact fun s q cseq g xok a hsigning hmine hstart => execAttest_ends q g xok hsigning hmine hstart
  case install =>
    intro s q cseq d c hstart hop hready hslot hbus hpop hpslot hfree hfirst hauth huid
    exact does_ownerKey q hstart hop (by decide) hready hslot hbus hpop hpslot (Block.ownerInstall_first hfree hfirst hauth huid)
  case revoke =>
    intro s q cseq d c hstart hop hready hslot hbus hpop hpslot hauth hoff
    exact does_ownerKey q hstart hop (by decide) hready hslot hbus hpop hpslot (Block.ownerRevoke_authorised hauth hoff)
  case policy =>
    intro s q cseq d c hstart hop hready hslot hbus hpop hpslot hauth
    exact does_ownerKey q hstart hop (by decide) hready hslot hbus hpop hpslot (Block.ownerPolicyOn_authorised hauth)
  case restore =>
    intro s q cseq d c hstart hop hready hslot hbus hpop hpslot hused hdigest
    exact does_ownerKey q hstart hop (by decide) hready hslot hbus hpop hpslot (Block.ownerRestore_matching hused hdigest)
  case challenge => exact fun s q random h => does_onStrobe q h fun s => s.newChallenge random
  case response => exact fun s q modulus scope sig h => does_of_eq q (if_pos h)
  case expiry => exact fun s q hvalid => does_of_eq q (if_pos hvalid)

end Sys2Proof.Machine

namespace Sys2Proof.Machine

/-! The fabric's links, modules and frames (R535 to R559). -/

section
variable {s : Block} {p : Nat}

/-- A LINK_CTRL that acknowledges is due 1 us after the last one (R539). -/
theorem execLinkCtrlSend_due (q : List Instr) (hup : s.linkUp p = true) (hack : (s.fport p).ackDue = true) :
    execLinkCtrlSend p ⟨s, q⟩ = .next ⟨(s.advance ((s.fport p).lastCtrl + 1000 - s.now)).linkCtrl p false false, q⟩ := by
  simp only [execLinkCtrlSend, State.does_next, hup, hack, Bool.true_or, if_true]

/-- A port that trains keeps trying, 500 ms from when it began (R536). -/
theorem execAlignmentTimeout_trains (q : List Instr) (hst : (s.fport p).st = 3) :
    execAlignmentTimeout p ⟨s, q⟩ = .next ⟨(let t := s.advance ((s.fport p).since + 500000000 - s.now)
      (t.fGoto p 2).modF p fun k => { k with since := t.now }), q⟩ := by
  simp only [execAlignmentTimeout, State.does_next, hst]

/-- A module that is inserted while housekeeping runs is read, and its port follows (R545). -/
theorem execModuleInserted_read (id temp : Nat) (q : List Instr) (hp : p < 4)
    (hup : ({ s with pins := { s.pins with modPrsN := setAt s.pins.modPrsN p false } } : Block).hkUp = true) :
    execModuleInserted p id temp ⟨s, q⟩ = .next
      ⟨(let u : Block := { s with pins := { s.pins with modPrsN := setAt s.pins.modPrsN p false } }
        let t := u.modF p fun k => { k with modId := id % 256, modTemp := temp % 256, polled := s.now }
        if t.fEn p then t.fRefresh p else t.moduleFollows p), q⟩ := by
  simp only [execModuleInserted, State.does_next, if_pos hp, hup, if_true]

/-- A poll with alarm flags, that finds the light at the port, raises the module's alarm (R547). -/
theorem execModulePoll_alarm (flags : Word) (temp : Nat) (q : List Instr) (hup : s.hkUp = true)
    (hpresent : s.pins.modPrsN.getD p true = false) :
    execModulePoll p flags temp true false ⟨s, q⟩ = .next ⟨(s.modulePolled p temp true).moduleAlarm p flags, q⟩ := by
  simp only [execModulePoll, State.does_next, if_pos (And.intro hup hpresent), Bool.false_eq_true, false_and, if_false, if_true]

/-- A poll without alarm flags, that finds the light at the port, closes the record of the module's alarm (R547). -/
theorem execModulePoll_quiet (flags : Word) (temp : Nat) (q : List Instr) (hup : s.hkUp = true)
    (hpresent : s.pins.modPrsN.getD p true = false) :
    execModulePoll p flags temp false false ⟨s, q⟩ = .next ⟨(s.modulePolled p temp false).autoClose (0x22 + p) 0x1C9
      fun d => decide (d.toNat % 256 = p), q⟩ := by
  simp only [execModulePoll, State.does_next, if_pos (And.intro hup hpresent), Bool.false_eq_true, false_and, if_false]

/-- A frame whose codewords needed no correction leaves the FEC counts alone (R542). -/
theorem execFabricFrameReceived_clean (d : Bytes) (q : List Instr) (hup : s.linkUp p = true) :
    execFabricFrameReceived p d 0 0 ⟨s, q⟩ = .next ⟨s.frameIn p d false, q⟩ := by
  simp only [execFabricFrameReceived, State.does_next, hup, ite_self, if_true, bne_self_eq_false]

/-- The corrected and the uncorrectable codewords of a frame are counted where FEC is on (R542). -/
theorem execFabricFrameReceived_counted (d : Bytes) {corr uncorr : Nat} (q : List Instr) (hup : s.linkUp p = true)
    (hfec : s.abit (R.WPXP_CFG p) 1 = true) (hcorr : corr ≠ 0) (huncorr : uncorr ≠ 0) :
    execFabricFrameReceived p d corr uncorr ⟨s, q⟩ = .next ⟨((((s.bump (R.WPXP_FEC_CORR p) corr).postTally 0x1D2 p).bump
      (R.WPXP_FEC_UNCORR p) uncorr).frameIn p d true), q⟩ := by
  simp only [execFabricFrameReceived, State.does_next, hup, hfec, if_true, if_neg hcorr, if_neg huncorr, bne_iff_ne.mpr huncorr]

/-- A legal FABRIC_SEND from the host bus sends its message (R558, R559): to one station by its route, to a group by its tree. -/
theorem execFabricSend_sends {cseq : Word} (d : Bytes) {c : Cmd} (q : List Instr) (hstart : s.startable cseq 0xC = some c)
    (hlegal : sendParams c = true) (hon : s.fabOn = true) (haddr : s.fb.addr ≠ 0) (hbus : natBit (c.par 17 1) 1 = false)
    (hroute : natBit (c.par 17 1) 0 = false → (s.routeOf (c.par 18 2)).isSome = true) :
    execFabricSend cseq (some d) ⟨s, q⟩ =
      .next ⟨s.sendMsg c (padBytes (c.par 20 4) d) (if natBit (c.par 17 1) 0 then none else s.routeOf (c.par 18 2)), q⟩ := by
  have hready : ¬ (!s.fabOn || s.fb.addr == 0 || !natBit (c.par 17 1) 0 &&
      (if natBit (c.par 17 1) 0 then none else s.routeOf (c.par 18 2)).isNone) = true := by
    cases hone : natBit (c.par 17 1) 0 with
    | true => simp [hon, haddr]
    | false => simpa [hon, haddr, Option.isSome_iff_ne_none] using hroute hone
  simp only [execFabricSend, State.does_next, hstart, hlegal, hbus, if_neg hready, Block.readBuf, Option.isNone_some, Option.getD_some,
    Bool.not_true, Bool.and_false, Bool.false_eq_true, if_false]
end

/-- Settles O12: a clause's hypotheses are the tests its command makes. -/
theorem fabricLinkCommandsRun : Obligations.FabricLinkCommandsRun := by
  refine ⟨?ctrlSend, ?retry, ?ctrl, ?audit, ?up, ?align, ?inserted, ?alarm, ?quiet, ?removed, ?host, ?frame, ?counted, ?unicast, ?multicast⟩
  case ctrlSend => exact fun s q p hup hack => execLinkCtrlSend_due q hup hack
  case retry => exact fun s q p hup hreplay => does_of_eq q (if_pos ⟨hup, hreplay⟩)
  case ctrl => exact fun s q p d hup => does_of_eq q (if_pos hup)
  case audit => exact fun s q p d hup => does_of_eq q (if_pos hup)
  case up =>
    intro s q p nonce hst hen
    change execFabricLinkUp p nonce ⟨s, q⟩ = _
    simp only [execFabricLinkUp, State.does_next, hst, hen, if_true]
  case align => exact fun s q p hst => execAlignmentTimeout_trains q hst
  case inserted => exact fun s q p id temp hp hup => execModuleInserted_read id temp q hp hup
  case alarm => exact fun s q p flags temp hup hpresent => execModulePoll_alarm flags temp q hup hpresent
  case quiet => exact fun s q p flags temp hup hpresent => execModulePoll_quiet flags temp q hup hpresent
  case removed => exact fun s q p hp => does_of_eq q (if_pos hp)
  case host =>
    intro s q frame hon hproto
    exact does_of_eq q (if_pos (by rw [hon, decide_eq_true hproto]; rfl))
  case frame => exact fun s q p d hup => execFabricFrameReceived_clean d q hup
  case counted => exact fun s q p d corr uncorr hup hfec hcorr huncorr => execFabricFrameReceived_counted d q hup hfec hcorr huncorr
  case unicast =>
    intro s q cseq d c r hstart hlegal hone hon haddr hroute
    refine (execFabricSend_sends d q hstart hlegal hon haddr (by rw [hone]; rfl) fun _ => by rw [hroute]; rfl).trans ?_
    rw [hone, hroute]; rfl
  case multicast =>
    intro s q cseq d c hstart hlegal hmany hon haddr
    refine (execFabricSend_sends d q hstart hlegal hon haddr (by rw [hmany]; rfl) fun hone => ?_).trans ?_
    · rw [hmany] at hone
      exact absurd hone (by decide)
    · rw [hmany]; rfl

end Sys2Proof.Machine

namespace Sys2Proof.Machine

/-! Discovery, routes, fabric time, admission and the boot service (R548 to R567). -/

section
variable {s : Block} {p : Nat}

/-- A port that lost its alignment trains anew (R549). -/
theorem execNeighbourDown_loss (q : List Instr) (hup : s.linkUp p = true) :
    execNeighbourDown p true ⟨s, q⟩ = .next ⟨s.retrain p 1, q⟩ := by
  simp only [execNeighbourDown, State.does_next, hup, Bool.not_true, Bool.false_eq_true, if_false, if_true]

/-- A neighbour whose HELLO has not come for 40 ms is dropped (R549). -/
theorem execNeighbourDown_silent {t : Nat} (q : List Instr) (hup : s.linkUp p = true) (hheard : (s.fport p).heard = some t) :
    execNeighbourDown p false ⟨s, q⟩ = .next ⟨(s.advance (t + 40000000 - s.now)).nbrDrop p, q⟩ := by
  simp only [execNeighbourDown, State.does_next, hup, hheard, Bool.not_true, Bool.false_eq_true, if_false]

/-- A record of another station ages out (R550). -/
theorem execLsaAgeOut_other {uid : Nat} {l : Lsa} (q : List Instr) (hrecord : lsaOf s.fb.lsas uid = some l) (hon : s.fabOn = true)
    (hother : uid ≠ s.uidNat) :
    execLsaAgeOut uid ⟨s, q⟩ =
      .next ⟨(s.advance (l.stored + 4 * s.afld R.WPX_ROUTE_CFG 16 8 * 1000000000 - s.now)).lsaDrop uid, q⟩ := by
  simp only [execLsaAgeOut, State.does_next, hrecord, hon, bne_iff_ne.mpr hother, Bool.and_self, if_true]
end

/-- Settles O13: a clause's hypotheses are the tests its command makes. -/
theorem fabricRouteCommandsRun : Obligations.FabricRouteCommandsRun := by
  refine ⟨?helloSend, ?hello, ?loss, ?silent, ?alt, ?originate, ?lsa, ?ageOut, ?root, ?assign, ?hold, ?swap, ?syncSend, ?sync, ?pdelay,
    ?admission, ?retry, ?boot⟩
  case helloSend => exact fun s q p hst => does_of_eq q (if_pos hst)
  case hello =>
    intro s q p d hst hsame
    exact does_of_eq q ((if_pos hst).trans (if_neg (ne_true_of_eq_false hsame)))
  case loss => exact fun s q p hup => execNeighbourDown_loss q hup
  case silent => exact fun s q p t hup hheard => execNeighbourDown_silent q hup hheard
  case alt => exact fun s q p hst => does_of_eq q (if_pos (.inl hst))
  case originate =>
    intro s q hon hdue
    refine does_of_eq q ((if_pos hon).trans ?_)
    rw [if_pos hdue]
  case lsa => exact fun s q p d hst => does_of_eq q (if_pos hst)
  case ageOut => exact fun s q uid l hrecord hon hother => execLsaAgeOut_other q hrecord hon hother
  case root => exact fun s q hon => does_of_eq q (if_pos hon)
  case assign => exact fun s q p d hst => does_of_eq q (if_pos hst)
  case hold =>
    intro s q t hchange hidle
    change execSpfHoldExpiry ⟨s, q⟩ = _
    simp only [execSpfHoldExpiry, State.does_next, hchange, hidle]
  case swap =>
    intro s q ms since t hshadow hcomputing
    change execRouteSwap ms ⟨s, q⟩ = _
    simp only [execRouteSwap, State.does_next, hshadow, hcomputing]
  case syncSend =>
    intro s q r hon hroot
    exact does_of_eq q (if_pos (by rw [hon, hroot]; rfl))
  case sync => exact fun s q p d stamp hst hparent hroot => does_of_eq q (if_pos ⟨hst, hparent, ne_true_of_eq_false hroot⟩)
  case pdelay => exact fun s q p kind n t1 t2 t3 t4 hst => does_of_eq q (if_pos hst)
  case admission =>
    intro s q p d serial rsa sig hup hhk hmode
    exact does_of_eq q (if_pos (by rw [hup, hhk, bne_iff_ne.mpr hmode]; rfl))
  case retry => exact fun s q p nonce hst hhk => does_of_eq q (if_pos ⟨hst, hhk⟩)
  case boot =>
    intro s q p d hup hon
    exact does_of_eq q (if_pos (by rw [hup, hon]; rfl))

end Sys2Proof.Machine

namespace Sys2Proof.Machine

/-! Cue contexts (R573 to R575): what a write, an ARM and a CANCEL do to the context they name, and what they leave alone. -/

/-- No more than the context `i`, what was fetched of it, and the count of refused writes differ. -/
structure Block.OnlyCtx (i : Nat) (s t : Block) : Prop where
  frame : t = { s with regs := t.regs, cu := t.cu }
  cu_eq : t.cu = { s.cu with ctx := t.cu.ctx, fetched := t.cu.fetched }
  ctx_eq : ∀ j, j ≠ i → t.ctx j = s.ctx j
  fetched_iff : ∀ f, f.idx ≠ i → (f ∈ t.cu.fetched ↔ f ∈ s.cu.fetched)
  reg_eq : ∀ a, a ≠ R.CUE_WRITE_REFUSED → t.reg a = s.reg a

section
variable {s t : Block} {i w : Nat} {v : Word}

theorem Block.ctx_setCtx_ne {j : Nat} (c : CueCtx) (hj : j ≠ i) : (s.setCtx i c).ctx j = s.ctx j := by
  unfold Block.ctx Block.setCtx
  dsimp only
  split
  · rw [aget?_adel_ne _ hj]
  · rw [aget?_aput_ne _ _ hj]

/-- A context that is not at its reset value is listed with the value it takes. -/
theorem Block.ctx_setCtx_same {c : CueCtx} (hc : c ≠ CueCtx.reset) : (s.setCtx i c).ctx i = c := by
  unfold Block.ctx Block.setCtx
  dsimp only
  rw [if_neg hc, aget?_aput_same]
  rfl

theorem Block.OnlyCtx.refl (s : Block) : Block.OnlyCtx i s s := ⟨rfl, rfl, fun _ _ => rfl, fun _ _ => .rfl, fun _ _ => rfl⟩

theorem Block.OnlyCtx.bump (h : Block.OnlyCtx i s t) : Block.OnlyCtx i s (t.bump R.CUE_WRITE_REFUSED) where
  frame := congrArg (fun b : Block => b.bump R.CUE_WRITE_REFUSED) h.frame
  cu_eq := h.cu_eq
  ctx_eq := h.ctx_eq
  fetched_iff := h.fetched_iff
  reg_eq a ha := (Block.reg_setReg_ne _ _ ha).trans (h.reg_eq a ha)

theorem Block.OnlyCtx.setCtx (c : CueCtx) : Block.OnlyCtx i s (s.setCtx i c) :=
  ⟨rfl, rfl, fun _ hj => Block.ctx_setCtx_ne c hj, fun _ _ => .rfl, fun _ _ => rfl⟩

theorem Block.OnlyCtx.cueGo (c : CueCtx) (st : Nat) : Block.OnlyCtx i s (s.cueGo i c st) where
  frame := rfl
  cu_eq := rfl
  ctx_eq _ hj := Block.ctx_setCtx_ne _ hj
  fetched_iff f hf := by
    change f ∈ s.cu.fetched.filter _ ↔ _
    rw [List.mem_filter, bne_iff_ne]
    exact and_iff_left hf
  reg_eq _ _ := rfl

theorem Block.OnlyCtx.cueState (st : Nat) : Block.OnlyCtx i s (s.cueState i st) := by
  unfold Block.cueState
  split
  · exact .cueGo _ st
  · exact .bump (.refl s)

theorem Block.OnlyCtx.ctxWrite : Block.OnlyCtx i s (s.ctxWrite i w v) := by
  unfold Block.ctxWrite
  dsimp only
  split
  · exact .bump (.refl s)
  · split
    · exact .setCtx _
    · exact .setCtx _
    · exact .setCtx _
    · split
      · exact .cueGo _ _
      · exact .bump (.setCtx _)
    · exact .refl s

/-- A command on a context, served or not. -/
theorem Block.OnlyCtx.onStrobe {f : Block → Block} (h : Block.OnlyCtx i s (f s)) : Block.OnlyCtx i s (s.onStrobe f) := by
  unfold Block.onStrobe
  split
  · exact h
  · exact .refl s

/-- Words 0 to 2 of a context that is ARMED or FIRED refuse a write (R574). -/
theorem Block.ctxWrite_refused (v : Word) (hw : w < 3) (hst : (s.ctx i).st = 1 ∨ (s.ctx i).st = 2) :
    s.ctxWrite i w v = s.bump R.CUE_WRITE_REFUSED := by
  unfold Block.ctxWrite
  exact if_pos (by simpa [hw] using hst)

/-- A context that is neither ARMED nor FIRED takes a write of the word named (R573). -/
theorem Block.ctxWrite_free (v : Word) (harmed : (s.ctx i).st ≠ 1) (hfired : (s.ctx i).st ≠ 2) :
    s.ctxWrite i 0 v = s.setCtx i { s.ctx i with trigger := (s.ctx i).trigger / 0x100000000 * 0x100000000 + v.toNat } ∧
      s.ctxWrite i 1 v = s.setCtx i { s.ctx i with trigger := (s.ctx i).trigger % 0x100000000 + v.toNat * 0x100000000 } ∧
      s.ctxWrite i 2 v = s.setCtx i { s.ctx i with action := v.toNat } := by
  have hfree : ∀ w : Nat, ¬ (w < 3 && ((s.ctx i).st == 1 || (s.ctx i).st == 2)) = true := by simp [harmed, hfired]
  exact ⟨if_neg (hfree 0), if_neg (hfree 1), if_neg (hfree 2)⟩

/-- Word 3 moves STATE where Table 18.2 lets it (R573). -/
theorem Block.ctxWrite_flags (v : Word) : s.ctxWrite i 3 v =
    if cueMay (s.ctx i).st (bits v 0 3) = true then s.cueGo i ((s.ctx i).withFlags v) (bits v 0 3)
    else (s.setCtx i ((s.ctx i).withFlags v)).bump R.CUE_WRITE_REFUSED := by
  unfold Block.ctxWrite
  exact if_neg (by simp)

/-- A context that has FIRED is not cancelled (Table 18.2). -/
theorem cueMay_fired_cancel {old : Nat} (h : old = 2) : ¬ cueMay old 5 = true := by
  rw [h]
  decide

/-- A count of refused writes alone leaves the rest of the block. -/
theorem Block.bump_frame (a : Nat) : s.bump a = { s with regs := (s.bump a).regs } ∧ (s.bump a).reg a = s.reg a + 1 ∧
    ∀ b, b ≠ a → (s.bump a).reg b = s.reg b :=
  ⟨rfl, Block.reg_setReg_same .., fun _ hb => Block.reg_setReg_ne _ _ hb⟩

/-- One word written through BAR2 at a context's place is a write of that word (R574). -/
theorem Block.barWrite2_ctx (b0 b1 b2 b3 : Byte) (hi : i < 262144) (hw : w < 4) :
    ∃ v, s.barWrite2 (0x2000000 + 16 * i + 4 * w) [b0, b1, b2, b3] = s.ctxWrite i w v := by
  have hbar : s.barWrite2 (0x2000000 + 16 * i + 4 * w) [b0, b1, b2, b3] =
      s.windowCue (0x2000000 + 16 * i + 4 * w - 0x2000000) [b0, b1, b2, b3] := by
    unfold Block.barWrite2
    simp only [List.length_cons, List.length_nil]
    rw [if_neg (by omega), if_pos (by simp; omega)]
  have hoff : 0x2000000 + 16 * i + 4 * w - 0x2000000 = 16 * i + 4 * w := by omega
  have hword : (16 * i + 4 * w) % 4 = 0 := by omega
  have hctx : (16 * i + 4 * w) / 16 = i := by omega
  have hidx : (16 * i + 4 * w) / 4 % 4 = w := by omega
  exact ⟨_, by simp [hbar, hoff, Block.windowCue, bytesWords, hword, hctx, hidx]; rfl⟩

theorem Block.windowWrite_ctx_refused (b0 b1 b2 b3 : Byte) (hi : i < 262144) (hw : w < 3) (hst : (s.ctx i).st = 1 ∨ (s.ctx i).st = 2) :
    s.barWrite2 (0x2000000 + 16 * i + 4 * w) [b0, b1, b2, b3] = s.bump R.CUE_WRITE_REFUSED := by
  obtain ⟨v, hv⟩ := Block.barWrite2_ctx (s := s) b0 b1 b2 b3 hi (Nat.lt_succ_of_lt hw)
  rw [hv, Block.ctxWrite_refused v hw hst]
end

/-- Settles O53: by what each command on a context reaches. -/
theorem cueContextFrame : Obligations.CueContextFrame := by
  refine ⟨fun s t i w v hst => ?write, fun s t v c hc hst => ?op⟩
  case write =>
    obtain rfl := Host.Outcome.next.inj hst
    have hctx : Block.OnlyCtx i s.toBlock (if i < 262144 then s.onStrobe fun s => s.ctxWrite i w v else s.toBlock) := by
      split
      · exact .onStrobe .ctxWrite
      · exact .refl _
    exact ⟨congrArg (fun b : Block => ({ s with toBlock := b } : State)) hctx.frame, hctx.cu_eq, hctx.ctx_eq, hctx.fetched_iff, hctx.reg_eq⟩
  case op =>
    obtain ⟨st, hc⟩ : ∃ st, exec c s = s.does fun s => s.onStrobe fun s => s.cueState (bits v 0 18) st := by
      rcases hc with rfl | rfl
      · exact ⟨1, rfl⟩
      · exact ⟨5, rfl⟩
    obtain rfl := Host.Outcome.next.inj (hc.symm.trans hst)
    have hctx : Block.OnlyCtx (bits v 0 18) s.toBlock (s.onStrobe fun s => s.cueState (bits v 0 18) st) := .onStrobe (.cueState st)
    exact ⟨congrArg (fun b : Block => ({ s with toBlock := b } : State)) hctx.frame, hctx.cu_eq, hctx.ctx_eq, hctx.fetched_iff, hctx.reg_eq⟩

/-- Settles O44: Table 18.2 lets no write into an ARMED or FIRED context, nor a cancel into one that has FIRED. -/
theorem armedCueContextsAreProtected : Obligations.ArmedCueContextsAreProtected := by
  refine ⟨?write, ?window, ?cancel, ?opCancel⟩
  case write =>
    intro s q i w v hhost hi hw hst
    refine ⟨s.bump R.CUE_WRITE_REFUSED, does_of_eq q ?_, Block.bump_frame _⟩
    rw [if_pos hi, Block.onStrobe_served hhost, Block.ctxWrite_refused v hw hst]
  case window =>
    intro s q i w b0 b1 b2 b3 hhost hi hw hst
    refine ⟨s.bump R.CUE_WRITE_REFUSED, ?_, Block.bump_frame _⟩
    rw [← Block.windowWrite_ctx_refused b0 b1 b2 b3 hi hw hst]
    exact does_onStrobe q hhost _
  case cancel =>
    intro s q i v hhost hi hst hcancel
    have hfired : ((s.ctx i).withFlags v).st = 2 := hst
    have hlisted : (s.ctx i).withFlags v ≠ CueCtx.reset := fun h => absurd (hfired.symm.trans (congrArg CueCtx.st h)) (by decide)
    refine ⟨(s.setCtx i ((s.ctx i).withFlags v)).bump R.CUE_WRITE_REFUSED, does_of_eq q ?_, ?_, Block.reg_setReg_same ..⟩
    · rw [if_pos hi, Block.onStrobe_served hhost, Block.ctxWrite_flags, hcancel, if_neg (cueMay_fired_cancel hst)]
    · exact (congrArg CueCtx.st (Block.ctx_setCtx_same hlisted)).trans hfired
  case opCancel =>
    intro s q v hhost hst
    refine ⟨s.cueState (bits v 0 18) 5, does_onStrobe q hhost _, ?_⟩
    rw [Block.cueState, if_neg (cueMay_fired_cancel hst)]
    exact ⟨hst, Block.reg_setReg_same ..⟩

/-! The commands of the Almanac (R573 to R590). -/

section
variable {s : Block}

/-- A write of a context that the host side serves writes that context. -/
theorem execCueContextWrite_served {i : Nat} (w : Nat) (v : Word) (q : List Instr) (hi : i < 262144) (hhost : s.hostOk = true) :
    execCueContextWrite i w v ⟨s, q⟩ = .next ⟨s.ctxWrite i w v, q⟩ :=
  does_of_eq q ((if_pos hi).trans (Block.onStrobe_served hhost _))

/-- An ARMED context alone is cancelled by CUE_OP (Table 18.2). -/
theorem Block.cueState_cancel (i : Nat) :
    s.cueState i 5 = if (s.ctx i).st = 1 then s.cueGo i (s.ctx i) 5 else s.bump R.CUE_WRITE_REFUSED := by
  unfold Block.cueState
  exact if_congr beq_iff_eq rfl rfl

/-- The next effect frame's actions are due while the Almanac runs, once for each effect frame (R578). -/
theorem Block.cuesDue_iff : (s.cueOn && s.cu.firedK != s.cueE && !s.tm.cutoffDone) = true ↔
    s.cueOn = true ∧ s.cu.firedK ≠ s.cueE ∧ s.tm.cutoffDone = false := by
  rw [Bool.and_eq_true, Bool.and_eq_true, bne_iff_ne, Bool.not_eq_true', and_assoc]

/-- The fine-time cue next in turn fires at its tick where no boundary comes first (R582). -/
theorem Block.fineCue_fires {ref i : Nat} {c : CueCtx} (bad : Bool) (hnext : s.nextFine = some (ref, i, c))
    (htick : s.fineTick ref ≤ s.nextFb) :
    s.fineCue bad = (s.advanceTo (s.fineTick ref)).fineFire i c ref (s.fineTick ref) bad := by
  unfold Block.fineCue
  rw [hnext]
  exact if_neg (Nat.not_lt.mpr htick)
end

/-- Settles O30: a clause's hypotheses are the tests its command makes. -/
theorem cueCommandsRun : Obligations.CueCommandsRun := by
  refine ⟨?trigger, ?triggerHi, ?action, ?refused, ?flags, ?arm, ?cancel, ?cancelAll, ?fetch, ?fire, ?fine, ?frame⟩
  case trigger =>
    intro s q i v hi hhost harmed hfired
    obtain ⟨hword, -, -⟩ := Block.ctxWrite_free v harmed hfired
    rw [← hword]
    exact execCueContextWrite_served 0 v q hi hhost
  case triggerHi =>
    intro s q i v hi hhost harmed hfired
    obtain ⟨-, hword, -⟩ := Block.ctxWrite_free v harmed hfired
    rw [← hword]
    exact execCueContextWrite_served 1 v q hi hhost
  case action =>
    intro s q i v hi hhost harmed hfired
    obtain ⟨-, -, hword⟩ := Block.ctxWrite_free v harmed hfired
    rw [← hword]
    exact execCueContextWrite_served 2 v q hi hhost
  case refused =>
    intro s q i w v hi hhost hw hst
    rw [← Block.ctxWrite_refused v hw hst]
    exact execCueContextWrite_served w v q hi hhost
  case flags =>
    intro s q i v hi hhost
    rw [← Block.ctxWrite_flags v]
    exact execCueContextWrite_served 3 v q hi hhost
  case arm => exact fun s q v hhost => does_onStrobe q hhost _
  case cancel =>
    intro s q v hhost
    rw [← Block.cueState_cancel]
    exact does_onStrobe q hhost _
  case cancelAll => exact fun s q v hhost => does_onStrobe q hhost _
  case fetch => exact fun s q bad hon hdue hcut => does_of_eq q (if_pos (Block.cuesDue_iff.mpr ⟨hon, hdue, hcut⟩))
  case fire =>
    intro s q bad hon hdue hcut
    refine does_of_eq (f := fun s => s.cueFiring bad) q (if_pos ?_)
    rw [Bool.and_right_comm]
    exact Block.cuesDue_iff.mpr ⟨hon, hdue, hcut⟩
  case fine => exact fun s q ref i c bad hon hnext htick => does_of_eq q ((if_pos hon).trans (Block.fineCue_fires bad hnext htick))
  case frame => exact fun s q src d hon hlen => does_of_eq q ((if_pos hon).trans (if_neg (not_not_intro hlen)))

end Sys2Proof.Machine

namespace Sys2Proof.Machine

/-! Holdover (R595 to R605). -/

section
variable {s : Block}

/-- A VERIFY of frames that the library holds reads them and reports how many failed (R605). -/
theorem Block.holdVerify_reports {c : Cmd} {reads : List (Bytes × Bytes)} (hop : c.par 16 1 = 1) (hready : s.sf.nvme.st = 3)
    (hcount : c.par 24 4 ≠ 0) (hfits : c.par 20 4 + c.par 24 4 ≤ field s.sf.nvme.header 8 4) :
    s.holdVerify c reads = ((((((reads.take (c.par 24 4)).map (·.1)).mapIdx fun k e => (c.par 20 4 + k, e)).foldl
        (fun (s : Block) x => s.verifyReads x.1 x.2) s).postI 0x28 0x1F3 0 (pageInst 0x28) true
      [c.cseq, w32 (c.par 24 4), w32 (verifyFailed (c.par 20 4) (reads.take (c.par 24 4)) + (c.par 24 4 - reads.length))]).complete
        c.cseq 0) := by
  have hlegal : ¬ (field s.sf.nvme.header 8 4 ≤ c.par 20 4 || field s.sf.nvme.header 8 4 < c.par 20 4 + c.par 24 4) = true := by
    simp only [Bool.or_eq_true, decide_eq_true_eq]
    omega
  unfold Block.holdVerify
  simp only [if_neg hcount, if_neg (not_not_intro hop), if_neg (not_not_intro hready), if_neg hlegal]
end

/-- Settles O31: a clause's hypotheses are the tests its command makes. -/
theorem holdoverCommandsRun : Obligations.HoldoverCommandsRun := by
  refine ⟨?record, ?play, ?library, ?force, ?clear, ?verify⟩
  case record => exact fun s q coded pps done => rfl
  case play => exact fun s q pix => rfl
  case library => exact fun s q => rfl
  case force =>
    intro s q hhost hforce
    refine (does_onStrobe q hhost _).trans ?_
    rw [Block.forceRejoin, if_pos hforce]
  case clear =>
    intro s q hhost hfree
    refine (does_onStrobe q hhost _).trans ?_
    rw [Block.clearRing, if_neg (ne_true_of_eq_false hfree)]
  case verify =>
    intro s q cseq reads c hstart hop hready hcount hfits
    rw [← Block.holdVerify_reports hop hready hcount hfits]
    change execHoldCtrlVerify cseq reads ⟨s, q⟩ = _
    simp only [execHoldCtrlVerify, State.does_next, hstart]

end Sys2Proof.Machine

namespace Sys2Proof.Machine

/-! The check-value units and Tally (R607 to R621). -/

section
variable {s : Block} {u : Nat} {v : Word} {r : RegRow}

/-- A legal write of CHK_CFG is taken, and each of START, MEM and FINISH that it sets follows (R607). -/
theorem Block.chkCfg_legal (hhost : s.hostOk = true) (hrow : rowAt (R.CHK_CFG u) = some r)
    (hlock : bit (s.reg (R.PAGE_LOCK (pageOf (R.CHK_CFG u)))) 0 = false)
    (hlegal : r.legalVal (r.merge (s.reg (R.CHK_CFG u)) v) = true) :
    s.chkCfg u v =
      (let t := s.setReg (R.CHK_CFG u) (r.merge (s.reg (R.CHK_CFG u)) v)
       let t := if bit v 28 then t.chkStart u else t
       let t := if bit v 29 then t.chkMem u else t
       if bit v 30 then t.chkFinish u else t) :=
  Block.rwWrite_legal hhost hrow hlock hlegal _

/-- A word enters a unit that is open and not busy (R608). -/
theorem Block.chkFeed_open (v : Word) (hopen : (s.chkU u).isOpen = true) (hidle : (s.chkU u).busy = false) :
    s.chkFeed u v = s.modChk u fun k => k.word v :=
  if_pos (by rw [hopen, hidle]; rfl)

/-- A counter that reached 2^48 wraps and is reported (R618). -/
theorem Block.tallyWrap_full {n : Nat} {c : TallyCnt} (hcnt : s.ty.cnt[n]? = some c) (hfull : 2 ^ 48 ≤ c.count) :
    s.tallyWrap n = (({ s with ty := { s.ty with cnt := setAt s.ty.cnt n { c with count := c.count % 2 ^ 48, wrapped := true } } } :
      Block).setFld R.TALLY_STATUS 0 6 n).post 0x2A 0x1A8 [pk n 0 0 0, s.tm.fsn] := by
  unfold Block.tallyWrap
  rw [hcnt]
  exact if_pos hfull
end

/-- Settles O32: a clause's hypotheses are the tests its command makes. -/
theorem checkUnitAndTallyCommandsRun : Obligations.CheckUnitAndTallyCommandsRun := by
  refine ⟨?start, ?mem, ?finish, ?feed, ?memDone, ?paramHi, ?paramSel, ?clear, ?wrap, ?gpio⟩
  case start =>
    intro s q u v r hhost hu hrow hlock hlegal hstart hmem hfinish
    refine does_of_eq q ((if_pos hu).trans ((Block.chkCfg_legal hhost hrow hlock hlegal).trans ?_))
    simp only [hstart, hmem, hfinish, if_true, Bool.false_eq_true, if_false]
  case mem =>
    intro s q u v r hhost hu hrow hlock hlegal hstart hmem hfinish
    refine does_of_eq q ((if_pos hu).trans ((Block.chkCfg_legal hhost hrow hlock hlegal).trans ?_))
    simp only [hstart, hmem, hfinish, if_true, Bool.false_eq_true, if_false]
  case finish =>
    intro s q u v r hhost hu hrow hlock hlegal hstart hmem hfinish
    refine does_of_eq q ((if_pos hu).trans ((Block.chkCfg_legal hhost hrow hlock hlegal).trans ?_))
    simp only [hstart, hmem, hfinish, if_true, Bool.false_eq_true, if_false]
  case feed =>
    intro s q u v hhost hu hopen hidle
    exact does_of_eq q ((if_pos hu).trans ((Block.onStrobe_served hhost _).trans (Block.chkFeed_open v hopen hidle)))
  case memDone => exact fun s q u hu _ => does_of_eq q (if_pos hu)
  case paramHi =>
    intro s q u v r hhost hu hrow hlock hlegal
    exact does_of_eq q ((if_pos hu).trans (Block.rwWrite_legal hhost hrow hlock hlegal _))
  case paramSel =>
    intro s q u v r hhost hu hrow hlock hlegal
    exact does_of_eq q ((if_pos hu).trans (Block.rwWrite_legal hhost hrow hlock hlegal _))
  case clear =>
    intro s q v hhost hclear
    refine (does_onStrobe q hhost _).trans ?_
    rw [Block.tallyCtrl, if_pos hclear]
  case wrap => exact fun s q n c hcnt hfull => does_of_eq q (f := fun s => s.tallyWrap n) (Block.tallyWrap_full hcnt hfull)
  case gpio => exact fun s q levels => rfl

end Sys2Proof.Machine

namespace Sys2Proof.Machine

/-! The safety inputs, the supervisor and FAULT_CLEAR (R629 to R637). -/

section
variable {s : Block} {i : Nat}

/-- In READY, with the supervisor running, an input that changes is acted on (R634). -/
theorem execSafetyInput_heard {permits : Bool} (q : List Instr) (hi : ¬ 3 ≤ i) (hchange : s.inputForbids i = permits)
    (hready : s.pw.state = .ready) (hcore : s.pw.coreGated = false) (hrun : s.fl.svRunning = true) :
    execSafetyInput i permits ⟨s, q⟩ =
      .next ⟨if permits then (s.setInput i permits).permit i else (s.setInput i permits).forbid i, q⟩ := by
  have hacts : ¬ (3 ≤ i ∨ s.inputForbids i = !permits) := by simp [hi, hchange]
  have hheard : (s.pw.state == .off || s.pw.state == .aon || s.pw.coreGated || (i == 1 && !s.fl.svRunning)) = false := by
    simp [hready, hcore, hrun]
  simp only [execSafetyInput, State.does_next, if_neg hacts, hheard, Bool.false_eq_true, if_false]

/-- A FAULT_CLEAR without EXIT that names every record closes those whose condition has ended (R633). -/
theorem execFaultClear_all {cseq : Word} {c : Cmd} (q : List Instr) (hstart : s.startable cseq 0xF = some c) (hexit : c.par 20 1 = 0)
    (hzero : ((c.param.drop 5).any (· != 0)) = false) (hall : w32 (c.par 16 4) = 0xFFFFFFFF) :
    execFaultClear cseq ⟨s, q⟩ = .next ⟨s.faultClear c (s.fl.recs.filter fun e => e.2.isOpen && e.2.clearable), q⟩ := by
  have hlegal : ¬ (1 < c.par 20 1 ∨ (c.param.drop 5).any (· != 0) = true) := by rw [hexit, hzero]; decide
  have hstays : ¬ (c.par 20 1 = 1 ∧ s.pw.state ≠ .safe) := by simp [hexit]
  simp only [execFaultClear, State.does_next, hstart, if_neg hlegal, if_neg hstays, if_pos hall]
end

/-- Settles O33: a clause's hypotheses are the tests its command makes. -/
theorem safetyAndFaultCommandsRun : Obligations.SafetyAndFaultCommandsRun := by
  refine ⟨?permit, ?forbid, ?deadman, ?lockstep, ?clear⟩
  case permit => exact fun s q i hi hforbids hready hcore hrun => execSafetyInput_heard q hi hforbids hready hcore hrun
  case forbid => exact fun s q i hi hpermits hready hcore hrun => execSafetyInput_heard q hi hpermits hready hcore hrun
  case deadman =>
    intro s q hrun
    change execSvDeadman ⟨s, q⟩ = _
    simp only [execSvDeadman, State.does_next, hrun, Bool.not_true, Bool.false_eq_true, if_false]
  case lockstep =>
    intro s q hrun
    change execSvLockstep ⟨s, q⟩ = _
    simp only [execSvLockstep, State.does_next, hrun, Bool.not_true, Bool.false_eq_true, if_false]
  case clear => exact fun s q cseq c hstart hexit hzero hall => execFaultClear_all q hstart hexit hzero hall

end Sys2Proof.Machine

namespace Sys2Proof.Machine

/-! What a reset frees and what it keeps (R628), and an occurrence of a fault whose record is open (R625). -/

/-- No fault record is left, and the Seedbank's MRAM is as it was. -/
def Block.RecordsFreed (s t : Block) : Prop := t.fl.recs = [] ∧ t.se.mram = s.se.mram ∧ t.se.bad = s.se.bad

section
variable {s t : Block}

/-- Of the records and the Seedbank, a reset keeps the MRAM alone. -/
theorem Block.RecordsFreed.resetKeep (s : Block) (warm : Bool) : Block.RecordsFreed s (s.resetKeep warm) := by
  unfold Block.RecordsFreed Block.resetKeep
  rw [Block.setRegs_fl, Block.setRegs_se]
  exact ⟨rfl, rfl, rfl⟩

theorem Block.RecordsFreed.placed (h : Block.RecordsFreed s t) (i : Nat) (dst prev : DevState) (reason : Nat) :
    Block.RecordsFreed s ((t.cause i).place dst prev reason) := h

theorem Block.RecordsFreed.warmReset (s : Block) (i : Nat) : Block.RecordsFreed s (s.warmReset i) := by
  rw [Block.warmReset, Block.romTrain_frame]
  exact Block.RecordsFreed.resetKeep s true

/-- The time that the supply monitor's reset lasts does not reach the Seedbank. -/
theorem Block.advance_se (s : Block) (ns : Nat) : (s.advance ns).se = s.se := by
  rw [Block.advance_frame]

theorem Block.RecordsFreed.resetHold (i : Nat) (haon : s.pw.state ≠ .aon) : Block.RecordsFreed s (s.resetHold (some i)) := by
  obtain ⟨hrecs, hmram, hbad⟩ := Block.RecordsFreed.resetKeep (s.advance 2000) false
  rw [Block.advance_se] at hmram hbad
  rw [Block.resetHold, if_neg haon]
  exact ⟨hrecs, hmram, hbad⟩

theorem Block.holdable_of_core (hoff : s.pw.state ≠ .off) (haon : s.pw.state ≠ .aon) (hcore : s.pw.coreGated = false) :
    s.holdable = true := by
  simp [Block.holdable, hoff, haon, hcore]
end

/-- Settles O37: each of these resets goes through the one operation that returns the records and keeps the MRAM. -/
theorem resetsFreeEveryFaultRecord : Obligations.ResetsFreeEveryFaultRecord := by
  refine ⟨?warm, ?porst, ?rail, ?refclk⟩
  case warm =>
    intro s q v hhost hkey hwarm hgo
    refine ⟨s.warmReset 3, (does_onStrobe q hhost _).trans ?_, Block.RecordsFreed.warmReset s 3⟩
    rw [Block.resetCtrl_starts hkey hwarm hgo]
  case porst =>
    intro s q hoff haon hcore
    have hacts : ¬ (s.pw.state = .off ∨ s.pw.state = .aon ∨ s.pw.coreGated = true) := by simp [hoff, haon, hcore]
    refine ⟨(({ s with pins := { s.pins with porstN := false } } : Block).resetKeep false).cause 1 |>.place .aon s.pw.state 0x12,
      does_of_eq q (if_neg hacts), ?_⟩
    exact (Block.RecordsFreed.resetKeep _ false).placed 1 .aon s.pw.state 0x12
  case rail =>
    intro s q r hr hoff haon hcore
    have hacts : ¬ (12 ≤ r ∨ s.holdable = false) := by simp [hr, Block.holdable_of_core hoff haon hcore]
    exact ⟨((s.resetHold (some 2)).setFld R.PWR_RAIL_FAULT r 1 1).setFld R.PWR_RAIL_STATUS r 1 0, does_of_eq q (if_neg hacts),
      Block.RecordsFreed.resetHold 2 haon⟩
  case refclk =>
    intro s q hoff haon hcore
    refine ⟨{ s.resetHold (some 2) with pins := { (s.resetHold (some 2)).pins with refclkOk := false } }, ?_,
      Block.RecordsFreed.resetHold 2 haon⟩
    change execRefclkFailure ⟨s, q⟩ = _
    rw [execRefclkFailure, State.does_next, if_pos (Block.holdable_of_core hoff haon hcore)]

section
variable {s : Block} {page code cls i : Nat} {detail : Word} {way : CloseWay} {r : FaultRec}

theorem satN_eq_min (n : Nat) : satN 16 n = min 65535 n := by
  unfold satN
  split <;> omega

/-- The record found open is listed, and has the page, the code and the detail. -/
theorem Block.openRec_mem (h : s.openRec page code detail = some (i, r)) : (i, r) ∈ s.fl.recs ∧ r.isOpen = true := by
  have hmeets := List.find?_some h
  simp only [Bool.and_eq_true] at hmeets
  exact ⟨List.mem_of_find?_eq_some h, hmeets.1.1.1⟩

/-- A listed key is found. -/
theorem aget?_isSome_of_mem {α : Type} {m : List (Nat × α)} {k : Nat} {v : α} (h : (k, v) ∈ m) : (aget? m k).isSome = true := by
  induction m with
  | nil => exact absurd h List.not_mem_nil
  | cons e m ih =>
    obtain ⟨j, u⟩ := e
    rw [aget?]
    split
    · rfl
    · next hne => exact ih ((List.mem_cons.mp h).resolve_left fun heq => hne (congrArg Prod.fst heq))

/-- A record that recurs: RECUR steps, and a higher class is taken (R625). -/
def FaultRec.recurs (r : FaultRec) (cls : Nat) (way : CloseWay) : FaultRec :=
  if r.cls < cls then { r with recur := satN 16 (r.recur + 1), cls := cls, way := way, clearable := way == .clear }
  else { r with recur := satN 16 (r.recur + 1) }

/-- A recurrence leaves what the record names, and steps its RECUR. -/
theorem FaultRec.recurs_frame (r : FaultRec) (cls : Nat) (way : CloseWay) :
    r.recurs cls way = { r with recur := min 65535 (r.recur + 1), cls := (r.recurs cls way).cls, way := (r.recurs cls way).way,
                                clearable := (r.recurs cls way).clearable } := by
  unfold FaultRec.recurs
  split <;> rw [satN_eq_min]

/-- Of the fault state, a recurrence reaches the record that is open, alone. -/
theorem Block.record_recurs_fl (h : s.openRec page code detail = some (i, r)) (cls : Nat) (way : CloseWay) :
    (s.record page code cls detail way).fl = { s.fl with recs := aput s.fl.recs i (r.recurs cls way) } := by
  unfold Block.record FaultRec.recurs
  simp only [h]
  split
  · rw [Block.postOpen, Block.postI_fl, Block.postTally_fl]
  · rw [Block.postTally_fl]

/-- A recurrence is counted as FAULT_RECUR, and the event of a class that rises as FAULT_OPEN. -/
theorem Block.record_recurs_ty (h : s.openRec page code detail = some (i, r)) (cls : Nat) (way : CloseWay) :
    (s.record page code cls detail way).ty =
      if r.cls < cls then ((s.tally 0x209 0).tally 0x200 0).ty else (s.tally 0x209 0).ty := by
  unfold Block.record
  simp only [h]
  split
  · rw [Block.postOpen, Block.postI_ty]
    rfl
  · rfl
end

/-- Settles O45: by what a recurrence reaches of the fault state and of Tally. -/
theorem recurringFaultOpensNoRecord : Obligations.RecurringFaultOpensNoRecord := by
  intro s page code cls detail way i r h
  obtain ⟨hmem, hopen⟩ := Block.openRec_mem h
  have hframe := r.recurs_frame cls way
  rw [Block.record_recurs_fl h]
  refine ⟨rfl, Block.record_recurs_ty h cls way, fun j => ?_, fun j hj => aget?_aput_ne _ _ hj, r.recurs cls way, aget?_aput_same .., ?_⟩
  · rw [aget?_aput]
    split
    · next hj => rw [hj, aget?_isSome_of_mem hmem, Option.isSome_some]
    · rfl
  · rw [hframe]
    exact ⟨rfl, rfl, rfl, rfl, rfl, hopen⟩

end Sys2Proof.Machine
